-- ==== Sys2Proof/Word.lean ====
section
/-! DEFINITION. The words of the block: bytes, 32-bit registers (R10) and byte strings (packets, parameter blocks). -/

namespace Sys2Proof

/-- One byte of a packet, a buffer or a surface. -/
abbrev Byte := BitVec 8

/-- One register (R10). -/
abbrev Word := BitVec 32

/-- A string of bytes, first byte first. -/
abbrev Bytes := List (BitVec 8)

end Sys2Proof
end

