-- ==== Sys2Proof/Syntax.lean ====
section
/-! DEFINITION. The syntax of the block's commands: what arrives from outside (an Anvil command, a control port
transaction, a packet, a message, an edge on a pin) and what comes about inside it (the completion of a transition,
a tick, a timeout), one constructor per row of the opcode table. -/

namespace Sys2Proof

/-- The route on which an Anvil packet arrives and to which its reply goes (R44, R45, R48): the control port, the
management Ethernet port (source address and UDP port), or the management VLAN of a media interface. -/
inductive Route where
  | cp
  | mgmt (ip udp : Nat)
  | media (iface vlan ip udp : Nat)
  deriving DecidableEq, Repr

/-- An Anvil command header (R38, R40), with the packet's MAC if it has one. `answered` is what the outside does to the
command's damper accesses: `none` if each is answered, `some n` if n are answered and the next exhausts its resends
(R36, R550); for a command that writes the serial flash, `some _` says that the write or its verification fails (R467). -/
structure Hdr where
  route     : Route
  version   : Nat
  noSession : Bool
  ordered   : Bool
  quiet     : Bool
  session   : Nat
  seq       : Nat
  tmode     : Nat
  tid       : Nat
  tag       : Nat
  mac       : Option Bytes
  answered  : Option Nat
  deriving DecidableEq, Repr

/-- What a receiver finds when it checks a damper message (R27): good, a failed header CRC, a failed trailer CRC. -/
inductive MsgCheck where
  | good
  | hcrc
  | crc
  deriving DecidableEq, Repr

/-- R298, R299, R269: a photodiode ADC sample: channel, raw code, the MEDIA time it was taken at (in 2^-16 ns), and the local array of its
Quench tag. -/
structure AdcSample where
  ch    : Nat
  raw   : Nat
  time  : Nat
  array : Nat
  deriving DecidableEq, Repr

/-- R276: what a node of a lamp bus sends within 2.5 µs of a request: nothing, a reply with a bad CRC, or a REPLY (status, value). -/
inductive BusReply where
  | silent
  | badCrc
  | reply (status value : Nat)
  deriving DecidableEq, Repr

/-- R106, R107: a profile that the active parameter sets name. -/
inductive Profile where
  | main
  | main10
  | multiviewMain
  | main3d
  | other
  deriving DecidableEq, Repr

/-- R107: a coding tool that a syntax element enables, in the table's order, and the three extensions below it. -/
inductive Tool where
  | ivDiMc
  | ivMvScal
  | subPbMc
  | wedge
  | skipIntra
  | depthLut
  | ivResPred
  | depthRef
  | vsp
  | dbbp
  | illumination
  | texMc
  | contour
  | cqt
  | interDcOnly
  | rangeExtension
  | screenContent
  | scalability
  deriving DecidableEq, Repr

/-- R106, R107, R109: what the active parameter sets and the slice header say: profile, level × 10, chroma_format_idc, bit depths, luma
size after the conformance window, picture rate in Hz × 1,001, sps_max_dec_pic_buffering_minus1, layers of the bitstream,
field_seq_flag, the tools enabled; and of the VUI colour_primaries and transfer_characteristics (0 absent), full range and chroma
siting; and the CTB size. -/
structure ParamSet where
  profile   : Profile
  level     : Nat
  chroma    : Nat
  bitsY     : Nat
  bitsC     : Nat
  width     : Nat
  height    : Nat
  rate      : Nat
  dpb       : Nat
  layers    : Nat
  fieldSeq  : Bool
  tools     : List Tool
  primaries : Nat
  transfer  : Nat
  full      : Bool
  siting    : Nat
  ctb       : Nat
  deriving DecidableEq, Repr

/-- A prediction block of a picture, as an encoder divides it (R491): its place and size in luma samples. -/
structure PredBlock where
  x : Nat
  y : Nat
  w : Nat
  h : Nat
  deriving DecidableEq, Repr

/-- What an entropy engine finds in a slice segment (R106–R109, R113, R123): what its parameter sets say, whether it activates one, its
order count, address and CTUs, the CTUs and CTU rows of its picture, the recovery point order count of an SEI message, the order counts
its reference picture set names, the components it references in its access unit, the bytes it takes in the entropy-output buffer, and
whether it parses. -/
structure SliceInfo where
  ps       : ParamSet
  activate : Bool
  poc      : Int
  addr     : Nat
  ctus     : Nat
  total    : Nat
  rows     : Nat
  recov    : Option Int
  refs     : List Int
  inter    : List (Nat × Bool)
  bytes    : Nat
  ok       : Bool
  deriving DecidableEq, Repr

/-- The commands and events of the table, one constructor per row. An Anvil opcode carries its packet header and its
parameter bytes (R38); an event carries what the spec says happens in it. -/
inductive Instr where
  | identity (h : Hdr) (p : Bytes)
  | status (h : Hdr) (p : Bytes)
  | abort (h : Hdr) (p : Bytes)
  | sessionOpen (h : Hdr) (p : Bytes)
  | sessionClose (h : Hdr) (p : Bytes)
  | keySet (h : Hdr) (p : Bytes)
  | stackSet (h : Hdr) (p : Bytes)
  | modeSet (h : Hdr) (p : Bytes)
  | eventSelect (h : Hdr) (p : Bytes)
  | eventReplay (h : Hdr) (p : Bytes)
  | regRead (h : Hdr) (p : Bytes)
  | regWrite (h : Hdr) (p : Bytes)
  | regModify (h : Hdr) (p : Bytes)
  | bufCreate (h : Hdr) (p : Bytes)
  | bufWrite (h : Hdr) (p : Bytes)
  | bufRead (h : Hdr) (p : Bytes)
  | bufFree (h : Hdr) (p : Bytes)
  | surfUpload (h : Hdr) (p : Bytes)
  | surfUploadDone
  | raymodelSet (h : Hdr) (p : Bytes)
  | raymodelGet (h : Hdr) (p : Bytes)
  | aimSet (h : Hdr) (p : Bytes)
  | planishLoad (h : Hdr) (p : Bytes)
  | planishLoadDone
  | planishClone (h : Hdr) (p : Bytes)
  | planishCloneDone
  | planishSelect (h : Hdr) (p : Bytes)
  | planishRead (h : Hdr) (p : Bytes)
  | planishStatus (h : Hdr) (p : Bytes)
  | planishRetireDone
  | decodeStreamSet (h : Hdr) (p : Bytes)
  | decodeStreamEnable (h : Hdr) (p : Bytes)
  | decodeTransitionDone (slot : Nat)
  | decodePriority (h : Hdr) (p : Bytes)
  | decodeAssign (h : Hdr) (p : Bytes)
  | decodeStatus (h : Hdr) (p : Bytes)
  | decodeEvents (h : Hdr) (p : Bytes)
  | synSourceSet (h : Hdr) (p : Bytes)
  | synSourceGet (h : Hdr) (p : Bytes)
  | synConfig (h : Hdr) (p : Bytes)
  | synStatus (h : Hdr) (p : Bytes)
  | synGrateSet (h : Hdr) (p : Bytes)
  | surfaceCreate (h : Hdr) (p : Bytes)
  | surfaceFree (h : Hdr) (p : Bytes)
  | surfaceFreeComplete (handle : Nat)
  | layerSet (h : Hdr) (p : Bytes)
  | layerStatus (h : Hdr) (p : Bytes)
  | fenceOp (h : Hdr) (p : Bytes)
  | blit (h : Hdr) (p : Bytes)
  | bltFillStart
  | bltCopyStart
  | bltConvertStart
  | blitComplete (bad : Bool)
  | rasterSet (h : Hdr) (p : Bytes)
  | rasterEnable (h : Hdr) (p : Bytes)
  | commit (h : Hdr) (p : Bytes)
  | commitCaptureComplete
  | genlockSet (h : Hdr) (p : Bytes)
  | rasterStatus (h : Hdr) (p : Bytes)
  | signatureRead (h : Hdr) (p : Bytes)
  | panelCurveSet (h : Hdr) (p : Bytes)
  | filmTableSet (h : Hdr) (p : Bytes)
  | filmTableLoadDone
  | filmConfig (h : Hdr) (p : Bytes)
  | filmEnable (h : Hdr) (p : Bytes)
  | filmUpdate (h : Hdr) (p : Bytes)
  | filmStatus (h : Hdr) (p : Bytes)
  | panelRetain (h : Hdr) (p : Bytes)
  | quenchConfig (h : Hdr) (p : Bytes)
  | projCurveSet (h : Hdr) (p : Bytes)
  | quenchStatus (h : Hdr) (p : Bytes)
  | lampEnable (h : Hdr) (p : Bytes)
  | lampTransitionDone (seg : Nat)
  | lampChannelSet (h : Hdr) (p : Bytes)
  | lampTableSet (h : Hdr) (p : Bytes)
  | lampSetpoint (h : Hdr) (p : Bytes)
  | lampClear (h : Hdr) (p : Bytes)
  | lampNodes (h : Hdr) (p : Bytes)
  | lampNodeAccess (h : Hdr) (p : Bytes)
  | bellowsLoopSet (h : Hdr) (p : Bytes)
  | bellowsCoeffSet (h : Hdr) (p : Bytes)
  | bellowsSwap (h : Hdr) (p : Bytes)
  | bellowsSetpoint (h : Hdr) (p : Bytes)
  | bellowsEnable (h : Hdr) (p : Bytes)
  | bellowsStatus (h : Hdr) (p : Bytes)
  | linkEnable (h : Hdr) (p : Bytes)
  | linkStatus (h : Hdr) (p : Bytes)
  | lanePower (h : Hdr) (p : Bytes)
  | lanePowerDone (link : Nat)
  | eyeScan (h : Hdr) (p : Bytes)
  | eyeScanDone (lane left right top bottom : Nat) (counts : List Nat)
  | tapTest (h : Hdr) (p : Bytes)
  | tapTestDone (lane : Nat) (rho : List Int)
  | netPortSet (h : Hdr) (p : Bytes)
  | netPortEnable (h : Hdr) (p : Bytes)
  | portTransitionDone (port : Nat)
  | netIfSet (h : Hdr) (p : Bytes)
  | netPairSet (h : Hdr) (p : Bytes)
  | netAnvilSet (h : Hdr) (p : Bytes)
  | netStatus (h : Hdr) (p : Bytes)
  | netPairStatus (h : Hdr) (p : Bytes)
  | timeSet (h : Hdr) (p : Bytes)
  | timeRead (h : Hdr) (p : Bytes)
  | ptpSet (h : Hdr) (p : Bytes)
  | ptpStatus (h : Hdr) (p : Bytes)
  | ptpSamples (h : Hdr) (p : Bytes)
  | tpoSet (h : Hdr) (p : Bytes)
  | tciSet (h : Hdr) (p : Bytes)
  | tciRead (h : Hdr) (p : Bytes)
  | memStatus (h : Hdr) (p : Bytes)
  | memTimingSet (h : Hdr) (p : Bytes)
  | memFreq (h : Hdr) (p : Bytes)
  | memFreqDone
  | memTest (h : Hdr) (p : Bytes)
  | memTestDone (n errors first dq corrected : Nat)
  | memNbrSet (h : Hdr) (p : Bytes)
  | clkStatus (h : Hdr) (p : Bytes)
  | clkConfig (h : Hdr) (p : Bytes)
  | clkSelect (h : Hdr) (p : Bytes)
  | camSet (h : Hdr) (p : Bytes)
  | camEnable (h : Hdr) (p : Bytes)
  | camTransitionDone (c : Nat)
  | camPipeSet (h : Hdr) (p : Bytes)
  | camStatsSet (h : Hdr) (p : Bytes)
  | camStatus (h : Hdr) (p : Bytes)
  | trimRun (h : Hdr) (p : Bytes)
  | trimJobDone (a b : List (List Int)) (cond : Nat) (failed : List Nat)
  | trimRead (h : Hdr) (p : Bytes)
  | trimWrite (h : Hdr) (p : Bytes)
  | thmStatus (h : Hdr) (p : Bytes)
  | thmAck (h : Hdr) (p : Bytes)
  | thmSet (h : Hdr) (p : Bytes)
  | hkRead (h : Hdr) (p : Bytes)
  | tinkerSwitch (h : Hdr) (p : Bytes)
  | bootcfgSet (h : Hdr) (p : Bytes)
  | ageSet (h : Hdr) (p : Bytes)
  | ageReplan (h : Hdr) (p : Bytes)
  | ageSample (h : Hdr) (p : Bytes)
  | ashStatus (h : Hdr) (p : Bytes)
  | ashRead (h : Hdr) (p : Bytes)
  | ashNote (h : Hdr) (p : Bytes)
  | ashClear (h : Hdr) (p : Bytes)
  | updateStage (h : Hdr) (p : Bytes)
  | updateActivate (h : Hdr) (p : Bytes)
  | updateStatus (h : Hdr) (p : Bytes)
  | encStreamSet (h : Hdr) (p : Bytes)
  | encStreamEnable (h : Hdr) (p : Bytes)
  | encViewSet (h : Hdr) (p : Bytes)
  | encKey (h : Hdr) (p : Bytes)
  | encStatus (h : Hdr) (p : Bytes)
  | ingotJob (h : Hdr) (p : Bytes)
  | ingotJobRun
  | ingotFree (h : Hdr) (p : Bytes)
  | ingotStatus (h : Hdr) (p : Bytes)
  | cpWrite (first : Nat) (data : Bytes)
  | cpRead (first clocked : Nat)
  | cpStatus (first : Nat)
  | cpAbandon (first : Nat) (data : Bytes)
  | heldReplyEnqueue
  | fragmentTimeout (src ident : Nat)
  | sessionIdleTimeout (session : Nat)
  | authOpenTimeout (session : Nat)
  | flitGroupReplay (link : Nat) (again : Bool)
  | fabricHeartbeat (link : Nat)
  | fabricLinkDown (link : Nat)
  | fabricLinkRestore (link : Nat)
  | hobWatchdogTimeout (hob : Nat)
  | hobDieFail (hob : Nat)
  | viewReplace
  | cellCheckFail (die g c cause : Nat)
  | ashSummary
  | damperFwdLoss (f : Nat)
  | damperFwdRestore (f : Nat)
  | damperLaneLoss (lane : Nat)
  | laneReverseDone
  | creditRegrant (f : Nat)
  | timeFwdSend
  | timeFwd (die w0 w1 : Nat) (chk : MsgCheck)
  | flueSynthHoldover (die : Nat)
  | abandon (link frame : Nat)
  | damperCommitPart (die : Nat) (words : List Nat) (seq : Nat) (chk : MsgCheck)
  | damperRegWrite (die addr value seq : Nat) (chk : MsgCheck)
  | damperRegRead (die addr seq : Nat) (chk : MsgCheck)
  | pixelRun (die : Nat) (words : List Nat) (chk : MsgCheck)
  | bulkWrite (die addr count : Nat) (words : List Nat) (seq : Nat) (chk : MsgCheck)
  | pfail (f cause frame : Nat) (chk : MsgCheck)
  | credit (f : Nat) (words : List Nat) (chk : MsgCheck)
  | frameReport (f : Nat) (words : List Nat) (chk : MsgCheck)
  | event (f source : Nat) (chk : MsgCheck)
  | regReply (f word : Nat) (chk : MsgCheck)
  | telemetry (f : Nat) (words : List Nat) (chk : MsgCheck)
  | returnHeartbeatSend
  | damperReplyTimeout (die ty seq : Nat)
  | rtpPacketRx (slot src ts : Nat) (gap mark donl : Bool) (data : Bytes)
  | pathPacketRx (slot src path pt ssrc seq ts : Nat) (mark donl : Bool) (data : Bytes)
  | mergeWindowSweep
  | pathDown (slot src path : Nat)
  | ssrcTimeout (slot src : Nat)
  | sliceSegmentParse (hob engine : Nat) (x : SliceInfo)
  | ctuRowReconstruct (hob engine : Nat)
  | accessUnitClose (slot src : Nat) (poc : Int) (total rows : Nat)
  | uncompressedPictureClose (slot src : Nat)
  | pictureLate (slot view : Nat) (depth : Bool)
  | pickTime (frame : Nat)
  | stripDeal (region view idx frame : Nat)
  | stripBegin (region view idx frame : Nat)
  | stripComplete (region view idx frame : Nat) (badViews badLayers : List Nat)
  | stripLineSend (region view idx frame : Nat)
  | stripRescue (region view idx frame : Nat)
  | stripDeadlineMiss (region view idx frame : Nat)
  | redoneStripComplete (badViews badLayers : List Nat)
  | excusedLineSend (region view idx frame : Nat)
  | monitorStrip (slot idx die grate : Nat) (badViews badLayers : List Nat)
  | layerRelease (layer : Nat)
  | bindingPoint
  | frameStart
  | latchLine (f : Nat)
  | lineSend (link line : Nat)
  | fsyncInEdge (falling : Bool)
  | fsyncLost
  | filmFrameStart
  | filmPulseEnd
  | powerFail (f cause : Nat)
  | parkStep (f : Nat)
  | powerReturn (f : Nat)
  | slotStart
  | lampTransaction (seg status value : Nat)
  | lampReplyTimeout (seg : Nat) (crc : Bool)
  | lostNodePoll (seg addr : Nat) (reply : BusReply)
  | lampEnumerate (seg : Nat) (found : List (Nat × Nat × Nat))
  | lampWritesDone
  | bellowsTick (f : Nat) (frame : Bool) (samples : List AdcSample)
  | markerRound (link : Nat)
  | laneLoss (lane : Nat)
  | hello (link id caps : Nat)
  | backStatus (link locked blocks : Nat) (deskewed : Bool) (shErr eyeH eyeV bad : Nat)
  | eqReq (link lane : Nat) (done : Bool) (pre main post : Nat)
  | lstat (die : Nat) (locked : Nat) (order : Option Nat)
  | trainPhaseAdvance (link : Nat)
  | linkPhaseTimeout (link : Nat)
  | listenRetry (link : Nat)
  | linkTransitionDone (link : Nat)
  | laneRetrain (link lane : Nat) (pass : Bool)
  | linkStartupSequence
  | sleepBurst (link : Nat)
  | ethFrameRx (iface : Nat) (fcs : Bool) (corrected failed : Nat) (frame : Bytes)
  | portLinkChange (iface : Nat) (up : Bool)
  | ptpAnnounceRx (iface port pri1 cls acc var pri2 gm steps domain : Nat) (logInt : Int) (tlv : Bool) (addr : Nat)
  | ptpSyncRx (iface port domain : Nat) (logInt : Int) (two : Bool) (seq t1 : Nat)
  | delayRespRx (iface port domain seq t4 : Nat)
  | delayReqTimeout
  | announceTimeout (iface port : Nat)
  | holdLimitExpire
  | ppsInEdge
  | ppsMissing
  | captureEdge (pin : Nat) (rising : Bool)
  | tpoFire (pin : Nat)
  | ptpAdjGo (base frac : Nat)
  | ptpIncrWrite (base ns : Nat)
  | ptpTimeLatchRead (base : Nat)
  | twinHeartbeatRx (src role stack frame start : Nat) (sigs : List Nat)
  | twinHeartbeatMissing
  | memRequest (n line : Nat) (write : Option (Nat × Nat)) (row : Option Nat) (err synd inflight : Nat)
  | scrubRead (n line err synd : Nat) (last : Bool)
  | memRefresh (n : Nat)
  | mr4Poll (n mr4 : Nat) (hot : Bool)
  | actWindowStart (n : Nat)
  | memChannelFreqChange (n : Nat)
  | dqsRetrack (n : Nat) (ok : Bool)
  | memRequestTimeout (n : Nat)
  | channelFail (n cause : Nat)
  | bufferReplace (n : Nat)
  | mapMirrorRecreate (hob : Nat)
  | refLoss (ref : Nat)
  | refValid (ref : Nat)
  | mainLockLoss (die : Nat)
  | pllLockAcquire (die pll : Nat)
  | mainReturn (die : Nat)
  | spareLockLoss (die : Nat)
  | camFrameStart (c : Nat)
  | camLineRx (c vc dtype hdr : Nat) (crcOk : Bool) (line : List Nat)
  | camFrameEnd (c : Nat)
  | camFrameTimeout (c : Nat)
  | camLost (c : Nat)
  | pipeLineTake
  | cciWrite (c : Nat) (ack : Bool)
  | cciListTimeout (c : Nat)
  | tinkerCoreSwitch (cause : Nat)
  | coreSelftestDone (pass : Bool)
  | stateTableCheck (ok : Bool)
  | hkRoundEnd
  | flueThermalShutdown (f : Nat)
  | ashAppend (a b : Bool)
  | ashScan
  | ageSampleTick (pairs : List Nat) (scan : Option (Nat × Nat)) (day : Bool)
  | replanRun (nack : List Nat)
  | updateSwap
  | updateActivateDone
  | irqDoorbell (source : Nat)
  | irqClaim
  | irqComplete (source : Nat) (nocause : Bool)
  | groupHoldoffEnd (group : Nat)
  | irqWake
  | encPictureTime
  | encRowCode (slot size : Nat) (cheap : List Nat) (blocks : List PredBlock)
  | encSliceSend (slot : Nat) (nals : List Bytes)
  | encTransitionDone (slot : Nat)
  | resetRelease
  | flueResetRelease
  | startupStageComplete (stage : Nat) (chans vout : List (Nat × Nat))
  | damperHalfJoin (f : Nat)
  | railComparatorTrip (rail : Nat) (high : Bool)
  | pwrSafeWrite (value : Nat)
  | pwrShutdownWrite (f value : Nat)
  | pwrFlueResetWrite (f value : Nat)
  | registerWrite (addr value : Nat)
  | resetAssert
  | flueResetAssert (powerOn : Bool)
  | housekeepingSample (ch raw : Nat)
  | ptpFollowUpRx (iface port domain seq t1 : Nat)
  | delayReqSend
  | ashClearDone (ok : Bool)
  | updateStageDone
  | standbyPatchReady (ok : Bool)
  | tinkerDomainStop
  deriving DecidableEq, Repr

/-- The packet header of an Anvil command; none for an event. -/
def Instr.hdr? : Instr → Option Hdr
  | .identity h _ => some h
  | .status h _ => some h
  | .abort h _ => some h
  | .sessionOpen h _ => some h
  | .sessionClose h _ => some h
  | .keySet h _ => some h
  | .stackSet h _ => some h
  | .modeSet h _ => some h
  | .eventSelect h _ => some h
  | .eventReplay h _ => some h
  | .regRead h _ => some h
  | .regWrite h _ => some h
  | .regModify h _ => some h
  | .bufCreate h _ => some h
  | .bufWrite h _ => some h
  | .bufRead h _ => some h
  | .bufFree h _ => some h
  | .surfUpload h _ => some h
  | .raymodelSet h _ => some h
  | .raymodelGet h _ => some h
  | .aimSet h _ => some h
  | .planishLoad h _ => some h
  | .planishClone h _ => some h
  | .planishSelect h _ => some h
  | .planishRead h _ => some h
  | .planishStatus h _ => some h
  | .decodeStreamSet h _ => some h
  | .decodeStreamEnable h _ => some h
  | .decodePriority h _ => some h
  | .decodeAssign h _ => some h
  | .decodeStatus h _ => some h
  | .decodeEvents h _ => some h
  | .synSourceSet h _ => some h
  | .synSourceGet h _ => some h
  | .synConfig h _ => some h
  | .synStatus h _ => some h
  | .synGrateSet h _ => some h
  | .surfaceCreate h _ => some h
  | .surfaceFree h _ => some h
  | .layerSet h _ => some h
  | .layerStatus h _ => some h
  | .fenceOp h _ => some h
  | .blit h _ => some h
  | .rasterSet h _ => some h
  | .rasterEnable h _ => some h
  | .commit h _ => some h
  | .genlockSet h _ => some h
  | .rasterStatus h _ => some h
  | .signatureRead h _ => some h
  | .panelCurveSet h _ => some h
  | .filmTableSet h _ => some h
  | .filmConfig h _ => some h
  | .filmEnable h _ => some h
  | .filmUpdate h _ => some h
  | .filmStatus h _ => some h
  | .panelRetain h _ => some h
  | .quenchConfig h _ => some h
  | .projCurveSet h _ => some h
  | .quenchStatus h _ => some h
  | .lampEnable h _ => some h
  | .lampChannelSet h _ => some h
  | .lampTableSet h _ => some h
  | .lampSetpoint h _ => some h
  | .lampClear h _ => some h
  | .lampNodes h _ => some h
  | .lampNodeAccess h _ => some h
  | .bellowsLoopSet h _ => some h
  | .bellowsCoeffSet h _ => some h
  | .bellowsSwap h _ => some h
  | .bellowsSetpoint h _ => some h
  | .bellowsEnable h _ => some h
  | .bellowsStatus h _ => some h
  | .linkEnable h _ => some h
  | .linkStatus h _ => some h
  | .lanePower h _ => some h
  | .eyeScan h _ => some h
  | .tapTest h _ => some h
  | .netPortSet h _ => some h
  | .netPortEnable h _ => some h
  | .netIfSet h _ => some h
  | .netPairSet h _ => some h
  | .netAnvilSet h _ => some h
  | .netStatus h _ => some h
  | .netPairStatus h _ => some h
  | .timeSet h _ => some h
  | .timeRead h _ => some h
  | .ptpSet h _ => some h
  | .ptpStatus h _ => some h
  | .ptpSamples h _ => some h
  | .tpoSet h _ => some h
  | .tciSet h _ => some h
  | .tciRead h _ => some h
  | .memStatus h _ => some h
  | .memTimingSet h _ => some h
  | .memFreq h _ => some h
  | .memTest h _ => some h
  | .memNbrSet h _ => some h
  | .clkStatus h _ => some h
  | .clkConfig h _ => some h
  | .clkSelect h _ => some h
  | .camSet h _ => some h
  | .camEnable h _ => some h
  | .camPipeSet h _ => some h
  | .camStatsSet h _ => some h
  | .camStatus h _ => some h
  | .trimRun h _ => some h
  | .trimRead h _ => some h
  | .trimWrite h _ => some h
  | .thmStatus h _ => some h
  | .thmAck h _ => some h
  | .thmSet h _ => some h
  | .hkRead h _ => some h
  | .tinkerSwitch h _ => some h
  | .bootcfgSet h _ => some h
  | .ageSet h _ => some h
  | .ageReplan h _ => some h
  | .ageSample h _ => some h
  | .ashStatus h _ => some h
  | .ashRead h _ => some h
  | .ashNote h _ => some h
  | .ashClear h _ => some h
  | .updateStage h _ => some h
  | .updateActivate h _ => some h
  | .updateStatus h _ => some h
  | .encStreamSet h _ => some h
  | .encStreamEnable h _ => some h
  | .encViewSet h _ => some h
  | .encKey h _ => some h
  | .encStatus h _ => some h
  | .ingotJob h _ => some h
  | .ingotFree h _ => some h
  | .ingotStatus h _ => some h
  | _ => none

/-- The parameter bytes of an Anvil command; none for an event. -/
def Instr.params : Instr → Bytes
  | .identity _ p => p
  | .status _ p => p
  | .abort _ p => p
  | .sessionOpen _ p => p
  | .sessionClose _ p => p
  | .keySet _ p => p
  | .stackSet _ p => p
  | .modeSet _ p => p
  | .eventSelect _ p => p
  | .eventReplay _ p => p
  | .regRead _ p => p
  | .regWrite _ p => p
  | .regModify _ p => p
  | .bufCreate _ p => p
  | .bufWrite _ p => p
  | .bufRead _ p => p
  | .bufFree _ p => p
  | .surfUpload _ p => p
  | .raymodelSet _ p => p
  | .raymodelGet _ p => p
  | .aimSet _ p => p
  | .planishLoad _ p => p
  | .planishClone _ p => p
  | .planishSelect _ p => p
  | .planishRead _ p => p
  | .planishStatus _ p => p
  | .decodeStreamSet _ p => p
  | .decodeStreamEnable _ p => p
  | .decodePriority _ p => p
  | .decodeAssign _ p => p
  | .decodeStatus _ p => p
  | .decodeEvents _ p => p
  | .synSourceSet _ p => p
  | .synSourceGet _ p => p
  | .synConfig _ p => p
  | .synStatus _ p => p
  | .synGrateSet _ p => p
  | .surfaceCreate _ p => p
  | .surfaceFree _ p => p
  | .layerSet _ p => p
  | .layerStatus _ p => p
  | .fenceOp _ p => p
  | .blit _ p => p
  | .rasterSet _ p => p
  | .rasterEnable _ p => p
  | .commit _ p => p
  | .genlockSet _ p => p
  | .rasterStatus _ p => p
  | .signatureRead _ p => p
  | .panelCurveSet _ p => p
  | .filmTableSet _ p => p
  | .filmConfig _ p => p
  | .filmEnable _ p => p
  | .filmUpdate _ p => p
  | .filmStatus _ p => p
  | .panelRetain _ p => p
  | .quenchConfig _ p => p
  | .projCurveSet _ p => p
  | .quenchStatus _ p => p
  | .lampEnable _ p => p
  | .lampChannelSet _ p => p
  | .lampTableSet _ p => p
  | .lampSetpoint _ p => p
  | .lampClear _ p => p
  | .lampNodes _ p => p
  | .lampNodeAccess _ p => p
  | .bellowsLoopSet _ p => p
  | .bellowsCoeffSet _ p => p
  | .bellowsSwap _ p => p
  | .bellowsSetpoint _ p => p
  | .bellowsEnable _ p => p
  | .bellowsStatus _ p => p
  | .linkEnable _ p => p
  | .linkStatus _ p => p
  | .lanePower _ p => p
  | .eyeScan _ p => p
  | .tapTest _ p => p
  | .netPortSet _ p => p
  | .netPortEnable _ p => p
  | .netIfSet _ p => p
  | .netPairSet _ p => p
  | .netAnvilSet _ p => p
  | .netStatus _ p => p
  | .netPairStatus _ p => p
  | .timeSet _ p => p
  | .timeRead _ p => p
  | .ptpSet _ p => p
  | .ptpStatus _ p => p
  | .ptpSamples _ p => p
  | .tpoSet _ p => p
  | .tciSet _ p => p
  | .tciRead _ p => p
  | .memStatus _ p => p
  | .memTimingSet _ p => p
  | .memFreq _ p => p
  | .memTest _ p => p
  | .memNbrSet _ p => p
  | .clkStatus _ p => p
  | .clkConfig _ p => p
  | .clkSelect _ p => p
  | .camSet _ p => p
  | .camEnable _ p => p
  | .camPipeSet _ p => p
  | .camStatsSet _ p => p
  | .camStatus _ p => p
  | .trimRun _ p => p
  | .trimRead _ p => p
  | .trimWrite _ p => p
  | .thmStatus _ p => p
  | .thmAck _ p => p
  | .thmSet _ p => p
  | .hkRead _ p => p
  | .tinkerSwitch _ p => p
  | .bootcfgSet _ p => p
  | .ageSet _ p => p
  | .ageReplan _ p => p
  | .ageSample _ p => p
  | .ashStatus _ p => p
  | .ashRead _ p => p
  | .ashNote _ p => p
  | .ashClear _ p => p
  | .updateStage _ p => p
  | .updateActivate _ p => p
  | .updateStatus _ p => p
  | .encStreamSet _ p => p
  | .encStreamEnable _ p => p
  | .encViewSet _ p => p
  | .encKey _ p => p
  | .encStatus _ p => p
  | .ingotJob _ p => p
  | .ingotFree _ p => p
  | .ingotStatus _ p => p
  | _ => []

end Sys2Proof
end

