-- ==== Sys2Proof/Decode.lean ====
section
/-! DEFINITION. The table of commands gives its rows no bits: a command of this block is not a word that the block fetches
and decodes. (The block's own packets are read by `Machine.parsePkt`.) -/

namespace Sys2Proof

/-- The command that a word spells by the table's bits: none, since no row gives bits. -/
def decodeTableWord (_nbits _w : Nat) : Option Instr := none

end Sys2Proof
end

