-- ==== Sys2Proof/Config.lean ====
section
/-! DEFINITION. What one device or one implementation fixes and the spec leaves open: free values. Each is a constant
with no body, so that nothing can be proved about which value it is; each has a row in the assumption log. -/

namespace Sys2Proof.Config

/-- The device serial number of IDENTITY (R60): each device has its own. Log entry 1. -/
opaque serial : BitVec 64

/-- The 16 bytes of DEVICE_NONCE, fresh from the device's random source (R63): a free value for each number of the
model's own counter. Log entry 2. -/
opaque nonce : Nat → BitVec 128

/-- A value the spec leaves open, for each number of the model's own counter (`Dev.free`). Log entry 3. -/
opaque freeValue : Nat → BitVec 64

/-- An entry of a planish copy that no load has written since reset (R90: such a copy is EMPTY or INCOMPLETE; its memory
holds whatever it held): copy and entry index. Log entry 4. -/
opaque mapEntry : Nat → Nat → BitVec 128

/-- Whether a quotient (numerator, denominator) that the spec leaves unrounded is rounded up. Log entry 5. -/
opaque roundsUp : Int → Int → Bool

/-- A channel (0 R, 1 G, 2 B) of a camera pixel on the image border (x, y, raw code there): R431 demosaics over a 3 × 3
neighbourhood, which it does not have. Log entry 6. -/
opaque demosaicEdge : Nat → Nat → Nat → Nat → BitVec 20

/-- The flicker report of R436 from the analysed samples: mode, sums of luminance, sampling interval in 2^-16 ns; FREQ in
[63:32], AMP in [31:16], PHASE in [15:0]. Log entry 7. -/
opaque flicker : Nat → List Nat → Nat → BitVec 64

/-- The host part of the link-local address of IF 16, seeded from the serial number (R351). Log entry 30. -/
opaque linkLocalHost : BitVec 16

/-- The MAC address of an interface, which the spec does not give. Log entry 30. -/
opaque mac : Nat → BitVec 48

/-- The hob memory channel of a die in which an object's copy lies, by handle and die ID (R180, R404: the firmware places it). Log
entry 31. -/
opaque objChannel : Nat → Nat → BitVec 2

/-- A memory line that nothing has written: channel and line address (plus 2^28 for each test that has written its test window). Log entry 32. -/
opaque dramLine : Nat → Nat → BitVec 512

/-- A sample of a decoded picture: picture number, plane (0 luma or depth, 1 Cb, 2 Cr), column, row. Decoding samples from a coded
slice is H.265's, and a sample outside its picture is stated nowhere. Log entry 40. -/
opaque sample : Nat → Nat → Int → Int → BitVec 16

/-- What a VPS says of a layer, by the VPS's bytes and nuh_layer_id: ViewOrderIdx in [4:0], DepthLayerFlag in [5], whether the layer
carries auxiliary pictures in [6]. Reading a VPS is H.265's. Log entry 40. -/
opaque layerOf : List (BitVec 8) → Nat → BitVec 7

/-- The CTU rows of a reference picture that the prediction blocks of a CTU row reach: picture number, row, number of the reference.
Log entry 40. -/
opaque reachRows : Nat → Nat → Nat → BitVec 16

/-- Whether a ray (x, y) was issued to a cell before an event in its strip, by the event's number (R146, R154, R80). Log entry 173. -/
opaque issued : Nat → Nat → Nat → Bool

/-- Whether the tap of a view waited, on a ray (x, y), on the read that an event in its strip found uncorrectable (R154). Log entry
173. -/
opaque waiting : Nat → Nat → Nat → Nat → Bool

/-- Whether a ray sample (x, y) was composed before an event in its strip (R177). Log entry 173. -/
opaque composed : Nat → Nat → Nat → Bool

/-- A value that falls outside its number format, by the exact rounded value, where the spec states no result. Log entry 41. -/
opaque outside : Int → BitVec 64

/-- Whether an RTP payload carries DONL fields (R110): what tells the device is stated nowhere. Log entry 40. -/
opaque hasDonl : List (BitVec 8) → Bool

/-- The fused calibration points of a sensor (R452): its count at 25 °C in [31:0], at 105 °C in [63:32]. Log entry 50. -/
opaque sensorCal : Nat → BitVec 64

/-- Whether a key (0, 1), body and signature of a patch image verify against the ROM key and its revocation fuse (R464), by the bytes
of the image. Log entry 51. -/
opaque signatureOk : List (BitVec 8) → Bool

/-- The units of a dynamic-Huffman block the compressor writes (R502 bounds its matching and does not choose the symbols): level,
history newest first, the block's bytes, whether it is final. Log entry 52. -/
opaque deflate : Nat → List (BitVec 8) → List (BitVec 8) → Bool → List (List Bool)

/-- FLEVEL of the zlib header of a level, which the spec does not give. Log entry 52. -/
opaque zlibLevel : Nat → BitVec 2

/-- Whether the confidence streams use the full code range (R489: their VUI signals it, and the spec does not choose). Log entry 53. -/
opaque encFull : Bool

/-- R491: a luma sample of the encoder's reference picture: by run of a stream, picture, column and row. Log
entry 189. -/
opaque encRecon : Nat → Nat → Nat → Nat → BitVec 10

/-- R489: the body of a parameter set (0 VPS, 1 SPS, 2 PPS) of a stream, by its configuration and the rate code in
effect. Log entry 189. -/
opaque encParams : List (BitVec 8) → Nat → Nat → List (BitVec 8)

/-- R490: the exact_match_flag of the encoder's recovery points. Log entry 189. -/
opaque recoverExact : Bool

end Sys2Proof.Config
end

