-- ==== Sys2Proof/Machine/Operands.lean ====
section
/-! DEFINITION. Operand forms: fields of parameter blocks, packets and stored structures. Fields in any packet are most
significant byte first, fields in structures held in memory least significant byte first (R8). -/

namespace Sys2Proof.Machine

/-- The byte at an offset of a parameter block; 0 past its end. -/
def u8 (p : Bytes) (o : Nat) : Nat := (p.getD o 0).toNat

/-- A field of `n` bytes at an offset, most significant byte first (R8). -/
def be : Nat → Bytes → Nat → Nat
  | 0, _, _ => 0
  | n + 1, p, o => 256 ^ n * u8 p o + be n p (o + 1)

/-- A field of `n` bytes at an offset, least significant byte first (R8). -/
def le : Nat → Bytes → Nat → Nat
  | 0, _, _ => 0
  | n + 1, p, o => u8 p o + 256 * le n p (o + 1)

def u16 (p : Bytes) (o : Nat) : Nat := be 2 p o
def u24 (p : Bytes) (o : Nat) : Nat := be 3 p o
def u32 (p : Bytes) (o : Nat) : Nat := be 4 p o
def u48 (p : Bytes) (o : Nat) : Nat := be 6 p o
def u64 (p : Bytes) (o : Nat) : Nat := be 8 p o

/-- A number of `bits` bits read as two's complement (R9). -/
def signed (bits v : Nat) : Int := if v < 2 ^ (bits - 1) then (v : Int) else (v : Int) - 2 ^ bits

def s8 (p : Bytes) (o : Nat) : Int := signed 8 (u8 p o)
def s16 (p : Bytes) (o : Nat) : Int := signed 16 (u16 p o)
def s32 (p : Bytes) (o : Nat) : Int := signed 32 (u32 p o)

/-- An integer as `bits` bits of two's complement. -/
def twos (bits : Nat) (v : Int) : Nat := (v % (2 ^ bits : Nat)).toNat

/-- An integer held within signed `bits` bits (saturating). -/
def satS (bits : Nat) (v : Int) : Int :=
  if v < -(2 ^ (bits - 1) : Nat) then -(2 ^ (bits - 1) : Nat)
  else if v > (2 ^ (bits - 1) : Nat) - 1 then (2 ^ (bits - 1) : Nat) - 1 else v

/-- Bit `i` of a number. -/
def bit (v i : Nat) : Bool := v.testBit i

/-- Bits [hi:lo] of a number (R7). -/
def bits (v hi lo : Nat) : Nat := v / 2 ^ lo % 2 ^ (hi + 1 - lo)

/-- One bit as a number. -/
def b2n (b : Bool) : Nat := if b then 1 else 0

/-- A number as `n` bytes, most significant byte first. -/
def enc : Nat → Nat → Bytes
  | 0, _ => []
  | n + 1, v => BitVec.ofNat 8 (v / 256 ^ n) :: enc n v

/-- A number as `n` bytes, least significant byte first. -/
def encLe : Nat → Nat → Bytes
  | 0, _ => []
  | n + 1, v => BitVec.ofNat 8 v :: encLe n (v / 256)

/-- `n` zero bytes. -/
def zeros (n : Nat) : Bytes := List.replicate n 0

/-- `n` bytes of a block from an offset, zero past its end. -/
def slice (p : Bytes) (o n : Nat) : Bytes := let s := (p.drop o).take n; s ++ zeros (n - s.length)

/-- A reserved range of a parameter block is zero (R7). -/
def zero? (p : Bytes) (o n : Nat) : Bool := ((p.drop o).take n).all (· == 0)

/-- Ceiling division. -/
def ceilDiv (a b : Nat) : Nat := (a + b - 1) / b

/-- `a / b` rounded to nearest, ties away from zero, for `b > 0`. -/
def roundDiv (a b : Int) : Int := if a ≥ 0 then (2 * a + b) / (2 * b) else -((2 * (-a) + b) / (2 * b))

/-- The rising list `[a, a + 1, …, a + n - 1]`. -/
def fromN (a n : Nat) : List Nat := (List.range n).map (a + ·)

/-- A list with its entry `i` changed; unchanged where there is none. -/
def modAt {α : Type} (l : List α) (i : Nat) (f : α → α) : List α := l.modify i f

end Sys2Proof.Machine
end

