-- ==== Sys2Proof/Machine/Crc.lean ====
section
/-! DEFINITION. The check codes of the spec: CRC-32C (R39), CRC-16 with polynomial 0x1021 (R27), CRC-8 (lamp bus), and
HMAC-SHA-256 (R49, as FIPS 180-4 and RFC 2104 define it). -/

namespace Sys2Proof.Machine

/-- One bit of the reflected CRC-32C (polynomial 0x1EDC_6F41, reflected 0x82F6_3B78). -/
def crc32cBit (c : Nat) : Nat := if c % 2 = 1 then (c / 2) ^^^ 0x82F63B78 else c / 2

/-- One byte into the CRC-32C register. -/
def crc32cByte (c : Nat) (b : Byte) : Nat := Nat.repeat crc32cBit 8 (c ^^^ b.toNat)

/-- CRC-32C of a byte string (R39). -/
def crc32c (l : Bytes) : Nat := (l.foldl crc32cByte 0xFFFFFFFF) ^^^ 0xFFFFFFFF

/-- One bit of CRC-16, polynomial 0x1021, most significant bit first. -/
def crc16Bit (c : Nat) : Nat := if c ≥ 0x8000 then (c * 2) % 0x10000 ^^^ 0x1021 else c * 2

/-- One byte into the CRC-16 register. -/
def crc16Byte (c : Nat) (b : Byte) : Nat := Nat.repeat crc16Bit 8 (c ^^^ (b.toNat * 256))

/-- CRC-16, polynomial 0x1021, initial value 0xFFFF (R27). -/
def crc16 (l : Bytes) : Nat := l.foldl crc16Byte 0xFFFF

/-- One bit of the CRC-8 of R272 (polynomial 0x07). -/
def crc8Bit (c : Nat) : Nat := if c ≥ 0x80 then (c * 2) % 0x100 ^^^ 0x07 else c * 2

/-- CRC-8 (R272): initial value 0, not reflected, no final exclusive-OR. -/
def crc8 (l : Bytes) : Nat := l.foldl (fun c b => Nat.repeat crc8Bit 8 (c ^^^ b.toNat)) 0

/-- A byte string extended by its CRC-32C, most significant byte first (R38, R39). -/
def withCrc (l : Bytes) : Bytes := l ++ enc 4 (crc32c l)

/-! SHA-256. Its constants are computed from what FIPS 180-4 says they are: the fractions of the square roots of the first eight
primes and of the cube roots of the first sixty-four. A chaining value is a list of eight words. -/

/-- The largest number whose `k`-th power does not pass `t`, below `x + 2 ^ n`, decided from the top bit down. -/
def rootBelow (k t : Nat) : Nat → Nat → Nat
  | 0, x => x
  | n + 1, x => rootBelow k t n (if (x + 2 ^ n) ^ k ≤ t then x + 2 ^ n else x)

/-- The first 32 bits of the fraction of the `k`-th root of `q`. -/
def rootFraction (k q : Nat) : Word := BitVec.ofNat 32 (rootBelow k (q * 2 ^ (32 * k)) 37 0)

/-- The primes below 312: the first sixty-four. -/
def firstPrimes : List Nat :=
  (List.range 312).filter fun q => decide (q > 1) && [2, 3, 5, 7, 11, 13, 17].all fun m => q = m || q % m ≠ 0

/-- The exclusive-OR of a word's rotations to the right. -/
def turned (w : Word) (by_ : List Nat) : Word := by_.foldl (fun x n => x ^^^ w.rotateRight n) 0

/-- One round on a chaining value: `x` is the message word plus the round's constant. Of the new value only the words 0 and 4
are computed. -/
def hashTurn (v : List Word) (x : Word) : List Word :=
  let at_ (n : Nat) : Word := v.getD n 0
  let pick := at_ 6 ^^^ (at_ 4 &&& (at_ 5 ^^^ at_ 6))
  let most := (at_ 0 &&& at_ 1) ||| (at_ 2 &&& (at_ 0 ||| at_ 1))
  let low := at_ 7 + turned (at_ 4) [6, 11, 25] + pick + x
  (low + (turned (at_ 0) [2, 13, 22] + most)) :: v.take 3 ++ (at_ 3 + low) :: (v.drop 4).take 3

/-- The rounds of a block: the constants left, the next sixteen words of the message schedule, the chaining value. -/
def hashTurns : List Word → List Word → List Word → List Word
  | [], _, v => v
  | k :: ks, win, v =>
    let next := win.getD 0 0 + (turned (win.getD 1 0) [7, 18] ^^^ win.getD 1 0 >>> 3) + win.getD 9 0
      + (turned (win.getD 14 0) [17, 19] ^^^ win.getD 14 0 >>> 10)
    hashTurns ks (win.drop 1 ++ [next]) (hashTurn v (win.getD 0 0 + k))

/-- SHA-256 of a byte string. -/
def sha256 (m : Bytes) : Bytes :=
  let padded := m ++ [0x80] ++ zeros ((119 - m.length % 64) % 64) ++ enc 8 (m.length * 8)
  let consts := firstPrimes.map (rootFraction 3)
  let block (v : List Word) (n : Nat) : List Word :=
    let words := (List.range 16).map fun j => BitVec.ofNat 32 (u32 padded (64 * n + 4 * j))
    List.zipWith (· + ·) v (hashTurns consts words v)
  (((List.range (padded.length / 64)).foldl block ((firstPrimes.take 8).map (rootFraction 2))).map fun w => enc 4 w.toNat).flatten

/-- HMAC-SHA-256 of a byte string under a key (R49). -/
def hmac (key msg : Bytes) : Bytes :=
  let k0 := if key.length > 64 then sha256 key else key
  let k := k0 ++ zeros (64 - k0.length)
  sha256 (k.map (· ^^^ 0x5C) ++ sha256 (k.map (· ^^^ 0x36) ++ msg))

end Sys2Proof.Machine
end

