-- ==== Sys2Proof/Machine/Parts/Proto.lean ====
section
/-! DEFINITION. Plain-data parts of the state that belong to the Anvil protocol (chapter "Anvil command protocol"),
the control port and the event controller (chapter "Event and interrupt controller"). -/

namespace Sys2Proof.Machine

/-- A packet the device sends, kept by its fields; its bytes are built when it leaves (R38, R39, R41, R49). `key` is
the session key its MAC is computed under, if it carries one. `tid` is the sender's stack ID (R38). -/
structure Pkt where
  reply     : Bool
  event     : Bool
  noSession : Bool
  session   : Nat
  op        : Nat
  seq       : Nat
  tid       : Nat
  tag       : Nat
  body      : Bytes
  key       : Option Bytes
  deriving DecidableEq, Repr

/-- A command that has begun: who sent it (`who`: 0–3 a session, 4 the local channel, 5 a NOSESSION packet on a network
route), the opening of that session it belongs to (`epoch`), its header, opcode and parameters. -/
structure Cmd where
  who   : Nat
  epoch : Nat
  h     : Hdr
  op    : Nat
  p     : Bytes
  deriving DecidableEq, Repr

/-- R55: the states of a function that can be switched on and off. -/
inductive FnSt where
  | off
  | starting
  | on
  | stopping
  deriving DecidableEq, Repr

/-- R55: a function's state, its stored request (a disable in STARTING, an enable in STOPPING), and the accepted
commands whose completion events are due when the transition in progress completes. -/
structure Fn where
  st      : FnSt := .off
  stored  : Option Cmd := none
  running : List Cmd := []
  deriving DecidableEq, Repr

/-- R51: one accepted command of a session, with its reply once there is one. -/
structure Recent where
  seq   : Nat
  reply : Option Pkt
  deriving DecidableEq, Repr

/-- R48–R51, R58, R68: a session (or the local channel, which has no window and no authentication). `high` is H, `recent`
the last 256 accepted commands, `seen` the accepted SEQs within 256 below H, `events` the last 64 event packets. -/
structure Session where
  isOpen    : Bool := false
  auth      : Bool := false
  usable    : Bool := false
  route     : Route := .cp
  slot      : Nat := 0
  sk        : Bytes := []
  high      : Nat := 0
  recent    : List Recent := []
  seen      : List Nat := []
  idle      : Nat := 0
  lastValid : Nat := 0
  authFails : Nat := 0
  evSeq     : Nat := 0
  events    : List Pkt := []
  mask      : Nat := 0
  epoch     : Nat := 0
  deriving DecidableEq, Repr

/-- R50: a key slot: the key (none when empty) and its POLICY. -/
structure KeySlot where
  key    : Option Bytes := none
  policy : Nat := 0
  deriving DecidableEq, Repr

/-- An inbound packet of a network route that waits to be interpreted: the route it came by and its bytes (R44). -/
structure Inbound where
  route : Route
  bytes : Bytes
  deriving DecidableEq, Repr

/-- The IPv4 fragments of one datagram being reassembled (R44): its source address and identification, the interface
they came by, and the fragments held (offset, last flag, bytes). -/
structure Reassembly where
  src   : Nat
  ident : Nat
  iface : Nat
  parts : List (Nat × Bool × Bytes)
  deriving DecidableEq, Repr

/-- R52: a final reply that has been produced and waits for an earlier one of its class: the command, status, reason and data. -/
structure DueReply where
  cmd  : Cmd
  st   : Nat
  rs   : Nat
  data : Bytes
  deriving DecidableEq, Repr

/-- The Anvil interpreter: sessions 0–3 and the local channel (index 4), key slots, stack addressing (R54, R66),
commands in flight (begun, no final reply yet), commands accepted that wait to begin (R52), replies that wait for an earlier one of their class (R52), whether the command being
run is one of those, inbound network packets and datagrams being reassembled. -/
structure Anvil where
  sess     : List Session := [{}, {}, {}, {}, { isOpen := true, usable := true }]
  slots    : List KeySlot := [{}, {}, {}, {}]
  stackId  : Nat := 0
  groups   : List Nat := []
  inFlight : List Cmd := []
  waiting  : List Instr := []
  due      : List DueReply := []
  resuming : Bool := false
  inbound  : List Inbound := []
  frags    : List Reassembly := []
  deriving DecidableEq, Repr

/-- R45, R46: the control port: the inbound buffer, the outbound queue, the replies held for want of room, STATUS bits 1
and 2, and whether CP_SDI is ignored until CP_CS_N rises. -/
structure Cp where
  inbound  : List Bytes := []
  outbound : List Pkt := []
  held     : List Pkt := []
  full     : Bool := false
  dropped  : Bool := false
  deriving DecidableEq, Repr

/-- R474: an event source. `cCount` and `cFirst` are what its last claim latched, which a core switch gives back
(R477). `level` is the present level of a level source (R473). -/
structure Src where
  st     : Nat := 0
  count  : Nat := 0
  first  : Nat := 0
  rep    : Bool := false
  level  : Bool := false
  cCount : Nat := 0
  cFirst : Nat := 0
  deriving DecidableEq, Repr

/-- R478: an event group: its batch, the end of its hold-off window on FREE while it is HELD, and when it last opened. -/
structure Grp where
  batch : List Nat := []
  until_ : Option Nat := none
  opened : Nat := 0
  deriving DecidableEq, Repr

/-- The event controller (R472–R482): sources other than idle ones, groups, whether the Tinker clock domain is stopped,
and the wake FIFO (source, MEDIA and FREE stamps, R481). -/
structure EvCtl where
  srcs   : List (Nat × Src) := []
  grps   : List (Nat × Grp) := []
  asleep : Bool := false
  wake   : List (Nat × Nat × Nat) := []
  deriving DecidableEq, Repr

end Sys2Proof.Machine
end

