-- ==== Sys2Proof/Machine/Flags.lean ====
section
/-! DEFINITION. Status and reason codes (R42, R43), fault causes (R19), and the rule of functions that can be switched
on and off (R55). -/

namespace Sys2Proof.Machine

namespace St
/-- R42. -/
abbrev done := 0x00
abbrev accepted := 0x01
abbrev deferred := 0x02
abbrev busyInit := 0x10
abbrev busy := 0x11
abbrev badOpcode := 0x20
abbrev badLength := 0x21
abbrev badParam := 0x22
abbrev badState := 0x23
abbrev noResource := 0x24
abbrev authFail := 0x30
abbrev staleSeq := 0x31
abbrev fault := 0x40
abbrev timeout := 0x41
end St

namespace Rs
/-- R43; 0 is "no reason given". -/
abbrev superseded := 0x01
abbrev noSession := 0x02
abbrev localOnly := 0x03
abbrev sessionLimit := 0x04
abbrev sessionInUse := 0x05
abbrev inFlightLimit := 0x06
abbrev aborted := 0x07
abbrev authRequired := 0x08
abbrev badMac := 0x09
abbrev version := 0x0A
abbrev reserved := 0x0B
abbrev eventsLost := 0x0C
abbrev safeState := 0x0D
abbrev notInMode := 0x0E
abbrev noBuffer := 0x0F
abbrev bufferRange := 0x10
abbrev bufferLost := 0x11
end Rs

namespace Cause
/-- R19. -/
abbrev eccCorrected := 0x01
abbrev eccUncorrectable := 0x02
abbrev parity := 0x03
abbrev watchdog := 0x04
abbrev laneLockLost := 0x05
abbrev linkDown := 0x06
abbrev handshakeTimeout := 0x07
abbrev crcError := 0x08
abbrev supplyRange := 0x09
abbrev pllLockLost := 0x0A
abbrev sensorFailed := 0x0B
abbrev thermalLimit := 0x0C
abbrev hostSafe := 0x40
end Cause

/-- R55: a state's number, in the order OFF, STARTING, ON, STOPPING. -/
def FnSt.num : FnSt → Nat
  | .off => 0
  | .starting => 1
  | .on => 2
  | .stopping => 3

/-- How a command is answered: its final reply with status, reason and data, or later by the event that ends it. -/
inductive Rep where
  | reply (st rs : Nat) (data : Bytes)
  | later
  deriving DecidableEq, Repr

abbrev Rep.done (data : Bytes := []) : Rep := .reply St.done 0 data
abbrev Rep.accepted : Rep := .reply St.accepted 0 []
abbrev Rep.deferred : Rep := .reply St.deferred 0 []
abbrev Rep.bad (st rs : Nat) : Rep := .reply st rs []

/-- What a request to a function does (R55): the function after it, the reply, the stored command it supersedes, and
whether a transition begins. -/
structure FnReq where
  fn     : Fn
  rep    : Rep
  gone   : List Cmd := []
  begins : Bool := false
  deriving DecidableEq, Repr

/-- R55: an enable (`on = true`) or disable request to a function. `same` says that an enable received in ON carries
the parameters in effect. A start that reaches ON at once is the caller's to complete. -/
def Fn.request (f : Fn) (on same : Bool) (c : Cmd) : FnReq :=
  match f.st, on with
  | .off, true => { fn := { st := .starting, stored := none, running := [c] }, rep := .accepted, begins := true }
  | .off, false => { fn := f, rep := .done }
  | .starting, true => { fn := { f with stored := none, running := f.running ++ [c] }, rep := .accepted, gone := f.stored.toList }
  | .starting, false => { fn := { f with stored := some c }, rep := .deferred, gone := f.stored.toList }
  | .on, true => { fn := f, rep := if same then .done else .bad St.badState 0 }
  | .on, false => { fn := { st := .stopping, stored := none, running := [c] }, rep := .accepted, begins := true }
  | .stopping, false => { fn := { f with stored := none, running := f.running ++ [c] }, rep := .accepted, gone := f.stored.toList }
  | .stopping, true => { fn := { f with stored := some c }, rep := .deferred, gone := f.stored.toList }

/-- What the end of a transition does (R55): the function after it, the commands whose completion events it sends, and
the stored request that it carries out (its command, if a new transition begins). -/
structure FnEnd where
  fn   : Fn
  done : List Cmd := []
  next : Option Cmd := none
  deriving DecidableEq, Repr

/-- R55: a transition that ends well: the function is in the state requested; a stored request is then carried out. -/
def Fn.finish (f : Fn) : FnEnd :=
  match f.st with
  | .starting =>
    match f.stored with
    | none => { fn := { st := .on }, done := f.running }
    | some c => { fn := { st := .stopping, running := [c] }, done := f.running, next := some c }
  | .stopping =>
    match f.stored with
    | none => { fn := { st := .off }, done := f.running }
    | some c => { fn := { st := .starting, running := [c] }, done := f.running, next := some c }
  | _ => { fn := f }

/-- R55: a transition that fails: its commands complete FAULT, the function is OFF, and a stored request is carried out
from OFF (an enable starts; a disable finds the function OFF and completes at once, listed in the second component). -/
def Fn.fail (f : Fn) : FnEnd × List Cmd :=
  match f.st, f.stored with
  | .starting, none => ({ fn := { st := .off }, done := f.running }, [])
  | .starting, some c => ({ fn := { st := .off }, done := f.running }, [c])
  | .stopping, none => ({ fn := { st := .off }, done := f.running }, [])
  | .stopping, some c => ({ fn := { st := .starting, running := [c] }, done := f.running, next := some c }, [])
  | _, _ => ({ fn := f }, [])

end Sys2Proof.Machine
end

