-- ==== Sys2Proof/Machine/RegTable.lean ====
section
/-! DEFINITION. The register tables of the spec, written out: every register field as a named field (`R.<name>`),
and every register as a row of its block (which dies hold it, where its copies lie, which bits are RO, RW, W1C, WO
or RS, and its reset value), rule by rule from the tables of the chapters (R72, R102, R137, R168, R193, R204, R227,
R258, R295, R296, R316, R347, R348, R549, R386, R387, R411, R427, R448, R471, R482, R511, R532). -/

namespace Sys2Proof.Machine

/-- A field of a register: block number and byte offset in one number (R10: block at [27:20], offset at [19:0]),
and its highest and lowest bit. -/
structure Fld where
  off : Nat
  hi  : Nat
  lo  : Nat
  deriving DecidableEq, Repr

/-- One row of the register tables: a register (or a family of copies, in up to two index directions), the dies that
hold it (1 Mantel, 2 hob dies, 4 flue dies, added), the masks of its access types (R10) and its reset value. -/
structure RegRow where
  dies : Nat
  base : Nat
  n1   : Nat
  s1   : Nat
  n2   : Nat
  s2   : Nat
  ro   : Nat
  rw   : Nat
  w1c  : Nat
  wo   : Nat
  rs   : Nat
  reset : Nat
  deriving DecidableEq, Repr

namespace R


/-! R72 (02_anvil_protocol.md). -/
abbrev TNK_AV_FRAMING : Fld := ⟨0x0000400, 31, 0⟩
abbrev TNK_AV_TARGET : Fld := ⟨0x0000404, 31, 0⟩
abbrev TNK_AV_AUTH : Fld := ⟨0x0000408, 31, 0⟩
abbrev TNK_AV_DUP : Fld := ⟨0x000040C, 31, 0⟩
abbrev TNK_CP_ABANDON : Fld := ⟨0x0000410, 31, 0⟩
abbrev TNK_AV_CLEAR : Fld := ⟨0x0000414, 0, 0⟩

/-! R102 (03_ray_model.md). -/
abbrev SYN_RM_GRID_LAYOUT : Fld := ⟨0x1201000, 2, 0⟩
abbrev SYN_RM_GRID_ARRAYS : Fld := ⟨0x1201000, 7, 4⟩
abbrev SYN_RM_FAN_HALF_H : Fld := ⟨0x1201004, 15, 0⟩
abbrev SYN_RM_FAN_HALF_V : Fld := ⟨0x1201004, 31, 16⟩
abbrev SYN_RM_AIM0 : Fld := ⟨0x1201010, 31, 0⟩
abbrev SYN_RM_AIM_AIM_T (s : Nat) : Fld := ⟨0x1201010 + 0x4 * s, 15, 0⟩
abbrev SYN_RM_AIM_AIM_P (s : Nat) : Fld := ⟨0x1201010 + 0x4 * s, 31, 16⟩
abbrev SYN_RM_ORG_X (n : Nat) : Fld := ⟨0x1201040 + 0x10 * n, 31, 0⟩
abbrev SYN_RM_ORG_Y (n : Nat) : Fld := ⟨0x1201044 + 0x10 * n, 31, 0⟩
abbrev SYN_RM_SCALE (n : Nat) : Fld := ⟨0x1201048 + 0x10 * n, 15, 0⟩
abbrev SYN_PM_STATE_STATE_A : Fld := ⟨0x1201100, 2, 0⟩
abbrev SYN_PM_STATE_STATE_B : Fld := ⟨0x1201100, 6, 4⟩
abbrev SYN_PM_STATE_ACTIVE : Fld := ⟨0x1201100, 8, 8⟩
abbrev SYN_PM_PEND_LO : Fld := ⟨0x1201104, 31, 0⟩
abbrev SYN_PM_PEND_HI : Fld := ⟨0x1201108, 15, 0⟩
abbrev SYN_PM_SWAP_LO : Fld := ⟨0x120110C, 31, 0⟩
abbrev SYN_PM_SWAP_HI : Fld := ⟨0x1201110, 15, 0⟩
abbrev SYN_PM_SUBST : Fld := ⟨0x1201114, 31, 0⟩
abbrev SYN_PM_CLAMP : Fld := ⟨0x1201118, 31, 0⟩
abbrev SYN_PM_CLEAR : Fld := ⟨0x120111C, 0, 0⟩

/-! R137 (04_scene_decode.md). -/
abbrev DEC_BUSY_ENTROPY : Fld := ⟨0x1100000, 1, 0⟩
abbrev DEC_BUSY_PIXEL : Fld := ⟨0x1100000, 7, 2⟩
abbrev DEC_EOB_FILL : Fld := ⟨0x1100004, 14, 0⟩
abbrev DEC_EOB_HWM : Fld := ⟨0x1100008, 14, 0⟩
abbrev DEC_EOB_NONLIVE_CAP : Fld := ⟨0x110000C, 14, 0⟩
abbrev DEC_VIEW_SLOT (n : Nat) : Fld := ⟨0x1100100 + 0x4 * n, 2, 0⟩
abbrev DEC_VIEW_VIEW (n : Nat) : Fld := ⟨0x1100100 + 0x4 * n, 7, 4⟩
abbrev DEC_VIEW_USED (n : Nat) : Fld := ⟨0x1100100 + 0x4 * n, 8, 8⟩
abbrev DEC_VIEW_CHAN_T (n : Nat) : Fld := ⟨0x1100100 + 0x4 * n, 11, 10⟩
abbrev DEC_VIEW_CHAN_D (n : Nat) : Fld := ⟨0x1100100 + 0x4 * n, 13, 12⟩
abbrev DEC_VIEW_STATE (n : Nat) : Fld := ⟨0x1100100 + 0x4 * n, 18, 16⟩
abbrev DEC_SLICE_LOST : Fld := ⟨0x1100200, 31, 0⟩
abbrev DEC_MISSING_REF : Fld := ⟨0x1100204, 31, 0⟩
abbrev DEC_LATE : Fld := ⟨0x1100208, 31, 0⟩
abbrev DEC_PREEMPT : Fld := ⟨0x110020C, 31, 0⟩
abbrev DEC_EOB_STALL : Fld := ⟨0x1100210, 31, 0⟩
abbrev DEC_REJECT : Fld := ⟨0x1100214, 31, 0⟩
abbrev DEC_LAYER_DISCARD : Fld := ⟨0x1100218, 31, 0⟩
abbrev DEC_RTP_UNSUPPORTED : Fld := ⟨0x110021C, 31, 0⟩
abbrev DEC_COLOUR_DEFAULT : Fld := ⟨0x1100220, 31, 0⟩
abbrev DEC_CLEAR : Fld := ⟨0x1100224, 0, 0⟩

/-! R168 (05_view_synthesis.md). -/
abbrev SYN_STATE_GRATE_ONLINE : Fld := ⟨0x1200000, 2, 0⟩
abbrev SYN_STATE_FAILOVER : Fld := ⟨0x1200000, 8, 8⟩
abbrev SYN_CELL_OFFLINE : Fld := ⟨0x1200004, 23, 0⟩
abbrev SYN_DEAL_COUNT : Fld := ⟨0x1200008, 3, 0⟩
abbrev SYN_DEAL_EPOCH : Fld := ⟨0x1200008, 31, 16⟩
abbrev SYN_THROTTLE_THERMAL : Fld := ⟨0x120000C, 2, 0⟩
abbrev SYN_THROTTLE_FLOOR : Fld := ⟨0x120000C, 6, 4⟩
abbrev SYN_THROTTLE_EFFECTIVE : Fld := ⟨0x120000C, 10, 8⟩
abbrev SYN_LEAD : Fld := ⟨0x1200100, 11, 0⟩
abbrev SYN_PRES_DELAY : Fld := ⟨0x1200104, 31, 0⟩
abbrev SYN_TAPS_MAX : Fld := ⟨0x1200108, 2, 0⟩
abbrev SYN_SOURCE_SLOT : Fld := ⟨0x1200140, 2, 0⟩
abbrev SYN_SOURCE_MISMATCH : Fld := ⟨0x1200140, 8, 8⟩
abbrev SYN_OCC_TOL : Fld := ⟨0x1200144, 31, 0⟩
abbrev SYN_EPS : Fld := ⟨0x1200148, 31, 0⟩
abbrev SYN_STRIPS : Fld := ⟨0x1200200, 31, 0⟩
abbrev SYN_UNDERRUN : Fld := ⟨0x1200204, 31, 0⟩
abbrev SYN_EXCUSED : Fld := ⟨0x1200208, 31, 0⟩
abbrev SYN_RESCUE : Fld := ⟨0x120020C, 31, 0⟩
abbrev SYN_REDEALT : Fld := ⟨0x1200210, 31, 0⟩
abbrev SYN_STALL : Fld := ⟨0x1200214, 31, 0⟩
abbrev SYN_NOVIEW : Fld := ⟨0x1200218, 31, 0⟩
abbrev SYN_OFFIMAGE : Fld := ⟨0x120021C, 31, 0⟩
abbrev SYN_OCC_ALL : Fld := ⟨0x1200220, 31, 0⟩
abbrev SYN_SLACK_MIN : Fld := ⟨0x1200224, 15, 0⟩
abbrev SYN_CLEAR : Fld := ⟨0x1200228, 0, 0⟩
abbrev SYN_UR_FRAME_LO : Fld := ⟨0x1200300, 31, 0⟩
abbrev SYN_UR_FRAME_HI : Fld := ⟨0x1200304, 15, 0⟩
abbrev SYN_UR_WHERE_LINK : Fld := ⟨0x1200308, 2, 0⟩
abbrev SYN_UR_WHERE_VIEW : Fld := ⟨0x1200308, 7, 3⟩
abbrev SYN_UR_WHERE_STRIP : Fld := ⟨0x1200308, 17, 8⟩
abbrev SYN_UR_WHERE_GRATE : Fld := ⟨0x1200308, 19, 18⟩
abbrev SYN_CAM_CX (i : Nat) : Fld := ⟨0x1202000 + 0x40 * i, 31, 0⟩
abbrev SYN_CAM_CY (i : Nat) : Fld := ⟨0x1202004 + 0x40 * i, 31, 0⟩
abbrev SYN_CAM_CZ (i : Nat) : Fld := ⟨0x1202008 + 0x40 * i, 31, 0⟩
abbrev SYN_CAM_FX (i : Nat) : Fld := ⟨0x120200C + 0x40 * i, 31, 0⟩
abbrev SYN_CAM_FY (i : Nat) : Fld := ⟨0x1202010 + 0x40 * i, 31, 0⟩
abbrev SYN_CAM_PU (i : Nat) : Fld := ⟨0x1202014 + 0x40 * i, 31, 0⟩
abbrev SYN_CAM_PV (i : Nat) : Fld := ⟨0x1202018 + 0x40 * i, 31, 0⟩
abbrev SYN_CAM_ZN (i : Nat) : Fld := ⟨0x120201C + 0x40 * i, 31, 0⟩
abbrev SYN_CAM_ZF (i : Nat) : Fld := ⟨0x1202020 + 0x40 * i, 31, 0⟩

/-! R193 (06_composition_blit.md). -/
abbrev BLT_CTRL_OP : Fld := ⟨0x1400000, 1, 0⟩
abbrev BLT_CTRL_START : Fld := ⟨0x1400000, 4, 4⟩
abbrev BLT_STATUS_BUSY : Fld := ⟨0x1400004, 0, 0⟩
abbrev BLT_STATUS_DONE : Fld := ⟨0x1400004, 1, 1⟩
abbrev BLT_STATUS_ERROR : Fld := ⟨0x1400004, 2, 2⟩
abbrev BLT_STATUS_CODE : Fld := ⟨0x1400004, 15, 8⟩
abbrev BLT_STATUS_DIR : Fld := ⟨0x1400004, 17, 16⟩
abbrev BLT_SRC : Fld := ⟨0x1400008, 15, 0⟩
abbrev BLT_DST : Fld := ⟨0x140000C, 15, 0⟩
abbrev BLT_SRC_XY_X : Fld := ⟨0x1400010, 13, 0⟩
abbrev BLT_SRC_XY_Y : Fld := ⟨0x1400010, 29, 16⟩
abbrev BLT_DST_XY_X : Fld := ⟨0x1400014, 13, 0⟩
abbrev BLT_DST_XY_Y : Fld := ⟨0x1400014, 29, 16⟩
abbrev BLT_SIZE_W : Fld := ⟨0x1400018, 14, 0⟩
abbrev BLT_SIZE_H : Fld := ⟨0x1400018, 30, 16⟩
abbrev BLT_FILL : Fld := ⟨0x140001C, 31, 0⟩
abbrev BLT_FENCE_LO : Fld := ⟨0x1400020, 31, 0⟩
abbrev BLT_FENCE_HI : Fld := ⟨0x1400024, 31, 0⟩
abbrev BLT_COUNT : Fld := ⟨0x1400028, 31, 0⟩
abbrev BLT_REJECT : Fld := ⟨0x140002C, 31, 0⟩
abbrev BLT_PEWTER_BAD : Fld := ⟨0x1400030, 31, 0⟩
abbrev BLT_FENCE_CNT_LO (s : Nat) : Fld := ⟨0x1401000 + 0x8 * s, 31, 0⟩
abbrev BLT_FENCE_CNT_HI (s : Nat) : Fld := ⟨0x1401004 + 0x8 * s, 21, 0⟩

/-! R204 (06_composition_blit.md). -/
abbrev CMP_LAYER_STATE_BOUND : Fld := ⟨0x1300000, 7, 0⟩
abbrev CMP_LAYER_STATE_HELD : Fld := ⟨0x1300000, 15, 8⟩
abbrev CMP_BAND_USED : Fld := ⟨0x1300004, 22, 0⟩
abbrev CMP_BOUND_LO (n : Nat) : Fld := ⟨0x1300100 + 0x8 * n, 31, 0⟩
abbrev CMP_BOUND_HI (n : Nat) : Fld := ⟨0x1300104 + 0x8 * n, 15, 0⟩
abbrev CMP_HELD : Fld := ⟨0x1300200, 31, 0⟩
abbrev CMP_DROPPED : Fld := ⟨0x1300204, 31, 0⟩
abbrev CMP_LAYER_FAULT : Fld := ⟨0x1300208, 31, 0⟩
abbrev CMP_PEWTER_BAD : Fld := ⟨0x130020C, 31, 0⟩
abbrev CMP_CLEAR : Fld := ⟨0x1300210, 0, 0⟩

/-! R227 (07_scanout_timing.md). -/
abbrev SCN_LINK_STATE (n : Nat) : Fld := ⟨0x1500000 + 0x4 * n, 1, 0⟩
abbrev SCN_LINK_UNDERRUN (n : Nat) : Fld := ⟨0x1500000 + 0x4 * n, 8, 8⟩
abbrev SCN_LINK_HALF (n : Nat) : Fld := ⟨0x1500000 + 0x4 * n, 9, 9⟩
abbrev SCN_RATE : Fld := ⟨0x1500100, 3, 0⟩
abbrev SCN_WIDTH : Fld := ⟨0x1500104, 14, 0⟩
abbrev SCN_ACTIVE : Fld := ⟨0x1500108, 21, 0⟩
abbrev SCN_VBLANK : Fld := ⟨0x150010C, 7, 0⟩
abbrev SCN_SLOT_LINES : Fld := ⟨0x1500110, 11, 0⟩
abbrev SCN_LINE_TIME : Fld := ⟨0x1500114, 31, 0⟩
abbrev SCN_VBLANK_NOW : Fld := ⟨0x1500118, 23, 0⟩
abbrev SCN_FRAME_LO : Fld := ⟨0x1500200, 31, 0⟩
abbrev SCN_FRAME_HI : Fld := ⟨0x1500204, 15, 0⟩
abbrev SCN_LINE_NOW : Fld := ⟨0x1500208, 23, 0⟩
abbrev SCN_BIND_LO : Fld := ⟨0x150020C, 31, 0⟩
abbrev SCN_BIND_HI : Fld := ⟨0x1500210, 15, 0⟩
abbrev SCN_GL_CTRL_FIRST : Fld := ⟨0x1500300, 1, 0⟩
abbrev SCN_GL_CTRL_SECOND : Fld := ⟨0x1500300, 3, 2⟩
abbrev SCN_GL_CTRL_FLAGS : Fld := ⟨0x1500300, 7, 4⟩
abbrev SCN_GL_OFFSET : Fld := ⟨0x1500304, 31, 0⟩
abbrev SCN_GL_STATUS_SOURCE : Fld := ⟨0x1500308, 1, 0⟩
abbrev SCN_GL_STATUS_LOCKED : Fld := ⟨0x1500308, 4, 4⟩
abbrev SCN_GL_STATUS_VALID : Fld := ⟨0x1500308, 6, 5⟩
abbrev SCN_GL_ERROR : Fld := ⟨0x150030C, 31, 0⟩
abbrev SCN_UNDERRUN : Fld := ⟨0x1500400, 31, 0⟩
abbrev SCN_SLEW_FRAMES : Fld := ⟨0x1500404, 31, 0⟩
abbrev SCN_RESYNC : Fld := ⟨0x1500408, 31, 0⟩
abbrev SCN_FSYNC_REJECT : Fld := ⟨0x150040C, 31, 0⟩
abbrev SCN_COMMIT_LATE : Fld := ⟨0x1500410, 31, 0⟩
abbrev SCN_NUMBER_SKIP : Fld := ⟨0x1500414, 31, 0⟩
abbrev SCN_UR_FRAME_LO : Fld := ⟨0x1500418, 31, 0⟩
abbrev SCN_UR_FRAME_HI : Fld := ⟨0x150041C, 15, 0⟩
abbrev SCN_CLEAR : Fld := ⟨0x1500420, 0, 0⟩
abbrev SCN_SIG (n : Nat) : Fld := ⟨0x1500500 + 0x4 * n, 31, 0⟩
abbrev SCN_SIG_FRAME_LO : Fld := ⟨0x1500510, 31, 0⟩
abbrev SCN_SIG_FRAME_HI : Fld := ⟨0x1500514, 15, 0⟩

/-! R258 (08_panel_steering.md). -/
abbrev CHS_STATE_FILM : Fld := ⟨0x2000000, 1, 0⟩
abbrev CHS_STATE_RETAIN : Fld := ⟨0x2000000, 3, 2⟩
abbrev CHS_STATE_MAP_VALID : Fld := ⟨0x2000000, 4, 4⟩
abbrev CHS_STATE_PARKED : Fld := ⟨0x2000000, 5, 5⟩
abbrev CHS_STATE_TABLE_VALID : Fld := ⟨0x2000000, 6, 6⟩
abbrev CHS_STATE_TEMP_FAULT : Fld := ⟨0x2000000, 7, 7⟩
abbrev CHS_STATE_BAND : Fld := ⟨0x2000000, 10, 8⟩
abbrev CHS_FFS : Fld := ⟨0x2000004, 31, 0⟩
abbrev CHS_GEOM_FPF : Fld := ⟨0x2000008, 3, 0⟩
abbrev CHS_GEOM_L_FF : Fld := ⟨0x2000008, 30, 16⟩
abbrev CHS_PULSE : Fld := ⟨0x200000C, 11, 0⟩
abbrev CHS_CFG_FILM_BLANK : Fld := ⟨0x2000010, 0, 0⟩
abbrev CHS_CFG_TEMP_CH : Fld := ⟨0x2000010, 15, 8⟩
abbrev CHS_TEMP_CAL_OFFSET : Fld := ⟨0x2000014, 15, 0⟩
abbrev CHS_TEMP_CAL_GAIN : Fld := ⟨0x2000014, 31, 16⟩
abbrev CHS_TEMP : Fld := ⟨0x2000018, 15, 0⟩
abbrev CHS_BUSY_CELLS : Fld := ⟨0x2000020, 22, 0⟩
abbrev CHS_SLOTS : Fld := ⟨0x2000024, 15, 0⟩
abbrev CHS_WAVEFORMS : Fld := ⟨0x2000100, 31, 0⟩
abbrev CHS_COLLAPSED : Fld := ⟨0x2000104, 31, 0⟩
abbrev CHS_PARKS : Fld := ⟨0x2000108, 31, 0⟩
abbrev CHS_PARK_BACK : Fld := ⟨0x200010C, 31, 0⟩
abbrev CHS_PARK_FWD : Fld := ⟨0x2000110, 31, 0⟩
abbrev CHS_RESEATS : Fld := ⟨0x2000114, 31, 0⟩
abbrev CHS_TEMP_OOR : Fld := ⟨0x2000118, 31, 0⟩
abbrev CHS_PARK_T : Fld := ⟨0x200011C, 13, 0⟩
abbrev CHS_PARK_FRAME_LO : Fld := ⟨0x2000120, 31, 0⟩
abbrev CHS_PARK_FRAME_HI : Fld := ⟨0x2000124, 15, 0⟩
abbrev CHS_CLEAR : Fld := ⟨0x2000128, 0, 0⟩

/-! R295 (09_projector_quench.md). -/
abbrev QNC_STATE_REGION (m : Nat) : Fld := ⟨0x2100000 + 0x4 * m, 1, 0⟩
abbrev QNC_STATE_HALF (m : Nat) : Fld := ⟨0x2100000 + 0x4 * m, 8, 8⟩
abbrev QNC_STATE_ABANDONED (m : Nat) : Fld := ⟨0x2100000 + 0x4 * m, 9, 9⟩
abbrev QNC_BLANK : Fld := ⟨0x2100100, 12, 0⟩
abbrev QNC_GUARD : Fld := ⟨0x2100104, 10, 0⟩
abbrev QNC_LIT : Fld := ⟨0x2100108, 15, 0⟩
abbrev QNC_CFG_DITHER : Fld := ⟨0x210010C, 0, 0⟩
abbrev QNC_SLOT_NOW : Fld := ⟨0x2100200, 9, 0⟩
abbrev QNC_LOAD_MAX : Fld := ⟨0x2100204, 15, 0⟩
abbrev QNC_LOADS (m : Nat) : Fld := ⟨0x2100300 + 0x4 * m, 31, 0⟩
abbrev QNC_DARK_SLOTS : Fld := ⟨0x2100310, 31, 0⟩
abbrev QNC_STALE_ROWS : Fld := ⟨0x2100314, 31, 0⟩
abbrev QNC_CLEAR : Fld := ⟨0x2100318, 0, 0⟩

/-! R296 (09_projector_quench.md). -/
abbrev LMP_STATE_SEGMENT : Fld := ⟨0x2200000, 1, 0⟩
abbrev LMP_STATE_ENUM_DONE : Fld := ⟨0x2200000, 2, 2⟩
abbrev LMP_STATE_SLOT_LOCKED : Fld := ⟨0x2200000, 3, 3⟩
abbrev LMP_PRESENT : Fld := ⟨0x2200004, 31, 0⟩
abbrev LMP_LOST : Fld := ⟨0x2200008, 31, 0⟩
abbrev LMP_OT (w : Nat) : Fld := ⟨0x2200010 + 0x4 * w, 31, 0⟩
abbrev LMP_TC_T0 (c : Nat) : Fld := ⟨0x2200020 + 0x4 * c, 15, 0⟩
abbrev LMP_TC_TSTEP (c : Nat) : Fld := ⟨0x2200020 + 0x4 * c, 31, 16⟩
abbrev LMP_CH_ENABLE (n : Nat) : Fld := ⟨0x2200100 + 0x4 * n, 0, 0⟩
abbrev LMP_CH_COLOUR (n : Nat) : Fld := ⟨0x2200100 + 0x4 * n, 2, 1⟩
abbrev LMP_CH_ARRAY (n : Nat) : Fld := ⟨0x2200100 + 0x4 * n, 3, 3⟩
abbrev LMP_CH_REF (n : Nat) : Fld := ⟨0x2200100 + 0x4 * n, 4, 4⟩
abbrev LMP_CH_TCOMP (n : Nat) : Fld := ⟨0x2200100 + 0x4 * n, 5, 5⟩
abbrev LMP_CH_SOURCE (n : Nat) : Fld := ⟨0x2200100 + 0x4 * n, 15, 8⟩
abbrev LMP_CH_SET_WRITTEN (n : Nat) : Fld := ⟨0x2200300 + 0x4 * n, 15, 0⟩
abbrev LMP_CH_SET_APPLIED (n : Nat) : Fld := ⟨0x2200300 + 0x4 * n, 31, 16⟩
abbrev LMP_CH_TEMP (n : Nat) : Fld := ⟨0x2200500 + 0x4 * n, 15, 0⟩
abbrev LMP_HOST_B (n : Nat) : Fld := ⟨0x2200700 + 0x4 * n, 15, 0⟩
abbrev LMP_TX : Fld := ⟨0x2200A00, 31, 0⟩
abbrev LMP_NOREPLY : Fld := ⟨0x2200A04, 31, 0⟩
abbrev LMP_CRC : Fld := ⟨0x2200A08, 31, 0⟩
abbrev LMP_LATCHES : Fld := ⟨0x2200A0C, 31, 0⟩
abbrev LMP_LATCH_FRAME_LO : Fld := ⟨0x2200A10, 31, 0⟩
abbrev LMP_LATCH_FRAME_HI : Fld := ⟨0x2200A14, 15, 0⟩
abbrev LMP_EXTRA_NODES : Fld := ⟨0x2200A18, 7, 0⟩
abbrev LMP_CLEAR : Fld := ⟨0x2200A1C, 0, 0⟩

/-! R316 (10_bellows.md). -/
abbrev BLW_LOOP_STATE_LO : Fld := ⟨0x2300000, 31, 0⟩
abbrev BLW_LOOP_STATE_HI : Fld := ⟨0x2300004, 15, 0⟩
abbrev BLW_BANK : Fld := ⟨0x2300008, 23, 0⟩
abbrev BLW_SWAP_PEND : Fld := ⟨0x230000C, 23, 0⟩
abbrev BLW_TICK : Fld := ⟨0x2300010, 31, 0⟩
abbrev BLW_GROUP_OUT (g : Nat) : Fld := ⟨0x2300100 + 0x4 * g, 15, 0⟩
abbrev BLW_GROUP_WINNER (g : Nat) : Fld := ⟨0x2300100 + 0x4 * g, 20, 16⟩
abbrev BLW_GROUP_IDLE (g : Nat) : Fld := ⟨0x2300100 + 0x4 * g, 24, 24⟩
abbrev BLW_ADC_OFFSET (c : Nat) : Fld := ⟨0x2300140 + 0x8 * c, 15, 0⟩
abbrev BLW_ADC_GAIN (c : Nat) : Fld := ⟨0x2300140 + 0x8 * c, 31, 16⟩
abbrev BLW_ADC_CODE_RAW (c : Nat) : Fld := ⟨0x2300144 + 0x8 * c, 15, 0⟩
abbrev BLW_ADC_CODE_TRIMMED (c : Nat) : Fld := ⟨0x2300144 + 0x8 * c, 31, 16⟩
abbrev BLW_L_CFG_ADC (l : Nat) : Fld := ⟨0x2300200 + 0x40 * l, 3, 0⟩
abbrev BLW_L_CFG_RATE (l : Nat) : Fld := ⟨0x2300200 + 0x40 * l, 7, 4⟩
abbrev BLW_L_CFG_GROUP (l : Nat) : Fld := ⟨0x2300200 + 0x40 * l, 10, 8⟩
abbrev BLW_L_CFG_GROUPED (l : Nat) : Fld := ⟨0x2300200 + 0x40 * l, 11, 11⟩
abbrev BLW_L_CFG_FILTER (l : Nat) : Fld := ⟨0x2300200 + 0x40 * l, 27, 12⟩
abbrev BLW_L_ILIM_I_LO (l : Nat) : Fld := ⟨0x2300204 + 0x40 * l, 15, 0⟩
abbrev BLW_L_ILIM_I_HI (l : Nat) : Fld := ⟨0x2300204 + 0x40 * l, 31, 16⟩
abbrev BLW_L_OLIM_OUT_LO (l : Nat) : Fld := ⟨0x2300208 + 0x40 * l, 15, 0⟩
abbrev BLW_L_OLIM_OUT_HI (l : Nat) : Fld := ⟨0x2300208 + 0x40 * l, 31, 16⟩
abbrev BLW_L_INIT (l : Nat) : Fld := ⟨0x230020C + 0x40 * l, 15, 0⟩
abbrev BLW_L_SETPOINT (l : Nat) : Fld := ⟨0x2300210 + 0x40 * l, 15, 0⟩
abbrev BLW_L_MEAS (l : Nat) : Fld := ⟨0x2300214 + 0x40 * l, 15, 0⟩
abbrev BLW_L_OUT (l : Nat) : Fld := ⟨0x2300218 + 0x40 * l, 15, 0⟩
abbrev BLW_L_INTEG (l : Nat) : Fld := ⟨0x230021C + 0x40 * l, 31, 0⟩
abbrev BLW_L_A_KP (l : Nat) : Fld := ⟨0x2300220 + 0x40 * l, 15, 0⟩
abbrev BLW_L_A_KI (l : Nat) : Fld := ⟨0x2300220 + 0x40 * l, 31, 16⟩
abbrev BLW_L_A_KD (l : Nat) : Fld := ⟨0x2300224 + 0x40 * l, 15, 0⟩
abbrev BLW_L_A_B0 (l : Nat) : Fld := ⟨0x2300224 + 0x40 * l, 31, 16⟩
abbrev BLW_L_A_B1 (l : Nat) : Fld := ⟨0x2300228 + 0x40 * l, 15, 0⟩
abbrev BLW_L_A_B2 (l : Nat) : Fld := ⟨0x2300228 + 0x40 * l, 31, 16⟩
abbrev BLW_L_A_A1 (l : Nat) : Fld := ⟨0x230022C + 0x40 * l, 15, 0⟩
abbrev BLW_L_A_A2 (l : Nat) : Fld := ⟨0x230022C + 0x40 * l, 31, 16⟩
abbrev BLW_L_B_KP (l : Nat) : Fld := ⟨0x2300230 + 0x40 * l, 15, 0⟩
abbrev BLW_L_B_KI (l : Nat) : Fld := ⟨0x2300230 + 0x40 * l, 31, 16⟩
abbrev BLW_L_B_KD (l : Nat) : Fld := ⟨0x2300234 + 0x40 * l, 15, 0⟩
abbrev BLW_L_B_B0 (l : Nat) : Fld := ⟨0x2300234 + 0x40 * l, 31, 16⟩
abbrev BLW_L_B_B1 (l : Nat) : Fld := ⟨0x2300238 + 0x40 * l, 15, 0⟩
abbrev BLW_L_B_B2 (l : Nat) : Fld := ⟨0x2300238 + 0x40 * l, 31, 16⟩
abbrev BLW_L_B_A1 (l : Nat) : Fld := ⟨0x230023C + 0x40 * l, 15, 0⟩
abbrev BLW_L_B_A2 (l : Nat) : Fld := ⟨0x230023C + 0x40 * l, 31, 16⟩
abbrev BLW_SKIP : Fld := ⟨0x2300800, 31, 0⟩
abbrev BLW_SAT : Fld := ⟨0x2300804, 31, 0⟩
abbrev BLW_REFUSED : Fld := ⟨0x2300808, 31, 0⟩
abbrev BLW_SWAP_DROPPED : Fld := ⟨0x230080C, 31, 0⟩
abbrev BLW_CLEAR : Fld := ⟨0x2300810, 0, 0⟩

/-! R347 (11_lanes_links.md). -/
abbrev LNK_FL_STATE_PHASE (n : Nat) : Fld := ⟨0x3000000 + 0x100 * n, 2, 0⟩
abbrev LNK_FL_STATE_FUNC (n : Nat) : Fld := ⟨0x3000000 + 0x100 * n, 5, 4⟩
abbrev LNK_FL_STATE_DEGRADED (n : Nat) : Fld := ⟨0x3000000 + 0x100 * n, 6, 6⟩
abbrev LNK_FL_STATE_NO_SPARE (n : Nat) : Fld := ⟨0x3000000 + 0x100 * n, 7, 7⟩
abbrev LNK_FL_STATE_POWER (n : Nat) : Fld := ⟨0x3000000 + 0x100 * n, 9, 8⟩
abbrev LNK_FL_STATE_BACK (n : Nat) : Fld := ⟨0x3000000 + 0x100 * n, 10, 10⟩
abbrev LNK_FL_STATE_N (n : Nat) : Fld := ⟨0x3000000 + 0x100 * n, 14, 12⟩
abbrev LNK_FL_STATE_GEN (n : Nat) : Fld := ⟨0x3000000 + 0x100 * n, 19, 16⟩
abbrev LNK_FL_MAP_LOGICAL (n : Nat) : Fld := ⟨0x3000004 + 0x100 * n, 14, 0⟩
abbrev LNK_FL_MAP_SPARE (n : Nat) : Fld := ⟨0x3000004 + 0x100 * n, 18, 16⟩
abbrev LNK_FL_MAP_FAILED (n : Nat) : Fld := ⟨0x3000004 + 0x100 * n, 24, 20⟩
abbrev LNK_FL_PARTNER_LO (n : Nat) : Fld := ⟨0x3000008 + 0x100 * n, 31, 0⟩
abbrev LNK_FL_PARTNER_HI_ID (n : Nat) : Fld := ⟨0x300000C + 0x100 * n, 15, 0⟩
abbrev LNK_FL_PARTNER_HI_CAPS (n : Nat) : Fld := ⟨0x300000C + 0x100 * n, 23, 16⟩
abbrev LNK_FL_EYE (n : Nat) : Fld := ⟨0x3000010 + 0x100 * n, 15, 0⟩
abbrev LNK_FL_BACKOFF (n : Nat) : Fld := ⟨0x3000014 + 0x100 * n, 10, 0⟩
abbrev LNK_FL_EQ (n : Nat) (p : Nat) : Fld := ⟨0x3000020 + 0x100 * n + 0x4 * p, 20, 0⟩
abbrev LNK_FL_EQ_START (n : Nat) (p : Nat) : Fld := ⟨0x3000040 + 0x100 * n + 0x4 * p, 20, 0⟩
abbrev LNK_FL_SWITCHES (n : Nat) : Fld := ⟨0x3000080 + 0x100 * n, 31, 0⟩
abbrev LNK_FL_RESTRIPES (n : Nat) : Fld := ⟨0x3000084 + 0x100 * n, 31, 0⟩
abbrev LNK_FL_LISTENS (n : Nat) : Fld := ⟨0x3000088 + 0x100 * n, 31, 0⟩
abbrev LNK_FL_SH_ERR (n : Nat) : Fld := ⟨0x300008C + 0x100 * n, 31, 0⟩
abbrev LNK_FL_BK_ERR (n : Nat) : Fld := ⟨0x3000090 + 0x100 * n, 31, 0⟩
abbrev LNK_CLEAR : Fld := ⟨0x3000400, 0, 0⟩

/-! R348 (11_lanes_links.md). -/
abbrev DMP_LANE_PHASE (i : Nat) : Fld := ⟨0x7001000 + 0x4 * i, 2, 0⟩
abbrev DMP_LANE_LOCKED (i : Nat) : Fld := ⟨0x7001000 + 0x4 * i, 3, 3⟩
abbrev DMP_LANE_ROLE (i : Nat) : Fld := ⟨0x7001000 + 0x4 * i, 5, 4⟩
abbrev DMP_LANE_LOGICAL (i : Nat) : Fld := ⟨0x7001000 + 0x4 * i, 11, 6⟩
abbrev DMP_LANE_GEN (i : Nat) : Fld := ⟨0x7001000 + 0x4 * i, 15, 12⟩
abbrev DMP_LANE_LOSS (i : Nat) : Fld := ⟨0x7001100 + 0x4 * i, 31, 0⟩
abbrev DMP_HALF_N (h : Nat) : Fld := ⟨0x7001200 + 0x4 * h, 4, 0⟩
abbrev DMP_HALF_DEGRADED (h : Nat) : Fld := ⟨0x7001200 + 0x4 * h, 5, 5⟩
abbrev DMP_HALF_ON (h : Nat) : Fld := ⟨0x7001200 + 0x4 * h, 6, 6⟩
abbrev DMP_LANE_CLEAR : Fld := ⟨0x7001210, 0, 0⟩

/-! R549 (11_lanes_links.md). -/
abbrev DMP_FWD_LATENCY : Fld := ⟨0x7000000, 15, 0⟩
abbrev DMP_HCRC_ERR : Fld := ⟨0x7000100, 31, 0⟩
abbrev DMP_CRC_ERR : Fld := ⟨0x7000104, 31, 0⟩
abbrev DMP_RESENDS : Fld := ⟨0x7000108, 31, 0⟩
abbrev DMP_TIMEOUTS : Fld := ⟨0x700010C, 31, 0⟩
abbrev DMP_RAY_DROP (f : Nat) : Fld := ⟨0x7000110 + 0x4 * f, 31, 0⟩
abbrev DMP_RQ_DISCARD : Fld := ⟨0x7000120, 31, 0⟩
abbrev DMP_RQ_MERGED : Fld := ⟨0x7000124, 31, 0⟩
abbrev DMP_RQ_HWM : Fld := ⟨0x7000128, 14, 0⟩
abbrev DMP_MSG_CLEAR : Fld := ⟨0x7000130, 0, 0⟩

/-! R386 (12_network_time.md). -/
abbrev NET_IF_LINK (i : Nat) : Fld := ⟨0x3100000 + 0x4 * i, 0, 0⟩
abbrev NET_IF_EXISTS (i : Nat) : Fld := ⟨0x3100000 + 0x4 * i, 1, 1⟩
abbrev NET_IF_FEC (i : Nat) : Fld := ⟨0x3100000 + 0x4 * i, 2, 2⟩
abbrev NET_IF_EARLY (i : Nat) : Fld := ⟨0x3100100 + 0x4 * i, 31, 0⟩
abbrev NET_IF_DROP (i : Nat) : Fld := ⟨0x3100200 + 0x4 * i, 31, 0⟩
abbrev NET_FEC_CORR (i : Nat) : Fld := ⟨0x3100300 + 0x4 * i, 31, 0⟩
abbrev NET_FEC_UNCORR (i : Nat) : Fld := ⟨0x3100400 + 0x4 * i, 31, 0⟩
abbrev NET_PAIR_A_DOWN (p : Nat) : Fld := ⟨0x3100500 + 0x4 * p, 0, 0⟩
abbrev NET_PAIR_B_DOWN (p : Nat) : Fld := ⟨0x3100500 + 0x4 * p, 1, 1⟩
abbrev NET_PAIR_WINDOW (p : Nat) : Fld := ⟨0x3100500 + 0x4 * p, 23, 16⟩
abbrev NET_PAIR_LOST (p : Nat) : Fld := ⟨0x3100600 + 0x4 * p, 31, 0⟩
abbrev NET_PAIR_SKEW (p : Nat) : Fld := ⟨0x3100700 + 0x4 * p, 31, 0⟩
abbrev NET_CLEAR : Fld := ⟨0x3100800, 0, 0⟩

/-! R387 (12_network_time.md). -/
abbrev PTP_T_SEC_LO (b : Nat) : Fld := ⟨0x3200000 + 0x20 * b, 31, 0⟩
abbrev PTP_T_SEC_HI (b : Nat) : Fld := ⟨0x3200004 + 0x20 * b, 15, 0⟩
abbrev PTP_T_NS (b : Nat) : Fld := ⟨0x3200008 + 0x20 * b, 29, 0⟩
abbrev PTP_T_FRAC (b : Nat) : Fld := ⟨0x320000C + 0x20 * b, 31, 16⟩
abbrev PTP_INCR_FRAC (b : Nat) : Fld := ⟨0x3200010 + 0x20 * b, 31, 0⟩
abbrev PTP_INCR_NS (b : Nat) : Fld := ⟨0x3200014 + 0x20 * b, 7, 0⟩
abbrev PTP_ADJ_NS (b : Nat) : Fld := ⟨0x3200018 + 0x20 * b, 31, 0⟩
abbrev PTP_ADJ_CTRL_FRAC (b : Nat) : Fld := ⟨0x320001C + 0x20 * b, 15, 0⟩
abbrev PTP_ADJ_CTRL_GO (b : Nat) : Fld := ⟨0x320001C + 0x20 * b, 31, 31⟩
abbrev PTP_STATE_MEDIA : Fld := ⟨0x3200100, 1, 0⟩
abbrev PTP_STATE_REPORTS_LOCK : Fld := ⟨0x3200100, 2, 2⟩
abbrev PTP_STATE_IF_B : Fld := ⟨0x3200100, 3, 3⟩
abbrev PTP_OFFSET : Fld := ⟨0x3200104, 31, 0⟩
abbrev PTP_DELAY : Fld := ⟨0x3200108, 31, 0⟩
abbrev PTP_STEPS (b : Nat) : Fld := ⟨0x3200110 + 0x4 * b, 31, 0⟩
abbrev PTP_REFUSED : Fld := ⟨0x3200120, 31, 0⟩
abbrev PTP_TPO_MODE (n : Nat) : Fld := ⟨0x3200200 + 0x20 * n, 1, 0⟩
abbrev PTP_TPO_BASE (n : Nat) : Fld := ⟨0x3200200 + 0x20 * n, 3, 2⟩
abbrev PTP_TPO_FIRED (n : Nat) : Fld := ⟨0x3200200 + 0x20 * n, 4, 4⟩
abbrev PTP_TPO_LATE (n : Nat) : Fld := ⟨0x3200200 + 0x20 * n, 5, 5⟩
abbrev PTP_TPO_NEXT_LO (n : Nat) : Fld := ⟨0x3200204 + 0x20 * n, 31, 0⟩
abbrev PTP_TPO_NEXT_HI (n : Nat) : Fld := ⟨0x3200208 + 0x20 * n, 31, 0⟩
abbrev PTP_TCI_EDGE (m : Nat) : Fld := ⟨0x3200400 + 0x10 * m, 1, 0⟩
abbrev PTP_TCI_FILL (m : Nat) : Fld := ⟨0x3200400 + 0x10 * m, 10, 4⟩
abbrev PTP_TCI_OVERFLOW (m : Nat) : Fld := ⟨0x3200404 + 0x10 * m, 31, 0⟩
abbrev PTP_TCI_OUTSIDE (m : Nat) : Fld := ⟨0x3200408 + 0x10 * m, 31, 0⟩
abbrev PTP_CLEAR : Fld := ⟨0x3200500, 0, 0⟩

/-! R411 (13_memory.md). -/
abbrev MEM_CH_STATE_STATE (c : Nat) : Fld := ⟨0x3300000 + 0x100 * c, 1, 0⟩
abbrev MEM_CH_STATE_SET (c : Nat) : Fld := ⟨0x3300000 + 0x100 * c, 2, 2⟩
abbrev MEM_CH_STATE_CHANGING (c : Nat) : Fld := ⟨0x3300000 + 0x100 * c, 3, 3⟩
abbrev MEM_CH_STATE_RANKS (c : Nat) : Fld := ⟨0x3300000 + 0x100 * c, 5, 4⟩
abbrev MEM_CH_STATE_DENSITY (c : Nat) : Fld := ⟨0x3300000 + 0x100 * c, 11, 8⟩
abbrev MEM_CH_STATE_MR4 (c : Nat) : Fld := ⟨0x3300000 + 0x100 * c, 15, 12⟩
abbrev MEM_CH_CE (c : Nat) : Fld := ⟨0x3300004 + 0x100 * c, 31, 0⟩
abbrev MEM_CH_UE (c : Nat) : Fld := ⟨0x3300008 + 0x100 * c, 31, 0⟩
abbrev MEM_CH_ERR_ADDR_LO (c : Nat) : Fld := ⟨0x330000C + 0x100 * c, 31, 0⟩
abbrev MEM_CH_ERR_ADDR_HI (c : Nat) : Fld := ⟨0x3300010 + 0x100 * c, 1, 0⟩
abbrev MEM_CH_ERR_INFO_SYNDROME (c : Nat) : Fld := ⟨0x3300014 + 0x100 * c, 7, 0⟩
abbrev MEM_CH_ERR_INFO_UE (c : Nat) : Fld := ⟨0x3300014 + 0x100 * c, 8, 8⟩
abbrev MEM_CH_ERR_INFO_SCRUB (c : Nat) : Fld := ⟨0x3300014 + 0x100 * c, 9, 9⟩
abbrev MEM_CH_NBR (c : Nat) : Fld := ⟨0x3300018 + 0x100 * c, 31, 0⟩
abbrev MEM_CH_NBR_HWM (c : Nat) : Fld := ⟨0x330001C + 0x100 * c, 14, 0⟩
abbrev MEM_CH_INFLIGHT_NOW (c : Nat) : Fld := ⟨0x3300020 + 0x100 * c, 9, 0⟩
abbrev MEM_CH_INFLIGHT_HWM (c : Nat) : Fld := ⟨0x3300020 + 0x100 * c, 25, 16⟩
abbrev MEM_CH_SCRUB_PASSES (c : Nat) : Fld := ⟨0x3300024 + 0x100 * c, 31, 0⟩
abbrev MEM_CH_EYE (c : Nat) : Fld := ⟨0x3300028 + 0x100 * c, 31, 0⟩
abbrev MEM_TIM0_RATE (c : Nat) (s : Nat) : Fld := ⟨0x3300040 + 0x100 * c + 0x20 * s, 13, 0⟩
abbrev MEM_TIM0_RL (c : Nat) (s : Nat) : Fld := ⟨0x3300040 + 0x100 * c + 0x20 * s, 20, 16⟩
abbrev MEM_TIM0_WL (c : Nat) (s : Nat) : Fld := ⟨0x3300040 + 0x100 * c + 0x20 * s, 28, 24⟩
abbrev MEM_TIM1 (c : Nat) (s : Nat) : Fld := ⟨0x3300044 + 0x100 * c + 0x20 * s, 31, 0⟩
abbrev MEM_TIM2 (c : Nat) (s : Nat) : Fld := ⟨0x3300048 + 0x100 * c + 0x20 * s, 31, 0⟩
abbrev MEM_TIM3 (c : Nat) (s : Nat) : Fld := ⟨0x330004C + 0x100 * c + 0x20 * s, 31, 0⟩
abbrev MEM_TIM4 (c : Nat) (s : Nat) : Fld := ⟨0x3300050 + 0x100 * c + 0x20 * s, 31, 0⟩
abbrev MEM_NBR_CFG_THRESHOLD : Fld := ⟨0x3300400, 14, 0⟩
abbrev MEM_NBR_CFG_DIST : Fld := ⟨0x3300400, 17, 16⟩
abbrev MEM_UE_LIMIT : Fld := ⟨0x3300404, 7, 0⟩
abbrev MEM_DIE_FAILED : Fld := ⟨0x3300408, 3, 0⟩
abbrev MEM_DIE_MAP_SINGLE : Fld := ⟨0x3300408, 4, 4⟩
abbrev MEM_REFUSED : Fld := ⟨0x330040C, 31, 0⟩
abbrev MEM_CLEAR : Fld := ⟨0x3300410, 0, 0⟩

/-! R427 (14_clocks.md). -/
abbrev CLK_STATE_SRC : Fld := ⟨0x3400000, 1, 0⟩
abbrev CLK_STATE_MAIN_LOCKED : Fld := ⟨0x3400000, 2, 2⟩
abbrev CLK_STATE_SPARE_LOCKED : Fld := ⟨0x3400000, 3, 3⟩
abbrev CLK_STATE_REF_OK : Fld := ⟨0x3400000, 4, 4⟩
abbrev CLK_STATE_MAIN_HELD : Fld := ⟨0x3400000, 5, 5⟩
abbrev CLK_STATE_HOLDOVER : Fld := ⟨0x3400000, 6, 6⟩
abbrev CLK_LOCK_CFG_WIN : Fld := ⟨0x3400004, 8, 0⟩
abbrev CLK_LOCK_CFG_N : Fld := ⟨0x3400004, 31, 16⟩
abbrev CLK_SEED : Fld := ⟨0x3400008, 15, 0⟩
abbrev CLK_OUT_ENABLE (k : Nat) : Fld := ⟨0x3400010 + 0x4 * k, 0, 0⟩
abbrev CLK_OUT_DELAY (k : Nat) : Fld := ⟨0x3400010 + 0x4 * k, 13, 8⟩
abbrev CLK_SWITCHES : Fld := ⟨0x3400100, 31, 0⟩
abbrev CLK_MAIN_LOSS : Fld := ⟨0x3400104, 31, 0⟩
abbrev CLK_REF_LOSS : Fld := ⟨0x3400108, 31, 0⟩
abbrev CLK_REFUSED : Fld := ⟨0x340010C, 31, 0⟩
abbrev CLK_CLEAR : Fld := ⟨0x3400110, 0, 0⟩
abbrev CLK_FR_STATE : Fld := ⟨0x3400200, 1, 0⟩
abbrev CLK_FR_ERROR : Fld := ⟨0x3400204, 31, 0⟩
abbrev CLK_FR_PPB : Fld := ⟨0x3400208, 31, 0⟩
abbrev CLK_FR_STEPS : Fld := ⟨0x340020C, 31, 0⟩
abbrev CLK_FR_HOLDOVERS : Fld := ⟨0x3400210, 31, 0⟩

/-! R448 (15_camera_trim.md). -/
abbrev CAM_STATE_FUNC (c : Nat) : Fld := ⟨0x4000000 + 0x100 * c, 1, 0⟩
abbrev CAM_STATE_LOST (c : Nat) : Fld := ⟨0x4000000 + 0x100 * c, 2, 2⟩
abbrev CAM_FRAME (c : Nat) : Fld := ⟨0x4000004 + 0x100 * c, 31, 0⟩
abbrev CAM_GEN_GEN (c : Nat) : Fld := ⟨0x4000008 + 0x100 * c, 15, 0⟩
abbrev CAM_GEN_GEN_EXP (c : Nat) : Fld := ⟨0x4000008 + 0x100 * c, 31, 16⟩
abbrev CAM_NEXT (c : Nat) : Fld := ⟨0x400000C + 0x100 * c, 15, 0⟩
abbrev CAM_FRAMES (c : Nat) : Fld := ⟨0x4000010 + 0x100 * c, 31, 0⟩
abbrev CAM_DROPS (c : Nat) : Fld := ⟨0x4000014 + 0x100 * c, 31, 0⟩
abbrev CAM_TRUNC (c : Nat) : Fld := ⟨0x4000018 + 0x100 * c, 31, 0⟩
abbrev CAM_CRC (c : Nat) : Fld := ⟨0x400001C + 0x100 * c, 31, 0⟩
abbrev CAM_ECC_CORR (c : Nat) : Fld := ⟨0x4000020 + 0x100 * c, 31, 0⟩
abbrev CAM_DISCARD (c : Nat) : Fld := ⟨0x4000024 + 0x100 * c, 31, 0⟩
abbrev CAM_CCI_FAIL (c : Nat) : Fld := ⟨0x4000028 + 0x100 * c, 31, 0⟩
abbrev CAM_ARB_PRIORITY : Fld := ⟨0x4000200, 1, 0⟩
abbrev CAM_CLEAR : Fld := ⟨0x4000204, 0, 0⟩
abbrev TRM_STATE_BUSY : Fld := ⟨0x4100000, 0, 0⟩
abbrev TRM_STATE_QUANTITY : Fld := ⟨0x4100000, 3, 1⟩
abbrev TRM_STATE_QUEUED : Fld := ⟨0x4100000, 6, 4⟩
abbrev TRM_GAIN_TARGET : Fld := ⟨0x4100004, 15, 0⟩
abbrev TRM_RUNS : Fld := ⟨0x4100008, 31, 0⟩
abbrev TRM_DISAGREE : Fld := ⟨0x410000C, 31, 0⟩
abbrev TRM_FAULTS : Fld := ⟨0x4100010, 31, 0⟩
abbrev TRM_LAST_LO : Fld := ⟨0x4100014, 31, 0⟩
abbrev TRM_LAST_HI : Fld := ⟨0x4100018, 31, 0⟩
abbrev TRM_CLEAR : Fld := ⟨0x410001C, 0, 0⟩

/-! R471 (16_tinker_thermal_ageing.md). -/
abbrev TNK_CORE_ACTIVE : Fld := ⟨0x0000000, 0, 0⟩
abbrev TNK_CORE_STANDBY_OK : Fld := ⟨0x0000000, 1, 1⟩
abbrev TNK_CORE_FAILED : Fld := ⟨0x0000000, 3, 2⟩
abbrev TNK_PATCH : Fld := ⟨0x0000004, 15, 0⟩
abbrev TNK_PATCH_SLOT : Fld := ⟨0x0000008, 1, 0⟩
abbrev TNK_FLOOR : Fld := ⟨0x000000C, 5, 0⟩
abbrev TNK_SWITCHES : Fld := ⟨0x0000010, 31, 0⟩
abbrev TNK_BOOTCFG_LOST : Fld := ⟨0x0000014, 0, 0⟩
abbrev THM_SENSOR_VALUE (k : Nat) : Fld := ⟨0x5000000 + 0x4 * k, 15, 0⟩
abbrev THM_SENSOR_STATE (k : Nat) : Fld := ⟨0x5000000 + 0x4 * k, 17, 16⟩
abbrev THM_SENSOR_TRIM (k : Nat) : Fld := ⟨0x5000000 + 0x4 * k, 31, 23⟩
abbrev THM_SENSOR_RAW (k : Nat) : Fld := ⟨0x5000040 + 0x4 * k, 31, 0⟩
abbrev THM_STATE_LEVEL : Fld := ⟨0x5000100, 2, 0⟩
abbrev THM_STATE_BLIND : Fld := ⟨0x5000100, 3, 3⟩
abbrev THM_STATE_UNACKED : Fld := ⟨0x5000100, 4, 4⟩
abbrev THM_STATE_H : Fld := ⟨0x5000100, 31, 16⟩
abbrev THM_T1_AT : Fld := ⟨0x5000104, 15, 0⟩
abbrev THM_LEVEL_CHANGES : Fld := ⟨0x5000108, 31, 0⟩
abbrev THM_SENSOR_FAILS : Fld := ⟨0x500010C, 31, 0⟩
abbrev THM_CLEAR : Fld := ⟨0x5000110, 0, 0⟩
abbrev ASH_STATE_READY : Fld := ⟨0x5100000, 0, 0⟩
abbrev ASH_STATE_FLASH_FAULT : Fld := ⟨0x5100000, 1, 1⟩
abbrev ASH_NEXT : Fld := ⟨0x5100004, 31, 0⟩
abbrev ASH_OLDEST : Fld := ⟨0x5100008, 31, 0⟩
abbrev ASH_QUEUED : Fld := ⟨0x510000C, 8, 0⟩
abbrev ASH_LOST : Fld := ⟨0x5100010, 31, 0⟩
abbrev ASH_TORN : Fld := ⟨0x5100014, 31, 0⟩
abbrev ASH_CLEAR : Fld := ⟨0x5100018, 0, 0⟩

/-! R482 (17_events.md). -/
abbrev IRQ_DOORBELL : Fld := ⟨0x0E00000, 9, 0⟩
abbrev IRQ_CLAIM_SOURCE : Fld := ⟨0x0E00004, 9, 0⟩
abbrev IRQ_CLAIM_VALID : Fld := ⟨0x0E00004, 16, 16⟩
abbrev IRQ_CLAIM_LEVEL : Fld := ⟨0x0E00004, 17, 17⟩
abbrev IRQ_CLAIM_COUNT : Fld := ⟨0x0E00008, 15, 0⟩
abbrev IRQ_CLAIM_TIME_LO : Fld := ⟨0x0E0000C, 31, 0⟩
abbrev IRQ_CLAIM_TIME_HI : Fld := ⟨0x0E00010, 31, 0⟩
abbrev IRQ_COMPLETE_SOURCE : Fld := ⟨0x0E00014, 9, 0⟩
abbrev IRQ_COMPLETE_NOCAUSE : Fld := ⟨0x0E00014, 16, 16⟩
abbrev IRQ_OPEN : Fld := ⟨0x0E00018, 31, 0⟩
abbrev IRQ_GROUP_HOLDOFF (g : Nat) : Fld := ⟨0x0E00100 + 0x4 * g, 15, 0⟩
abbrev IRQ_GROUP_PRIO (g : Nat) : Fld := ⟨0x0E00100 + 0x4 * g, 18, 16⟩
abbrev IRQ_GROUP_ENABLE (g : Nat) : Fld := ⟨0x0E00100 + 0x4 * g, 24, 24⟩
abbrev IRQ_GROUP_HELD (g : Nat) : Fld := ⟨0x0E00100 + 0x4 * g, 25, 25⟩
abbrev IRQ_VANISHED : Fld := ⟨0x0E00200, 31, 0⟩
abbrev IRQ_STRAY : Fld := ⟨0x0E00204, 31, 0⟩
abbrev IRQ_UNASSIGNED : Fld := ⟨0x0E00208, 31, 0⟩
abbrev IRQ_WITHDRAWN : Fld := ⟨0x0E0020C, 31, 0⟩
abbrev IRQ_WAKES : Fld := ⟨0x0E00210, 31, 0⟩
abbrev IRQ_CLEAR : Fld := ⟨0x0E00214, 0, 0⟩
abbrev IRQ_SRC_STATE (s : Nat) : Fld := ⟨0x0E01000 + 0x4 * s, 1, 0⟩
abbrev IRQ_SRC_TYPE (s : Nat) : Fld := ⟨0x0E01000 + 0x4 * s, 2, 2⟩
abbrev IRQ_SRC_LEVEL_NOW (s : Nat) : Fld := ⟨0x0E01000 + 0x4 * s, 3, 3⟩
abbrev IRQ_SRC_REPEAT (s : Nat) : Fld := ⟨0x0E01000 + 0x4 * s, 4, 4⟩
abbrev IRQ_SRC_COUNT (s : Nat) : Fld := ⟨0x0E01000 + 0x4 * s, 31, 16⟩

/-! R511 (18_return_encoders.md). -/
abbrev ENC_STATE : Fld := ⟨0x6000000, 7, 0⟩
abbrev ENC_LOAD : Fld := ⟨0x6000004, 10, 0⟩
abbrev ENC_BUF_FILL : Fld := ⟨0x6000008, 22, 0⟩
abbrev ENC_PICTURES (s : Nat) : Fld := ⟨0x6000100 + 0x20 * s, 31, 0⟩
abbrev ENC_STARVED (s : Nat) : Fld := ⟨0x6000104 + 0x20 * s, 31, 0⟩
abbrev ENC_REPEAT (s : Nat) : Fld := ⟨0x6000108 + 0x20 * s, 31, 0⟩
abbrev ENC_LATE (s : Nat) : Fld := ⟨0x600010C + 0x20 * s, 31, 0⟩
abbrev ENC_STARVED_FRAME_LO (s : Nat) : Fld := ⟨0x6000110 + 0x20 * s, 31, 0⟩
abbrev ENC_STARVED_FRAME_HI (s : Nat) : Fld := ⟨0x6000114 + 0x20 * s, 15, 0⟩
abbrev ENC_CLEAR : Fld := ⟨0x6000200, 0, 0⟩
abbrev ING_STATE_BUSY : Fld := ⟨0x6100000, 0, 0⟩
abbrev ING_STATE_QUEUED : Fld := ⟨0x6100000, 5, 1⟩
abbrev ING_CTX_LO : Fld := ⟨0x6100004, 31, 0⟩
abbrev ING_CTX_HI : Fld := ⟨0x6100008, 31, 0⟩
abbrev ING_JOBS : Fld := ⟨0x6100010, 31, 0⟩
abbrev ING_OUT_FULL : Fld := ⟨0x6100014, 31, 0⟩
abbrev ING_FAULTS : Fld := ⟨0x6100018, 31, 0⟩
abbrev ING_CLEAR : Fld := ⟨0x610001C, 0, 0⟩

/-! R532 (19_power_startup_faults.md). -/
abbrev PWR_STATE_SAFE : Fld := ⟨0x7100000, 0, 0⟩
abbrev PWR_STATE_SAFE_CAUSE : Fld := ⟨0x7100000, 7, 4⟩
abbrev PWR_SAFE : Fld := ⟨0x7100004, 31, 0⟩
abbrev PWR_RAIL_FAULT_LO : Fld := ⟨0x7100008, 31, 0⟩
abbrev PWR_RAIL_FAULT_HI : Fld := ⟨0x710000C, 7, 0⟩
abbrev PWR_PFAIL_CFG_FILTER : Fld := ⟨0x7100000, 3, 0⟩
abbrev PWR_FILM_HV_LOW : Fld := ⟨0x7100004, 7, 0⟩
abbrev PWR_FILM_HV_HIGH : Fld := ⟨0x7100004, 15, 8⟩
abbrev PWR_PFAIL_STATUS_PFAIL_N : Fld := ⟨0x7100008, 0, 0⟩
abbrev PWR_PFAIL_STATUS_HV_LOW : Fld := ⟨0x7100008, 1, 1⟩
abbrev PWR_PFAIL_STATUS_HV_HIGH : Fld := ⟨0x7100008, 2, 2⟩
abbrev PWR_PFAIL_STATUS_LATCHED : Fld := ⟨0x7100008, 3, 3⟩
abbrev PWR_SHUTDOWN : Fld := ⟨0x710000C, 31, 0⟩
abbrev PWR_FLUE_RESET : Fld := ⟨0x7100010, 31, 0⟩
abbrev PWR_RAIL_STATE_CORE_LOW : Fld := ⟨0x7100014, 0, 0⟩
abbrev PWR_RAIL_STATE_CORE_HIGH : Fld := ⟨0x7100014, 1, 1⟩
abbrev PWR_RAIL_STATE_MEM : Fld := ⟨0x7100014, 2, 2⟩
abbrev PWR_RAIL_STATE_DAMPER : Fld := ⟨0x7100014, 3, 3⟩
abbrev PWR_VID_ADDR (r : Nat) : Fld := ⟨0x7100040 + 0x4 * r, 6, 0⟩
abbrev PWR_VID_FLUE (r : Nat) : Fld := ⟨0x7100040 + 0x4 * r, 7, 7⟩
abbrev PWR_VID_STEPS (r : Nat) : Fld := ⟨0x7100040 + 0x4 * r, 11, 8⟩
abbrev PWR_VID_LINEAR (r : Nat) : Fld := ⟨0x7100040 + 0x4 * r, 12, 12⟩
abbrev PWR_TWIN_CFG_ENABLE : Fld := ⟨0x7100100, 0, 0⟩
abbrev PWR_TWIN_CFG_PREFER : Fld := ⟨0x7100100, 1, 1⟩
abbrev PWR_TWIN_PARTNER : Fld := ⟨0x7100104, 31, 0⟩
abbrev PWR_TWIN_STATE_ROLE : Fld := ⟨0x7100108, 1, 0⟩
abbrev PWR_TWIN_STATE_TRACKING : Fld := ⟨0x7100108, 2, 2⟩
abbrev PWR_TWIN_STATE_HEARD : Fld := ⟨0x7100108, 3, 3⟩
abbrev PWR_TWIN_SKEW : Fld := ⟨0x710010C, 31, 0⟩
abbrev PWR_TWIN_SIGMISMATCH : Fld := ⟨0x7100110, 31, 0⟩
abbrev PWR_TWIN_ROLES : Fld := ⟨0x7100114, 31, 0⟩
abbrev PWR_TWIN_MISSED : Fld := ⟨0x7100118, 31, 0⟩
abbrev PWR_TWIN_REFUSED : Fld := ⟨0x710011C, 31, 0⟩
abbrev PWR_CLEAR : Fld := ⟨0x7100120, 0, 0⟩

/-! R347 (11_lanes_links.md). -/
abbrev LNK_H (i : Nat) : Fld := ⟨0x3000000 + 0x4 * i, 2, 0⟩
abbrev LNK_H_LOSS (i : Nat) : Fld := ⟨0x3000100 + 0x4 * i, 31, 0⟩
abbrev LNK_H_CLEAR : Fld := ⟨0x3000200, 0, 0⟩

end R

/-- The registers of block 0x00. -/
def regRows00 : List RegRow := [
  ⟨1, 0x400, 1, 0x0, 1, 0x0, 0xFFFFFFFF, 0x0, 0x0, 0x0, 0x0, 0x0⟩,
  ⟨1, 0x404, 1, 0x0, 1, 0x0, 0xFFFFFFFF, 0x0, 0x0, 0x0, 0x0, 0x0⟩,
  ⟨1, 0x408, 1, 0x0, 1, 0x0, 0xFFFFFFFF, 0x0, 0x0, 0x0, 0x0, 0x0⟩,
  ⟨1, 0x40C, 1, 0x0, 1, 0x0, 0xFFFFFFFF, 0x0, 0x0, 0x0, 0x0, 0x0⟩,
  ⟨1, 0x410, 1, 0x0, 1, 0x0, 0xFFFFFFFF, 0x0, 0x0, 0x0, 0x0, 0x0⟩,
  ⟨1, 0x414, 1, 0x0, 1, 0x0, 0x0, 0x0, 0x0, 0x1, 0x0, 0x0⟩,
  ⟨1, 0x0, 1, 0x0, 1, 0x0, 0xF, 0x0, 0x0, 0x0, 0x0, 0x0⟩,
  ⟨1, 0x4, 1, 0x0, 1, 0x0, 0xFFFF, 0x0, 0x0, 0x0, 0x0, 0x0⟩,
  ⟨1, 0x8, 1, 0x0, 1, 0x0, 0x3, 0x0, 0x0, 0x0, 0x0, 0x0⟩,
  ⟨1, 0xC, 1, 0x0, 1, 0x0, 0x3F, 0x0, 0x0, 0x0, 0x0, 0x0⟩,
  ⟨1, 0x10, 1, 0x0, 1, 0x0, 0xFFFFFFFF, 0x0, 0x0, 0x0, 0x0, 0x0⟩,
  ⟨1, 0x14, 1, 0x0, 1, 0x0, 0x0, 0x0, 0x1, 0x0, 0x0, 0x0⟩]

/-- The registers of block 0x0E. -/
def regRows0E : List RegRow := [
  ⟨1, 0x0, 1, 0x0, 1, 0x0, 0x0, 0x0, 0x0, 0x3FF, 0x0, 0x0⟩,
  ⟨1, 0x4, 1, 0x0, 1, 0x0, 0x303FF, 0x0, 0x0, 0x0, 0x0, 0x3FF⟩,
  ⟨1, 0x8, 1, 0x0, 1, 0x0, 0xFFFF, 0x0, 0x0, 0x0, 0x0, 0x0⟩,
  ⟨1, 0xC, 1, 0x0, 1, 0x0, 0xFFFFFFFF, 0x0, 0x0, 0x0, 0x0, 0x0⟩,
  ⟨1, 0x10, 1, 0x0, 1, 0x0, 0xFFFFFFFF, 0x0, 0x0, 0x0, 0x0, 0x0⟩,
  ⟨1, 0x14, 1, 0x0, 1, 0x0, 0x0, 0x0, 0x0, 0x103FF, 0x0, 0x0⟩,
  ⟨1, 0x18, 1, 0x0, 1, 0x0, 0xFFFFFFFF, 0x0, 0x0, 0x0, 0x0, 0x0⟩,
  ⟨1, 0x100, 32, 0x4, 1, 0x0, 0x2000000, 0x107FFFF, 0x0, 0x0, 0x0, 0x0⟩,
  ⟨1, 0x200, 1, 0x0, 1, 0x0, 0xFFFFFFFF, 0x0, 0x0, 0x0, 0x0, 0x0⟩,
  ⟨1, 0x204, 1, 0x0, 1, 0x0, 0xFFFFFFFF, 0x0, 0x0, 0x0, 0x0, 0x0⟩,
  ⟨1, 0x208, 1, 0x0, 1, 0x0, 0xFFFFFFFF, 0x0, 0x0, 0x0, 0x0, 0x0⟩,
  ⟨1, 0x20C, 1, 0x0, 1, 0x0, 0xFFFFFFFF, 0x0, 0x0, 0x0, 0x0, 0x0⟩,
  ⟨1, 0x210, 1, 0x0, 1, 0x0, 0xFFFFFFFF, 0x0, 0x0, 0x0, 0x0, 0x0⟩,
  ⟨1, 0x214, 1, 0x0, 1, 0x0, 0x0, 0x0, 0x0, 0x1, 0x0, 0x0⟩,
  ⟨1, 0x1000, 1024, 0x4, 1, 0x0, 0xFFFF001F, 0x0, 0x0, 0x0, 0x0, 0x0⟩]

/-- The registers of block 0x11. -/
def regRows11 : List RegRow := [
  ⟨2, 0x0, 1, 0x0, 1, 0x0, 0xFF, 0x0, 0x0, 0x0, 0x0, 0x0⟩,
  ⟨2, 0x4, 1, 0x0, 1, 0x0, 0x7FFF, 0x0, 0x0, 0x0, 0x0, 0x0⟩,
  ⟨2, 0x8, 1, 0x0, 1, 0x0, 0x7FFF, 0x0, 0x0, 0x0, 0x0, 0x0⟩,
  ⟨2, 0xC, 1, 0x0, 1, 0x0, 0x0, 0x7FFF, 0x0, 0x0, 0x0, 0x2000⟩,
  ⟨2, 0x100, 6, 0x4, 1, 0x0, 0x73DF7, 0x0, 0x0, 0x0, 0x0, 0x0⟩,
  ⟨2, 0x200, 1, 0x0, 1, 0x0, 0xFFFFFFFF, 0x0, 0x0, 0x0, 0x0, 0x0⟩,
  ⟨2, 0x204, 1, 0x0, 1, 0x0, 0xFFFFFFFF, 0x0, 0x0, 0x0, 0x0, 0x0⟩,
  ⟨2, 0x208, 1, 0x0, 1, 0x0, 0xFFFFFFFF, 0x0, 0x0, 0x0, 0x0, 0x0⟩,
  ⟨2, 0x20C, 1, 0x0, 1, 0x0, 0xFFFFFFFF, 0x0, 0x0, 0x0, 0x0, 0x0⟩,
  ⟨2, 0x210, 1, 0x0, 1, 0x0, 0xFFFFFFFF, 0x0, 0x0, 0x0, 0x0, 0x0⟩,
  ⟨2, 0x214, 1, 0x0, 1, 0x0, 0xFFFFFFFF, 0x0, 0x0, 0x0, 0x0, 0x0⟩,
  ⟨2, 0x218, 1, 0x0, 1, 0x0, 0xFFFFFFFF, 0x0, 0x0, 0x0, 0x0, 0x0⟩,
  ⟨2, 0x21C, 1, 0x0, 1, 0x0, 0xFFFFFFFF, 0x0, 0x0, 0x0, 0x0, 0x0⟩,
  ⟨2, 0x220, 1, 0x0, 1, 0x0, 0xFFFFFFFF, 0x0, 0x0, 0x0, 0x0, 0x0⟩,
  ⟨2, 0x224, 1, 0x0, 1, 0x0, 0x0, 0x0, 0x0, 0x1, 0x0, 0x0⟩]

/-- The registers of block 0x12. -/
def regRows12 : List RegRow := [
  ⟨2, 0x1000, 1, 0x0, 1, 0x0, 0x0, 0xF7, 0x0, 0x0, 0x0, 0x2⟩,
  ⟨2, 0x1004, 1, 0x0, 1, 0x0, 0x0, 0xFFFFFFFF, 0x0, 0x0, 0x0, 0x14001400⟩,
  ⟨2, 0x1010, 1, 0x0, 1, 0x0, 0xFFFFFFFF, 0x0, 0x0, 0x0, 0x0, 0x0⟩,
  ⟨2, 0x1014, 3, 0x4, 1, 0x0, 0x0, 0x0, 0x0, 0x0, 0xFFFFFFFF, 0x0⟩,
  ⟨2, 0x1040, 4, 0x10, 1, 0x0, 0x0, 0xFFFFFFFF, 0x0, 0x0, 0x0, 0x0⟩,
  ⟨2, 0x1044, 4, 0x10, 1, 0x0, 0x0, 0xFFFFFFFF, 0x0, 0x0, 0x0, 0x0⟩,
  ⟨2, 0x1048, 4, 0x10, 1, 0x0, 0x0, 0xFFFF, 0x0, 0x0, 0x0, 0x1000⟩,
  ⟨2, 0x1100, 1, 0x0, 1, 0x0, 0x177, 0x0, 0x0, 0x0, 0x0, 0x5⟩,
  ⟨2, 0x1104, 1, 0x0, 1, 0x0, 0xFFFFFFFF, 0x0, 0x0, 0x0, 0x0, 0x0⟩,
  ⟨2, 0x1108, 1, 0x0, 1, 0x0, 0xFFFF, 0x0, 0x0, 0x0, 0x0, 0x0⟩,
  ⟨2, 0x110C, 1, 0x0, 1, 0x0, 0xFFFFFFFF, 0x0, 0x0, 0x0, 0x0, 0x0⟩,
  ⟨2, 0x1110, 1, 0x0, 1, 0x0, 0xFFFF, 0x0, 0x0, 0x0, 0x0, 0x0⟩,
  ⟨2, 0x1114, 1, 0x0, 1, 0x0, 0xFFFFFFFF, 0x0, 0x0, 0x0, 0x0, 0x0⟩,
  ⟨2, 0x1118, 1, 0x0, 1, 0x0, 0xFFFFFFFF, 0x0, 0x0, 0x0, 0x0, 0x0⟩,
  ⟨2, 0x111C, 1, 0x0, 1, 0x0, 0x0, 0x0, 0x0, 0x1, 0x0, 0x0⟩,
  ⟨2, 0x0, 1, 0x0, 1, 0x0, 0x107, 0x0, 0x0, 0x0, 0x0, 0x7⟩,
  ⟨2, 0x4, 1, 0x0, 1, 0x0, 0xFFFFFF, 0x0, 0x0, 0x0, 0x0, 0x0⟩,
  ⟨2, 0x8, 1, 0x0, 1, 0x0, 0xFFFF000F, 0x0, 0x0, 0x0, 0x0, 0xC⟩,
  ⟨2, 0xC, 1, 0x0, 1, 0x0, 0x707, 0x70, 0x0, 0x0, 0x0, 0x0⟩,
  ⟨2, 0x100, 1, 0x0, 1, 0x0, 0x0, 0x0, 0x0, 0x0, 0xFFF, 0x190⟩,
  ⟨2, 0x104, 1, 0x0, 1, 0x0, 0x0, 0x0, 0x0, 0x0, 0xFFFFFFFF, 0x0⟩,
  ⟨2, 0x108, 1, 0x0, 1, 0x0, 0x0, 0x0, 0x0, 0x0, 0x7, 0x4⟩,
  ⟨2, 0x140, 1, 0x0, 1, 0x0, 0x100, 0x0, 0x0, 0x0, 0x7, 0x0⟩,
  ⟨2, 0x144, 1, 0x0, 1, 0x0, 0x0, 0x0, 0x0, 0x0, 0xFFFFFFFF, 0x10000⟩,
  ⟨2, 0x148, 1, 0x0, 1, 0x0, 0x0, 0x0, 0x0, 0x0, 0xFFFFFFFF, 0x10000⟩,
  ⟨2, 0x200, 1, 0x0, 1, 0x0, 0xFFFFFFFF, 0x0, 0x0, 0x0, 0x0, 0x0⟩,
  ⟨2, 0x204, 1, 0x0, 1, 0x0, 0xFFFFFFFF, 0x0, 0x0, 0x0, 0x0, 0x0⟩,
  ⟨2, 0x208, 1, 0x0, 1, 0x0, 0xFFFFFFFF, 0x0, 0x0, 0x0, 0x0, 0x0⟩,
  ⟨2, 0x20C, 1, 0x0, 1, 0x0, 0xFFFFFFFF, 0x0, 0x0, 0x0, 0x0, 0x0⟩,
  ⟨2, 0x210, 1, 0x0, 1, 0x0, 0xFFFFFFFF, 0x0, 0x0, 0x0, 0x0, 0x0⟩,
  ⟨2, 0x214, 1, 0x0, 1, 0x0, 0xFFFFFFFF, 0x0, 0x0, 0x0, 0x0, 0x0⟩,
  ⟨2, 0x218, 1, 0x0, 1, 0x0, 0xFFFFFFFF, 0x0, 0x0, 0x0, 0x0, 0x0⟩,
  ⟨2, 0x21C, 1, 0x0, 1, 0x0, 0xFFFFFFFF, 0x0, 0x0, 0x0, 0x0, 0x0⟩,
  ⟨2, 0x220, 1, 0x0, 1, 0x0, 0xFFFFFFFF, 0x0, 0x0, 0x0, 0x0, 0x0⟩,
  ⟨2, 0x224, 1, 0x0, 1, 0x0, 0xFFFF, 0x0, 0x0, 0x0, 0x0, 0xFFFF⟩,
  ⟨2, 0x228, 1, 0x0, 1, 0x0, 0x0, 0x0, 0x0, 0x1, 0x0, 0x0⟩,
  ⟨2, 0x300, 1, 0x0, 1, 0x0, 0xFFFFFFFF, 0x0, 0x0, 0x0, 0x0, 0x0⟩,
  ⟨2, 0x304, 1, 0x0, 1, 0x0, 0xFFFF, 0x0, 0x0, 0x0, 0x0, 0x0⟩,
  ⟨2, 0x308, 1, 0x0, 1, 0x0, 0xFFFFF, 0x0, 0x0, 0x0, 0x0, 0x0⟩,
  ⟨2, 0x2000, 16, 0x40, 1, 0x0, 0x0, 0x0, 0x0, 0x0, 0xFFFFFFFF, 0x0⟩,
  ⟨2, 0x2004, 16, 0x40, 1, 0x0, 0x0, 0x0, 0x0, 0x0, 0xFFFFFFFF, 0x0⟩,
  ⟨2, 0x2008, 16, 0x40, 1, 0x0, 0x0, 0x0, 0x0, 0x0, 0xFFFFFFFF, 0x100000⟩,
  ⟨2, 0x200C, 16, 0x40, 1, 0x0, 0x0, 0x0, 0x0, 0x0, 0xFFFFFFFF, 0x10000⟩,
  ⟨2, 0x2010, 16, 0x40, 1, 0x0, 0x0, 0x0, 0x0, 0x0, 0xFFFFFFFF, 0x10000⟩,
  ⟨2, 0x2014, 16, 0x40, 1, 0x0, 0x0, 0x0, 0x0, 0x0, 0xFFFFFFFF, 0x0⟩,
  ⟨2, 0x2018, 16, 0x40, 1, 0x0, 0x0, 0x0, 0x0, 0x0, 0xFFFFFFFF, 0x0⟩,
  ⟨2, 0x201C, 16, 0x40, 1, 0x0, 0x0, 0x0, 0x0, 0x0, 0xFFFFFFFF, 0x1000⟩,
  ⟨2, 0x2020, 16, 0x40, 1, 0x0, 0x0, 0x0, 0x0, 0x0, 0xFFFFFFFF, 0x1000000⟩]

/-- The registers of block 0x13. -/
def regRows13 : List RegRow := [
  ⟨2, 0x0, 1, 0x0, 1, 0x0, 0xFFFF, 0x0, 0x0, 0x0, 0x0, 0x0⟩,
  ⟨2, 0x4, 1, 0x0, 1, 0x0, 0x7FFFFF, 0x0, 0x0, 0x0, 0x0, 0x0⟩,
  ⟨2, 0x100, 8, 0x8, 1, 0x0, 0xFFFFFFFF, 0x0, 0x0, 0x0, 0x0, 0x0⟩,
  ⟨2, 0x104, 8, 0x8, 1, 0x0, 0xFFFF, 0x0, 0x0, 0x0, 0x0, 0x0⟩,
  ⟨2, 0x200, 1, 0x0, 1, 0x0, 0xFFFFFFFF, 0x0, 0x0, 0x0, 0x0, 0x0⟩,
  ⟨2, 0x204, 1, 0x0, 1, 0x0, 0xFFFFFFFF, 0x0, 0x0, 0x0, 0x0, 0x0⟩,
  ⟨2, 0x208, 1, 0x0, 1, 0x0, 0xFFFFFFFF, 0x0, 0x0, 0x0, 0x0, 0x0⟩,
  ⟨2, 0x20C, 1, 0x0, 1, 0x0, 0xFFFFFFFF, 0x0, 0x0, 0x0, 0x0, 0x0⟩,
  ⟨2, 0x210, 1, 0x0, 1, 0x0, 0x0, 0x0, 0x0, 0x1, 0x0, 0x0⟩]

/-- The registers of block 0x14. -/
def regRows14 : List RegRow := [
  ⟨1, 0x0, 1, 0x0, 1, 0x0, 0x0, 0x3, 0x0, 0x10, 0x0, 0x0⟩,
  ⟨1, 0x4, 1, 0x0, 1, 0x0, 0x3FF01, 0x0, 0x6, 0x0, 0x0, 0x0⟩,
  ⟨1, 0x8, 1, 0x0, 1, 0x0, 0x0, 0xFFFF, 0x0, 0x0, 0x0, 0x0⟩,
  ⟨1, 0xC, 1, 0x0, 1, 0x0, 0x0, 0xFFFF, 0x0, 0x0, 0x0, 0x0⟩,
  ⟨1, 0x10, 1, 0x0, 1, 0x0, 0x0, 0x3FFF3FFF, 0x0, 0x0, 0x0, 0x0⟩,
  ⟨1, 0x14, 1, 0x0, 1, 0x0, 0x0, 0x3FFF3FFF, 0x0, 0x0, 0x0, 0x0⟩,
  ⟨1, 0x18, 1, 0x0, 1, 0x0, 0x0, 0x7FFF7FFF, 0x0, 0x0, 0x0, 0x10001⟩,
  ⟨1, 0x1C, 1, 0x0, 1, 0x0, 0x0, 0xFFFFFFFF, 0x0, 0x0, 0x0, 0x0⟩,
  ⟨1, 0x20, 1, 0x0, 1, 0x0, 0x0, 0xFFFFFFFF, 0x0, 0x0, 0x0, 0x0⟩,
  ⟨1, 0x24, 1, 0x0, 1, 0x0, 0x0, 0xFFFFFFFF, 0x0, 0x0, 0x0, 0x0⟩,
  ⟨1, 0x28, 1, 0x0, 1, 0x0, 0xFFFFFFFF, 0x0, 0x0, 0x0, 0x0, 0x0⟩,
  ⟨1, 0x2C, 1, 0x0, 1, 0x0, 0xFFFFFFFF, 0x0, 0x0, 0x0, 0x0, 0x0⟩,
  ⟨1, 0x30, 1, 0x0, 1, 0x0, 0xFFFFFFFF, 0x0, 0x0, 0x0, 0x0, 0x0⟩,
  ⟨1, 0x1008, 1023, 0x8, 1, 0x0, 0xFFFFFFFF, 0x0, 0x0, 0x0, 0x0, 0x0⟩,
  ⟨1, 0x100C, 1023, 0x8, 1, 0x0, 0x3FFFFF, 0x0, 0x0, 0x0, 0x0, 0x0⟩]

/-- The registers of block 0x15. -/
def regRows15 : List RegRow := [
  ⟨4, 0x0, 4, 0x4, 1, 0x0, 0x303, 0x0, 0x0, 0x0, 0x0, 0x0⟩,
  ⟨4, 0x100, 1, 0x0, 1, 0x0, 0x0, 0x0, 0x0, 0x0, 0xF, 0x7⟩,
  ⟨4, 0x104, 1, 0x0, 1, 0x0, 0x0, 0x0, 0x0, 0x0, 0x7FFF, 0x4000⟩,
  ⟨4, 0x108, 1, 0x0, 1, 0x0, 0x0, 0x0, 0x0, 0x0, 0x3FFFFF, 0x4000⟩,
  ⟨4, 0x10C, 1, 0x0, 1, 0x0, 0x0, 0x0, 0x0, 0x0, 0xFF, 0x40⟩,
  ⟨4, 0x110, 1, 0x0, 1, 0x0, 0x0, 0x0, 0x0, 0x0, 0xFFF, 0x737⟩,
  ⟨4, 0x114, 1, 0x0, 1, 0x0, 0xFFFFFFFF, 0x0, 0x0, 0x0, 0x0, 0x0⟩,
  ⟨4, 0x118, 1, 0x0, 1, 0x0, 0xFFFFFF, 0x0, 0x0, 0x0, 0x0, 0x0⟩,
  ⟨4, 0x200, 1, 0x0, 1, 0x0, 0xFFFFFFFF, 0x0, 0x0, 0x0, 0x0, 0x0⟩,
  ⟨4, 0x204, 1, 0x0, 1, 0x0, 0xFFFF, 0x0, 0x0, 0x0, 0x0, 0x0⟩,
  ⟨4, 0x208, 1, 0x0, 1, 0x0, 0xFFFFFF, 0x0, 0x0, 0x0, 0x0, 0x0⟩,
  ⟨4, 0x20C, 1, 0x0, 1, 0x0, 0xFFFFFFFF, 0x0, 0x0, 0x0, 0x0, 0x0⟩,
  ⟨4, 0x210, 1, 0x0, 1, 0x0, 0xFFFF, 0x0, 0x0, 0x0, 0x0, 0x0⟩,
  ⟨4, 0x300, 1, 0x0, 1, 0x0, 0x0, 0xFF, 0x0, 0x0, 0x0, 0x0⟩,
  ⟨4, 0x304, 1, 0x0, 1, 0x0, 0x0, 0xFFFFFFFF, 0x0, 0x0, 0x0, 0x0⟩,
  ⟨4, 0x308, 1, 0x0, 1, 0x0, 0x73, 0x0, 0x0, 0x0, 0x0, 0x0⟩,
  ⟨4, 0x30C, 1, 0x0, 1, 0x0, 0xFFFFFFFF, 0x0, 0x0, 0x0, 0x0, 0x0⟩,
  ⟨4, 0x400, 1, 0x0, 1, 0x0, 0xFFFFFFFF, 0x0, 0x0, 0x0, 0x0, 0x0⟩,
  ⟨4, 0x404, 1, 0x0, 1, 0x0, 0xFFFFFFFF, 0x0, 0x0, 0x0, 0x0, 0x0⟩,
  ⟨4, 0x408, 1, 0x0, 1, 0x0, 0xFFFFFFFF, 0x0, 0x0, 0x0, 0x0, 0x0⟩,
  ⟨4, 0x40C, 1, 0x0, 1, 0x0, 0xFFFFFFFF, 0x0, 0x0, 0x0, 0x0, 0x0⟩,
  ⟨4, 0x410, 1, 0x0, 1, 0x0, 0xFFFFFFFF, 0x0, 0x0, 0x0, 0x0, 0x0⟩,
  ⟨4, 0x414, 1, 0x0, 1, 0x0, 0xFFFFFFFF, 0x0, 0x0, 0x0, 0x0, 0x0⟩,
  ⟨4, 0x418, 1, 0x0, 1, 0x0, 0xFFFFFFFF, 0x0, 0x0, 0x0, 0x0, 0x0⟩,
  ⟨4, 0x41C, 1, 0x0, 1, 0x0, 0xFFFF, 0x0, 0x0, 0x0, 0x0, 0x0⟩,
  ⟨4, 0x420, 1, 0x0, 1, 0x0, 0x0, 0x0, 0x0, 0x1, 0x0, 0x0⟩,
  ⟨4, 0x500, 4, 0x4, 1, 0x0, 0xFFFFFFFF, 0x0, 0x0, 0x0, 0x0, 0x0⟩,
  ⟨4, 0x510, 1, 0x0, 1, 0x0, 0xFFFFFFFF, 0x0, 0x0, 0x0, 0x0, 0x0⟩,
  ⟨4, 0x514, 1, 0x0, 1, 0x0, 0xFFFF, 0x0, 0x0, 0x0, 0x0, 0x0⟩]

/-- The registers of block 0x20. -/
def regRows20 : List RegRow := [
  ⟨4, 0x0, 1, 0x0, 1, 0x0, 0x77F, 0x0, 0x80, 0x0, 0x0, 0x0⟩,
  ⟨4, 0x4, 1, 0x0, 1, 0x0, 0xFFFFFFFF, 0x0, 0x0, 0x0, 0x0, 0x0⟩,
  ⟨4, 0x8, 1, 0x0, 1, 0x0, 0x7FFF000F, 0x0, 0x0, 0x0, 0x0, 0x10020004⟩,
  ⟨4, 0xC, 1, 0x0, 1, 0x0, 0x0, 0x0, 0x0, 0x0, 0xFFF, 0x7D0⟩,
  ⟨4, 0x10, 1, 0x0, 1, 0x0, 0x0, 0x0, 0x0, 0x0, 0xFF01, 0xFF01⟩,
  ⟨4, 0x14, 1, 0x0, 1, 0x0, 0x0, 0x0, 0x0, 0x0, 0xFFFFFFFF, 0x0⟩,
  ⟨4, 0x18, 1, 0x0, 1, 0x0, 0x0, 0xFFFF, 0x0, 0x0, 0x0, 0x1900⟩,
  ⟨4, 0x20, 1, 0x0, 1, 0x0, 0x7FFFFF, 0x0, 0x0, 0x0, 0x0, 0x0⟩,
  ⟨4, 0x24, 1, 0x0, 1, 0x0, 0xFFFF, 0x0, 0x0, 0x0, 0x0, 0x0⟩,
  ⟨4, 0x100, 1, 0x0, 1, 0x0, 0xFFFFFFFF, 0x0, 0x0, 0x0, 0x0, 0x0⟩,
  ⟨4, 0x104, 1, 0x0, 1, 0x0, 0xFFFFFFFF, 0x0, 0x0, 0x0, 0x0, 0x0⟩,
  ⟨4, 0x108, 1, 0x0, 1, 0x0, 0xFFFFFFFF, 0x0, 0x0, 0x0, 0x0, 0x0⟩,
  ⟨4, 0x10C, 1, 0x0, 1, 0x0, 0xFFFFFFFF, 0x0, 0x0, 0x0, 0x0, 0x0⟩,
  ⟨4, 0x110, 1, 0x0, 1, 0x0, 0xFFFFFFFF, 0x0, 0x0, 0x0, 0x0, 0x0⟩,
  ⟨4, 0x114, 1, 0x0, 1, 0x0, 0xFFFFFFFF, 0x0, 0x0, 0x0, 0x0, 0x0⟩,
  ⟨4, 0x118, 1, 0x0, 1, 0x0, 0xFFFFFFFF, 0x0, 0x0, 0x0, 0x0, 0x0⟩,
  ⟨4, 0x11C, 1, 0x0, 1, 0x0, 0x3FFF, 0x0, 0x0, 0x0, 0x0, 0x0⟩,
  ⟨4, 0x120, 1, 0x0, 1, 0x0, 0xFFFFFFFF, 0x0, 0x0, 0x0, 0x0, 0x0⟩,
  ⟨4, 0x124, 1, 0x0, 1, 0x0, 0xFFFF, 0x0, 0x0, 0x0, 0x0, 0x0⟩,
  ⟨4, 0x128, 1, 0x0, 1, 0x0, 0x0, 0x0, 0x0, 0x1, 0x0, 0x0⟩]

/-- The registers of block 0x21. -/
def regRows21 : List RegRow := [
  ⟨4, 0x0, 2, 0x4, 1, 0x0, 0x303, 0x0, 0x0, 0x0, 0x0, 0x0⟩,
  ⟨4, 0x100, 1, 0x0, 1, 0x0, 0x0, 0x1FFF, 0x0, 0x0, 0x0, 0xFA0⟩,
  ⟨4, 0x104, 1, 0x0, 1, 0x0, 0x0, 0x7FF, 0x0, 0x0, 0x0, 0x190⟩,
  ⟨4, 0x108, 1, 0x0, 1, 0x0, 0xFFFF, 0x0, 0x0, 0x0, 0x0, 0x0⟩,
  ⟨4, 0x10C, 1, 0x0, 1, 0x0, 0x0, 0x0, 0x0, 0x0, 0x1, 0x1⟩,
  ⟨4, 0x200, 1, 0x0, 1, 0x0, 0x3FF, 0x0, 0x0, 0x0, 0x0, 0x0⟩,
  ⟨4, 0x204, 1, 0x0, 1, 0x0, 0xFFFF, 0x0, 0x0, 0x0, 0x0, 0x0⟩,
  ⟨4, 0x300, 2, 0x4, 1, 0x0, 0xFFFFFFFF, 0x0, 0x0, 0x0, 0x0, 0x0⟩,
  ⟨4, 0x310, 1, 0x0, 1, 0x0, 0xFFFFFFFF, 0x0, 0x0, 0x0, 0x0, 0x0⟩,
  ⟨4, 0x314, 1, 0x0, 1, 0x0, 0xFFFFFFFF, 0x0, 0x0, 0x0, 0x0, 0x0⟩,
  ⟨4, 0x318, 1, 0x0, 1, 0x0, 0x0, 0x0, 0x0, 0x1, 0x0, 0x0⟩]

/-- The registers of block 0x22. -/
def regRows22 : List RegRow := [
  ⟨4, 0x0, 1, 0x0, 1, 0x0, 0xF, 0x0, 0x0, 0x0, 0x0, 0x0⟩,
  ⟨4, 0x4, 1, 0x0, 1, 0x0, 0xFFFFFFFF, 0x0, 0x0, 0x0, 0x0, 0x0⟩,
  ⟨4, 0x8, 1, 0x0, 1, 0x0, 0xFFFFFFFF, 0x0, 0x0, 0x0, 0x0, 0x0⟩,
  ⟨4, 0x10, 4, 0x4, 1, 0x0, 0x0, 0x0, 0xFFFFFFFF, 0x0, 0x0, 0x0⟩,
  ⟨4, 0x20, 3, 0x4, 1, 0x0, 0xFFFFFFFF, 0x0, 0x0, 0x0, 0x0, 0x2000000⟩,
  ⟨4, 0x100, 128, 0x4, 1, 0x0, 0x0, 0xFF3F, 0x0, 0x0, 0x0, 0xFF06⟩,
  ⟨4, 0x300, 128, 0x4, 1, 0x0, 0xFFFFFFFF, 0x0, 0x0, 0x0, 0x0, 0x0⟩,
  ⟨4, 0x500, 128, 0x4, 1, 0x0, 0xFFFF, 0x0, 0x0, 0x0, 0x0, 0x0⟩,
  ⟨4, 0x700, 128, 0x4, 1, 0x0, 0x0, 0xFFFF, 0x0, 0x0, 0x0, 0x0⟩,
  ⟨4, 0xA00, 1, 0x0, 1, 0x0, 0xFFFFFFFF, 0x0, 0x0, 0x0, 0x0, 0x0⟩,
  ⟨4, 0xA04, 1, 0x0, 1, 0x0, 0xFFFFFFFF, 0x0, 0x0, 0x0, 0x0, 0x0⟩,
  ⟨4, 0xA08, 1, 0x0, 1, 0x0, 0xFFFFFFFF, 0x0, 0x0, 0x0, 0x0, 0x0⟩,
  ⟨4, 0xA0C, 1, 0x0, 1, 0x0, 0xFFFFFFFF, 0x0, 0x0, 0x0, 0x0, 0x0⟩,
  ⟨4, 0xA10, 1, 0x0, 1, 0x0, 0xFFFFFFFF, 0x0, 0x0, 0x0, 0x0, 0x0⟩,
  ⟨4, 0xA14, 1, 0x0, 1, 0x0, 0xFFFF, 0x0, 0x0, 0x0, 0x0, 0x0⟩,
  ⟨4, 0xA18, 1, 0x0, 1, 0x0, 0xFF, 0x0, 0x0, 0x0, 0x0, 0x0⟩,
  ⟨4, 0xA1C, 1, 0x0, 1, 0x0, 0x0, 0x0, 0x0, 0x1, 0x0, 0x0⟩]

/-- The registers of block 0x23. -/
def regRows23 : List RegRow := [
  ⟨4, 0x0, 1, 0x0, 1, 0x0, 0xFFFFFFFF, 0x0, 0x0, 0x0, 0x0, 0x0⟩,
  ⟨4, 0x4, 1, 0x0, 1, 0x0, 0xFFFF, 0x0, 0x0, 0x0, 0x0, 0x0⟩,
  ⟨4, 0x8, 1, 0x0, 1, 0x0, 0xFFFFFF, 0x0, 0x0, 0x0, 0x0, 0x0⟩,
  ⟨4, 0xC, 1, 0x0, 1, 0x0, 0xFFFFFF, 0x0, 0x0, 0x0, 0x0, 0x0⟩,
  ⟨4, 0x10, 1, 0x0, 1, 0x0, 0xFFFFFFFF, 0x0, 0x0, 0x0, 0x0, 0x0⟩,
  ⟨4, 0x100, 8, 0x4, 1, 0x0, 0x11FFFFF, 0x0, 0x0, 0x0, 0x0, 0x11F0000⟩,
  ⟨4, 0x140, 16, 0x8, 1, 0x0, 0x0, 0xFFFFFFFF, 0x0, 0x0, 0x0, 0x40000000⟩,
  ⟨4, 0x144, 16, 0x8, 1, 0x0, 0xFFFFFFFF, 0x0, 0x0, 0x0, 0x0, 0x0⟩,
  ⟨4, 0x200, 24, 0x40, 1, 0x0, 0x0, 0xFFFFFFF, 0x0, 0x0, 0x0, 0xFF3F080⟩,
  ⟨4, 0x204, 24, 0x40, 1, 0x0, 0x0, 0xFFFFFFFF, 0x0, 0x0, 0x0, 0x7FFF0000⟩,
  ⟨4, 0x208, 24, 0x40, 1, 0x0, 0x0, 0xFFFFFFFF, 0x0, 0x0, 0x0, 0x7FFF0000⟩,
  ⟨4, 0x20C, 24, 0x40, 1, 0x0, 0x0, 0xFFFF, 0x0, 0x0, 0x0, 0x0⟩,
  ⟨4, 0x210, 24, 0x40, 1, 0x0, 0x0, 0xFFFF, 0x0, 0x0, 0x0, 0x0⟩,
  ⟨4, 0x214, 24, 0x40, 1, 0x0, 0xFFFF, 0x0, 0x0, 0x0, 0x0, 0x0⟩,
  ⟨4, 0x218, 24, 0x40, 1, 0x0, 0xFFFF, 0x0, 0x0, 0x0, 0x0, 0x0⟩,
  ⟨4, 0x21C, 24, 0x40, 1, 0x0, 0xFFFFFFFF, 0x0, 0x0, 0x0, 0x0, 0x0⟩,
  ⟨4, 0x220, 24, 0x40, 1, 0x0, 0x0, 0xFFFFFFFF, 0x0, 0x0, 0x0, 0x0⟩,
  ⟨4, 0x224, 24, 0x40, 1, 0x0, 0x0, 0xFFFFFFFF, 0x0, 0x0, 0x0, 0x40000000⟩,
  ⟨4, 0x228, 24, 0x40, 1, 0x0, 0x0, 0xFFFFFFFF, 0x0, 0x0, 0x0, 0x0⟩,
  ⟨4, 0x22C, 24, 0x40, 1, 0x0, 0x0, 0xFFFFFFFF, 0x0, 0x0, 0x0, 0x0⟩,
  ⟨4, 0x230, 24, 0x40, 1, 0x0, 0x0, 0xFFFFFFFF, 0x0, 0x0, 0x0, 0x0⟩,
  ⟨4, 0x234, 24, 0x40, 1, 0x0, 0x0, 0xFFFFFFFF, 0x0, 0x0, 0x0, 0x40000000⟩,
  ⟨4, 0x238, 24, 0x40, 1, 0x0, 0x0, 0xFFFFFFFF, 0x0, 0x0, 0x0, 0x0⟩,
  ⟨4, 0x23C, 24, 0x40, 1, 0x0, 0x0, 0xFFFFFFFF, 0x0, 0x0, 0x0, 0x0⟩,
  ⟨4, 0x800, 1, 0x0, 1, 0x0, 0xFFFFFFFF, 0x0, 0x0, 0x0, 0x0, 0x0⟩,
  ⟨4, 0x804, 1, 0x0, 1, 0x0, 0xFFFFFFFF, 0x0, 0x0, 0x0, 0x0, 0x0⟩,
  ⟨4, 0x808, 1, 0x0, 1, 0x0, 0xFFFFFFFF, 0x0, 0x0, 0x0, 0x0, 0x0⟩,
  ⟨4, 0x80C, 1, 0x0, 1, 0x0, 0xFFFFFFFF, 0x0, 0x0, 0x0, 0x0, 0x0⟩,
  ⟨4, 0x810, 1, 0x0, 1, 0x0, 0x0, 0x0, 0x0, 0x1, 0x0, 0x0⟩]

/-- The registers of block 0x30. -/
def regRows30 : List RegRow := [
  ⟨4, 0x0, 4, 0x100, 1, 0x0, 0xF77F7, 0x0, 0x0, 0x0, 0x0, 0x0⟩,
  ⟨4, 0x4, 4, 0x100, 1, 0x0, 0x1F77FFF, 0x0, 0x0, 0x0, 0x0, 0x43210⟩,
  ⟨4, 0x8, 4, 0x100, 1, 0x0, 0xFFFFFFFF, 0x0, 0x0, 0x0, 0x0, 0x0⟩,
  ⟨4, 0xC, 4, 0x100, 1, 0x0, 0xFFFFFF, 0x0, 0x0, 0x0, 0x0, 0x0⟩,
  ⟨4, 0x10, 4, 0x100, 1, 0x0, 0xFFFF, 0x0, 0x0, 0x0, 0x0, 0x0⟩,
  ⟨4, 0x14, 4, 0x100, 1, 0x0, 0x7FF, 0x0, 0x0, 0x0, 0x0, 0x0⟩,
  ⟨4, 0x20, 4, 0x100, 5, 0x4, 0x1FFFFF, 0x0, 0x0, 0x0, 0x0, 0x0⟩,
  ⟨4, 0x40, 4, 0x100, 5, 0x4, 0x0, 0x1FFFFF, 0x0, 0x0, 0x0, 0x83002⟩,
  ⟨4, 0x80, 4, 0x100, 1, 0x0, 0xFFFFFFFF, 0x0, 0x0, 0x0, 0x0, 0x0⟩,
  ⟨4, 0x84, 4, 0x100, 1, 0x0, 0xFFFFFFFF, 0x0, 0x0, 0x0, 0x0, 0x0⟩,
  ⟨4, 0x88, 4, 0x100, 1, 0x0, 0xFFFFFFFF, 0x0, 0x0, 0x0, 0x0, 0x0⟩,
  ⟨4, 0x8C, 4, 0x100, 1, 0x0, 0xFFFFFFFF, 0x0, 0x0, 0x0, 0x0, 0x0⟩,
  ⟨4, 0x90, 4, 0x100, 1, 0x0, 0xFFFFFFFF, 0x0, 0x0, 0x0, 0x0, 0x0⟩,
  ⟨4, 0x400, 1, 0x0, 1, 0x0, 0x0, 0x0, 0x0, 0x1, 0x0, 0x0⟩,
  ⟨1, 0x0, 17, 0x4, 1, 0x0, 0x7, 0x0, 0x0, 0x0, 0x0, 0x0⟩,
  ⟨1, 0x100, 17, 0x4, 1, 0x0, 0xFFFFFFFF, 0x0, 0x0, 0x0, 0x0, 0x0⟩,
  ⟨1, 0x200, 1, 0x0, 1, 0x0, 0x0, 0x0, 0x0, 0x1, 0x0, 0x0⟩]

/-- The registers of block 0x31. -/
def regRows31 : List RegRow := [
  ⟨1, 0x0, 17, 0x4, 1, 0x0, 0x7, 0x0, 0x0, 0x0, 0x0, 0x0⟩,
  ⟨1, 0x100, 17, 0x4, 1, 0x0, 0xFFFFFFFF, 0x0, 0x0, 0x0, 0x0, 0x0⟩,
  ⟨1, 0x200, 17, 0x4, 1, 0x0, 0xFFFFFFFF, 0x0, 0x0, 0x0, 0x0, 0x0⟩,
  ⟨1, 0x300, 17, 0x4, 1, 0x0, 0xFFFFFFFF, 0x0, 0x0, 0x0, 0x0, 0x0⟩,
  ⟨1, 0x400, 17, 0x4, 1, 0x0, 0xFFFFFFFF, 0x0, 0x0, 0x0, 0x0, 0x0⟩,
  ⟨1, 0x500, 8, 0x4, 1, 0x0, 0xFF0003, 0x0, 0x0, 0x0, 0x0, 0xA0000⟩,
  ⟨1, 0x600, 8, 0x4, 1, 0x0, 0xFFFFFFFF, 0x0, 0x0, 0x0, 0x0, 0x0⟩,
  ⟨1, 0x700, 8, 0x4, 1, 0x0, 0xFFFFFFFF, 0x0, 0x0, 0x0, 0x0, 0x0⟩,
  ⟨1, 0x800, 1, 0x0, 1, 0x0, 0x0, 0x0, 0x0, 0x1, 0x0, 0x0⟩]

/-- The registers of block 0x32. -/
def regRows32 : List RegRow := [
  ⟨1, 0x0, 4, 0x20, 1, 0x0, 0xFFFFFFFF, 0x0, 0x0, 0x0, 0x0, 0x0⟩,
  ⟨1, 0x4, 4, 0x20, 1, 0x0, 0xFFFF, 0x0, 0x0, 0x0, 0x0, 0x0⟩,
  ⟨1, 0x8, 4, 0x20, 1, 0x0, 0x3FFFFFFF, 0x0, 0x0, 0x0, 0x0, 0x0⟩,
  ⟨1, 0xC, 4, 0x20, 1, 0x0, 0xFFFF0000, 0x0, 0x0, 0x0, 0x0, 0x0⟩,
  ⟨1, 0x10, 4, 0x20, 1, 0x0, 0x0, 0xFFFFFFFF, 0x0, 0x0, 0x0, 0x66666666⟩,
  ⟨1, 0x14, 4, 0x20, 1, 0x0, 0x0, 0xFF, 0x0, 0x0, 0x0, 0x6⟩,
  ⟨1, 0x18, 4, 0x20, 1, 0x0, 0x0, 0xFFFFFFFF, 0x0, 0x0, 0x0, 0x0⟩,
  ⟨1, 0x1C, 4, 0x20, 1, 0x0, 0x0, 0xFFFF, 0x0, 0x80000000, 0x0, 0x0⟩,
  ⟨1, 0x100, 1, 0x0, 1, 0x0, 0xF, 0x0, 0x0, 0x0, 0x0, 0x0⟩,
  ⟨1, 0x104, 1, 0x0, 1, 0x0, 0xFFFFFFFF, 0x0, 0x0, 0x0, 0x0, 0x0⟩,
  ⟨1, 0x108, 1, 0x0, 1, 0x0, 0xFFFFFFFF, 0x0, 0x0, 0x0, 0x0, 0x0⟩,
  ⟨1, 0x110, 4, 0x4, 1, 0x0, 0xFFFFFFFF, 0x0, 0x0, 0x0, 0x0, 0x0⟩,
  ⟨1, 0x120, 1, 0x0, 1, 0x0, 0xFFFFFFFF, 0x0, 0x0, 0x0, 0x0, 0x0⟩,
  ⟨1, 0x200, 8, 0x20, 1, 0x0, 0xF, 0x0, 0x30, 0x0, 0x0, 0x0⟩,
  ⟨1, 0x204, 8, 0x20, 1, 0x0, 0xFFFFFFFF, 0x0, 0x0, 0x0, 0x0, 0x0⟩,
  ⟨1, 0x208, 8, 0x20, 1, 0x0, 0xFFFFFFFF, 0x0, 0x0, 0x0, 0x0, 0x0⟩,
  ⟨1, 0x400, 5, 0x10, 1, 0x0, 0x7F3, 0x0, 0x0, 0x0, 0x0, 0x0⟩,
  ⟨1, 0x404, 5, 0x10, 1, 0x0, 0xFFFFFFFF, 0x0, 0x0, 0x0, 0x0, 0x0⟩,
  ⟨1, 0x408, 5, 0x10, 1, 0x0, 0xFFFFFFFF, 0x0, 0x0, 0x0, 0x0, 0x0⟩,
  ⟨1, 0x500, 1, 0x0, 1, 0x0, 0x0, 0x0, 0x0, 0x1, 0x0, 0x0⟩]

/-- The registers of block 0x33. -/
def regRows33 : List RegRow := [
  ⟨2, 0x0, 4, 0x100, 1, 0x0, 0xFF3F, 0x0, 0x0, 0x0, 0x0, 0x0⟩,
  ⟨2, 0x4, 4, 0x100, 1, 0x0, 0xFFFFFFFF, 0x0, 0x0, 0x0, 0x0, 0x0⟩,
  ⟨2, 0x8, 4, 0x100, 1, 0x0, 0xFFFFFFFF, 0x0, 0x0, 0x0, 0x0, 0x0⟩,
  ⟨2, 0xC, 4, 0x100, 1, 0x0, 0xFFFFFFFF, 0x0, 0x0, 0x0, 0x0, 0x0⟩,
  ⟨2, 0x10, 4, 0x100, 1, 0x0, 0x3, 0x0, 0x0, 0x0, 0x0, 0x0⟩,
  ⟨2, 0x14, 4, 0x100, 1, 0x0, 0x3FF, 0x0, 0x0, 0x0, 0x0, 0x0⟩,
  ⟨2, 0x18, 4, 0x100, 1, 0x0, 0xFFFFFFFF, 0x0, 0x0, 0x0, 0x0, 0x0⟩,
  ⟨2, 0x1C, 4, 0x100, 1, 0x0, 0x7FFF, 0x0, 0x0, 0x0, 0x0, 0x0⟩,
  ⟨2, 0x20, 4, 0x100, 1, 0x0, 0x3FF03FF, 0x0, 0x0, 0x0, 0x0, 0x0⟩,
  ⟨2, 0x24, 4, 0x100, 1, 0x0, 0xFFFFFFFF, 0x0, 0x0, 0x0, 0x0, 0x0⟩,
  ⟨2, 0x28, 4, 0x100, 1, 0x0, 0xFFFFFFFF, 0x0, 0x0, 0x0, 0x0, 0x0⟩,
  ⟨2, 0x40, 4, 0x100, 2, 0x20, 0x0, 0x1F1F3FFF, 0x0, 0x0, 0x0, 0x0⟩,
  ⟨2, 0x44, 4, 0x100, 2, 0x20, 0x0, 0xFFFFFFFF, 0x0, 0x0, 0x0, 0x0⟩,
  ⟨2, 0x48, 4, 0x100, 2, 0x20, 0x0, 0xFFFFFFFF, 0x0, 0x0, 0x0, 0x0⟩,
  ⟨2, 0x4C, 4, 0x100, 2, 0x20, 0x0, 0xFFFFFFFF, 0x0, 0x0, 0x0, 0x0⟩,
  ⟨2, 0x50, 4, 0x100, 2, 0x20, 0x0, 0xFFFFFFFF, 0x0, 0x0, 0x0, 0x0⟩,
  ⟨2, 0x400, 1, 0x0, 1, 0x0, 0x0, 0x37FFF, 0x0, 0x0, 0x0, 0x20800⟩,
  ⟨2, 0x404, 1, 0x0, 1, 0x0, 0x0, 0xFF, 0x0, 0x0, 0x0, 0x10⟩,
  ⟨2, 0x408, 1, 0x0, 1, 0x0, 0x1F, 0x0, 0x0, 0x0, 0x0, 0x0⟩,
  ⟨2, 0x40C, 1, 0x0, 1, 0x0, 0xFFFFFFFF, 0x0, 0x0, 0x0, 0x0, 0x0⟩,
  ⟨2, 0x410, 1, 0x0, 1, 0x0, 0x0, 0x0, 0x0, 0x1, 0x0, 0x0⟩]

/-- The registers of block 0x34. -/
def regRows34 : List RegRow := [
  ⟨7, 0x0, 1, 0x0, 1, 0x0, 0x7F, 0x0, 0x0, 0x0, 0x0, 0x0⟩,
  ⟨7, 0x4, 1, 0x0, 1, 0x0, 0x0, 0xFFFF01FF, 0x0, 0x0, 0x0, 0x4000032⟩,
  ⟨7, 0x8, 1, 0x0, 1, 0x0, 0x0, 0xFFFF, 0x0, 0x0, 0x0, 0x0⟩,
  ⟨1, 0x10, 3, 0x4, 1, 0x0, 0x0, 0x3F01, 0x0, 0x0, 0x0, 0x1⟩,
  ⟨6, 0x10, 2, 0x4, 1, 0x0, 0x0, 0x3F01, 0x0, 0x0, 0x0, 0x1⟩,
  ⟨7, 0x100, 1, 0x0, 1, 0x0, 0xFFFFFFFF, 0x0, 0x0, 0x0, 0x0, 0x0⟩,
  ⟨7, 0x104, 1, 0x0, 1, 0x0, 0xFFFFFFFF, 0x0, 0x0, 0x0, 0x0, 0x0⟩,
  ⟨7, 0x108, 1, 0x0, 1, 0x0, 0xFFFFFFFF, 0x0, 0x0, 0x0, 0x0, 0x0⟩,
  ⟨7, 0x10C, 1, 0x0, 1, 0x0, 0xFFFFFFFF, 0x0, 0x0, 0x0, 0x0, 0x0⟩,
  ⟨7, 0x110, 1, 0x0, 1, 0x0, 0x0, 0x0, 0x0, 0x1, 0x0, 0x0⟩,
  ⟨4, 0x200, 1, 0x0, 1, 0x0, 0x3, 0x0, 0x0, 0x0, 0x0, 0x0⟩,
  ⟨4, 0x204, 1, 0x0, 1, 0x0, 0xFFFFFFFF, 0x0, 0x0, 0x0, 0x0, 0x0⟩,
  ⟨4, 0x208, 1, 0x0, 1, 0x0, 0xFFFFFFFF, 0x0, 0x0, 0x0, 0x0, 0x0⟩,
  ⟨4, 0x20C, 1, 0x0, 1, 0x0, 0xFFFFFFFF, 0x0, 0x0, 0x0, 0x0, 0x0⟩,
  ⟨4, 0x210, 1, 0x0, 1, 0x0, 0xFFFFFFFF, 0x0, 0x0, 0x0, 0x0, 0x0⟩]

/-- The registers of block 0x40. -/
def regRows40 : List RegRow := [
  ⟨1, 0x0, 2, 0x100, 1, 0x0, 0x7, 0x0, 0x0, 0x0, 0x0, 0x0⟩,
  ⟨1, 0x4, 2, 0x100, 1, 0x0, 0xFFFFFFFF, 0x0, 0x0, 0x0, 0x0, 0x0⟩,
  ⟨1, 0x8, 2, 0x100, 1, 0x0, 0xFFFFFFFF, 0x0, 0x0, 0x0, 0x0, 0x0⟩,
  ⟨1, 0xC, 2, 0x100, 1, 0x0, 0xFFFF, 0x0, 0x0, 0x0, 0x0, 0x0⟩,
  ⟨1, 0x10, 2, 0x100, 1, 0x0, 0xFFFFFFFF, 0x0, 0x0, 0x0, 0x0, 0x0⟩,
  ⟨1, 0x14, 2, 0x100, 1, 0x0, 0xFFFFFFFF, 0x0, 0x0, 0x0, 0x0, 0x0⟩,
  ⟨1, 0x18, 2, 0x100, 1, 0x0, 0xFFFFFFFF, 0x0, 0x0, 0x0, 0x0, 0x0⟩,
  ⟨1, 0x1C, 2, 0x100, 1, 0x0, 0xFFFFFFFF, 0x0, 0x0, 0x0, 0x0, 0x0⟩,
  ⟨1, 0x20, 2, 0x100, 1, 0x0, 0xFFFFFFFF, 0x0, 0x0, 0x0, 0x0, 0x0⟩,
  ⟨1, 0x24, 2, 0x100, 1, 0x0, 0xFFFFFFFF, 0x0, 0x0, 0x0, 0x0, 0x0⟩,
  ⟨1, 0x28, 2, 0x100, 1, 0x0, 0xFFFFFFFF, 0x0, 0x0, 0x0, 0x0, 0x0⟩,
  ⟨1, 0x200, 1, 0x0, 1, 0x0, 0x0, 0x3, 0x0, 0x0, 0x0, 0x0⟩,
  ⟨1, 0x204, 1, 0x0, 1, 0x0, 0x0, 0x0, 0x0, 0x1, 0x0, 0x0⟩]

/-- The registers of block 0x41. -/
def regRows41 : List RegRow := [
  ⟨1, 0x0, 1, 0x0, 1, 0x0, 0x7F, 0x0, 0x0, 0x0, 0x0, 0x0⟩,
  ⟨1, 0x4, 1, 0x0, 1, 0x0, 0x0, 0xFFFF, 0x0, 0x0, 0x0, 0xE000⟩,
  ⟨1, 0x8, 1, 0x0, 1, 0x0, 0xFFFFFFFF, 0x0, 0x0, 0x0, 0x0, 0x0⟩,
  ⟨1, 0xC, 1, 0x0, 1, 0x0, 0xFFFFFFFF, 0x0, 0x0, 0x0, 0x0, 0x0⟩,
  ⟨1, 0x10, 1, 0x0, 1, 0x0, 0xFFFFFFFF, 0x0, 0x0, 0x0, 0x0, 0x0⟩,
  ⟨1, 0x14, 1, 0x0, 1, 0x0, 0xFFFFFFFF, 0x0, 0x0, 0x0, 0x0, 0x0⟩,
  ⟨1, 0x18, 1, 0x0, 1, 0x0, 0xFFFFFFFF, 0x0, 0x0, 0x0, 0x0, 0x0⟩,
  ⟨1, 0x1C, 1, 0x0, 1, 0x0, 0x0, 0x0, 0x0, 0x1, 0x0, 0x0⟩]

/-- The registers of block 0x50. -/
def regRows50 : List RegRow := [
  ⟨3, 0x0, 8, 0x4, 1, 0x0, 0x3FFFF, 0xFF800000, 0x0, 0x0, 0x0, 0x0⟩,
  ⟨4, 0x0, 4, 0x4, 1, 0x0, 0x3FFFF, 0xFF800000, 0x0, 0x0, 0x0, 0x0⟩,
  ⟨3, 0x40, 8, 0x4, 1, 0x0, 0xFFFFFFFF, 0x0, 0x0, 0x0, 0x0, 0x0⟩,
  ⟨4, 0x40, 4, 0x4, 1, 0x0, 0xFFFFFFFF, 0x0, 0x0, 0x0, 0x0, 0x0⟩,
  ⟨1, 0x100, 1, 0x0, 1, 0x0, 0xFFFF001F, 0x0, 0x0, 0x0, 0x0, 0x0⟩,
  ⟨1, 0x104, 1, 0x0, 1, 0x0, 0x0, 0xFFFF, 0x0, 0x0, 0x0, 0x6900⟩,
  ⟨1, 0x108, 1, 0x0, 1, 0x0, 0xFFFFFFFF, 0x0, 0x0, 0x0, 0x0, 0x0⟩,
  ⟨3, 0x10C, 8, 0x4, 1, 0x0, 0xFFFFFFFF, 0x0, 0x0, 0x0, 0x0, 0x0⟩,
  ⟨4, 0x10C, 4, 0x4, 1, 0x0, 0xFFFFFFFF, 0x0, 0x0, 0x0, 0x0, 0x0⟩,
  ⟨1, 0x110, 1, 0x0, 1, 0x0, 0x0, 0x0, 0x0, 0x1, 0x0, 0x0⟩]

/-- The registers of block 0x51. -/
def regRows51 : List RegRow := [
  ⟨1, 0x0, 1, 0x0, 1, 0x0, 0x3, 0x0, 0x0, 0x0, 0x0, 0x0⟩,
  ⟨1, 0x4, 1, 0x0, 1, 0x0, 0xFFFFFFFF, 0x0, 0x0, 0x0, 0x0, 0x0⟩,
  ⟨1, 0x8, 1, 0x0, 1, 0x0, 0xFFFFFFFF, 0x0, 0x0, 0x0, 0x0, 0x0⟩,
  ⟨1, 0xC, 1, 0x0, 1, 0x0, 0x1FF, 0x0, 0x0, 0x0, 0x0, 0x0⟩,
  ⟨1, 0x10, 1, 0x0, 1, 0x0, 0xFFFFFFFF, 0x0, 0x0, 0x0, 0x0, 0x0⟩,
  ⟨1, 0x14, 1, 0x0, 1, 0x0, 0xFFFFFFFF, 0x0, 0x0, 0x0, 0x0, 0x0⟩,
  ⟨1, 0x18, 1, 0x0, 1, 0x0, 0x0, 0x0, 0x0, 0x1, 0x0, 0x0⟩]

/-- The registers of block 0x60. -/
def regRows60 : List RegRow := [
  ⟨1, 0x0, 1, 0x0, 1, 0x0, 0xFF, 0x0, 0x0, 0x0, 0x0, 0x0⟩,
  ⟨1, 0x4, 1, 0x0, 1, 0x0, 0x7FF, 0x0, 0x0, 0x0, 0x0, 0x0⟩,
  ⟨1, 0x8, 1, 0x0, 1, 0x0, 0x7FFFFF, 0x0, 0x0, 0x0, 0x0, 0x0⟩,
  ⟨1, 0x100, 4, 0x20, 1, 0x0, 0xFFFFFFFF, 0x0, 0x0, 0x0, 0x0, 0x0⟩,
  ⟨1, 0x104, 4, 0x20, 1, 0x0, 0xFFFFFFFF, 0x0, 0x0, 0x0, 0x0, 0x0⟩,
  ⟨1, 0x108, 4, 0x20, 1, 0x0, 0xFFFFFFFF, 0x0, 0x0, 0x0, 0x0, 0x0⟩,
  ⟨1, 0x10C, 4, 0x20, 1, 0x0, 0xFFFFFFFF, 0x0, 0x0, 0x0, 0x0, 0x0⟩,
  ⟨1, 0x110, 4, 0x20, 1, 0x0, 0xFFFFFFFF, 0x0, 0x0, 0x0, 0x0, 0x0⟩,
  ⟨1, 0x114, 4, 0x20, 1, 0x0, 0xFFFF, 0x0, 0x0, 0x0, 0x0, 0x0⟩,
  ⟨1, 0x200, 1, 0x0, 1, 0x0, 0x0, 0x0, 0x0, 0x1, 0x0, 0x0⟩]

/-- The registers of block 0x61. -/
def regRows61 : List RegRow := [
  ⟨1, 0x0, 1, 0x0, 1, 0x0, 0x3F, 0x0, 0x0, 0x0, 0x0, 0x0⟩,
  ⟨1, 0x4, 1, 0x0, 1, 0x0, 0xFFFFFFFF, 0x0, 0x0, 0x0, 0x0, 0x0⟩,
  ⟨1, 0x8, 1, 0x0, 1, 0x0, 0xFFFFFFFF, 0x0, 0x0, 0x0, 0x0, 0x0⟩,
  ⟨1, 0x10, 1, 0x0, 1, 0x0, 0xFFFFFFFF, 0x0, 0x0, 0x0, 0x0, 0x0⟩,
  ⟨1, 0x14, 1, 0x0, 1, 0x0, 0xFFFFFFFF, 0x0, 0x0, 0x0, 0x0, 0x0⟩,
  ⟨1, 0x18, 1, 0x0, 1, 0x0, 0xFFFFFFFF, 0x0, 0x0, 0x0, 0x0, 0x0⟩,
  ⟨1, 0x1C, 1, 0x0, 1, 0x0, 0x0, 0x0, 0x0, 0x1, 0x0, 0x0⟩]

/-- The registers of block 0x70. -/
def regRows70 : List RegRow := [
  ⟨5, 0x1000, 36, 0x4, 1, 0x0, 0xFFFF, 0x0, 0x0, 0x0, 0x0, 0xFC0⟩,
  ⟨5, 0x1100, 36, 0x4, 1, 0x0, 0xFFFFFFFF, 0x0, 0x0, 0x0, 0x0, 0x0⟩,
  ⟨5, 0x1200, 2, 0x4, 1, 0x0, 0x7F, 0x0, 0x0, 0x0, 0x0, 0x0⟩,
  ⟨5, 0x1210, 1, 0x0, 1, 0x0, 0x0, 0x0, 0x0, 0x1, 0x0, 0x0⟩,
  ⟨4, 0x0, 1, 0x0, 1, 0x0, 0xFFFF, 0x0, 0x0, 0x0, 0x0, 0x0⟩,
  ⟨5, 0x100, 1, 0x0, 1, 0x0, 0xFFFFFFFF, 0x0, 0x0, 0x0, 0x0, 0x0⟩,
  ⟨5, 0x104, 1, 0x0, 1, 0x0, 0xFFFFFFFF, 0x0, 0x0, 0x0, 0x0, 0x0⟩,
  ⟨1, 0x108, 1, 0x0, 1, 0x0, 0xFFFFFFFF, 0x0, 0x0, 0x0, 0x0, 0x0⟩,
  ⟨1, 0x10C, 1, 0x0, 1, 0x0, 0xFFFFFFFF, 0x0, 0x0, 0x0, 0x0, 0x0⟩,
  ⟨1, 0x110, 2, 0x4, 1, 0x0, 0xFFFFFFFF, 0x0, 0x0, 0x0, 0x0, 0x0⟩,
  ⟨4, 0x120, 1, 0x0, 1, 0x0, 0xFFFFFFFF, 0x0, 0x0, 0x0, 0x0, 0x0⟩,
  ⟨4, 0x124, 1, 0x0, 1, 0x0, 0xFFFFFFFF, 0x0, 0x0, 0x0, 0x0, 0x0⟩,
  ⟨4, 0x128, 1, 0x0, 1, 0x0, 0x7FFF, 0x0, 0x0, 0x0, 0x0, 0x0⟩,
  ⟨5, 0x130, 1, 0x0, 1, 0x0, 0x0, 0x0, 0x0, 0x1, 0x0, 0x0⟩]

/-- The registers of block 0x71. -/
def regRows71 : List RegRow := [
  ⟨1, 0x0, 1, 0x0, 1, 0x0, 0xF1, 0x0, 0x0, 0x0, 0x0, 0x0⟩,
  ⟨1, 0x4, 1, 0x0, 1, 0x0, 0x0, 0x0, 0x0, 0xFFFFFFFF, 0x0, 0x0⟩,
  ⟨1, 0x8, 1, 0x0, 1, 0x0, 0xFFFFFFFF, 0x0, 0x0, 0x0, 0x0, 0x0⟩,
  ⟨1, 0xC, 1, 0x0, 1, 0x0, 0xFF, 0x0, 0x0, 0x0, 0x0, 0x0⟩,
  ⟨4, 0x0, 1, 0x0, 1, 0x0, 0x0, 0xF, 0x0, 0x0, 0x0, 0x4⟩,
  ⟨4, 0x4, 1, 0x0, 1, 0x0, 0x0, 0xFFFF, 0x0, 0x0, 0x0, 0xF0B4⟩,
  ⟨4, 0x8, 1, 0x0, 1, 0x0, 0x7, 0x0, 0x8, 0x0, 0x0, 0x0⟩,
  ⟨4, 0xC, 1, 0x0, 1, 0x0, 0x0, 0x0, 0x0, 0xFFFFFFFF, 0x0, 0x0⟩,
  ⟨4, 0x10, 1, 0x0, 1, 0x0, 0x0, 0x0, 0x0, 0xFFFFFFFF, 0x0, 0x0⟩,
  ⟨7, 0x14, 1, 0x0, 1, 0x0, 0xF, 0x0, 0x0, 0x0, 0x0, 0x0⟩,
  ⟨1, 0x40, 7, 0x4, 1, 0x0, 0x1F80, 0x7F, 0x0, 0x0, 0x0, 0x0⟩,
  ⟨1, 0x100, 1, 0x0, 1, 0x0, 0x0, 0x3, 0x0, 0x0, 0x0, 0x0⟩,
  ⟨1, 0x104, 1, 0x0, 1, 0x0, 0x0, 0xFFFFFFFF, 0x0, 0x0, 0x0, 0x0⟩,
  ⟨1, 0x108, 1, 0x0, 1, 0x0, 0xF, 0x0, 0x0, 0x0, 0x0, 0x0⟩,
  ⟨1, 0x10C, 1, 0x0, 1, 0x0, 0xFFFFFFFF, 0x0, 0x0, 0x0, 0x0, 0x0⟩,
  ⟨1, 0x110, 1, 0x0, 1, 0x0, 0xFFFFFFFF, 0x0, 0x0, 0x0, 0x0, 0x0⟩,
  ⟨1, 0x114, 1, 0x0, 1, 0x0, 0xFFFFFFFF, 0x0, 0x0, 0x0, 0x0, 0x0⟩,
  ⟨1, 0x118, 1, 0x0, 1, 0x0, 0xFFFFFFFF, 0x0, 0x0, 0x0, 0x0, 0x0⟩,
  ⟨1, 0x11C, 1, 0x0, 1, 0x0, 0xFFFFFFFF, 0x0, 0x0, 0x0, 0x0, 0x0⟩,
  ⟨1, 0x120, 1, 0x0, 1, 0x0, 0x0, 0x0, 0x0, 0x1, 0x0, 0x0⟩]

/-- The register rows of a block number; none for a number the table of R34 does not give. -/
def regRows (blk : Nat) : List RegRow :=
  match blk with
  | 0x00 => regRows00
  | 0x0E => regRows0E
  | 0x11 => regRows11
  | 0x12 => regRows12
  | 0x13 => regRows13
  | 0x14 => regRows14
  | 0x15 => regRows15
  | 0x20 => regRows20
  | 0x21 => regRows21
  | 0x22 => regRows22
  | 0x23 => regRows23
  | 0x30 => regRows30
  | 0x31 => regRows31
  | 0x32 => regRows32
  | 0x33 => regRows33
  | 0x34 => regRows34
  | 0x40 => regRows40
  | 0x41 => regRows41
  | 0x50 => regRows50
  | 0x51 => regRows51
  | 0x60 => regRows60
  | 0x61 => regRows61
  | 0x70 => regRows70
  | 0x71 => regRows71
  | _ => []

end Sys2Proof.Machine
end

