-- ==== Sys2Proof/Machine/Parts/Decode.lean ====
section
/-! DEFINITION. Plain-data parts of the state that belong to scene stream decoding (chapter of that name). -/

namespace Sys2Proof.Machine

/-- R131: a source descriptor: COMPONENT (view, depth, ALL), PAIR, PT, groups and port. -/
structure Source where
  view   : Nat
  depth  : Bool
  all    : Bool
  pair   : Nat
  pt     : Nat
  groupA : Nat
  port   : Nat
  groupB : Nat
  deriving DecidableEq, Repr

/-- R131: a stream's configuration. -/
structure StreamCfg where
  kind    : Nat
  views   : Nat
  rate    : Nat
  mask    : Nat
  texW    : Nat
  texH    : Nat
  depW    : Nat
  depH    : Nat
  colour  : Nat
  sources : List Source
  deriving DecidableEq, Repr

/-- What a picture's samples are read by (R106, R109, R152): the picture's number, luma size, bit depth, chroma siting, whether it uses the
full range, and whether it is a depth map. -/
structure PicDesc where
  num   : Nat
  w     : Nat
  h     : Nat
  bits  : Nat
  site  : Nat
  full  : Bool
  depth : Bool
  deriving DecidableEq, Repr

/-- R111, R355: pixel groups of an uncompressed picture received for a row, from a column on. -/
structure RawRun where
  row  : Nat
  col  : Nat
  data : Bytes
  deriving DecidableEq, Repr

/-- What a picture's samples are (R111, R124, R128): those of coded slices; a flat picture; the pixel groups received; or coded with the
CTUs of some ranges (first, count; CTB size) filled from another picture. -/
inductive PicData where
  | coded (d : PicDesc)
  | flat (d : PicDesc)
  | raw (d : PicDesc) (runs : List RawRun)
  | filled (d : PicDesc) (ctb : Nat) (lost : List (Nat × Nat)) (sub : PicData)
  deriving DecidableEq, Repr

/-- A decoded picture in a component's buffer: its place in decoding order, picture order count, presentation time (MEDIA short form),
whether it may still be referenced, its colour (R109) and its samples. -/
structure Pic where
  serial : Nat
  poc    : Int
  time   : Nat
  ref    : Bool
  colour : Nat
  data   : PicData
  deriving DecidableEq, Repr

/-- A picture of a component that is being received or reconstructed: its place in decoding order, order count, presentation time,
description and CTB size, CTUs and CTU rows in all, the segments parsed (address, CTUs), where the last segment seen ended, rows
reconstructed (the count R115 publishes), IRAP, the order counts and the components it references, the missing references already
counted, whether a substitution was made, whether an inter-layer reference was concealed, whether it was counted late, whether its
access unit has closed, its colour, its bytes in the entropy-output buffer, and the pixel groups received (kind 3). -/
structure OpenPic where
  serial : Nat
  poc    : Int
  time   : Nat
  desc   : PicDesc
  ctb    : Nat := 64
  total  : Nat
  rows   : Nat
  got    : List (Nat × Nat) := []
  last   : Nat := 0
  made   : Nat := 0
  irap   : Bool := false
  refs   : List Int := []
  deps   : List (Nat × Bool) := []
  miss   : List Int := []
  subst  : Bool := false
  inter  : Bool := false
  late   : Bool := false
  closed : Bool := false
  colour : Nat := 0
  bytes  : Nat := 0
  runs   : List RawRun := []
  deriving DecidableEq, Repr

/-- A component (R104): WAITING (R127); concealed by the picture of some place in decoding order (R125); REJECTED with its tool code, and
the order count of the IRAP picture at which it is leaving REJECTED (R108); the refresh cycles in progress (place of the starting
picture, order count at which it completes, R126); the first picture usable after concealment (R126); whether RASL pictures are
discarded and the presentation times of those that were (R127); pictures begun so far; the colour in effect (R109); its decoded picture
buffer, newest first; pictures being decoded, oldest first; and the memory channel of its buffer. -/
structure Comp where
  waiting : Bool := true
  hidden  : Option Nat := none
  tool    : Option Nat := none
  trial   : Option Int := none
  cycles  : List (Nat × Int) := []
  usable  : Nat := 0
  noRasl  : Bool := false
  skipped : List Nat := []
  count   : Nat := 0
  colour  : Option Nat := none
  dpb     : List Pic := []
  opened  : List OpenPic := []
  chan    : Nat := 0
  deriving DecidableEq, Repr

/-- A view (R104, R120, R122): its owner hob die number (none: UNPLACED), components, and the order count of the last complete
texture picture. -/
structure ViewSt where
  owner   : Option Nat := none
  tex     : Comp := {}
  dep     : Comp := {}
  lastPoc : Int := 0
  deriving DecidableEq, Repr

/-- R113: a coded slice NAL unit that waits for an entropy engine of its component's die: the component, the source it came by, its
presentation time (MEDIA short form), and its bytes. -/
structure Nal where
  view  : Nat
  depth : Bool
  src   : Nat
  time  : Nat
  data  : Bytes
  deriving DecidableEq, Repr

/-- R110: an access unit whose reception has ended: its source, presentation time, the first frame picked after that, and whether
ACCESS_UNIT_CLOSE has closed it. -/
structure EndedAu where
  src  : Nat
  time : Nat
  due  : Nat
  done : Bool := false
  deriving DecidableEq, Repr

/-- R103: a stream slot: configuration, priority, the stored assignment table, views, packets lost, the admitted load, the NAL units
that wait to be parsed, the parameter sets held by each die (hob die number, source, NAL unit, R113), and the access units whose reception has
ended, newest last. -/
structure Stream where
  cfg    : Option StreamCfg := none
  prio   : Nat := 0
  assign : Option (List Nat) := none
  views  : List ViewSt := []
  lost   : Nat := 0
  load   : Nat := 0
  nals   : List Nal := []
  sets   : List (Nat × Nat × Bytes) := []
  ended  : List EndedAu := []
  deriving DecidableEq, Repr

/-- Decoding: the eight slots, the report ring (record number, 16 bytes), the next record number, the next picture number, and for each
engine the class of its last work (live or not; engines 0, 1 entropy, 2–7 pixel). -/
structure Dec where
  slots : List Stream := [{}, {}, {}, {}, {}, {}, {}, {}]
  ring  : List (Nat × Bytes) := []
  next  : Nat := 0
  pics  : Nat := 1
  last  : List (Nat × Bool) := []
  deriving DecidableEq, Repr

end Sys2Proof.Machine
end

