-- ==== Sys2Proof/Machine/Parts/Heap.lean ====
section
/-! DEFINITION. The object heap: surfaces and bulk buffers in hearth memory, and the layers, fences' waiters and blitter
queue that name them (chapter "Layers, surfaces and the blitter"). -/

namespace Sys2Proof.Machine

/-- R178, R179, R186, R198: an object: a bulk buffer, or a surface with its format, pewter base format, COLOUR byte,
size in pixels and CLEAR value. -/
inductive ObjKind where
  | buffer
  | surface (fmt base colour width height clear : Nat)
  deriving DecidableEq, Repr

/-- R178–R182: an object of the heap. `cells` are its bytes that are not 0, addresses (byte offsets from its first
byte) rising. `die` is the hob die (ID) that holds it, `mirror` that of its second copy. `lost` is R180's LOST; a
handle in `Lay.frees` is FREEING (R181). -/
structure Obj where
  handle  : Nat
  kind    : ObjKind
  size    : Nat
  die     : Nat
  mirror  : Option Nat
  lost    : Bool
  cells   : List Host.Cell
  deriving DecidableEq, Repr

/-- The heap: its objects, newest first, and the handle allocated last (0: none yet). -/
structure Heap where
  objs : List Obj := []
  last : Nat := 0
  deriving DecidableEq, Repr

/-- R200: a layer's setting. -/
structure LayerSet where
  enable  : Bool := false
  flags   : Nat := 0
  surface : Nat := 0
  srcX    : Nat := 0
  srcY    : Nat := 0
  srcW    : Nat := 0
  srcH    : Nat := 0
  posX    : Int := 0
  posY    : Int := 0
  dstW    : Nat := 0
  dstH    : Nat := 0
  z       : Int := 0
  alpha   : Nat := 0
  fill    : Nat := 0
  acquire : Nat := 0
  release : Nat := 0
  deriving DecidableEq, Repr

/-- R181, R185: a surface that is no longer bound to a layer but may still be read by strips of frame `frame`; when the
last of them is composed, fence word `release` is signalled. -/
structure Reading where
  layer   : Nat
  surface : Nat
  frame   : Nat
  release : Nat
  deriving DecidableEq, Repr

/-- R193, R197, R203: a blitter operation: FILL 0, COPY 1, CONVERT 2, or an upload (`up`). `cmd` is the command that
queued it; none for a direct START. -/
structure BltOp where
  cmd    : Option Cmd
  up     : Bool := false
  op     : Nat := 0
  src    : Nat := 0
  dst    : Nat := 0
  srcX   : Nat := 0
  srcY   : Nat := 0
  dstX   : Nat := 0
  dstY   : Nat := 0
  w      : Nat := 0
  h      : Nat := 0
  fill   : Nat := 0
  fence  : Nat := 0
  offset : Nat := 0
  mode   : Nat := 0
  dest   : Nat := 0
  bytes  : Nat := 0
  deriving DecidableEq, Repr

/-- R170, R181–R185, R190: layers (shadow setting and whether it awaits a commit; bound; held), surfaces still read,
deferred frees, the blitter's queue and the operation it runs. -/
structure Lay where
  shadow  : List LayerSet := [{}, {}, {}, {}, {}, {}, {}, {}]
  changed : List Bool := [false, false, false, false, false, false, false, false]
  bound   : List LayerSet := [{}, {}, {}, {}, {}, {}, {}, {}]
  held    : List (Option LayerSet) := [none, none, none, none, none, none, none, none]
  reading : List Reading := []
  frees   : List (Nat × Cmd) := []
  queue   : List BltOp := []
  running : Option BltOp := none
  deriving DecidableEq, Repr

/-- R89, R90: a copy of the planish map: its state code, whether entries never written are the nominal entry (false:
their contents are not known), and the entries that differ. -/
structure MapCopy where
  state   : Nat
  nominal : Bool
  entries : List (Nat × Nat)
  deriving DecidableEq, Repr

/-- R97: a planish load in progress. -/
structure MapLoad where
  cmd    : Cmd
  copy   : Nat
  format : Nat
  first  : Nat
  count  : Nat
  buffer : Nat
  offset : Nat
  bytes  : Nat
  deriving DecidableEq, Repr

/-- The planish map (R89–R92): copies A and B, PENDING_FRAME and SWAP_FRAME, the load and clone in progress. -/
structure Planish where
  copies    : List MapCopy := [⟨5, true, []⟩, ⟨0, false, []⟩]
  pendFrame : Nat := 0
  swapFrame : Nat := 0
  load      : Option MapLoad := none
  clone     : Option Cmd := none
  deriving DecidableEq, Repr

end Sys2Proof.Machine
end

