-- ==== Sys2Proof/Machine/Parts/Panel.lean ====
section
/-! DEFINITION. Plain-data parts of the state that belong to the flue dies' output: egress, the plane store, the steering
film (chapter "Emissive panel drive and the steering film") and the lamp bus (chapter "Projector engine"). -/

namespace Sys2Proof.Machine

/-- R28: pixel data of a panel line held in a link's egress buffer: line, low 24 bits of the frame, first element, data
words, and whether its message was discarded on the damper (R27). -/
structure Run where
  link  : Nat
  line  : Nat
  frame : Nat
  first : Nat
  words : List Nat
  bad   : Bool
  deriving DecidableEq, Repr

/-- A flue die's data side (R28, R230, R262): pixel data waiting for its line, the data blocks of each link's last line
sent with data, plane store bytes that are not 0, and for each plane-store row (buffer × 65,536 + row) the frame and
halves last written, or the row marked repeated. -/
structure FlueData where
  runs  : List Run := []
  prev  : List (List Nat) := [[], [], [], []]
  store : List Host.Cell := []
  rows  : List (Nat × Nat × Nat) := []
  mirrorRep : List Bool := [false, false]
  deriving DecidableEq, Repr

/-- R239: a running waveform: the state it leads to, its next step, its latched band. -/
structure Wave where
  new  : Nat
  step : Nat
  band : Nat
  deriving DecidableEq, Repr

/-- R239: a film cell. -/
structure Cell where
  state : Nat := 0
  wave  : Option Wave := none
  next  : Option Nat := none
  upd   : Option Nat := none
  deriving DecidableEq, Repr

/-- One flue die's part of the film: the cells (all as `base` but for those listed, by cy × 2,048 + cx), updates to act
at film frame 1 of a frame (frame, slots), whether a pulse is in progress, park steps done (none: no park), the LOCAL
time of detection, how each cell is driven in the park (key, direction, old, new), whether the next film frame begins a reseat,
pulses left of a reseat, the band of the balance, and why its lines are black: 1 a power failure, 2 power has returned, 3 a latch line has begun since; and whether a soft reset
waits for the running waveforms (R521). -/
structure FilmDie where
  base    : Cell := {}
  cells   : List (Nat × Cell) := []
  due     : List (Nat × List Nat) := []
  pulse   : Bool := false
  park    : Option Nat := none
  parkAt  : Nat := 0
  parkSet : List (Nat × Nat × Nat × Nat) := []
  arm     : Bool := false
  reseat  : Nat := 0
  balBand : Nat := 0
  dark    : Nat := 0
  resetDue : Bool := false
  deriving DecidableEq, Repr

/-- R241, R255: an update slot: its command, ID, rectangle, targets in raster order; phase 0 staged, 1 captured, 2 bound
to `frame`; how many captures of commits accepted before it are still to come; the flue dies (0, 1) it has acted on. -/
structure FilmSlot where
  cmd     : Cmd
  id      : Nat
  x       : Nat
  y       : Nat
  w       : Nat
  h       : Nat
  targets : List Nat
  phase   : Nat := 0
  frame   : Nat := 0
  skip    : Nat := 0
  applied : List Nat := []
  deriving DecidableEq, Repr

/-- R252: a film table load in progress. -/
structure TableLoad where
  cmd    : Cmd
  format : Nat
  buffer : Nat
  offset : Nat
  bytes  : Nat
  deriving DecidableEq, Repr

/-- The film as a whole: the waveform table (empty: none loaded yet), a load in progress, update slots in use, the
committed target map of the hob dies (all `mapBase` but for those listed), whether the next commit takes it from the
parked states (R249), film frames begun since reset, the index of the next film frame of the frame, whether the emitters
are black for a reseat or a stop, whether the next film frame begins the balance, film frames of balance done (none: not
balancing), and slots carried by the flue parts of commits (by their numbers). -/
structure Film where
  table    : Bytes := []
  load     : List TableLoad := []
  slots    : List (Nat × FilmSlot) := []
  mapBase  : Nat := 0
  map      : List (Nat × Nat) := []
  fromPark : Bool := false
  count    : Nat := 0
  next     : Nat := 0
  black    : Bool := false
  stopDark : Bool := false
  balArm   : Bool := false
  balance  : Option Nat := none
  carried  : List (Nat × List Nat) := []
  dies     : List FilmDie := [{}, {}]
  deriving DecidableEq, Repr

/-- R232, R261: a curve: L_MAX (U4.16) and its 1,025 points. -/
structure Curve where
  lmax : Nat
  pts  : List Nat
  deriving DecidableEq, Repr

/-- R232, R261: code curves of red, green, blue for the panel and for the projector (`none`: as at reset): shadow, and in
effect. -/
structure Curves where
  shadow : List (Option Curve) := [none, none, none, none, none, none]
  bound  : List (Option Curve) := [none, none, none, none, none, none]
  deriving DecidableEq, Repr

/-- R272–R277: a lamp bus node by what the device knows of it: its 48-bit ID, KIND, CHANNELS, over-temperature bits, and
the register word KIND holds. -/
structure Node where
  addr : Nat
  id   : Nat
  kind : Nat
  chs  : Nat
  ot   : Nat := 0
  deriving DecidableEq, Repr

/-- Why a lamp bus transaction is made: a host node access, a LAMP_CLEAR (its CLEAR write, then its enable), a
configuration write of LAMP_ENABLE or of a returned node, the enables of CONTROL, a setpoint write, a STATUS poll, a TEMP
poll. -/
inductive TxFor where
  | access (c : Cmd)
  | clear (c : Cmd) (ch : Nat)
  | clearOn (c : Cmd) (ch : Nat)
  | config (start : Bool)
  | enable (start : Bool)
  | setpoint (ch : Nat)
  | status
  | temp (ch : Nat)
  deriving DecidableEq, Repr

/-- A lamp bus transaction that waits: node, register, whether it writes and the value, attempts made. -/
structure Tx where
  addr  : Nat
  reg   : Nat
  write : Bool
  value : Nat
  tries : Nat := 0
  why   : TxFor
  deriving DecidableEq, Repr

/-- A lamp bus segment: its nodes, transactions waiting, the cycle's place in its group of four, the rotations of STATUS
and TEMP polls, channels' curves and colours' temperature tables that are not as at reset, LAMP_SETPOINT commands whose
values wait for a snapshot, and those in the snapshot being written; whether a snapshot's writes are being made, the
stage of a start (1 configuration, 2 latch, 3 enables) and why it failed (a reason), the frame of the start's latch, the
frame a stop was requested in, LOST nodes being reconfigured, nodes whose enables change at the next latch, the channels
enabled at the last latch, and the command an enumeration runs for. -/
structure Segment where
  nodes   : List Node := []
  queue   : List Tx := []
  cycle   : Nat := 0
  statRot : Nat := 0
  tempRot : Nat := 0
  curves  : List (Nat × List Nat) := []
  tables  : List (Nat × List Nat) := []
  fresh   : List Cmd := []
  taken   : List Cmd := []
  writing : Bool := false
  stage   : Nat := 0
  failed  : Option Nat := none
  latchAt : Nat := 0
  stopAt  : Nat := 0
  back    : List Nat := []
  changed : List Nat := []
  live    : List Nat := []
  enumCmd : Option Cmd := none
  deriving DecidableEq, Repr

/-- The lamp bus and Quench as a whole: the two segments, whether the next frame start latches, whether the STRIKE of slot
0 carries LATCH, and the next slot of the frame (R260). -/
structure Lamp where
  segs    : List Segment := [{}, {}]
  latch   : Bool := false
  latched : Bool := false
  slot    : Nat := 0
  deriving DecidableEq, Repr

end Sys2Proof.Machine
end

