-- ==== Sys2Proof/Machine/Parts/Video.lean ====
section
/-! DEFINITION. Plain-data parts of the state that belong to synthesis (chapter "View synthesis in the hob dies") and to
raster timing, commit and genlock (chapter of that name). -/

namespace Sys2Proof.Machine

/-- R145: the pictures chosen for a usable view, and the colour of its texture picture (R109). -/
structure PickView where
  view   : Nat
  tex    : PicData
  dep    : PicData
  colour : Nat
  deriving DecidableEq, Repr

/-- R145, R156: the choice made at a frame's pick time: the frame, the throttle level, the planish copy, the source slot, the views
usable with their pictures; and what is in effect for the frame: the RS registers of the hob dies, the layer settings, the code curves,
the film target map and whether the projector dithers. -/
structure Pick where
  frame  : Nat
  level  : Nat
  copy   : Nat
  slot   : Nat
  views  : List PickView
  regs   : List (Nat × Word)
  layers : List LayerSet
  curves : List (Option Curve)
  film   : Nat × List (Nat × Nat)
  dither : Bool
  deriving DecidableEq, Repr

/-- R146, R154, R177: an event that befell a strip being computed: its number (which names the rays issued and composed before it), the views
not usable for later rays, those whose waiting taps are dropped, the layers (segment, layer) not drawn on later rays, and the surfaces
found LOST. -/
structure RayCut where
  id       : Nat
  views    : List PickView := []
  waits    : List Nat := []
  layers   : List (Nat × Nat) := []
  surfaces : List Nat := []
  deriving DecidableEq, Repr

/-- R154: a line of a grate's view cache: the grate, the picture (its number, whether depth) and the block. -/
structure CacheLine where
  die   : Nat
  grate : Nat
  pic   : Nat
  depth : Bool
  bx    : Nat
  by_   : Nat
  deriving DecidableEq, Repr

/-- R138–R144: a strip of the deal sequence that is outstanding: its region, view (0 in panel mode), strip number in its region and
frame; the grate it was dealt to; how far it is (0 dealt, 1 begun, 2 complete, 3 wholly sent), how many of its lines have left,
whether it is rescued, redone (R160) or excused; for a strip split into segments the grates that hold them and the columns of each; the
events that befell it while it was computed; and the codes of each line once it is complete. -/
structure Strip where
  region  : Nat
  view    : Nat
  idx     : Nat
  frame   : Nat
  die     : Nat
  grate   : Nat
  phase   : Nat := 0
  sent    : Nat := 0
  rescued : Bool := false
  redone  : Bool := false
  excused : Bool := false
  parts   : List (Nat × Nat) := []
  seg     : Nat := 0
  cuts    : List RayCut := []
  lines   : List (List Nat) := []
  deriving DecidableEq, Repr

/-- R143, R157–R167: synthesis scheduling: the grate list as (die ID, grate), the next strip number and the first dealt under this
list, the die dealt to last, strips outstanding in deal order, picks held (newest first), frames of a region that underran, grates
taken offline by the host and by faults, SYN_GRATE_SET commands awaiting a list change (command, grate, online), recent check
failures of cells ((die, cell), when), SYN_LEAD in effect, the number of cameras in the shadow set and the set in effect, DITHER as
composition holds it (R284), how many strips of a region's frame are dealt, and the lines the grates' view caches hold, newest first
(R154). -/
structure Syn where
  list    : List (Nat × Nat) := [(1, 0), (2, 0), (3, 0), (4, 0), (1, 1), (2, 1), (3, 1), (4, 1), (1, 2), (2, 2), (3, 2), (4, 2)]
  next    : Nat := 0
  first   : Nat := 0
  lastDie : Option Nat := none
  strips  : List Strip := []
  picks   : List Pick := []
  dead    : List (Nat × Nat) := []
  hostOff : List (Nat × Nat) := []
  faulted : List (Nat × Nat) := []
  moving  : List (Cmd × (Nat × Nat) × Bool) := []
  cellErr : List ((Nat × Nat) × List Nat) := []
  lead    : Nat := 400
  camNext : Nat := 0
  camNow  : Nat := 0
  dither  : Bool := true
  dealt   : List ((Nat × Nat) × Nat) := []
  cache   : List CacheLine := []
  deriving DecidableEq, Repr

/-- R211: what a commit captured: the shadow copy of every register, whether SCN_VBLANK is carried (R221), the layer settings changed since
the last capture (R170), the planish copy staged, and what the panel, projector, Bellows, camera and encoder chapters add; `camN` is how many synthesis cameras the set
has. -/
structure Snap where
  shadow : List (Nat × Word)
  blank  : Bool
  layers : List (Nat × LayerSet)
  map    : Option Nat
  film   : List Nat
  swaps  : List (Nat × Nat)
  cams   : List (Nat × Bytes × Nat)
  views  : List (Nat × Bytes)
  curves : List (Option Curve)
  camN   : Nat
  deriving DecidableEq, Repr

/-- R210–R212, R223: a commit that is captured (`snap`) and not yet bound: bound to a frame, or to the first frame that
starts at or after a MEDIA time. `no` counts commits in the order of their acceptance. `cmd` is the command whose completion event carries F (MODE 2). -/
structure Commit where
  no    : Nat
  cmd   : Option Cmd
  frame : Option Nat
  time  : Nat
  sched : Bool
  snap  : Snap
  deriving DecidableEq, Repr

/-- R212: how the flue part of a commit stands: the commit's number, its frame, the MODE 2 command that waits for it, the flue dies
not yet judged, and those that dropped it. -/
structure Judge where
  id      : Nat
  frame   : Nat
  cmd     : Option Cmd
  open_   : List Nat
  dropped : List Nat
  deriving DecidableEq, Repr

/-- R221: a region's shadow raster. -/
structure Raster where
  rate      : Nat
  width     : Nat
  active    : Nat
  vblank    : Nat
  slotLines : Nat
  deriving DecidableEq, Repr

/-- R219: a frame signature held. -/
structure Sig where
  frame : Nat
  flags : Nat
  crc   : Nat
  deriving DecidableEq, Repr

/-- Raster, commit and genlock state: each region's shadow raster, the last frame bound on the hearth raster, captured
commits in order of acceptance, MODE 0 commits awaiting capture, flue parts being judged, commits accepted so far; the blanking of the current
frame and the MEDIA time (short form) of its start, whether any frame has started; genlock (settings in effect, FSYNC
edges, lock counts, frames since a hard resync, how far the number jumps at the next start, the last error in 2^-16 ns);
per link the signatures held, the CRC register of the frame being sent and its flags, the frames abandoned and the line
from which each is black, and whether it has been ON since the last frame start; the phase steps of the current frame's
blanking in 2^-16 ns (R422); whether FSYNC_OUT rose with the
current frame, the frame in which each region's stop was requested, and the first frame that was dark after it; per link
whether the line pair being sent, and the frame being sent, began under half refresh (R333). -/
structure Ras where
  rasters  : List (Option Raster) := [none, none, none, none]
  bound    : Nat := 0
  commits  : List Commit := []
  capture  : List (Nat × Cmd) := []
  judging  : List Judge := []
  commitNo : Nat := 0
  vnow     : Nat := 64
  startAt  : Nat := 0
  started  : Bool := false
  glFirst  : Nat := 0
  glSecond : Nat := 0
  glFlags  : Nat := 0
  glOffset : Int := 0
  fsLast   : Option Nat := none
  fsGood   : Nat := 0
  fsValid  : Bool := false
  source   : Nat := 0
  lockRun  : Nat := 0
  locked   : Bool := false
  sinceRs  : Nat := 8
  resynced : Nat := 0
  err      : Int := 0
  sigs     : List (List Sig) := [[], [], [], [], [], [], [], []]
  crcs     : List Nat := [0xFFFFFFFF, 0xFFFFFFFF, 0xFFFFFFFF, 0xFFFFFFFF, 0xFFFFFFFF, 0xFFFFFFFF, 0xFFFFFFFF, 0xFFFFFFFF]
  flags    : List Nat := [0, 0, 0, 0, 0, 0, 0, 0]
  black    : List (List (Nat × Nat)) := [[], [], [], [], [], [], [], []]
  live     : List Bool := [false, false, false, false, false, false, false, false]
  phase    : Int := 0
  fsyncOut : Bool := false
  stopAt   : List Nat := [0, 0, 0, 0]
  darkAt   : List (Option Nat) := [none, none, none, none]
  safeDark : Bool := false
  pairHalf : List Bool := [false, false, false, false, false, false, false, false]
  halfSent : List Bool := [false, false, false, false, false, false, false, false]
  deriving DecidableEq, Repr

end Sys2Proof.Machine
end

