-- ==== Sys2Proof/Machine/Parts/Bellows.lean ====
section
/-! DEFINITION. The state of Bellows (chapter "Bellows control engine") and of the confidence encoder (chapter
"Confidence encoder and Ingot compression") that no register holds. -/

namespace Sys2Proof.Machine

/-- R301, R302: a loop's state beyond its registers: the sum of its window's matching samples (in 1/256 of a code) and
their number, the integrator (Q10.30), the previous input (none before the first measured tick of an enable), and the
biquad. -/
structure Loop where
  sum   : Nat := 0
  count : Nat := 0
  integ : Int := 0
  vPrev : Option Int := none
  x1    : Int := 0
  x2    : Int := 0
  y1    : Int := 0
  y2    : Int := 0
  deriving DecidableEq, Repr

/-- R307: a pending bank swap of a loop (0–47): its number, the target bank, the command whose completion event waits
for it, and whether it is due. -/
structure Swap where
  id   : Nat
  loop : Nat
  bank : Nat
  cmd  : Option Cmd
  due  : Bool
  deriving DecidableEq, Repr

/-- Bellows: the 48 loops, pending swaps, those staged for the next commit and those the flue parts of commits carry for a
frame ((loop, swap number)). -/
structure Bellows where
  loops   : List Loop := List.replicate 48 {}
  swaps   : List Swap := []
  nextId  : Nat := 0
  staged  : List (Nat × Nat) := []
  carried : List (Nat × List (Nat × Nat)) := []
  deriving DecidableEq, Repr

/-- R489: up to 16 rows of an input picture as 10-bit codes: luma, and the two chroma planes at half size. -/
structure EncRows where
  luma : List (List Nat)
  cb   : List (List Nat)
  cr   : List (List Nat)
  deriving DecidableEq, Repr

/-- R491: a prediction block and its vector in quarter samples. -/
structure MvBlock where
  at_ : PredBlock
  mx  : Int
  my  : Int
  deriving DecidableEq, Repr

/-- R485–R494: a picture of a stream: its frame, its picture time (MEDIA in 2^-16 ns), its number since enable, whether it is
intra throughout, a repeat, or carries a recovery point, the CTU columns coded intra (from, to), whether it waits for its source
rows, the source's rows that are there (by strip of 16 rows), the monitor view and the choice of R145 it is rendered from; its
budget, bits spent, the next CTU row, the row it is starved from, the slices sent, and the vectors of its rows so far. -/
structure EncPic where
  frame   : Nat
  time    : Nat
  num     : Nat
  intra   : Bool
  rep     : Bool := false
  recover : Bool := false
  col0    : Nat := 0
  col1    : Nat := 0
  waits   : Bool := true
  rows    : List (Nat × EncRows) := []
  view    : Bytes := []
  pick    : Option Pick := none
  budget  : Nat := 0
  spent   : Nat := 0
  row     : Nat := 0
  starved : Option Nat := none
  sent    : Nat := 0
  mvs     : List MvBlock := []
  deriving DecidableEq, Repr

/-- R483–R500: an encoder slot: its configuration (ENC_STREAM_SET as sent; empty: none), the monitor view in the shadow and in
effect, the bucket b and b at the last picture start, pictures begun since enable, the next refresh column, a key due, RTP state
(SSRC, next sequence number, source port), camera frames closed when the last was taken, the flags of ENC_STATUS, the
pictures not yet wholly sent, oldest first, a number for this run of the stream, the vectors of the picture coded last, and the picture
time at which parameter sets were last sent. -/
structure EncSlot where
  cfg     : Bytes := []
  view    : Bytes := []
  bound   : Bytes := []
  b       : Nat := 0
  last    : Nat := 0
  count   : Nat := 0
  col     : Nat := 0
  key     : Bool := false
  ssrc    : Nat := 0
  rtpSeq  : Nat := 0
  sport   : Nat := 0
  camSeen : Nat := 0
  lost    : Bool := false
  starved : Bool := false
  pics    : List EncPic := []
  run     : Nat := 0
  prevMvs : List MvBlock := []
  setsAt  : Option Nat := none
  deriving DecidableEq, Repr

/-- R486: a camera port's raw lines as they arrive, ahead of the FIFO: the frame arriving (settings block that applied at its FS,
lines), the newest one that closed complete, and how many have. -/
structure EncTap where
  now    : Option (Bytes × List (List Nat)) := none
  newest : Bytes × List (List Nat) := ([], [])
  closed : Nat := 0
  deriving DecidableEq, Repr

/-- The confidence encoder: its slots, the shadow monitor views that have been set, and the cameras' taps. -/
structure Encoder where
  slots   : List EncSlot := [{}, {}, {}, {}]
  views   : List (Nat × Bytes) := []
  taps    : List EncTap := [{}, {}]
  deriving DecidableEq, Repr

/-- R485, R500: monitor views bind. -/
def Encoder.bindViews (e : Encoder) (l : List (Nat × Bytes)) : Encoder :=
  { e with slots := l.foldl (fun ss v => ss.modify v.1 fun x => { x with bound := v.2 }) e.slots }

end Sys2Proof.Machine
end

