-- ==== Sys2Proof/Machine/Parts/Capture.lean ====
section
/-! DEFINITION. Plain-data parts of the state that belong to the calibration cameras and the trim engine (chapter of that
name). -/

namespace Sys2Proof.Machine

/-- R429, R434: the camera frame in progress: its number, FS stamp (short form), device frame, generations, the lines
processed (codes of each), lines lost, and the FE stamp once FE has come. -/
structure CamFrame where
  num    : Nat
  sof    : Nat
  dev    : Nat
  gen    : Nat
  genExp : Nat
  lines  : List (List Nat) := []
  lost   : Nat := 0
  eof    : Option Nat := none
  deriving DecidableEq, Repr

/-- R444: the configuration of a port. -/
structure CamCfg where
  lanes   : Nat := 0
  dtype   : Nat := 0
  vc      : Nat := 0
  width   : Nat := 0
  height  : Nat := 0
  cfa     : Nat := 0
  latency : Nat := 0
  addr    : Nat := 0
  flags   : Nat := 0
  period  : Nat := 0
  lineNs  : Nat := 0
  deriving DecidableEq, Repr

/-- R434, R446: the ring of a port. -/
structure CamRing where
  buffer : Nat
  count  : Nat
  stride : Nat
  offset : Nat
  deriving DecidableEq, Repr

/-- R432, R433: a camera's settings blocks (as CAM_PIPE_SET gives them): the shadow, the one last captured, the one bound
that waits for an FS (generation and block), the one that applies; the generation last captured; the generations that
applied at the last FSs, newest first; generations whose sensor writes failed; the sensor write list in progress
(generation, next write, whether it was not acknowledged once). `fifo` holds whole lines that wait (R437); `ignore` says
that input is ignored until the next FS (R438); `means` are the luminance mean and stamp of the last valid frames
(R436). -/
structure Cam where
  cfg     : CamCfg := {}
  ring    : Option CamRing := none
  shadow  : Bytes := []
  taken   : Bytes := []
  pend    : Option (Nat × Bytes) := none
  applied : Nat × Bytes := (0, [])
  gen     : Nat := 0
  hist    : List Nat := []
  failed  : List Nat := []
  writing : Option (Nat × Nat × Bool) := none
  frame   : Option CamFrame := none
  next    : Nat := 0
  fifo    : List (List Nat) := []
  ignore  : Bool := true
  means   : List (Nat × Nat) := []
  deriving DecidableEq, Repr

/-- R439: a trim job: its command, quantity and element mask. -/
structure TrimJob where
  cmd  : Cmd
  q    : Nat
  mask : Nat
  deriving DecidableEq, Repr

/-- R437, R439–R442: the two cameras, the camera whose line was taken last, and the trim engine: the job running, the
jobs queued, lane offsets (signed mV) and ADC linearity tables of the elements that are not 0. -/
structure Trm where
  cams    : List Cam := [{}, {}]
  last    : Nat := 1
  running : Option TrimJob := none
  queue   : List TrimJob := []
  lanes   : List (Nat × Int) := []
  lin     : List (Nat × List Int) := []
  deriving DecidableEq, Repr

end Sys2Proof.Machine
end

