-- ==== Sys2Proof/Machine/Parts/Damper.lean ====
section
/-! DEFINITION. Plain-data parts of the state that belong to the damper (chapter "Dies, hierarchy and the damper
barrier"). -/

namespace Sys2Proof.Machine

/-- A return message waiting in a flue die's return queue (R25, R30). -/
structure RetMsg where
  ty    : Nat
  words : List Nat
  deriving DecidableEq, Repr

/-- What an outstanding damper access is for: a plain access, or one part of the flue part of a commit
(R29, R212; its number). -/
inductive AccessFor where
  | plain
  | commit (id : Nat)
  | shutdown
  deriving DecidableEq, Repr

/-- A damper access that awaits its REG_REPLY, with how often it has been resent. -/
structure Access where
  die     : Nat
  ty      : Nat
  words   : List Nat
  seq     : Nat
  resends : Nat
  why     : AccessFor
  deriving DecidableEq, Repr

/-- A COMMIT part held by a flue die (R29). -/
structure Part where
  num    : Nat
  last   : Bool
  values : List (Nat × Nat)
  deriving DecidableEq, Repr

/-- The parts of a COMMIT sequence that a flue die holds (R29): the sequence's frame and commit. -/
structure Held where
  frame : Nat
  id    : Nat
  parts : List Part
  deriving DecidableEq, Repr

/-- A COMMIT sequence sent to a flue die that no latch line has met yet (R212): its frame, its commit, the values it carries. -/
structure Sent where
  frame : Nat
  id    : Nat
  vals  : List (Nat × Nat)
  deriving DecidableEq, Repr

/-- One flue die's end of the damper (R25, R29): its return queue, the readings, credits and events that could not be
queued, the next SEQ of each return TYPE (R27), the parts held per sequence, the last sequences (frame, commit) it applied, the frame its last latch line
announced, the sequences it has counted late, and those sent to it that no latch line has met. -/
structure FlueEnd where
  queue   : List RetMsg := []
  tele    : List (Nat × Nat) := []
  credit  : List (Nat × Nat) := []
  event   : List Nat := []
  seq     : List (Nat × Nat) := []
  parts   : List Held := []
  applied : List (Nat × Nat) := []
  passed  : Option Nat := none
  late    : List (Nat × Nat) := []
  due     : List Sent := []
  deriving DecidableEq, Repr

/-- The damper (R22–R37): the return lane (none while the return channel is down), a reversal in progress, map changes that
the next marker round of a half makes (half, lost lane, its replacement; none: re-stripe), whether each flue die has lost the forward path, forward sequence
numbers per (die, TYPE), accesses awaiting an answer, credits per flue link, and the two flue ends. -/
structure Damper where
  ret      : Option Nat := none
  moving   : Option Nat := none
  lost     : List Bool := [false, false]
  fwdSeq   : List (Nat × Nat) := []
  waiting  : List Access := []
  credits  : List Nat := [0, 0, 0, 0, 0, 0, 0, 0]
  ends     : List FlueEnd := [{}, {}]
  plan     : List (Nat × Nat × Option Nat) := []
  deriving DecidableEq, Repr

end Sys2Proof.Machine
end

