-- ==== Sys2Proof/Machine/Parts/Ingot.lean ====
section
/-! DEFINITION. The state of a decompression in progress and of Ingot's contexts and jobs (chapter "Confidence encoder and
Ingot compression"), and of the confidence encoder's slots. -/

namespace Sys2Proof.Machine

/-- Where a decompressor stands in its stream (RFC 1950–1952): in the wrapper header (bytes so far), before a block
header, before the counts, code-length lengths or code lengths of a dynamic block (final flag first), before a stored
length, in a stored block (bytes left), in a Huffman block (literal and distance code lengths), in the trailer, at the
end. -/
inductive InfPhase where
  | head (got : Bytes)
  | block
  | counts (fin : Bool)
  | clens (fin : Bool) (hlit hdist hclen : Nat) (got : List Nat)
  | lens (fin : Bool) (hlit hdist : Nat) (cl : List Nat) (got : List Nat)
  | storedLen (fin : Bool)
  | stored (fin : Bool) (left : Nat)
  | codes (fin : Bool) (lit dist : List Nat)
  | trail (got : Bytes)
  | done
  deriving DecidableEq, Repr

/-- A decompressor: wrapper (0 raw, 1 zlib, 2 gzip), place, bits held, history newest first (32 KiB), bytes written, the
running Adler-32 (two sums) and the CRC-32 register. -/
structure Inf where
  wrap  : Nat
  phase : InfPhase
  bits  : List Bool := []
  hist  : Bytes := []
  total : Nat := 0
  adA   : Nat := 1
  adB   : Nat := 0
  crc   : Nat := 0xFFFFFFFF
  deriving DecidableEq, Repr

/-- R509: a host job. -/
structure IngJob where
  cmd    : Cmd
  op     : Nat
  wrap   : Nat
  level  : Nat
  final  : Bool
  resume : Bool
  src    : Nat
  dst    : Nat
  srcOff : Nat
  srcLen : Nat
  dstOff : Nat
  ctx    : Nat
  deriving DecidableEq, Repr

/-- R502, R504–R506: a compressor: the bytes taken so far (`sum`: their running checks and history), the history before the open
block, the open block, units not yet written, the bits of the final partial byte, and whether the final block has been formed. -/
structure Def where
  sum    : Inf
  before : Bytes := []
  block  : Bytes := []
  units  : List (List Bool) := []
  pend   : List Bool := []
  final  : Bool := false
  deriving DecidableEq, Repr

/-- R506: a context: its OP, WRAP and LEVEL, the decompressor of a decompression, the compressor of a compression. -/
structure IngCtx where
  op    : Nat
  wrap  : Nat
  level : Nat
  inf   : Inf
  comp  : Def
  deriving DecidableEq, Repr

/-- R503, R506: Ingot: the host job running, host jobs queued, and the contexts held, by number. -/
structure Ing where
  running : Option IngJob := none
  queue   : List IngJob := []
  ctxs    : List (Nat × IngCtx) := []
  deriving DecidableEq, Repr

end Sys2Proof.Machine
end

