-- ==== Sys2Proof/Machine/Parts/Link.lean ====
section
/-! DEFINITION. The state of the flue links' training and of eye scans and tap-tests that no register holds (chapter "Serial
lanes, flue links and damper lanes"). -/

namespace Sys2Proof.Machine

/-- R324–R327: a flue link: LOCKED, BLOCK_LOCKED and DESKEWED of the last STATUS, whether a HELLO has arrived since DETECT
began, lanes whose equalisation is done, header errors since CHECK began, whether the first entry into LISTEN since it was
enabled or ON has been reported, and the back-off of the next LISTEN in ms. -/
structure LinkCore where
  locked   : Nat := 0
  blocks   : Nat := 0
  deskewed : Bool := false
  heard    : Bool := false
  eqDone   : Nat := 0
  errs     : Nat := 0
  told     : Bool := false
  backoff  : Nat := 10
  deriving DecidableEq, Repr

/-- R338: an eye scan in progress: its command, lane (family × 256 + index), whether MAP, buffer and offset. -/
structure Scan where
  cmd    : Cmd
  lane   : Nat
  map    : Bool
  buffer : Nat
  offset : Nat
  deriving DecidableEq, Repr

/-- R339: a tap-test in progress. -/
structure Tap where
  cmd    : Cmd
  lane   : Nat
  vf     : Nat
  buffer : Nat
  thresh : Nat
  offset : Nat
  deriving DecidableEq, Repr

/-- Links, pending power requests (link, (state, command)), eye scans, tap-tests, how far the start-up sequence is (0 the
damper, 1–8 the next link), marker rounds sent per link (0–7 flue, 8, 9 damper halves, 10 the return lane). -/
structure Lnk where
  links   : List LinkCore := List.replicate 8 {}
  power   : List (Nat × (Nat × Option Cmd)) := []
  scans   : List Scan := []
  taps    : List Tap := []
  startup : Nat := 0
  rounds  : List Nat := List.replicate 11 0
  deriving DecidableEq, Repr

end Sys2Proof.Machine
end

