-- ==== Sys2Proof/Machine/Parts/Manage.lean ====
section
/-! DEFINITION. Plain-data parts of the state that belong to the Tinker cores, the thermal guard, the serial flash and
ash log, ageing and updates (chapter "Tinker management, thermal guard and ageing"), and to power, start-up and twin
mode (chapter "Power, start-up and fault budget"). -/

namespace Sys2Proof.Machine

/-- R449, R450, R465, R466: the two Tinker cores. `patchOf` is the patch level each runs (0 none). -/
structure Tnk where
  active    : Nat := 0
  standbyOk : Bool := false
  failed    : List Bool := [false, false]
  patchOf   : List Nat := [0, 0]
  slotOf    : List Nat := [0, 0]
  noManage  : Bool := false
  switchReq : List Cmd := []
  deriving DecidableEq, Repr

/-- R452, R453: a temperature sensor: the converted value (Q8.8 °C, signed) and count of the last sample, the judged
value, its state (0 working, 1 failed, 2 failed and acknowledged, 3 stale, R468), and how many rounds its count has been
identical and its checks passed. -/
structure Sensor where
  value  : Int := 0
  count  : Nat := 0
  prev   : Option Nat := none
  same   : Nat := 0
  good   : Nat := 0
  judged : Int := 0
  state  : Nat := 0
  deriving DecidableEq, Repr

/-- R451–R455: housekeeping readings (96 channels, raw 16 bits), how many rounds old each is, the 48 sensors, the
thermal level's second below its threshold (rounds), and thermal shutdown. -/
structure Thm where
  reading  : List (Nat × Nat) := []
  age      : List (Nat × Nat) := []
  sensors  : List (Nat × Sensor) := []
  below    : Nat := 0
  shutdown : Bool := false
  fluHalt  : List Bool := [false, false]
  bandgap  : List (Nat × Int) := []
  deriving DecidableEq, Repr

/-- R460: an ash log record, before its CRC. -/
structure AshRec where
  ty     : Nat
  level  : Nat
  flags  : Nat
  seq    : Nat
  time   : Nat
  boot   : Nat
  uptime : Nat
  frame  : Nat
  data   : Bytes
  deriving DecidableEq, Repr

/-- R458: a boot configuration copy by its fields. -/
structure BootCfg where
  gen   : Nat
  rate0 : Nat
  rate1 : Nat
  if16  : Bytes
  slot  : Nat
  fails : Nat
  deriving DecidableEq, Repr

/-- R464, R470: a patch slot: its state (0 empty, 1 verified, 2 invalid), LEVEL, KEY, whether it raises the floor, and
the image it holds. -/
structure PatchSlot where
  state : Nat := 0
  level : Nat := 0
  key   : Nat := 0
  raise : Bool := false
  image : Bytes := []
  deriving DecidableEq, Repr

/-- R456–R459: the serial flash as far as the device gives it meaning, and the record queue on the Mantel die. -/
structure Ash where
  queue    : List AshRec := []
  copyA    : List AshRec := []
  copyB    : List AshRec := []
  suspend  : Option Nat := none
  clearing : List Cmd := []
  boot     : List (Option BootCfg) := [none, none]
  slots    : List PatchSlot := [{}, {}]
  bootCnt  : Nat := 0
  corr     : List ((Nat × Nat) × Nat) := []
  deriving DecidableEq, Repr

/-- R461–R463, R468: ageing: AGE_SET, the host's samples not yet daily values, today's running values (measure, element) as (sum, count)
or (minimum, count), the latest daily value and the baseline of each, whether the next daily values set the baseline, the highest
APPLIED per lamp channel since the last re-plan, the equaliser last converged with CHECK passed of each flue lane (5n + p), the margin
of each link's eye at the last change (2n + 0 EYE_H, 1 EYE_V), AGE_REPLAN commands, whether the re-plan is postponed, and the time-stamp
on FREE of the last region fault, core switch or clock switch-over. -/
structure Age where
  advise   : Bool := false
  planAt   : Nat := 0
  mask     : Nat := 0
  ceiling  : Nat := 0x7FFF
  loops    : List Nat := []
  samples  : List (Nat × Nat) := []
  today    : List ((Nat × Nat) × Nat × Nat) := []
  daily    : List ((Nat × Nat) × Nat) := []
  base     : List (Nat × Nat) := []
  rebase   : Bool := true
  applied  : List (Nat × Nat) := []
  eqGood   : List (Nat × Nat) := []
  eqMargin : List (Nat × Nat) := []
  running  : List Cmd := []
  postponed : Bool := false
  hold     : Option Nat := none
  deriving DecidableEq, Repr

/-- R464–R466, R470: UPDATE_STAGE commands in progress, and the activation in progress: its command, slot, and how far it is (1 the
standby loads, 2 it is ready for the swap point, 3 swapped), and the MEDIA stamp at which the standby was ready. -/
structure Upd where
  staging   : List Cmd := []
  act       : Option (Cmd × Nat) := none
  phase     : Nat := 0
  readyAt   : Nat := 0
  deriving DecidableEq, Repr

/-- R512–R532: resets, start-up stages (0 once READY), power-fail inputs per flue die (index 0, 1), the refusal of R33,
the safe state, level-2 and level-3 faults counted, rounds each rail has been out of range, the VOUT_MODE exponent (5 bits) of each
regulator in linear mode (R515), and twin mode. -/
structure Pwr where
  hearthHeld : Bool := false
  flueHeld   : Bool := false
  resetAt    : Nat := 0
  stage      : Nat := 0x01
  ready      : Bool := false
  done       : List Nat := []
  lateHalf   : List Bool := [false, false]
  flueUp     : List Bool := [false, false]
  ownReset   : List Bool := [true, true]
  pfailN     : List Bool := [true, true]
  hvLow      : List Bool := [false, false]
  hvHigh     : List Bool := [false, false]
  refuse     : List Bool := [false, false]
  safe       : Bool := false
  faults     : Nat := 0
  railBad    : List (Nat × Nat) := []
  vexp       : List (Nat × Nat) := []
  twinRun    : Nat := 0
  twinMiss   : Nat := 0
  twinPeer   : Nat := 0
  twinStop   : List Bool := [false, false]
  deriving DecidableEq, Repr

/-- R13–R20: the die-to-die fabric: links 0–3 Mantel, 4–9 hob (pairs 01, 02, 03, 12, 13, 23), 10 the flue bridge. -/
structure FabLink where
  down  : Bool := false
  fails : Nat := 0
  good  : Nat := 0
  beats : Nat := 0
  deriving DecidableEq, Repr

/-- R17, R525: the fabric and the hob dies' failure: the condition met first for each hob die (a CAUSE of R19) and whether it
is declared failed, and the flits from each that its fenced links have discarded. -/
structure Fabric where
  links  : List (Nat × FabLink) := []
  cond   : List (Option Nat) := [none, none, none, none]
  failed : List Bool := [false, false, false, false]
  fenced : List Nat := [0, 0, 0, 0]
  deriving DecidableEq, Repr

end Sys2Proof.Machine
end

