-- ==== Sys2Proof/Machine/Parts/Memory.lean ====
section
/-! DEFINITION. Plain-data parts of the state that belong to hearth memory (chapter "Hearth memory (LPDDR5X)") and to clock
synthesis (chapter of that name). -/

namespace Sys2Proof.Machine

/-- R402, R409: a memory test in progress on a channel. -/
structure MemTest where
  cmd     : Cmd
  pattern : Nat
  flags   : Nat
  passes  : Nat
  user    : Nat
  deriving DecidableEq, Repr

/-- A memory channel: the lines written, by line address (address bits [33:6], R391), as 512-bit values; lines that read
uncorrectable (R392); the activate-count table, entry index to (row, count) (R396); distinct uncorrectable lines of the last second with
their time-stamps on FREE (R403); the test in progress; how many tests have written its test window, whose lines each leaves unknown (R402). -/
structure MemCh where
  lines  : List (Nat × Nat) := []
  bad    : List Nat := []
  act    : List (Nat × Nat × Nat) := []
  ueSeen : List (Nat × Nat) := []
  test   : Option MemTest := none
  era    : Nat := 0
  deriving DecidableEq, Repr

/-- R398–R400: a frequency change in progress: its command, the set named, the channels not yet changed, and whether
a channel fault has ended it. -/
structure FreqChange where
  cmd  : Cmd
  set_ : Nat
  left : List Nat
  over_ : Bool := false
  deriving DecidableEq, Repr

/-- Memory: the channels in use (number 4d + c), THRESHOLD, DIST and UE_LIMIT of a hob die that apply from the next
window (R410), a
frequency change, dies (hob number) whose channel recovery runs and what it still has to do (1 buffers, 2 map
mirror) (R400, R404), and the channels that hold each die's
planish replica (R89, R404). -/
structure Mem where
  chans   : List (Nat × MemCh) := []
  nbrNext : List (Nat × Nat × Nat × Nat) := []
  change  : Option FreqChange := none
  recover : List (Nat × Nat) := []
  maps    : List (List Nat) := [[0, 1], [0, 1], [0, 1], [0, 1]]
  deriving DecidableEq, Repr

/-- R416–R418, R426: a die's clocks: SPARE forced by the host, whether the return of R418 is in progress, the time-stamps on FREE of
MAIN's losses of lock in the last second, the commands that wait for the source to be reached, and the LFSR seed in use. -/
structure ClkDie where
  forced    : Bool := false
  returning : Bool := false
  losses    : List Nat := []
  waiting   : List Cmd := []
  seed      : Option Nat := none
  deriving DecidableEq, Repr

/-- R32, R421: a flue die's raster synthesizer: consecutive valid TIME_FWD messages, the frequency offsets (ppb) of the
last second with their time-stamps on FREE. -/
structure FlueSynth where
  valid : Nat := 0
  ppb   : List (Nat × Int) := []
  deriving DecidableEq, Repr

/-- Clocks: by die ID; the two raster synthesizers; the flue dies' copies of MEDIA differ from MEDIA by `copy` (2^-16 ns). -/
structure Clk where
  dies  : List (Nat × ClkDie) := []
  synth : List FlueSynth := [{}, {}]
  copy  : List Int := [0, 0]
  deriving DecidableEq, Repr

end Sys2Proof.Machine
end

