-- ==== Sys2Proof/Machine/Parts/Net.lean ====
section
/-! DEFINITION. Plain-data parts of the state that belong to the media network ports, the path pairs and the time bases (chapter
"Media network ports and time bases"). -/

namespace Sys2Proof.Machine

/-- R373: a port's MODE and FLAGS. -/
structure PortCfg where
  mode  : Nat := 0
  flags : Nat := 0
  deriving DecidableEq, Repr

/-- R351, R374: what an interface is set to. -/
structure IfCfg where
  vlan     : Nat := 0
  addr     : Nat := 0
  pfx      : Nat := 0
  gw       : Nat := 0
  mgmtVlan : Nat := 0
  mgmtAddr : Nat := 0
  mgmtPfx  : Nat := 0
  deriving DecidableEq, Repr

/-- R360: a packet held: extended sequence number, RTP timestamp, arrival on FREE, marker bit, whether it carries DONL fields (R110), and
payload. -/
structure HeldPkt where
  seq  : Nat
  ts   : Nat
  at_  : Nat
  mark : Bool
  donl : Bool
  data : Bytes
  deriving DecidableEq, Repr

/-- R357, R360, R361: the reception of a source (slot, descriptor index): the locked SSRC and the arrival of its last packet,
the highest extended number, `next`, the packets held, arrivals of first copies (number, path, FREE), the last arrival on
each path and which paths are DOWN; a fragmentation unit in progress (R110), the last VPS, and the timestamps of the open access unit or
picture and of the last picture closed (R110, R356). -/
structure SrcRx where
  ssrc   : Option Nat := none
  ssrcAt : Nat := 0
  high   : Option Nat := none
  next   : Option Nat := none
  held   : List HeldPkt := []
  first  : List (Nat × Nat × Nat) := []
  last   : List (Option Nat) := [none, none]
  down   : List Bool := [false, false]
  frag   : Option Bytes := none
  vps    : Bytes := []
  openTs : Option Nat := none
  closed : Option Nat := none
  deriving DecidableEq, Repr

/-- R377: the counters of a path pair that no register holds. -/
structure PairCnt where
  firstA   : Nat := 0
  firstB   : Nat := 0
  mismatch : Nat := 0
  secondA  : Nat := 0
  secondB  : Nat := 0
  resync   : Nat := 0
  deriving DecidableEq, Repr

/-- Ports, interfaces, ANVIL_GROUP, path pairs, the reception of each source (key: slot × 32 + index), the interfaces whose
querier speaks IGMPv2 only, frames received per interface (R376), and the ARP cache (interface × 2^32 + address to MAC)
(R349–R361). -/
structure Net where
  ports  : List PortCfg := [{}, {}, {}, {}, {}]
  ifs    : List (Nat × IfCfg) := []
  group  : Nat := 0xEFFF5654
  pairs  : List PairCnt := [{}, {}, {}, {}, {}, {}, {}, {}]
  rx     : List (Nat × SrcRx) := []
  igmpV2 : List Nat := []
  frames : List (Nat × Nat) := []
  arp    : List (Nat × Nat) := []
  deriving DecidableEq, Repr

/-- R366: a master heard: its interface, source port identity, data set (priority 1, class, accuracy, variance, priority 2),
grandmaster identity, steps removed, and its IPv4 address. -/
structure Master where
  iface : Nat
  port  : Nat
  pri1  : Nat
  cls   : Nat
  acc   : Nat
  var   : Nat
  pri2  : Nat
  gm    : Nat
  steps : Nat
  addr  : Nat
  deriving DecidableEq, Repr

/-- R383: a sample record: SEQ and t1–t4 (short forms of MEDIA). -/
structure PtpSample where
  seq : Nat
  t1  : Nat
  t2  : Nat
  t3  : Nat
  t4  : Nat
  deriving DecidableEq, Repr

/-- R365–R368, R381–R383: PTP: settings, masters heard and the one followed, runs of Syncs inside and far outside the lock
limit, the last Sync's t1 and t2, a two-step Sync that waits for its Follow_Up (sequence number, source port, t2), the Delay_Req
outstanding (sequence number, t3) and how many went unanswered in a row, path delays of the last 16 exchanges, sample
records and the next SEQ, messages discarded, whether the metadata TLV is held, FREE at the entry into HOLDOVER and at the loss of the last
master, increments set in the last 64 s of LOCKED (FREE, INCR), the seconds for the next PPS edge, and the last edge. -/
structure Ptp where
  domain   : Nat := 127
  ifA      : Nat := 16
  ifB      : Nat := 0xFF
  flags    : Nat := 0
  lockNs   : Nat := 100
  hold     : Nat := 60
  annT     : Nat := 3
  masters  : List Master := []
  master   : Option Master := none
  good     : Nat := 0
  bad      : Nat := 0
  sync     : Option (Nat × Nat) := none
  twoStep  : Option (Nat × Nat × Nat) := none
  req      : Option (Nat × Nat) := none
  reqSeq   : Nat := 0
  noAnswer : Nat := 0
  delays   : List Int := []
  samples  : List PtpSample := []
  next     : Nat := 0
  discard  : Nat := 0
  tlv      : Bool := false
  heldAt   : Option Nat := none
  lostAt   : Option Nat := none
  incrs    : List (Nat × Nat) := []
  ppsSec   : Option Nat := none
  ppsLast  : Option Nat := none
  deriving DecidableEq, Repr

/-- R369, R384: a pulse output, whether the one-shot has fired, the pulse from which it runs (a short form), and from when (FREE) it applies. -/
structure Tpo where
  mode   : Nat := 0
  base   : Nat := 0
  flags  : Nat := 0
  start  : Nat := 0
  period : Nat := 0
  width  : Nat := 0
  fired  : Bool := false
  first  : Nat := 0
  since  : Nat := 0
  deriving DecidableEq, Repr

/-- R370, R385: a capture record: SEQ, EDGE and the stamps on the four bases. -/
structure CapRec where
  seq    : Nat
  edge   : Nat
  stamps : List Nat
  deriving DecidableEq, Repr

/-- R370, R385: a capture input: its setting, records held, the next SEQ, the last accepted edge on FREE, and whether a step has closed its window (R364). -/
structure Tci where
  edge    : Nat := 0
  base    : Nat := 0
  window  : Bool := false
  opens   : Nat := 0
  closes  : Nat := 0
  fifo    : List CapRec := []
  seq     : Nat := 0
  last    : Option Nat := none
  shut    : Bool := false
  deriving DecidableEq, Repr

/-- Time bases (R362): MEDIA, LOCAL, WALL and FREE in 2^-32 ns, their increments in effect in the same unit, PTP, pulse outputs and capture inputs. -/
structure TimeSt where
  t     : List Nat := [0, 0, 0, 0]
  incr  : List Nat := [0x666666666, 0x666666666, 0x666666666, 0x666666666]
  ptp   : Ptp := {}
  tpo   : List Tpo := [{}, {}, {}, {}, {}, {}, {}, {}]
  tpoOld : List Tpo := [{}, {}, {}, {}, {}, {}, {}, {}]
  tci   : List Tci := [{}, {}, {}, {}, {}]
  deriving DecidableEq, Repr

end Sys2Proof.Machine
end

