-- ==== Sys2Proof/Machine/Parts/Out.lean ====
section
/-! DEFINITION. What leaves the device, as plain data. The model keeps it in a log, newest first (`Dev.out`). -/

namespace Sys2Proof.Machine

/-- One thing the device has sent or driven. -/
inductive Output where
  /-- An Anvil packet on a network route, with the reply's delay of R52 in microseconds, and the next hop (R351). -/
  | anvil (route : Route) (pkt : Pkt) (delayUs hop : Nat)
  /-- Bytes driven on CP_SDO in a READ or STATUS transaction (R45). -/
  | sdo (bytes : Bytes)
  /-- A fault descriptor, to both Tinker cores (R19). -/
  | desc (word : Nat)
  /-- A UDP datagram that is not Anvil: the interface, the next hop (R351), the destination, source and destination ports and the payload. -/
  | udp (iface hop dst sport dport : Nat) (bytes : Bytes)
  /-- An RTP packet of a confidence stream (R496): interface, next hop, destination, source and destination ports, DSCP, bytes. -/
  | rtp (iface hop dst sport dport dscp : Nat) (bytes : Bytes)
  /-- A forward damper message (R27, R28): the damper half and the blocks, as (sync header 0b10, 64 bits). -/
  | damper (half : Nat) (blocks : List (Bool × Nat))
  /-- A return message (R27, R30): the return lane and the blocks. -/
  | back (lane : Nat) (blocks : List (Bool × Nat))
  /-- A line of a flue link (R230, R264): blocks as (control, 64 bits); the IDLE block that ends it stands for all up to the next line
  (log entry 178). -/
  | line (link line : Nat) (blocks : List (Bool × Nat))
  /-- A pulse on FSYNC_OUT: the MEDIA times of its edges in 2^-16 ns (R217). -/
  | fsync (rise fall : Nat)
  /-- A park step on a flue link (R247): its FILM_ROW and FILM_GO blocks, which follow the LINE blocks of the lines they fall in. -/
  | park (link : Nat) (blocks : List (Bool × Nat))
  /-- A sensor register write on a camera port's CCI master: port, sensor address, register, value (R430). -/
  | cci (port addr reg value : Nat)
  /-- A frame of the master on a lamp bus segment (R272, R273): preamble, delimiter, header, payload, CRC-8. -/
  | lamp (seg : Nat) (bytes : Bytes)
  /-- A control block of the lane layer (R321, R324, R325): link (8, 9 damper halves, 10 return), physical lane, 64 bits. -/
  | lane (link phys word : Nat)
  /-- An Ethernet frame on an interface (ARP and ICMP replies, R351, R352). -/
  | eth (iface : Nat) (bytes : Bytes)
  /-- An IGMP membership report: interface, version, groups joined (R351). -/
  | igmp (iface version : Nat) (groups : List Nat)
  /-- A line of memory returned to its requester, with its uncorrectable mark: die, channel, line address (R392). -/
  | memLine (die chan line : Nat) (bad : Bool) (data : Nat)
  /-- A PMBus word write: whether on the flue PMBus, address, command, value (R515). -/
  | pmbus (flue : Bool) (addr cmd value : Nat)
  deriving DecidableEq, Repr

end Sys2Proof.Machine
end

