-- ==== Sys2Proof/Machine/State.lean ====
section
/-! DEFINITION. The state of the TQ-880: the device (`Dev`), the object heap of surfaces and bulk buffers (`Heap`), and
the queue of commands that wait. Everything is plain data. -/

namespace Sys2Proof.Machine

/-- A register file: the registers that do not hold their reset value, as (address, value), addresses rising (R10). -/
abbrev RegFile := List (Nat × Word)

/-- The device but for the object heap. `regs` is the home of every register that no other part holds; `shadow` and
`bound` hold the shadow copy of the RS registers and the value in effect (R10). `fns` holds the functions of R55 that are not OFF
and idle, by their number; the network ports are enabled at reset (R350). `out` is what left the device, newest
first; `free` is the model's own counter for free values. -/
structure Dev where
  regs   : RegFile := []
  shadow : RegFile := []
  bound  : RegFile := []
  anvil  : Anvil := {}
  cp     : Cp := {}
  ev     : EvCtl := {}
  fab    : Fabric := {}
  dmp    : Damper := {}
  tnk    : Tnk := {}
  thm    : Thm := {}
  ash    : Ash := {}
  age    : Age := {}
  upd    : Upd := {}
  pwr    : Pwr := {}
  time   : TimeSt := {}
  net    : Net := {}
  mem    : Mem := {}
  clk    : Clk := {}
  dec    : Dec := {}
  lay    : Lay := {}
  pm     : Planish := {}
  syn    : Syn := {}
  ras    : Ras := {}
  trm    : Trm := {}
  flu    : List FlueData := [{}, {}]
  film   : Film := {}
  curves : Curves := {}
  lamp   : Lamp := {}
  lnk    : Lnk := {}
  ing    : Ing := {}
  blw    : Bellows := {}
  conf   : Encoder := {}
  mode   : Nat := 0
  frame  : Nat := 0
  fns    : List (Nat × Fn) := [(0x3100, { st := .on }), (0x3101, { st := .on }), (0x3102, { st := .on }), (0x3103, { st := .on }),
    (0x3104, { st := .on })]
  out    : List Output := []
  free   : Nat := 0
  deriving DecidableEq, Repr

/-- A meaning never stops the machine with a fault: what the spec calls a fault is a descriptor, a status or a state of
the device. The one constructor is not raised by any meaning; it is the closed type the interface asks for. Safe. -/
inductive Fault where
  | none_
  deriving DecidableEq, Repr

/-- The refusals. `notModelled` is given by the dispatcher alone, for a command that has no meaning yet (safe: the
machine stops by name). -/
inductive Refusal where
  | notModelled (mnemonic : String)
  deriving DecidableEq, Repr

/-- The machine: the device, the object heap, and the commands that wait, first in first out. -/
structure State where
  dev     : Dev
  heap    : Heap
  pending : List Instr
  deriving DecidableEq, Repr

/-- The block right after reset (R512): every register at the reset value of its row, no session open, no object, nothing
waiting; the device is not READY. -/
def State.reset : State := { dev := {}, heap := {}, pending := [] }

end Sys2Proof.Machine
end

