-- ==== Sys2Proof/Machine/Ops.lean ====
section
/-! DEFINITION. The operations every family shares: sorted maps, the register store, time, event sources (R472–R478),
fault descriptors (R19), ash log records (R459, R460), replies, completion events and notifications (R41, R46, R49,
R58), and function requests (R55). -/

namespace Sys2Proof.Machine

/-- A quotient whose rounding the spec does not state: exact where it is whole, otherwise one of its two neighbours
(log entry 5). -/
def roundFree (n d : Int) : Int := if n % d = 0 then n / d else n / d + (if Config.roundsUp n d then 1 else 0)

/-- A value held within bounds. -/
def clampI (lo hi v : Int) : Int := if v < lo then lo else if v > hi then hi else v

/-! Sorted maps: lists of (key, value), keys rising. -/

/-- The value at a key, or `d` where none is listed. -/
def amGet {α : Type} (m : List (Nat × α)) (k : Nat) (d : α) : α :=
  match m with
  | [] => d
  | (j, v) :: r => if j = k then v else amGet r k d

/-- The map with `v` at key `k`. -/
def amPut {α : Type} (m : List (Nat × α)) (k : Nat) (v : α) : List (Nat × α) :=
  match m with
  | [] => [(k, v)]
  | (j, w) :: r => if k < j then (k, v) :: (j, w) :: r else if k = j then (k, v) :: r else (j, w) :: amPut r k v

/-- The map without key `k`. -/
def amDel {α : Type} (m : List (Nat × α)) (k : Nat) : List (Nat × α) := m.filter fun e => e.1 ≠ k

/-- The map with `f` applied to the value at `k` (`d` where none is listed). -/
def amMod {α : Type} (m : List (Nat × α)) (k : Nat) (d : α) (f : α → α) : List (Nat × α) := amPut m k (f (amGet m k d))

/-- A list of (key, value) with a key's value set. -/
def kvPut {α β : Type} [DecidableEq α] (l : List (α × β)) (k : α) (v : β) : List (α × β) :=
  if l.any fun e => e.1 = k then l.map fun e => if e.1 = k then (k, v) else e else l ++ [(k, v)]

/-- The value of a key in such a list. -/
def kvGet {α β : Type} [DecidableEq α] (l : List (α × β)) (k : α) : Option β := (l.find? fun e => e.1 = k).map (·.2)

/-! The register store. -/

/-- The kind of a die ID as the register tables write it: 1 Mantel, 2 hob, 4 flue; 0 for an unused ID (R4). -/
def dieKind (die : Nat) : Nat :=
  if die = 0 then 1 else if 1 ≤ die ∧ die ≤ 4 then 2 else if die = 8 ∨ die = 9 then 4 else 0

/-- A row covers a byte offset: one of its copies lies there. -/
def RegRow.covers (r : RegRow) (off : Nat) : Bool :=
  r.base ≤ off &&
    (let d := off - r.base
     let i := if r.s1 = 0 then 0 else d / r.s1
     let m := if r.s1 = 0 then d else d % r.s1
     let j := if r.s2 = 0 then 0 else m / r.s2
     let z := if r.s2 = 0 then m else m % r.s2
     i < r.n1 && j < r.n2 && z == 0)

/-- The row of the register at (die, block, offset), if it names one. -/
def regRow? (die blk off : Nat) : Option RegRow :=
  (regRows blk).find? fun r => r.dies &&& dieKind die ≠ 0 && r.covers off

/-- The register address of an offset-with-block on a die (R10). -/
def regAddr (die off : Nat) : Nat := off + 2 ^ 28 * die

/-- Hold-off of a group at reset, in µs (R473). -/
def groupHoldoff (g : Nat) : Nat := if g = 2 then 100 else if g = 4 then 1000 else 0

/-- The reset value of the register at an address: that of its row, or the value a rule gives by index or die
(R413 for CLK_SEED, R473 and R482 for IRQ_GROUP, R515 for the flue PMBus bit of PWR_VID). -/
def regReset (a : Nat) : Word :=
  let die := a / 2 ^ 28 % 16
  let blk := a / 2 ^ 20 % 256
  let off := a % 2 ^ 20
  if blk = 0x34 ∧ off = 8 then BitVec.ofNat 32 (0xACE1 ^^^ die)
  else if blk = 0x0E ∧ 0x100 ≤ off ∧ off < 0x180 then
    let g := (off - 0x100) / 4
    BitVec.ofNat 32 (groupHoldoff g + (if g = 0 then 7 * 65536 else 0) + (if g ≤ 10 then 2 ^ 24 else 0))
  else if blk = 0x71 ∧ die = 0 ∧ (off = 0x54 ∨ off = 0x58) then 0x80
  else match regRow? die blk off with
    | some r => BitVec.ofNat 32 r.reset
    | none => 0

/-- A register file's value at an address: the listed one, or the reset value. -/
def rfGet (f : RegFile) (a : Nat) : Word := amGet f a (regReset a)

/-- A register file with a value at an address, in canonical form: the reset value is not listed. -/
def rfSet (f : RegFile) (a : Nat) (v : Word) : RegFile := if v = regReset a then amDel f a else amPut f a v

/-- A word with the bits of a field replaced (R7: a value is cut to the field's width). -/
def setBits (w : Word) (hi lo : Nat) (v : Nat) : Word :=
  let n := hi + 1 - lo
  let mask : Word := BitVec.ofNat 32 ((2 ^ n - 1) * 2 ^ lo)
  (w &&& ~~~mask) ||| BitVec.ofNat 32 (v % 2 ^ n * 2 ^ lo)

/-- A field's value in the register store. -/
def Dev.rd (d : Dev) (die : Nat) (f : Fld) : Nat := bits (rfGet d.regs (regAddr die f.off)).toNat f.hi f.lo

/-- A field set in the register store. -/
def Dev.wr (d : Dev) (die : Nat) (f : Fld) (v : Nat) : Dev :=
  let a := regAddr die f.off
  { d with regs := rfSet d.regs a (setBits (rfGet d.regs a) f.hi f.lo v) }

/-- The shadow copy of an RS field (R10). -/
def Dev.rdS (d : Dev) (die : Nat) (f : Fld) : Nat := bits (rfGet d.shadow (regAddr die f.off)).toNat f.hi f.lo

/-- The shadow copy of an RS field written (R10). -/
def Dev.wrS (d : Dev) (die : Nat) (f : Fld) (v : Nat) : Dev :=
  let a := regAddr die f.off
  { d with shadow := rfSet d.shadow a (setBits (rfGet d.shadow a) f.hi f.lo v) }

/-- The value of an RS field in effect (R10). -/
def Dev.rdB (d : Dev) (die : Nat) (f : Fld) : Nat := bits (rfGet d.bound (regAddr die f.off)).toNat f.hi f.lo

/-- The value of an RS field in effect changed. -/
def Dev.wrB (d : Dev) (die : Nat) (f : Fld) (v : Nat) : Dev :=
  let a := regAddr die f.off
  { d with bound := rfSet d.bound a (setBits (rfGet d.bound a) f.hi f.lo v) }

/-- A signed field's value. -/
def Dev.rdI (d : Dev) (die : Nat) (f : Fld) : Int := signed (f.hi + 1 - f.lo) (d.rd die f)

/-- A counter advanced by `n`, saturating at its width. -/
def Dev.bump (d : Dev) (die : Nat) (f : Fld) (n : Nat := 1) : Dev :=
  d.wr die f (min (d.rd die f + n) (2 ^ (f.hi + 1 - f.lo) - 1))

/-- A high-water register raised to `v` where `v` is higher. -/
def Dev.hwm (d : Dev) (die : Nat) (f : Fld) (v : Nat) : Dev := d.wr die f (max (d.rd die f) (min v (2 ^ (f.hi + 1 - f.lo) - 1)))

/-- Registers at offsets `lo`, `lo + 4`, … below `hi` of a block set to 0 (the WO clear registers). -/
def Dev.clearRange (d : Dev) (die blk lo hi : Nat) : Dev :=
  { d with regs := d.regs.filter fun e => ¬(regAddr die (blk * 2 ^ 20 + lo) ≤ e.1 ∧ e.1 < regAddr die (blk * 2 ^ 20 + hi)) }

/-- The same field written on several dies. -/
def Dev.wrAll (d : Dev) (dies : List Nat) (f : Fld) (v : Nat) : Dev := dies.foldl (fun d k => d.wr k f v) d

/-- A 48-bit frame number written to a LO and a HI register. -/
def Dev.wrLoHi (d : Dev) (die : Nat) (lo hi : Fld) (v : Nat) : Dev := (d.wr die lo v).wr die hi (v / 2 ^ 32)

/-- A number held in a LO and a HI register. -/
def Dev.rdLoHi (d : Dev) (die : Nat) (lo hi : Fld) : Nat := d.rd die lo + 2 ^ 32 * d.rd die hi

def hobDies : List Nat := [1, 2, 3, 4]
def flueDies : List Nat := [8, 9]

/-- A free value, and the device with its counter advanced (log entry 3). -/
def Dev.freeVal (d : Dev) (w : Nat) : Nat × Dev :=
  ((Config.freeValue d.free).toNat % 2 ^ w, { d with free := d.free + 1 })

/-! Time (R362): the bases MEDIA 0, LOCAL 1, WALL 2, FREE 3 in units of 2^-32 ns. -/

/-- A base's value. -/
def Dev.now (d : Dev) (b : Nat) : Nat := d.time.t.getD b 0

/-- A base's short form: nanoseconds in [63:16], fraction in [15:0] (R58). -/
def Dev.short (d : Dev) (b : Nat) : Nat := d.now b / 2 ^ 16 % 2 ^ 64

/-- MEDIA in 2^-16 ns, counted from the PTP epoch. -/
def Dev.media (d : Dev) : Nat := d.now 0 / 2 ^ 16

/-- FREE as a time-stamp: nanoseconds with 16 bits of fraction (R11). -/
def Dev.stamp (d : Dev) : Nat := d.now 3 / 2 ^ 16

/-- R11: a time-stamp lies within the `ns` nanoseconds before now: a half-open window, all bits compared. -/
def Dev.within (d : Dev) (t ns : Nat) : Bool := decide (d.stamp - t < ns * 2 ^ 16)

/-- Milliseconds since reset release (R56, R61, R460). -/
def Dev.elapsedMs (d : Dev) : Nat := (d.stamp - d.pwr.resetAt) / (1000000 * 2 ^ 16)

/-- R462: a region fault, core switch or clock switch-over: re-planning waits 60 s. -/
def Dev.unsettled (d : Dev) : Dev := { d with age := { d.age with hold := some d.stamp } }

/-- One thing leaves the device. -/
def Dev.send (d : Dev) (o : Output) : Dev := { d with out := o :: d.out }

/-! Event sources (R472–R478). -/

/-- R473: the source is assigned. -/
def srcAssigned (s : Nat) : Bool :=
  let i := s % 32
  match s / 32 with
  | 0 => i ≤ 16
  | 1 => i ≤ 2
  | 2 => i = 0
  | 3 => i ≤ 1
  | 4 => i ≤ 24
  | 5 => i ≤ 13
  | 6 => i ≤ 15
  | 7 => i ≤ 15
  | 8 => i ≤ 1
  | 9 => i ≤ 5
  | 10 => i ≤ 5
  | _ => false

/-- R473: the source is of level type. -/
def srcIsLevel (s : Nat) : Bool := s = 33 ∨ (128 ≤ s ∧ s ≤ 144)

def Dev.src (d : Dev) (s : Nat) : Src := amGet d.ev.srcs s {}
def Dev.setSrc (d : Dev) (s : Nat) (v : Src) : Dev := { d with ev := { d.ev with srcs := amPut d.ev.srcs s v } }
def Dev.grp (d : Dev) (g : Nat) : Grp := amGet d.ev.grps g {}
def Dev.setGrp (d : Dev) (g : Nat) (v : Grp) : Dev := { d with ev := { d.ev with grps := amPut d.ev.grps g v } }

/-- The PENDING sources of a group, rising. -/
def Dev.pendingOf (d : Dev) (g : Nat) : List Nat :=
  (d.ev.srcs.filter fun e => e.1 / 32 = g && e.2.st = 1).map (·.1)

/-- R478: a group that is enabled, not HELD and has a PENDING source opens: those sources form its batch, and with a
hold-off it is HELD until FREE reaches the end of the window. A source PENDING at the instant of the opening is in the
batch, whichever came first. -/
def Dev.openGroup (d : Dev) (g : Nat) : Dev :=
  let x := d.grp g
  let h := d.rd 0 (R.IRQ_GROUP_HOLDOFF g)
  if d.rd 0 (R.IRQ_GROUP_ENABLE g) = 0 ∨ (x.until_ ≠ none ∧ x.opened ≠ d.now 3) ∨ d.pendingOf g = [] then d
  else d.setGrp g {
    batch := d.pendingOf g
    until_ := if x.until_ ≠ none then x.until_ else if h = 0 then none else some (d.now 3 + h * 1000 * 2 ^ 32)
    opened := d.now 3 }

/-- R474: a raise of an assigned source, stamped on MEDIA. -/
def Dev.raiseAt (d : Dev) (s media : Nat) : Dev :=
  let v := d.src s
  let v := { v with
    count := min (v.count + 1) 65535
    first := if v.count = 0 then media else v.first
    st := if v.st = 0 then 1 else v.st
    rep := v.rep || v.st = 2 }
  (d.setSrc s v).openGroup (s / 32)

/-- R472, R481: a doorbell or EVENT naming a source: unassigned ones are counted; while the Tinker clock domain is
stopped the raise waits in the wake FIFO with its stamps. -/
def Dev.raise (d : Dev) (s : Nat) : Dev :=
  if ¬ srcAssigned s then d.bump 0 R.IRQ_UNASSIGNED
  else if d.ev.asleep then { d with ev := { d.ev with wake := d.ev.wake ++ [(s, d.short 0, d.now 3)] } }
  else d.raiseAt s (d.short 0)

/-- The level of a level source changes; a rise raises it (R473). -/
def Dev.setLevel (d : Dev) (s : Nat) (high : Bool) : Dev :=
  let was := (d.src s).level
  let d := if was = high then d else d.setSrc s { d.src s with level := high }
  if high && !was then d.raise s else d

/-- R478: the source is claimable: PENDING and in its group's batch (any PENDING source of an open group when HOLDOFF
is 0), in an enabled group. -/
def Dev.claimable (d : Dev) (s : Nat) : Bool :=
  (d.src s).st = 1 && d.rd 0 (R.IRQ_GROUP_ENABLE (s / 32)) = 1 && (d.grp (s / 32)).batch.contains s

/-- The event source by which a flue die reports its raster, its lamp segment, or a link (R473). -/
def rasterSource (f : Nat) : Nat := if f = 0 then 288 else 320
def lampSource (f : Nat) : Nat := if f = 0 then 289 else 321
def linkSource (n : Nat) : Nat := if n < 4 then 290 + n else 318 + n

/-! The ash log (R459, R460). -/

/-- A record queued: dropped and counted when only the place kept for SHUTDOWN is left. -/
def Dev.ashPut (d : Dev) (ty level : Nat) (data : Bytes) : Dev :=
  let lim := if ty = 0x0006 then 256 else 255
  if d.ash.queue.length ≥ lim then d.bump 0 R.ASH_LOST
  else
    let seq := d.rd 0 R.ASH_NEXT
    let r : AshRec := {
      ty := ty, level := level, flags := b2n (d.tnk.patchOf.getD d.tnk.active 0 ≠ 0), seq := seq, time := d.short 0,
      boot := d.ash.bootCnt, uptime := d.elapsedMs % 2 ^ 32, frame := d.frame, data := slice data 0 24 }
    let d := { d with ash := { d.ash with queue := d.ash.queue ++ [r] } }
    d.wr 0 R.ASH_NEXT (seq + 1)

/-- The 64 bytes of a record: structures in memory are least significant byte first (R8, R460). -/
def AshRec.bytes (r : AshRec) : Bytes :=
  let b := encLe 2 r.ty ++ encLe 1 r.level ++ encLe 1 r.flags ++ encLe 4 r.seq ++ encLe 8 r.time ++ encLe 4 r.boot
    ++ encLe 4 r.uptime ++ encLe 8 r.frame ++ slice r.data 0 24 ++ zeros 4
  b ++ encLe 4 (crc32c b)

/-! Fault descriptors (R19). -/

/-- R19: the 64-bit descriptor. -/
def descWord (level die blk unit cause action detail : Nat) : Nat :=
  level * 2 ^ 62 + die * 2 ^ 58 + blk * 2 ^ 50 + unit * 2 ^ 40 + cause * 2 ^ 32 + action * 2 ^ 30 + detail % 2 ^ 16

/-- R19: a descriptor is issued. A cell-level corrected fault is counted per block; a block-level or higher one is
logged and raises the source of its die in group 0 (R473), which the host receives in an event packet. `extra` is the
16 bytes the owning chapter adds to the FAULT record. -/
def Dev.descriptor (d : Dev) (level die blk unit cause action detail : Nat) (extra : Bytes := []) : Dev :=
  let w := descWord level die blk unit cause action detail
  let d := d.send (.desc w)
  if level = 0 then
    let k := ((die, blk), 1)
    let l := if d.ash.corr.any (·.1 == (die, blk))
      then d.ash.corr.map fun e => if e.1 = (die, blk) then (e.1, e.2 + 1) else e
      else d.ash.corr ++ [k]
    { d with ash := { d.ash with corr := l } }
  else
    let d := d.ashPut 0x0001 level (encLe 8 w ++ extra)
    let d := if level ≥ 2 then { d with pwr := { d.pwr with faults := min (d.pwr.faults + 1) (2 ^ 32 - 1) } } else d
    d.raise die

/-! Packets (R38–R49). -/

/-- R38, R40, R49: the bytes of a packet the device sends. -/
def Pkt.bytes (p : Pkt) : Bytes :=
  let flags := 128 * b2n p.reply + 64 * b2n p.event + 32 * b2n p.key.isSome + 16 * b2n p.noSession + p.session
  let hp := enc 2 0x5654 ++ [0x01] ++ enc 1 flags ++ enc 2 p.op ++ enc 2 p.seq ++ enc 2 p.tid ++ enc 2 p.body.length
    ++ enc 4 p.tag ++ p.body
  let w := withCrc hp
  match p.key with
  | none => w
  | some k => w ++ hmac k w

/-- The bytes a packet takes (R38). -/
def Pkt.size (p : Pkt) : Nat := 20 + p.body.length + (if p.key.isSome then 32 else 0)

/-- R38, R40: the bytes of a received command up to its CRC, which its MAC covers (R49). -/
def macInput (h : Hdr) (op : Nat) (p : Bytes) : Bytes :=
  let flags := 32 * b2n h.mac.isSome + 16 * b2n h.noSession + 8 * b2n h.ordered + 4 * b2n h.quiet + h.session
  withCrc (enc 2 0x5654 ++ enc 1 h.version ++ enc 1 flags ++ enc 2 op ++ enc 2 h.seq ++ enc 2 (h.tmode * 16384 + h.tid)
    ++ enc 2 p.length ++ enc 4 h.tag ++ p)

/-- The capacity of the control port's outbound queue (R46). -/
def cpOutCap : Nat := 65536

def outFill (q : List Pkt) : Nat := q.foldl (fun n p => n + p.size) 0

/-- R46: the oldest event packets leave the queue until `need` bytes fit, as far as there are any. -/
def dropEvents : Nat → Nat → List Pkt → List Pkt
  | 0, _, q => q
  | n + 1, need, q =>
    if outFill q + need ≤ cpOutCap then q
    else match q.findIdx? (·.event) with
      | none => q
      | some i => dropEvents n need (q.eraseIdx i)

/-- R46: held replies enter the outbound queue in the order they were produced, as room for them appears; the oldest
event packets are discarded to make room. -/
def enqueueHeld : Nat → Cp → Cp
  | 0, c => c
  | n + 1, c =>
    match c.held with
    | [] => c
    | r :: rest =>
      let q := dropEvents c.outbound.length r.size c.outbound
      if outFill q + r.size ≤ cpOutCap then enqueueHeld n { c with outbound := q ++ [r], held := rest }
      else { c with outbound := q }

/-- R46: a reply for the control port: it enters the queue after those held before it. -/
def Cp.putReply (c : Cp) (r : Pkt) : Cp := enqueueHeld (c.held.length + 1) { c with held := c.held ++ [r] }

/-- R46: an event packet for the control port: discarded while a reply is held or when it finds no room. -/
def Cp.putEvent (c : Cp) (e : Pkt) : Cp :=
  if c.held ≠ [] then c
  else
    let q := dropEvents c.outbound.length e.size c.outbound
    if outFill q + e.size ≤ cpOutCap then { c with outbound := q ++ [e] } else { c with outbound := q }

def Dev.sess (d : Dev) (n : Nat) : Session := d.anvil.sess.getD n {}
def Dev.setSess (d : Dev) (n : Nat) (s : Session) : Dev := { d with anvil := { d.anvil with sess := d.anvil.sess.set n s } }

/-- R351: IF 16 without a stored setting has a link-local address. -/
def linkLocal : IfCfg := { addr := 0xA9FE0000 + Config.linkLocalHost.toNat, pfx := 16 }

/-- R351: the setting of an interface. -/
def Dev.ifCfg (d : Dev) (i : Nat) : IfCfg := amGet d.net.ifs i (if i = 16 then linkLocal else {})

/-- R351: where an IPv4 packet is sent to: a destination outside the prefix of the interface's address (its management address where `mgmt`) goes
to the gateway. -/
def Dev.nextHop (d : Dev) (i : Nat) (mgmt : Bool) (dst : Nat) : Nat :=
  let c := d.ifCfg i
  let (a, p) := if mgmt then (c.mgmtAddr, c.mgmtPfx) else (c.addr, c.pfx)
  if 224 ≤ dst / 2 ^ 24 ∨ dst / 2 ^ (32 - p) = a / 2 ^ (32 - p) then dst else c.gw

/-- The next hop of a packet on a route. -/
def Dev.routeHop (d : Dev) : Route → Nat
  | .mgmt a _ => d.nextHop 16 false a
  | .media i _ a _ => d.nextHop i true a
  | _ => 0

/-- A packet leaves on a route (R44, R46): into the outbound queue of the control port, or as a datagram. After a
thermal shutdown nothing is answered (R57). -/
def Dev.sendPkt (d : Dev) (r : Route) (p : Pkt) (delayUs : Nat) : Dev :=
  if d.thm.shutdown then d
  else match r with
    | .cp => { d with cp := if p.event then d.cp.putEvent p else d.cp.putReply p }
    | _ => d.send (.anvil r p delayUs (d.routeHop r))

/-- R52: the extra delay of a reply in target mode 01 or 10, in µs. -/
def Dev.replyDelay (d : Dev) (h : Hdr) : Nat := if h.tmode = 1 ∨ h.tmode = 2 then d.anvil.stackId % 256 * 8 else 0

/-- R42, R40: statuses that QUIET suppresses. -/
def quietStatus (st : Nat) : Bool := st = St.done ∨ st = St.accepted ∨ st = St.deferred

/-- R51: the reply of an accepted command is held with it. -/
def holdReply (l : List Recent) (seq : Nat) (p : Pkt) : List Recent :=
  l.map fun r => if r.seq = seq then { r with reply := some p } else r

/-- R55: the function of a number, and its change. -/
def Dev.fn (d : Dev) (k : Nat) : Fn := amGet d.fns k {}
def Dev.setFn (d : Dev) (k : Nat) (f : Fn) : Dev := { d with fns := amPut d.fns k f }

/-- R62, R64, R182, R441: what a sender has that has not begun is withdrawn, as far as `sel` selects: waiting commands,
stored requests, deferred frees and queued trim jobs. First the commands whose final reply is due, then those whose
completion event is. -/
def Dev.withdraw (d : Dev) (sel : Cmd → Bool) (selI : Instr → Bool) : List Instr × List Cmd × Dev :=
  let gone := d.anvil.waiting.filter selI
  let stored := (d.fns.filterMap (·.2.stored)).filter sel
  let frees := (d.lay.frees.map (·.2)).filter sel
  let jobs := (d.trm.queue.map (·.cmd)).filter sel
  let keep (f : Fn) : Fn := match f.stored with
    | some c => if sel c then { f with stored := none } else f
    | none => f
  (gone, stored ++ frees ++ jobs, { d with
    anvil := { d.anvil with waiting := d.anvil.waiting.filter fun i => !selI i }
    fns := d.fns.map fun e => (e.1, keep e.2)
    lay := { d.lay with frees := d.lay.frees.filter fun e => !sel e.2 }
    trm := { d.trm with queue := d.trm.queue.filter fun j => !sel j.cmd } })

/-- The Anvil command that waits was sent by session or channel `who` (4: the local channel). -/
def sentBy (who : Nat) (i : Instr) : Bool :=
  match i.hdr? with
  | some g => if who = 4 then g.noSession && g.route = .cp else !g.noSession && g.session = who
  | none => false

/-- ABORT begins on arrival (R62). -/
def isAbort (i : Instr) : Bool :=
  match i with
  | .abort _ _ => true
  | _ => false

/-- R48, R64: a session closes: it is no longer open, and its stored and waiting commands are cancelled without replies. -/
def Dev.closeSession (d : Dev) (n : Nat) : Dev :=
  let s := d.sess n
  let (_, _, d) := d.withdraw (fun c => c.who = n) (sentBy n)
  let d := { d with anvil := { d.anvil with
      inFlight := d.anvil.inFlight.filter (·.who ≠ n), due := d.anvil.due.filter (·.cmd.who ≠ n) } }
  d.setSess n { isOpen := false, epoch := s.epoch + 1 }

/-- R48: sixteen AUTH_FAIL replies in a row close the session. -/
def Dev.countAuth (d : Dev) (n st : Nat) : Dev :=
  if n > 3 then d
  else
    let s := d.sess n
    if st = St.authFail then
      if s.authFails + 1 ≥ 16 then d.closeSession n else d.setSess n { s with authFails := s.authFails + 1 }
    else d.setSess n { s with authFails := 0 }

/-- The packet of a reply (R40, R41, R49): `key` is the key its MAC is computed under. -/
def Dev.mkReply (d : Dev) (h : Hdr) (op st rs : Nat) (data : Bytes) (key : Option Bytes) : Pkt :=
  { reply := true, event := false, noSession := h.noSession, session := h.session, op := op, seq := h.seq,
    tid := d.anvil.stackId, tag := h.tag, body := enc 1 st ++ enc 1 rs ++ zeros 2 ++ data, key := key }

/-- R40: QUIET suppresses a good reply. -/
def quieted (h : Hdr) (st : Nat) : Bool := h.quiet && quietStatus st

/-- A reply given before the command is accepted (R53 steps 4 to 9), or by no session: sent as it is, unless QUIET suppresses it. -/
def Dev.replyRaw (d : Dev) (h : Hdr) (op st rs : Nat) (data : Bytes) (key : Option Bytes) : Dev :=
  let d := if st = St.authFail then d.bump 0 R.TNK_AV_AUTH else d
  if quieted h st then d else d.sendPkt h.route (d.mkReply h op st rs data key) (d.replyDelay h)

/-- The session a command belongs to is still the one it was accepted in (R58: no events for a closed session). -/
def Dev.alive (d : Dev) (c : Cmd) : Bool := c.who = 4 || (c.who < 4 && (d.sess c.who).isOpen && (d.sess c.who).epoch = c.epoch)

/-- The final reply of a begun command goes out (R41, R49, R51, R52): it leaves the commands in flight, its reply is held with its
SEQ, and is sent unless QUIET suppresses it. Only a reply that is sent counts for R48. -/
def Dev.replyNow (d : Dev) (c : Cmd) (st rs : Nat) (data : Bytes) : Dev :=
  let d := { d with anvil := { d.anvil with inFlight := d.anvil.inFlight.erase c } }
  if c.who = 5 then d.replyRaw c.h c.op st rs data none
  else if ¬ d.alive c then d
  else
    let s := d.sess c.who
    let key := if s.auth && st ≠ St.authFail then some s.sk else none
    let p := d.mkReply c.h c.op st rs data key
    let d := if c.who < 4 then d.setSess c.who { s with recent := holdReply s.recent c.h.seq p } else d
    let d := d.replyRaw c.h c.op st rs data key
    if quieted c.h st then d else d.countAuth c.who st

/-- R52: an accepted command has begun. -/
def Dev.begun (d : Dev) (c : Cmd) : Bool := d.anvil.waiting.all fun i => i.hdr? != some c.h

/-- R52: a command of the same sender and opcode class began before this one and has no final reply yet. -/
def Dev.replyBlocked (d : Dev) (c : Cmd) : Bool :=
  d.anvil.inFlight.contains c && (d.anvil.inFlight.takeWhile (· ≠ c)).any fun k =>
    k.who = c.who && k.epoch = c.epoch && k.op / 256 = c.op / 256 && d.begun k

/-- R52: the first reply that waits no longer goes out. -/
def Dev.replyDue (d : Dev) : Dev :=
  match d.anvil.due.find? fun r => !d.replyBlocked r.cmd with
  | none => d
  | some r => ({ d with anvil := { d.anvil with due := d.anvil.due.erase r } }).replyNow r.cmd r.st r.rs r.data

/-- R52: the final reply of a begun command: it goes out once the earlier ones of its class have, and so do those that waited for it. -/
def Dev.finalReply (d : Dev) (c : Cmd) (st rs : Nat) (data : Bytes) : Dev :=
  if d.replyBlocked c then { d with anvil := { d.anvil with due := d.anvil.due ++ [⟨c, st, rs, data⟩] } }
  else Nat.repeat Dev.replyDue d.anvil.due.length (d.replyNow c st rs data)

/-- An event packet of a session (R58): numbered, held for EVENT_REPLAY (the last 64), and sent on the session's
route. -/
def Dev.sendEvent (d : Dev) (n op tag : Nat) (body : Bytes) : Dev :=
  let s := d.sess n
  if ¬ s.isOpen then d
  else
    let p : Pkt := {
      reply := false, event := true, noSession := decide (n = 4), session := if n = 4 then 0 else n, op := op,
      seq := s.evSeq, tid := d.anvil.stackId, tag := tag, body := body, key := if s.auth then some s.sk else none }
    let s := { s with evSeq := (s.evSeq + 1) % 65536, events := (s.events ++ [p]).drop (s.events.length + 1 - 64) }
    (d.setSess n s).sendPkt s.route p 0

/-- R58: the completion event of an ACCEPTED or DEFERRED command: final status and reason, then the command's SEQ, then
data; subject to QUIET, and none for a closed session. -/
def Dev.complete (d : Dev) (c : Cmd) (st rs : Nat) (data : Bytes := []) : Dev :=
  if ¬ d.alive c ∨ (c.h.quiet && quietStatus st) then d
  else d.sendEvent c.who c.op c.h.tag (enc 1 st ++ enc 1 rs ++ zeros 2 ++ enc 2 c.h.seq ++ data)

/-- The same completion event for several commands, in order. -/
def Dev.completeAll (d : Dev) (cs : List Cmd) (st rs : Nat) (data : Bytes := []) : Dev :=
  cs.foldl (fun d c => d.complete c st rs data) d

/-- R58: a notification to every session that selects the source's group. -/
def Dev.notify (d : Dev) (s count first : Nat) : Dev :=
  (List.range 5).foldl (fun d n =>
    if bit (d.sess n).mask (s / 32) then d.sendEvent n 0x00FF 0 (zeros 4 ++ enc 2 s ++ enc 2 count ++ enc 8 first) else d) d

/-- R55: superseded stored commands are told so. -/
def Dev.superseded (d : Dev) (cs : List Cmd) : Dev := d.completeAll cs St.badState Rs.superseded

/-! Functions that can be switched on and off (R55), by number. -/

namespace FnId
abbrev region (r : Nat) := 0x1500 + r
abbrev decode (s : Nat) := 0x1100 + s
abbrev film := 0x2000
abbrev retain := 0x2001
abbrev lamp (s : Nat) := 0x2200 + s
abbrev bellows (die l : Nat) := 0x2300 + 32 * die + l
abbrev link (n : Nat) := 0x3000 + n
abbrev port (n : Nat) := 0x3100 + n
abbrev cam (c : Nat) := 0x4000 + c
abbrev enc (s : Nat) := 0x6000 + s
end FnId

/-- R55: an enable or disable request to a function: the device after it, the reply, and whether a transition begins. -/
def Dev.request (d : Dev) (k : Nat) (on same : Bool) (c : Cmd) : Dev × Rep × Bool :=
  let q := (d.fn k).request on same c
  ((d.setFn k q.fn).superseded q.gone, q.rep, q.begins)

/-- R55: a transition ends well; the completion events carry `data`. The stored request carried out, if any. -/
def Dev.fnDone (d : Dev) (k : Nat) (data : Bytes := []) : Dev × Option Cmd :=
  let e := (d.fn k).finish
  ((d.setFn k e.fn).completeAll e.done St.done 0 data, e.next)

/-- R55: a transition fails; a stored disable finds the function OFF and is done. The stored enable carried out, if any. -/
def Dev.fnFailed (d : Dev) (k : Nat) (rs : Nat := 0) : Dev × Option Cmd :=
  let (e, off) := (d.fn k).fail
  (((d.setFn k e.fn).completeAll e.done St.fault rs).completeAll off St.done 0, e.next)

/-- R55: a function that is OFF at once, whatever it was (a park, a safe state, a reset of its unit): what asked for OFF is
done, with `data`; what asked for ON completes FAULT. -/
def Dev.fnOff (d : Dev) (k : Nat) (rs : Nat := 0) (data : Bytes := []) : Dev :=
  let f := d.fn k
  let (off, on) := if f.st = .stopping then (f.running, f.stored.toList) else (f.stored.toList, f.running)
  ((d.setFn k {}).completeAll on St.fault rs).completeAll off St.done 0 data

/-! Reaching the dies (R36, R550). -/

/-- R36: a flue die is reachable: its damper half is ON and the return channel is, and the die is not held in reset or
halted by a thermal shutdown. -/
def Dev.flueUp (d : Dev) (die : Nat) : Bool :=
  d.rd 0 (R.DMP_HALF_ON (die - 8)) = 1 && d.dmp.ret.isSome && !d.pwr.flueHeld && !d.thm.fluHalt.getD (die - 8) false

/-- R17, R36: a hob die (by its ID 1–4) is in service. -/
def Dev.hobUp (d : Dev) (die : Nat) : Bool := !d.fab.failed.getD (die - 1) false

/-- A die, by its ID, is not a failed hob die. -/
def Dev.dieUp (d : Dev) (die : Nat) : Bool := dieKind die ≠ 2 || d.hobUp die

/-- The hob dies in service, by ID. -/
def Dev.hobsUp (d : Dev) : List Nat := hobDies.filter d.hobUp

/-- R182, R434, R503: buffers that jobs of other chapters hold BUSY: camera rings while the port is not OFF, film table loads, eye
scans, tap-tests, update images being staged, and the sources and destinations of Ingot jobs. -/
def Dev.bufUsers (d : Dev) : List Nat :=
  ((List.range 2).filterMap fun c => if (d.fn (FnId.cam c)).st = .off then none else ((d.trm.cams.getD c {}).ring).map (·.buffer))
    ++ d.film.load.map (·.buffer) ++ (d.lnk.scans.filter (·.map)).map (·.buffer) ++ (d.lnk.taps.filter (·.buffer ≠ 0)).map (·.buffer)
    ++ d.upd.staging.map (fun c => u16 c.p 2)
    ++ ((d.ing.running.toList ++ d.ing.queue).map fun j => [j.src, j.dst]).flatten

/-- R1, R94: every flue link region is OFF. -/
def Dev.regionsOff (d : Dev) : Bool := (List.range 4).all fun r => (d.fn (FnId.region r)).st = .off

end Sys2Proof.Machine
end

