-- ==== Sys2Proof/Machine/Messages.lean ====
section
/-! DEFINITION. Messages on the damper (R25, R27, R28, R30, R36, R550): the blocks of a message, the forward messages and the answers they
wait for, the flue dies' return queues, and the register accesses a command makes on a flue die as part of its work. -/

namespace Sys2Proof.Machine

/-! Blocks (R27). -/

/-- R27: a header block: TYPE, DIE, FLAGS, LEN, SEQ and their CRC-16. -/
def damperHeader (die flags ty len seq : Nat) : Nat :=
  let top := ty % 256 * 2 ^ 40 + die % 16 * 2 ^ 36 + flags % 16 * 2 ^ 32 + len % 1024 * 2 ^ 22 + seq % 65536
  top * 65536 + crc16 (enc 6 top)

/-- R27: the blocks of a message as (sync header 0b10, 64 bits): the header, the payload words and, with a payload, the trailer. -/
def damperBlocks (die flags ty seq : Nat) (words : List Nat) : List (Bool × Nat) :=
  let hd := damperHeader die flags ty words.length seq
  let tail := if words = [] then [] else [(false, crc32c ((hd :: words).map (enc 8)).flatten * 2 ^ 32)]
  (true, hd) :: words.map (fun w => (false, w % 2 ^ 64)) ++ tail

/-! Forward messages (R28, R36). -/

/-- The value of a list of pairs keyed by (die, TYPE). -/
def seqOf (l : List (Nat × Nat)) (die ty : Nat) : Nat := amGet l (die * 256 + ty) 0

/-- R27: a message leaves on the half of a flue die with the next SEQ of its TYPE there, `field` in its DIE field; nothing leaves a half that
is not ON. -/
def Dev.fwdPut (d : Dev) (die field ty : Nat) (words : List Nat) : Dev :=
  let q := seqOf d.dmp.fwdSeq die ty
  let d := { d with dmp := { d.dmp with fwdSeq := amPut d.dmp.fwdSeq (die * 256 + ty) ((q + 1) % 65536) } }
  if d.rd 0 (R.DMP_HALF_ON (die - 8)) = 1 then d.send (.damper (die - 8) (damperBlocks field 0 ty q words)) else d

/-- R27, R36: a message to one flue die; one that must be answered waits for its REG_REPLY. -/
def Dev.fwdSend (d : Dev) (die ty : Nat) (words : List Nat) (why : Option AccessFor) (resends : Nat := 0) : Dev :=
  let q := seqOf d.dmp.fwdSeq die ty
  let d := d.fwdPut die die ty words
  match why with
  | none => d
  | some w => { d with dmp := { d.dmp with waiting := d.dmp.waiting ++ [⟨die, ty, words, q, resends, w⟩] } }

/-! The return queues (R25, R30). -/

def Dev.flueEnd (d : Dev) (f : Nat) : FlueEnd := d.dmp.ends.getD f {}
def Dev.setFlueEnd (d : Dev) (f : Nat) (e : FlueEnd) : Dev := { d with dmp := { d.dmp with ends := d.dmp.ends.set f e } }

/-- The bytes a message takes: header, payload words and trailer (R27). -/
def RetMsg.size (m : RetMsg) : Nat := 8 + 8 * m.words.length + (if m.words = [] then 0 else 8)

def retFill (q : List RetMsg) : Nat := (q.map RetMsg.size).sum

/-- R25: types that may use the reserve. -/
def retReserved (ty : Nat) : Bool := ty = 0x85 || ty = 0x81

/-- R25: the message fits the queue. -/
def retFits (q : List RetMsg) (m : RetMsg) : Bool :=
  decide (retFill q + m.size ≤ 16384) &&
    (retReserved m.ty || decide (retFill (q.filter fun x => !retReserved x.ty) + m.size ≤ 15360))

/-- R25: FRAME_REPORT messages leave the queue, oldest first, until a message fits: the queue and how many left. -/
def dropReports : Nat → List RetMsg → RetMsg → List RetMsg × Nat
  | 0, q, _ => (q, 0)
  | n + 1, q, m =>
    if retFits q m then (q, 0)
    else match q.findIdx? (·.ty = 0x84) with
      | none => (q, 0)
      | some i => let (q, k) := dropReports n (q.eraseIdx i) m; (q, k + 1)

/-- R25: a return message of a flue die (0, 1) is queued, held, merged or discarded; PFAIL and REG_REPLY never are (an access is
answered only while its reply fits, so a REG_REPLY always does). -/
def Dev.retPut (d : Dev) (f : Nat) (m : RetMsg) : Dev :=
  let e := d.flueEnd f
  let push (d : Dev) (e : FlueEnd) (q : List RetMsg) : Dev :=
    (d.setFlueEnd f { e with queue := q ++ [m] }).hwm (8 + f) R.DMP_RQ_HWM (retFill (q ++ [m]))
  if retFits e.queue m ∨ retReserved m.ty then push d e e.queue
  else if m.ty = 0x83 then
    (d.setFlueEnd f { e with tele := m.words.foldl (fun t w => amPut t (w / 2 ^ 56) w) e.tele }).bump (8 + f) R.DMP_RQ_MERGED
  else if m.ty = 0x86 then
    (d.setFlueEnd f { e with credit := m.words.foldl (fun t w => amMod t (w / 2 ^ 56) 0 (· + w / 2 ^ 40 % 65536)) e.credit }).bump
      (8 + f) R.DMP_RQ_MERGED
  else if m.ty = 0x82 then
    let s := m.words.headD 0
    if e.event.contains s || e.queue.contains m then d.bump (8 + f) R.DMP_RQ_MERGED
    else d.setFlueEnd f { e with event := e.event ++ [s] }
  else
    let (q, k) := dropReports e.queue.length e.queue m
    let d := d.bump (8 + f) R.DMP_RQ_DISCARD k
    if retFits q m then push d e q else (d.setFlueEnd f { e with queue := q }).bump (8 + f) R.DMP_RQ_DISCARD

/-- R25: what was held enters the queue as room returns. -/
def Dev.retRefill (d : Dev) (f : Nat) : Dev :=
  let e := d.flueEnd f
  let d := d.setFlueEnd f { e with tele := [], credit := [], event := [] }
  let d := e.event.foldl (fun d s => d.retPut f ⟨0x82, [s]⟩) d
  let d := e.credit.foldl (fun d c => d.retPut f ⟨0x86, [c.1 * 2 ^ 56 + c.2 * 2 ^ 40]⟩) d
  e.tele.foldl (fun d t => d.retPut f ⟨0x83, [t.2]⟩) d

/-- R30: the return types, highest priority first. -/
def retOrder : List Nat := [0x85, 0x86, 0x84, 0x82, 0x81, 0x83]

/-- R30: the message that leaves a return queue next: the oldest of the highest type. -/
def retFirst (q : List RetMsg) : Option RetMsg := retOrder.findSome? fun t => q.find? (·.ty = t)

/-- R27, R30: a message leaves a flue die on the return lane, with the next SEQ of its TYPE from that die; a PFAIL has URGENT set (R33). -/
def Dev.backPut (d : Dev) (f : Nat) (m : RetMsg) : Dev :=
  let e := d.flueEnd f
  let q := amGet e.seq m.ty 0
  let d := d.setFlueEnd f { e with seq := amPut e.seq m.ty ((q + 1) % 65536) }
  d.send (.back (d.dmp.ret.getD 35) (damperBlocks (8 + f) (if m.ty = 0x85 then 8 else 0) m.ty q m.words))

/-- A message of a flue die reaches the hearth end: it leaves the queue, and what was held moves up. None where the return
channel is down or another message leaves first. -/
def Dev.retTake (d : Dev) (f : Nat) (m : RetMsg) : Option Dev :=
  let e := d.flueEnd f
  if d.dmp.ret.isNone ∨ d.dmp.moving.isSome ∨ f > 1 ∨ retFirst e.queue ≠ some m then none
  else some (((d.setFlueEnd f { e with queue := e.queue.erase m }).backPut f m).retRefill f)

/-- R27: a message that fails a check is discarded and counted at the die that receives it. -/
def Dev.badMessage (d : Dev) (die : Nat) (chk : MsgCheck) : Dev :=
  match chk with
  | .good => d
  | .hcrc => d.bump die R.DMP_HCRC_ERR
  | .crc => d.bump die R.DMP_CRC_ERR

/-- A return message arrives at the hearth end: `w` acts on one that passes its checks (R27). -/
def Dev.received (d : Dev) (f : Nat) (m : RetMsg) (chk : MsgCheck) (w : Dev → Dev) : Dev :=
  if d.pwr.hearthHeld ∨ d.thm.shutdown then d
  else match d.retTake f m with
  | none => d
  | some d => if chk = .good then w d else d.badMessage 0 chk

/-- R472: a flue die raises an event source: an EVENT message. -/
def Dev.flueEvent (d : Dev) (f s : Nat) : Dev := d.retPut f ⟨0x82, [s]⟩

/-- The reply word of a damper access (R30). -/
def replyWord (value status ty seq : Nat) : Nat := value % 2 ^ 32 * 2 ^ 32 + status * 2 ^ 24 + ty * 2 ^ 16 + seq % 65536

/-- R25: a flue die answers an access: only while its reply fits the reserve. -/
def Dev.canAnswer (d : Dev) (die : Nat) : Bool := retFits (d.flueEnd (die - 8)).queue ⟨0x81, [0]⟩

/-- R30: a flue die's REG_REPLY is queued. -/
def Dev.answer (d : Dev) (die value status ty seq : Nat) : Dev := d.retPut (die - 8) ⟨0x81, [replyWord value status ty seq]⟩

/-- R35: an access of a Tinker core that is not performed: a bus error, reported as a block-level descriptor against TNK_; its CAUSE
is a free value (log entry 3). -/
def Dev.busError (d : Dev) : Dev := let (v, d) := d.freeVal 8; d.descriptor 1 0 0x00 d.tnk.active v 0 0

/-! A command's accesses to a flue die (R36, R37, R550). -/

/-- R33: a register that a flue die refuses to write after a power failure: CHS_ or PWR_. -/
def powerBlock (a : Nat) : Bool := let b := a / 2 ^ 20 % 256; b = 0x20 || b = 0x71

/-- R33: a flue die refuses writes of this register after a power failure. -/
def Dev.writeRefused (d : Dev) (a : Nat) : Bool :=
  dieKind (a / 2 ^ 28) = 4 && d.pwr.refuse.getD (a / 2 ^ 28 - 8) false && powerBlock a

/-- Message errors and timeouts: an access has exhausted its resends: it is counted, and a block-level descriptor is issued. -/
def Dev.accessTimeout (d : Dev) (die ty : Nat) : Dev :=
  (d.bump 0 R.DMP_TIMEOUTS).descriptor 1 die 0x70 (die - 8) Cause.handshakeTimeout 0 ty

/-- R36: an access that is answered: its message, with the next SEQ, and the REG_REPLY that answers it at once. -/
def Dev.exchange (d : Dev) (die ty word value status : Nat) : Dev :=
  let q := seqOf d.dmp.fwdSeq die ty
  (d.fwdPut die die ty [word]).backPut (die - 8) ⟨0x81, [replyWord value status ty q]⟩

/-- R36: an access that no reply answers: its message, three resends, each with a new SEQ, and then it has failed. -/
def Dev.accessLost (d : Dev) (die ty word : Nat) : Dev :=
  ((Nat.repeat (fun d => d.fwdPut die die ty [word]) 4 d).bump 0 R.DMP_RESENDS 3).accessTimeout die ty

/-- The value a flue die holds in a register as a REG_WRITE carries it: RW bits, and RS bits of the shadow copy (R10). -/
def Dev.heldWord (d : Dev) (a : Nat) : Nat :=
  match regRow? (a / 2 ^ 28 % 16) (a / 2 ^ 20 % 256) (a % 2 ^ 20) with
  | none => 0
  | some r => ((rfGet d.regs a &&& BitVec.ofNat 32 r.rw) ||| (rfGet d.shadow a &&& BitVec.ofNat 32 r.rs)).toNat

/-- R36: a Tinker core sets a field of a flue die's register: a REG_WRITE, which awaits its REG_REPLY. -/
def Dev.coreWrite (d : Dev) (die : Nat) (f : Fld) (v : Nat) : Dev :=
  let a := regAddr die f.off
  d.fwdSend die 0x05 [a * 2 ^ 32 + (setBits (BitVec.ofNat 32 (d.heldWord a)) f.hi f.lo v).toNat] (some .plain)

/-- R36, R37, R550: a command's writes one after the other. `left` says how many are answered (none: all). A write that its die refuses ends
them with FAULT (R33), one whose resends are exhausted with TIMEOUT; the writes before it stay. -/
def flueRun {α : Type} (regOf : α → Nat × Option Fld) (w : Dev → α → Dev) : Option Nat → Nat → List α → Dev → Nat × Dev × Option Rep
  | _, k, [], d => (k, d, none)
  | left, k, x :: xs, d =>
    let die := (regOf x).1
    let a := regAddr die (((regOf x).2.map Fld.off).getD 0)
    let d' := w d x
    let word := a * 2 ^ 32 + d'.heldWord a
    let named := (regOf x).2.isSome
    if named && d.writeRefused a then (k, d.exchange die 0x05 word (d.heldWord a) 3, some (.bad St.fault 0))
    else if left = some 0 ∨ ¬ d.canAnswer die then
      (k, if named then d.accessLost die 0x05 word else (d.bump 0 R.DMP_RESENDS 3).accessTimeout die 0x05, some (.bad St.timeout 0))
    else flueRun regOf w (left.map (· - 1)) (k + 1) xs (if named then d'.exchange die 0x05 word (d'.heldWord a) 0 else d')

/-- R550: a command's writes of flue die registers. `regOf` names the die of each and its register; where the spec names no register for what
is written (a table, a start), no message is formed (log entry 165). Nothing is written and the answer is FAULT when a die is not reachable.
The first component says how many were written. -/
def Dev.flueWrites {α : Type} (d : Dev) (h : Hdr) (dies : List Nat) (ws : List α) (regOf : α → Nat × Option Fld) (w : Dev → α → Dev) :
    Nat × Dev × Option Rep :=
  if ¬ dies.all d.flueUp then (0, d, some (.bad St.fault 0)) else flueRun regOf w h.answered 0 ws d

/-- R12, R36: a command that reads registers of flue dies: FAULT where one cannot be reached, TIMEOUT where its accesses are not answered
(log entry 11). -/
def Dev.flueRead (d : Dev) (h : Hdr) (dies : List Nat) (k : Dev → Dev × Rep) : Dev × Rep :=
  if ¬ dies.all d.flueUp then (d, .bad St.fault 0)
  else match h.answered with
    | some n => if n < dies.length then ((d.bump 0 R.DMP_RESENDS 3).accessTimeout (dies.getD n 8) 0x06, .bad St.timeout 0) else k d
    | none => k d

/-- R550: a command that replies ACCEPTED and whose write of a flue die is not possible: it completes with the failure. -/
def Dev.acceptedFail (d : Dev) (c : Cmd) (r : Rep) : Dev × Rep :=
  match r with
  | .reply st rs _ => ((d.finalReply c St.accepted 0 []).complete c st rs, .later)
  | .later => (d, .later)

/-- R55, R550: a request for a function that flue dies carry out: where it begins a transition, its writes come first. -/
def Dev.requestFlue (d : Dev) (h : Hdr) (dies : List Nat) (k : Nat) (on same : Bool) (c : Cmd) : Dev × Rep × Bool :=
  if ¬ (d.request k on same c).2.2 then d.request k on same c
  else match d.flueWrites h dies dies (fun k => (k, none)) (fun d _ => d) with
    | (_, d, some r) => let (d, r) := d.acceptedFail c r; (d, r, false)
    | (_, d, none) => d.request k on same c

end Sys2Proof.Machine
end

