-- ==== Sys2Proof/Machine/Timing.lean ====
section
/-! DEFINITION. Regions, links and the device frame timing (R205–R210, R228, R235, R259): pure arithmetic over the raster in
effect. Times are in 2^-16 ns, as quotients. -/

namespace Sys2Proof.Machine

/-- R229, R264: an IDLE block. -/
def idleBlock : Bool × Nat := (true, 0x66 * 2 ^ 56)

/-- R4: the flue die (ID) of a flue link, and the link's number on it. -/
def linkDie (n : Nat) : Nat := 8 + n / 4
def linkOn (n : Nat) : Nat := n % 4

/-- R205: the flue links of a region. -/
def regionLinks (mode r : Nat) : List Nat := if mode = 2 then [2 * r, 2 * r + 1] else if mode = 1 ∧ r = 0 then fromN 0 6 else []

/-- R205: the region of a flue link. -/
def linkRegion (mode n : Nat) : Option Nat := if mode = 2 then some (n / 2) else if mode = 1 ∧ n < 6 then some 0 else none

/-- The flue dies (IDs) of a region. -/
def regionDies (mode r : Nat) : List Nat := if mode = 2 then [8 + r / 2] else if mode = 1 then [8, 9] else []

/-- R228: W_n of a panel of a width. -/
def bandWidth (width n : Nat) : Nat := if n < 6 then 64 * ((width / 64 + 5 - n) / 6) else 0

/-- R228: X_n. -/
def bandStart (width n : Nat) : Nat := ((List.range n).map (bandWidth width)).sum

/-- The raster in effect (R206): the bound SCN_ registers of flue die 0. -/
def Dev.rate (d : Dev) : Nat := d.rdB 8 R.SCN_RATE
def Dev.width (d : Dev) : Nat := d.rdB 8 R.SCN_WIDTH
def Dev.active (d : Dev) : Nat := d.rdB 8 R.SCN_ACTIVE
def Dev.vblank (d : Dev) : Nat := d.rdB 8 R.SCN_VBLANK
def Dev.slotLines (d : Dev) : Nat := d.rdB 8 R.SCN_SLOT_LINES

/-- R222, R228: a region's links that carry part of it. -/
def Dev.linksUsed (d : Dev) (width r : Nat) : List Nat :=
  (regionLinks d.mode r).filter fun n => d.mode = 2 || bandWidth width n > 0

/-- The state of the region a link belongs to (R227). -/
def Dev.linkRegionState (d : Dev) (n : Nat) : FnSt :=
  match linkRegion d.mode n with
  | some r => (d.fn (FnId.region r)).st
  | none => .off

/-- A region of a flue die (0, 1) is ON. -/
def Dev.dieRegionOn (d : Dev) (f : Nat) : Bool :=
  (List.range 4).any fun r => (d.fn (FnId.region r)).st = .on && (regionDies d.mode r).contains (8 + f)

/-- A flue link is ON: its function is, and it has not fallen back to LISTEN (R326, R327). -/
def Dev.linkIsOn (d : Dev) (n : Nat) : Bool := (d.fn (FnId.link n)).st = .on && d.rd (linkDie n) (R.LNK_FL_STATE_PHASE (linkOn n)) = 6

/-- A link that is ON and ACTIVE (R222, R337). -/
def Dev.linkActive (d : Dev) (n : Nat) : Bool := d.linkIsOn n && d.rd (linkDie n) (R.LNK_FL_STATE_POWER (linkOn n)) = 0

/-- R344: the command of a link's pending power request is superseded. -/
def Dev.powerReplaced (d : Dev) (n : Nat) : Dev :=
  match amGet d.lnk.power n (0, none) with
  | (_, some old) => d.superseded [old]
  | (_, none) => d

/-- R337: a power request of a link is pending; an exit from DEEP trains from LOCK. -/
def Dev.powerAsk (d : Dev) (n target : Nat) (c : Option Cmd) : Dev :=
  let d := d.powerReplaced n
  let d := { d with lnk := { d.lnk with power := amPut d.lnk.power n (target, c) } }
  if target ≠ 2 ∧ d.rd (linkDie n) (R.LNK_FL_STATE_POWER (linkOn n)) = 2 then d.wr (linkDie n) (R.LNK_FL_STATE_PHASE (linkOn n)) 2 else d

/-- R337: a link that is in a low-power state, or is about to be, must wake. -/
def Dev.wakeLink (d : Dev) (n : Nat) : Dev :=
  if d.rd (linkDie n) (R.LNK_FL_STATE_POWER (linkOn n)) = 0 ∧ (amGet d.lnk.power n (0, none)).1 = 0 then d else d.powerAsk n 0 none

/-- R131, R207: the exact frame period of a rate code in 2^-16 ns, as numerator and denominator. -/
def periodOf (rate : Nat) : Nat × Nat :=
  let (a, b) : Nat × Nat := match rate with
    | 0 => (1001, 24000)
    | 1 => (1, 24)
    | 2 => (1, 25)
    | 3 => (1001, 30000)
    | 4 => (1, 30)
    | 5 => (1, 50)
    | 6 => (1001, 60000)
    | 7 => (1, 60)
    | 8 => (1001, 120000)
    | _ => (1, 120)
  (a * 10 ^ 9 * 65536, b)

/-- R206: T_line in 2^-16 ns, as a quotient. -/
def lineTime (rate active vblank : Nat) : Nat × Nat := let (n, d) := periodOf rate; (n, d * (active + vblank))

def Dev.lineT (d : Dev) : Nat × Nat := lineTime d.rate d.active d.vblank

/-- R235: FPF and L_FF. -/
def fpfOf (rate : Nat) : Nat := if rate ≤ 4 then 8 else if rate = 5 then 5 else if rate ≤ 7 then 4 else 2
def lffOf (rate active : Nat) : Nat := (active + 8) / fpfOf rate

/-- R206: lines from the start of the current frame to the start of a frame; behind it, at the nominal blanking. -/
def Dev.linesTo (d : Dev) (n : Nat) : Int :=
  let len : Int := d.active + d.vblank
  if n ≤ d.frame then -(((d.frame - n : Nat) : Int) * len)
  else (d.active + d.ras.vnow : Int) + ((n - d.frame - 1 : Nat) : Int) * len

/-- R206: the scheduled start of a frame on the flue raster (MEDIA), as a quotient. -/
def Dev.frameStart (d : Dev) (n : Nat) : Int × Int :=
  let (a, b) := d.lineT
  ((d.ras.startAt : Int) * b + d.linesTo n * a + (if n > d.frame then d.ras.phase * b else 0), b)

/-- R209: Λ, over the denominator of the line time. -/
def Dev.leadTime (d : Dev) : Int :=
  let (a, b) := d.lineT
  if d.mode = 2 then (26 * d.slotLines * a : Int) - (18800 * 65536 * b : Nat) else ((d.syn.lead * 1000 + 4000) * 65536 * b : Nat)

/-- R209: the binding point of a frame, as a quotient. -/
def Dev.bindTime (d : Dev) (f : Nat) : Int × Int :=
  let (a, b) := d.lineT
  ((d.frameStart (f - 1)).1 + (d.active * a : Nat) - d.leadTime, b)

/-- A quotient of 2^-16 ns as a MEDIA stamp. -/
def stampOf (q : Int × Int) : Nat := (roundFree q.1 q.2).toNat % 2 ^ 64

/-- R208: the number of the frame whose reference start (n × P + OFFSET) lies nearest to a MEDIA time in 2^-16 ns: the whole periods P from the
epoch to that start. -/
def epochFrame (rate : Nat) (offsetNs : Int) (t : Int) : Int :=
  let (a, b) := periodOf rate
  let x := (t - offsetNs * 65536) * b
  (2 * x + a) / (2 * a) - (if offsetNs < 0 then 1 else 0)

/-- R208, R213: frame numbers are taken from the PTP epoch: it is the source in use and the raster is locked, or the frame
is the first after a hard resync on it. -/
def Dev.numberedByEpoch (d : Dev) : Bool := d.ras.source = 2 && (d.ras.locked || d.ras.resynced = 3)

/-- R208: the number of the frame that starts at a MEDIA time (2^-16 ns), after frame `last`. -/
def Dev.numberAt (d : Dev) (last : Nat) (t : Int) : Nat :=
  if d.numberedByEpoch then max (last + 1) ((epochFrame d.rate d.ras.glOffset t).toNat % 2 ^ 48)
  else if d.ras.resynced = 2 then last + 2 else last + 1

/-- R213: the PTP epoch is a valid source: MEDIA reports lock. -/
def Dev.epochValid (d : Dev) : Bool := d.rd 0 R.PTP_STATE_REPORTS_LOCK = 1

/-- R268: QNC_LIT of a die: slot length less BLANK and GUARD, in ns, taken up to the next whole ns (log entry 21). -/
def Dev.litNs (d : Dev) (die rate active vblank slotLines : Nat) : Int :=
  let (a, b) := lineTime rate active vblank
  ((slotLines * a + b * 65536 - 1) / (b * 65536) : Nat) - (d.rd die R.QNC_BLANK : Int) - d.rd die R.QNC_GUARD

/-- R208: the number of the next frame, as the latch line announces it. -/
def Dev.nextNumber (d : Dev) : Nat :=
  if ¬ d.ras.started then 0
  else let t := d.frameStart (d.frame + 1); d.numberAt d.frame (roundFree t.1 t.2)

/-- R219: data blocks enter a link's signature. -/
def Dev.signBlocks (d : Dev) (n : Nat) (bs : List (Bool × Nat)) : Dev :=
  let crc := (bs.filter fun b => !b.1).foldl (fun c b => (enc 8 b.2).foldl crc32cByte c) (d.ras.crcs.getD n 0)
  { d with ras := { d.ras with crcs := d.ras.crcs.set n crc } }

/-- R30, R219: the frame being sent on a link has repeated lines. -/
def Dev.flagRepeat (d : Dev) (n : Nat) : Dev := { d with ras := { d.ras with flags := d.ras.flags.modify n (· ||| 2) } }

/-- R207: the timing in effect has a slot grid: it is a projector region's. -/
def Dev.slotGrid (d : Dev) : Bool := d.mode = 2 && d.active = 768 * d.slotLines

/-- R269, R299: the Quench tag (colour, plane, lit) of a sample of a die taken at a MEDIA time, and whether the sample is EDGE; none where there
is no slot grid. Before the frame's start it is slot 767 of the frame before that goes on. -/
def Dev.quenchTag (d : Dev) (f t : Nat) : Option (Nat × Nat × Bool × Bool) :=
  if !d.slotGrid then none
  else
    let (a, b) := d.lineT
    let since : Int := ((t : Int) - d.ras.startAt) * b
    let slot : Int := (d.slotLines * a : Nat)
    let j : Nat := if since < 0 then 767 else min 767 (since / slot).toNat
    let inSlot : Int := if since < 0 then slot else since - j * slot
    let blank : Int := (d.rd (8 + f) R.QNC_BLANK * 65536 * b : Nat)
    let near : Int := (500 * 65536 * b : Nat)
    some (j % 24 % 3, 7 - j % 24 / 3, decide (blank ≤ inSlot), decide (inSlot < near) || decide (blank ≤ inSlot ∧ inSlot < blank + near))

end Sys2Proof.Machine
end

