-- ==== Sys2Proof/Machine/Gate.lean ====
section
/-! DEFINITION. The checks every Anvil command passes (R47–R57, steps 1 to 14 of R53), shared by all opcodes. A meaning
gives its opcode, its valid lengths and its parameter check; the gate answers the failures in the order of R53 and lets
the command begin or wait. -/

namespace Sys2Proof.Machine

/-- What the gate must know of an opcode: its number, whether it is implemented (R59), which LENGTHs are valid, and the
check of step 12 (the reason of BAD_PARAM where it fails); `auth` gives the reason of an AUTH_FAIL the opcode has of its own, which
stands with the MAC check (R49). -/
structure OpSpec where
  op    : Nat
  known : Bool := true
  len   : Nat → Bool
  fits  : Bytes → Bool := fun _ => true
  check : State → Hdr → Bytes → Option Nat := fun _ _ _ => none
  auth  : Dev → Hdr → Bytes → Option Nat := fun _ _ _ => none

/-- R53, step 11: LENGTH is one the opcode has, and, where the parameters hold a count, the one that count gives. -/
def OpSpec.lenOk (sp : OpSpec) (p : Bytes) : Bool := sp.len p.length && sp.fits p

/-- The opcode's class (R38). -/
def OpSpec.cls (sp : OpSpec) : Nat := sp.op / 256

/-- No command is performed: the hearth side is in reset, after a thermal shutdown, or without an active core. -/
def Dev.mute (d : Dev) : Bool := d.pwr.hearthHeld || d.thm.shutdown || d.tnk.noManage

/-- The device gives no answer at all on the route: hearth side in reset, after a thermal shutdown, without an active
core, in the first 5 ms (R56), or with the management port's link down (R56). -/
def Dev.silent (d : Dev) (h : Hdr) : Bool :=
  d.mute || decide (d.elapsedMs < 5) ||
    match h.route with
    | .cp => false
    | .mgmt _ _ => d.rd 0 (R.NET_IF_LINK 16) = 0
    | .media i _ _ _ => !d.pwr.ready || d.rd 0 (R.NET_IF_LINK i) = 0

/-- R54: the packet's TARGET is well formed (step 2). -/
def targetOk (h : Hdr) : Bool :=
  match h.tmode with
  | 0 => h.tid < 16384
  | 1 => h.tid < 1024
  | 2 => h.tid = 0
  | _ => false

/-- R54: TARGET addresses this device (step 3). -/
def Dev.targeted (d : Dev) (h : Hdr) : Bool :=
  match h.tmode with
  | 0 => h.tid = d.anvil.stackId
  | 1 => d.anvil.groups.contains h.tid
  | _ => true

/-- R47, R48, R63: who sends the command (step 6): a session open on this route and peer, the local channel (4), or a
NOSESSION packet on a network route, which may carry three opcodes only (5). -/
def Dev.whoSends (d : Dev) (h : Hdr) (op : Nat) : Option Nat :=
  if h.noSession then
    match h.route with
    | .cp => some 4
    | _ => if op = 0x0001 ∨ op = 0x0002 ∨ op = 0x0004 then some 5 else none
  else
    let s := d.sess h.session
    if op ≠ 0x0004 ∧ h.session < 4 ∧ s.isOpen ∧ s.route = h.route then some h.session else none

/-- R49, R54: the key a command's MAC is computed under: SK, or the slot key in target modes 01 and 10. -/
def Dev.macKey (d : Dev) (s : Session) (h : Hdr) : Bytes :=
  if h.tmode = 0 then s.sk else ((d.anvil.slots.getD s.slot {}).key).getD []

/-- R49: the MAC check (step 7). -/
def Dev.macOk (d : Dev) (who : Nat) (h : Hdr) (op : Nat) (p : Bytes) : Bool :=
  who > 3 || !(d.sess who).auth || h.mac = some (hmac (d.macKey (d.sess who) h) (macInput h op p))

/-- What R51 does with a SEQ. -/
inductive SeqRule where
  | accept
  | acceptNew
  | resend (p : Pkt)
  | ignore
  | stale
  deriving DecidableEq, Repr

/-- R51: the first rule that applies to a SEQ. -/
def seqRule (s : Session) (seq : Nat) : SeqRule :=
  let dd := (seq + 65536 - s.high) % 65536
  if 1 ≤ dd ∧ dd ≤ 32767 then .acceptNew
  else
    match s.recent.find? (·.seq = seq) with
    | some r =>
      match r.reply with
      | some p => .resend p
      | none => .ignore
    | none => if dd ≠ 0 ∧ 65536 - dd ≤ 256 ∧ ¬ s.seen.contains seq then .accept else .stale

/-- R51: a session that accepts a SEQ. -/
def Session.accept (s : Session) (seq : Nat) (new : Bool) : Session :=
  let hi := if new then seq else s.high
  { s with
    high := hi
    recent := (s.recent ++ [Recent.mk seq none]).drop (s.recent.length + 1 - 256)
    seen := (seq :: s.seen).filter fun x => (hi + 65536 - x) % 65536 ≤ 256 }

/-- R52: commands in flight of a sender. -/
def Dev.inFlightOf (d : Dev) (who : Nat) : List Cmd := d.anvil.inFlight.filter fun c => c.who = who && d.alive c

/-- R52: the waiting commands of a sender, given by its route and session. -/
def Dev.waitingOf (d : Dev) (h : Hdr) : List Instr :=
  d.anvil.waiting.filter fun i => match i.hdr? with
    | some g => g.noSession = h.noSession && (h.noSession || g.session = h.session) && (g.route = .cp) = (h.route = .cp)
    | none => false

/-- R466, R468: the active core begins no further command in the 2 ms before a swap point: the first frame start at least 2 ms after the
standby was ready, or for TINKER_SWITCH the next. -/
def Dev.beginsHeld (d : Dev) : Bool :=
  let next := stampOf (d.frameStart (d.frame + 1))
  d.ras.started && (decide (d.upd.phase = 2 ∧ d.upd.readyAt + 2000000 * 2 ^ 16 ≤ next) || d.tnk.switchReq != [])
    && decide (next ≤ d.media + 2000000 * 2 ^ 16)

/-- R46, R52, R466: the command must wait before it begins. -/
def Dev.mustWait (d : Dev) (who : Nat) (h : Hdr) (op : Nat) : Bool :=
  (h.route = .cp && outFill d.cp.outbound + 4148 > cpOutCap) || d.beginsHeld ||
  (op ≠ 0x0003 && who < 5 && (d.waitingOf h ≠ [] || (h.ordered && (d.inFlightOf who).length > 1)))

/-- R57: classes answered FAULT, SAFE_STATE in a safe state. -/
def safeRefuses (cls : Nat) : Bool := !(cls = 0x00 || cls = 0x01 || cls = 0x50 || cls = 0x51 || cls = 0x52)

/-- R57: the class belongs to the other output mode, or needs a mode where none is set. -/
def modeRefuses (mode cls : Nat) : Bool :=
  (mode = 0 && (cls = 0x15 || cls = 0x20 || cls = 0x21)) || (mode = 2 && cls = 0x20) || (mode = 1 && cls = 0x21)

/-- Steps 10 to 14 of R53 on an accepted command. -/
def Dev.checks (s : State) (sp : OpSpec) (c : Cmd) (d : Dev) : Dev × Option Cmd :=
  let no (st rs : Nat) : Dev × Option Cmd := (d.finalReply c st rs [], none)
  if ¬ sp.known then no St.badOpcode 0
  else if ¬ sp.lenOk c.p then no St.badLength 0
  else
    match sp.check s c.h c.p with
    | some r => no St.badParam r
    | none =>
      if d.pwr.safe && safeRefuses sp.cls then no St.fault Rs.safeState
      else if modeRefuses d.mode sp.cls then no St.badState Rs.notInMode
      else (d, some c)

/-- R52, R62: a command that must wait: last, but an ABORT goes ahead of all that wait but earlier ABORTs. -/
def queueUp (i : Instr) (l : List Instr) : List Instr :=
  if isAbort i then l.takeWhile isAbort ++ i :: l.dropWhile isAbort else l ++ [i]

/-- R51, R52: an accepted command is in flight; it waits or begins. -/
def Dev.begin (s : State) (sp : OpSpec) (self : Instr) (c : Cmd) (d : Dev) : Dev × Option Cmd :=
  let lim := if c.who = 4 then 16 else 256
  if c.who < 5 ∧ (d.inFlightOf c.who).length ≥ lim then (d.finalReply c St.busy Rs.inFlightLimit [], none)
  else
    let d := { d with anvil := { d.anvil with inFlight := d.anvil.inFlight ++ [c] } }
    if sp.known && d.mustWait c.who c.h sp.op then ({ d with anvil := { d.anvil with waiting := queueUp self d.anvil.waiting } }, none)
    else d.checks s sp c

/-- R53, steps 8 and 9. -/
def Dev.seqStep (s : State) (sp : OpSpec) (self : Instr) (c : Cmd) (d : Dev) : Dev × Option Cmd :=
  if c.who > 3 then d.begin s sp self c
  else
    let se := d.sess c.who
    match seqRule se c.h.seq with
    | .acceptNew => (d.setSess c.who (se.accept c.h.seq true)).begin s sp self c
    | .accept => (d.setSess c.who (se.accept c.h.seq false)).begin s sp self c
    | .resend p => (((d.bump 0 R.TNK_AV_DUP).sendPkt c.h.route p (d.replyDelay c.h)).countAuth c.who (u8 p.body 0), none)
    | .ignore => (d.bump 0 R.TNK_AV_DUP, none)
    | .stale => ((d.replyRaw c.h sp.op St.staleSeq 0 [] (if se.auth then some se.sk else none)).countAuth c.who St.staleSeq, none)

/-- R53: the gate. It answers the device after the checks, and the command where it begins now. -/
def gate (sp : OpSpec) (h : Hdr) (p : Bytes) (self : Instr) (s : State) : Dev × Option Cmd :=
  let d := s.dev
  if d.anvil.resuming then
    let d := { d with anvil := { d.anvil with resuming := false } }
    match d.whoSends h sp.op with
    | none => (d, none)
    | some w => d.checks s sp { who := w, epoch := (d.sess w).epoch, h := h, op := sp.op, p := p }
  else if d.silent h then (d, none)
  else if p.length > 4096 then (d.bump 0 R.TNK_AV_FRAMING, none)
  else if ¬ targetOk h then (d.bump 0 R.TNK_AV_TARGET, none)
  else if ¬ d.targeted h then (d, none)
  else if h.version ≠ 1 then (d.replyRaw h sp.op St.badOpcode Rs.version [] none, none)
  else if ¬ d.pwr.ready ∧ ¬ (sp.op = 1 ∨ sp.op = 2 ∨ sp.op = 3) then
    (d.replyRaw h sp.op St.busyInit d.pwr.stage (enc 2 (min d.elapsedMs 65535)) none, none)
  else
    match d.whoSends h sp.op with
    | none => (d.replyRaw h sp.op St.badState Rs.noSession [] none, none)
    | some w =>
      if ¬ d.macOk w h sp.op p then ((d.replyRaw h sp.op St.authFail Rs.badMac [] none).countAuth w St.authFail, none)
      else
        let d := if w < 4 then d.setSess w { d.sess w with lastValid := d.stamp, usable := true } else d
        match sp.auth d h p with
        | some r => ((d.replyRaw h sp.op St.authFail r [] none).countAuth w St.authFail, none)
        | none => d.seqStep s sp self { who := w, epoch := (d.sess w).epoch, h := h, op := sp.op, p := p }

/-- The command's answer, as its meaning gives it. -/
def finish (c : Cmd) (d : Dev) (r : Rep) : Dev :=
  match r with
  | .reply st rs data => d.finalReply c st rs data
  | .later => d

/-- An Anvil command whose effect is on the device alone: gate, then `body`, then its reply. -/
def anvil (sp : OpSpec) (h : Hdr) (p : Bytes) (self : Instr) (body : Cmd → Dev → Dev × Rep) (s : State) :
    Host.Outcome State Fault Refusal :=
  match gate sp h p self s with
  | (d, none) => .next { s with dev := d }
  | (d, some c) => let (d, r) := body c d; .next { s with dev := finish c d r }

/-- An Anvil command whose effect is on the device and the object heap. -/
def anvilH (sp : OpSpec) (h : Hdr) (p : Bytes) (self : Instr) (body : Cmd → Heap → Dev → Heap × Dev × Rep) (s : State) :
    Host.Outcome State Fault Refusal :=
  match gate sp h p self s with
  | (d, none) => .next { s with dev := d }
  | (d, some c) => let (hp, d, r) := body c s.heap d; .next { s with dev := finish c d r, heap := hp }

/-- An Anvil command that changes the device but only reads the object heap. -/
def anvilR (sp : OpSpec) (h : Hdr) (p : Bytes) (self : Instr) (body : Cmd → Heap → Dev → Dev × Rep) (s : State) :
    Host.Outcome State Fault Refusal :=
  anvil sp h p self (fun c d => body c s.heap d) s

/-- An event whose effect is on the device alone. -/
def event (f : Dev → Dev) (s : State) : Host.Outcome State Fault Refusal := .next { s with dev := f s.dev }

/-- R455, R516: the hearth side does nothing: it is held in reset, or the device has shut down thermally. -/
def Dev.hearthOff (d : Dev) : Bool := d.pwr.hearthHeld || d.thm.shutdown

/-- An event of the hearth side: without effect while the hearth does nothing. -/
def hearthEvent (f : Dev → Dev) (s : State) : Host.Outcome State Fault Refusal := event (fun d => if d.hearthOff then d else f d) s

/-- An event whose effect is on the device and the object heap. -/
def eventH (f : Heap → Dev → Heap × Dev) (s : State) : Host.Outcome State Fault Refusal :=
  let (hp, d) := f s.heap s.dev
  .next { s with dev := d, heap := hp }

/-- An event of the hearth side whose effect is on the device and the object heap. -/
def hearthEventH (f : Heap → Dev → Heap × Dev) (s : State) : Host.Outcome State Fault Refusal :=
  eventH (fun hp d => if d.hearthOff then (hp, d) else f hp d) s

/-- A check of step 12: the first failing condition gives its reason. -/
def failIf (l : List (Bool × Nat)) : Option Nat := (l.find? (·.1)).map (·.2)

end Sys2Proof.Machine
end

