-- ==== Sys2Proof/Machine/Flash.lean ====
section
/-! DEFINITION. The serial flash (R456–R460, R469–R471): boot configuration and the ash journal. -/

namespace Sys2Proof.Machine

/-- R458: the copy of the boot configuration in use: the valid one with the higher GEN; reset values where neither is valid. -/
def Dev.bootCfg (d : Dev) : Option BootCfg :=
  match d.ash.boot.getD 0 none, d.ash.boot.getD 1 none with
  | some a, some b => if b.gen > a.gen then some b else some a
  | some a, none => some a
  | none, b => b

/-- R458: the copy that is not in use. -/
def Dev.bootOther (d : Dev) : Nat :=
  match d.ash.boot.getD 0 none, d.ash.boot.getD 1 none with
  | some a, some b => if b.gen > a.gen then 0 else 1
  | some _, none => 1
  | none, _ => 0

/-- R458: a write of the boot configuration: the other copy, with GEN + 1. -/
def Dev.bootSave (d : Dev) (f : BootCfg → BootCfg) : Dev :=
  let b := d.bootCfg.getD { gen := 0, rate0 := 0, rate1 := 0, if16 := zeros 28, slot := 0, fails := 0 }
  let b := f { b with gen := b.gen + 1 }
  { d with ash := { d.ash with boot := d.ash.boot.set d.bootOther (some b) } }

end Sys2Proof.Machine
end

