-- ==== Sys2Proof/Machine/Bellows.lean ====
section
/-! DEFINITION. Bellows (class 0x23, R297–R316): the loops' arithmetic at a tick, competition groups, enabling, banks and
swaps, and the opcodes. -/

namespace Sys2Proof.Machine

namespace Rsw
/-- R309. -/
abbrev loopOn := 0x40
abbrev bankActive := 0x41
abbrev groupFull := 0x42
abbrev rateMismatch := 0x43
abbrev swapPending := 0x44
end Rsw

/-- R297: the flue die (ID) and local number of a loop. -/
def loopDie (L : Nat) : Nat := 8 + L / 24
def loopLocal (L : Nat) : Nat := L % 24

/-- R306: the function of a loop. -/
def loopFn (L : Nat) : Nat := FnId.bellows (L / 24) (L % 24)

def Dev.loop (d : Dev) (L : Nat) : Loop := d.blw.loops.getD L {}
def Dev.setLoop (d : Dev) (L : Nat) (x : Loop) : Dev := { d with blw := { d.blw with loops := d.blw.loops.set L x } }

/-- R307: the coefficient fields of a bank in the order of R311. -/
def coeffs (l bank : Nat) : List Fld :=
  if bank = 0 then [R.BLW_L_A_KP l, R.BLW_L_A_KI l, R.BLW_L_A_KD l, R.BLW_L_A_B0 l, R.BLW_L_A_B1 l, R.BLW_L_A_B2 l, R.BLW_L_A_A1 l, R.BLW_L_A_A2 l]
  else [R.BLW_L_B_KP l, R.BLW_L_B_KI l, R.BLW_L_B_KD l, R.BLW_L_B_B0 l, R.BLW_L_B_B1 l, R.BLW_L_B_B2 l, R.BLW_L_B_A1 l, R.BLW_L_B_A2 l]

/-- The bank a loop runs (BLW_BANK). -/
def Dev.bankOf (d : Dev) (L : Nat) : Nat := b2n (bit (d.rd (loopDie L) R.BLW_BANK) (loopLocal L))

/-- R307: the refusal of a coefficient write to a bank. -/
def Dev.coeffRefused (d : Dev) (L bank : Nat) : Option Nat :=
  if d.bankOf L = bank then some Rsw.bankActive
  else if d.blw.swaps.any fun s => s.loop = L && s.bank = bank then some Rsw.swapPending else none

/-- R304: the other members of a group of a die. -/
def Dev.groupMates (d : Dev) (f g l : Nat) : List Nat :=
  (List.range 24).filter fun k =>
    k ≠ l && d.rd (8 + f) (R.BLW_L_CFG_GROUPED k) = 1 && d.rd (8 + f) (R.BLW_L_CFG_GROUP k) = g

/-- R304, R306, R309: what refuses a configuration (ADC, RATE, GROUP or none, FILTER) of a loop. -/
def Dev.cfgRefused (d : Dev) (L adc rate : Nat) (group : Option Nat) (filter : Nat) : Option (Nat × Nat) :=
  let die := loopDie L
  let l := loopLocal L
  let now := (d.rd die (R.BLW_L_CFG_ADC l), d.rd die (R.BLW_L_CFG_RATE l),
    if d.rd die (R.BLW_L_CFG_GROUPED l) = 1 then some (d.rd die (R.BLW_L_CFG_GROUP l)) else none, d.rd die (R.BLW_L_CFG_FILTER l))
  if (d.fn (loopFn L)).st ≠ .off ∧ now ≠ (adc, rate, group, filter) then some (St.badState, Rsw.loopOn)
  else match group with
    | none => none
    | some g =>
      let mates := d.groupMates (L / 24) g l
      if mates.length ≥ 6 then some (St.noResource, Rsw.groupFull)
      else if mates.any fun k => d.rd die (R.BLW_L_CFG_RATE k) ≠ rate then some (St.badState, Rsw.rateMismatch) else none

/-- What the gate must know of BELLOWS_LOOP_SET. -/
def specBellowsLoopSet : OpSpec :=
  { op := 0x2300, len := (· = 20), check := fun _ _ p => failIf [
      (decide (u8 p 0 > 47) || decide (u8 p 1 > 15) || decide (u8 p 2 > 8) || (decide (u8 p 3 > 7) && u8 p 3 ≠ 0xFF), 0),
      (decide (u32 p 4 ≥ 65536) || !zero? p 18 2, Rs.reserved),
      (bits (u32 p 4) 15 8 = 0 || bits (u32 p 4) 3 2 = 2 || bits (u32 p 4) 5 4 = 2, 0),
      (decide (s16 p 10 < s16 p 8) || decide (u16 p 12 > 0x7FFF) || decide (u16 p 14 > 0x7FFF) || decide (u16 p 14 < u16 p 12)
        || decide (s16 p 16 < s16 p 8) || decide (s16 p 16 > s16 p 10), 0)] }

/-- BELLOWS_LOOP_SET (R310). -/
def execBellowsLoopSet (h : Hdr) (p : Bytes) (s : State) : Host.Outcome State Fault Refusal :=
  anvil specBellowsLoopSet h p (.bellowsLoopSet h p)
    (fun _ d =>
      let L := u8 p 0
      let l := loopLocal L
      let die := loopDie L
      let group := if u8 p 3 = 0xFF then none else some (u8 p 3)
      match d.cfgRefused L (u8 p 1) (u8 p 2) group (u16 p 6) with
      | some (st, rs) => (d, .bad st rs)
      | none =>
        let ws : List (List (Fld × Nat)) := [
          [(R.BLW_L_CFG_ADC l, u8 p 1), (R.BLW_L_CFG_RATE l, u8 p 2), (R.BLW_L_CFG_GROUP l, group.getD 0),
            (R.BLW_L_CFG_GROUPED l, b2n group.isSome), (R.BLW_L_CFG_FILTER l, u16 p 6)],
          [(R.BLW_L_ILIM_I_LO l, u16 p 8), (R.BLW_L_ILIM_I_HI l, u16 p 10)],
          [(R.BLW_L_OLIM_OUT_LO l, u16 p 12), (R.BLW_L_OLIM_OUT_HI l, u16 p 14)],
          [(R.BLW_L_INIT l, u16 p 16)]]
        let (_, d, r) := d.flueWrites h [die] ws (fun w => (die, w.head?.map (·.1))) fun d w => w.foldl (fun d e => d.wr die e.1 e.2) d
        (d, r.getD .done)) s

/-- What the gate must know of BELLOWS_COEFF_SET. -/
def specBellowsCoeffSet : OpSpec :=
  { op := 0x2301, len := (· = 20), check := fun _ _ p => failIf [
      (decide (u8 p 0 > 47) || decide (u8 p 1 > 1), 0), (!zero? p 2 2, Rs.reserved)] }

/-- BELLOWS_COEFF_SET (R311). -/
def execBellowsCoeffSet (h : Hdr) (p : Bytes) (s : State) : Host.Outcome State Fault Refusal :=
  anvil specBellowsCoeffSet h p (.bellowsCoeffSet h p)
    (fun _ d =>
      let L := u8 p 0
      let die := loopDie L
      match d.coeffRefused L (u8 p 1) with
      | some r => (d, .bad St.badState r)
      | none =>
        let fs := coeffs (loopLocal L) (u8 p 1)
        let ws := (List.range 4).map fun i => [(fs.getD (2 * i) R.BLW_CLEAR, u16 p (4 + 4 * i)), (fs.getD (2 * i + 1) R.BLW_CLEAR, u16 p (6 + 4 * i))]
        let (_, d, r) := d.flueWrites h [die] ws (fun w => (die, w.head?.map (·.1))) fun d w => w.foldl (fun d e => d.wr die e.1 e.2) d
        (d, r.getD .done)) s

/-! Swaps (R307, R308). -/

/-- A swap leaves: it has been applied, replaced or dropped. The command completes when its last swap is done. -/
def Dev.swapGone (d : Dev) (s : Swap) : Dev :=
  let d := { d with blw := { d.blw with swaps := d.blw.swaps.filter (·.id ≠ s.id), staged := d.blw.staged.filter (·.2 ≠ s.id) } }
  match s.cmd with
  | none => d
  | some c => if d.blw.swaps.any fun t => t.cmd = some c then d else d.complete c St.done 0

/-- R307: a due swap is applied. -/
def Dev.swapApply (d : Dev) (s : Swap) : Dev :=
  let die := loopDie s.loop
  let w := setBits (BitVec.ofNat 32 (d.rd die R.BLW_BANK)) (loopLocal s.loop) (loopLocal s.loop) s.bank
  (d.wr die R.BLW_BANK w.toNat).swapGone s

/-- R308: a swap pending for a loop is replaced: its command completes SUPERSEDED; that command's other swaps stand. -/
def Dev.swapReplace (d : Dev) (L : Nat) : Dev :=
  match d.blw.swaps.find? (·.loop = L) with
  | none => d
  | some s =>
    let keep (t : Swap) : Swap := if t.cmd = s.cmd then { t with cmd := none } else t
    let d' := { d with blw := { d.blw with swaps := d.blw.swaps.map keep } }
    let d := match s.cmd with
      | none => d
      | some c => d'.complete c St.badState Rs.superseded
    d.swapGone { s with cmd := none }

/-- A swap is requested for a loop: at its next tick, or staged for the next commit. -/
def Dev.swapAsk (d : Dev) (L bank : Nat) (cmd : Option Cmd) (due : Bool) : Dev :=
  let d := d.swapReplace L
  let id := d.blw.nextId
  let b := { d.blw with
    nextId := id + 1, swaps := d.blw.swaps ++ [⟨id, L, bank, cmd, due⟩]
    staged := if due then d.blw.staged else d.blw.staged ++ [(L, id)] }
  { d with blw := b }

/-- R307: a swap for a loop that is OFF applies as soon as it is due. -/
def Dev.swapOff (d : Dev) : Dev :=
  (d.blw.swaps.filter fun s => s.due && (d.fn (loopFn s.loop)).st = .off).foldl Dev.swapApply d

/-- The loops named by a mask. -/
def maskLoops (m : Nat) : List Nat := (List.range 48).filter (bit m)

/-- What the gate must know of BELLOWS_SWAP. -/
def specBellowsSwap : OpSpec :=
  { op := 0x2302, len := (· = 16), check := fun _ _ p => failIf [
      (u16 p 0 ≠ 0 || !zero? p 10 6, Rs.reserved), (u64 p 0 = 0 || decide (u8 p 8 > 1) || decide (u8 p 9 > 1), 0)] }

/-- BELLOWS_SWAP (R312). -/
def execBellowsSwap (h : Hdr) (p : Bytes) (s : State) : Host.Outcome State Fault Refusal :=
  anvil specBellowsSwap h p (.bellowsSwap h p)
    (fun c d =>
      let ls := maskLoops (u48 p 2)
      let dies := flueDies.filter fun k => ls.any fun L => loopDie L = k
      let now := decide (u8 p 9 = 0)
      let (_, d, r) := d.flueWrites h dies dies (fun k => (k, none)) fun d k =>
        (ls.filter fun L => loopDie L = k).foldl (fun d L => d.swapAsk L (u8 p 8) (if now then some c else none) now) d
      match r with
      | some r => if now then d.acceptedFail c r else (d, r)
      | none => if now then ((d.finalReply c St.accepted 0 []).swapOff, .later) else (d, .done)) s

/-- R307, R212: the flue part of a commit is applied on a die: the swaps it carried become due. -/
def Dev.swapsDue (d : Dev) (f commit : Nat) : Dev :=
  let ids := ((d.blw.carried.filter (·.1 = commit)).map fun e => e.2.map (·.2)).flatten
  let mark (s : Swap) : Swap := if ids.contains s.id && s.loop / 24 = f then { s with due := true } else s
  { d with blw := { d.blw with swaps := d.blw.swaps.map mark } }.swapOff

/-- R307: the flue part is dropped on a die: its swaps are dropped and counted. -/
def Dev.swapsDropped (d : Dev) (f commit : Nat) : Dev :=
  let ids := ((d.blw.carried.filter (·.1 = commit)).map fun e => e.2.map (·.2)).flatten
  let gone := d.blw.swaps.filter fun s => ids.contains s.id && s.loop / 24 = f
  (gone.foldl Dev.swapGone d).bump (8 + f) R.BLW_SWAP_DROPPED gone.length

/-- What the gate must know of BELLOWS_SETPOINT. -/
def specBellowsSetpoint : OpSpec :=
  { op := 0x2303, len := fun n => n ≥ 4 && n % 4 = 0, fits := fun p => p.length = 4 + 4 * u8 p 0, check := fun _ _ p =>
      let n := u8 p 0
      let ents := (List.range n).map fun i => (u8 p (4 + 4 * i), u16 p (6 + 4 * i))
      failIf [
      (n = 0 || decide (n > 48) || ents.any (fun e => decide (e.1 > 47) || decide (e.2 > 0x7FFF)), 0),
      (!zero? p 1 3 || (List.range n).any (fun i => !zero? p (5 + 4 * i) 1), Rs.reserved)] }

/-- BELLOWS_SETPOINT (R313, R303). -/
def execBellowsSetpoint (h : Hdr) (p : Bytes) (s : State) : Host.Outcome State Fault Refusal :=
  let n := u8 p 0
  let ents := (List.range n).map fun i => (u8 p (4 + 4 * i), u16 p (6 + 4 * i))
  anvil specBellowsSetpoint h p (.bellowsSetpoint h p)
    (fun _ d =>
      let dies := flueDies.filter fun k => ents.any fun e => loopDie e.1 = k
      let (_, d, r) := d.flueWrites h dies ents (fun e => (loopDie e.1, some (R.BLW_L_SETPOINT (loopLocal e.1)))) fun d e => d.wr (loopDie e.1) (R.BLW_L_SETPOINT (loopLocal e.1)) e.2
      (d, r.getD .done)) s

/-- What the gate must know of BELLOWS_ENABLE. -/
def specBellowsEnable : OpSpec :=
  { op := 0x2304, len := (· = 4), check := fun _ _ p => failIf [
      (decide (u8 p 0 > 47) || decide (u8 p 1 > 1), 0), (!zero? p 2 2, Rs.reserved)] }

/-- BELLOWS_ENABLE (R314, R306). -/
def execBellowsEnable (h : Hdr) (p : Bytes) (s : State) : Host.Outcome State Fault Refusal :=
  anvil specBellowsEnable h p (.bellowsEnable h p)
    (fun c d =>
      let L := u8 p 0
      let (d, rep, _) := d.requestFlue h [loopDie L] (loopFn L) (u8 p 1 = 1) true c
      (d, rep)) s

/-- R315: the 52 bytes of a flue die. -/
def Dev.bellowsBlock (d : Dev) (f : Nat) : Bytes :=
  let die := 8 + f
  let states := ((List.range 24).map fun l => (d.fn (loopFn (24 * f + l))).st.num * 4 ^ l).sum
  enc 6 states ++ enc 3 (d.rd die R.BLW_BANK) ++ zeros 3
    ++ ((List.range 8).map fun g =>
      let w := d.rd die (R.BLW_GROUP_WINNER g)
      enc 2 (d.rd die (R.BLW_GROUP_OUT g)) ++ enc 1 (if w = 0x1F then 0xFF else w) ++ enc 1 (d.rd die (R.BLW_GROUP_IDLE g))).flatten
    ++ enc 4 (d.rd die R.BLW_SKIP) ++ enc 4 (d.rd die R.BLW_SAT)

/-- What the gate must know of BELLOWS_STATUS. -/
def specBellowsStatus : OpSpec :=
  { op := 0x2305, len := (· = 0) }

/-- BELLOWS_STATUS (R315). -/
def execBellowsStatus (h : Hdr) (p : Bytes) (s : State) : Host.Outcome State Fault Refusal :=
  anvil specBellowsStatus h p (.bellowsStatus h p)
    (fun _ d => d.flueRead h flueDies fun d => (d, .done (d.bellowsBlock 0 ++ d.bellowsBlock 1))) s

/-! The tick (R298–R308). -/

/-- R298: a raw code through the trim of its channel. -/
def trimCode (raw : Nat) (offset : Int) (gain : Nat) : Nat :=
  (clampI 0 65535 (roundDiv (((raw : Int) - offset) * gain) 16384)).toNat

/-- R299: the filter of a loop (FILTER [15:0] of R310) matches a sample of a local array with a tag. -/
def filterMatches (fl array : Nat) (tag : Option (Nat × Nat × Bool × Bool)) : Bool :=
  let c := bits fl 1 0
  let ar := bits fl 3 2
  let ph := bits fl 5 4
  let mask := bits fl 15 8
  match tag with
  | none => c = 3 && ar = 3 && ph = 3 && mask = 0xFF
  | some (tc, tp, lit, edge) =>
    (c = 3 || c = tc) && (ar = 3 || ar = array) && (ph = 3 || ph = b2n lit) && bit mask tp && (ph = 3 || !edge)

/-- R301: a sample as it enters the mean, in 1/256 of a code: NORM refers it to the colour's full amplitude; one without
a plane is not scaled. -/
def normCode (norm : Bool) (tag : Option (Nat × Nat × Bool × Bool)) (c : Nat) : Nat :=
  match norm, tag with
  | true, some (_, p, _, _) => min (c * (65280 / 2 ^ p)) (65535 * 256)
  | _, _ => c * 256

/-- R298, R301: a sample arrives: the channel's codes, and the windows it belongs to. -/
def Dev.adcSample (d : Dev) (f : Nat) (a : AdcSample) : Dev :=
  let die := 8 + f
  let c := trimCode a.raw (signed 16 (d.rd die (R.BLW_ADC_OFFSET a.ch))) (d.rd die (R.BLW_ADC_GAIN a.ch))
  let tag := d.quenchTag f a.time
  let d := (d.wr die (R.BLW_ADC_CODE_RAW a.ch) a.raw).wr die (R.BLW_ADC_CODE_TRIMMED a.ch) c
  (List.range 24).foldl (fun d l =>
    let fl := d.rd die (R.BLW_L_CFG_FILTER l)
    if d.rd die (R.BLW_L_CFG_ADC l) = a.ch && filterMatches fl a.array tag then
      let x := d.loop (24 * f + l)
      d.setLoop (24 * f + l) { x with sum := x.sum + normCode (bit fl 6) tag c, count := x.count + 1 }
    else d) d

/-- R302: the 40-bit accumulator's saturation, with whether it saturated. -/
def sat40 (x : Int) : Int × Bool := (satS 40 x, satS 40 x ≠ x)

/-- R302: Q10.30 to Q1.15. -/
def q15 (x : Int) : Int := satS 16 (roundDiv x 32768)

/-- R302: the biquad with coefficients B0, B1, B2, A1, A2: its output, the loop after it, and whether it saturated. -/
def biquad (x : Loop) (b0 b1 b2 a1 a2 v : Int) : Int × Loop × Bool :=
  let acc := b0 * v + b1 * x.x1 + b2 * x.x2 - a1 * x.y1 - a2 * x.y2
  let (a, sat) := sat40 (2 * acc)
  let r := q15 a
  (r, { x with x2 := x.x1, x1 := v, y2 := x.y1, y1 := r }, sat)

/-- What a computation of R302 gives: the loop after it (integrator as before), out, and the integrator it would take. -/
structure LoopOut where
  loop : Loop
  out  : Int
  ic   : Int
  sats : Nat

/-- R302: one tick's computation of a loop from its measurement. -/
def loopCompute (x : Loop) (m sp iLo iHi oLo oHi : Int) (k : List Int) (pre : Bool) : LoopOut :=
  let kp := k.getD 0 0
  let ki := k.getD 1 0
  let kd := k.getD 2 0
  let bq := fun (x : Loop) (v : Int) => biquad x (k.getD 3 0) (k.getD 4 0) (k.getD 5 0) (k.getD 6 0) (k.getD 7 0) v
  let (v, x, s1) := if pre then bq x m else (m, x, false)
  let e := sp - v
  let p := kp * e
  let ic := clampI (iLo * 32768) (iHi * 32768) (x.integ + ki * e)
  let dd := kd * (x.vPrev.getD v - v)
  let (acc, s2) := sat40 (p + ic + dd)
  let u := q15 acc
  let (y, x, s3) := if pre then (u, x, false) else bq x u
  ⟨{ x with vPrev := some v }, clampI oLo oHi y, ic, b2n s1 + b2n s2 + b2n s3⟩

/-- R300: a loop is due at a tick of the 192 kHz grid with a number, or at a FRAME tick. -/
def Dev.loopDue (d : Dev) (f l : Nat) (frame : Bool) (tick : Nat) : Bool :=
  let r := d.rd (8 + f) (R.BLW_L_CFG_RATE l)
  if frame then r = 8 else r < 8 && tick % 2 ^ r = 0

/-- R308: a due loop at its tick, up to the computation: swaps and a completed enable are applied; the third component is
the integrator to take if it wins, none where the tick is skipped. -/
def Dev.loopTick (d : Dev) (L : Nat) : Dev × Option Int :=
  let die := loopDie L
  let l := loopLocal L
  let d := (d.blw.swaps.filter fun s => s.loop = L && s.due).foldl Dev.swapApply d
  let x := d.loop L
  let window := (x.sum, x.count)
  let d := d.setLoop L { x with sum := 0, count := 0 }
  let rd (f : Fld) : Int := signed 16 (d.rd die f)
  match (d.fn (loopFn L)).st with
  | .off => (d, none)
  | .stopping => ((d.fnDone (loopFn L)).1, none)
  | st =>
    let d := if st = .starting then
        let d := d.setLoop L { integ := rd (R.BLW_L_INIT l) * 32768 }
        (d.fnDone (loopFn L)).1
      else d
    if window.2 = 0 then (d.bump die R.BLW_SKIP, none)
    else
      let mean := (roundDiv window.1 (256 * window.2)).toNat
      let m := mean / 2
      let o := loopCompute (d.loop L) m (rd (R.BLW_L_SETPOINT l)) (rd (R.BLW_L_ILIM_I_LO l)) (rd (R.BLW_L_ILIM_I_HI l))
        (rd (R.BLW_L_OLIM_OUT_LO l)) (rd (R.BLW_L_OLIM_OUT_HI l)) ((coeffs l (d.bankOf L)).map rd) (bit (d.rd die (R.BLW_L_CFG_FILTER l)) 7)
      let d := (d.setLoop L o.loop).bump die R.BLW_SAT o.sats
      ((d.wr die (R.BLW_L_MEAS l) m).wr die (R.BLW_L_OUT l) (twos 16 o.out), some o.ic)

/-- R304: the ON members of a group of a die. -/
def Dev.groupOn (d : Dev) (f g : Nat) : List Nat :=
  (List.range 24).filter fun l =>
    d.rd (8 + f) (R.BLW_L_CFG_GROUPED l) = 1 && d.rd (8 + f) (R.BLW_L_CFG_GROUP l) = g && (d.fn (loopFn (24 * f + l))).st = .on

/-- R304: the member with the lowest out, ties to the lowest loop. -/
def Dev.groupWinner (d : Dev) (f g : Nat) : Option Nat :=
  (d.groupOn f g).foldl (fun b l => match b with
    | none => some l
    | some k => if d.rd (8 + f) (R.BLW_L_OUT l) < d.rd (8 + f) (R.BLW_L_OUT k) then some l else some k) none

/-- R305: a group's output after its members' tick. -/
def Dev.groupResult (d : Dev) (f g : Nat) : Dev :=
  let die := 8 + f
  match d.groupWinner f g with
  | none => (d.wr die (R.BLW_GROUP_WINNER g) 0x1F).wr die (R.BLW_GROUP_IDLE g) 1
  | some l => ((d.wr die (R.BLW_GROUP_OUT g) (2 * d.rd die (R.BLW_L_OUT l))).wr die (R.BLW_GROUP_WINNER g) l).wr die (R.BLW_GROUP_IDLE g) 0

/-- R304: a loop that computed takes its integrator unless it lost in its group; INTEG shows [39:8]. -/
def Dev.loopTake (d : Dev) (L : Nat) (ic : Option Int) : Dev :=
  let die := loopDie L
  let l := loopLocal L
  let wins := d.rd die (R.BLW_L_CFG_GROUPED l) = 0 || d.groupWinner (L / 24) (d.rd die (R.BLW_L_CFG_GROUP l)) = some l
  let d := match ic with
    | some v => if wins then d.setLoop L { d.loop L with integ := v } else d
    | none => d
  d.wr die (R.BLW_L_INTEG l) (twos 40 (d.loop L).integ / 256)

/-- BELLOWS_TICK (R300–R308): a tick of the 192 kHz grid of a flue die, or its FRAME tick, with the samples that have arrived
since the die's last tick: those taken at the tick or later belong to the windows it begins (R11). -/
def execBellowsTick (f : Nat) (frame : Bool) (samples : List AdcSample) (s : State) : Host.Outcome State Fault Refusal :=
  event (fun d =>
    if f > 1 then d
    else
      let (before, after) := (samples.filter (·.ch < 16)).partition fun a => decide (a.time < d.media)
      let d := before.foldl (fun d a => d.adcSample f a) d
      let tick := d.rd (8 + f) R.BLW_TICK + b2n (!frame)
      let d := d.wr (8 + f) R.BLW_TICK tick
      let due := (List.range 24).filter fun l => d.loopDue f l frame tick
      let groups := (List.range 8).filter fun g => due.any fun l =>
        d.rd (8 + f) (R.BLW_L_CFG_GROUPED l) = 1 && d.rd (8 + f) (R.BLW_L_CFG_GROUP l) = g
      let ran := due.filter fun l => (d.fn (loopFn (24 * f + l))).st ≠ .off
      let (d, ics) := due.foldl (fun (d, ics) l =>
        let (d, ic) := Dev.loopTick d (24 * f + l)
        (d, ics ++ [(l, ic)])) (d, ([] : List (Nat × Option Int)))
      let d := (ics.filter fun e => ran.contains e.1).foldl (fun d e => d.loopTake (24 * f + e.1) e.2) d
      let d := groups.foldl (fun d g => d.groupResult f g) d
      after.foldl (fun d a => d.adcSample f a) d) s

end Sys2Proof.Machine
end

