-- ==== Sys2Proof/Machine/HeapOps.lean ====
section
/-! DEFINITION. The operations on the object heap: reading and writing an object's bytes in canonical form, allocating
and releasing objects (R178–R181), and reading and writing pixels (R179, R186–R191). -/

namespace Sys2Proof.Machine

/-! Bytes of an object: cells with rising addresses, none of value 0 (an unlisted byte reads as 0, R195, R198). -/

/-- The byte at an address. -/
def cellGet : List Host.Cell → Nat → Byte
  | [], _ => 0
  | (a, v) :: r, k => if a = k then v else cellGet r k

/-- The cells with the byte `v` at an address. -/
def cellSet : List Host.Cell → Nat → Byte → List Host.Cell
  | [], k, v => if v = 0 then [] else [(k, v)]
  | (a, w) :: r, k, v =>
    if k < a then (if v = 0 then (a, w) :: r else (k, v) :: (a, w) :: r)
    else if k = a then (if v = 0 then r else (k, v) :: r)
    else (a, w) :: cellSet r k v

/-- The canonical form: addresses rise strictly, and no cell is 0. -/
def cellsWf : List Host.Cell → Bool
  | [] => true
  | (a, v) :: r => v ≠ 0 && (match r with | [] => true | (b, _) :: _ => a < b) && cellsWf r

/-- The last address listed is below a bound. -/
def cellsBelow (l : List Host.Cell) (n : Nat) : Bool := l.all fun e => e.1 < n

/-- A string of bytes written from an address on. -/
def cellsWrite : List Host.Cell → Nat → Bytes → List Host.Cell
  | l, _, [] => l
  | l, a, b :: r => cellsWrite (cellSet l a b) (a + 1) r

/-- `n` bytes read from an address on. -/
def cellsRead (l : List Host.Cell) (a n : Nat) : Bytes := (List.range n).map fun i => cellGet l (a + i)

/-- Bytes written into an object; what lies outside it is not written. -/
def Obj.write (o : Obj) (a : Nat) (b : Bytes) : Obj := { o with cells := cellsWrite o.cells a (b.take (o.size - a)) }

/-- Bytes read from an object. -/
def Obj.read (o : Obj) (a n : Nat) : Bytes := cellsRead o.cells a n

/-- The object of a handle. -/
def Heap.find (hp : Heap) (h : Nat) : Option Obj := hp.objs.find? fun o => o.handle = h

/-- An object of the heap changed; its handle stays. -/
def Heap.upd (hp : Heap) (h : Nat) (f : Obj → Obj) : Heap :=
  { hp with objs := hp.objs.map fun o => if o.handle = h then { f o with handle := o.handle } else o }

/-- R182: a handle is released. -/
def Heap.release (hp : Heap) (h : Nat) : Heap := { hp with objs := hp.objs.filter fun o => o.handle ≠ h }

/-- Bytes written into the object of a handle. -/
def Heap.write (hp : Heap) (h a : Nat) (b : Bytes) : Heap := hp.upd h fun o => o.write a b

/-- R178: the next handle: above the one allocated last, skipping handles in use, wrapping from 65,535 to 1. -/
def nextHandle (used : List Nat) : Nat → Nat → Nat
  | 0, h => h
  | n + 1, h =>
    let h' := if h ≥ 65535 then 1 else h + 1
    if used.contains h' then nextHandle used n h' else h'

/-- R180: the bytes of a die's 4 GiB object heap in use. -/
def Heap.usedOn (hp : Heap) (die : Nat) : Nat :=
  hp.objs.foldl (fun n o => n + (if o.die = die then o.size else 0) + (if o.mirror = some die then o.size else 0)) 0

/-- R180: the size of a die's object heap. -/
def objHeapSize : Nat := 4294967296

/-- R180: the die with the most free space, ties to the lowest number. -/
def Heap.bestDie (hp : Heap) (dies : List Nat) : Option Nat :=
  dies.foldl (fun b k => match b with
    | none => some k
    | some j => if hp.usedOn k < hp.usedOn j then some k else some j) none

/-- R180: the next hob die in ascending order, wrapping, that is in service and has room for a second copy. -/
def Heap.mirrorDie (hp : Heap) (dies : List Nat) (die size : Nat) : Option Nat :=
  ([1, 2, 3].map fun i => (die - 1 + i) % 4 + 1).find? fun k => dies.contains k && decide (hp.usedOn k + size ≤ objHeapSize)

/-- R178, R180: a new object, if handles and memory allow: the reason code otherwise. -/
def Heap.alloc (hp : Heap) (dies : List Nat) (kind : ObjKind) (size : Nat) (mirror : Bool) : Except Nat (Heap × Obj) :=
  if hp.objs.length ≥ 16384 then .error 0x4A
  else
    match hp.bestDie dies with
    | none => .error 0x49
    | some die =>
      if hp.usedOn die + size > objHeapSize then .error 0x49
      else
        let m := if mirror then hp.mirrorDie dies die size else none
        if mirror && m.isNone then .error 0x49
        else
          let h := nextHandle (hp.objs.map (·.handle)) 16385 hp.last
          let o : Obj := ⟨h, kind, size, die, m, false, []⟩
          .ok ({ objs := o :: hp.objs, last := h }, o)

/-- R195: DIE of a create reply. -/
def Obj.dieByte (o : Obj) : Nat := o.die + 16 * (o.mirror.getD 0xF)

def Obj.isBuffer (o : Obj) : Bool := o.kind = .buffer
def Obj.isSurface (o : Obj) : Bool := !o.isBuffer

/-- The bulk buffer of a handle, LOST or not. -/
def Heap.buf (hp : Heap) (h : Nat) : Option Obj := (hp.find h).filter Obj.isBuffer

/-- The surface of a handle. -/
def Heap.surf (hp : Heap) (h : Nat) : Option Obj := (hp.find h).filter Obj.isSurface

/-- R180: at a hob die's region fault, objects without a surviving copy become LOST; a survivor keeps its other copy. -/
def Heap.dieLost (hp : Heap) (die : Nat) : Heap :=
  { hp with objs := hp.objs.map fun o =>
      if o.die = die then
        match o.mirror with
        | some m => { o with die := m, mirror := none }
        | none => { o with lost := true }
      else if o.mirror = some die then { o with mirror := none } else o }

/-- R43: the buffer faults of classes other than 0x02, 0x13 and 0x14 found in a command's parameters. -/
def bufCheck (hp : Heap) (h off n : Nat) : Option Nat :=
  match hp.buf h with
  | none => some Rs.noBuffer
  | some o => if off + n > o.size then some Rs.bufferRange else none

/-! Pixels (R179). -/

/-- R179: bytes per pixel of a format. -/
def fmtBytes (f : Nat) : Nat :=
  match f with
  | 0 => 2
  | 1 => 3
  | 2 => 4
  | 3 => 4
  | 4 => 1
  | _ => 0

/-- R179: PITCH. -/
def pitchOf (f w : Nat) : Nat := ceilDiv (w * fmtBytes f) 256 * 256

/-- R186: tiles across and down, and the bytes of the header array. -/
def tilesX (w : Nat) : Nat := ceilDiv w 64
def tilesY (h : Nat) : Nat := ceilDiv h 4
def headerBytes (w h : Nat) : Nat := ceilDiv (tilesX w * tilesY h * 4) 256 * 256

/-- R179, R186: the bytes of a surface image. -/
def imageBytes (fmt base w h : Nat) : Nat :=
  if fmt = 8 then headerBytes w h + tilesX w * tilesY h * (256 * fmtBytes base) else pitchOf fmt w * h

/-- A pixel by its channels, with each channel's maximum code; `none` where the format has no such channel. -/
structure Pixel where
  a : Option (Nat × Nat)
  r : Option (Nat × Nat)
  g : Option (Nat × Nat)
  b : Option (Nat × Nat)
  deriving DecidableEq, Repr

/-- R179: the channels of a pixel value (its bytes least significant first). -/
def unpackPixel (f v : Nat) : Pixel :=
  match f with
  | 0 => ⟨none, some (bits v 15 11, 31), some (bits v 10 5, 63), some (bits v 4 0, 31)⟩
  | 1 => ⟨none, some (bits v 23 16, 255), some (bits v 15 8, 255), some (bits v 7 0, 255)⟩
  | 2 => ⟨some (bits v 31 24, 255), some (bits v 23 16, 255), some (bits v 15 8, 255), some (bits v 7 0, 255)⟩
  | 3 => ⟨some (bits v 31 30, 3), some (bits v 29 20, 1023), some (bits v 19 10, 1023), some (bits v 9 0, 1023)⟩
  | 4 => ⟨some (bits v 7 0, 255), none, none, none⟩
  | _ => ⟨none, none, none, none⟩

/-- R191: a code of `m` maximum as a code of `n` maximum, ties away from zero. -/
def rescale (v m n : Nat) : Nat := (2 * v * n + m) / (2 * m)

/-- R191: a channel converted: a missing source alpha is the maximum, a missing colour is 0. -/
def chan (c : Option (Nat × Nat)) (n missing : Nat) : Nat :=
  match c with
  | some (v, m) => rescale v m n
  | none => missing

/-- R179, R191: a pixel in a format. -/
def packPixel (f : Nat) (p : Pixel) : Nat :=
  match f with
  | 0 => chan p.r 31 0 * 2048 + chan p.g 63 0 * 32 + chan p.b 31 0
  | 1 => chan p.r 255 0 * 65536 + chan p.g 255 0 * 256 + chan p.b 255 0
  | 2 => chan p.a 255 255 * 2 ^ 24 + chan p.r 255 0 * 65536 + chan p.g 255 0 * 256 + chan p.b 255 0
  | 3 => chan p.a 3 3 * 2 ^ 30 + chan p.r 1023 0 * 2 ^ 20 + chan p.g 1023 0 * 1024 + chan p.b 1023 0
  | 4 => chan p.a 255 255
  | _ => 0

/-- R187: the channels of a pewter base format, in order, as bit depths. -/
def pewterDepths (base : Nat) : List Nat :=
  match base with
  | 1 => [8, 8, 8]
  | 2 => [8, 8, 8, 8]
  | 3 => [2, 10, 10, 10]
  | 4 => [8]
  | _ => []

/-- R187: a tile header by its fields. -/
structure TileHdr where
  mode : Nat
  len  : Nat
  ns   : List Nat
  res  : Nat
  deriving DecidableEq, Repr

def tileHdr (w : Nat) : TileHdr :=
  ⟨bits w 1 0, bits w 11 2, [bits w 15 12, bits w 19 16, bits w 23 20, bits w 27 24], bits w 31 28⟩

/-- R188: the bytes before the planes. -/
def basesBytes (base : Nat) : Nat := ceilDiv (2 * (pewterDepths base).length) 4 * 4

/-- R189: the tile is malformed. -/
def tileBad (base : Nat) (t : TileHdr) : Bool :=
  let ds := pewterDepths base
  let slot := 256 * fmtBytes base
  let ns := t.ns.take ds.length
  let need := match t.mode with
    | 0 => slot / 4
    | 1 => 0
    | _ => (basesBytes base + 32 * ns.sum) / 4
  t.mode = 3 || t.res ≠ 0 || (List.zipWith (fun n b => decide (n > b)) ns ds).any id || t.len ≠ need || decide (t.len * 4 > slot)

/-- R188: the residual of a zigzag code. -/
def unzig (u : Nat) : Int := if u % 2 = 1 then -(((u + 1) / 2 : Nat) : Int) else ((u / 2 : Nat) : Int)

/-- R188: the code of pixel `i` of a channel whose planes begin at `o`, plane 0 first. -/
def planeCode (rd : Nat → Byte) (o n i : Nat) : Nat :=
  (List.range n).foldl (fun u k => u + b2n (bit (rd (o + 32 * k + i / 8)).toNat (i % 8)) * 2 ^ k) 0

/-- R188: the 256 values of a channel, pixel 255 first. -/
def planeValues (rd : Nat → Byte) (o n b base : Nat) : List Nat :=
  (List.range 256).foldl (fun vs i =>
    let pred := if i % 64 > 0 then vs.getD 0 0 else if i ≥ 64 then vs.getD 63 0 else base
    (((pred : Int) + unzig (planeCode rd o n i)) % (2 ^ b : Nat)).toNat :: vs) []

/-- R188: the offset of a channel's planes in a slot. -/
def planesAt (base : Nat) (ns : List Nat) (c : Nat) : Nat := basesBytes base + 32 * (ns.take c).sum

/-- R188: the value of each channel of pixel `i` of a MODE 2 tile. -/
def deltaPixel (rd : Nat → Byte) (base : Nat) (ns : List Nat) (i : Nat) : List Nat :=
  (List.range (pewterDepths base).length).map fun c =>
    let b0 := (rd (2 * c)).toNat + 256 * (rd (2 * c + 1)).toNat
    (planeValues rd (planesAt base ns c) (ns.getD c 0) ((pewterDepths base).getD c 0) b0).getD (255 - i) 0

/-- The pixel value in the base format of channel values in pewter order (R179, R187). -/
def joinChannels (base : Nat) (vs : List Nat) : Nat :=
  match base with
  | 1 => vs.getD 0 0 * 65536 + vs.getD 1 0 * 256 + vs.getD 2 0
  | 2 => vs.getD 0 0 * 2 ^ 24 + vs.getD 1 0 * 65536 + vs.getD 2 0 * 256 + vs.getD 3 0
  | 3 => vs.getD 0 0 * 2 ^ 30 + vs.getD 1 0 * 2 ^ 20 + vs.getD 2 0 * 1024 + vs.getD 3 0
  | 4 => vs.getD 0 0
  | _ => 0

/-- The header of a pewter tile by its index (R186, R187). -/
def Obj.tile (o : Obj) (t : Nat) : TileHdr := tileHdr (le 4 (o.read (4 * t) 4) 0)

/-- A pixel of a surface as stored: its value in the surface's (base) format. A malformed pewter tile's pixels read as
0 (R189). -/
def Obj.pixel (o : Obj) (x y : Nat) : Nat :=
  match o.kind with
  | .buffer => 0
  | .surface fmt base _ w h clear =>
    if fmt = 8 then
      let t := (y / 4) * tilesX w + x / 64
      let hd := o.tile t
      let slot := headerBytes w h + t * (256 * fmtBytes base)
      let i := y % 4 * 64 + x % 64
      if tileBad base hd then 0
      else match hd.mode with
        | 0 => le (fmtBytes base) (o.read (slot + i * fmtBytes base) (fmtBytes base)) 0
        | 1 => clear % 256 ^ fmtBytes base
        | _ => joinChannels base (deltaPixel (fun k => cellGet o.cells (slot + k)) base hd.ns i)
    else le (fmtBytes fmt) (o.read (y * pitchOf fmt w + x * fmtBytes fmt) (fmtBytes fmt)) 0

/-- R189: a pixel lies in a malformed pewter tile: it reads as 0 with alpha 0. -/
def Obj.badAt (o : Obj) (x y : Nat) : Bool :=
  match o.kind with
  | .surface 8 base _ w _ _ => tileBad base (o.tile (y / 4 * tilesX w + x / 64))
  | _ => false

/-- The format whose pixel layout a surface's pixels have (R179). -/
def Obj.pixFmt (o : Obj) : Nat :=
  match o.kind with
  | .buffer => 0
  | .surface fmt base _ _ _ _ => if fmt = 8 then base else fmt

def Obj.width (o : Obj) : Nat := match o.kind with | .buffer => 0 | .surface _ _ _ w _ _ => w
def Obj.height (o : Obj) : Nat := match o.kind with | .buffer => 0 | .surface _ _ _ _ h _ => h
def Obj.fmt (o : Obj) : Nat := match o.kind with | .buffer => 0 | .surface f _ _ _ _ _ => f
def Obj.colour (o : Obj) : Nat := match o.kind with | .buffer => 0 | .surface _ _ c _ _ _ => c

/-- A pixel of a surface written (never pewter, R190). -/
def Obj.setPixel (o : Obj) (x y v : Nat) : Obj :=
  o.write (y * pitchOf o.fmt o.width + x * fmtBytes o.fmt) (encLe (fmtBytes o.fmt) v)

end Sys2Proof.Machine
end

