-- ==== Sys2Proof/Machine/Cameras.lean ====
section
/-! DEFINITION. The calibration cameras: class 0x40 and the events of the camera ports (R428–R438, R443–R446, R448). -/

namespace Sys2Proof.Machine

def Dev.cam (d : Dev) (c : Nat) : Cam := d.trm.cams.getD c {}
def Dev.setCam (d : Dev) (c : Nat) (v : Cam) : Dev := { d with trm := { d.trm with cams := d.trm.cams.set c v } }

/-- The port is STARTING, ON or STOPPING. -/
def Dev.camOn (d : Dev) (c : Nat) : Bool := (d.fn (FnId.cam c)).st ≠ .off

/-! A settings block (R445): fields by offset. An empty block is the setting at reset: everything 0. -/

def camBlack (b : Bytes) (pos : Nat) : Nat := u16 b (4 + 2 * pos)
def camWb (b : Bytes) (pos : Nat) : Nat := u16 b (12 + 2 * pos)
def camCcm (b : Bytes) (i j : Nat) : Int := s16 b (20 + 2 * (3 * i + j))
def camZx (b : Bytes) : Nat := u8 b 44
def camZy (b : Bytes) : Nat := u8 b 45

/-- R435: bytes of a record of a settings block. -/
def recordBytes (b : Bytes) : Nat := 64 + camZx b * camZy b * 16

/-- R434: the zone grid of a settings block lies outside a port's image. -/
def gridOutside (cfg : CamCfg) (b : Bytes) : Bool :=
  decide (u16 b 40 + 64 * camZx b > cfg.width) || decide (u16 b 42 + 64 * camZy b > cfg.height)

/-! The image pipeline (R431). -/

/-- R444: colours (0 R, 1 G, 2 B) of the four filter positions of a Bayer order. -/
def cfaColour (cfa pos : Nat) : Nat :=
  match cfa with
  | 0 => [0, 1, 1, 2].getD pos 0
  | 1 => [1, 0, 2, 1].getD pos 0
  | 2 => [1, 2, 0, 1].getD pos 0
  | 3 => [2, 1, 1, 0].getD pos 0
  | _ => 3

/-- The bit depth of a data type. -/
def dtypeBits (t : Nat) : Nat := if t = 0x2A then 8 else if t = 0x2B then 10 else 12

/-- The filter position of a pixel. -/
def cfaPos (x y : Nat) : Nat := y % 2 * 2 + x % 2

/-- A code of a frame's lines. -/
def codeAt (ls : List (List Nat)) (x y : Nat) : Nat := (ls.getD y []).getD x 0

/-- R431 steps 1 and 2: the numerator of a pixel's value over `camDen`. -/
def camLin (b : Bytes) (bits : Nat) (ls : List (List Nat)) (x y : Nat) : Int :=
  let pos := cfaPos x y
  let others := ((List.range 4).filter (· ≠ pos)).foldl (fun n k => n * ((2 ^ bits : Int) - 1 - camBlack b k)) 1
  (max (0 : Int) ((codeAt ls x y : Int) - camBlack b pos)) * camWb b pos * others

/-- The common denominator of `camLin`. -/
def camDen (b : Bytes) (bits : Nat) : Int := (List.range 4).foldl (fun n k => n * ((2 ^ bits : Int) - 1 - camBlack b k)) 4096

/-- R431 step 3: four times the numerator of a colour at an inner pixel: its own value, or the mean of the pixels of that
colour in the 3 × 3 neighbourhood. -/
def camColour (cfg : CamCfg) (b : Bytes) (ls : List (List Nat)) (x y k : Nat) : Int :=
  let own := cfaColour cfg.cfa (cfaPos x y)
  if own = 3 ∨ own = k then 4 * camLin b (dtypeBits cfg.dtype) ls x y
  else
    let near := ((fromN (y - 1) 3).map fun v => (fromN (x - 1) 3).map fun u => (u, v)).flatten.filter fun e =>
      cfaColour cfg.cfa (cfaPos e.1 e.2) = k
    near.foldl (fun n e => n + camLin b (dtypeBits cfg.dtype) ls e.1 e.2) 0 * 4 / near.length

/-- R431 step 4: a channel of a pixel in U4.16; on the border of the image, and where BLACK leaves no range of codes, a free value (log entry
6). -/
def camPixel (cfg : CamCfg) (b : Bytes) (ls : List (List Nat)) (x y i : Nat) : Nat :=
  let noRange := (List.range 4).any fun k => camBlack b k + 1 ≥ 2 ^ dtypeBits cfg.dtype
  if x = 0 ∨ y = 0 ∨ x + 1 ≥ cfg.width ∨ y + 1 ≥ cfg.height ∨ noRange then (Config.demosaicEdge x y i (codeAt ls x y)).toNat
  else
    let n := (List.range 3).foldl (fun n j => n + camCcm b i j * camColour cfg b ls x y j) 0
    (clampI 0 1048575 (roundFree (n * 65536) (4096 * 4 * camDen b (dtypeBits cfg.dtype)))).toNat

/-- The pixels of a zone (R434). -/
def zonePixels (b : Bytes) (zx zy : Nat) : List (Nat × Nat) :=
  ((fromN (u16 b 42 + 64 * zy) 64).map fun y => (fromN (u16 b 40 + 64 * zx) 64).map fun x => (x, y)).flatten

/-- R435: the entry of a zone. -/
def zoneEntry (cfg : CamCfg) (b : Bytes) (ls : List (List Nat)) (zx zy : Nat) : Bytes :=
  let px := zonePixels b zx zy
  let mean (i : Nat) : Nat := (roundFree ((px.foldl (fun n e => n + camPixel cfg b ls e.1 e.2 i) 0 : Nat) : Int) 4096).toNat
  let clip := (px.filter fun e => codeAt ls e.1 e.2 ≥ u16 b 38).length
  encLe 4 (mean 0) ++ encLe 4 (mean 1) ++ encLe 4 (mean 2) ++ encLe 2 clip ++ zeros 2

/-! Flicker (R436). -/

/-- 10,000 times the luminance, summed over a row of the flicker rectangle. -/
def flickerRow (cfg : CamCfg) (b : Bytes) (ls : List (List Nat)) (y : Nat) : Nat :=
  (fromN (u16 b 40 + 64 * u8 b 46) (64 * u8 b 48)).foldl (fun n x =>
    n + 2627 * camPixel cfg b ls x y 0 + 6780 * camPixel cfg b ls x y 1 + 593 * camPixel cfg b ls x y 2) 0

/-- The rows of the rectangle. -/
def flickerRows (cfg : CamCfg) (b : Bytes) (ls : List (List Nat)) : List Nat :=
  (fromN (u16 b 42 + 64 * u8 b 47) (64 * u8 b 49)).map (flickerRow cfg b ls)

/-- R436: the report of a frame: FREQ, AMP, PHASE, mode. -/
def flickerReport (cfg : CamCfg) (b : Bytes) (rows : List Nat) (means : List (Nat × Nat)) : Nat × Nat :=
  let mode := u8 b 50
  let row := if (mode = 1 ∨ mode = 3) ∧ rows.length ≥ 256
    then some (Config.flicker 1 (rows.take (rows.length / 256 * 256)) (cfg.lineNs * 65536)).toNat else none
  let frame := if (mode = 2 ∨ mode = 3) ∧ means.length ≥ 64
    then
      let span := (means.headD (0, 0)).2 - (means.getD 63 (0, 0)).2
      some (Config.flicker 2 (means.map (·.1)) (roundFree span 63).toNat).toNat
    else none
  match row, frame with
  | some r, some f => if bits f 31 16 > bits r 31 16 then (f, 2) else (r, 1)
  | some r, none => (r, 1)
  | none, some f => (f, 2)
  | none, none => (0, 0)

/-! Frames and records (R429, R433–R435). -/

/-- R433: the generation that applied LATENCY frames before the newest. -/
def Cam.expGen (k : Cam) : Nat := k.hist.getD k.cfg.latency (k.hist.getLastD 0)

/-- R433: GEN_EXP: a generation, or 0xFFFF if its sensor writes have failed. -/
def Cam.genExp (k : Cam) (g : Nat) : Nat := if k.failed.contains g then 0xFFFF else g

/-- R434, R435: a frame closes: its record is written to the ring, NEXT advances, the camera's source is raised. -/
def camClose (c : Nat) (trunc dropped : Bool) (hp : Heap) (d : Dev) : Heap × Dev :=
  let k := d.cam c
  match k.frame, k.ring with
  | some f, some r =>
    let b := k.applied.2
    let lost := f.lost > 0 || (!trunc && !dropped && f.lines.length ≠ k.cfg.height)
    let valid := !(trunc || dropped || lost)
    let rows := if valid then flickerRows k.cfg b f.lines else []
    let means := if valid then ((rows.sum, f.sof) :: k.means).take 64 else k.means
    let (flk, mode) := if valid then flickerReport k.cfg b rows means else (0, 0)
    let flick := decide (mode ≠ 0) && decide (bits flk 31 16 ≥ u16 b 52)
    let exp := k.genExp f.genExp
    let expUnknown := exp = 0xFFFF
    let flags := b2n valid + 2 * b2n dropped + 4 * b2n trunc + 8 * b2n lost + 16 * b2n expUnknown + 32 * b2n flick
    let zs := ((List.range (camZy b)).map fun zy => (List.range (camZx b)).map fun zx =>
      if valid then zoneEntry k.cfg b f.lines zx zy else zeros 16).flatten.flatten
    let rec_ := encLe 1 c ++ encLe 1 flags ++ encLe 1 (camZx b) ++ encLe 1 (camZy b) ++ encLe 4 f.num ++ encLe 2 f.gen
      ++ encLe 2 exp ++ encLe 4 f.lines.length ++ encLe 8 f.sof ++ encLe 8 (f.eof.getD (d.short 0)) ++ encLe 8 f.dev
      ++ encLe 4 (bits flk 63 32) ++ encLe 2 (bits flk 31 16) ++ encLe 2 (bits flk 15 0) ++ encLe 1 mode ++ zeros 15 ++ zs
    let hp := match hp.buf r.buffer with
      | some o => if o.lost then hp else hp.write r.buffer (r.offset + k.next * (4 * r.stride)) rec_
      | none => hp
    let d := d.setCam c { k with frame := none, fifo := [], next := (k.next + 1) % r.count, means := means }
    let d := ((d.wr 0 (R.CAM_NEXT c) ((k.next + 1) % r.count)).bump 0 (R.CAM_FRAMES c)).raise (256 + c)
    let d := if trunc then d.bump 0 (R.CAM_TRUNC c) else d
    (hp, if dropped then d.bump 0 (R.CAM_DROPS c) else d)
  | _, _ => (hp, d)

/-- R433: the frame's FE has come and its lines are processed: it closes. -/
def camDrained (c : Nat) (hp : Heap) (d : Dev) : Heap × Dev :=
  let k := d.cam c
  match k.frame with
  | some f => if f.eof.isSome && k.fifo = [] then camClose c false false hp d else (hp, d)
  | none => (hp, d)

/-- All lines of a port's FIFO go through the pipeline. -/
def Cam.drain (k : Cam) : Cam :=
  match k.frame with
  | some f => { k with frame := some { f with lines := f.lines ++ k.fifo }, fifo := [] }
  | none => { k with fifo := [] }

/-! The confidence encoder's tap (R486). -/

def Dev.encTap (d : Dev) (c : Nat) (f : EncTap → EncTap) : Dev := { d with conf := { d.conf with taps := d.conf.taps.modify c f } }

/-- R486: the frame in the tap has closed: it is the newest if all its lines came. -/
def EncTap.close (t : EncTap) (height : Nat) : EncTap :=
  match t.now with
  | some f => if f.2.length = height then { now := none, newest := f, closed := t.closed + 1 } else { t with now := none }
  | none => t

/-- CAM_FRAME_START (R429, R432, R433): FS. A frame still open closes TRUNCATED, unless its FE has come; a bound
generation applies and its sensor write list begins. A port that is STARTING with its list still being written does not
take the frame. -/
def execCamFrameStart (c : Nat) (s : State) : Host.Outcome State Fault Refusal :=
  hearthEventH (fun hp d =>
    if c ≥ 2 ∨ ¬ d.camOn c ∨ (d.fn (FnId.cam c)).st = .stopping ∨ ((d.fn (FnId.cam c)).st = .starting ∧ (d.cam c).writing.isSome) then (hp, d)
    else
      let ended := match (d.cam c).frame with | some f => f.eof.isSome | none => false
      let (hp, d) := if ended then camClose c false false hp (d.setCam c (d.cam c).drain)
        else camClose c true false hp (d.setCam c (d.cam c).drain)
      let k := d.cam c
      let k := match k.pend with
        | some g => { k with applied := g, pend := none, writing := some (g.1, 0, false), failed := k.failed.filter (· ≠ g.1) }
        | none => k
      let k := { k with hist := (k.applied.1 :: k.hist).take 4 }
      let first := (d.fn (FnId.cam c)).st = .starting && k.frame.isNone && k.ignore
      let num := if first then 0 else d.rd 0 (R.CAM_FRAME c) + 1
      let k := { k with ignore := false, fifo := []
                        frame := some { num := num, sof := d.short 0, dev := d.frame, gen := k.applied.1, genExp := k.expGen } }
      let d := ((d.setCam c k).wr 0 (R.CAM_STATE_LOST c) 0).wr 0 (R.CAM_FRAME c) num
      let d := d.encTap c fun t => { t with now := some (k.applied.2, []) }
      (hp, (d.wr 0 (R.CAM_GEN_GEN c) k.applied.1).wr 0 (R.CAM_GEN_GEN_EXP c) (k.genExp k.expGen))) s

/-- CAM_LINE_RX (R428, R429, R438): a long packet arrives: its virtual channel, data type, what its header's ECC says
(0 good, 1 corrected, 2 discarded), whether its payload's CRC is good, and the line's codes. -/
def execCamLineRx (c vc dtype hdr : Nat) (crcOk : Bool) (line : List Nat) (s : State) : Host.Outcome State Fault Refusal :=
  hearthEventH (fun hp d =>
    if c ≥ 2 ∨ ¬ d.camOn c then (hp, d)
    else
      let k := d.cam c
      let d := if hdr = 1 then d.bump 0 (R.CAM_ECC_CORR c) else d
      let d := if hdr < 2 ∧ vc = k.cfg.vc ∧ dtype = k.cfg.dtype ∧ crcOk
        then d.encTap c fun t => { t with now := t.now.map fun f => (f.1, f.2 ++ [line.take k.cfg.width]) } else d
      if hdr ≥ 2 then (hp, d.bump 0 (R.CAM_DISCARD c))
      else if vc = k.cfg.vc ∧ dtype = 0x12 then (hp, d)
      else if vc ≠ k.cfg.vc ∨ dtype ≠ k.cfg.dtype then (hp, d.bump 0 (R.CAM_DISCARD c))
      else if k.ignore then (hp, d)
      else match k.frame with
        | none => (hp, d)
        | some f =>
          if ¬ crcOk then (hp, (d.setCam c { k with frame := some { f with lost := f.lost + 1 } }).bump 0 (R.CAM_CRC c))
          else if k.fifo.length ≥ 8 then camClose c false true hp (d.setCam c { k with fifo := [], ignore := true })
          else (hp, d.setCam c { k with fifo := k.fifo ++ [line.take k.cfg.width] })) s

/-- CAM_FRAME_END (R429, R434): FE. -/
def execCamFrameEnd (c : Nat) (s : State) : Host.Outcome State Fault Refusal :=
  hearthEventH (fun hp d =>
    let k := d.cam c
    let d := if c < 2 ∧ d.camOn c then d.encTap c fun t => t.close k.cfg.height else d
    match k.frame with
    | some f => if c < 2 ∧ d.camOn c ∧ f.eof.isNone
      then camDrained c hp (d.setCam c { k with frame := some { f with eof := some (d.short 0) }, ignore := true }) else (hp, d)
    | none => (hp, d)) s

/-- CAM_FRAME_TIMEOUT (R429): no FE within 2 × PERIOD of FS: closed TRUNCATED. -/
def execCamFrameTimeout (c : Nat) (s : State) : Host.Outcome State Fault Refusal :=
  hearthEventH (fun hp d =>
    let d := if c < 2 ∧ d.camOn c then d.encTap c fun t => { t with now := none } else d
    match (d.cam c).frame with
    | some f => if c < 2 ∧ d.camOn c ∧ f.eof.isNone
      then camClose c true false hp (d.setCam c { (d.cam c).drain with ignore := true }) else (hp, d)
    | none => (hp, d)) s

/-- CAM_LOST (R429): no FS for 4 × PERIOD while the port is ON. -/
def execCamLost (c : Nat) (s : State) : Host.Outcome State Fault Refusal :=
  hearthEvent (fun d => if c < 2 ∧ (d.fn (FnId.cam c)).st = .on ∧ d.rd 0 (R.CAM_STATE_LOST c) = 0
    then (d.wr 0 (R.CAM_STATE_LOST c) 1).raise (256 + c) else d) s

/-- R437: the camera whose line the pipeline takes next. -/
def Dev.nextLine (d : Dev) : Option Nat :=
  let has (c : Nat) : Bool := (d.cam c).fifo ≠ []
  let pref := match d.rd 0 R.CAM_ARB_PRIORITY with | 0 => 0 | 1 => 1 | _ => 1 - d.trm.last
  if has pref then some pref else if has (1 - pref) then some (1 - pref) else none

/-- PIPE_LINE_TAKE (R431, R437): the pipeline finishes a line and takes the next. -/
def execPipeLineTake (s : State) : Host.Outcome State Fault Refusal :=
  hearthEventH (fun hp d =>
    match d.nextLine with
    | none => (hp, d)
    | some c =>
      let k := d.cam c
      let k := match k.frame, k.fifo with
        | some f, l :: r => { k with frame := some { f with lines := f.lines ++ [l] }, fifo := r }
        | _, _ => k
      camDrained c hp { d.setCam c k with trm := { (d.setCam c k).trm with last := c } }) s

/-- R430: the sensor writes of a generation have failed. -/
def Dev.cciFailed (d : Dev) (c : Nat) : Dev :=
  match (d.cam c).writing with
  | some (g, _, _) =>
    let d := (d.setCam c { d.cam c with writing := none, failed := g :: (d.cam c).failed }).bump 0 (R.CAM_CCI_FAIL c)
    match (d.cam c).frame with
    | some f => d.wr 0 (R.CAM_GEN_GEN_EXP c) ((d.cam c).genExp f.genExp)
    | none => d
  | none => d

/-- CCI_WRITE (R430): the next write of the list in progress is sent; one not acknowledged is repeated once, and then the
generation has failed. -/
def execCciWrite (c : Nat) (ack : Bool) (s : State) : Host.Outcome State Fault Refusal :=
  hearthEvent (fun d =>
    let k := d.cam c
    match k.writing with
    | none => d
    | some (g, i, again) =>
      let b := k.applied.2
      let n := u8 b 1
      if i ≥ n then d.setCam c { k with writing := none }
      else
        let d := d.send (.cci c k.cfg.addr (u16 b (56 + 4 * i)) (u8 b (58 + 4 * i)))
        if ack then d.setCam c { k with writing := if i + 1 ≥ n then none else some (g, i + 1, false) }
        else if again then d.cciFailed c
        else d.setCam c { k with writing := some (g, i, true) }) s

/-- CCI_LIST_TIMEOUT (R430): the list was not wholly written within 2 ms. -/
def execCciListTimeout (c : Nat) (s : State) : Host.Outcome State Fault Refusal := hearthEvent (fun d => if c < 2 then d.cciFailed c else d) s

/-! Class 0x40 (R443–R446). -/

namespace Rsc
abbrev portOn := 0x40
abbrev stride := 0x41
abbrev noStats := 0x42
end Rsc

/-- What the gate must know of CAM_SET. -/
def specCamSet : OpSpec :=
  { op := 0x4000, len := (· = 20), check := fun _ _ p => failIf [
      (decide (u8 p 0 > 1) || !(u8 p 1 = 1 || u8 p 1 = 2 || u8 p 1 = 4) || decide (u8 p 2 < 0x2A) || decide (u8 p 2 > 0x2C), 0),
      (decide (u8 p 3 > 3), 0), (decide (u16 p 4 < 64) || decide (u16 p 4 > 8192) || u16 p 4 % 2 = 1, 0),
      (decide (u16 p 6 < 64) || decide (u16 p 6 > 8192) || u16 p 6 % 2 = 1, 0),
      (decide (u8 p 8 > 4) || decide (u8 p 9 > 3) || decide (u8 p 10 < 8) || decide (u8 p 10 > 0x77) || decide (u8 p 11 > 1), 0),
      (decide (u32 p 12 < 1000) || decide (u32 p 12 > 1000000) || decide (u32 p 16 < 100) || decide (u32 p 16 > 100000), 0)] }

/-- CAM_SET (R444). -/
def execCamSet (h : Hdr) (p : Bytes) (s : State) : Host.Outcome State Fault Refusal :=
  anvil specCamSet h p (.camSet h p)
    (fun _ d =>
      let c := u8 p 0
      if d.camOn c then (d, .bad St.badState Rsc.portOn)
      else
        let cfg : CamCfg := {
          lanes := u8 p 1, dtype := u8 p 2, vc := u8 p 3, width := u16 p 4, height := u16 p 6, cfa := u8 p 8
          latency := u8 p 9, addr := u8 p 10, flags := u8 p 11, period := u32 p 12, lineNs := u32 p 16 }
        (d.setCam c { d.cam c with cfg := cfg }, .done)) s

/-- R433: a port starts: its history begins and the current generation's list is written. -/
def Dev.camStart (d : Dev) (c : Nat) : Dev :=
  let k := d.cam c
  let k := match k.pend with | some g => { k with applied := g, pend := none } | none => k
  let n := u8 k.applied.2 1
  d.setCam c { k with hist := List.replicate 4 k.applied.1, failed := [], fifo := [], frame := none, ignore := true, means := []
                      writing := if n = 0 then none else some (k.applied.1, 0, false) }

/-- What the gate must know of CAM_ENABLE. -/
def specCamEnable : OpSpec :=
  { op := 0x4001, len := (· = 4), check := fun _ _ p => failIf [
      (decide (u8 p 0 > 1) || decide (u8 p 1 > 1), 0), (!zero? p 2 2, Rs.reserved)] }

/-- CAM_ENABLE (R444, R55): STOPPING closes the frame in progress and writes its record. -/
def execCamEnable (h : Hdr) (p : Bytes) (s : State) : Host.Outcome State Fault Refusal :=
  anvilH specCamEnable h p (.camEnable h p)
    (fun c hp d =>
      let n := u8 p 0
      let on := u8 p 1 = 1
      let k := d.cam n
      let b := match k.pend with | some g => g.2 | none => k.applied.2
      let small := match k.ring with | some r => decide (4 * r.stride < recordBytes b) || gridOutside k.cfg b | none => false
      if on && k.ring.isNone then (hp, d, .bad St.badState Rsc.noStats)
      else if on && small then (hp, d, .bad St.badState Rsc.stride)
      else
        let (d, r, begins) := d.request (FnId.cam n) on true c
        if ¬ begins then (hp, d, r)
        else if on then (hp, d.camStart n, r)
        else
          let (hp, d) := camClose n (match (d.cam n).frame with | some f => f.eof.isNone | none => false) false hp (d.setCam n (d.cam n).drain)
          (hp, d, r)) s

/-- CAM_TRANSITION_DONE (R433, R444, R55): STARTING ends at the first FS after the list is written, STOPPING when the
record of the frame in progress is written; a stored request is then carried out. -/
def execCamTransitionDone (c : Nat) (s : State) : Host.Outcome State Fault Refusal :=
  hearthEventH (fun hp d =>
    let f := d.fn (FnId.cam c)
    if c ≥ 2 ∨ (f.st = .starting ∧ (d.cam c).frame.isNone) then (hp, d)
    else match d.fnDone (FnId.cam c) with
      | (d, none) => (hp, d)
      | (d, some _) =>
        if f.st = .stopping then (hp, d.camStart c)
        else camClose c true false hp (d.setCam c (d.cam c).drain)) s

/-- What the gate must know of CAM_PIPE_SET. -/
def specCamPipeSet : OpSpec :=
  { op := 0x4002, len := fun n => 56 ≤ n && n % 4 = 0, fits := fun p => p.length = 56 + 4 * u8 p 1, check := fun s _ p =>
      let k := s.dev.cam (u8 p 0)
      failIf [
        (decide (u8 p 0 > 1) || decide (u8 p 1 > 16), 0),
        (!zero? p 2 2 || !zero? p 51 1 || !zero? p 54 2 || !((List.range (u8 p 1)).all fun i => zero? p (59 + 4 * i) 1), Rs.reserved),
        (camZx p = 0 || decide (camZx p > 128) || camZy p = 0 || decide (camZy p > 128) || decide (u8 p 50 > 3), 0),
        (decide (u8 p 46 + u8 p 48 > camZx p) || decide (u8 p 47 + u8 p 49 > camZy p), 0),
        (gridOutside k.cfg p, Rsc.stride),
        (match k.ring with | some r => decide (4 * r.stride < recordBytes p) | none => false, Rsc.stride)] }

/-- CAM_PIPE_SET (R445): the shadow settings. -/
def execCamPipeSet (h : Hdr) (p : Bytes) (s : State) : Host.Outcome State Fault Refusal :=
  anvil specCamPipeSet h p (.camPipeSet h p)
    (fun _ d => (d.setCam (u8 p 0) { d.cam (u8 p 0) with shadow := p }, .done)) s

/-- What the gate must know of CAM_STATS_SET. -/
def specCamStatsSet : OpSpec :=
  { op := 0x4003, len := (· = 12), check := fun s _ p => failIf [
      (decide (u8 p 0 > 1) || u16 p 4 = 0 || decide (u16 p 6 < 64), 0), (!zero? p 1 1, Rs.reserved),
      ((s.heap.buf (u16 p 2)).isNone, Rs.noBuffer),
      ((bufCheck s.heap (u16 p 2) (u32 p 8) (u16 p 4 * (4 * u16 p 6))).isSome, Rs.bufferRange)] }

/-- CAM_STATS_SET (R446). -/
def execCamStatsSet (h : Hdr) (p : Bytes) (s : State) : Host.Outcome State Fault Refusal :=
  anvilR specCamStatsSet h p (.camStatsSet h p)
    (fun _ hp d =>
      let c := u8 p 0
      if d.camOn c then (d, .bad St.badState Rsc.portOn)
      else if (match hp.buf (u16 p 2) with | some o => o.lost | none => true) then (d, .bad St.fault Rs.bufferLost)
      else
        let d := d.setCam c { d.cam c with ring := some ⟨u16 p 2, u16 p 4, u16 p 6, u32 p 8⟩, next := 0 }
        (d.wr 0 (R.CAM_NEXT c) 0, .done)) s

/-- What the gate must know of CAM_STATUS. -/
def specCamStatus : OpSpec :=
  { op := 0x4004, len := (· = 4), check := fun _ _ p => failIf [(decide (u8 p 0 > 1), 0), (!zero? p 1 3, Rs.reserved)] }

/-- CAM_STATUS (R446): registers 0x0_0000 to 0x0_0028 of a camera. -/
def execCamStatus (h : Hdr) (p : Bytes) (s : State) : Host.Outcome State Fault Refusal :=
  anvil specCamStatus h p (.camStatus h p)
    (fun _ d =>
      let c := u8 p 0
      let d' := d.wr 0 (R.CAM_STATE_FUNC c) (d.fn (FnId.cam c)).st.num
      (d, .done ((List.range 11).map fun i => enc 4 (d'.rd 0 ⟨0x4000000 + 0x100 * c + 4 * i, 31, 0⟩)).flatten)) s

/-! What a commit does for the cameras (R432). -/

/-- R432: a capture: each camera whose shadow differs from the settings last captured gets a new generation. -/
def Dev.camCapture (d : Dev) : List (Nat × Bytes × Nat) × Dev :=
  (List.range 2).foldl (fun (l, d) c =>
    let k := d.cam c
    if k.shadow = k.taken then (l, d)
    else
      let g := (k.gen + 1) % 0xFFFF
      (l ++ [(c, k.shadow, g)], d.setCam c { k with taken := k.shadow, gen := g })) ([], d)

/-- R432: generations are bound: each applies at the next FS. -/
def Dev.camBind (d : Dev) (l : List (Nat × Bytes × Nat)) : Dev :=
  l.foldl (fun d e => d.setCam e.1 { d.cam e.1 with pend := some (e.2.2, e.2.1) }) d

end Sys2Proof.Machine
end

