-- ==== Sys2Proof/Machine/Inflate.lean ====
section
/-! DEFINITION. DEFLATE decompression as R502 names it (RFC 1951, with the zlib wrapper of RFC 1950 and the gzip wrapper
of RFC 1952), unit by unit (R504), so that a job can stop and resume at any unit. -/

namespace Sys2Proof.Machine

/-- The bits of a byte, least significant first. -/
def byteBits (b : Byte) : List Bool := (List.range 8).map fun i => b.toNat.testBit i

/-- The bits of a byte string in DEFLATE order. -/
def bytesBits (l : Bytes) : List Bool := (l.map byteBits).flatten

/-- A number from bits, least significant first. -/
def bitsVal : List Bool → Nat
  | [] => 0
  | b :: r => b2n b + 2 * bitsVal r

/-- `n` bits taken, least significant first; none if there are fewer. -/
def takeBits (n : Nat) (l : List Bool) : Option (Nat × List Bool) :=
  if l.length < n then none else some (bitsVal (l.take n), l.drop n)

/-- RFC 1951, 3.2.2: how many codes have each length 1–15. -/
def codeCounts (lens : List Nat) : List Nat := (fromN 1 15).map fun k => (lens.filter (· = k)).length

/-- The symbols in code order: by length, then by value. -/
def codeSyms (lens : List Nat) : List Nat :=
  ((fromN 1 15).map fun k => (List.range lens.length).filter fun s => lens.getD s 0 = k).flatten

/-- What reading a code word gives: a symbol and the rest, or too few bits, or no such code. -/
inductive SymR where
  | sym (s : Nat) (rest : List Bool)
  | need
  | bad
  deriving DecidableEq, Repr

/-- One code word, bit by bit: `counts` of the lengths still to come. -/
def readSym (syms : List Nat) : List Nat → List Bool → Nat → Nat → Nat → SymR
  | [], _, _, _, _ => .bad
  | _, [], _, _, _ => .need
  | k :: ks, b :: bs, code, first, index =>
    let code := code + b2n b
    if code < first + k then .sym (syms.getD (index + (code - first)) 0) bs
    else readSym syms ks bs (2 * code) (2 * (first + k)) (index + k)

/-- A code word of the code with given lengths. -/
def readCode (lens : List Nat) (bits : List Bool) : SymR := readSym (codeSyms lens) (codeCounts lens) bits 0 0 0

/-- The code lengths are no code: over-subscribed, or incomplete with more than one code word. -/
def codeBad (lens : List Nat) : Bool :=
  let left : Int := (List.zip (fromN 1 15) (codeCounts lens)).foldl (fun (n : Int) e => n - e.2 * 2 ^ (15 - e.1)) (2 ^ 15)
  decide (left < 0) || (decide (left > 0) && decide ((lens.filter (· ≠ 0)).length > 1))

/-- RFC 1951, 3.2.6: the fixed codes. -/
def fixedLit : List Nat := List.replicate 144 8 ++ List.replicate 112 9 ++ List.replicate 24 7 ++ List.replicate 8 8
def fixedDist : List Nat := List.replicate 30 5

/-- RFC 1951, 3.2.5: base and extra bits of length code 257 + i and of distance code i. -/
def lenBase : List Nat := [3, 4, 5, 6, 7, 8, 9, 10, 11, 13, 15, 17, 19, 23, 27, 31, 35, 43, 51, 59, 67, 83, 99, 115, 131, 163, 195, 227, 258]
def lenExtra : List Nat := [0, 0, 0, 0, 0, 0, 0, 0, 1, 1, 1, 1, 2, 2, 2, 2, 3, 3, 3, 3, 4, 4, 4, 4, 5, 5, 5, 5, 0]
def distBase : List Nat :=
  [1, 2, 3, 4, 5, 7, 9, 13, 17, 25, 33, 49, 65, 97, 129, 193, 257, 385, 513, 769, 1025, 1537, 2049, 3073, 4097, 6145, 8193, 12289, 16385, 24577]
def distExtra : List Nat := [0, 0, 0, 0, 1, 1, 2, 2, 3, 3, 4, 4, 5, 5, 6, 6, 7, 7, 8, 8, 9, 9, 10, 10, 11, 11, 12, 12, 13, 13]

/-- RFC 1951, 3.2.7: the order of the code-length code's lengths. -/
def clOrder : List Nat := [16, 17, 18, 0, 8, 7, 9, 6, 10, 5, 11, 4, 12, 3, 13, 2, 14, 1, 15]

/-- One byte into the CRC-32 register of RFC 1952. -/
def crc32Byte (c : Nat) (b : Byte) : Nat := Nat.repeat (fun c => if c % 2 = 1 then (c / 2) ^^^ 0xEDB88320 else c / 2) 8 (c ^^^ b.toNat)

/-- A byte written: history, count and running checks. -/
def Inf.put (s : Inf) (b : Byte) : Inf :=
  let a := (s.adA + b.toNat) % 65521
  { s with hist := (b :: s.hist).take 32768, total := s.total + 1, adA := a, adB := (s.adB + a) % 65521, crc := crc32Byte s.crc b }

/-- A match copied: `n` bytes from `dist` back. -/
def Inf.copy (s : Inf) (dist : Nat) : Nat → Inf × Bytes
  | 0 => (s, [])
  | n + 1 =>
    let b := s.hist.getD (dist - 1) 0
    let (s, r) := (s.put b).copy dist n
    (s, b :: r)

/-- R509: the running check: CRC-32 for gzip, Adler-32 otherwise. -/
def Inf.check (s : Inf) : Nat := if s.wrap = 2 then s.crc ^^^ 0xFFFFFFFF else s.adB * 65536 + s.adA

/-- RFC 1952: where the zero-terminated field at an offset ends, if it does. -/
def zeroEnd (l : Bytes) (o : Nat) : Option Nat := ((l.drop o).findIdx? (· = 0)).map fun i => o + i + 1

/-- A wrapper header's bytes so far: complete (`some true`), wrong (`some false`) or not yet complete. -/
def headState (wrap : Nat) (g : Bytes) : Option Bool :=
  if wrap = 1 then
    if g.length < 2 then none
    else some (u8 g 0 % 16 = 8 && decide (u8 g 0 / 16 ≤ 7) && u16 g 0 % 31 = 0 && !bit (u8 g 1) 5)
  else
    if g.length < 10 then none
    else if u8 g 0 ≠ 0x1F ∨ u8 g 1 ≠ 0x8B ∨ u8 g 2 ≠ 8 ∨ u8 g 3 ≥ 32 then some false
    else
      let f := u8 g 3
      let e1 : Option Nat := if bit f 2 then (if g.length < 12 then none else some (12 + le 2 g 10)) else some 10
      let e2 : Option Nat := match e1 with | none => none | some e => if bit f 3 then zeroEnd g e else some e
      let e3 : Option Nat := match e2 with | none => none | some e => if bit f 4 then zeroEnd g e else some e
      match e3 with
      | none => none
      | some e => let n := if bit f 1 then e + 2 else e; if g.length < n then none else some true

/-- The first place in a stream of a wrapper. -/
def infStart (wrap : Nat) : Inf := { wrap := wrap, phase := if wrap = 0 then .block else .head [] }

/-- What a unit does: it needs more input, is malformed, fails its check, does not fit, or was done with the bytes it
wrote. -/
inductive UnitR where
  | need
  | bad
  | mismatch
  | full
  | ok (s : Inf) (out : Bytes)
  deriving DecidableEq, Repr

/-- After the end-of-block of a block: the next block, or after the final one the trailer, at a byte boundary. -/
def Inf.blockEnd (s : Inf) (fin : Bool) (bits : List Bool) : Inf :=
  if ¬ fin then { s with phase := .block, bits := bits }
  else { s with bits := bits.drop (bits.length % 8), phase := if s.wrap = 0 then .done else .trail [] }

/-- A code-length symbol of a dynamic block: the lengths it stands for. -/
def lensOf (got : List Nat) (sym extra : Nat) : Option (List Nat) :=
  if sym < 16 then some [sym]
  else if sym = 16 then (match got.getLast? with | some l => some (List.replicate (3 + extra) l) | none => none)
  else some (List.replicate ((if sym = 17 then 3 else 11) + extra) 0)

/-- The next unit of a stream, with `room` bytes of output left (R504). -/
def Inf.unit (s : Inf) (room : Nat) : UnitR :=
  match s.phase with
  | .done => .ok s []
  | .head got =>
    match takeBits 8 s.bits with
    | none => .need
    | some (v, r) =>
      let g := got ++ [BitVec.ofNat 8 v]
      match headState s.wrap g with
      | none => .ok { s with phase := .head g, bits := r } []
      | some true => .ok { s with phase := .block, bits := r } []
      | some false => .bad
  | .block =>
    match takeBits 3 s.bits with
    | none => .need
    | some (v, r) =>
      let fin := v % 2 = 1
      match v / 2 with
      | 0 => .ok { s with phase := .storedLen fin, bits := r.drop (r.length % 8) } []
      | 1 => .ok { s with phase := .codes fin fixedLit fixedDist, bits := r } []
      | 2 => .ok { s with phase := .counts fin, bits := r } []
      | _ => .bad
  | .counts fin =>
    match takeBits 14 s.bits with
    | none => .need
    | some (v, r) =>
      let hlit := v % 32 + 257
      let hdist := v / 32 % 32 + 1
      if hlit > 286 ∨ hdist > 30 then .bad
      else .ok { s with phase := .clens fin hlit hdist (v / 1024 + 4) [], bits := r } []
  | .clens fin hlit hdist hclen got =>
    match takeBits 3 s.bits with
    | none => .need
    | some (v, r) =>
      let got := got ++ [v]
      if got.length < hclen then .ok { s with phase := .clens fin hlit hdist hclen got, bits := r } []
      else
        let cl := (List.range 19).map fun k => got.getD (clOrder.idxOf k) 0
        if codeBad cl then .bad else .ok { s with phase := .lens fin hlit hdist cl [], bits := r } []
  | .lens fin hlit hdist cl got =>
    match readCode cl s.bits with
    | .need => .need
    | .bad => .bad
    | .sym k r =>
      match takeBits (if k = 16 then 2 else if k = 17 then 3 else if k = 18 then 7 else 0) r with
      | none => .need
      | some (e, r) =>
        match lensOf got k e with
        | none => .bad
        | some l =>
          let got := got ++ l
          if got.length > hlit + hdist then .bad
          else if got.length < hlit + hdist then .ok { s with phase := .lens fin hlit hdist cl got, bits := r } []
          else if codeBad (got.take hlit) || codeBad (got.drop hlit) || got.getD 256 0 = 0 then .bad
          else .ok { s with phase := .codes fin (got.take hlit) (got.drop hlit), bits := r } []
  | .storedLen fin =>
    match takeBits 32 s.bits with
    | none => .need
    | some (v, r) =>
      if v % 65536 + v / 65536 ≠ 65535 then .bad
      else if v % 65536 = 0 then .ok (s.blockEnd fin r) []
      else .ok { s with phase := .stored fin (v % 65536), bits := r } []
  | .stored fin left =>
    match takeBits 8 s.bits with
    | none => .need
    | some (v, r) =>
      if room = 0 then .full
      else
        let b : Byte := BitVec.ofNat 8 v
        let s := s.put b
        .ok (if left = 1 then s.blockEnd fin r else { s with phase := .stored fin (left - 1), bits := r }) [b]
  | .codes fin lit dist =>
    match readCode lit s.bits with
    | .need => .need
    | .bad => .bad
    | .sym k r =>
      if k < 256 then (if room = 0 then .full else .ok { s.put (BitVec.ofNat 8 k) with bits := r } [BitVec.ofNat 8 k])
      else if k = 256 then .ok (s.blockEnd fin r) []
      else if k > 285 then .bad
      else match takeBits (lenExtra.getD (k - 257) 0) r with
        | none => .need
        | some (e, r) =>
          match readCode dist r with
          | .need => .need
          | .bad => .bad
          | .sym t r =>
            if t > 29 then .bad
            else match takeBits (distExtra.getD t 0) r with
              | none => .need
              | some (f, r) =>
                let n := lenBase.getD (k - 257) 0 + e
                let back := distBase.getD t 0 + f
                if back > s.hist.length then .bad
                else if n > room then .full
                else let (s, out) := s.copy back n; .ok { s with bits := r } out
  | .trail got =>
    match takeBits 8 s.bits with
    | none => .need
    | some (v, r) =>
      let g := got ++ [BitVec.ofNat 8 v]
      if s.wrap = 1 then
        if g.length < 4 then .ok { s with phase := .trail g, bits := r } []
        else if u32 g 0 = s.check then .ok { s with phase := .done, bits := r } [] else .mismatch
      else
        if g.length < 8 then .ok { s with phase := .trail g, bits := r } []
        else if le 4 g 0 = s.check ∧ le 4 g 4 = s.total % 2 ^ 32 then .ok { s with phase := .done, bits := r } [] else .mismatch

/-- How a run of units ended. -/
inductive RunEnd where
  | done
  | need
  | full
  | bad
  | mismatch
  deriving DecidableEq, Repr

/-- Units until the stream ends or one cannot be done: the decompressor, the bytes written, and how it ended. -/
def Inf.run : Nat → Inf → Nat → Inf × Bytes × RunEnd
  | 0, s, _ => (s, [], .need)
  | n + 1, s, room =>
    if s.phase = .done then (s, [], .done)
    else match s.unit room with
      | .need => (s, [], .need)
      | .bad => (s, [], .bad)
      | .mismatch => (s, [], .mismatch)
      | .full => (s, [], .full)
      | .ok s out => let (s, r, e) := Inf.run n s (room - out.length); (s, out ++ r, e)

/-- A whole compressed source (FORMAT 1–3 of R97: DEFLATE, zlib, gzip) inflated; none if it is malformed, is cut short or
fails its check. -/
def inflate (format : Nat) (src : Bytes) : Option Bytes :=
  let s := { infStart (format - 1) with bits := bytesBits src }
  match Inf.run (8 * src.length + 1) s (1100 * src.length + 1100) with
  | (_, out, .done) => some out
  | _ => none

end Sys2Proof.Machine
end

