-- ==== Sys2Proof/Machine/RayMath.lean ====
section
/-! DEFINITION. The ray model (chapter "Ray model, view grid and planish map"): planish entries and their interpolation
(R82–R88), and the ray of an emitter or of a mirror (R76–R81). -/

namespace Sys2Proof.Machine

/-! Tangents (R80). -/

/-- π in units of 2^-160. -/
def piFix : Int := 4591442807048218921384805199743311128454155024418

/-- The sine and cosine of an angle in 2^-160 radians, as their series gives them, each in 2^-160: `n` further terms from
term `k`, which is `t`. -/
def series (x2 : Int) : Nat → Nat → Int → Int
  | 0, _, t => t
  | n + 1, k, t => t + series x2 n (k + 2) (-(t * x2 / 2 ^ 160) / ((k + 1) * (k + 2) : Nat))

/-- Sine and cosine of `num / 2^23` degrees, in 2^-160. -/
def sinCos (num : Int) : Int × Int :=
  let x := num * piFix / (180 * 2 ^ 23)
  let x2 := x * x / 2 ^ 160
  (series x2 32 1 x, series x2 32 0 (2 ^ 160))

/-- R80: the tangent of `num / 2^23` degrees as Q2.14, rounded to nearest, ties away from zero. -/
def tanQ14 (num : Int) : Int :=
  let sc := sinCos num.natAbs
  let v := roundDiv (sc.1 * 2 ^ 14) sc.2
  if num < 0 then -v else v

/-- R80: an angle in 2^-23 degrees held within ±60.0°. -/
def clampAngle (num : Int) : Int :=
  if num > 60 * 2 ^ 23 then 60 * 2 ^ 23 else if num < -(60 * 2 ^ 23) then -(60 * 2 ^ 23) else num

/-! Planish entries (R82–R85). -/

/-- The entry with every offset 0, GAIN 1.0 and VALID set, with its CHECK (R84, R85, R89). -/
def nominalEntry : Nat :=
  let b := encLe 14 (0x4000 * 2 ^ 64 + 2 ^ 80)
  le 14 b 0 + crc16 b * 2 ^ 112

/-- R84: the entry's CHECK matches and its reserved bits are 0. -/
def entryOk (e : Nat) : Bool := bits e 127 112 = crc16 (encLe 14 e) && bits e 111 96 = 0 && bits e 87 84 = 0

/-- R83. -/
def entryValid (e : Nat) : Bool := bit e 80

/-- R85: what interpolation uses in place of an entry. -/
def entryUsed (e : Nat) : Nat := if entryValid e then e else 0x4000 * 2 ^ 64

/-- An entry of a copy as stored. -/
def MapCopy.entry (m : MapCopy) (copy i : Nat) : Nat :=
  amGet m.entries i (if m.nominal then nominalEntry else (Config.mapEntry copy i).toNat)

/-- R85: entries with VALID 0 in a copy. -/
def MapCopy.invalid (m : MapCopy) (copy : Nat) : Nat :=
  if m.nominal then (m.entries.filter fun e => !entryValid e.2).length
  else ((List.range 65536).filter fun i => !entryValid (m.entry copy i)).length

/-! Grids and tiles (R76, R86, R87). -/

/-- R76: Gx × Gy of a LAYOUT. -/
def gridOf (layout : Nat) : Nat × Nat :=
  match layout with
  | 0 => (64, 4)
  | 1 => (32, 8)
  | 2 => (16, 16)
  | 4 => (32, 1)
  | 5 => (16, 2)
  | 6 => (8, 4)
  | _ => (1, 1)

/-- R76: the LAYOUT belongs to the output mode. -/
def layoutOk (mode layout : Nat) : Bool := (mode = 1 && layout ≤ 2) || (mode = 2 && 4 ≤ layout && layout ≤ 6)

/-- R87: the two tiles and the weight along one axis: element `x`, tile size `t`, `n` tiles. -/
def tileAxis (x t n : Nat) : Nat × Nat × Int :=
  let px : Int := 2 * x + 1 - t
  let t0 : Int := px / (2 * t : Nat)
  let r : Int := px - 2 * t * t0
  let (t0, r) := if t0 < 0 then ((0 : Int), (0 : Int)) else (t0, r)
  let (t0, r) := if t0 ≥ (n : Int) - 1 then ((n : Int) - 1, 0) else (t0, r)
  (t0.toNat, min (t0.toNat + 1) (n - 1), r)

/-- What the map gives at an element (R87, R88). -/
structure MapVal where
  dx    : Int
  dy    : Int
  dth   : Int
  dph   : Int
  gain  : Int
  dark  : Bool
  subst : Bool
  deriving DecidableEq, Repr

/-- R87, R88: the interpolated values at element (x, y): `ent tx ty` is the stored entry of a tile, `t` the tile size,
`nx` and `ny` the tiles of the region or array. -/
def interpolate (ent : Nat → Nat → Nat) (t nx ny x y : Nat) : MapVal :=
  let (tx0, tx1, rx) := tileAxis x t nx
  let (ty0, ty1, ry) := tileAxis y t ny
  let u (a b : Nat) := entryUsed (ent a b)
  let rx : Int := if bit (u tx0 ty0) 82 || bit (u tx0 ty1) 82 then (if rx < t then 0 else 2 * t) else rx
  let ry : Int := if bit (u tx0 ty0) 83 || bit (u tx1 ty0) 83 then (if ry < t then 0 else 2 * t) else ry
  let w00 := (2 * t - rx) * (2 * t - ry)
  let w10 := rx * (2 * t - ry)
  let w01 := (2 * t - rx) * ry
  let w11 := rx * ry
  let es := [(w00, ent tx0 ty0), (w10, ent tx1 ty0), (w01, ent tx0 ty1), (w11, ent tx1 ty1)]
  let f (hi lo : Nat) (sg : Bool) : Int :=
    let s := es.foldl (fun s e =>
      let v := bits (entryUsed e.2) hi lo
      s + e.1 * (if sg then signed (hi + 1 - lo) v else (v : Int))) 0
    roundDiv s (4 * t * t)
  { dx := f 15 0 true, dy := f 31 16 true, dth := f 47 32 true, dph := f 63 48 true, gain := f 79 64 false
    dark := bit (u (x / t) (y / t)) 81
    subst := es.any fun e => e.1 ≠ 0 && !entryValid e.2 }

/-- R81: a ray record. -/
structure RayRec where
  ox      : Int
  oy      : Int
  tx      : Int
  ty      : Int
  gain    : Nat
  view    : Nat
  dark    : Bool
  subst   : Bool
  clamped : Bool
  deriving DecidableEq, Repr

/-- R81: the 128-bit record. -/
def RayRec.word (r : RayRec) : Nat :=
  twos 32 r.ox + twos 32 r.oy * 2 ^ 32 + twos 16 r.tx * 2 ^ 64 + twos 16 r.ty * 2 ^ 80 + r.gain * 2 ^ 96
    + r.view * 2 ^ 112 + b2n r.dark * 2 ^ 120 + b2n r.subst * 2 ^ 121 + b2n r.clamped * 2 ^ 122

/-- A ray from its origin, its direction in units of 2^-15 of the half-angles, and the map's value (R80, R88). -/
def mkRay (ox oy : Int) (thUnits phUnits : Int) (halfH halfV view : Nat) (m : MapVal) : RayRec :=
  let th := thUnits * halfH
  let ph := phUnits * halfV
  { ox := ox, oy := oy, tx := tanQ14 (clampAngle th), ty := tanQ14 (clampAngle ph)
    gain := if m.dark then 0 else m.gain.toNat, view := view, dark := m.dark, subst := m.subst
    clamped := clampAngle th ≠ th || clampAngle ph ≠ ph }

/-- The ray model registers of a die (R102). -/
def Dev.layout (d : Dev) (die : Nat) : Nat := d.rd die R.SYN_RM_GRID_LAYOUT
def Dev.aimT (d : Dev) (die s : Nat) : Int := if s = 0 then 0 else signed 16 (d.rdB die (R.SYN_RM_AIM_AIM_T s))
def Dev.aimP (d : Dev) (die s : Nat) : Int := if s = 0 then 0 else signed 16 (d.rdB die (R.SYN_RM_AIM_AIM_P s))

/-- R78: the ray of emitter (x, y) under film state `s`, with the registers of a hob die and a copy of the map; the region
is `w × h`. -/
def Dev.rayPanel (d : Dev) (die copy w h x y s : Nat) : RayRec :=
  let m := d.pm.copies.getD copy ⟨0, false, []⟩
  let v := interpolate (fun tx ty => m.entry copy (ty * 256 + tx)) 64 (w / 64) (h / 64) x y
  let (gx, gy) := gridOf (d.layout die)
  let lx := x / gx
  let ix := x - lx * gx
  let ly := y / gy
  let iy := y - ly * gy
  let th : Int := 32768 * ((gx : Int) - 1 - 2 * ix) / gx + v.dth + d.aimT die s
  let ph : Int := 32768 * ((gy : Int) - 1 - 2 * iy) / gy + v.dph + d.aimP die s
  mkRay (((lx * gx + gx / 2 : Nat) : Int) * 4096 + v.dx) (((ly * gy + gy / 2 : Nat) : Int) * 4096 + v.dy) th ph
    (d.rd die R.SYN_RM_FAN_HALF_H) (d.rd die R.SYN_RM_FAN_HALF_V) (iy * gx + ix) v

/-- R79: the ray of mirror (u, v) of array `a` in view slot `k`. -/
def Dev.rayProj (d : Dev) (die copy a k u v : Nat) : RayRec :=
  let m := d.pm.copies.getD copy ⟨0, false, []⟩
  let mv := interpolate (fun tx ty => m.entry copy (a * 16384 + ty * 160 + tx)) 16 160 100 u v
  let (gx, gy) := gridOf (d.layout die)
  let kx := k % gx
  let ky := k / gx
  let sc : Int := d.rd die (R.SYN_RM_SCALE a)
  let th : Int := 32768 * (2 * (kx : Int) + 1 - gx) / gx + mv.dth
  let ph : Int := 32768 * (2 * (ky : Int) + 1 - gy) / gy + mv.dph
  mkRay (d.rdI die (R.SYN_RM_ORG_X a) + roundDiv ((u * 4096 + 2048 + mv.dx) * sc) 4096)
    (d.rdI die (R.SYN_RM_ORG_Y a) + roundDiv ((v * 4096 + 2048 + mv.dy) * sc) 4096) th ph
    (d.rd die R.SYN_RM_FAN_HALF_H) (d.rd die R.SYN_RM_FAN_HALF_V) (32 * a + k) mv

/-- R173: the largest vertical ray angle the geometry in effect on a die can produce, in 2^-23 degrees, clamped. -/
def Dev.maxPhi (d : Dev) (die : Nat) : Int :=
  let gy := (gridOf (d.layout die)).2
  let aim := [1, 2, 3].foldl (fun m s => max m (d.aimP die s).natAbs) 0
  let aim := if d.mode = 1 then aim else 0
  clampAngle ((32768 * (gy - 1) / gy + 32768 + aim : Nat) * (d.rd die R.SYN_RM_FAN_HALF_V : Nat))

end Sys2Proof.Machine
end

