-- ==== Sys2Proof/Machine/Planish.lean ====
section
/-! DEFINITION. The ray model and the planish map: class 0x10 and its events (R76, R84–R102). -/

namespace Sys2Proof.Machine

/-! Reason codes of R93. -/
namespace Rsp
abbrev copyActive := 0x40
abbrev copyPending := 0x41
abbrev copyInUse := 0x42
abbrev copyNotReady := 0x43
abbrev checkFail := 0x44
abbrev lengthMismatch := 0x45
abbrev inflateError := 0x46
abbrev regionNotOff := 0x47
abbrev copyLoading := 0x48
end Rsp

/-! The ray model (R94–R96, R67). -/

/-- A register field written on every hob die that has not failed (R102). -/
def Dev.wrHobs (d : Dev) (f : Fld) (v : Nat) : Dev := d.wrAll d.hobsUp f v

/-- The ray model registers written from a RAYMODEL_SET block. -/
def Dev.rayWrite (d : Dev) (p : Bytes) : Dev :=
  let d := ((d.wrHobs R.SYN_RM_GRID_LAYOUT (u8 p 0)).wrHobs R.SYN_RM_GRID_ARRAYS (u8 p 1)).wrHobs R.SYN_RM_FAN_HALF_H (u16 p 4)
  let d := d.wrHobs R.SYN_RM_FAN_HALF_V (u16 p 6)
  (List.range 4).foldl (fun d a =>
    ((d.wrHobs (R.SYN_RM_ORG_X a) (u32 p (8 + 12 * a))).wrHobs (R.SYN_RM_ORG_Y a) (u32 p (12 + 12 * a))).wrHobs (R.SYN_RM_SCALE a)
      (u16 p (16 + 12 * a))) d

/-- R67: the ray model block of a mode, as RAYMODEL_SET would give it. -/
def rayDefaults (mode : Nat) : Bytes :=
  let arr (s : Nat) : Bytes := enc 4 0 ++ enc 4 0 ++ enc 2 s ++ zeros 2
  (if mode = 1 then enc 1 2 ++ enc 1 0 else enc 1 4 ++ enc 1 1) ++ zeros 2 ++ enc 2 0x1400 ++ enc 2 0x1400
    ++ arr (if mode = 1 then 0 else 0x1000) ++ arr 0 ++ arr 0 ++ arr 0

/-- R67: the ray model takes the values of a new mode: geometry, and aims of 0 both shadow and in effect. -/
def Dev.rayReset (d : Dev) (mode : Nat) : Dev :=
  let d := d.rayWrite (rayDefaults mode)
  d.hobsUp.foldl (fun d k => [1, 2, 3].foldl (fun d s =>
    (((d.wrS k (R.SYN_RM_AIM_AIM_T s) 0).wrS k (R.SYN_RM_AIM_AIM_P s) 0).wrB k (R.SYN_RM_AIM_AIM_T s) 0).wrB k (R.SYN_RM_AIM_AIM_P s) 0) d) d

/-- R94: the ranges that depend on the output mode. -/
def rayModeOk (mode : Nat) (p : Bytes) : Bool :=
  layoutOk mode (u8 p 0) && (if mode = 1 then u8 p 1 = 0 else decide (1 ≤ u8 p 1 ∧ u8 p 1 ≤ 4)) &&
  (List.range 4).all fun a =>
    if a < u8 p 1 then decide (0x0400 ≤ u16 p (16 + 12 * a) ∧ u16 p (16 + 12 * a) ≤ 0x4000) else zero? p (8 + 12 * a) 10

/-- What the gate must know of RAYMODEL_SET. -/
def specRaymodelSet : OpSpec :=
  { op := 0x1000, len := (· = 56), check := fun _ _ p => failIf [
      (u8 p 0 = 3 || decide (u8 p 0 > 6) || decide (u8 p 1 > 4), 0),
      (decide (u16 p 4 < 0x0100) || decide (u16 p 4 > 0x2800) || decide (u16 p 6 < 0x0100) || decide (u16 p 6 > 0x2800), 0),
      (!zero? p 2 2 || !((List.range 4).all fun a => zero? p (18 + 12 * a) 2), Rs.reserved)] }

/-- RAYMODEL_SET (R94). -/
def execRaymodelSet (h : Hdr) (p : Bytes) (s : State) : Host.Outcome State Fault Refusal :=
  anvil specRaymodelSet h p (.raymodelSet h p)
    (fun _ d =>
      if d.mode = 0 then (d, .bad St.badState Rs.notInMode)
      else if ¬ rayModeOk d.mode p then (d, .bad St.badParam 0)
      else if ¬ d.regionsOff then (d, .bad St.badState Rsp.regionNotOff)
      else (d.rayWrite p, .done)) s

/-- R95: the 56 bytes of RAYMODEL_SET as a die's registers hold them. -/
def Dev.rayBlock (d : Dev) (k : Nat) : Bytes :=
  enc 1 (d.rd k R.SYN_RM_GRID_LAYOUT) ++ enc 1 (d.rd k R.SYN_RM_GRID_ARRAYS) ++ zeros 2 ++ enc 2 (d.rd k R.SYN_RM_FAN_HALF_H)
    ++ enc 2 (d.rd k R.SYN_RM_FAN_HALF_V)
    ++ ((List.range 4).map fun a => enc 4 (d.rd k (R.SYN_RM_ORG_X a)) ++ enc 4 (d.rd k (R.SYN_RM_ORG_Y a))
      ++ enc 2 (d.rd k (R.SYN_RM_SCALE a)) ++ zeros 2).flatten

/-- What the gate must know of RAYMODEL_GET. -/
def specRaymodelGet : OpSpec :=
  { op := 0x1001, len := (· = 0) }

/-- RAYMODEL_GET (R95). -/
def execRaymodelGet (h : Hdr) (p : Bytes) (s : State) : Host.Outcome State Fault Refusal :=
  anvil specRaymodelGet h p (.raymodelGet h p)
    (fun _ d =>
      let k := d.hobsUp.headD 1
      (d, .done (d.rayBlock k ++ ((List.range 4).map fun s => enc 2 (twos 16 (d.aimT k s)) ++ enc 2 (twos 16 (d.aimP k s))).flatten))) s

/-- What the gate must know of AIM_SET. -/
def specAimSet : OpSpec :=
  { op := 0x1002, len := (· = 12) }

/-- AIM_SET (R96): the shadow aims of states 1–3. -/
def execAimSet (h : Hdr) (p : Bytes) (s : State) : Host.Outcome State Fault Refusal :=
  anvil specAimSet h p (.aimSet h p)
    (fun _ d =>
      if d.mode ≠ 1 then (d, .bad St.badState Rs.notInMode)
      else
        (d.hobsUp.foldl (fun d k => [1, 2, 3].foldl (fun d s =>
          (d.wrS k (R.SYN_RM_AIM_AIM_T s) (u16 p (4 * s - 4))).wrS k (R.SYN_RM_AIM_AIM_P s) (u16 p (4 * s - 2))) d) d, .done)) s

/-! The planish map (R84, R89–R92, R97–R101). -/

def Dev.copy (d : Dev) (c : Nat) : MapCopy := d.pm.copies.getD c ⟨0, false, []⟩
def Dev.setCopy (d : Dev) (c : Nat) (m : MapCopy) : Dev := { d with pm := { d.pm with copies := d.pm.copies.set c m } }
def Dev.copyState (d : Dev) (c st : Nat) : Dev := d.setCopy c { d.copy c with state := st }

/-- The ACTIVE copy (R90). -/
def Dev.activeCopy (d : Dev) : Nat := if (d.copy 1).state = 5 then 1 else 0

/-- R91: the refusal of a load or clone into a copy by its state. -/
def loadRefusal (st : Nat) : Option Nat :=
  match st with
  | 1 => some Rsp.copyLoading
  | 4 => some Rsp.copyPending
  | 7 => some Rsp.copyPending
  | 5 => some Rsp.copyActive
  | 6 => some Rsp.copyInUse
  | _ => none

/-- What the gate must know of PLANISH_LOAD. -/
def specPlanishLoad : OpSpec :=
  { op := 0x1003, len := (· = 24), check := fun s _ p => failIf [
      (decide (u8 p 0 > 1) || decide (u8 p 1 > 3), 0), (!zero? p 2 2 || !zero? p 14 2, Rs.reserved),
      (decide (u32 p 4 > 65535) || u32 p 8 = 0 || decide (u32 p 4 + u32 p 8 > 65536), 0),
      (u8 p 1 = 0 && u32 p 16 % 16 ≠ 0, 0), (u32 p 20 = 0, 0), (u8 p 1 = 0 && u32 p 20 ≠ 16 * u32 p 8, Rsp.lengthMismatch),
      ((s.heap.buf (u16 p 12)).isNone, Rs.noBuffer), ((bufCheck s.heap (u16 p 12) (u32 p 16) (u32 p 20)).isSome, Rs.bufferRange)] }

/-- PLANISH_LOAD (R97, R91): the checks; the load begins. -/
def execPlanishLoad (h : Hdr) (p : Bytes) (s : State) : Host.Outcome State Fault Refusal :=
  anvilR specPlanishLoad h p (.planishLoad h p)
    (fun c hp d =>
      let k := u8 p 0
      let st := (d.copy k).state
      match loadRefusal st with
      | some r => (d, .bad St.badState r)
      | none =>
        if (st = 0 ∨ st = 2) ∧ ¬(u32 p 4 = 0 ∧ u32 p 8 = 65536) then (d, .bad St.badParam 0)
        else if (match hp.buf (u16 p 12) with | some o => o.lost | none => true) then (d, .bad St.fault Rs.bufferLost)
        else
          let l : MapLoad := ⟨c, k, u8 p 1, u32 p 4, u32 p 8, u16 p 12, u32 p 16, u32 p 20⟩
          let d := d.copyState k 1
          ({ d with pm := { d.pm with load := some l } }, .accepted)) s

/-- An entry of a source, as a 128-bit number (R8). -/
def srcEntry (src : Bytes) (i : Nat) : Nat := le 16 src (16 * i)

/-- R97: a load's source: its bytes, and the reason if it ends in an error after them. -/
def loadSource (l : MapLoad) (o : Obj) : Bytes × Option Nat :=
  let raw := o.read l.offset l.bytes
  if l.format = 0 then (raw, none)
  else
    match Inf.run (8 * raw.length + 1) { infStart (l.format - 1) with bits := bytesBits raw } (16 * l.count + 16) with
    | (_, out, .done) => (out, if out.length = 16 * l.count then none else some Rsp.lengthMismatch)
    | (_, out, .full) => (out, some Rsp.lengthMismatch)
    | (_, out, _) => (out, some Rsp.inflateError)

/-- R97, R90: a load ends: `n` entries of the source written, and the reason and failing entry if it failed. -/
def Dev.loadEnd (d : Dev) (l : MapLoad) (src : Bytes) (n : Nat) (bad : Option (Nat × Nat)) : Dev :=
  let m := d.copy l.copy
  let ents := (List.range n).foldl (fun e i => amPut e (l.first + i) (srcEntry src i)) m.entries
  let d := d.setCopy l.copy ⟨if bad.isNone then 3 else 2, m.nominal, ents⟩
  let d := { d with pm := { d.pm with load := none } }
  match bad with
  | none => d.complete l.cmd St.done 0 (enc 4 n ++ enc 4 0xFFFFFFFF)
  | some (r, i) => d.complete l.cmd St.fault r (enc 4 n ++ enc 4 i)

/-- PLANISH_LOAD_DONE (R97, R84, R503): the entries are checked and written in order; the load ends. A compressed load waits for the Ingot job
in progress. Where the buffer was lost during the load, the spec does not say how many entries had been written (log entry 172). -/
def execPlanishLoadDone (s : State) : Host.Outcome State Fault Refusal :=
  hearthEvent (fun d =>
    match d.pm.load with
    | none => d
    | some l =>
      match s.heap.buf l.buffer with
      | none => d
      | some o =>
        if l.format ≠ 0 ∧ d.ing.running.isSome then d
        else
          let (src, err) := loadSource l o
          let all := min l.count (src.length / 16)
          let (v, d) := if o.lost then d.freeVal 32 else (0, d)
          let have_ := if o.lost then v % (min all (l.count - 1) + 1) else all
          let err := if o.lost then some Rs.bufferLost else err
          match (List.range have_).find? fun i => !entryOk (srcEntry src i) with
          | some i => d.loadEnd l src i (some (Rsp.checkFail, l.first + i))
          | none => d.loadEnd l src have_ (err.map fun r => (r, 0xFFFFFFFF))) s

/-- What the gate must know of PLANISH_CLONE. -/
def specPlanishClone : OpSpec :=
  { op := 0x1004, len := (· = 0) }

/-- PLANISH_CLONE (R98, R91). -/
def execPlanishClone (h : Hdr) (p : Bytes) (s : State) : Host.Outcome State Fault Refusal :=
  anvil specPlanishClone h p (.planishClone h p)
    (fun c d =>
      let k := 1 - d.activeCopy
      match loadRefusal (d.copy k).state with
      | some r => (d, .bad St.badState r)
      | none => let d := d.copyState k 1; ({ d with pm := { d.pm with clone := some c } }, .accepted)) s

/-- PLANISH_CLONE_DONE (R98): the target holds the ACTIVE copy's entries and is READY. -/
def execPlanishCloneDone (s : State) : Host.Outcome State Fault Refusal :=
  hearthEvent (fun d =>
    match d.pm.clone with
    | none => d
    | some c =>
      let a := d.activeCopy
      let m := d.copy a
      let d := d.setCopy (1 - a) ⟨3, m.nominal, m.entries⟩
      ({ d with pm := { d.pm with clone := none } }).complete c St.done 0) s

/-- What the gate must know of PLANISH_SELECT. -/
def specPlanishSelect : OpSpec :=
  { op := 0x1005, len := (· = 4), check := fun _ _ p => failIf [(decide (u8 p 0 > 1), 0), (!zero? p 1 3, Rs.reserved)] }

/-- PLANISH_SELECT (R99, R91). -/
def execPlanishSelect (h : Hdr) (p : Bytes) (s : State) : Host.Outcome State Fault Refusal :=
  anvil specPlanishSelect h p (.planishSelect h p)
    (fun _ d =>
      let k := u8 p 0
      match (d.copy k).state with
      | 3 => (d.copyState k 7, .done)
      | 4 => (d, .done)
      | 7 => (d, .done)
      | 5 => (if (d.copy (1 - k)).state = 7 then d.copyState (1 - k) 3 else d, .done)
      | 6 => (d, .bad St.badState Rsp.copyInUse)
      | _ => (d, .bad St.badState Rsp.copyNotReady)) s

/-- What the gate must know of PLANISH_READ. -/
def specPlanishRead : OpSpec :=
  { op := 0x1006, len := (· = 8), check := fun _ _ p => failIf [
      (decide (u8 p 0 > 1) || u16 p 2 = 0 || decide (u16 p 2 > 255), 0), (!zero? p 1 1, Rs.reserved),
      (decide (u32 p 4 > 65535) || decide (u32 p 4 + u16 p 2 > 65536), 0)] }

/-- PLANISH_READ (R100, R91). -/
def execPlanishRead (h : Hdr) (p : Bytes) (s : State) : Host.Outcome State Fault Refusal :=
  anvil specPlanishRead h p (.planishRead h p)
    (fun _ d =>
      let m := d.copy (u8 p 0)
      if m.state = 0 then (d, .bad St.badState Rsp.copyNotReady)
      else if m.state = 1 then (d, .bad St.badState Rsp.copyLoading)
      else (d, .done ((List.range (u16 p 2)).map fun i => encLe 16 (m.entry (u8 p 0) (u32 p 4 + i))).flatten)) s

/-- What the gate must know of PLANISH_STATUS. -/
def specPlanishStatus : OpSpec :=
  { op := 0x1007, len := (· = 0) }

/-- PLANISH_STATUS (R101). -/
def execPlanishStatus (h : Hdr) (p : Bytes) (s : State) : Host.Outcome State Fault Refusal :=
  anvil specPlanishStatus h p (.planishStatus h p)
    (fun _ d => (d, .done (enc 1 (d.copy 0).state ++ enc 1 (d.copy 1).state ++ zeros 2 ++ enc 8 d.pm.pendFrame ++ enc 8 d.pm.swapFrame
      ++ enc 4 (d.rd (d.hobsUp.headD 1) R.SYN_PM_SUBST)
      ++ enc 4 (min (2 ^ 32 - 1) ((d.hobsUp.map fun k => d.rd k R.SYN_PM_CLAMP).sum))))) s

/-- R92: a capture: a staged copy becomes PENDING. -/
def Dev.pmCapture (d : Dev) : Option Nat × Dev :=
  match [0, 1].find? fun c => (d.copy c).state = 7 with
  | some c => (some c, { d.copyState c 4 with pm := { (d.copyState c 4).pm with pendFrame := 0 } })
  | none => (none, d)

/-- R92: the frame of a PENDING copy is known. -/
def Dev.pmFrame (d : Dev) (c : Option Nat) (f : Nat) : Dev :=
  if c.isSome then { d with pm := { d.pm with pendFrame := f } } else d

/-- R92, R85: the swap, once synthesis reaches frame F of a PENDING copy: the old copy retires, SUBST is set. -/
def Dev.pmSwap (d : Dev) (frame : Nat) : Dev :=
  match [0, 1].find? fun c => (d.copy c).state = 4 with
  | none => d
  | some c =>
    if d.pm.pendFrame = 0 ∨ frame < d.pm.pendFrame then d
    else
      let d := (d.copyState (1 - c) 6).copyState c 5
      let d := { d with pm := { d.pm with swapFrame := d.pm.pendFrame, pendFrame := 0 } }
      d.wrHobs R.SYN_PM_SUBST ((d.copy c).invalid c)

/-- PLANISH_RETIRE_DONE (R92): every strip of the frames before the swap is finished: the old copy is READY. -/
def execPlanishRetireDone (s : State) : Host.Outcome State Fault Refusal :=
  hearthEvent (fun d =>
    match [0, 1].find? fun c => (d.copy c).state = 6 with
    | none => d
    | some c => if d.syn.strips.any (fun t => t.frame < d.pm.swapFrame && t.phase < 3) then d else d.copyState c 3) s

end Sys2Proof.Machine
end

