-- ==== Sys2Proof/Machine/Surfaces.lean ====
section
/-! DEFINITION. Bulk buffers, surfaces, layers, fences and the blitter: classes 0x02, 0x13 and 0x14 (R169–R204). -/

namespace Sys2Proof.Machine

/-! Reason codes of R194. -/
namespace Rsf
abbrev noObject := 0x40
abbrev staged := 0x41
abbrev freeing := 0x42
abbrev outOfBounds := 0x43
abbrev format := 0x44
abbrev scale := 0x45
abbrev layerStore := 0x46
abbrev fenceSlot := 0x47
abbrev fenceWaited := 0x48
abbrev memory := 0x49
abbrev handles := 0x4A
abbrev objectBusy := 0x4B
abbrev lost := 0x4C
end Rsf

/-! Fences (R183). -/

/-- R183: the counter of a fence slot. -/
def Dev.fence (d : Dev) (s : Nat) : Nat := d.rdLoHi 0 (R.BLT_FENCE_CNT_LO s) (R.BLT_FENCE_CNT_HI s)

def Dev.setFence (d : Dev) (s v : Nat) : Dev := d.wrLoHi 0 (R.BLT_FENCE_CNT_LO s) (R.BLT_FENCE_CNT_HI s) v

/-- R183: slot and value of a fence word. -/
def fenceSlot (w : Nat) : Nat := w / 2 ^ 54
def fenceVal (w : Nat) : Nat := w % 2 ^ 54

/-- R183: a word with slot 0 and a non-zero value is bad. -/
def fenceBad (w : Nat) : Bool := fenceSlot w = 0 && fenceVal w ≠ 0

/-- R183: a fence word is signalled (0 means no fence). -/
def Dev.signalled (d : Dev) (w : Nat) : Bool := w = 0 || decide (fenceVal w ≤ d.fence (fenceSlot w))

/-- R183: a fence word is signalled: the counter becomes the larger of itself and the value. -/
def Dev.signal (d : Dev) (w : Nat) : Dev :=
  if fenceSlot w = 0 then d else d.setFence (fenceSlot w) (max (d.fence (fenceSlot w)) (fenceVal w))

/-! States of a surface (R181). -/

/-- R181 STAGED: named by a shadow setting, by a captured commit that is not bound yet (log entry 102), or by a held setting. -/
def Dev.staged (d : Dev) (h : Nat) : Bool :=
  d.lay.shadow.any (fun l => l.enable && l.surface = h) ||
  d.lay.held.any (fun o => match o with | some l => l.enable && l.surface = h | none => false) ||
  d.ras.commits.any (fun c => c.snap.layers.any fun l => l.2.enable && l.2.surface = h)

/-- R181 LATCHED: bound to a layer. -/
def Dev.latched (d : Dev) (h : Nat) : Bool := d.lay.bound.any fun l => l.enable && l.surface = h

/-- R181 READING. -/
def Dev.reading (d : Dev) (h : Nat) : Bool := d.lay.reading.any fun r => r.surface = h

/-- R181 BUSY: a blit or upload writing it is queued or running. -/
def Dev.surfBusy (d : Dev) (h : Nat) : Bool :=
  d.lay.queue.any (fun o => o.dst = h) || (match d.lay.running with | some o => o.dst = h | none => false)

/-- R182, R196: a buffer is read by a job: an upload, a planish load, or a load of another chapter (`bufUsers`). -/
def Dev.bufBusy (d : Dev) (h : Nat) : Bool :=
  d.lay.queue.any (fun o => o.up && o.src = h) || (match d.lay.running with | some o => o.up && o.src = h | none => false)
  || (match d.pm.load with | some l => l.buffer = h | none => false) || d.bufUsers.contains h

/-- R181 FREEING: a free is deferred for the handle. -/
def Dev.freeing (d : Dev) (h : Nat) : Bool := d.lay.frees.any fun e => e.1 = h

/-- R200: the layer setting of a LAYER_SET block. -/
def layerOf (p : Bytes) : LayerSet := {
  enable := u8 p 1 = 1, flags := u8 p 2, surface := u16 p 4, srcX := u16 p 8, srcY := u16 p 10, srcW := u16 p 12
  srcH := u16 p 14, posX := s32 p 16, posY := s32 p 20, dstW := u32 p 24, dstH := u32 p 28, z := s16 p 32
  alpha := u16 p 34, fill := u32 p 36, acquire := u64 p 40, release := u64 p 48 }

/-- R171: screen-locked; R174: depth-tested. -/
def LayerSet.locked (l : LayerSet) : Bool := bit l.flags 0
def LayerSet.depth (l : LayerSet) : Bool := bit l.flags 1

/-- R173: the lines of a layer's band: ceil((16·s + 2·|Z_L|·T_v) · r_v) + 8, with s in U4.12, Z_L in Q12.4 and T_v the
tangent of the largest vertical ray angle. -/
def Dev.bandLines (d : Dev) (l : LayerSet) : Nat :=
  let die := d.hobsUp.headD 1
  let sc := sinCos (d.maxPhi die)
  let s : Nat := if d.mode = 2 then
    (List.range (d.rd die R.SYN_RM_GRID_ARRAYS)).foldl (fun m a => max m (d.rd die (R.SYN_RM_SCALE a))) 0 else 4096
  let z := if l.locked then 0 else l.z.natAbs
  -- height of the window times 2^12, as a fraction over cos: (16·s·cos + 2·(z/16)·2^12·sin) / cos
  let num := 16 * (s : Int) * sc.2 + 512 * (z : Int) * sc.1
  -- times r_v = SRC_H / (DST_H / 2^12)
  let n := num * l.srcH
  let m := sc.2 * l.dstH
  (-((-n) / m)).toNat + 8

/-- R173: bytes of the band store that a set of layers needs. -/
def Dev.bandUsed (d : Dev) (ls : List LayerSet) : Nat :=
  ls.foldl (fun n l => if l.enable then n + d.bandLines l * l.srcW * 4 else n) 0

/-! Class 0x02: bulk memory. -/

/-- What the gate must know of BUF_CREATE. -/
def specBufCreate : OpSpec :=
  { op := 0x0200, len := (· = 8), check := fun _ _ p => failIf [
      (u32 p 0 = 0 || decide (u32 p 0 > 67108864), 0), (decide (u8 p 4 > 1) || !zero? p 5 3, Rs.reserved)] }

/-- BUF_CREATE (R195). -/
def execBufCreate (h : Hdr) (p : Bytes) (s : State) : Host.Outcome State Fault Refusal :=
  anvilH specBufCreate h p (.bufCreate h p)
    (fun _ hp d =>
      match hp.alloc d.hobsUp .buffer (u32 p 0) (u8 p 4 = 1) with
      | .error r => (hp, d, .bad St.noResource r)
      | .ok (hp, o) => (hp, d, .done (enc 2 o.handle ++ enc 1 o.dieByte))) s

/-- What the gate must know of BUF_WRITE. -/
def specBufWrite : OpSpec :=
  { op := 0x0201, len := fun n => 9 ≤ n && n ≤ 4096, check := fun s _ p =>
      match s.heap.buf (u16 p 0) with
      | none => some Rsf.noObject
      | some o => failIf [(!zero? p 2 2, Rs.reserved), (decide (u32 p 4 + (p.length - 8) > o.size), Rsf.outOfBounds)] }

/-- BUF_WRITE (R196). -/
def execBufWrite (h : Hdr) (p : Bytes) (s : State) : Host.Outcome State Fault Refusal :=
  anvilH specBufWrite h p (.bufWrite h p)
    (fun _ hp d =>
      match hp.buf (u16 p 0) with
      | none => (hp, d, .bad St.badParam Rsf.noObject)
      | some o =>
        if d.freeing o.handle then (hp, d, .bad St.badState Rsf.freeing)
        else if d.bufBusy o.handle then (hp, d, .bad St.badState Rsf.objectBusy)
        else if o.lost then (hp, d, .bad St.fault Rsf.lost)
        else (hp.write o.handle (u32 p 4) (p.drop 8), d, .done)) s

/-- What the gate must know of BUF_READ. -/
def specBufRead : OpSpec :=
  { op := 0x0202, len := (· = 8), check := fun s _ p =>
      match s.heap.buf (u16 p 0) with
      | none => some Rsf.noObject
      | some o => failIf [(u16 p 2 = 0 || decide (u16 p 2 > 4088), 0), (decide (u32 p 4 + u16 p 2 > o.size), Rsf.outOfBounds)] }

/-- BUF_READ (R196). -/
def execBufRead (h : Hdr) (p : Bytes) (s : State) : Host.Outcome State Fault Refusal :=
  anvilR specBufRead h p (.bufRead h p)
    (fun _ hp d =>
      match hp.buf (u16 p 0) with
      | none => (d, .bad St.badParam Rsf.noObject)
      | some o =>
        if o.lost then (d, .bad St.fault Rsf.lost) else (d, .done (o.read (u32 p 4) (u16 p 2)))) s

/-- What the gate must know of BUF_FREE. -/
def specBufFree : OpSpec :=
  { op := 0x0203, len := (· = 4), check := fun s _ p =>
      failIf [((s.heap.buf (u16 p 0)).isNone, Rsf.noObject), (!zero? p 2 2, Rs.reserved)] }

/-- BUF_FREE (R196, R182). -/
def execBufFree (h : Hdr) (p : Bytes) (s : State) : Host.Outcome State Fault Refusal :=
  anvilH specBufFree h p (.bufFree h p)
    (fun c hp d =>
      let k := u16 p 0
      match hp.buf k with
      | none => (hp, d, .bad St.badParam Rsf.noObject)
      | some o =>
        if d.freeing o.handle then (hp, d, .bad St.badState Rsf.freeing)
        else if d.bufBusy k then
          (hp, { d with lay := { d.lay with frees := d.lay.frees ++ [(k, c)] } }, .deferred)
        else (hp.release k, d, .done)) s

/-- What the gate must know of SURF_UPLOAD. -/
def specSurfUpload : OpSpec :=
  { op := 0x0204, len := (· = 36), check := fun s _ p =>
      match s.heap.surf (u16 p 0), s.heap.buf (u16 p 2) with
      | some o, some b =>
        let rect := u8 p 8 = 0
        let rowB := u16 p 16 * fmtBytes o.fmt
        let need := if rect then (u16 p 18 - 1) * u32 p 20 + rowB else u32 p 24
        failIf [(decide (u8 p 8 > 1), 0), (!zero? p 9 3, Rs.reserved),
          (rect && o.fmt = 8, Rsf.format),
          (rect && (u16 p 16 = 0 || u16 p 18 = 0 || decide (u16 p 12 + u16 p 16 > o.width) || decide (u16 p 14 + u16 p 18 > o.height)),
            Rsf.outOfBounds),
          (rect && decide (u32 p 20 < rowB), 0), (rect && u32 p 24 ≠ 0, 0),
          (!rect && !zero? p 12 8, 0), (!rect && (u32 p 24 = 0 || decide (u32 p 20 + u32 p 24 > o.size)), Rsf.outOfBounds),
          (decide (u32 p 4 + need > b.size), Rsf.outOfBounds), (fenceBad (u64 p 28), Rsf.fenceSlot)]
      | _, _ => some Rsf.noObject }

/-- SURF_UPLOAD (R197): the checks; the upload is queued with blits. -/
def execSurfUpload (h : Hdr) (p : Bytes) (s : State) : Host.Outcome State Fault Refusal :=
  anvilH specSurfUpload h p (.surfUpload h p)
    (fun c hp d =>
      match hp.surf (u16 p 0), hp.buf (u16 p 2) with
      | some o, some b =>
        if d.freeing o.handle || d.freeing b.handle then (hp, d, .bad St.badState Rsf.freeing)
        else if o.lost || b.lost then (hp, d, .bad St.fault Rsf.lost)
        else
          let op : BltOp := {
            cmd := some c, up := true, src := u16 p 2, dst := u16 p 0, offset := u32 p 4, mode := u8 p 8, dstX := u16 p 12
            dstY := u16 p 14, w := u16 p 16, h := u16 p 18, dest := u32 p 20, bytes := u32 p 24, fence := u64 p 28 }
          (hp, { d with lay := { d.lay with queue := d.lay.queue ++ [op] } }, .accepted)
      | _, _ => (hp, d, .bad St.badParam Rsf.noObject)) s

/-- R197: the rows of a MODE 0 upload. -/
def uploadRows (o b : Obj) (op : BltOp) : Obj :=
  (List.range op.h).foldl (fun o r =>
    o.write ((op.dstY + r) * pitchOf o.fmt o.width + op.dstX * fmtBytes o.fmt)
      (b.read (op.offset + r * op.dest) (op.w * fmtBytes o.fmt))) o

/-- R197: an upload's effect on the heap. -/
def Heap.upload (hp : Heap) (op : BltOp) : Heap :=
  match hp.buf op.src with
  | none => hp
  | some b => hp.upd op.dst fun o =>
      if op.mode = 0 then uploadRows o b op else o.write op.dest (b.read op.offset op.bytes)

/-- The upload at the head of the blitter's queue, while nothing runs. -/
def Dev.headUpload (d : Dev) : Option BltOp :=
  match d.lay.running, d.lay.queue with
  | none, o :: _ => if o.up then some o else none
  | _, _ => none

/-- SURF_UPLOAD_DONE (R197, R183): the upload at the head of the queue completes; LOST objects fail it (R180). -/
def execSurfUploadDone (s : State) : Host.Outcome State Fault Refusal :=
  hearthEventH (fun hp d =>
    match d.headUpload with
    | none => (hp, d)
    | some op =>
      let lost := (match hp.find op.dst with | some o => o.lost | none => true) || (match hp.find op.src with | some o => o.lost | none => true)
      let d := ({ d with lay := { d.lay with queue := d.lay.queue.tail } }).signal op.fence
      let d := match op.cmd with
        | some c => d.complete c (if lost then St.fault else St.done) (if lost then Rsf.lost else 0)
        | none => d
      (if lost then hp else hp.upload op, d)) s

/-! Class 0x13: surfaces, layers and fences. -/

/-- What the gate must know of SURFACE_CREATE. -/
def specSurfaceCreate : OpSpec :=
  { op := 0x1300, len := (· = 12), check := fun _ _ p => failIf [
      (!(decide (u8 p 0 ≤ 4) || u8 p 0 = 8), 0),
      (if u8 p 0 = 8 then decide (u8 p 1 < 1) || decide (u8 p 1 > 4) else u8 p 1 ≠ 0, 0),
      (decide (u8 p 2 ≥ 32) || !zero? p 3 1, Rs.reserved),
      (u16 p 4 = 0 || decide (u16 p 4 > 16384) || u16 p 6 = 0 || decide (u16 p 6 > 16384), 0),
      (u8 p 0 ≠ 8 && u32 p 8 ≠ 0, 0)] }

/-- SURFACE_CREATE (R198). -/
def execSurfaceCreate (h : Hdr) (p : Bytes) (s : State) : Host.Outcome State Fault Refusal :=
  anvilH specSurfaceCreate h p (.surfaceCreate h p)
    (fun _ hp d =>
      let kind := ObjKind.surface (u8 p 0) (u8 p 1) (u8 p 2) (u16 p 4) (u16 p 6) (u32 p 8)
      let size := imageBytes (u8 p 0) (u8 p 1) (u16 p 4) (u16 p 6)
      match hp.alloc d.hobsUp kind size (bit (u8 p 2) 4) with
      | .error r => (hp, d, .bad St.noResource r)
      | .ok (hp, o) =>
        (hp, d, .done (enc 2 o.handle ++ enc 1 o.dieByte ++ zeros 1 ++ enc 4 (if u8 p 0 = 8 then 0 else pitchOf (u8 p 0) (u16 p 4)) ++ enc 4 size))) s

/-- What the gate must know of SURFACE_FREE. -/
def specSurfaceFree : OpSpec :=
  { op := 0x1301, len := (· = 4), check := fun s _ p =>
      failIf [((s.heap.surf (u16 p 0)).isNone, Rsf.noObject), (!zero? p 2 2, Rs.reserved)] }

/-- SURFACE_FREE (R199, R181, R182). -/
def execSurfaceFree (h : Hdr) (p : Bytes) (s : State) : Host.Outcome State Fault Refusal :=
  anvilH specSurfaceFree h p (.surfaceFree h p)
    (fun c hp d =>
      let k := u16 p 0
      match hp.surf k with
      | none => (hp, d, .bad St.badParam Rsf.noObject)
      | some o =>
        if d.freeing o.handle then (hp, d, .bad St.badState Rsf.freeing)
        else if d.staged k then (hp, d, .bad St.badState Rsf.staged)
        else if d.latched k || d.reading k || d.surfBusy k then
          (hp, { d with lay := { d.lay with frees := d.lay.frees ++ [(k, c)] } }, .deferred)
        else (hp.release k, d, .done)) s

/-- SURFACE_FREE_COMPLETE (R182): a deferred free completes once the object is neither LATCHED nor READING nor BUSY. -/
def execSurfaceFreeComplete (handle : Nat) (s : State) : Host.Outcome State Fault Refusal :=
  hearthEventH (fun hp d =>
    match d.lay.frees.find? (·.1 = handle) with
    | none => (hp, d)
    | some (k, c) =>
      if d.latched k || d.reading k || d.surfBusy k || d.bufBusy k then (hp, d)
      else
        (hp.release k, ({ d with lay := { d.lay with frees := d.lay.frees.filter (·.1 ≠ k) } }).complete c St.done 0)) s

/-- R200: the ranges of a LAYER_SET block that need nothing but itself. -/
def layerCheck (p : Bytes) : Option Nat :=
  if u8 p 1 = 0 then
    failIf [(decide (u8 p 0 > 7) || decide (u8 p 2 > 3), 0), (!zero? p 3 1 || !zero? p 4 36, Rs.reserved),
      (fenceBad (u64 p 40) || fenceBad (u64 p 48), Rsf.fenceSlot)]
  else
    failIf [(decide (u8 p 0 > 7) || decide (u8 p 1 > 1) || decide (u8 p 2 > 3), 0), (!zero? p 3 1 || !zero? p 6 2, Rs.reserved),
      (u16 p 12 = 0 || u16 p 14 = 0, 0), (decide (u32 p 24 < 0x100) || decide (u32 p 24 > 0x7FFFFFFF), 0),
      (decide (u32 p 28 < 0x100) || decide (u32 p 28 > 0x7FFFFFFF), 0), (bit (u8 p 2) 0 && u16 p 32 ≠ 0, 0),
      (decide (u16 p 34 > 0x8000), 0), (fenceBad (u64 p 40) || fenceBad (u64 p 48), Rsf.fenceSlot)]

/-- What the gate must know of LAYER_SET. -/
def specLayerSet : OpSpec :=
  { op := 0x1302, len := (· = 56), check := fun s _ p =>
      match layerCheck p with
      | some r => some r
      | none =>
        if u8 p 1 = 0 then none
        else match s.heap.surf (u16 p 4) with
          | none => some Rsf.noObject
          | some o =>
            let l := layerOf p
            let ls := s.dev.lay.shadow.set (u8 p 0) l
            failIf [
              (decide (l.srcX + l.srcW > o.width) || decide (l.srcY + l.srcH > o.height), Rsf.outOfBounds),
              ((o.fmt ≠ 4 && l.fill ≠ 0) || decide (l.fill ≥ 2 ^ 30), 0),
              (decide (l.srcW * 4096 > 4 * l.dstW) || decide (l.srcH * 4096 > 4 * l.dstH), Rsf.scale),
              (decide (s.dev.bandUsed ls > 4194304), Rsf.layerStore)] }

/-- LAYER_SET (R200, R170–R173, R181): the layer's shadow setting. -/
def execLayerSet (h : Hdr) (p : Bytes) (s : State) : Host.Outcome State Fault Refusal :=
  anvilR specLayerSet h p (.layerSet h p)
    (fun _ hp d =>
      let n := u8 p 0
      let l := layerOf p
      let o := hp.surf l.surface
      if l.enable && d.freeing l.surface then (d, .bad St.badState Rsf.freeing)
      else if l.enable && (match o with | some o => o.lost | none => false) then (d, .bad St.fault Rsf.lost)
      else ({ d with lay := { d.lay with shadow := d.lay.shadow.set n l, changed := d.lay.changed.set n true } }, .done)) s

/-- R201: one layer's entry of LAYER_STATUS. -/
def Dev.layerEntry (d : Dev) (n : Nat) : Bytes :=
  let b := d.lay.bound.getD n {}
  let hd := d.lay.held.getD n none
  enc 1 (if !b.enable then 0 else if hd.isSome then 2 else 1) ++ zeros 1 ++ enc 2 (if b.enable then b.surface else 0)
    ++ enc 2 (match hd with | some l => l.surface | none => 0) ++ zeros 2
    ++ enc 8 (d.rdLoHi (d.hobsUp.headD 1) (R.CMP_BOUND_LO n) (R.CMP_BOUND_HI n))

/-- What the gate must know of LAYER_STATUS. -/
def specLayerStatus : OpSpec :=
  { op := 0x1303, len := (· = 0) }

/-- LAYER_STATUS (R201). -/
def execLayerStatus (h : Hdr) (p : Bytes) (s : State) : Host.Outcome State Fault Refusal :=
  anvil specLayerStatus h p (.layerStatus h p)
    (fun _ d => (d, .done ((List.range 8).map d.layerEntry).flatten)) s

/-- R202: a held setting or a queued operation names a fence slot. -/
def Dev.fenceWaited (d : Dev) (slot : Nat) : Bool :=
  d.lay.held.any (fun o => match o with
    | some l => fenceSlot l.acquire = slot || fenceSlot l.release = slot
    | none => false) ||
  d.lay.queue.any (fun o => fenceSlot o.fence = slot) ||
  (match d.lay.running with | some o => fenceSlot o.fence = slot | none => false)

/-- What the gate must know of FENCE_OP. -/
def specFenceOp : OpSpec :=
  { op := 0x1304, len := (· = 12), check := fun _ _ p => failIf [
      (u16 p 0 = 0 || decide (u16 p 0 > 1023) || decide (u8 p 2 > 2) || decide (u64 p 4 ≥ 2 ^ 54), 0), (!zero? p 3 1, Rs.reserved)] }

/-- FENCE_OP (R202). -/
def execFenceOp (h : Hdr) (p : Bytes) (s : State) : Host.Outcome State Fault Refusal :=
  anvil specFenceOp h p (.fenceOp h p)
    (fun _ d =>
      let sl := u16 p 0
      match u8 p 2 with
      | 0 => (d, .done (enc 8 (d.fence sl)))
      | 1 => let d := d.setFence sl (max (d.fence sl) (u64 p 4)); (d, .done (enc 8 (d.fence sl)))
      | _ => if d.fenceWaited sl then (d, .bad St.badState Rsf.fenceWaited)
             else let d := d.setFence sl 0; (d, .done (enc 8 0))) s

/-! Class 0x14: the blitter. -/

/-- R193: the check of an operation's parameters: the BLT_STATUS.CODE where it fails. -/
def bltCheck (hp : Heap) (d : Dev) (o : BltOp) : Option Nat :=
  let src := hp.surf o.src
  let dst := hp.surf o.dst
  let inside (b : Option Obj) (x y : Nat) : Bool :=
    match b with
    | some b => decide (o.w ≥ 1 ∧ o.h ≥ 1 ∧ o.w ≤ 16384 ∧ o.h ≤ 16384 ∧ x + o.w ≤ b.width ∧ y + o.h ≤ b.height)
    | none => false
  let get (b : Option Obj) (f : Obj → Bool) : Bool := match b with | some b => f b | none => false
  let two := o.op ≠ 0
  failIf [
    (o.op = 3, 5),
    (dst.isNone || (two && src.isNone), 1),
    (get dst (fun b => d.freeing b.handle) || (two && get src (fun b => d.freeing b.handle)), 4),
    (get dst (·.lost) || (two && get src (·.lost)), 8),
    (get dst (·.fmt = 8), 3),
    ((o.op = 1 && (match src, dst with | some a, some b => a.fmt ≠ b.fmt | _, _ => false)) ||
     (o.op = 2 && (match src, dst with | some a, some b => a.fmt = b.fmt | _, _ => false)), 5),
    (!inside dst o.dstX o.dstY || (two && !inside src o.srcX o.srcY), 2),
    (fenceBad o.fence, 7)]

/-- R203: the reason of R194 that matches a code, and whether it is a BAD_STATE or FAULT. -/
def bltReply (code : Nat) : Rep :=
  match code with
  | 1 => .bad St.badParam Rsf.noObject
  | 2 => .bad St.badParam Rsf.outOfBounds
  | 3 => .bad St.badParam Rsf.format
  | 4 => .bad St.badState Rsf.freeing
  | 5 => .bad St.badParam Rsf.format
  | 7 => .bad St.badParam Rsf.fenceSlot
  | _ => .bad St.fault Rsf.lost

/-- R203: the operation of a BLIT block. -/
def blitOf (c : Cmd) (p : Bytes) : BltOp := {
  cmd := some c, op := u8 p 0, src := u16 p 4, dst := u16 p 6, srcX := u16 p 8, srcY := u16 p 10, dstX := u16 p 12
  dstY := u16 p 14, w := u16 p 16, h := u16 p 18, fill := u32 p 20, fence := u64 p 24 }

/-- What the gate must know of BLIT. -/
def specBlit : OpSpec :=
  { op := 0x1400, len := (· = 32), check := fun _ _ p => failIf [(decide (u8 p 0 > 2), 0), (!zero? p 1 3, Rs.reserved)] }

/-- BLIT (R203). -/
def execBlit (h : Hdr) (p : Bytes) (s : State) : Host.Outcome State Fault Refusal :=
  anvilR specBlit h p (.blit h p)
    (fun c hp d =>
      let o := blitOf c p
      match bltCheck hp d o with
      | some k => (d, bltReply k)
      | none => ({ d with lay := { d.lay with queue := d.lay.queue ++ [o] } }, .accepted)) s

/-- The operation the BLT_ registers describe (R193). -/
def Dev.bltRegs (d : Dev) : BltOp := {
  cmd := none, op := d.rd 0 R.BLT_CTRL_OP, src := d.rd 0 R.BLT_SRC, dst := d.rd 0 R.BLT_DST
  srcX := d.rd 0 R.BLT_SRC_XY_X, srcY := d.rd 0 R.BLT_SRC_XY_Y, dstX := d.rd 0 R.BLT_DST_XY_X
  dstY := d.rd 0 R.BLT_DST_XY_Y, w := d.rd 0 R.BLT_SIZE_W, h := d.rd 0 R.BLT_SIZE_H
  fill := d.rd 0 R.BLT_FILL, fence := d.rdLoHi 0 R.BLT_FENCE_LO R.BLT_FENCE_HI }

/-- R203: the firmware writes an operation's parameters into the BLT_ registers. -/
def Dev.bltLoad (d : Dev) (o : BltOp) : Dev :=
  let d := ((d.wr 0 R.BLT_CTRL_OP o.op).wr 0 R.BLT_SRC o.src).wr 0 R.BLT_DST o.dst
  let d := (((d.wr 0 R.BLT_SRC_XY_X o.srcX).wr 0 R.BLT_SRC_XY_Y o.srcY).wr 0 R.BLT_DST_XY_X o.dstX).wr 0 R.BLT_DST_XY_Y o.dstY
  (((d.wr 0 R.BLT_SIZE_W o.w).wr 0 R.BLT_SIZE_H o.h).wr 0 R.BLT_FILL o.fill).wrLoHi 0 R.BLT_FENCE_LO R.BLT_FENCE_HI o.fence

/-- The positions of a run of `n` from `a`, ascending or descending (R192). -/
def run (a n : Nat) (down : Bool) : List Nat := if down then (fromN a n).reverse else fromN a n

/-- R190–R192: an operation's effect on the destination: pixels in the order of its directions, each read when its turn
comes. A source that is the destination is read as it then stands. -/
def bltPixels (src : Option Obj) (o : BltOp) (dst : Obj) : Obj :=
  let dx := decide (o.dstX > o.srcX)
  let dy := decide (o.dstY > o.srcY)
  (run 0 o.h (o.op ≠ 0 && dy)).foldl (fun acc y =>
    (run 0 o.w (o.op ≠ 0 && dx)).foldl (fun acc x =>
      let v := if o.op = 0 then o.fill
        else
          let sp := if o.src = o.dst then acc else src.getD acc
          let raw := sp.pixel (o.srcX + x) (o.srcY + y)
          if o.op = 1 then raw
          else if sp.badAt (o.srcX + x) (o.srcY + y) then packPixel acc.fmt ⟨some (0, 255), none, none, none⟩
          else packPixel acc.fmt (unpackPixel sp.pixFmt raw)
      acc.setPixel (o.dstX + x) (o.dstY + y) v) acc) dst

/-- R189: malformed pewter tiles in the rectangle an operation reads. -/
def bltBadTiles (src : Option Obj) (o : BltOp) : Nat :=
  match src with
  | none => 0
  | some b =>
    match b.kind with
    | .surface 8 base _ w _ _ =>
      let tx := fromN (o.srcX / 64) ((o.srcX + o.w - 1) / 64 + 1 - o.srcX / 64)
      let ty := fromN (o.srcY / 4) ((o.srcY + o.h - 1) / 4 + 1 - o.srcY / 4)
      (ty.map fun y => (tx.filter fun x => tileBad base (b.tile (y * tilesX w + x))).length).sum
    | _ => 0

/-- R193, R183: an operation ends: its status, its fence, and the completion event of the command that queued it. -/
def Dev.bltEnd (d : Dev) (o : BltOp) (code : Nat) : Dev :=
  let d := (d.wr 0 R.BLT_STATUS_BUSY 0).wr 0 R.BLT_STATUS_CODE code
  let d := if code = 0 then (d.wr 0 R.BLT_STATUS_DONE 1).bump 0 R.BLT_COUNT else d.wr 0 R.BLT_STATUS_ERROR 1
  let d := ({ d with lay := { d.lay with running := none } }).signal o.fence
  match o.cmd with
  | none => d
  | some c =>
    if code = 0 then d.complete c St.done 0
    else if code = 8 then d.complete c St.fault Rsf.lost
    else d.complete c St.fault 0 (enc 1 code)

/-- R193: START with the operation `o`: checked, and begun or ended at once. -/
def bltStart (o : BltOp) (hp : Heap) (d : Dev) : Heap × Dev :=
  let d := ((d.wr 0 R.BLT_STATUS_DONE 0).wr 0 R.BLT_STATUS_ERROR 0).wr 0 R.BLT_STATUS_DIR 0
  match bltCheck hp d o with
  | some k => (hp, d.bltEnd o k)
  | none =>
    let src := hp.surf o.src
    let dir := if o.op = 0 then 0 else b2n (o.dstX > o.srcX) + 2 * b2n (o.dstY > o.srcY)
    let d := (d.wr 0 R.BLT_STATUS_BUSY 1).wr 0 R.BLT_STATUS_DIR dir
    let d := if o.op = 2 then d.bump 0 R.BLT_PEWTER_BAD (bltBadTiles src o) else d
    (hp.upd o.dst (bltPixels src o), { d with lay := { d.lay with running := some o } })

/-- A START written to BLT_CTRL (R193): ignored and counted while BUSY; else the operation the registers describe. -/
def bltDirect (op : Nat) (hp : Heap) (d : Dev) : Heap × Dev :=
  if d.lay.running.isSome then (hp, d.bump 0 R.BLT_REJECT) else bltStart { d.bltRegs with op := op } hp (d.wr 0 R.BLT_CTRL_OP op)

/-- A START with an OP (R193, R203): ignored and counted while BUSY; the operation at the head of the queue if it is one
of this OP, which the firmware has then written into the registers; otherwise what the registers describe. -/
def bltStartOp (op : Nat) (hp : Heap) (d : Dev) : Heap × Dev :=
  if d.lay.running.isSome then (hp, d.bump 0 R.BLT_REJECT)
  else
    match d.lay.queue with
    | o :: rest =>
      if !o.up && o.op = op then
        bltStart o hp ({ d with lay := { d.lay with queue := rest } }.bltLoad o)
      else bltDirect op hp d
    | [] => bltDirect op hp d

/-- BLT_FILL_START (R190, R193). -/
def execBltFillStart (s : State) : Host.Outcome State Fault Refusal := hearthEventH (bltStartOp 0) s

/-- BLT_COPY_START (R190, R192, R193). -/
def execBltCopyStart (s : State) : Host.Outcome State Fault Refusal := hearthEventH (bltStartOp 1) s

/-- BLT_CONVERT_START (R190–R193). -/
def execBltConvertStart (s : State) : Host.Outcome State Fault Refusal := hearthEventH (bltStartOp 2) s

/-- BLIT_COMPLETE (R193, R203): the operation running ends; `bad` says that a read returned uncorrectable (code 0x06). A
surface that became LOST meanwhile ends it with code 0x08 (R180). -/
def execBlitComplete (bad : Bool) (s : State) : Host.Outcome State Fault Refusal :=
  hearthEventH (fun hp d =>
    match d.lay.running with
    | none => (hp, d)
    | some o =>
      let lost := (match hp.find o.dst with | some b => b.lost | none => false) ||
        (o.op ≠ 0 && (match hp.find o.src with | some b => b.lost | none => false))
      (hp, d.bltEnd o (if lost then 8 else if bad then 6 else 0))) s

/-- R185: the strips of a frame and of those before it are composed: none dealt is still to be composed, and every region that is ON has
dealt all its strips of that frame or has underrun in it; at the latest as the next frame starts. -/
def Dev.composed (d : Dev) (frame : Nat) : Bool :=
  decide (d.frame > frame) || ((d.syn.strips.all fun t => decide (t.frame > frame) || t.excused || decide (t.phase ≥ 2)) &&
    (List.range 4).all fun r => !(d.fn (FnId.region r)).st = .on || d.syn.dead.contains (r, frame)
      || decide ((kvGet d.syn.dealt (r, frame)).getD 0 ≥ (if d.mode = 2 then 3200 else d.active / 16)))

/-- LAYER_RELEASE (R185): the last strip of frame F − 1 that read a replaced surface has been composed on every hob die
in service: the release fence is signalled and the surface leaves READING for that layer. -/
def execLayerRelease (layer : Nat) (s : State) : Host.Outcome State Fault Refusal :=
  hearthEvent (fun d =>
    match d.lay.reading.find? (fun r => r.layer = layer && d.composed r.frame) with
    | none => d
    | some r => ({ d with lay := { d.lay with reading := d.lay.reading.erase r } }).signal r.release) s

end Sys2Proof.Machine
end

