-- ==== Sys2Proof/Machine/Commit.lean ====
section
/-! DEFINITION. Commits (R209–R212): what a capture takes, how it is bound on the hearth, how its flue part travels as a
COMMIT sequence (R29) and is applied and judged. -/

namespace Sys2Proof.Machine

/-! COMMIT sequences (R29). -/

/-- R29: the payload of the parts of a sequence: 63 values to a part, at least one part, LAST in the final one. -/
def commitParts (frame : Nat) (vals : List (Nat × Nat)) : Nat → Nat → List (List Nat)
  | 0, _ => []
  | n + 1, k =>
    let now := vals.take 63
    let rest := vals.drop 63
    let last := decide (rest = [])
    let part := (b2n last * 2 ^ 63 + k * 2 ^ 56 + frame % 2 ^ 48) :: now.map fun e => e.1 * 2 ^ 32 + e.2
    part :: (if last then [] else commitParts frame rest n (k + 1))

/-! Capture (R211, R212). -/

/-- R221, R227: a capture carries a register: a shadow raster register is not carried, but for SCN_VBLANK where a region was not OFF. -/
def Snap.carries (s : Snap) (a : Nat) : Bool :=
  let off := a % 2 ^ 28
  !(off = R.SCN_RATE.off || off = R.SCN_WIDTH.off || off = R.SCN_ACTIVE.off || off = R.SCN_SLOT_LINES.off
    || (off = R.SCN_VBLANK.off && !s.blank))

/-- The addresses listed in a register file. -/
def rfKeys (f : RegFile) : List Nat := f.map (·.1)

/-- R200, R211: the layer settings changed since the last capture. -/
def Dev.captureLayers (d : Dev) : List (Nat × LayerSet) :=
  (List.range 8).filterMap fun n => if d.lay.changed.getD n false then some (n, d.lay.shadow.getD n {}) else none

/-- R241: film update slots staged before the commit was accepted; none are bound while the retained mode is not OFF
(R246). `late` says that the capture is that of a MODE 0 commit, accepted earlier. -/
def Dev.captureFilm (d : Dev) (late : Bool) : List Nat :=
  if (d.fn FnId.retain).st ≠ .off then []
  else (d.film.slots.filter fun e => e.2.phase = 0 && (!late || e.2.skip = 0)).map (·.1)

/-- R249: at the first commit after a park the committed film target map takes the parked states. -/
def Dev.mapFromPark (d : Dev) : Dev :=
  if ¬ d.film.fromPark then d
  else
    let x4 := bandStart d.width 4 / 8
    let st (f : Nat) := d.film.dies.getD f {}
    let e0 := (st 0).cells.filterMap fun e => if e.1 % 2048 < x4 then some (e.1, e.2.state) else none
    let e1 := (st 1).cells.filterMap fun e => if x4 ≤ e.1 % 2048 then some (e.1, e.2.state) else none
    let base1 := (st 1).base.state
    let fill := if base1 = (st 0).base.state then []
      else ((List.range (d.active / 8)).map fun y => (fromN x4 (d.width / 8 - x4)).map fun x => (y * 2048 + x, base1)).flatten
    let m := (fill ++ e0 ++ e1).foldl (fun m e => amPut m e.1 e.2) []
    { d with film := { d.film with mapBase := (st 0).base.state, map := m, fromPark := false } }

/-- R211: a capture of the whole shadow state. -/
def Dev.capture (d : Dev) (late : Bool) : Snap × Dev :=
  let d := d.mapFromPark
  let (map, d) := d.pmCapture
  let (cams, d) := d.camCapture
  let film := d.captureFilm late
  let mark (e : Nat × FilmSlot) : Nat × FilmSlot :=
    if film.contains e.1 then (e.1, { e.2 with phase := 1 }) else if late then (e.1, { e.2 with skip := e.2.skip - 1 }) else e
  let s : Snap := {
    shadow := d.shadow, blank := !d.regionsOff, layers := d.captureLayers, map := map, film := film, swaps := d.blw.staged
    cams := cams, views := d.conf.views, curves := d.curves.shadow
    camN := d.syn.camNext }
  let d := { d with
    lay := { d.lay with changed := d.lay.changed.map fun _ => false }
    film := { d.film with slots := d.film.slots.map mark }
    blw := { d.blw with staged := [] } }
  (s, d)

/-! The flue part (R29, R212). -/

/-- R29, R212: the values of a capture that a sequence for a flue die carries: those that differ from the value in effect there, or from the
value that another commit still waiting, or another sequence the die has yet to apply, gives the register (log entry 22). -/
def Dev.flueVals (d : Dev) (s : Snap) (die : Nat) : List (Nat × Nat) :=
  let held := (d.flueEnd (die - 8)).due.map (·.vals)
  let other := held.flatten ++ (d.ras.commits.map fun c => (c.snap.shadow.filter fun e => c.snap.carries e.1).map fun e => (e.1, e.2.toNat)).flatten
  let keys := ((rfKeys s.shadow ++ rfKeys d.bound ++ other.map (·.1)).eraseDups).filter fun a => a / 2 ^ 28 = die && s.carries a
  let differs (a : Nat) : Bool :=
    rfGet s.shadow a ≠ rfGet d.bound a || other.any (fun e => e.1 = a && e.2 ≠ (rfGet s.shadow a).toNat)
      || d.ras.commits.any fun c => c.snap.carries a && rfGet c.snap.shadow a ≠ rfGet s.shadow a
  (keys.filter differs).map fun a => (a, (rfGet s.shadow a).toNat)

/-- R212: the flue part of commit `id` for frame F is sent to each flue die as one COMMIT sequence, and judged by its
replies. -/
def Dev.sendFlue (d : Dev) (id f : Nat) (s : Snap) (cmd : Option Cmd) : Dev :=
  let j : Judge := ⟨id, f, cmd, [8, 9], []⟩
  let d := { d with ras := { d.ras with judging := d.ras.judging ++ [j] } }
  let film := if s.film = [] then d.film.carried else d.film.carried ++ [(id, s.film)]
  let swaps := if s.swaps = [] then d.blw.carried else d.blw.carried ++ [(id, s.swaps)]
  let d := { d with film := { d.film with carried := film }, blw := { d.blw with carried := swaps } }
  flueDies.foldl (fun d die =>
    let vals := d.flueVals s die
    let e := d.flueEnd (die - 8)
    let d := d.setFlueEnd (die - 8) { e with due := e.due ++ [⟨f, id, vals⟩] }
    (commitParts f vals 129 0).foldl (fun d w => d.fwdSend die 0x03 w (some (.commit id))) d) d

/-- R212: a flue part has been judged on every die: a MODE 2 commit's completion event is sent. -/
def Dev.judged (d : Dev) (j : Judge) : Dev :=
  let d := { d with ras := { d.ras with judging := d.ras.judging.filter (·.id ≠ j.id) } }
  match j.cmd with
  | none => d
  | some c => if j.dropped = [] then d.complete c St.done 0 (enc 6 j.frame) else d.complete c St.fault 0x46 (enc 6 j.frame)

/-- R212: the hearth end judges the flue part of a commit on a die applied (`ok`) or dropped. -/
def Dev.judge (d : Dev) (id die : Nat) (ok : Bool) : Dev :=
  match d.ras.judging.find? (·.id = id) with
  | none => d
  | some j =>
    if ¬ j.open_.contains die then d
    else
      let j := { j with open_ := j.open_.filter (· ≠ die), dropped := if ok then j.dropped else j.dropped ++ [die] }
      let d := { d with
        ras := { d.ras with judging := d.ras.judging.map fun x => if x.id = id then j else x }
        dmp := { d.dmp with waiting := d.dmp.waiting.filter fun a => ¬(a.die = die ∧ a.why = .commit id) } }
      let d := if ok then d
        else (d.raise (rasterSource (die - 8))).descriptor 1 die 0x15 0 Cause.handshakeTimeout 0 (j.frame % 65536)
      if j.open_ = [] then d.judged j else d

/-- R212: a reply to a part of a sequence: the die's part is applied when every part was answered 0x00 (log entry 176). -/
def Dev.partAnswered (d : Dev) (id die : Nat) (status : Nat) : Dev :=
  if status ≠ 0 then d.judge id die false
  else if d.dmp.waiting.any fun a => a.die = die && a.why = .commit id then d
  else d.judge id die true

/-! Binding on the hearth (R184, R209–R211). -/

/-- R184, R185: a layer setting binds at F: a surface it replaces is read on by the strips of F − 1, and its RELEASE fence
waits for them; with nothing to release, its own RELEASE is signalled at F. -/
def Dev.layerBind (d : Dev) (n : Nat) (l : LayerSet) (f : Nat) : Dev :=
  let old := d.lay.bound.getD n {}
  let d := { d with lay := { d.lay with bound := d.lay.bound.set n l, held := d.lay.held.set n none } }
  let d := d.hobsUp.foldl (fun d k =>
    let st := setBits (BitVec.ofNat 32 (d.rd k R.CMP_LAYER_STATE_BOUND)) n n (b2n l.enable)
    let d := (d.wr k R.CMP_LAYER_STATE_BOUND st.toNat).wr k R.CMP_LAYER_STATE_HELD
      (setBits (BitVec.ofNat 32 (d.rd k R.CMP_LAYER_STATE_HELD)) n n 0).toNat
    (d.wrLoHi k (R.CMP_BOUND_LO n) (R.CMP_BOUND_HI n) f).wr k R.CMP_BAND_USED (d.bandUsed d.lay.bound)) d
  if old.enable then { d with lay := { d.lay with reading := d.lay.reading ++ [⟨n, old.surface, f - 1, l.release⟩] } }
  else d.signal l.release

/-- R184: a changed setting is examined: it binds, or is held; a setting held before is dropped and counted. -/
def Dev.layerTake (d : Dev) (n : Nat) (l : LayerSet) (f : Nat) : Dev :=
  let d := if (d.lay.held.getD n none).isSome then
      ((d.hobsUp.foldl (fun d k => d.bump k R.CMP_DROPPED) d).raise 97) else d
  if d.signalled l.acquire then d.layerBind n l f
  else
    let d := { d with lay := { d.lay with held := d.lay.held.set n (some l) } }
    d.hobsUp.foldl (fun d k => d.wr k R.CMP_LAYER_STATE_HELD
      (setBits (BitVec.ofNat 32 (d.rd k R.CMP_LAYER_STATE_HELD)) n n 1).toNat) d

/-- HELD_LAYER_BIND (R184): held settings are examined at the binding point of a following frame. -/
def Dev.heldLayers (d : Dev) (f : Nat) (skip : List Nat) : Dev :=
  (List.range 8).foldl (fun d n =>
    match d.lay.held.getD n none with
    | none => d
    | some l =>
      if skip.contains n then d
      else if d.signalled l.acquire then (d.layerBind n l f).raise 97
      else d) d

/-- R204: a frame for which a setting is held is counted, however many are. -/
def Dev.countHeld (d : Dev) : Dev := if d.lay.held.any Option.isSome then d.hobsUp.foldl (fun d k => d.bump k R.CMP_HELD) d else d

/-- R246: film updates on their way to the flue dies, or acting there. -/
def Dev.updatesGoing (d : Dev) : Bool := d.film.carried != [] || d.film.slots.any fun e => e.2.phase = 2

/-- R246: while the retained mode is not OFF a scheduled commit binds no update: those it captured are staged again (log entry 180). -/
def Dev.holdUpdates (d : Dev) (c : Commit) : Commit × Dev :=
  if !c.sched || (d.fn FnId.retain).st = .off then (c, d)
  else
    let back (e : Nat × FilmSlot) : Nat × FilmSlot := if c.snap.film.contains e.1 then (e.1, { e.2 with phase := 0 }) else e
    ({ c with snap := { c.snap with film := [] } }, { d with film := { d.film with slots := d.film.slots.map back } })

/-- R160: the lost strip being redone: the first in need order. -/
def Dev.redoing (d : Dev) : Option Strip := d.syn.strips.find? fun t => t.redone && !t.excused && t.phase < 2

/-- A strip is being computed: begun by its grate, rescued, or the lost strip being redone. -/
def Dev.computing (d : Dev) (t : Strip) : Bool :=
  t.phase < 2 && (if t.redone then (match d.redoing with | some r => r = t | none => false) else t.phase = 1 || t.rescued)

/-- R146, R154, R177: an event befalls the strips being computed, `f` saying what it is to the strip and its frame's picture choice. Its
number is fresh. -/
def Dev.cutRays (d : Dev) (f : Pick → Strip → Nat → RayCut) : Dev :=
  let one (t : Strip) : Strip := match d.computing t, d.syn.picks.find? fun k => k.frame = t.frame with
    | true, some k => { t with cuts := t.cuts ++ [f k t d.free] }
    | _, _ => t
  { d with free := d.free + 1, syn := { d.syn with strips := d.syn.strips.map one } }

/-- R146: views cease to be usable for the frames already picked, those of monitor pictures (R485) included. -/
def Dev.unpick (d : Dev) (gone : Nat → PickView → Bool) : Dev :=
  let f (k : Pick) : Pick := { k with views := k.views.filter fun v => !gone k.slot v }
  { d with
    syn := { d.syn with picks := d.syn.picks.map f }
    conf := { d.conf with slots := d.conf.slots.map fun x => { x with pics := x.pics.map fun q => { q with pick := q.pick.map f } } } }

/-- R146: views of source streams cease to be usable for the frames already picked, from the next ray issued. -/
def Dev.dropPicked (d : Dev) (gone : Nat → PickView → Bool) : Dev :=
  (d.cutRays fun k _ id => { id := id, views := k.views.filter (gone k.slot) }).unpick gone

/-- R177: surfaces become LOST: not drawn from the next ray. -/
def Dev.cutSurfaces (d : Dev) (was now : Heap) : Dev :=
  let hs := (now.objs.filter fun o => o.lost && !(was.objs.any fun q => q.handle = o.handle && q.lost)).map (·.handle)
  if hs = [] then d else d.cutRays fun _ _ id => { id := id, surfaces := hs }

/-- R163: MISMATCH: the camera set in effect does not match the VIEWS of the source slot. -/
def Dev.sourceCheck (d : Dev) : Dev :=
  let slot := d.rdB (d.hobsUp.headD 1) R.SYN_SOURCE_SLOT
  let bad : Bool := match (d.dec.slots.getD slot {}).cfg with
    | some c => d.syn.camNow ≠ 0 && c.views ≠ d.syn.camNow
    | none => false
  d.hobsUp.foldl (fun d k => d.wr k R.SYN_SOURCE_MISMATCH (b2n bad)) d

/-- R210, R211: the hearth part of a commit is applied at F. -/
def Dev.bindHearth (d : Dev) (s : Snap) (f : Nat) : Dev :=
  let hearth (e : Nat × Word) : Bool := decide (e.1 / 2 ^ 28 < 8)
  let d : Dev := { d with bound := s.shadow.filter hearth ++ d.bound.filter fun e => !hearth e }
  let dith := bit (rfGet s.shadow (regAddr 8 R.QNC_CFG_DITHER.off)).toNat 0
  let d := { d with syn := { d.syn with camNow := s.camN, dither := dith } }.sourceCheck
  let d := s.layers.foldl (fun d e => d.layerTake e.1 e.2 f) d
  let d := d.pmFrame s.map f
  let d := d.camBind s.cams
  let d := { d with curves := { d.curves with bound := s.curves } }
  let d := { d with conf := d.conf.bindViews s.views }
  s.film.foldl (fun d k =>
    match d.film.slots.find? (·.1 = k) with
    | none => d
    | some (_, sl) =>
      let m := (List.range sl.targets.length).foldl (fun m i =>
        amPut m ((sl.y + i / sl.w) * 2048 + sl.x + i % sl.w) (sl.targets.getD i 0)) d.film.map
      { d with film := { d.film with map := m, slots := amPut d.film.slots k { sl with phase := 2, frame := f } } }) d

end Sys2Proof.Machine
end

