-- ==== Sys2Proof/Machine/Raster.lean ====
section
/-! DEFINITION. Raster timing, commit and genlock (class 0x15, R205–R227) but for the events of the flue raster's lines and
frames (Frames.lean): MODE_SET, RASTER_SET, COMMIT, the binding point, genlock settings, FSYNC_IN, ABANDON and the status
commands. -/

namespace Sys2Proof.Machine

namespace Rsr
/-- R220. -/
abbrev rasterOn := 0x40
abbrev geometry := 0x41
abbrev linkRate := 0x42
abbrev timingMismatch := 0x43
abbrev tooLate := 0x44
abbrev commitFull := 0x45
abbrev fluePart := 0x46
abbrev noRaster := 0x47
abbrev dieDown := 0x48
end Rsr

/-! MODE_SET (R1, R67). -/

/-- R67, R184: every layer is set off: held settings are dropped and counted, and the RELEASE fences of the settings that were bound, and those
that wait for strips, are signalled. -/
def Dev.layersOff (d : Dev) : Dev :=
  let l := d.lay
  let d := { d with lay := { l with
      shadow := List.replicate 8 {}, bound := List.replicate 8 {}, changed := List.replicate 8 false
      held := List.replicate 8 none, reading := [] } }
  let drops := (l.held.filter Option.isSome).length
  let d := Nat.repeat (fun d => d.raise 97) drops (d.hobsUp.foldl (fun d k => d.bump k R.CMP_DROPPED drops) d)
  let d := l.reading.foldl (fun d x => d.signal x.release) ((l.bound.filter (·.enable)).foldl (fun d x => d.signal x.release) d)
  d.hobsUp.foldl (fun d k => ((d.wr k R.CMP_LAYER_STATE_BOUND 0).wr k R.CMP_LAYER_STATE_HELD 0).wr k R.CMP_BAND_USED 0) d

/-- R67: the shadow raster registers of the flue dies that are reachable return to their reset values (log entry 171). -/
def Dev.rastersOff (d : Dev) (h : Hdr) : Dev :=
  let ws := [(R.SCN_RATE, 7), (R.SCN_WIDTH, 0x4000), (R.SCN_ACTIVE, 0x4000), (R.SCN_VBLANK, 0x40), (R.SCN_SLOT_LINES, 0x737)]
  (flueDies.filter d.flueUp).foldl (fun d k => (d.flueWrites h [k] ws (fun w => (k, some w.1)) fun d w => d.wrS k w.1 w.2).2.1) d

/-- What the gate must know of MODE_SET. -/
def specModeSet : OpSpec :=
  { op := 0x0008, len := (· = 4), check := fun _ _ p => failIf [
      (!(u8 p 0 = 1 || u8 p 0 = 2), 0), (!zero? p 1 3, Rs.reserved)] }

/-- MODE_SET (R67, R1). -/
def execModeSet (h : Hdr) (p : Bytes) (s : State) : Host.Outcome State Fault Refusal :=
  anvil specModeSet h p (.modeSet h p)
    (fun _ d =>
      let m := u8 p 0
      if m = d.mode then (d, .done)
      else if ¬ d.regionsOff then (d, .bad St.badState 0)
      else
        let d := { d with mode := m, ras := { d.ras with rasters := [none, none, none, none] } }
        ((d.rayReset m).layersOff.rastersOff h, .done)) s

/-! RASTER_SET (R207, R221). -/

/-- R207: the reason a raster is refused in an output mode. -/
def rasterBad (mode : Nat) (r : Raster) : Option Nat :=
  let (a, b) := lineTime r.rate r.active r.vblank
  if r.vblank < 8 ∨ r.vblank > 255 then some Rsr.geometry
  else if mode = 2 then
    if r.rate < 5 ∨ r.rate > 7 ∨ r.width ≠ 0 ∨ r.slotLines < 1024 ∨ r.slotLines > 4095 then some Rsr.geometry else none
  else if r.rate > 9 ∨ r.width < 64 ∨ r.width > 16384 ∨ r.width % 64 ≠ 0 ∨ r.active < 64 ∨ r.active > 16384 ∨ r.active % 64 ≠ 0
      ∨ (r.rate ≥ 8 ∧ r.active > 8192) then some Rsr.geometry
  else if r.width * 36 * 65536 * b > 640 * a then some Rsr.linkRate else none

/-- R221: the region exists in the output mode. -/
def Dev.regionExists (d : Dev) (r : Nat) : Bool :=
  if d.mode = 1 then r = 0 else decide (r < d.rd (d.hobsUp.headD 1) R.SYN_RM_GRID_ARRAYS)

/-- R205, R221: rate, VBLANK_NOM and SLOT_LINES equal those of every other region not OFF. -/
def Dev.timingAgrees (d : Dev) (r : Nat) (x : Raster) : Bool :=
  (List.range 4).all fun k => k = r || (d.fn (FnId.region k)).st = .off ||
    (match d.ras.rasters.getD k none with
      | none => true
      | some y => y.rate = x.rate && y.vblank = x.vblank && y.slotLines = x.slotLines)

/-- The shadow raster registers of a flue die as a RASTER_SET of a region leaves them. -/
def rasterFields (mode : Nat) (x : Raster) : List (Fld × Nat) :=
  [(R.SCN_RATE, x.rate), (R.SCN_VBLANK, x.vblank)] ++
    (if mode = 2 then [(R.SCN_ACTIVE, 768 * x.slotLines), (R.SCN_SLOT_LINES, x.slotLines)]
     else [(R.SCN_WIDTH, x.width), (R.SCN_ACTIVE, x.active)])

/-- What the gate must know of RASTER_SET. -/
def specRasterSet : OpSpec :=
  { op := 0x1500, len := (· = 16), check := fun _ _ p => failIf [
      (decide (u8 p 0 > 3), 0), (!zero? p 2 2 || !zero? p 6 2, Rs.reserved)] }

/-- RASTER_SET (R221). -/
def execRasterSet (h : Hdr) (p : Bytes) (s : State) : Host.Outcome State Fault Refusal :=
  anvil specRasterSet h p (.rasterSet h p)
    (fun _ d =>
      let r := u8 p 0
      let x : Raster := ⟨u8 p 1, u16 p 4, u32 p 8, u16 p 12, u16 p 14⟩
      let st := (d.fn (FnId.region r)).st
      if ¬ d.regionExists r ∨ (d.mode = 1 ∧ x.slotLines ≠ 0) ∨ (d.mode = 2 ∧ x.active ≠ 0) then (d, .bad St.badParam 0)
      else
        let x := if d.mode = 2 then { x with active := 768 * x.slotLines } else x
        match rasterBad d.mode x with
        | some rs => (d, .bad St.badParam rs)
        | none =>
          let same : Bool := match d.ras.rasters.getD r none with
            | some y => decide ({ y with vblank := x.vblank } = x)
            | none => false
          if st ≠ .off ∧ ¬ same then (d, .bad St.badState Rsr.rasterOn)
          else if ¬ d.timingAgrees r x then (d, .bad St.badState Rsr.timingMismatch)
          else
            let ws := (flueDies.map fun k => (rasterFields d.mode x).map fun e => (k, e.1, e.2)).flatten
            let (n, d, rep) := d.flueWrites h flueDies ws (fun w => (w.1, some w.2.1)) fun d w => d.wrS w.1 w.2.1 w.2.2
            let d := if n = ws.length then { d with ras := { d.ras with rasters := d.ras.rasters.set r (some x) } } else d
            (d, rep.getD .done)) s

/-! COMMIT (R209–R212, R223). -/

/-- A MEDIA time given by its stamp (R363: the nearest instant). -/
def Dev.mediaAt (d : Dev) (stamp : Nat) : Int :=
  (d.media : Int) + signed 64 ((stamp + 2 ^ 64 - d.short 0) % 2 ^ 64)

/-- R223: the earliest frame a commit can be bound to. -/
def Dev.nextBind (d : Dev) : Nat := d.ras.bound + 1

/-- R223: FRAME and BIND of a reply. -/
def Dev.bindReply (d : Dev) (f : Nat) : Bytes := enc 8 f ++ enc 8 (stampOf (d.bindTime f))

/-- Scheduled commits that wait (R211). -/
def Dev.scheduled (d : Dev) : List Commit := d.ras.commits.filter (·.sched)

/-- R211: a captured commit joins those that wait, in the order of acceptance. -/
def Dev.addCommit (d : Dev) (c : Commit) : Dev :=
  let l := d.ras.commits
  { d with ras := { d.ras with commits := l.takeWhile (·.no < c.no) ++ c :: l.dropWhile (·.no < c.no) } }

/-- R211: a COMMIT is accepted: it takes the next number. -/
def Dev.takeCommitNo (d : Dev) : Nat × Dev := (d.ras.commitNo, { d with ras := { d.ras with commitNo := d.ras.commitNo + 1 } })

/-- What the gate must know of COMMIT. -/
def specCommit : OpSpec :=
  { op := 0x1502, len := (· = 16), check := fun _ _ p => failIf [
      (decide (u8 p 0 > 2), 0), (!zero? p 1 7, Rs.reserved), (u8 p 0 = 0 && u64 p 8 ≠ 0, 0), (u8 p 0 = 1 && decide (u64 p 8 ≥ 2 ^ 48), 0)] }

/-- COMMIT (R223). -/
def execCommit (h : Hdr) (p : Bytes) (s : State) : Host.Outcome State Fault Refusal :=
  let v := u64 p 8
  anvil specCommit h p (.commit h p)
    (fun c d =>
      match u8 p 0 with
      | 0 =>
        let (no, d) := d.takeCommitNo
        ({ d with ras := { d.ras with capture := d.ras.capture ++ [(no, c)] } }, .later)
      | 1 =>
        if v > d.nextBind + 1048576 then (d, .bad St.badParam 0)
        else if v < d.nextBind then (d, .reply St.badState Rsr.tooLate (enc 8 d.nextBind))
        else if d.scheduled.length ≥ 16 then (d, .bad St.noResource Rsr.commitFull)
        else
          let (no, d) := d.takeCommitNo
          let (snap, d) := d.capture false
          ((d.addCommit ⟨no, none, some v, 0, true, snap⟩).pmFrame snap.map v, .done (d.bindReply v))
      | _ =>
        let t := d.mediaAt v
        let (n, m) := d.frameStart d.ras.bound
        if t - d.media > 3600 * 10 ^ 9 * 65536 then (d, .bad St.badParam 0)
        else if t * m ≤ n then (d, .reply St.badState Rsr.tooLate (enc 8 d.nextBind))
        else if d.scheduled.length ≥ 16 then (d, .bad St.noResource Rsr.commitFull)
        else
          let (no, d) := d.takeCommitNo
          let (snap, d) := d.capture false
          (d.addCommit ⟨no, some c, none, t.toNat, true, snap⟩, .accepted)) s

/-- COMMIT_CAPTURE_COMPLETE (R210–R212): every hob die has acknowledged the capture of the oldest MODE 0 commit. -/
def execCommitCaptureComplete (s : State) : Host.Outcome State Fault Refusal :=
  hearthEvent (fun d =>
    match d.ras.capture with
    | [] => d
    | (no, c) :: rest =>
      let d := { d with ras := { d.ras with capture := rest } }
      let f := d.nextBind
      let (snap, d) := d.capture true
      let d := ((d.pmFrame snap.map f).sendFlue no f snap none).addCommit ⟨no, none, some f, 0, false, snap⟩
      d.finalReply c St.done 0 (d.bindReply f)) s

/-- R210, R223: a commit is due at the binding point of a frame whose scheduled start is the quotient `t`. -/
def Commit.due (c : Commit) (f : Nat) (t : Int × Int) : Bool :=
  match c.frame with
  | some g => g ≤ f
  | none => decide ((c.time : Int) * t.2 ≤ t.1)

/-- BINDING_POINT (R209–R212, R184): the hearth latch line of F − 1 begins: commits due are applied in the order of their
frames and of acceptance, held layers are examined, and the flue parts of scheduled commits are sent. -/
def execBindingPoint (s : State) : Host.Outcome State Fault Refusal :=
  hearthEvent (fun d =>
    if d.mode = 0 then d
    else
      let t := d.frameStart (d.ras.bound + 1)
      let f := d.numberAt d.ras.bound (roundFree t.1 t.2)
      let due := d.ras.commits.filter fun c => c.due f t
      let rank (c : Commit) : Nat := c.frame.getD f
      let due := due.mergeSort fun a b => decide (rank a ≤ rank b)
      let d := { d with ras := { d.ras with bound := f, commits := d.ras.commits.filter fun c => !(c.due f t) } }
      let touched := (due.map fun c => c.snap.layers.map (·.1)).flatten
      let d := due.foldl (fun d c =>
        let (c, d) := d.holdUpdates c
        let d := d.bindHearth c.snap f
        if c.sched then (d.pmFrame c.snap.map f).sendFlue c.no f c.snap c.cmd else d) d
      let d := (d.heldLayers f touched).countHeld
      { d with syn := { d.syn with lead := d.rdB (d.hobsUp.headD 1) R.SYN_LEAD } }) s

/-! Genlock (R213, R217, R224). -/

/-- What the gate must know of GENLOCK_SET. -/
def specGenlockSet : OpSpec :=
  { op := 0x1503, len := (· = 8), check := fun _ _ p => failIf [
      (decide (u8 p 0 > 2) || decide (u8 p 1 > 2) || (u8 p 1 ≠ 0 && u8 p 1 = u8 p 0), 0),
      (decide (u8 p 2 ≥ 16) || !zero? p 3 1, Rs.reserved)] }

/-- GENLOCK_SET (R224): the settings apply from the next frame start. -/
def execGenlockSet (h : Hdr) (p : Bytes) (s : State) : Host.Outcome State Fault Refusal :=
  anvil specGenlockSet h p (.genlockSet h p)
    (fun _ d =>
      let (a, b) := periodOf d.rate
      if 2 * (s32 p 4).natAbs * 65536 * b > a then (d, .bad St.badParam 0)
      else
        let ws : List (List (Fld × Nat)) := [
          [(R.SCN_GL_CTRL_FIRST, u8 p 0), (R.SCN_GL_CTRL_SECOND, u8 p 1), (R.SCN_GL_CTRL_FLAGS, u8 p 2)], [(R.SCN_GL_OFFSET, u32 p 4)]]
        let (_, d, rep) := d.flueWrites h [8] ws (fun w => (8, w.head?.map (·.1))) fun d w => w.foldl (fun d e => d.wr 8 e.1 e.2) d
        (d, rep.getD .done)) s

/-- R213: a source (1 FSYNC_IN, 2 PTP epoch) is valid. -/
def Dev.sourceValid (d : Dev) (k : Nat) : Bool := (k = 1 && d.ras.fsValid) || (k = 2 && d.epochValid)

/-- R213: the highest-priority valid source of the settings in effect; 0 for free run. -/
def Dev.bestSource (d : Dev) : Nat :=
  if d.sourceValid d.ras.glFirst then d.ras.glFirst else if d.sourceValid d.ras.glSecond then d.ras.glSecond else 0

/-- R213: the source in use changes: LOCKED clears, and the raster event source is raised. -/
def Dev.useSource (d : Dev) (k : Nat) : Dev :=
  if k = d.ras.source then d
  else ({ d with ras := { d.ras with source := k, locked := false, lockRun := 0 } }).flueEvent 0 (rasterSource 0)

/-- R213: the source in use has become invalid: the next valid one is taken. -/
def Dev.sourceLost (d : Dev) : Dev := if d.ras.source ≠ 0 ∧ ¬ d.sourceValid d.ras.source then d.useSource d.bestSource else d

/-- FSYNC_IN_EDGE (R213): an edge of the FSYNC_IN pin. -/
def execFsyncInEdge (falling : Bool) (s : State) : Host.Outcome State Fault Refusal :=
  event (fun d =>
    if falling ≠ bit d.ras.glFlags 1 then d
    else
      let (a, b) := periodOf d.rate
      let t := d.media
      let ok := match d.ras.fsLast with
        | none => true
        | some l => decide (200 * (((t : Int) - l) * b - a).natAbs ≤ a)
      if ok then
        let n := d.ras.fsGood + 1
        { d with ras := { d.ras with fsLast := some t, fsGood := n, fsValid := d.ras.fsValid || decide (n ≥ 8) } }
      else
        let d := d.bump 8 R.SCN_FSYNC_REJECT
        if d.ras.fsValid then d else { d with ras := { d.ras with fsGood := 0 } }) s

/-- FSYNC_LOST (R213): no edge has been accepted for two frame periods. -/
def execFsyncLost (s : State) : Host.Outcome State Fault Refusal :=
  event (fun d => { d with ras := { d.ras with fsLast := none, fsGood := 0, fsValid := false } }.sourceLost) s

/-! Underrun (R218). -/

/-- R218: the line of a frame from which it is black: the first line that begins at least 1 µs from now, or its first where the frame has
not begun at that line. -/
def Dev.blackLine (d : Dev) (frame : Nat) : Nat :=
  let (a, b) := d.lineT
  let t : Int := (d.media : Int) - d.ras.startAt + 1000 * 65536
  ((t * b + a - 1) / a - (if frame = d.frame then 0 else d.linesTo frame)).toNat

/-- ABANDON (R218, R28): a flue die receives ABANDON for a link and a frame. -/
def execAbandon (link frame : Nat) (s : State) : Host.Outcome State Fault Refusal :=
  hearthEvent (fun d =>
    if link > 7 ∨ d.mode = 0 then d
    else
      let die := linkDie link
      let mates := match linkRegion d.mode link with
        | some r => regionLinks d.mode r
        | none => [link]
      let began := ((mates.map fun n => d.ras.black.getD n []).flatten).find? (·.1 = frame)
      let line := match began with
        | some e => e.2
        | none => d.blackLine frame
      let seen := (fromN (4 * (die - 8)) 4).any fun n => (d.ras.black.getD n []).any (·.1 = frame)
      let mine := (d.ras.black.getD link []).filter (·.1 ≠ frame)
      let ras := { d.ras with black := d.ras.black.set link (mine ++ [(frame, line)]) }
      let d := ({ d with ras := ras }).wr die (R.SCN_LINK_UNDERRUN (linkOn link)) 1
      if seen then d
      else (d.bump die R.SCN_UNDERRUN).wrLoHi die R.SCN_UR_FRAME_LO R.SCN_UR_FRAME_HI frame) s

/-! Status (R225, R226). -/

/-- The current line (SCN_LINE_NOW): lines begun since the frame start. -/
def Dev.lineNow (d : Dev) : Nat :=
  let (a, b) := d.lineT
  if d.mode = 0 then 0 else min (((d.media : Int) - d.ras.startAt).toNat * b / a) (d.active + d.ras.vnow - 1)

/-- T_line in U16.16 ns (SCN_LINE_TIME). -/
def Dev.lineTimeWord (d : Dev) : Nat := if d.mode = 0 then 0 else let (a, b) := d.lineT; (roundFree a b).toNat % 2 ^ 32

/-- The last genlock error in ns, saturating at 32 bits. -/
def Dev.errorNs (d : Dev) : Int := satS 32 (roundFree d.ras.err 65536)

/-- What the gate must know of RASTER_STATUS. -/
def specRasterStatus : OpSpec :=
  { op := 0x1504, len := (· = 0) }

/-- RASTER_STATUS (R225). -/
def execRasterStatus (h : Hdr) (p : Bytes) (s : State) : Host.Outcome State Fault Refusal :=
  anvil specRasterStatus h p (.rasterStatus h p)
    (fun _ d => d.flueRead h flueDies fun d =>
      let (_, b) := d.lineT
      (d, .done (((List.range 4).map fun r => enc 1 (d.fn (FnId.region r)).st.num).flatten ++ enc 1 d.ras.source
        ++ enc 1 (b2n d.ras.locked + 2 * b2n d.ras.fsValid + 4 * b2n d.epochValid) ++ zeros 2 ++ enc 8 d.frame
        ++ enc 4 d.lineNow ++ enc 4 d.lineTimeWord ++ enc 4 (roundFree d.leadTime (65536 * b)).toNat ++ enc 4 (twos 32 d.errorNs)
        ++ enc 8 (stampOf (d.bindTime d.nextBind)) ++ enc 4 (min (2 ^ 32 - 1) ((flueDies.map fun k => d.rd k R.SCN_UNDERRUN).sum))
        ++ enc 4 (d.rd 8 R.SCN_RESYNC)))) s

/-- What the gate must know of SIGNATURE_READ. -/
def specSignatureRead : OpSpec :=
  { op := 0x1505, len := (· = 12), check := fun _ _ p => failIf [
      (decide (u8 p 0 > 7) || u8 p 1 = 0 || decide (u8 p 1 > 64), 0), (!zero? p 2 2 || u16 p 4 ≠ 0, Rs.reserved)] }

/-- SIGNATURE_READ (R226). -/
def execSignatureRead (h : Hdr) (p : Bytes) (s : State) : Host.Outcome State Fault Refusal :=
  anvil specSignatureRead h p (.signatureRead h p)
    (fun _ d => d.flueRead h [linkDie (u8 p 0)] fun d =>
      let held := d.ras.sigs.getD (u8 p 0) []
      let oldest := match held with
        | [] => 0
        | g :: _ => g.frame
      let out := (held.filter fun g => decide (g.frame ≥ u64 p 4)).take (u8 p 1)
      (d, .done (enc 8 oldest ++ (out.map fun g => enc 6 g.frame ++ enc 2 g.flags ++ enc 4 g.crc).flatten))) s

end Sys2Proof.Machine
end

