-- ==== Sys2Proof/Machine/FilmCells.lean ====
section
/-! DEFINITION. Chasing's film cells (R234–R241, R244, R245, R247): the waveform table, the temperature band, a cell's
behaviour at a film frame and at the end of its pulse, and updates. -/

namespace Sys2Proof.Machine

/-! The waveform table (R237). -/

/-- A 2-bit code packed in a byte string. -/
def code2 (b : Bytes) (base i : Nat) : Nat := u8 b (base + i / 4) / 4 ^ (i % 4) % 4

/-- The drive code of (band, old, new, step). -/
def tblDrive (t : Bytes) (band old new step : Nat) : Nat := code2 t 0 (((band * 4 + old) * 4 + new) * 48 + step)
/-- L of (band, old, new). -/
def tblLen (t : Bytes) (band old new : Nat) : Nat := u8 t (1536 + band * 16 + old * 4 + new) % 64
/-- The park code of (direction, old, new, step). -/
def tblPark (t : Bytes) (dir old new k : Nat) : Nat := code2 t 1664 (((dir * 4 + old) * 4 + new) * 8 + k)
/-- Band threshold 1–7, Q8.8 °C. -/
def tblThr (t : Bytes) (i : Nat) : Int := signed 16 (le 2 t (1728 + 2 * (i - 1)))

/-- R237: an image keeps every rule and passes its CRC. -/
def tableOk (t : Bytes) : Bool :=
  t.length = 1748 && le 4 t 1744 = crc32c (t.take 1744) && zero? t 1742 2
    && ((List.range 6).all fun i => decide (tblThr t (i + 1) ≤ tblThr t (i + 2)))
    && ((List.range 128).all fun e =>
      let band := e / 16
      let old := e / 4 % 4
      let new := e % 4
      let l := u8 t (1536 + e)
      (if old = new ∧ old ≠ 0 then l = 24 else decide (1 ≤ l) && decide (l ≤ 48))
        && (fromN l (48 - l)).all fun s => tblDrive t band old new s = 0)

/-! Geometry (R228, R234). -/

/-- The cells across and down. -/
def Dev.cellsX (d : Dev) : Nat := d.width / 8
def Dev.cellsY (d : Dev) : Nat := d.active / 8

/-- The cell columns of a flue die (0, 1): first and one past the last. -/
def Dev.dieCols (d : Dev) (f : Nat) : Nat × Nat :=
  let x4 := bandStart d.width 4 / 8
  if f = 0 then (0, x4) else (x4, d.cellsX)

def cellKey (cx cy : Nat) : Nat := cy * 2048 + cx

/-- The cell of a key lies on a die. -/
def Dev.onDie (d : Dev) (f key : Nat) : Bool :=
  let (a, b) := d.dieCols f
  decide (a ≤ key % 2048) && decide (key % 2048 < b) && decide (key / 2048 < d.cellsY)

def Dev.filmDie (d : Dev) (f : Nat) : FilmDie := d.film.dies.getD f {}
def Dev.setFilmDie (d : Dev) (f : Nat) (x : FilmDie) : Dev := { d with film := { d.film with dies := d.film.dies.set f x } }

/-- A cell of a die. -/
def FilmDie.cell (x : FilmDie) (key : Nat) : Cell := amGet x.cells key x.base

/-- Every cell of a die changed alike. -/
def FilmDie.mapCells (x : FilmDie) (g : Cell → Cell) : FilmDie :=
  { x with base := g x.base, cells := x.cells.map fun e => (e.1, g e.2) }

/-- The number of a die's cells that satisfy a test. -/
def Dev.countCells (d : Dev) (f : Nat) (p : Cell → Bool) : Nat :=
  let x := d.filmDie f
  let listed := x.cells.filter fun e => d.onDie f e.1
  let (a, b) := d.dieCols f
  (listed.filter fun e => p e.2).length + (if p x.base then (b - a) * d.cellsY - listed.length else 0)

/-- R240: at rest: no waveform runs and no NEXT is set. -/
def Cell.atRest (c : Cell) : Bool := c.wave.isNone && c.next.isNone

/-- R239: the latest target. -/
def Cell.target (c : Cell) : Nat :=
  match c.next, c.wave with
  | some t, _ => t
  | none, some w => w.new
  | none, none => c.state

/-- R242–R246: every cell of both dies is at rest. -/
def Dev.filmAtRest (d : Dev) : Bool := [0, 1].all fun f => d.countCells f (fun c => !c.atRest) = 0

/-- A waveform runs somewhere. -/
def Dev.filmRuns (d : Dev) : Bool := [0, 1].any fun f => d.countCells f (·.wave.isSome) ≠ 0

/-! The band (R238). -/

/-- The number of thresholds at or below a temperature (in 2^-16 of 1/256 °C). -/
def bandAt (t : Bytes) (temp : Int) : Nat := ((fromN 1 7).filter fun i => decide (tblThr t i * 65536 ≤ temp)).length

/-- R238: the temperature of a die's film in 2^-16 of 1/256 °C; none where the reading is out of range. -/
def Dev.filmTemp (d : Dev) (f : Nat) : Option Int :=
  let die := 8 + f
  let ch := d.rdB die R.CHS_CFG_TEMP_CH
  if ch = 0xFF then some (signed 16 (d.rd die R.CHS_TEMP % 65536) * 65536)
  else if ch > 15 then none
  else
    let c := d.rd 8 (R.BLW_ADC_CODE_TRIMMED ch)
    if c = 0 ∨ c = 65535 then none
    else some (signed 16 (d.rdB die R.CHS_TEMP_CAL_OFFSET) * 65536 + (c * d.rdB die R.CHS_TEMP_CAL_GAIN : Nat))

/-- R238: the band taken at a film frame: hysteresis of 1 °C on falling temperature. It stays where no table gives thresholds. -/
def Dev.takeBand (d : Dev) (f : Nat) : Dev :=
  match d.filmTemp f with
  | none => (d.wr (8 + f) R.CHS_STATE_TEMP_FAULT 1).bump (8 + f) R.CHS_TEMP_OOR
  | some t =>
    if d.film.table = [] then d else
    let old := d.rd (8 + f) R.CHS_STATE_BAND
    let n := bandAt d.film.table t
    let held := min old (bandAt d.film.table (t + 256 * 65536))
    d.wr (8 + f) R.CHS_STATE_BAND (max n held)

/-! A cell at a film frame and at a pulse end (R239). -/

/-- R239: at a film frame a waiting target begins its waveform, or is cleared where the cell rests in it. -/
def Cell.begin (c : Cell) (band : Nat) : Cell :=
  match c.wave, c.next with
  | none, some t => if t = c.state then { c with next := none } else { c with wave := some ⟨t, 0, band⟩, next := none }
  | _, _ => c

/-- R239: at the end of a pulse a running waveform advances; at its end the cell rests in NEW. -/
def Cell.advance (tbl : Bytes) (c : Cell) : Cell :=
  match c.wave with
  | none => c
  | some w =>
    if w.step + 1 ≥ tblLen tbl w.band c.state w.new then
      { c with state := w.new, wave := none, next := if c.next = some w.new then none else c.next }
    else { c with wave := some { w with step := w.step + 1 } }

/-- R239, R245: the drive code of a cell: that of its waveform, of the balance at a step, or float. -/
def Cell.drive (tbl : Bytes) (balance : Option (Nat × Nat)) (c : Cell) : Nat :=
  match c.wave, balance with
  | some w, _ => tblDrive tbl w.band c.state w.new w.step
  | none, some (step, band) => if c.state = 0 then 3 else tblDrive tbl band c.state c.state step
  | none, none => 3

/-- R241: an update gives a cell target `t` from slot `k`: the cell, and whether a NEXT was replaced. -/
def Cell.update (c : Cell) (t k : Nat) : Cell × Bool :=
  match c.wave with
  | some w =>
    if w.new = t then ({ c with next := none, upd := some k }, false)
    else ({ c with next := some t, upd := some k }, c.next.isSome)
  | none => ({ c with next := if c.state = t then none else some t, upd := some k }, c.next.isSome)

/-- R241: the cells of an update slot as (key, target), in raster order. -/
def FilmSlot.cells (s : FilmSlot) : List (Nat × Nat) :=
  (List.range (s.w * s.h)).map fun i => (cellKey (s.x + i % s.w) (s.y + i / s.w), s.targets.getD i 0)

/-- R241: an update slot acts on a die. -/
def Dev.applySlot (d : Dev) (f k : Nat) (s : FilmSlot) : Dev :=
  let d := { d with film := { d.film with slots := amPut d.film.slots k { s with applied := s.applied ++ [f] } } }
  (s.cells.filter fun e => d.onDie f e.1).foldl (fun d e =>
    let x := d.filmDie f
    let (c, collapsed) := (x.cell e.1).update e.2 k
    let d := d.setFilmDie f { x with cells := amPut x.cells e.1 c }
    if collapsed then d.bump (8 + f) R.CHS_COLLAPSED else d) d

/-- R244: the reseat of a die begins: every cell runs the reseat waveform, with its committed target to follow. -/
def Dev.beginReseat (d : Dev) (f : Nat) : Dev :=
  let band := d.rd (8 + f) R.CHS_STATE_BAND
  let cell (t : Nat) : Cell := { state := 0, wave := some ⟨0, 0, band⟩, next := some t }
  let x := d.filmDie f
  let d := d.setFilmDie f { x with
    base := cell d.film.mapBase, cells := (d.film.map.filter fun e => d.onDie f e.1).map fun e => (e.1, cell e.2)
    reseat := tblLen d.film.table band 0 0 }
  d.bump (8 + f) R.CHS_WAVEFORMS (d.countCells f fun _ => true)

/-- A cell waits to begin a waveform. -/
def Cell.starts (c : Cell) : Bool := c.wave.isNone && (match c.next with | some t => t ≠ c.state | none => false)

/-- R239, R521: the waveforms that wait on a die begin; none does while a soft reset waits. -/
def Dev.beginWaves (d : Dev) (f : Nat) : Dev :=
  if (d.filmDie f).resetDue then d else
  let band := d.rd (8 + f) R.CHS_STATE_BAND
  let n := d.countCells f Cell.starts
  (d.setFilmDie f ((d.filmDie f).mapCells (·.begin band))).bump (8 + f) R.CHS_WAVEFORMS n

/-- The slots due on a die for a frame or an earlier one. -/
def FilmDie.dueBy (x : FilmDie) (frame : Nat) : List Nat := ((x.due.filter fun e => e.1 ≤ frame).map (·.2)).flatten

/-- R240: the target a cell is to have for a frame: that of the last update due, else its latest target. -/
def Dev.targetFor (d : Dev) (f key frame : Nat) : Nat :=
  let due := ((d.filmDie f).dueBy frame).filterMap fun k => (d.film.slots.find? (·.1 = k)).map (·.2)
  due.foldl (fun t s =>
    let cx := key % 2048
    let cy := key / 2048
    if s.x ≤ cx ∧ cx < s.x + s.w ∧ s.y ≤ cy ∧ cy < s.y + s.h then s.targets.getD ((cy - s.y) * s.w + cx - s.x) 0 else t)
    ((d.filmDie f).cell key).target

/-- R235: the drive code a FILM_ROW carries for a cell in the next film frame (number `k` of its frame, 0 of the next
frame): the cell after the pulse in progress, with what begins at that film frame, a reseat and the balance included. -/
def Dev.nextDrive (d : Dev) (f key k : Nat) : Nat :=
  let x := d.filmDie f
  if x.arm then tblDrive d.film.table (d.rd (8 + f) R.CHS_STATE_BAND) 0 0 0
  else
  let c := x.cell key
  let c := if x.pulse then c.advance d.film.table else c
  let band := d.rd (8 + f) R.CHS_STATE_BAND
  let c := if k = 1 then { c with next := let t := d.targetFor f key d.frame; if c.wave.isNone ∧ t = c.state then none else some t } else c
  let step := if d.film.balArm then some (0, band)
    else (d.film.balance.map fun n => (n + b2n x.pulse, x.balBand)).filter fun e => e.1 < 24
  (c.begin band).drive d.film.table step

end Sys2Proof.Machine
end

