-- ==== Sys2Proof/Machine/Film.lean ====
section
/-! DEFINITION. Emissive panel drive and the steering film (class 0x20, R228–R258): the opcodes, film frames, the film's
and the retained mode's transitions, and power loss. -/

namespace Sys2Proof.Machine

namespace Rsf
/-- R250. -/
abbrev filmBusy := 0x40
abbrev updateFull := 0x41
abbrev filmOff := 0x42
abbrev retained := 0x43
abbrev tableInvalid := 0x44
abbrev powerLow := 0x45
abbrev regionOff := 0x46
abbrev parked := 0x47
abbrev pulse := 0x48
abbrev curveInvalid := 0x49
end Rsf

def Dev.filmSt (d : Dev) : FnSt := (d.fn FnId.film).st
def Dev.retainSt (d : Dev) : FnSt := (d.fn FnId.retain).st

/-! Update slots (R241, R242, R255). -/

/-- R242: the counts REACHED and SUPERSEDED of an update, over its cells of the dies on which it has acted: those at rest
that still name its slot, and those that a later update took. -/
def Dev.slotCounts (d : Dev) (k : Nat) (s : FilmSlot) : Nat × Nat :=
  let cs := (s.cells.map fun e => (if d.onDie 0 e.1 then 0 else 1, e.1)).filter fun e => s.applied.contains e.1
  let us := cs.map fun e => (d.filmDie e.1).cell e.2
  ((us.filter fun c => c.upd = some k && c.atRest).length, (us.filter fun c => c.upd ≠ some k).length)

/-- R255: the completion event of an update; its slot is freed, and leaves every commit that carries it. -/
def Dev.slotEnd (d : Dev) (k : Nat) (s : FilmSlot) (st rs : Nat) : Dev :=
  let (r, u) := d.slotCounts k s
  let d := d.complete s.cmd st rs (enc 6 s.frame ++ enc 4 (d.rd 8 R.CHS_FFS) ++ enc 4 r ++ enc 4 u)
  let clear (c : Cell) : Cell := if c.upd = some k then { c with upd := none } else c
  let die (x : FilmDie) : FilmDie :=
    { x.mapCells clear with due := (x.due.map fun e => (e.1, e.2.filter (· ≠ k))).filter (·.2 ≠ []) }
  let commit (c : Commit) : Commit := { c with snap := { c.snap with film := c.snap.film.filter (· ≠ k) } }
  { d with
    film := { d.film with
      slots := d.film.slots.filter (·.1 ≠ k), dies := d.film.dies.map die
      carried := d.film.carried.map fun e => (e.1, e.2.filter (· ≠ k)) }
    ras := { d.ras with commits := d.ras.commits.map commit } }

/-- Every update slot in use completes. -/
def Dev.slotsEnd (d : Dev) (sel : Nat × FilmSlot → Bool) (st rs : Nat) : Dev :=
  (d.film.slots.filter sel).foldl (fun d e => d.slotEnd e.1 e.2 st rs) d

/-- R242: an update completes after a pulse, from film frame 1 of its frame on, when none of its cells both has UPD equal to
its slot and is not at rest. -/
def Dev.slotDone (d : Dev) (k : Nat) (s : FilmSlot) : Bool :=
  s.phase = 2 && (decide (s.frame < d.frame) || (s.frame = d.frame && decide (d.film.next ≥ 2)))
    && s.cells.all fun e =>
      let c := (d.filmDie (if d.onDie 0 e.1 then 0 else 1)).cell e.1
      !(c.upd = some k && !c.atRest)

/-- R255, R53 (step 15): the rectangle of a FILM_UPDATE lies within the raster's cells. -/
def Dev.rectOk (d : Dev) (p : Bytes) : Bool := decide (u16 p 8 + u16 p 12 ≤ d.cellsX) && decide (u16 p 10 + u16 p 14 ≤ d.cellsY)

/-- What the gate must know of FILM_UPDATE. -/
def specFilmUpdate : OpSpec :=
  { op := 0x2004, len := (· = 16), check := fun s _ p => failIf [
      (u16 p 12 = 0 || u16 p 14 = 0, 0),
      (s.dev.film.slots.any fun e => e.2.id = u16 p 0, 0),
      ((s.heap.buf (u16 p 2)).isNone, Rs.noBuffer),
      ((bufCheck s.heap (u16 p 2) (u32 p 4) (u16 p 14 * ceilDiv (u16 p 12) 4)).isSome, Rs.bufferRange)] }

/-- FILM_UPDATE (R255, R241). -/
def execFilmUpdate (h : Hdr) (p : Bytes) (s : State) : Host.Outcome State Fault Refusal :=
  let w := u16 p 12
  let hh := u16 p 14
  anvilR specFilmUpdate h p (.filmUpdate h p)
    (fun c hp d =>
      if ¬ d.rectOk p then (d, .bad St.badParam 0)
      else if d.filmSt ≠ .starting ∧ d.filmSt ≠ .on then (d, .bad St.badState Rsf.filmOff)
      else if d.retainSt ≠ .off then (d, .bad St.badState Rsf.retained)
      else match hp.buf (u16 p 2), (List.range 16).find? fun k => !(d.film.slots.any (·.1 = k)) with
        | none, _ => (d, .bad St.fault Rs.bufferLost)
        | _, none => (d, .bad St.noResource Rsf.updateFull)
        | some o, some k =>
          if o.lost then (d, .bad St.fault Rs.bufferLost)
          else
            let (_, d, r) := d.flueWrites h flueDies flueDies (fun k => (k, none)) fun d _ => d
            match r with
            | some r => d.acceptedFail c r
            | none =>
              let pitch := ceilDiv w 4
              let targets := (List.range (w * hh)).map fun i =>
                bits (cellGet o.cells (u32 p 4 + i / w * pitch + i % w / 4)).toNat (2 * (i % w % 4) + 1) (2 * (i % w % 4))
              let sl : FilmSlot := {
                cmd := c, id := u16 p 0, x := u16 p 8, y := u16 p 10, w := w, h := hh, targets := targets, skip := d.ras.capture.length }
              ({ d with film := { d.film with slots := amPut d.film.slots k sl } }, .accepted)) s

/-! Curves, table, configuration, status (R251–R253, R257). -/

/-- R232, R251: the points of a curve in a buffer. -/
def curvePoints (o : Obj) (off : Nat) : List Nat := (List.range 1025).map fun i => le 2 (o.read (off + 2 * i) 2) 0

/-- R250, R261: a curve is non-decreasing and its codes do not exceed a maximum. -/
def curveOk (m : Nat) (l : List Nat) : Bool := (List.zipWith (fun a b => decide (a ≤ b)) l (l.drop 1)).all id && decide (l.getLastD 0 ≤ m)

/-- The curves of the colours of a mask loaded from a buffer into the shadow curves from index `base` (R251, R285). -/
def Dev.loadCurves (d : Dev) (o : Obj) (base mask lmax off m bad : Nat) : Dev × Rep :=
  let cs := ([0, 1, 2].filter (bit mask)).mapIdx fun i c => (base + c, (⟨lmax, curvePoints o (off + 2050 * i)⟩ : Curve))
  if cs.any fun e => !curveOk m e.2.pts then (d, .bad St.badParam bad)
  else ({ d with curves := { d.curves with shadow := cs.foldl (fun l e => l.set e.1 (some e.2)) d.curves.shadow } }, .done)

/-- The number of colours of a mask. -/
def colourCount (m : Nat) : Nat := ([0, 1, 2].filter (bit m)).length

/-- What the gate must know of PANEL_CURVE_SET. -/
def specPanelCurveSet : OpSpec :=
  { op := 0x2000, len := (· = 16), check := fun s _ p => failIf [
      (u8 p 0 = 0 || decide (u8 p 0 > 7) || decide (u32 p 4 < 0x1000) || decide (u32 p 4 > 0xFFFFF), 0),
      (!zero? p 1 3 || !zero? p 10 2, Rs.reserved), ((s.heap.buf (u16 p 8)).isNone, Rs.noBuffer),
      ((bufCheck s.heap (u16 p 8) (u32 p 12) (2050 * colourCount (u8 p 0))).isSome, Rs.bufferRange)] }

/-- PANEL_CURVE_SET (R251). -/
def execPanelCurveSet (h : Hdr) (p : Bytes) (s : State) : Host.Outcome State Fault Refusal :=
  anvilR specPanelCurveSet h p (.panelCurveSet h p)
    (fun _ hp d =>
      match hp.buf (u16 p 8) with
      | none => (d, .bad St.fault Rs.bufferLost)
      | some o =>
        if o.lost then (d, .bad St.fault Rs.bufferLost) else d.loadCurves o 0 (u8 p 0) (u32 p 4) (u32 p 12) 4095 Rsf.curveInvalid) s

/-- What the gate must know of FILM_TABLE_SET. -/
def specFilmTableSet : OpSpec :=
  { op := 0x2001, len := (· = 12), check := fun s _ p => failIf [
      (decide (u8 p 0 > 3) || u32 p 8 = 0 || (u8 p 0 = 0 && u32 p 8 ≠ 1748), 0), (!zero? p 1 1, Rs.reserved),
      ((s.heap.buf (u16 p 2)).isNone, Rs.noBuffer), ((bufCheck s.heap (u16 p 2) (u32 p 4) (u32 p 8)).isSome, Rs.bufferRange)] }

/-- FILM_TABLE_SET (R252). -/
def execFilmTableSet (h : Hdr) (p : Bytes) (s : State) : Host.Outcome State Fault Refusal :=
  anvilR specFilmTableSet h p (.filmTableSet h p)
    (fun c hp d =>
      let free := d.filmSt = .off ∨ (d.filmSt = .on ∧ ¬ d.filmRuns ∧ d.film.slots = [])
      if ¬ free then (d, .bad St.badState Rsf.filmBusy)
      else if (match hp.buf (u16 p 2) with | some o => o.lost | none => true) then (d, .bad St.fault Rs.bufferLost)
      else if ¬ flueDies.all d.flueUp then d.acceptedFail c (.bad St.fault 0)
      else
        let l : TableLoad := ⟨c, u8 p 0, u16 p 2, u32 p 4, u32 p 8⟩
        ({ d with film := { d.film with load := d.film.load ++ [l] } }, .accepted)) s

/-- R252: the image a load reads; the reason where it fails. -/
def tableImage (l : TableLoad) (o : Option Obj) : Except Nat Bytes :=
  match o with
  | none => .error Rs.bufferLost
  | some o =>
    if o.lost then .error Rs.bufferLost
    else
      let raw := o.read l.offset l.bytes
      match (if l.format = 0 then some raw else inflate l.format raw) with
      | none => .error Rsf.tableInvalid
      | some t => if tableOk t then .ok t else .error Rsf.tableInvalid

/-- FILM_TABLE_LOAD_DONE (R252, R237, R503): the image is checked and written to both flue dies. -/
def execFilmTableLoadDone (s : State) : Host.Outcome State Fault Refusal :=
  hearthEvent (fun d =>
    match d.film.load with
    | [] => d
    | l :: rest =>
      if l.format ≠ 0 ∧ d.ing.running.isSome then d
      else
      let d := { d with film := { d.film with load := rest } }
      match tableImage l (s.heap.buf l.buffer) with
      | .error r => d.complete l.cmd St.fault r
      | .ok t =>
        let (_, d, r) := d.flueWrites l.cmd.h flueDies flueDies (fun k => (k, none)) fun d k => d.wr k R.CHS_STATE_TABLE_VALID 1
        match r with
        | some (.reply st rs _) => d.complete l.cmd st rs
        | _ => ({ d with film := { d.film with table := t } }).complete l.cmd St.done 0) s

/-- What the gate must know of FILM_CONFIG. -/
def specFilmConfig : OpSpec :=
  { op := 0x2002, len := (· = 8), check := fun _ _ p => failIf [
      (u16 p 0 = 0 || (decide (u8 p 3 > 15) && u8 p 3 ≠ 0xFF), 0), (decide (u8 p 2 > 1), Rs.reserved),
      (decide (u16 p 0 > 3500), Rsf.pulse)] }

/-- R250, R253, R53 (step 15): a pulse of so many µs ends 50 µs before the next film frame. -/
def Dev.pulseFits (d : Dev) (us : Nat) : Bool :=
  let (a, b) := d.lineT
  decide ((us + 50) * 1000 * 65536 * b ≤ lffOf d.rate d.active * a)

/-- FILM_CONFIG (R253). -/
def execFilmConfig (h : Hdr) (p : Bytes) (s : State) : Host.Outcome State Fault Refusal :=
  anvil specFilmConfig h p (.filmConfig h p)
    (fun _ d =>
      if ¬ d.pulseFits (u16 p 0) then (d, .bad St.badParam Rsf.pulse)
      else
      let ws := (flueDies.map fun k => [(k, [(R.CHS_PULSE, u16 p 0)]), (k, [(R.CHS_CFG_FILM_BLANK, u8 p 2), (R.CHS_CFG_TEMP_CH, u8 p 3)]),
        (k, [(R.CHS_TEMP_CAL_OFFSET, u16 p 4), (R.CHS_TEMP_CAL_GAIN, u16 p 6)])]).flatten
      let (_, d, r) := d.flueWrites h flueDies ws (fun w => (w.1, w.2.head?.map (·.1))) fun d w => w.2.foldl (fun d e => d.wrS w.1 e.1 e.2) d
      (d, r.getD .done)) s

/-- CHS_BUSY_CELLS of a die. -/
def Dev.busyCells (d : Dev) (f : Nat) : Nat := d.countCells f fun c => !c.atRest

/-- The bitmap of update slots in use. -/
def Dev.slotBits (d : Dev) : Nat := (d.film.slots.map fun e => 2 ^ e.1).sum

/-- What the gate must know of FILM_STATUS. -/
def specFilmStatus : OpSpec :=
  { op := 0x2005, len := (· = 0) }

/-- FILM_STATUS (R257): flags, band and park time are those of flue die 0. -/
def execFilmStatus (h : Hdr) (p : Bytes) (s : State) : Host.Outcome State Fault Refusal :=
  anvil specFilmStatus h p (.filmStatus h p)
    (fun _ d => d.flueRead h flueDies fun d => (d, .done (enc 1 d.filmSt.num ++ enc 1 d.retainSt.num
      ++ enc 1 (d.rd 8 R.CHS_STATE_MAP_VALID + 2 * d.rd 8 R.CHS_STATE_PARKED + 4 * d.rd 8 R.CHS_STATE_TABLE_VALID
        + 8 * d.rd 8 R.CHS_STATE_TEMP_FAULT)
      ++ enc 1 (d.rd 8 R.CHS_STATE_BAND) ++ enc 4 (d.rd 8 R.CHS_FFS) ++ enc 4 (d.busyCells 0 + d.busyCells 1) ++ enc 2 d.slotBits
      ++ zeros 2 ++ enc 4 (d.rd 8 R.CHS_PARK_T)))) s

/-! Starting and stopping (R243–R246). -/

/-- R243, R517: PFAIL_N is high and FILM_HV in range at a flue die. -/
def Dev.powerOk (d : Dev) (f : Nat) : Bool := d.pwr.pfailN.getD f true && !d.pwr.hvLow.getD f false && !d.pwr.hvHigh.getD f false

/-- R243, R244: the film's STARTING begins: a reseat where the state map is not valid; PARKED clears (R249). -/
def Dev.filmStart (d : Dev) : Dev :=
  let reseat := flueDies.any fun k => d.rd k R.CHS_STATE_MAP_VALID = 0
  let d := d.wrAll flueDies R.CHS_STATE_PARKED 0
  { d with film := { d.film with black := reseat, stopDark := false, balArm := false, balance := none, dies := d.film.dies.map fun x => { x with arm := false } } }

/-- R245: the film's STOPPING begins: staged updates are withdrawn, NEXT is cleared everywhere; emitters are black from the
next frame. -/
def Dev.filmStop (d : Dev) : Dev :=
  let cut (e : Nat × FilmSlot) : Bool :=
    decide (e.2.phase < 2) || ((List.range 2).any fun f => (d.filmDie f).due.any fun x => x.2.contains e.1)
      || e.2.cells.any fun c =>
        let x := (d.filmDie (if d.onDie 0 c.1 then 0 else 1)).cell c.1
        x.upd = some e.1 && x.next.isSome
  let gone := d.film.slots.filter cut
  let noNext (c : Cell) : Cell := { c with next := none }
  let d := { d with film := { d.film with dies := d.film.dies.map fun x => { x.mapCells noNext with due := [], arm := false }, stopDark := true, balArm := false, balance := none } }
  gone.foldl (fun d e => d.slotEnd e.1 e.2 St.badState Rs.aborted) d

/-- The FFS a film's completion event carries (R254). -/
def Dev.ffsData (d : Dev) : Bytes := enc 4 (d.rd 8 R.CHS_FFS)

/-- What the gate must know of FILM_ENABLE. -/
def specFilmEnable : OpSpec :=
  { op := 0x2003, len := (· = 4), check := fun _ _ p => failIf [(decide (u8 p 0 > 1), 0), (!zero? p 1 3, Rs.reserved)] }

/-- R243: what an enable of the film is missing, if anything. -/
def Dev.filmLacks (d : Dev) : Option Nat :=
  if d.film.table = [] then some Rsf.tableInvalid
  else if (d.fn (FnId.region 0)).st ≠ .on then some Rsf.regionOff
  else if ¬ [0, 1].all d.powerOk then some Rsf.powerLow
  else none

/-- The stored request that a film transition's end carries out: an enable only where it has what R243 requires. -/
def Dev.filmNext (d : Dev) (next : Option Cmd) : Dev :=
  match next with
  | none => d
  | some c =>
    if d.filmSt ≠ .starting then d.filmStop
    else match d.filmLacks with
      | none => d.filmStart
      | some rs => (d.setFn FnId.film { st := .off, stored := none, running := [] }).complete c St.badState rs

/-- FILM_ENABLE (R254, R243). -/
def execFilmEnable (h : Hdr) (p : Bytes) (s : State) : Host.Outcome State Fault Refusal :=
  anvil specFilmEnable h p (.filmEnable h p)
    (fun c d =>
      let on := decide (u8 p 0 = 1)
      match (if on then d.filmLacks else none) with
      | some rs => (d, .bad St.badState rs)
      | none =>
        let (d, rep, begins) := d.requestFlue h flueDies FnId.film on true c
        (if begins then (if on then d.filmStart else d.filmStop) else d, rep)) s

/-- What the gate must know of PANEL_RETAIN. -/
def specPanelRetain : OpSpec :=
  { op := 0x2006, len := (· = 4), check := fun _ _ p => failIf [(decide (u8 p 0 > 1), 0), (!zero? p 1 3, Rs.reserved)] }

/-- PANEL_RETAIN (R256, R246). -/
def execPanelRetain (h : Hdr) (p : Bytes) (s : State) : Host.Outcome State Fault Refusal :=
  anvil specPanelRetain h p (.panelRetain h p)
    (fun c d =>
      if d.filmSt ≠ .on then (d, .bad St.badState Rsf.filmOff)
      else
        let (d, rep, begins) := d.requestFlue h flueDies FnId.retain (u8 p 0 = 1) true c
        (if begins ∧ u8 p 0 = 0 then (regionLinks d.mode 0).foldl Dev.wakeLink d else d, rep)) s

/-- The film is OFF (R245, R247): emitters show their rays again, and the retained mode ends with it. -/
def Dev.filmDark (d : Dev) : Dev :=
  { d with film := { d.film with black := false, stopDark := false, balArm := false, balance := none } }.fnOff FnId.retain

/-! Film frames (R235, R238–R245). -/

/-- A flue die starts film frames: it has met no power failure, or power has returned and no park runs. -/
def Dev.filmGoes (d : Dev) (f : Nat) : Bool := (d.filmDie f).park.isNone && (d.filmDie f).dark ≠ 1

/-- What a film frame (number `k` of its frame) does on a die: a reseat (whose codes the rows of the film frame
before have carried), the updates due at film frame 1, the waveforms that begin, the pulse; and the temperature, whose band the rows sent
from now on are coded with, and the waveforms they begin latch (R238, log entry 179). -/
def Dev.filmFrame (d : Dev) (f k ffs : Nat) : Dev :=
  let d := d.wr (8 + f) R.CHS_FFS ffs
  if d.filmSt = .off then d.takeBand f
  else
    let seat := d.filmSt == .starting && d.rd (8 + f) R.CHS_STATE_MAP_VALID == 0 && (d.filmDie f).reseat == 0
    let arm := (d.filmDie f).arm
    let d := if seat && arm then d.beginReseat f else d
    let d := if k ≠ 1 then d
      else
        let due := (d.filmDie f).dueBy d.frame
        let d := d.setFilmDie f { d.filmDie f with due := (d.filmDie f).due.filter fun e => ¬ e.1 ≤ d.frame }
        due.foldl (fun d n => match d.film.slots.find? (·.1 = n) with
          | none => d
          | some e => d.applySlot f n e.2) d
    let d := d.beginWaves f
    let bal := if d.film.balance = some 0 then d.rd (8 + f) R.CHS_STATE_BAND else (d.filmDie f).balBand
    (d.setFilmDie f { d.filmDie f with arm := seat && !arm, pulse := true, balBand := bal }).takeBand f

/-- FILM_FRAME_START (R235, R238, R239, R241, R245): the next film frame of the frame begins on the flue dies. A balance
begins at the film frame after the one whose pulse ends the last waveform, so that its rows are sent before it. -/
def execFilmFrameStart (s : State) : Host.Outcome State Fault Refusal :=
  event (fun d =>
    let k := d.film.next
    if d.mode ≠ 1 ∨ k ≥ fpfOf d.rate ∨ ¬([0, 1].any d.filmGoes) then d
    else
      let ffs := d.film.count
      let d := { d with film := { d.film with count := (ffs + 1) % 2 ^ 32, next := k + 1 } }
      let d := if d.film.balArm then { d with film := { d.film with balArm := false, balance := some 0 } } else d
      let d := ([0, 1].filter d.filmGoes).foldl (fun d f => d.filmFrame f k ffs) d
      let ends : Bool := d.filmSt == .stopping && d.film.balance.isNone && [0, 1].all fun f =>
        d.countCells f (fun c => (c.advance d.film.table).wave.isSome) = 0
      if ends then { d with film := { d.film with balArm := true } } else d) s

/-- R239, R244: a pulse ends on a die. -/
def Dev.pulseEnd (d : Dev) (f : Nat) : Dev :=
  let x := d.filmDie f
  if ¬ x.pulse then d
  else
    let y := { x.mapCells (·.advance d.film.table) with pulse := false, reseat := x.reseat - 1 }
    let d := d.setFilmDie f y
    if x.reseat = 1 then (d.wr (8 + f) R.CHS_STATE_MAP_VALID 1).bump (8 + f) R.CHS_RESEATS else d

/-- R243: a disable of the panel region while the film is ON disables the film. -/
def Dev.filmWithRegion (d : Dev) : Dev :=
  if d.mode = 1 ∧ (d.fn (FnId.region 0)).st = .stopping ∧ d.filmSt = .on then
    (d.setFn FnId.film { st := .stopping, stored := none, running := [] }).filmStop
  else d

/-- R243, R245: the film's transition completes where it can. -/
def Dev.filmSettle (d : Dev) : Dev :=
  match d.filmSt with
  | .starting =>
    if flueDies.all (fun k => d.rd k R.CHS_STATE_MAP_VALID = 1) && d.filmAtRest then
      let d := { d with film := { d.film with black := false } }
      let (d, next) := d.fnDone FnId.film d.ffsData
      (d.filmNext next).filmWithRegion
    else d
  | .stopping =>
    match d.film.balance with
    | some n =>
      if n + 1 < 24 then { d with film := { d.film with balance := some (n + 1) } }
      else
        let (d, next) := d.fnDone FnId.film d.ffsData
        d.filmDark.filmNext next
    | none => d
  | _ => d

/-! Reset of a flue die (R516, R521). -/

/-- A register file without the registers selected. -/
def rfDrop (f : RegFile) (gone : Nat → Bool) : RegFile := f.filter fun e => !gone e.1

/-- The registers of a die, but for those of some blocks. -/
def ofDie (die : Nat) (keep : Nat → Bool) (a : Nat) : Bool := a / 2 ^ 28 = die && !keep (a % 2 ^ 28)

/-- R258: CHS_PARK_ registers. -/
def parkReg (off : Nat) : Bool :=
  [R.CHS_PARK_FRAME_LO, R.CHS_PARK_FRAME_HI, R.CHS_PARK_BACK, R.CHS_PARK_FWD, R.CHS_PARK_T].any fun f => f.off = off

/-- What any reset of a flue die (0, 1) clears besides registers: its functions, its data side, its film cells, its lamp segment, its
loops, its halt. -/
def Dev.flueClear (d : Dev) (f : Nat) : Dev :=
  let regions := if d.mode = 1 then [0] else [2 * f, 2 * f + 1]
  let d := regions.foldl (fun d r => d.fnOff (FnId.region r)) d
  let d := (fromN (4 * f) 4).foldl (fun d n => d.fnOff (FnId.link n)) d
  let d := ((d.fnOff (FnId.lamp f)).fnOff FnId.film).fnOff FnId.retain
  { d with
    flu := d.flu.set f {}
    film := { d.film with dies := d.film.dies.set f {}, black := false, stopDark := false, balArm := false, balance := none }
    lamp := { d.lamp with segs := d.lamp.segs.set f {} }
    blw := { d.blw with loops := d.blw.loops.mapIdx fun i x => if i / 24 = f then {} else x }
    lnk := { d.lnk with links := d.lnk.links.mapIdx fun i x => if i / 4 = f then {} else x }
    thm := { d.thm with fluHalt := d.thm.fluHalt.set f false }
    trm := { d.trm with lin := d.trm.lin.filter fun e => e.1 / 16 ≠ f }
    pwr := { d.pwr with ownReset := d.pwr.ownReset.set f true, twinStop := d.pwr.twinStop.set f false } }

/-- R521: the soft reset of a flue die: the cells float; the lane layer, the damper and CHS_PARK_ registers
stay. -/
def Dev.flueSoftReset (d : Dev) (f : Nat) : Dev :=
  let keep (off : Nat) : Bool := let b := off / 2 ^ 20; b = 0x30 || b = 0x70 || b = 0x34 || parkReg off
  let gone := ofDie (8 + f) keep
  let d := d.flueClear f
  let d := { d with regs := rfDrop d.regs gone, shadow := rfDrop d.shadow gone, bound := rfDrop d.bound gone }
  (fromN (4 * f) 4).foldl (fun d n => d.wr (linkDie n) (R.LNK_FL_STATE_PHASE (linkOn n)) 0) d

/-- R521: a soft reset is asked of a flue die: it waits for the running waveforms. -/
def Dev.flueResetAsk (d : Dev) (f : Nat) : Dev :=
  if d.countCells f (·.wave.isSome) = 0 then d.flueSoftReset f else d.setFilmDie f { d.filmDie f with resetDue := true }

/-- R521: the last waveform has finished: the soft reset that waited for it. -/
def Dev.flueResetDue (d : Dev) (f : Nat) : Dev :=
  if (d.filmDie f).resetDue && d.countCells f (·.wave.isSome) = 0 then d.flueSoftReset f else d

/-- FILM_PULSE_END (R239, R242–R245): the pulse of the film frame in progress ends. -/
def execFilmPulseEnd (s : State) : Host.Outcome State Fault Refusal :=
  event (fun d =>
    if ¬([0, 1].any fun f => (d.filmDie f).pulse) then d
    else
      let d := [0, 1].foldl Dev.flueResetDue ([0, 1].foldl Dev.pulseEnd d)
      let done := d.film.slots.filter fun e => d.slotDone e.1 e.2
      let d := done.foldl (fun d e => d.slotEnd e.1 e.2 St.done 0) d
      if [0, 1].any fun f => (d.filmDie f).park.isSome then d else d.filmSettle) s

/-! Power loss (R33, R247–R249, R517, R519). -/

def setB (l : List Bool) (f : Nat) (v : Bool) : List Bool := l.set f v

/-- R33: the refusal of a die ends once no park runs and power is in range. -/
def Dev.refusalCheck (d : Dev) (f : Nat) : Dev :=
  if (d.filmDie f).park.isNone && d.powerOk f then { d with pwr := { d.pwr with refuse := setB d.pwr.refuse f false } } else d

/-- R247, R519, R55: the film is OFF after a power failure, unless the other die still parks; a stored enable is then carried
out from OFF. -/
def Dev.parkedOff (d : Dev) (reason : Nat) : Dev :=
  if [0, 1].any fun f => (d.filmDie f).park.isSome then d
  else
    let x := d.fn FnId.film
    let again := if x.st = .stopping then x.stored else none
    let d := ((d.setFn FnId.film { x with stored := if x.st = .stopping then none else x.stored }).fnOff FnId.film reason d.ffsData).filmDark
    match again with
    | none => d
    | some c => (d.setFn FnId.film { st := .starting, running := [c] }).filmNext again

/-- R247, R519: a die drops what is bound and not started, clears NEXT and parks if there is anything to park. -/
def Dev.parkBegin (d : Dev) (f : Nat) : Dev :=
  let x := d.filmDie f
  let parks : Bool := d.filmSt != .off && (d.rd (8 + f) R.CHS_STATE_MAP_VALID == 1 || x.reseat != 0)
  let noNext (c : Cell) : Cell := { c with next := none }
  let y : FilmDie := { x.mapCells noNext with due := [], arm := false, dark := 1, parkAt := d.now 1, park := if parks then some 0 else x.park }
  let d := d.setFilmDie f y
  let d := { d with film := { d.film with balArm := false, balance := none } }
  if parks then d.wrLoHi (8 + f) R.CHS_PARK_FRAME_LO R.CHS_PARK_FRAME_HI d.frame
  else if d.filmSt = .off then d else d.parkedOff Rsf.powerLow

/-- POWER_FAIL (R247, R33): a flue die detects PFAIL_N low (cause bit 0) or FILM_HV below its threshold (bit 1). -/
def execPowerFail (f cause : Nat) (s : State) : Host.Outcome State Fault Refusal :=
  event (fun d =>
    if f > 1 ∨ cause % 4 = 0 then d
    else
      let first := d.pwr.pfailN.getD f true && !d.pwr.hvLow.getD f false
      let d := { d with pwr := { d.pwr with
          pfailN := if bit cause 0 then setB d.pwr.pfailN f false else d.pwr.pfailN
          hvLow := if bit cause 1 then setB d.pwr.hvLow f true else d.pwr.hvLow } }
      let d := d.wr (8 + f) R.PWR_PFAIL_STATUS_LATCHED 1
      if !first || d.thm.fluHalt.getD f false then d
      else
        let d := { d with pwr := { d.pwr with refuse := setB d.pwr.refuse f true } }
        let d := d.retPut f ⟨0x85, [cause % 4 * 2 ^ 56 + d.frame]⟩
        d.parkBegin f) s

/-- PFAIL (R30, R247): the hearth receives a flue die's power-fail message: updates left incomplete complete with PARKED. -/
def execPfail (f cause frame : Nat) (chk : MsgCheck) (s : State) : Host.Outcome State Fault Refusal :=
  event (fun d => d.received f ⟨0x85, [cause * 2 ^ 56 + frame]⟩ chk fun d => d.slotsEnd (fun _ => true) St.fault Rsf.parked) s

/-- R247: the direction a waving cell is parked in: back before its midpoint. -/
def parkBack (tbl : Bytes) (c : Cell) (w : Wave) : Bool := decide (w.step < (tblLen tbl w.band c.state w.new + 1) / 2)

/-- R229: a FILM_GO block. -/
def filmGoBlock (mode step us ffs : Nat) : Bool × Nat :=
  (true, 0x55 * 2 ^ 56 + mode * 2 ^ 48 + step * 2 ^ 44 + us % 4096 * 2 ^ 32 + ffs % 2 ^ 32)

/-- R229, R236: a FILM_ROW block of a link for a film frame, and its data blocks: `code` gives the drive code of the cell at a place of the
band. -/
def Dev.filmRowBlocks (d : Dev) (n row ffs : Nat) (code : Nat → Nat) : List (Bool × Nat) :=
  let w := bandWidth d.width n
  let nb := ceilDiv w 256
  (true, 0x4B * 2 ^ 56 + row * 2 ^ 32 + nb * 2 ^ 24 + ffs % 2 ^ 24)
    :: (List.range nb).map fun b => (false, ((List.range 32).map fun i =>
      if 32 * b + i < w / 8 then code (32 * b + i) * 2 ^ (62 - 2 * i) else 0).sum)

/-- The key that stands for the cells of a die that are not listed. -/
def restKey : Nat := 2 ^ 22

/-- R247: how each cell of a die is driven in a park: (key, direction, old, new). -/
def parkPlan (tbl : Bytes) (x : FilmDie) : List (Nat × Nat × Nat × Nat) :=
  ((restKey, x.base) :: x.cells).filterMap fun e =>
    e.2.wave.map fun w => (e.1, if parkBack tbl e.2 w then 0 else 1, e.2.state, w.new)

/-- R247: the code of a cell of a die in park step `k`: cells that rest are driven float. -/
def parkDrive (tbl : Bytes) (x : FilmDie) (plan : List (Nat × Nat × Nat × Nat)) (k key : Nat) : Nat :=
  let of (q : Nat) : Nat := match plan.find? (·.1 = q) with
    | some e => tblPark tbl e.2.1 e.2.2.1 e.2.2.2 k
    | none => 3
  if x.cells.any (·.1 = key) then of key else of restKey

/-- R247: the blocks of a park step on a link: FILM_ROW for every row of its band, in ascending order, then FILM_GO. -/
def Dev.parkBlocks (d : Dev) (n k ffs : Nat) (plan : List (Nat × Nat × Nat × Nat)) : List (Bool × Nat) :=
  let x := d.filmDie (n / 4)
  let rows := if bandWidth d.width n = 0 then [] else List.range d.cellsY
  (rows.map fun r => d.filmRowBlocks n r ffs fun j => parkDrive d.film.table x plan k (cellKey (bandStart d.width n / 8 + j) r)).flatten
    ++ [filmGoBlock 1 k 800 ffs]

/-- R247: a cell after its park. -/
def Cell.parkedAt (tbl : Bytes) (c : Cell) : Cell :=
  match c.wave with
  | none => c
  | some w => { c with state := if parkBack tbl c w then c.state else w.new, wave := none, next := none }

/-- R247: the last park step of a die is over: every cell rests; the film is OFF, PARKED. -/
def Dev.parkEnd (d : Dev) (f : Nat) : Dev :=
  let die := 8 + f
  let tbl := d.film.table
  let back (b : Bool) (c : Cell) : Bool := match c.wave with | some w => parkBack tbl c w == b | none => false
  let x := d.filmDie f
  let us := ((d.now 1 : Int) - x.parkAt) / (1000 * 2 ^ 32) + 800
  let d := (d.wr die R.CHS_PARK_BACK (d.countCells f (back true))).wr die R.CHS_PARK_FWD (d.countCells f (back false))
  let d := ((d.bump die R.CHS_PARKS).wr die R.CHS_PARK_T us.toNat).wr die R.CHS_STATE_PARKED 1
  let d := d.wr die R.CHS_STATE_MAP_VALID 1
  let d := d.setFilmDie f { x.mapCells (·.parkedAt tbl) with park := none, parkSet := [], reseat := 0 }
  let d := { d with film := { d.film with fromPark := true } }
  (d.refusalCheck f).parkedOff Rsf.parked

/-- PARK_STEP (R247): the next park step of a die, once no pulse is in progress. -/
def execParkStep (f : Nat) (s : State) : Host.Outcome State Fault Refusal :=
  event (fun d =>
    let x := d.filmDie f
    match x.park with
    | none => d
    | some k =>
      if x.pulse then d
      else
        let plan := if k = 0 then parkPlan d.film.table x else x.parkSet
        let ffs := (d.rd (8 + f) R.CHS_FFS + 1) % 2 ^ 32
        let d : Dev := d.wr (8 + f) R.CHS_FFS ffs
        let d : Dev := ((fromN (4 * f) 4).filter d.linkActive).foldl (fun d n => d.send (.park n (d.parkBlocks n k ffs plan))) d
        let ahead : Nat := (ffs + 1 + 2 ^ 32 - d.film.count) % 2 ^ 32
        let d : Dev := if ahead < 2 ^ 31 then { d with film := { d.film with count := (ffs + 1) % 2 ^ 32 } } else d
        let d := d.setFilmDie f { d.filmDie f with park := some (k + 1), parkSet := plan }
        if k + 1 < 8 then d else d.parkEnd f) s

/-- POWER_RETURN (R249): PFAIL_N is high and FILM_HV in range again at a flue die. -/
def execPowerReturn (f : Nat) (s : State) : Host.Outcome State Fault Refusal :=
  event (fun d =>
    if f > 1 then d
    else
      let d := { d with pwr := { d.pwr with
          pfailN := setB d.pwr.pfailN f true, hvLow := setB d.pwr.hvLow f false, hvHigh := setB d.pwr.hvHigh f false } }
      let x := d.filmDie f
      (d.setFilmDie f { x with dark := if x.dark = 1 then 2 else x.dark }).refusalCheck f) s

end Sys2Proof.Machine
end

