-- ==== Sys2Proof/Machine/Lamp.lean ====
section
/-! DEFINITION. The lamp bus (class 0x22, R272–R282, R287–R294): frames, the transaction scheduler, what a reply does,
enumeration, setpoints and the latch, and the opcodes. -/

namespace Sys2Proof.Machine

namespace Rsl
/-- R287. -/
abbrev lampOn := 0x40
abbrev notEnumerated := 0x41
abbrev noNode := 0x42
abbrev stillHot := 0x43
abbrev nodeRefused := 0x44
abbrev noReply := 0x45
abbrev tableInvalid := 0x46
end Rsl

def Dev.seg (d : Dev) (k : Nat) : Segment := d.lamp.segs.getD k {}
def Dev.setSeg (d : Dev) (k : Nat) (x : Segment) : Dev := { d with lamp := { d.lamp with segs := d.lamp.segs.set k x } }
def Dev.segSt (d : Dev) (k : Nat) : FnSt := (d.fn (FnId.lamp k)).st

/-! Frames (R272, R273). -/

/-- R272: a frame of the master: preamble, delimiter, header byte, payload, CRC-8. -/
def lampFrame (ty addr : Nat) (payload : Bytes) : Bytes :=
  let body := enc 1 (ty * 32 + addr % 32) ++ payload
  [0xAA, 0xAB] ++ body ++ enc 1 (crc8 body)

/-- R273: the frame of a transaction: WRITE or READ. -/
def Tx.frame (t : Tx) : Bytes :=
  if t.write then lampFrame 1 t.addr (enc 1 t.reg ++ enc 2 t.value) else lampFrame 2 t.addr (enc 1 t.reg)

/-- R273: a STRIKE frame. -/
def strikeFrame (colour plane : Nat) (latch light1 light0 : Bool) : Bytes :=
  lampFrame 0 0 (enc 1 (colour * 64 + plane * 8 + 4 * b2n latch + 2 * b2n light1 + b2n light0))

/-! Nodes and channels (R276–R278). -/

def Dev.nodePresent (d : Dev) (k a : Nat) : Bool := bit (d.rd (8 + k) R.LMP_PRESENT) a
def Dev.nodeLost (d : Dev) (k a : Nat) : Bool := bit (d.rd (8 + k) R.LMP_LOST) a

/-- A node marked present and not LOST, or LOST and not present, or neither. -/
def Dev.markNode (d : Dev) (k a : Nat) (present lost : Bool) : Dev :=
  let w (v : Nat) (b : Bool) : Nat := (setBits (BitVec.ofNat 32 v) a a (b2n b)).toNat
  (d.wr (8 + k) R.LMP_PRESENT (w (d.rd (8 + k) R.LMP_PRESENT) present)).wr (8 + k) R.LMP_LOST (w (d.rd (8 + k) R.LMP_LOST) lost)

def Dev.chEnabled (d : Dev) (k n : Nat) : Bool := d.rd (8 + k) (R.LMP_CH_ENABLE n) = 1

/-- Enabled channels of a segment whose node is present. -/
def Dev.liveChannels (d : Dev) (k : Nat) : List Nat := (List.range 128).filter fun n => d.chEnabled k n && d.nodePresent k (n / 4)

/-- The addresses of the nodes present. -/
def Dev.presentNodes (d : Dev) (k : Nat) : List Nat := (List.range 32).filter (d.nodePresent k)

/-- The enable bits of CONTROL of a node: those of its enabled channels while the segment is not OFF or STOPPING. -/
def Dev.controlBits (d : Dev) (k a : Nat) : Nat :=
  ((List.range 4).map fun c => if d.chEnabled k (4 * a + c) then 2 ^ c else 0).sum

/-- Transactions join those that wait. -/
def Dev.lampQueue (d : Dev) (k : Nat) (txs : List Tx) : Dev := let x := d.seg k; d.setSeg k { x with queue := x.queue ++ txs }

def tx (addr reg : Nat) (write : Bool) (value : Nat) (why : TxFor) : Tx :=
  { addr := addr, reg := reg, write := write, value := value, why := why }

/-! Setpoints (R279). -/

/-- R279: the setpoint of a brightness through a curve; `temp` is the table, its T0 and TSTEP, and the channel's
temperature where the channel is compensated. -/
def setpointOf (curve : List Nat) (b : Nat) (temp : Option (List Nat × Int × Nat × Int)) : Nat :=
  let p := b / 64
  let f := b % 64
  let at_ (i : Nat) : Int := curve.getD i 0
  let i : Int := if p < 1023 then at_ p + roundDiv ((at_ (p + 1) - at_ p) * f) 64 else at_ 1023
  let g : Int := match temp with
    | none => 16384
    | some (tab, t0, tstep, t) =>
      let x := (clampI 0 16128 ((t - t0) * 256 / tstep)).toNat
      let q := x / 256
      let r := x % 256
      if q < 63 then roundDiv ((tab.getD q 0 : Int) * (256 - r) + (tab.getD (q + 1) 0 : Int) * r) 256 else tab.getD 63 0
  (min 65535 (roundDiv (i * g) 16384)).toNat

/-- The curve of a channel: as at reset, round(65,535 × p / 1,023), unless one is loaded. -/
def Segment.curve (x : Segment) (n : Nat) : List Nat :=
  amGet x.curves n ((List.range 1024).map fun p => (2 * 65535 * p + 1023) / 2046)

/-- The temperature table of a colour: as at reset, 0x4000 throughout, unless one is loaded. -/
def Segment.table (x : Segment) (c : Nat) : List Nat := amGet x.tables c (List.replicate 64 0x4000)

/-- R279: a channel's brightness and setpoint. A channel of no colour has no temperature table and is not compensated. -/
def Dev.setpoint (d : Dev) (k n : Nat) : Nat :=
  let die := 8 + k
  let src := d.rd die (R.LMP_CH_SOURCE n)
  let b := if src < 8 then d.rd die (R.BLW_GROUP_OUT src) else d.rd die (R.LMP_HOST_B n)
  let c := d.rd die (R.LMP_CH_COLOUR n)
  let temp := if d.rd die (R.LMP_CH_TCOMP n) = 1 ∧ c < 3 then
      some ((d.seg k).table c, signed 16 (d.rd die (R.LMP_TC_T0 c)), d.rd die (R.LMP_TC_TSTEP c), signed 16 (d.rd die (R.LMP_CH_TEMP n)))
    else none
  setpointOf ((d.seg k).curve n) b temp

/-! Configuration (R268, R276, R288). -/

/-- CFG of a channel (R278). -/
def Dev.cfgWord (d : Dev) (k n : Nat) : Nat := d.rd (8 + k) (R.LMP_CH_COLOUR n) + 4 * d.rd (8 + k) (R.LMP_CH_ARRAY n)

/-- The registers and values that configure a node: BLANK, LIT, and CFG and SETPOINT of each enabled channel. -/
def Dev.nodeConfig (d : Dev) (k a : Nat) : List (Nat × Nat) :=
  let chs := (List.range 4).filter fun c => d.chEnabled k (4 * a + c)
  [(0x06, d.rd (8 + k) R.QNC_BLANK), (0x07, d.rd (8 + k) R.QNC_LIT)]
    ++ (chs.map fun c => [(0x08 + c, d.cfgWord k (4 * a + c)), (0x10 + c, d.setpoint k (4 * a + c))]).flatten

/-- The writes of a node's configuration. -/
def Dev.configWrites (d : Dev) (k a : Nat) (start : Bool) : List Tx :=
  (d.nodeConfig k a).map fun e => tx a e.1 true e.2 (.config start)

/-- R268: LIT is recomputed at an enable. Where the timing in effect has no slots (in panel mode, or before a projector region has been ON) the
spec gives the slot length no value, and LIT is a free value (log entry 181). -/
def Dev.litCompute (d : Dev) (k : Nat) : Dev :=
  if d.slotGrid then d.wr (8 + k) R.QNC_LIT (d.litNs (8 + k) d.rate d.active d.vblank d.slotLines).toNat
  else let (v, d) := d.freeVal 16; d.wr (8 + k) R.QNC_LIT v

/-- R268: at the enable of a projector region LIT is written again to the nodes of a segment that is ON. -/
def Dev.litRefresh (d : Dev) (k : Nat) : Dev :=
  let d := d.litCompute k
  if d.segSt k = .on then
    d.lampQueue k (((d.presentNodes k).filter fun a => d.controlBits k a ≠ 0).map fun a =>
      tx a 0x07 true (d.rd (8 + k) R.QNC_LIT) (.config false))
  else d

/-- R288: a segment's STARTING begins: its nodes are configured and read back. -/
def Dev.lampStart (d : Dev) (k : Nat) : Dev :=
  let d := d.litCompute k
  let nodes := (d.presentNodes k).filter fun a => d.controlBits k a ≠ 0
  let txs := (nodes.map fun a => d.configWrites k a true
    ++ (d.nodeConfig k a).map fun e => tx a e.1 false e.2 (.config true)).flatten
  let x := d.seg k
  d.setSeg k { x with queue := x.queue ++ txs, stage := if txs = [] then 2 else 1, failed := none }

/-- R288: a segment's STOPPING begins: the CONTROL enables are cleared. -/
def Dev.lampStop (d : Dev) (k : Nat) : Dev :=
  let nodes := (d.presentNodes k).filter fun a => d.controlBits k a ≠ 0
  let x := d.seg k
  d.setSeg k { x with
    queue := x.queue ++ nodes.map fun a => tx a 0x05 true 0 (.enable false)
    stage := 0, stopAt := d.frame }

/-- R288, R287: what an enable of a segment lacks: enumeration, or the node of an enabled channel. -/
def Dev.lampLacks (d : Dev) (k : Nat) : Option Nat :=
  if d.rd (8 + k) R.LMP_STATE_ENUM_DONE = 0 then some Rsl.notEnumerated
  else if (List.range 128).any fun n => d.chEnabled k n && !d.nodePresent k (n / 4) then some Rsl.noNode
  else none

/-- The stored request that a segment's transition end carries out: an enable only where it lacks nothing. -/
def Dev.lampNext (d : Dev) (k : Nat) (next : Option Cmd) : Dev :=
  match next with
  | none => d
  | some c =>
    if d.segSt k ≠ .starting then d.lampStop k
    else match d.lampLacks k with
      | none => d.lampStart k
      | some rs => (d.setFn (FnId.lamp k) {}).complete c St.badState rs

/-! The scheduler (R275). -/

def TxFor.isHost : TxFor → Bool
  | .access _ | .clear _ _ | .clearOn _ _ => true
  | _ => false

def TxFor.isConfig : TxFor → Bool
  | .config _ | .enable _ => true
  | _ => false

def TxFor.isSetpoint : TxFor → Bool
  | .setpoint _ => true
  | _ => false

def TxFor.isTemp : TxFor → Bool
  | .temp _ => true
  | _ => false

/-- R275: the next of a rotation: the first at or after `k`, else the lowest. -/
def rotate (l : List Nat) (k : Nat) : Option Nat := l.find? (k ≤ ·) <|> l.head?

/-- The number a temperature poll rotates on from. -/
def TxFor.tempNext : TxFor → Nat
  | .temp n => n + 1
  | _ => 0

/-- The transaction a cycle makes: one that waits (true), or a new poll. -/
def Dev.lampPick (d : Dev) (k : Nat) : Option (Tx × Bool) :=
  let x := d.seg k
  let waits (p : TxFor → Bool) : Option (Tx × Bool) := (x.queue.find? fun t => p t.why).map fun t => (t, true)
  let nodes := d.presentNodes k
  let chs := d.liveChannels k
  let newStatus : Option (Tx × Bool) := (rotate nodes x.statRot).map fun a => (tx a 0x04 false 0 .status, false)
  let newTemp : Option (Tx × Bool) := (rotate chs x.tempRot).map fun n => (tx (n / 4) (0x20 + n % 4) false 0 (.temp n), false)
  let served := waits TxFor.isHost <|> waits TxFor.isConfig <|> waits TxFor.isSetpoint
  match x.cycle % 4 with
  | 0 => waits (· == .status) <|> newStatus <|> served
  | 1 => waits TxFor.isTemp <|> newTemp <|> served
  | _ => served <|> waits (· == .status) <|> waits TxFor.isTemp <|> newStatus <|> newTemp

/-- The segment after the cycle that makes a transaction, its frame sent. -/
def Dev.lampCycle (d : Dev) (k : Nat) (t : Tx) (waiting : Bool) : Dev :=
  let x := d.seg k
  let d := d.send (.lamp k t.frame)
  d.setSeg k { x with
    queue := if waiting then x.queue.erase t else x.queue
    cycle := (x.cycle + 1) % 4
    statRot := if !waiting && t.why == .status then t.addr + 1 else x.statRot
    tempRot := if !waiting && t.why.isTemp then t.why.tempNext else x.tempRot }

/-! What a reply does. -/

/-- R288: a start whose node failed goes no further; LAMP_TRANSITION_DONE ends it. -/
def Dev.startFails (d : Dev) (k rs : Nat) : Dev :=
  let x := d.seg k
  let keep (t : Tx) : Bool := !(t.why == .config true || t.why == .enable true)
  d.setSeg k { x with failed := some rs, stage := 0, queue := x.queue.filter keep }

/-- R288: a start's stage ends when none of its transactions is left. -/
def Dev.startAdvance (d : Dev) (k : Nat) : Dev :=
  let x := d.seg k
  if x.stage = 1 ∧ ¬ x.queue.any (·.why == .config true) then d.setSeg k { x with stage := 2 } else d

/-- R281: the over-temperature bits of a STATUS poll: a channel newly over temperature raises the lamp event source, issues
a descriptor and sets its bit in LMP_OT. -/
def Dev.statusPolled (d : Dev) (k a v : Nat) : Dev :=
  let x := d.seg k
  let was := match x.nodes.find? (·.addr = a) with | some n => n.ot | none => 0
  let mark (n : Node) : Node := if n.addr = a then { n with ot := v % 16 } else n
  let d := d.setSeg k { x with nodes := x.nodes.map mark }
  ((List.range 4).filter fun c => bit v c && !bit was c).foldl (fun d c =>
    let n := 4 * a + c
    let f := R.LMP_OT (n / 32)
    let d := d.wr (8 + k) f (d.rd (8 + k) f ||| 2 ^ (n % 32))
    (d.flueEvent k (lampSource k)).descriptor 1 (8 + k) 0x22 n Cause.thermalLimit 0 0) d

/-- R292: after CLEAR the channel is enabled. -/
def Dev.clearNext (d : Dev) (k : Nat) (c : Cmd) (n : Nat) : Dev :=
  let on := if d.segSt k = .off then 0 else d.controlBits k (n / 4)
  let t := tx (n / 4) 0x05 true (on ||| 2 ^ (n % 4)) (.clearOn c n)
  let x := d.seg k
  d.setSeg k { x with queue := t :: x.queue }

/-- What the REPLY to a transaction does (R275, R276, R281, R288, R292, R294). -/
def Dev.lampReply (d : Dev) (k : Nat) (t : Tx) (status value : Nat) : Dev :=
  let die := 8 + k
  let d := d.bump die R.LMP_TX
  match t.why with
  | .access c =>
    let data := enc 2 (if t.write then t.value else value) ++ enc 1 status
    if status = 0 then d.finalReply c St.done 0 data else d.finalReply c St.fault Rsl.nodeRefused data
  | .clear c n =>
    if status = 0 then d.clearNext k c n
    else d.finalReply c St.fault (if status = 4 then Rsl.stillHot else Rsl.nodeRefused) []
  | .clearOn c n =>
    if status = 0 then
      let x := d.seg k
      let mark (m : Node) : Node := if m.addr = n / 4 ∧ bit m.ot (n % 4) then { m with ot := m.ot - 2 ^ (n % 4) } else m
      (d.setSeg k { x with nodes := x.nodes.map mark }).finalReply c St.done 0 []
    else d.finalReply c St.fault Rsl.nodeRefused []
  | .config start =>
    let d := if status = 0 && t.write && decide (0x10 ≤ t.reg ∧ t.reg < 0x14) then
        d.wr die (R.LMP_CH_SET_WRITTEN (4 * t.addr + t.reg - 0x10)) t.value else d
    if start ∧ (status ≠ 0 ∨ (¬ t.write ∧ value ≠ t.value)) then d.startFails k Rsl.nodeRefused else d.startAdvance k
  | .enable start => if start ∧ status ≠ 0 then d.startFails k Rsl.nodeRefused else d
  | .setpoint n => if status = 0 then d.wr die (R.LMP_CH_SET_WRITTEN n) t.value else d
  | .status => if status = 0 then d.statusPolled k t.addr value else d
  | .temp n => if status = 0 then d.wr die (R.LMP_CH_TEMP n) value else d

/-- LAMP_TRANSACTION (R275): a scheduled cycle makes its transaction and takes the node's REPLY (status, value). -/
def execLampTransaction (seg status value : Nat) (s : State) : Host.Outcome State Fault Refusal :=
  event (fun d =>
    if seg > 1 then d
    else match d.lampPick seg with
      | none => d
      | some (t, w) => (d.lampCycle seg t w).lampReply seg t (status % 256) (value % 65536)) s

/-- R276: the outcome of a transaction whose node is LOST. -/
def Dev.txLost (d : Dev) (k : Nat) (t : Tx) : Dev :=
  match t.why with
  | .access c => d.finalReply c St.fault Rsl.noReply []
  | .clear c _ => d.finalReply c St.fault Rsl.noReply []
  | .clearOn c _ => d.finalReply c St.fault Rsl.noReply []
  | .config true => d.startFails k Rsl.noReply
  | .enable true => d.startFails k Rsl.noReply
  | _ => d

/-- R276: after three failures the node is LOST. -/
def Dev.loseNode (d : Dev) (k : Nat) (t : Tx) : Dev :=
  let a := t.addr
  let x := d.seg k
  let gone := t :: x.queue.filter (·.addr = a)
  let d := d.setSeg k { x with queue := x.queue.filter (·.addr ≠ a), back := x.back.filter (· ≠ a) }
  let d := ((d.markNode k a false true).flueEvent k (lampSource k)).descriptor 1 (8 + k) 0x22 a Cause.handshakeTimeout 0 0
  (gone.foldl (fun d t => d.txLost k t) d).startAdvance k

/-- LAMP_REPLY_TIMEOUT (R276): no carrier within 2.5 µs, or a reply with a bad CRC: the transaction is retried in a later
cycle, up to three attempts. -/
def execLampReplyTimeout (seg : Nat) (crc : Bool) (s : State) : Host.Outcome State Fault Refusal :=
  event (fun d =>
    if seg > 1 then d
    else match d.lampPick seg with
      | none => d
      | some (t, w) =>
        let d := (d.lampCycle seg t w).bump (8 + seg) (if crc then R.LMP_CRC else R.LMP_NOREPLY)
        if t.tries + 1 < 3 then d.lampQueue seg [{ t with tries := t.tries + 1 }] else d.loseNode seg t) s

/-- LOST_NODE_POLL (R276): the STATUS of a LOST node is read; one that answers is reconfigured, to be latched. -/
def execLostNodePoll (seg addr : Nat) (reply : BusReply) (s : State) : Host.Outcome State Fault Refusal :=
  event (fun d =>
    let x := d.seg seg
    if seg > 1 ∨ ¬ d.nodeLost seg addr ∨ x.back.contains addr then d
    else
      let d := d.send (.lamp seg (tx addr 0x04 false 0 .status).frame)
      match reply with
      | .silent => d.bump (8 + seg) R.LMP_NOREPLY
      | .badCrc => d.bump (8 + seg) R.LMP_CRC
      | .reply status value =>
        let d := d.bump (8 + seg) R.LMP_TX
        if status ≠ 0 then d
        else
          let d := d.statusPolled seg addr value
          let x := d.seg seg
          d.setSeg seg { x with queue := x.queue ++ d.configWrites seg addr false, back := x.back ++ [addr], writing := true }) s

/-! Enumeration (R277). -/

/-- What the search has found: IDs without an address, addresses given (ID), nodes beyond 32, frames sent. -/
structure Search where
  ids    : List Nat
  given  : List Nat := []
  extra  : Nat := 0
  frames : List Bytes := []

/-- R277: `search(prefix, 48 − left)`: a node answers when the top bits of its ID equal the prefix. -/
def lampSearch : Nat → Nat → Search → Search
  | 0, pre, x =>
    let x := { x with frames := x.frames ++ [lampFrame 3 0 (enc 1 48 ++ enc 6 pre)] }
    if ¬ x.ids.contains pre then x
    else if x.given.length < 32 then
      { x with
        ids := x.ids.filter (· ≠ pre), given := x.given ++ [pre]
        frames := x.frames ++ [lampFrame 4 x.given.length (enc 6 pre)] }
    else { x with extra := x.extra + 1 }
  | left + 1, pre, x =>
    let x := { x with frames := x.frames ++ [lampFrame 3 0 (enc 1 (47 - left) ++ enc 6 pre)] }
    if x.ids.any fun i => i / 2 ^ (left + 1) = pre then lampSearch left (2 * pre + 1) (lampSearch left (2 * pre) x) else x

/-- R293: the list of nodes: COUNT, EXTRA, 2 reserved bytes, and 12 bytes per node. -/
def Dev.nodeList (d : Dev) (k : Nat) : Bytes :=
  let x := d.seg k
  let shown := x.nodes.filter fun n => d.nodePresent k n.addr || d.nodeLost k n.addr
  enc 1 shown.length ++ enc 1 (d.rd (8 + k) R.LMP_EXTRA_NODES) ++ zeros 2 ++ (shown.map fun n =>
    enc 1 n.addr ++ enc 1 n.kind ++ enc 1 (n.ot % 16 + 16 * (n.chs - 1) + 64 * b2n (d.nodeLost k n.addr)) ++ zeros 1
      ++ enc 6 n.id ++ zeros 2).flatten

/-- LAMP_ENUMERATE (R277): the nodes on the bus (48-bit ID, KIND [7:0], CHANNELS) are searched and given addresses. Commands that still wait for
a transaction with a node complete as if it had not replied (log entry 182). -/
def execLampEnumerate (seg : Nat) (found : List (Nat × Nat × Nat)) (s : State) : Host.Outcome State Fault Refusal :=
  event (fun d =>
    let die := 8 + seg
    let x := d.seg seg
    if seg > 1 ∨ d.segSt seg ≠ .off ∨ (d.rd die R.LMP_STATE_ENUM_DONE = 1 ∧ x.enumCmd.isNone) then d
    else
      let r := lampSearch 48 0 { ids := found.map fun n => n.1 % 2 ^ 48 }
      let node (i : Nat) (id : Nat) : Node :=
        match found.find? fun n => n.1 % 2 ^ 48 = id with
        | some (_, kind, chs) => { addr := i, id := id, kind := kind % 256, chs := (max 1 (min 4 chs)) }
        | none => { addr := i, id := id, kind := 1, chs := 1 }
      let d := (x.queue.foldl (fun d t => d.txLost seg t) d : Dev)
      let d := (lampFrame 5 0 [] :: r.frames).foldl (fun d b => d.send (.lamp seg b)) d
      let d := d.setSeg seg { x with nodes := r.given.mapIdx node, queue := [], back := [], changed := [], enumCmd := none }
      let d := ((d.wr die R.LMP_PRESENT (2 ^ r.given.length - 1)).wr die R.LMP_LOST 0).wr die R.LMP_EXTRA_NODES (min 255 r.extra)
      let d := d.wr die R.LMP_STATE_ENUM_DONE 1
      match x.enumCmd with
      | some c => d.complete c St.done 0 (d.nodeList seg)
      | none => d) s

/-! Snapshot and latch (R280). -/

/-- R280: a frame start's snapshot: the setpoints that differ from APPLIED are written, in ascending channel order. -/
def Dev.lampSnapshot (d : Dev) (k : Nat) : Dev :=
  let x := d.seg k
  let chs := if d.segSt k = .on then d.liveChannels k else []
  let txs := (chs.filter fun n => d.setpoint k n ≠ d.rd (8 + k) (R.LMP_CH_SET_APPLIED n)).map fun n =>
    tx (n / 4) (0x10 + n % 4) true (d.setpoint k n) (.setpoint n)
  d.setSeg k { x with
    queue := (x.queue.filter fun t => !t.why.isSetpoint) ++ txs
    taken := x.taken ++ x.fresh, fresh := [], writing := true }

/-- R280: a segment has made the writes of its snapshot or start. -/
def Segment.idle (x : Segment) : Bool := !x.queue.any fun t => t.why.isSetpoint || t.why == .config false || t.why == .config true

/-- LAMP_WRITES_DONE (R280): both segments have finished their writes: the next frame start latches. -/
def execLampWritesDone (s : State) : Host.Outcome State Fault Refusal :=
  event (fun d =>
    if d.lamp.segs.all Segment.idle && d.lamp.segs.any fun x => x.writing || x.stage == 2 then
      { d with lamp := { d.lamp with latch := true } }
    else d) s

/-- R461, R463: what ageing takes from a latch of a segment: the highest APPLIED of each channel, and for a channel with a Bellows loop
its measurement over APPLIED (in units of 2^-16). -/
def Dev.ageLatch (d : Dev) (k : Nat) : Dev :=
  (d.liveChannels k).foldl (fun d n =>
    let c := 128 * k + n
    let a := d.rd (8 + k) (R.LMP_CH_SET_APPLIED n)
    let loop := d.age.loops.getD c 0xFF
    let d := { d with age := { d.age with applied := amPut d.age.applied c (max a (amGet d.age.applied c 0)) } }
    if loop > 47 ∨ a = 0 then d
    else
      let m := (d.rdI (8 + loop / 24) (R.BLW_L_MEAS (loop % 24))).toNat
      let (t, j) := (kvGet d.age.today (3, c)).getD (0, 0)
      { d with age := { d.age with today := kvPut d.age.today (3, c) (t + (roundFree (m * 65536 : Nat) a).toNat, j + 1) } }) d

/-- R280: what a latch at the start of a frame does to a segment. -/
def Dev.latchSeg (d : Dev) (k frame : Nat) : Dev :=
  let die := 8 + k
  let d := (List.range 128).foldl (fun d n => d.wr die (R.LMP_CH_SET_APPLIED n) (d.rd die (R.LMP_CH_SET_WRITTEN n))) d
  let d := ((d.ageLatch k).bump die R.LMP_LATCHES).wrLoHi die R.LMP_LATCH_FRAME_LO R.LMP_LATCH_FRAME_HI frame
  let x := d.seg k
  let d := x.back.foldl (fun d a => d.markNode k a true false) d
  let d := d.completeAll x.taken St.done 0 (enc 6 frame)
  let nodes := (d.presentNodes k).filter fun a => d.controlBits k a ≠ 0
  let enables := if x.stage = 2 then nodes.map fun a => tx a 0x05 true (d.controlBits k a) (.enable true)
    else if d.segSt k = .on then (x.changed ++ x.back).map fun a => tx a 0x05 true (d.controlBits k a) (.enable false)
    else []
  d.setSeg k { x with
    queue := x.queue ++ enables, taken := [], back := [], writing := false
    changed := if x.stage = 2 || d.segSt k == .on then [] else x.changed
    live := (List.range 128).filter (d.chEnabled k)
    stage := if x.stage = 2 then 3 else x.stage, latchAt := if x.stage = 2 then frame else x.latchAt }

/-- R280: what a frame start does on the lamp bus: a latch agreed before it, then the snapshots; in panel mode the latch is
a STRIKE alone, with colour 3 and no light. -/
def Dev.lampFrameStart (d : Dev) (frame : Nat) : Dev :=
  let latch := d.lamp.latch
  let d := if latch then (d.latchSeg 0 frame).latchSeg 1 frame else d
  let d := if latch && d.mode == 1 then [0, 1].foldl (fun d k => d.send (.lamp k (strikeFrame 3 0 true false false))) d else d
  let d := { d with lamp := { d.lamp with latch := false, latched := latch } }
  (d.lampSnapshot 0).lampSnapshot 1

/-- R282, R289: the reference of a colour on a flue die's latch line: of its segment's lowest enabled REF channel, the value that
the coming frame start will hold; an enable counts from the latch after it. -/
def Dev.currentRef (d : Dev) (k c : Nat) : Nat :=
  let die := 8 + k
  match (List.range 128).find? fun n =>
    (if d.lamp.latch then d.chEnabled k n else (d.seg k).live.contains n) && d.rd die (R.LMP_CH_REF n) = 1 && d.rd die (R.LMP_CH_COLOUR n) = c with
  | none => 0xFFFF
  | some n => if d.lamp.latch then d.rd die (R.LMP_CH_SET_WRITTEN n) else d.rd die (R.LMP_CH_SET_APPLIED n)

/-! Opcodes. -/

/-- What the gate must know of LAMP_ENABLE. -/
def specLampEnable : OpSpec :=
  { op := 0x2200, len := (· = 4), check := fun _ _ p => failIf [
      (decide (u8 p 0 > 1) || decide (u8 p 1 > 1), 0), (!zero? p 2 2, Rs.reserved)] }

/-- LAMP_ENABLE (R288). -/
def execLampEnable (h : Hdr) (p : Bytes) (s : State) : Host.Outcome State Fault Refusal :=
  anvil specLampEnable h p (.lampEnable h p)
    (fun c d =>
      let k := u8 p 0
      let on := decide (u8 p 1 = 1)
      match (if on && d.segSt k == .off then d.lampLacks k else none) with
      | some rs => (d, .bad St.badState rs)
      | none =>
        let (d, rep, begins) := d.requestFlue h [8 + k] (FnId.lamp k) on true c
        (if begins then (if on then d.lampStart k else d.lampStop k) else d, rep)) s

/-- LAMP_TRANSITION_DONE (R288): a segment's STARTING or STOPPING completes, or its start has failed on a node. -/
def execLampTransitionDone (seg : Nat) (s : State) : Host.Outcome State Fault Refusal :=
  event (fun d =>
    let x := d.seg seg
    let fin (d : Dev) (data : Bytes) : Dev :=
      let (d, next) := d.fnDone (FnId.lamp seg) data
      (d.setSeg seg { d.seg seg with stage := 0 }).lampNext seg next
    if seg > 1 then d
    else match d.segSt seg, x.failed with
      | .starting, some rs =>
        let (d, next) := (d.setSeg seg { x with failed := none, stage := 0 }).fnFailed (FnId.lamp seg) rs
        d.lampNext seg next
      | .starting, none => if x.stage = 3 ∧ ¬ x.queue.any (·.why == .enable true) then fin d (enc 6 x.latchAt) else d
      | .stopping, _ =>
        if x.queue.any (·.why == .enable false) ∨ (d.mode ≠ 0 ∧ d.frame ≤ x.stopAt) then d else fin d (enc 6 d.frame)
      | _, _ => d) s

/-- R289: a channel's ENABLE has been written (`was`: as it was before). While the segment is ON, or has begun its enables, the change is made at
the next latch; while it is being configured for its start, a channel that is now enabled is configured with the others. -/
def Dev.channelTurned (d : Dev) (k n : Nat) (was : Bool) : Dev :=
  let x := d.seg k
  let now := d.chEnabled k n
  let cfg (start : Bool) : List Tx := if was then [] else [tx (n / 4) (0x08 + n % 4) true (d.cfgWord k n) (.config start)]
  if was = now ∨ ¬ d.nodePresent k (n / 4) then d
  else if d.segSt k = .on ∨ (d.segSt k = .starting ∧ x.stage = 3) then
    d.setSeg k { x with queue := x.queue ++ cfg false, changed := x.changed ++ [n / 4], writing := true }
  else if d.segSt k = .starting ∧ x.stage ≠ 0 ∧ now then
    let set := tx (n / 4) (0x10 + n % 4) true (d.setpoint k n) (.config true)
    d.setSeg k { x with queue := x.queue ++ cfg true ++ [set], stage := 1 }
  else d

/-- What the gate must know of LAMP_CHANNEL_SET. -/
def specLampChannelSet : OpSpec :=
  { op := 0x2201, len := (· = 4), check := fun _ _ p => failIf [
      (decide (u8 p 0 > 1) || decide (u8 p 1 > 127) || (decide (u8 p 3 > 7) && u8 p 3 ≠ 0xFF), 0),
      (decide (u8 p 2 ≥ 64), Rs.reserved)] }

/-- LAMP_CHANNEL_SET (R289). -/
def execLampChannelSet (h : Hdr) (p : Bytes) (s : State) : Host.Outcome State Fault Refusal :=
  anvil specLampChannelSet h p (.lampChannelSet h p)
    (fun _ d =>
      let k := u8 p 0
      let n := u8 p 1
      let die := 8 + k
      let fl := u8 p 2
      let moves := d.rd die (R.LMP_CH_COLOUR n) ≠ bits fl 2 1 ∨ d.rd die (R.LMP_CH_ARRAY n) ≠ bits fl 3 3 ∨ d.rd die (R.LMP_CH_REF n) ≠ bits fl 4 4
      if d.segSt k ≠ .off ∧ moves then (d, .bad St.badState Rsl.lampOn)
      else
        let was := d.chEnabled k n
        let (_, d, r) := d.flueWrites h [die] [()] (fun _ => (die, some (R.LMP_CH_ENABLE n))) fun d _ =>
          (((((d.wr die (R.LMP_CH_ENABLE n) (bits fl 0 0)).wr die (R.LMP_CH_COLOUR n) (bits fl 2 1)).wr die (R.LMP_CH_ARRAY n) (bits fl 3 3)).wr
            die (R.LMP_CH_REF n) (bits fl 4 4)).wr die (R.LMP_CH_TCOMP n) (bits fl 5 5)).wr die (R.LMP_CH_SOURCE n) (u8 p 3)
        (d.channelTurned k n was, r.getD .done)) s

/-- R290: the bytes a LAMP_TABLE_SET reads. -/
def tableBytes (kind : Nat) : Nat := if kind = 0 then 2048 else 128

/-- What the gate must know of LAMP_TABLE_SET. -/
def specLampTableSet : OpSpec :=
  { op := 0x2202, len := (· = 16), check := fun s _ p => failIf [
      (decide (u8 p 0 > 1) || decide (u8 p 1 > 1) || (u8 p 1 = 0 && decide (u8 p 2 > 127)) || (u8 p 1 = 1 && decide (u8 p 2 > 2))
        || (u8 p 1 = 0 && !(u16 p 6 = 0 && u16 p 12 = 0)), 0),
      (u8 p 1 = 1 && (decide (u16 p 12 < 0x40) || decide (u16 p 12 > 0x800)), Rsl.tableInvalid),
      (!zero? p 3 1 || !zero? p 14 2, Rs.reserved), ((s.heap.buf (u16 p 4)).isNone, Rs.noBuffer),
      ((bufCheck s.heap (u16 p 4) (u32 p 8) (tableBytes (u8 p 1))).isSome, Rs.bufferRange)] }

/-- LAMP_TABLE_SET (R290). -/
def execLampTableSet (h : Hdr) (p : Bytes) (s : State) : Host.Outcome State Fault Refusal :=
  anvilR specLampTableSet h p (.lampTableSet h p)
    (fun _ hp d =>
      let k := u8 p 0
      let i := u8 p 2
      let die := 8 + k
      match hp.buf (u16 p 4) with
      | none => (d, .bad St.fault Rs.bufferLost)
      | some o =>
        let pts := (List.range (tableBytes (u8 p 1) / 2)).map fun j => le 2 (o.read (u32 p 8 + 2 * j) 2) 0
        if o.lost then (d, .bad St.fault Rs.bufferLost)
        else if u8 p 1 = 0 && !curveOk 65535 pts then (d, .bad St.badParam Rsl.tableInvalid)
        else
          let (_, d, r) := d.flueWrites h [die] (List.range (if u8 p 1 = 0 then 1 else 2))
            (fun j => (die, if j = 1 then some (R.LMP_TC_T0 i) else none)) fun d j =>
            let x := d.seg k
            if j = 1 then (d.wr die (R.LMP_TC_T0 i) (u16 p 6)).wr die (R.LMP_TC_TSTEP i) (u16 p 12)
            else if u8 p 1 = 0 then d.setSeg k { x with curves := amPut x.curves i pts }
            else d.setSeg k { x with tables := amPut x.tables i pts }
          (d, r.getD .done)) s

/-- What the gate must know of LAMP_SETPOINT. -/
def specLampSetpoint : OpSpec :=
  { op := 0x2203, len := fun n => n ≥ 4 && n % 4 = 0, fits := fun p => p.length = 4 + 4 * u8 p 1, check := fun _ _ p =>
      let es := List.range (u8 p 1)
      failIf [
        (decide (u8 p 0 > 1) || u8 p 1 = 0 || decide (u8 p 1 > 128) || es.any fun i => decide (u8 p (4 + 4 * i) > 127), 0),
        (!zero? p 2 2 || es.any fun i => !zero? p (5 + 4 * i) 1, Rs.reserved)] }

/-- LAMP_SETPOINT (R291): the values enter the next snapshot. -/
def execLampSetpoint (h : Hdr) (p : Bytes) (s : State) : Host.Outcome State Fault Refusal :=
  anvil specLampSetpoint h p (.lampSetpoint h p)
    (fun c d =>
      let k := u8 p 0
      let ws := (List.range (u8 p 1)).map fun i => (u8 p (4 + 4 * i), u16 p (6 + 4 * i))
      let (_, d, r) := d.flueWrites h [8 + k] ws (fun w => (8 + k, some (R.LMP_HOST_B w.1))) fun d w => d.wr (8 + k) (R.LMP_HOST_B w.1) w.2
      match r with
      | some r => d.acceptedFail c r
      | none => let x := d.seg k; (d.setSeg k { x with fresh := x.fresh ++ [c] }, .accepted)) s

/-- A lamp bus node can be accessed, or the reason why not (R287). -/
def Dev.nodeBad (d : Dev) (k a : Nat) : Option Nat :=
  if d.rd (8 + k) R.LMP_STATE_ENUM_DONE = 0 then some Rsl.notEnumerated else if d.nodePresent k a then none else some Rsl.noNode

/-- What the gate must know of LAMP_CLEAR. -/
def specLampClear : OpSpec :=
  { op := 0x2204, len := (· = 4), check := fun _ _ p => failIf [
      (decide (u8 p 0 > 1) || decide (u8 p 1 > 127), 0), (!zero? p 2 2, Rs.reserved)] }

/-- LAMP_CLEAR (R292). -/
def execLampClear (h : Hdr) (p : Bytes) (s : State) : Host.Outcome State Fault Refusal :=
  anvil specLampClear h p (.lampClear h p)
    (fun c d =>
      let k := u8 p 0
      let n := u8 p 1
      match d.nodeBad k (n / 4) with
      | some r => (d, .bad St.badState r)
      | none =>
        let (_, d, r) := d.flueWrites h [8 + k] [()] (fun _ => (8 + k, none)) fun d _ => d
        match r with
        | some r => (d, r)
        | none =>
          let on := if d.segSt k = .off then 0 else d.controlBits k (n / 4)
          (d.lampQueue k [tx (n / 4) 0x05 true (on ||| 2 ^ (4 + n % 4)) (.clear c n)], .later)) s

/-- What the gate must know of LAMP_NODES. -/
def specLampNodes : OpSpec :=
  { op := 0x2205, len := (· = 4), check := fun _ _ p => failIf [
      (decide (u8 p 0 > 1) || decide (u8 p 1 > 1), 0), (!zero? p 2 2, Rs.reserved)] }

/-- LAMP_NODES (R293). -/
def execLampNodes (h : Hdr) (p : Bytes) (s : State) : Host.Outcome State Fault Refusal :=
  anvil specLampNodes h p (.lampNodes h p)
    (fun c d =>
      let k := u8 p 0
      let done := d.rd (8 + k) R.LMP_STATE_ENUM_DONE = 1
      if u8 p 1 = 0 then
        (if done then d.flueRead h [8 + k] fun d => (d, .done (d.nodeList k)) else (d, .bad St.badState Rsl.notEnumerated))
      else if d.segSt k ≠ .off then (d, .bad St.badState Rsl.lampOn)
      else if ¬ done then (d, .bad St.badState Rsl.notEnumerated)
      else
        match d.flueWrites h [8 + k] [()] (fun _ => (8 + k, none)) fun d _ => d.wr (8 + k) R.LMP_STATE_ENUM_DONE 0 with
        | (_, d, some r) => d.acceptedFail c r
        | (_, d, none) => (d.setSeg k { d.seg k with enumCmd := some c }, .accepted)) s

/-- What the gate must know of LAMP_NODE_ACCESS. -/
def specLampNodeAccess : OpSpec :=
  { op := 0x2206, len := (· = 8), check := fun _ _ p => failIf [
      (decide (u8 p 0 > 1) || decide (u8 p 1 > 31) || decide (u8 p 3 > 1) || (u8 p 3 = 1 && decide (u8 p 2 < 0x80)), 0),
      (!zero? p 6 2, Rs.reserved)] }

/-- LAMP_NODE_ACCESS (R294). -/
def execLampNodeAccess (h : Hdr) (p : Bytes) (s : State) : Host.Outcome State Fault Refusal :=
  anvil specLampNodeAccess h p (.lampNodeAccess h p)
    (fun c d =>
      let k := u8 p 0
      match d.nodeBad k (u8 p 1) with
      | some r => (d, .bad St.badState r)
      | none =>
        let (_, d, r) := d.flueWrites h [8 + k] [()] (fun _ => (8 + k, none)) fun d _ => d
        match r with
        | some r => (d, r)
        | none => (d.lampQueue k [tx (u8 p 1) (u8 p 2) (u8 p 3 = 1) (u16 p 4) (.access c)], .later)) s

end Sys2Proof.Machine
end

