-- ==== Sys2Proof/Machine/Projector.lean ====
section
/-! DEFINITION. Projector engine: Quench, the plane store and the mirror links (class 0x21, R259–R271, R283–R286). -/

namespace Sys2Proof.Machine

namespace Rsq
/-- R283. -/
abbrev timing := 0x40
abbrev curveInvalid := 0x41
abbrev lampOn := 0x42
end Rsq

/-- R211, R286: a link's frame `frame` is abandoned from a line at or before `line`. -/
def Dev.blackAt (d : Dev) (link frame line : Nat) : Bool :=
  (d.ras.black.getD link []).any fun e => e.1 = frame && decide (e.2 ≤ line)

/-- A flue link is in half refresh (SCN_LINK.HALF). -/
def Dev.linkHalf (d : Dev) (n : Nat) : Bool := d.rd (linkDie n) (R.SCN_LINK_HALF (linkOn n)) = 1

/-! The plane store (R262, R263). -/

/-- R262: the buffer of a view of a local array, and its first byte. -/
def planeBuf (m view : Nat) : Nat := 2 * m + view % 2
def planeBase (buf : Nat) : Nat := buf * 0xC00000

/-- R262: the bytes of PIXEL_RUN data words, most significant first: 8 pixels of 3 bytes in 3 words. -/
def wordBytes (ws : List Nat) : Bytes := (ws.map (enc 8)).flatten

/-- The key of a plane store row. -/
def rowKey (buf row : Nat) : Nat := buf * 65536 + row

/-- The row record after a half of it (0 or 1) is written for a frame: (frame, halves + 4 where it is repeated). -/
def rowMark (e : Nat × Nat) (frame half : Nat) (rep : Bool) : Nat × Nat :=
  let old := if e.1 = frame then e.2 else 0
  (frame, old ||| 2 ^ half ||| 4 * b2n rep)

/-- R262, R263: half a row of a view of a local array written for a frame, or (no words) filled from the previous row. -/
def FlueData.planeWrite (x : FlueData) (m view row half frame : Nat) (words : Option (List Nat)) : FlueData :=
  let buf := planeBuf m view
  let at_ (r : Nat) : Nat := planeBase buf + r * 7680 + 3840 * half
  let bytes := match words with
    | some ws => (wordBytes ws).take 3840
    | none => if row = 0 then cellsRead x.store (at_ 0) 3840 else cellsRead x.store (at_ (row - 1)) 3840
  { x with
    store := cellsWrite x.store (at_ row) bytes
    rows := amMod x.rows (rowKey buf row) (0, 0) fun e => rowMark e frame half words.isNone }

/-- R262: a PIXEL_RUN for a mirror link (words: word 0 and data; none where it was discarded). -/
def Dev.planeRun (d : Dev) (link line first frame : Nat) (words : Option (List Nat)) : Dev :=
  let f := link / 4
  let m := link % 4 / 2
  let bad : Bool := match words with
    | some ws => ws.length != 480
    | none => false
  if link % 2 = 1 ∨ ¬(first = 0 ∨ first = 1280) ∨ line ≥ 51200 ∨ bad then d
  else { d with flu := d.flu.modify f fun x => x.planeWrite m (line / 1600) (line % 1600) (first / 1280) frame words }

/-- R263: a row of a view is whole and not repeated for a frame. -/
def FlueData.rowFresh (x : FlueData) (m view row frame : Nat) : Bool := amGet x.rows (rowKey (planeBuf m view) row) (0, 0) = (frame % 2 ^ 24, 3)

/-- R260: view, colour and plane of a slot. -/
def slotView (j : Nat) : Nat := j / 24
def slotColour (j : Nat) : Nat := j % 24 % 3
def slotPlane (j : Nat) : Nat := 7 - j % 24 / 3

/-- R265: the data blocks of a row of a load for half `half` of the columns. -/
def FlueData.rowBlocks (x : FlueData) (m j row half : Nat) : List (Bool × Nat) :=
  let base := planeBase (planeBuf m (slotView j)) + row * 7680 + slotColour j
  (List.range 20).map fun b => (false, ((List.range 64).map fun i =>
    b2n (bit (cellGet x.store (base + 3 * (1280 * half + 64 * b + i))).toNat (slotPlane j)) * 2 ^ (63 - i)).sum)

/-! Slots (R264–R271). -/

/-- R222, R270: the region is STOPPING and its last frame is over. -/
def Dev.stopOver (d : Dev) (a : Nat) : Bool := (d.fn (FnId.region a)).st = .stopping && d.ras.stopAt.getD a 0 ≠ d.frame

/-- R218, R22, R270, R327: slot `j` of the current frame is dark for an array: its lasers are at zero. -/
def Dev.slotDark (d : Dev) (a j : Nat) : Bool :=
  let st := (d.fn (FnId.region a)).st
  let shows : Bool := st == .on || (st == .stopping && !d.stopOver a)
  !shows || d.segSt (a / 2) != .on || d.blackAt (2 * a) d.frame (j * d.slotLines) || d.blackAt (2 * a + 1) d.frame (j * d.slotLines)
    || d.dmp.lost.getD (a / 2) false || d.ras.safeDark || [2 * a, 2 * a + 1].any fun n => !d.ras.live.getD n false || !d.linkActive n

/-- R271: an array sends half loads. -/
def Dev.arrayHalf (d : Dev) (a : Nat) : Bool := d.linkHalf (2 * a) || d.linkHalf (2 * a + 1)

/-- R264: a SLOT block. -/
def slotBlock (link j : Nat) (load dark rep half odd : Bool) (frame : Nat) : Bool × Nat :=
  (true, 0x78 * 2 ^ 56 + link * 2 ^ 52 + j * 2 ^ 42 + b2n load * 2 ^ 41 + b2n dark * 2 ^ 40 + b2n rep * 2 ^ 39 + b2n half * 2 ^ 38
    + b2n odd * 2 ^ 37 + frame % 2 ^ 24)

/-- R268: the longest load of R265 in ns: 32,001 blocks over four lanes of 66 bits at 28.125 Gb/s. -/
def loadNs : Nat := (8001 * 66 * 1000 + 28124) / 28125

/-- R263–R265, R270, R271, R219: what a slot start does for an array: its SLOT blocks, the load of the next slot's plane, which enters the
signatures of its links, the counts of what is sent. -/
def Dev.arraySlot (d : Dev) (a j : Nat) : Dev :=
  let f := a / 2
  let m := a % 2
  let die := 8 + f
  let x := d.flu.getD f {}
  let dark := d.slotDark a j
  let j1 := (j + 1) % 768
  let fr := if j = 767 then d.nextNumber else d.frame
  let half := d.arrayHalf a
  let odd := half && decide (fr % 2 = 1)
  let rows := (List.range 1600).filter fun r => !half || r % 2 = b2n odd
  let stale := rows.filter fun r => !x.rowFresh m (slotView j1) r fr
  let load := !d.stopOver a && (d.fn (FnId.region a)).st != .off && (!dark || stale = [])
  let rep := x.mirrorRep.getD m false
  let lines := [2 * a, 2 * a + 1].filter d.linkIsOn
  let d := lines.foldl (fun d n =>
    let data := if load then (rows.map fun r => x.rowBlocks m j1 r (n % 2)).flatten else []
    let d := (d.send (.line n (j * d.slotLines) (slotBlock n j load dark rep half odd d.frame :: data ++ [idleBlock]))).signBlocks n data
    if load && stale != [] then d.flagRepeat n else d) d
  let d := if dark then d.bump die R.QNC_DARK_SLOTS else d
  let d := if load && lines != [] then ((d.bump die (R.QNC_LOADS m)).bump die R.QNC_STALE_ROWS stale.length).hwm die R.QNC_LOAD_MAX loadNs else d
  { d with flu := d.flu.modify f fun x => { x with mirrorRep := x.mirrorRep.set m (load && stale != []) } }

/-- R274, R280: the STRIKE of a slot on a segment: while a projector region of the segment is ON, or with a latch. -/
def Dev.slotStrike (d : Dev) (k j : Nat) : Dev :=
  let on := [2 * k, 2 * k + 1].any fun a => (d.fn (FnId.region a)).st = .on || (d.fn (FnId.region a)).st = .stopping
  let latch := j = 0 && d.lamp.latched
  if on then d.send (.lamp k (strikeFrame (slotColour j) (slotPlane j) latch (!d.slotDark (2 * k + 1) j) (!d.slotDark (2 * k) j)))
  else if latch then d.send (.lamp k (strikeFrame 3 0 true false false)) else d

/-- SLOT_START (R259–R271, R274): the next slot of the frame begins on all four arrays. -/
def execSlotStart (s : State) : Host.Outcome State Fault Refusal :=
  event (fun d =>
    let j := d.lamp.slot
    if d.mode ≠ 2 ∨ j ≥ 768 then d
    else
      let d := (d.slotStrike 0 j).slotStrike 1 j
      let d := (List.range 4).foldl (fun d a => d.arraySlot a j) d
      let d := d.wrAll flueDies R.QNC_SLOT_NOW j
      { d with lamp := { d.lamp with slot := j + 1 } }) s

/-! Opcodes. -/

/-- R268, R283: the LIT a QUENCH_CONFIG would leave is too short at the committed rate. -/
def Dev.litBad (d : Dev) (blank guard_ : Nat) : Bool :=
  let (a, b) := d.lineT
  let slot : Int := ((d.slotLines * a + b * 65536 - 1) / (b * 65536) : Nat)
  d.slotGrid && decide (slot - blank - guard_ < 10000)

/-- What the gate must know of QUENCH_CONFIG. -/
def specQuenchConfig : OpSpec :=
  { op := 0x2100, len := (· = 8), check := fun _ _ p => failIf [
      (decide (u16 p 0 < 1000) || decide (u16 p 0 > 8000) || decide (u16 p 2 < 200) || decide (u16 p 2 > 2000), 0),
      (decide (u8 p 4 > 1) || !zero? p 5 3, Rs.reserved)] }

/-- QUENCH_CONFIG (R284, R268; the limit that depends on the rate is step 15 of R53). -/
def execQuenchConfig (h : Hdr) (p : Bytes) (s : State) : Host.Outcome State Fault Refusal :=
  anvil specQuenchConfig h p (.quenchConfig h p)
    (fun _ d =>
      if d.litBad (u16 p 0) (u16 p 2) then (d, .bad St.badParam Rsq.timing)
      else if d.segSt 0 ≠ .off ∨ d.segSt 1 ≠ .off then (d, .bad St.badState Rsq.lampOn)
      else
        let w (d : Dev) (e : Nat × Nat) : Dev := match e.2 with
          | 0 => d.wr e.1 R.QNC_BLANK (u16 p 0)
          | 1 => d.wr e.1 R.QNC_GUARD (u16 p 2)
          | _ => d.wrS e.1 R.QNC_CFG_DITHER (u8 p 4)
        let ws := (flueDies.map fun k => [(k, 0), (k, 1), (k, 2)]).flatten
        let (_, d, r) := d.flueWrites h flueDies ws (fun e => (e.1, some ([R.QNC_BLANK, R.QNC_GUARD].getD e.2 R.QNC_CFG_DITHER))) w
        (d, r.getD .done)) s

/-- What the gate must know of PROJ_CURVE_SET. -/
def specProjCurveSet : OpSpec :=
  { op := 0x2101, len := (· = 16), check := fun s _ p => failIf [
      (u8 p 0 = 0 || decide (u8 p 0 > 7) || decide (u32 p 4 < 0x1000) || decide (u32 p 4 > 0xFFFFF), 0),
      (!zero? p 1 3 || !zero? p 10 2, Rs.reserved), ((s.heap.buf (u16 p 8)).isNone, Rs.noBuffer),
      ((bufCheck s.heap (u16 p 8) (u32 p 12) (2050 * colourCount (u8 p 0))).isSome, Rs.bufferRange)] }

/-- PROJ_CURVE_SET (R285, R261). -/
def execProjCurveSet (h : Hdr) (p : Bytes) (s : State) : Host.Outcome State Fault Refusal :=
  anvilR specProjCurveSet h p (.projCurveSet h p)
    (fun _ hp d =>
      match hp.buf (u16 p 8) with
      | none => (d, .bad St.fault Rs.bufferLost)
      | some o =>
        if o.lost then (d, .bad St.fault Rs.bufferLost) else d.loadCurves o 3 (u8 p 0) (u32 p 4) (u32 p 12) 1023 Rsq.curveInvalid) s

/-- The current slot (QNC_SLOT_NOW). -/
def Dev.slotNow (d : Dev) : Nat := d.rd 8 R.QNC_SLOT_NOW

/-- What the gate must know of QUENCH_STATUS. -/
def specQuenchStatus : OpSpec :=
  { op := 0x2102, len := (· = 0) }

/-- QUENCH_STATUS (R286). -/
def execQuenchStatus (h : Hdr) (p : Bytes) (s : State) : Host.Outcome State Fault Refusal :=
  anvil specQuenchStatus h p (.quenchStatus h p)
    (fun _ d => d.flueRead h flueDies fun d => (d, .done ((List.range 4).map fun a =>
      let die := 8 + a / 2
      let ab := d.blackAt (2 * a) d.frame (2 ^ 32) || d.blackAt (2 * a + 1) d.frame (2 ^ 32)
      enc 1 (d.fn (FnId.region a)).st.num ++ enc 1 (b2n (d.arrayHalf a) + 2 * b2n ab + 4 * b2n (d.segSt (a / 2) == .on))
        ++ enc 2 d.slotNow ++ enc 4 (d.rd die (R.QNC_LOADS (a % 2))) ++ enc 4 (d.rd die R.QNC_DARK_SLOTS)
        ++ enc 4 (d.rd die R.QNC_STALE_ROWS)).flatten)) s

end Sys2Proof.Machine
end

