-- ==== Sys2Proof/Machine/Twin.lean ====
section
/-! DEFINITION. Twin mode (R527–R530): roles, heartbeats sent and received. -/

namespace Sys2Proof.Machine

/-- R528: 0 solo, 1 ACTIVE, 2 STANDBY, 3 FAILED. -/
def Dev.twinRole (d : Dev) : Nat := d.rd 0 R.PWR_TWIN_STATE_ROLE

/-- R529: a change of role raises the raster event source of flue die 0, writes an ash record of TYPE FAULT and is counted;
a FAILED device stops every region link. -/
def Dev.setRole (d : Dev) (r : Nat) : Dev :=
  if d.twinRole = r then d
  else
    let d := (((d.wr 0 R.PWR_TWIN_STATE_ROLE r).bump 0 R.PWR_TWIN_ROLES).raise (rasterSource 0)).ashPut 0x0001 2 (encLe 8 r)
    { d with pwr := { d.pwr with twinStop := if r = 3 then [true, true] else if r = 0 then [false, false] else d.pwr.twinStop } }

/-- R529: an ACTIVE device becomes FAILED. -/
def Dev.twinFail (d : Dev) : Dev := if d.twinRole = 1 then d.setRole 3 else d

/-- The partner is heard in a role. -/
def Dev.heardAs (d : Dev) (r : Nat) : Bool := d.rd 0 R.PWR_TWIN_STATE_HEARD = 1 && d.pwr.twinPeer / 65536 = r

/-- R527, R529: roles at a frame start. -/
def Dev.twinRoles (d : Dev) : Dev :=
  let on := d.rd 0 R.PWR_TWIN_CFG_ENABLE = 1 ∧ d.mode = 1
  if ¬ on then (if d.twinRole = 0 then d else (d.setRole 0).wr 0 R.PWR_TWIN_STATE_TRACKING 0)
  else if d.twinRole = 0 then
    let lower := d.rd 0 R.PWR_TWIN_STATE_HEARD = 1 && decide (d.anvil.stackId < d.pwr.twinPeer % 65536)
    d.setRole (if d.heardAs 1 then 2 else if d.rd 0 R.PWR_TWIN_CFG_PREFER = 1 || lower then 1 else 2)
  else if d.twinRole = 1 && d.heardAs 1 && decide (d.anvil.stackId < d.pwr.twinPeer % 65536) then d.setRole 2
  else d

/-- R528: the 64 bytes of a heartbeat. -/
def Dev.heartbeat (d : Dev) : Bytes :=
  let b := enc 4 0x54574E49 ++ enc 1 d.twinRole ++ enc 1 (d.rd 0 R.PWR_TWIN_STATE_TRACKING) ++ enc 2 d.anvil.stackId ++ enc 8 d.frame
    ++ enc 8 (d.ras.startAt % 2 ^ 64) ++ ((List.range 6).map fun n => enc 4 (d.rd (linkDie n) (R.SCN_SIG (linkOn n)))).flatten ++ zeros 12
  b ++ enc 4 (crc32c b)

/-- R527–R529: what a frame start does in twin mode. -/
def Dev.twinFrame (d : Dev) : Dev :=
  let d := d.twinRoles
  if d.twinRole = 0 then d else d.send (.udp 16 (d.nextHop 16 false (d.rd 0 R.PWR_TWIN_PARTNER)) (d.rd 0 R.PWR_TWIN_PARTNER) 7881 7881 d.heartbeat)

/-- R528, R529: a heartbeat arrives from an address, with its fields. A device that has no role yet hears its partner
too, and neither tracks nor compares. -/
def Dev.twinHeard (d : Dev) (src role stack frame start : Nat) (sigs : List Nat) : Dev :=
  if src ≠ d.rd 0 R.PWR_TWIN_PARTNER ∨ role = 0 ∨ role > 3 then d
  else
    let diff : Int := signed 64 ((start + 2 ^ 64 - d.ras.startAt % 2 ^ 64) % 2 ^ 64)
    let ok : Bool := frame = d.frame && decide (diff.natAbs ≤ 200 * 65536)
    let far : Bool := frame != d.frame || decide (diff.natAbs > 500 * 65536)
    let run := if ok then d.pwr.twinRun + 1 else 0
    let d := { d with pwr := { d.pwr with twinPeer := role * 65536 + stack % 65536, twinMiss := 0, twinRun := run } }
    let d := (d.wr 0 R.PWR_TWIN_STATE_HEARD 1).wr 0 R.PWR_TWIN_SKEW (twos 32 (satS 32 (roundFree diff 65536)))
    let d : Dev := if far then d.wr 0 R.PWR_TWIN_STATE_TRACKING 0 else if run ≥ 8 ∧ d.twinRole ≠ 0 then d.wr 0 R.PWR_TWIN_STATE_TRACKING 1 else d
    let own := (List.range 6).map fun n => d.rd (linkDie n) (R.SCN_SIG (linkOn n))
    let d : Dev := if d.twinRole ≠ 0 ∧ frame = d.frame ∧ sigs ≠ own then d.bump 0 R.PWR_TWIN_SIGMISMATCH else d
    if role = 3 ∧ d.twinRole = 2 then d.setRole 1 else d

/-- TWIN_HEARTBEAT_RX (R528, R529). -/
def execTwinHeartbeatRx (src role stack frame start : Nat) (sigs : List Nat) (s : State) : Host.Outcome State Fault Refusal :=
  hearthEvent (fun d => d.twinHeard src role stack frame start sigs) s

/-- TWIN_HEARTBEAT_MISSING (R528, R529): no heartbeat arrived for a frame. -/
def execTwinHeartbeatMissing (s : State) : Host.Outcome State Fault Refusal :=
  hearthEvent (fun d =>
    if d.twinRole = 0 ∧ d.rd 0 R.PWR_TWIN_STATE_HEARD = 0 then d
    else
      let n := d.pwr.twinMiss + 1
      let d := if d.twinRole = 0 then d else d.bump 0 R.PWR_TWIN_MISSED
      let d := { d with pwr := { d.pwr with twinMiss := n, twinRun := 0 } }
      if n < 3 then d
      else
        let d := (d.wr 0 R.PWR_TWIN_STATE_TRACKING 0).wr 0 R.PWR_TWIN_STATE_HEARD 0
        if d.twinRole = 2 then d.setRole 1 else d) s

end Sys2Proof.Machine
end

