-- ==== Sys2Proof/Machine/Frames.lean ====
section
/-! DEFINITION. The flue raster's frames and lines: RASTER_ENABLE, frame starts with the genlock controller, latch lines and
the lines of the panel's links (R205–R222, R228–R236, R334, R552). -/

namespace Sys2Proof.Machine

/-! RASTER_ENABLE (R222). -/

/-- R222: a region's stop is requested in a frame. -/
def Dev.stopAsked (d : Dev) (r frame : Nat) : Dev :=
  { d with ras := { d.ras with stopAt := d.ras.stopAt.set r frame, darkAt := d.ras.darkAt.set r none } }

/-- What the gate must know of RASTER_ENABLE. -/
def specRasterEnable : OpSpec :=
  { op := 0x1501, len := (· = 4), check := fun _ _ p => failIf [
      (decide (u8 p 0 > 3) || decide (u8 p 1 > 1), 0), (!zero? p 2 2, Rs.reserved)] }

/-- RASTER_ENABLE (R222, R55, R243, R268, R337). -/
def execRasterEnable (h : Hdr) (p : Bytes) (s : State) : Host.Outcome State Fault Refusal :=
  anvil specRasterEnable h p (.rasterEnable h p)
    (fun c d =>
      let r := u8 p 0
      let on := decide (u8 p 1 = 1)
      if d.mode = 1 ∧ r ≠ 0 then (d, .bad St.badParam 0)
      else if on ∧ ¬ d.regionExists r then (d, .bad St.badState 0)
      else match d.ras.rasters.getD r none with
      | none => (d, .bad St.badState Rsr.noRaster)
      | some x =>
        let dies := ((d.linksUsed x.width r).map linkDie).eraseDups
        if dies.any (fun k => d.rd 0 (R.DMP_HALF_ON (k - 8)) = 0) then (d, .bad St.badState Rsr.dieDown)
        else if on && !d.timingAgrees r x then (d, .bad St.badState Rsr.timingMismatch)
        else
          let (d, rep, begins) := d.requestFlue h dies (FnId.region r) on true c
          if ¬ begins then (d, rep)
          else if on then ((regionLinks d.mode r).foldl Dev.wakeLink d, rep)
          else
            ((d.stopAsked r d.frame).filmWithRegion, rep)) s

/-- R222: a STARTING region comes ON at the next frame start: its links that carry part of it are ON. -/
def Dev.regionReady (d : Dev) (r : Nat) : Bool :=
  (d.fn (FnId.region r)).st = .starting && match d.ras.rasters.getD r none with
    | some x => (d.linksUsed x.width r).all d.linkActive
    | none => false

/-! Latch lines (R206, R212, R282). -/

/-- R29: a sequence is held whole: every part from 0 to the one with LAST. -/
def partsWhole (l : List Part) : Bool :=
  match l.find? (·.last) with
  | none => false
  | some z => (List.range (z.num + 1)).all fun i => l.any fun p => p.num = i

/-- R212: a whole sequence of commit `id` for frame `g` is applied on a die at the latch line that announces frame `n`. -/
def Dev.applySequence (d : Dev) (f g id n : Nat) (parts : List Part) : Dev :=
  let vals := (parts.map (·.values)).flatten
  let d : Dev := { d with bound := vals.foldl (fun (b : RegFile) (e : Nat × Nat) => rfSet b e.1 (BitVec.ofNat 32 e.2)) d.bound }
  let slots : List Nat := ((d.film.carried.filter (·.1 = id)).map (·.2)).flatten
  let x := d.filmDie f
  let d := if slots = [] then d else d.setFilmDie f { x with due := x.due ++ [(n, slots)] }
  let d := (d.swapsDue f id).wrLoHi (8 + f) R.SCN_BIND_LO R.SCN_BIND_HI n
  let e := d.flueEnd f
  d.setFlueEnd f { e with applied := ((g, id) :: e.applied).take 1024 }

/-- R212: the flue part of commit `id` for frame `g` is dropped on a die, and counted unless a late part of it was. -/
def Dev.dropSequence (d : Dev) (f g id : Nat) : Dev :=
  let e := d.flueEnd f
  let d := (d.setFlueEnd f { e with late := ((g, id) :: e.late).take 1024 }).swapsDropped f id
  if e.late.contains (g, id) then d else d.bump (8 + f) R.SCN_COMMIT_LATE

/-- R211: frames in order, and commits of one frame in the order of their acceptance. -/
def seqBefore (a b : Nat × Nat) : Bool := decide (a.1 < b.1) || (a.1 = b.1 && decide (a.2 ≤ b.2))

/-- The sequences (frame, commit) that a flue die holds, or that were sent to it, for a frame or an earlier one. -/
def FlueEnd.known (e : FlueEnd) (n : Nat) : List (Nat × Nat) :=
  (((e.due.map fun x => (x.frame, x.id)) ++ e.parts.map fun x => (x.frame, x.id)).eraseDups.filter fun x => x.1 ≤ n).mergeSort seqBefore

/-- The parts a flue die holds of a sequence. -/
def FlueEnd.partsOf (e : FlueEnd) (g id : Nat) : List Part :=
  match e.parts.find? fun x => x.frame = g && x.id = id with
  | some x => x.parts
  | none => []

/-- R212: what a latch line that announces frame `n` does with the sequences sent to a die: it applies those held whole and drops the
others. -/
def Dev.latchSequences (d : Dev) (f n : Nat) : Dev :=
  let e := d.flueEnd f
  let d := (e.known n).foldl (fun d x =>
    let parts := e.partsOf x.1 x.2
    if partsWhole parts then d.applySequence f x.1 x.2 n parts else d.dropSequence f x.1 x.2) d
  let e := d.flueEnd f
  let d := d.setFlueEnd f { e with
    parts := e.parts.filter fun x => x.frame > n, due := e.due.filter fun x => x.frame > n, passed := some n }
  let still (id : Nat) : Bool := d.dmp.ends.any fun e => e.due.any (·.id = id)
  { d with
    film := { d.film with carried := d.film.carried.filter fun x => still x.1 }
    blw := { d.blw with carried := d.blw.carried.filter fun x => still x.1 } }

/-- R264: the FRAME marker of the latch line on the mirror links of a die. -/
def Dev.mirrorLatch (d : Dev) (f n : Nat) : Dev :=
  ((fromN (4 * f) 4).filter d.linkIsOn).foldl (fun d l => d.send (.line l d.active [(true, 0x2D * 2 ^ 56 + n % 2 ^ 48), idleBlock])) d

/-- LATCH_LINE (R206, R212, R249): the latch line of the current frame begins on a flue die. -/
def execLatchLine (f : Nat) (s : State) : Host.Outcome State Fault Refusal :=
  event (fun d =>
    if f > 1 ∨ d.mode = 0 then d
    else
      let n := d.nextNumber
      let d := d.latchSequences f n
      let x := d.filmDie f
      let d := if x.dark = 2 then d.setFilmDie f { x with dark := 3 } else d
      if d.mode = 2 then d.mirrorLatch f n else d) s

/-! Genlock (R213–R217, R422). -/

/-- What the genlock controller decides at a frame start: the error in 2^-16 ns over `den`, the blanking, whether it is a
hard resync and how the next number is taken (as `Ras.resynced`), phase steps. -/
structure GlPlan where
  vblank : Nat
  resync : Nat
  steps  : Int
  deriving DecidableEq, Repr

/-- R213, R214: the error e of a frame that starts at `start` (2^-16 ns) against the source in use, as a numerator over the
denominator of the frame period, wrapped into (−P/2, P/2]. -/
def Dev.glError (d : Dev) (source : Nat) (start : Nat) : Option Int :=
  let (a, b) := periodOf d.rate
  let wrap (x : Int) : Int := let y := x % a; if 2 * y > a then y - a else y
  let local_ : Int := ((start : Int) - d.ras.glOffset * 65536) * b
  match source, d.ras.fsLast with
  | 2, _ => some (wrap (-local_))
  | 1, some t => some (wrap ((t : Int) * b - local_))
  | _, _ => none

/-- R422: phase steps of 1/64 of a raster clock (65 to the ns) that a blanking of `lines` allows: one in 4 clocks. -/
def Dev.maxSteps (d : Dev) (lines : Nat) : Nat := let (a, b) := d.lineT; lines * a * 65 / (b * 65536 * 256)

/-- R214, R215, R422: the plan for a frame from its error `e` (over the denominator of P). -/
def Dev.glPlan (d : Dev) (e : Int) (hard : Bool) : GlPlan :=
  let (a, b) := periodOf d.rate
  let lines := d.active + d.vblank
  let n := roundDiv (e * lines) a
  let big : Bool := decide ((e * lines).natAbs > 64 * a)
  if hard && big then
    if e > 0 then ⟨(d.vblank + n).toNat, if d.ras.source = 2 then 3 else 1, 0⟩
    else if (d.vblank : Int) + n ≥ 8 then ⟨(d.vblank + n).toNat, if d.ras.source = 2 then 3 else 1, 0⟩
    else ⟨(d.vblank + roundDiv ((a + e) * lines) a).toNat, if d.ras.source = 2 then 3 else 2, 0⟩
  else
    let v := (clampI 8 255 (d.vblank + clampI (-64) 64 n)).toNat
    let resid := e * lines - n * a
    let steps := (resid * 65).tdiv ((lines * b * 65536 : Nat) : Int)
    let mx : Int := d.maxSteps v
    ⟨v, 0, clampI (-mx) mx steps⟩

/-- R214: LOCKED after 8 frames with |e| < 1 line, UNLOCKED at 2 lines. -/
def Ras.lockStep (r : Ras) (e : Int) (lines a : Nat) : Ras :=
  let x := e.natAbs * lines
  let run := if x < a then r.lockRun + 1 else 0
  { r with lockRun := run, locked := if x ≥ 2 * a then false else if run ≥ 8 then true else r.locked }

/-- R217: how long FSYNC_OUT stays high, in 2^-16 ns: 4 lines, or 1 µs in projector mode. -/
def Dev.fsyncWidth (d : Dev) : Nat := if d.mode = 2 then 1000 * 65536 else let (a, b) := d.lineT; 4 * a / b

/-- R217: the level of FSYNC_OUT. -/
def Dev.fsyncHigh (d : Dev) : Bool := d.ras.fsyncOut && decide (d.media < d.ras.startAt + d.fsyncWidth)

/-- R213–R217, R422: the genlock controller at a frame start. -/
def Dev.genlock (d : Dev) : Dev :=
  let d := { d with ras := { d.ras with
      glFirst := d.rd 8 R.SCN_GL_CTRL_FIRST, glSecond := d.rd 8 R.SCN_GL_CTRL_SECOND, glFlags := d.rd 8 R.SCN_GL_CTRL_FLAGS
      glOffset := d.rdI 8 R.SCN_GL_OFFSET } }
  let d := d.useSource d.bestSource
  let (a, b) := periodOf d.rate
  let lines := d.active + d.vblank
  let plan : GlPlan × Dev := match d.glError d.ras.source d.ras.startAt with
    | none => (⟨d.vblank, 0, 0⟩, d)
    | some e =>
      let p := d.glPlan e (bit d.ras.glFlags 0 && decide (d.ras.sinceRs ≥ 8))
      (p, { d with ras := { (d.ras.lockStep e lines a) with err := roundFree e b } })
  let (p, d) := plan
  let out := bit d.ras.glFlags 2 && (d.ras.source != 0 || bit d.ras.glFlags 3)
  let d := if out then d.send (.fsync d.ras.startAt (d.ras.startAt + d.fsyncWidth)) else d
  let d := { d with ras := { d.ras with
      vnow := p.vblank, resynced := p.resync, phase := roundDiv (p.steps * 65536) 65
      sinceRs := if p.resync ≠ 0 then 1 else d.ras.sinceRs + 1
      fsyncOut := out } }
  flueDies.foldl (fun d k =>
    let d := if p.vblank ≠ d.vblank then d.bump k R.SCN_SLEW_FRAMES else d
    let d := if p.resync ≠ 0 then d.bump k R.SCN_RESYNC else d
    d.bump k R.CLK_FR_STEPS p.steps.natAbs) d

/-! Signatures and reports (R218, R219, R30). -/

/-- R218, R219, R227: a link's frame is over: its signature is held and reported, and UNDERRUN clears after a frame that was
not abandoned. -/
def Dev.frameOver (d : Dev) (n : Nat) : Dev :=
  let die := linkDie n
  let g := d.frame
  let st := d.linkRegionState n
  let ab := (d.ras.black.getD n []).any (·.1 = g)
  let later := (d.ras.black.getD n []).filter (·.1 > g)
  let d := { d with ras := { d.ras with black := d.ras.black.set n later } }
  let d := if ab || later != [] then d else d.wr die (R.SCN_LINK_UNDERRUN (linkOn n)) 0
  if st ≠ .on ∧ st ≠ .stopping then d
  else
    let crc := d.ras.crcs.getD n 0 ^^^ 0xFFFFFFFF
    let flags := d.ras.flags.getD n 0 ||| b2n ab ||| (if d.linkHalf n then 4 else 0)
    let held : List Sig := d.ras.sigs.getD n []
    let sig : Sig := ⟨g, flags, crc⟩
    let d := { d with ras := { d.ras with
        sigs := d.ras.sigs.set n ((held ++ [sig]).drop (held.length + 1 - 64))
        crcs := d.ras.crcs.set n 0xFFFFFFFF, flags := d.ras.flags.set n 0 } }
    let d := (d.wr die (R.SCN_SIG (linkOn n)) crc).wrLoHi die R.SCN_SIG_FRAME_LO R.SCN_SIG_FRAME_HI g
    d.retPut (n / 4) ⟨0x84, [n * 2 ^ 56 + flags * 2 ^ 48 + g, crc * 2 ^ 32]⟩

/-! Frame starts (R206). -/

/-- R221, R222, R268: a STARTING region whose links are ON is ON from frame `n`: its raster is latched. -/
def Dev.regionOn (d : Dev) (r n : Nat) : Dev :=
  match d.regionReady r, d.ras.rasters.getD r none with
  | true, some x =>
    let d := flueDies.foldl (fun d k => (rasterFields d.mode x).foldl (fun d e => d.wrB k e.1 e.2) d) d
    let d := if d.mode = 2 then d.litRefresh (r / 2) else d
    let (d, next) := d.fnDone (FnId.region r) (enc 6 n)
    if next.isSome then d.stopAsked r n else d
  | _, _ => d

/-- R222, R243: a STOPPING region is dark, and OFF, from frame `n`; the panel region is OFF only once the film is. Its completion event
carries the first frame that was dark. -/
def Dev.regionOff (d : Dev) (r n : Nat) : Dev :=
  let first := (d.ras.darkAt.getD r none).getD n
  if (d.fn (FnId.region r)).st ≠ .stopping then d
  else if d.mode = 1 ∧ d.filmSt ≠ .off then { d with ras := { d.ras with darkAt := d.ras.darkAt.set r (some first) } }
  else
    let (d, next) := d.fnDone (FnId.region r) (enc 6 first)
    if next.isSome then (regionLinks d.mode r).foldl Dev.wakeLink d else d

/-- R246, R337: the retained mode at a frame start; the links wake for a disable that was stored. -/
def Dev.retainFrame (d : Dev) : Dev :=
  match d.retainSt with
  | .starting =>
    if d.filmAtRest && !d.updatesGoing then
      let (d, next) := d.fnDone FnId.retain
      if next.isSome then (regionLinks d.mode 0).foldl Dev.wakeLink d else d
    else d
  | .stopping => if (d.linksUsed d.width 0).all d.linkActive then (d.fnDone FnId.retain).1 else d
  | _ => d

/-- R22: a die's output resumes: its forward path is ON again and pixel data for the frame has arrived. -/
def Dev.resumeOutput (d : Dev) (f : Nat) : Dev :=
  let x := d.flu.getD f {}
  let low := d.frame % 2 ^ 24
  let data := x.runs.any (fun r => r.frame = low) || x.rows.any fun e => e.2.1 = low
  if d.dmp.lost.getD f false && d.rd 0 (R.DMP_HALF_ON f) = 1 && data then
    { d with dmp := { d.dmp with lost := d.dmp.lost.set f false } } else d

/-- R235, R245, R249: what a frame start does to the film. -/
def Dev.filmFrameTop (d : Dev) : Dev :=
  let light (x : FilmDie) : FilmDie := { x with dark := if x.dark = 3 then 0 else x.dark }
  { d with film := { d.film with
      next := 0, black := d.film.black || d.film.stopDark, stopDark := false, dies := d.film.dies.map light } }

/-- R333, R335: half refresh ends at a frame start on a link that is no longer degraded. -/
def Dev.halfEnds (d : Dev) (n : Nat) : Dev :=
  let die := linkDie n
  if d.linkHalf n && d.rd die (R.LNK_FL_STATE_DEGRADED (linkOn n)) = 0 && d.rd die (R.DMP_HALF_DEGRADED (n / 4)) = 0 then
    d.wr die (R.SCN_LINK_HALF (linkOn n)) 0 else d

/-- FRAME_START (R206 and the rules named above). -/
def execFrameStart (s : State) : Host.Outcome State Fault Refusal :=
  event (fun d =>
    if d.mode = 0 then d
    else
      let n := d.nextNumber
      let d := (List.range 8).foldl Dev.frameOver d
      let d := if d.ras.started && decide (n > d.frame + 1) then flueDies.foldl (fun d k => d.bump k R.SCN_NUMBER_SKIP) d else d
      let old := d.frame % 2 ^ 24
      let keep (x : FlueData) : FlueData := { x with runs := x.runs.filter fun r => r.frame ≠ old || old = n % 2 ^ 24 }
      let d := { d with
        frame := n, ras := { d.ras with startAt := d.media, started := true }
        flu := d.flu.map keep }
      let d := (List.range 4).foldl (fun d r => d.regionOn r n) d
      let d := (List.range 4).foldl (fun d r => d.regionOff r n) d
      let d := d.genlock.filmFrameTop.retainFrame
      let d := ([0, 1].foldl Dev.resumeOutput d).lampFrameStart n
      let d := (List.range 8).foldl Dev.halfEnds d
      let d := { d with
        lamp := { d.lamp with slot := 0 }
        ras := { d.ras with live := (List.range 8).map d.linkActive, halfSent := (List.range 8).map d.linkHalf } }
      (d.pmSwap n).twinFrame) s

/-! The lines of the panel's links (R229–R236). -/

/-- R229: a LINE block. -/
def lineBlock (n line frame : Nat) (active film standby half black rep : Bool) : Bool × Nat :=
  (true, 0x1E * 2 ^ 56 + n * 2 ^ 52 + line % 2 ^ 20 * 2 ^ 32 + b2n active * 2 ^ 29 + b2n film * 2 ^ 28 + b2n standby * 2 ^ 27
    + b2n half * 2 ^ 26 + b2n black * 2 ^ 25 + b2n rep * 2 ^ 24 + frame % 2 ^ 24)

/-- R28, R231: the runs held for a line of the current frame of a link. -/
def Dev.lineRuns (d : Dev) (n line : Nat) : List Run :=
  (d.flu.getD (n / 4) {}).runs.filter fun r => r.link = n && r.line = line && r.frame = d.frame % 2 ^ 24

/-- R231: the data block `b` of a line, if a run carries it. -/
def runBlock (rs : List Run) (b : Nat) : Option Nat :=
  rs.findSome? fun r => if r.bad ∨ b < 9 * r.first / 16 then none else (r.words)[b - 9 * r.first / 16]?

/-- R27, R230: the data blocks of a line of a link: as received, or where a block is missing those of the line before, with
whether they are repeated. -/
def Dev.lineData (d : Dev) (n line : Nat) : List Nat × Bool :=
  let total := 9 * bandWidth d.width n / 16
  let got := (List.range total).map (runBlock (d.lineRuns n line))
  if got.all Option.isSome then (got.map (·.getD 0), false)
  else
    let prev := (d.flu.getD (n / 4) {}).prev.getD (n % 4) []
    ((List.range total).map fun i => prev.getD i 0, true)

/-- R231: nine data blocks with the codes of the pixels that `z` names set to 0. -/
def zeroGroup (g : List Nat) (z : Nat → Bool) : List Nat :=
  let v := g.foldl (fun v w => v * 2 ^ 64 + w) 0
  let v := (List.range 16).foldl (fun v k => if z k then v - v / 2 ^ (540 - 36 * k) % 2 ^ 36 * 2 ^ (540 - 36 * k) else v) v
  (List.range 9).map fun i => v / 2 ^ (64 * (8 - i)) % 2 ^ 64

/-- R240: data blocks from pixel `i` of a band on, with the pixels that `z` names black. -/
def zeroPixels : Nat → List Nat → Nat → (Nat → Bool) → List Nat
  | 0, _, _, _ => []
  | k + 1, bs, i, z => zeroGroup (bs.take 9) (fun j => z (i + j)) ++ zeroPixels k (bs.drop 9) (i + 16) z

/-- R240: the emitters of a pixel of a band (by its column in the band) are black for the film's sake. -/
def Dev.filmBlanks (d : Dev) (n line x : Nat) : Bool :=
  let f := n / 4
  let key := cellKey ((bandStart d.width n + x) / 8) (line / 8)
  let c := (d.filmDie f).cell key
  d.filmSt != .off && d.rdB (8 + f) R.CHS_CFG_FILM_BLANK = 1 && !(c.atRest && c.state = d.targetFor f key d.frame)

/-- R161, R218, R22, R243–R249, R552: every code of the line is 0. -/
def Dev.lineBlack (d : Dev) (n line : Nat) : Bool :=
  let f := n / 4
  d.dmp.lost.getD f false || d.blackAt n d.frame line || (d.lineRuns n line).any (·.words = []) || d.ras.safeDark || d.film.black
    || d.retainSt == .on || d.retainSt == .stopping || d.stopOver 0

/-- R247, R249: after a power failure a die's lines carry no pixel data. -/
def Dev.dieDark (d : Dev) (f : Nat) : Bool := (d.filmDie f).dark ≠ 0

/-- The film frame of the frame that a line belongs to, and the line's place in it (R235). -/
def Dev.filmLine (d : Dev) (line : Nat) : Nat × Nat :=
  let l := lffOf d.rate d.active
  let k := min (line / l) (fpfOf d.rate - 1)
  (k, line - k * l)

/-- The film frame sequence number of film frame `k` of the current frame (R235). -/
def Dev.filmNumber (d : Dev) (k : Nat) : Nat := (d.film.count + 2 ^ 32 + k - d.film.next) % 2 ^ 32

/-- R230, R235, R246: the FILM_GO of a line. -/
def Dev.filmGo (d : Dev) (n line : Nat) : List (Bool × Nat) :=
  let (k, r) := d.filmLine line
  if r ≠ 0 ∨ line ≥ d.active + 8 ∨ ¬ d.filmGoes (n / 4) then []
  else [filmGoBlock (if d.retainSt = .on then 2 else 0) 0 (d.rdB (linkDie n) R.CHS_PULSE) (d.filmNumber k)]

/-- R235, R236: the FILM_ROW of a line and its data blocks. -/
def Dev.filmRow (d : Dev) (n line : Nat) : List (Bool × Nat) :=
  let (k, r) := d.filmLine line
  let w := bandWidth d.width n
  let f := n / 4
  if w = 0 ∨ r ≥ d.active / 8 ∨ ¬ d.filmGoes f then []
  else
    let k1 := if k + 1 = fpfOf d.rate then 0 else k + 1
    let code (j : Nat) : Nat :=
      if d.filmSt = .off ∨ d.retainSt = .on then 3 else d.nextDrive f (cellKey (bandStart d.width n / 8 + j) r) k1
    d.filmRowBlocks n r (d.filmNumber (k + 1)) code

/-- R229, R230: the FRAME and CURRENT_REF blocks of the latch line. -/
def Dev.latchBlocks (d : Dev) (n : Nat) (refs : Bool) : List (Bool × Nat) :=
  let k := n / 4
  let c (i : Nat) : Nat := if refs then d.currentRef k i else 0
  [(true, 0x2D * 2 ^ 56 + fpfOf d.rate * 2 ^ 52 + d.nextNumber % 2 ^ 48), (true, 0x33 * 2 ^ 56 + c 0 * 2 ^ 32 + c 1 * 2 ^ 16 + c 2)]

/-- R246, R247, R282: the references apply from the next frame. -/
def Dev.refsShown (d : Dev) (f : Nat) : Bool :=
  !(d.retainSt == .on || (d.retainSt == .starting && d.filmAtRest)) && ((d.filmDie f).dark = 0 || (d.filmDie f).dark = 3)
    && !d.ras.safeDark

/-- R334: the data blocks of the carried line that the first or second line of a pair carries in half refresh. -/
def halfShare (bs : List Nat) (odd : Bool) : List Nat :=
  let g := bs.length / 9
  if odd then bs.drop (9 * ((g + 1) / 2)) else bs.take (9 * ((g + 1) / 2))

/-- R31: credits that a PIXEL_RUN takes of an egress buffer, and gives back: 512 bytes of data each. -/
def runCredits (words : Nat) : Nat := ceilDiv (8 * words) 512

/-- R31, R25: the data of a line has left the egress buffer: it is the line before from now on, and its credits return. -/
def Dev.lineSent (d : Dev) (n line : Nat) (data : List Nat) (rep : Bool) : Dev :=
  let rs := d.lineRuns n line
  let f := n / 4
  let upd (x : FlueData) : FlueData := { x with
    runs := x.runs.filter fun r => !rs.contains r, prev := if rep then x.prev else x.prev.set (n % 4) data }
  let d := { d with flu := d.flu.modify f upd }
  let c := (rs.map fun r => runCredits r.words.length).sum
  if c = 0 then d else d.retPut f ⟨0x86, [n * 2 ^ 56 + c * 2 ^ 40]⟩

/-- R333: a line of a link is sent under half refresh: as its line pair began. -/
def Dev.pairHalf (d : Dev) (n : Nat) : Bool := d.ras.pairHalf.getD n false

/-- R333: a line pair of a link begins: half refresh is entered, or left, with it. -/
def Dev.pairBegins (d : Dev) (n line : Nat) : Dev :=
  if line % 2 = 1 then d else { d with ras := { d.ras with pairHalf := d.ras.pairHalf.set n (d.linkHalf n) } }

/-- R552: a line of a link whose region is OFF or STARTING. -/
def Dev.offLine (d : Dev) (n line : Nat) : List (Bool × Nat) :=
  lineBlock n line d.frame false false (d.twinRole == 2) (d.pairHalf n) true false
    :: (if line = d.active then d.latchBlocks n (d.regionReady 0 && d.refsShown (n / 4)) else []) ++ [idleBlock]

/-- A line of a link whose region is ON or STOPPING (R230). -/
def Dev.onLine (d : Dev) (n line : Nat) : Dev :=
  let f := n / 4
  let active := decide (line < d.active)
  let half := d.pairHalf n
  let w := bandWidth d.width n
  let src := if half then 2 * (line / 2) + d.frame % 2 else line
  let (data, rep) := if active && w != 0 then d.lineData n src else ([], false)
  let black := active && d.lineBlack n src
  let dark := d.dieDark f
  let zero (x : Nat) : Bool := black || d.filmBlanks n src x
  let allZero := active && w != 0 && (List.range w).all zero
  let sent := if dark then [] else if active then zeroPixels (w / 16) data 0 zero else []
  let sent := if half then halfShare sent (line % 2 = 1) else sent
  let row := d.filmRow n line
  let rep := rep && !black && !dark
  let blocks := (lineBlock n line d.frame active (row != []) (d.twinRole == 2) half (black || allZero || dark) rep :: d.filmGo n line)
    ++ sent.map (fun w => (false, w)) ++ row ++ (if line = d.active then d.latchBlocks n (d.refsShown f) else []) ++ [idleBlock]
  let d := d.send (.line n line blocks)
  let d := if active then d.signBlocks n blocks else d
  let d := if rep then d.flagRepeat n else d
  if active && (!half || line % 2 == 1) then d.lineSent n src data rep else d

/-- LINE_SEND (R230, R552): a line of the device frame timing begins on a link of the panel. -/
def execLineSend (link line : Nat) (s : State) : Host.Outcome State Fault Refusal :=
  event (fun d =>
    if d.mode ≠ 1 ∨ link > 7 ∨ ¬ d.linkActive link ∨ line ≥ d.active + d.ras.vnow ∨ d.pwr.twinStop.getD (link / 4) false then d
    else
      let st := (d.fn (FnId.region 0)).st
      let d := d.pairBegins link line
      if st = .off ∨ st = .starting then d.send (.line link line (d.offLine link line))
      else if d.ras.live.getD link false then d.onLine link line else d) s

end Sys2Proof.Machine
end

