-- ==== Sys2Proof/Machine/Lanes.lean ====
section
/-! DEFINITION. The damper's lane roles at the hearth end (R22, R24, R325, R330, R333, R335, R336): the loss of the forward path, what
replaces a lost lane, and the map changes that the next marker round of a half makes. -/

namespace Sys2Proof.Machine

/-- R22, R529, R530: the forward path of a flue die (0, 1) stops delivering: its output is blanked; in twin mode its links stop
and an ACTIVE device becomes FAILED. -/
def Dev.pathLost (d : Dev) (f : Nat) : Dev :=
  let d := { d with dmp := { d.dmp with lost := d.dmp.lost.set f true } }
  let d := (d.wr 0 (R.DMP_HALF_ON f) 0).wr (8 + f) (R.DMP_HALF_ON f) 0
  if d.twinRole = 1 then ({ d with pwr := { d.pwr with twinStop := d.pwr.twinStop.set f true } }).twinFail else d

/-- R23, R24: the damper half of a lane. -/
def laneHalf (i : Nat) : Nat := if i < 16 ∨ i = 32 ∨ i = 33 then 0 else 1

/-- R23, R24: the lanes of a half. -/
def halfLanes (h : Nat) : List Nat := (List.range 36).filter fun i => laneHalf i = h

/-- A register field of the lane layer written at both ends of a half. -/
def Dev.wrBoth (d : Dev) (h : Nat) (f : Fld) (v : Nat) : Dev := (d.wr 0 f v).wr (8 + h) f v

/-- R325: an LSTAT of the hearth end: an order to reverse a lane. -/
def lstatWord (locked lane : Nat) (reverse : Bool) : Nat := 0xA5 * 2 ^ 56 + locked % 2 ^ 36 * 2 ^ 20 + lane * 2 ^ 14 + b2n reverse * 2 ^ 13

/-- R24: reversible lanes that are free: standing by, and not chosen for anything yet. -/
def Dev.freeReversible (d : Dev) : List Nat :=
  (fromN 32 4).filter fun i => d.rd 0 (R.DMP_LANE_ROLE i) = 1 && d.dmp.moving != some i && !d.dmp.plan.any fun e => e.2.2 = some i

/-- The lanes that an end of the damper (die 0, 8, 9) holds in lock, as LSTAT carries them. -/
def Dev.lockMap (d : Dev) (die : Nat) : Nat := ((List.range 36).map fun i => d.rd die (R.DMP_LANE_LOCKED i) * 2 ^ i).sum

/-- R325: an LSTAT of the hearth end leaves on every forward lane. -/
def Dev.lstatForward (d : Dev) (lane : Nat) (reverse : Bool) : Dev :=
  ((List.range 36).filter fun i => d.rd 0 (R.DMP_LANE_ROLE i) ≤ 1 && d.rd 0 (R.DMP_LANE_PHASE i) = 6).foldl (fun d i =>
    d.send (.lane (8 + laneHalf i) i (lstatWord (d.lockMap 0) lane reverse))) d

/-- R325: an LSTAT of a flue die (8, 9) leaves on the return lane. -/
def Dev.lstatReturn (d : Dev) (die : Nat) : Dev :=
  match d.dmp.ret, d.dmp.moving with
  | some r, none => d.send (.lane 10 r (lstatWord (d.lockMap die) 0 false))
  | _, _ => d

/-- R325: what the receivers of an end of the damper hold in lock has changed. -/
def Dev.lockChanged (d : Dev) (die : Nat) : Dev := if die = 0 then d.lstatForward 0 false else d.lstatReturn die

/-- R24, R336: the return lane moves to a lane: the hearth end orders it reversed. -/
def Dev.moveReturn (d : Dev) (lane : Nat) : Dev :=
  ({ d with dmp := { d.dmp with moving := some lane } }).lstatForward lane true

/-- R24: without a return lane, the highest-numbered free reversible lane becomes it. -/
def Dev.returnNeeded (d : Dev) : Dev :=
  match d.dmp.ret, d.dmp.moving, d.freeReversible.getLast? with
  | none, none, some l => d.moveReturn l
  | _, _, _ => d

/-- R19: the descriptor of a damper lane's loss, at the level that contains it (log entry 166). -/
def Dev.laneFault (d : Dev) (level i action : Nat) : Dev := d.descriptor level (8 + laneHalf i) 0x70 i Cause.laneLockLost action 0

/-- R332: a lane of a half that was retrained and is its spare. -/
def Dev.halfSpare (d : Dev) (h : Nat) : Option Nat :=
  (halfLanes h).find? fun i => decide (i < 32) && d.rd 0 (R.DMP_LANE_ROLE i) = 1 && !d.dmp.plan.any fun e => e.2.2 = some i

/-- R24, R332: a lost data lane is replaced by the spare of its half or a free reversible lane of it; else by the return lane, where that is of
its half and can move to the other; else the half re-stripes. The next marker round makes the change. -/
def Dev.laneReplace (d : Dev) (i : Nat) : Dev :=
  let h := laneHalf i
  let free := d.freeReversible
  let plan (l : Option Nat) : Dev := { d.laneFault 1 i 1 with dmp := { d.dmp with plan := d.dmp.plan ++ [(h, i, l)] } }
  match (d.halfSpare h).orElse fun _ => (free.filter fun l => laneHalf l = h).head?, d.dmp.ret, (free.filter fun l => laneHalf l ≠ h).getLast? with
  | some l, _, _ => plan (some l)
  | none, some r, some l => if laneHalf r = h ∧ d.dmp.moving = none then (plan (some r)).moveReturn l else plan none
  | none, _, _ => plan none

/-- R24: the hearth end learns of a lost lane and allocates roles. What had been planned for the lane, or for the return lane where the lane it
was to move to is the one lost, is allocated again. -/
def Dev.laneAllot (d : Dev) (i : Nat) : Dev :=
  let role := d.rd 0 (R.DMP_LANE_ROLE i)
  let gone (e : Nat × Nat × Option Nat) : Bool :=
    e.2.2 = some i || (d.dmp.moving = some i && e.2.2.isSome && e.2.2 = d.dmp.ret)
  let again := (d.dmp.plan.filter gone).map (·.2.1)
  let d := { d.wr 0 (R.DMP_LANE_ROLE i) 3 with dmp := { d.dmp with
      plan := d.dmp.plan.filter fun e => !gone e
      ret := if d.dmp.ret = some i then none else d.dmp.ret
      moving := if d.dmp.moving = some i then none else d.dmp.moving } }
  let d := again.foldl Dev.laneReplace d
  let d := match role with
    | 0 => d.laneReplace i
    | 1 => d.laneFault 0 i 0
    | _ => d.laneFault 1 i (b2n (d.freeReversible ≠ []))
  d.returnNeeded

/-- R320: the data lanes of a half are numbered afresh, in the order of their logical numbers. -/
def Dev.renumber (d : Dev) (h : Nat) : Dev :=
  let data := (List.range 16).filterMap fun g =>
    (halfLanes h).find? fun i => d.rd 0 (R.DMP_LANE_ROLE i) = 0 && d.rd 0 (R.DMP_LANE_LOGICAL i) = g
  data.zipIdx.foldl (fun d e => d.wrBoth h (R.DMP_LANE_LOGICAL e.1) e.2) d

/-- R330: the map generation of a half advances. -/
def Dev.halfGen (d : Dev) (h : Nat) : Dev :=
  (halfLanes h).foldl (fun d i => d.wrBoth h (R.DMP_LANE_GEN i) ((d.rd 0 (R.DMP_LANE_GEN i) + 1) % 16)) d

/-- R330, R333: one planned change of a half's map: the lane's replacement takes its logical lane, or the stripe has one lane fewer. -/
def Dev.halfChange (d : Dev) (h : Nat) (e : Nat × Nat × Option Nat) : Dev :=
  let lg := d.rd 0 (R.DMP_LANE_LOGICAL e.2.1)
  let d := d.wrBoth h (R.DMP_LANE_LOGICAL e.2.1) 0x3F
  match e.2.2 with
  | some l => (d.wrBoth h (R.DMP_LANE_ROLE l) 0).wrBoth h (R.DMP_LANE_LOGICAL l) lg
  | none =>
    let d := (d.wrBoth h (R.DMP_HALF_N h) (d.rd 0 (R.DMP_HALF_N h) - 1)).wrBoth h (R.DMP_HALF_DEGRADED h) 1
    ((fromN (4 * h) 4).foldl (fun d k => d.wr (8 + h) (R.SCN_LINK_HALF (linkOn k)) 1) d).renumber h

/-- R335: a retrained lane brings a re-striped half back up by one lane. -/
def Dev.halfGrow (d : Dev) (h : Nat) : Dev :=
  let n := d.rd 0 (R.DMP_HALF_N h)
  let free := (halfLanes h).filter fun i => d.rd 0 (R.DMP_LANE_ROLE i) = 1 && d.dmp.moving != some i
  match free.head? with
  | none => d
  | some i =>
    if n ≥ 16 ∨ d.rd 0 (R.DMP_HALF_DEGRADED h) = 0 then d
    else
      let d := ((d.wrBoth h (R.DMP_LANE_ROLE i) 0).wrBoth h (R.DMP_LANE_LOGICAL i) n).wrBoth h (R.DMP_HALF_N h) (n + 1)
      (if n + 1 = 16 then d.wrBoth h (R.DMP_HALF_DEGRADED h) 0 else d).halfGen h

/-- R321: a marker block with its CRC. -/
def markerWord (link phys logical n gen round : Nat) : Nat :=
  let w := 0x8E * 2 ^ 40 + link * 2 ^ 36 + phys * 2 ^ 30 + logical * 2 ^ 24 + n * 2 ^ 19 + gen * 2 ^ 12 + round
  w * 65536 + crc16 (enc 6 w)

/-- R321: a marker round of a damper half (8, 9) or of the return lane (10) leaves: one marker on every lane of the half that runs forward, or on
the return lane. -/
def Dev.damperMarkers (d : Dev) (link : Nat) : Dev :=
  let r := d.lnk.rounds.getD link 0
  let back := [d.dmp.ret, d.dmp.moving]
  let lanes := if link = 10 then d.dmp.ret.toList else (halfLanes (link - 8)).filter fun i => !back.contains (some i)
  let n := if link = 10 then 1 else d.rd 0 (R.DMP_HALF_N (link - 8))
  let d := (lanes.filter fun i => d.rd 0 (R.DMP_LANE_PHASE i) ≥ 4).foldl (fun d i =>
    let lg := if link = 10 then 0 else d.rd 0 (R.DMP_LANE_LOGICAL i)
    d.send (.lane link i (markerWord link i lg n (d.rd 0 (R.DMP_LANE_GEN i)) r))) d
  { d with lnk := { d.lnk with rounds := d.lnk.rounds.set link ((r + 1) % 4096) } }

/-- R24, R330, R333, R335, R336: the map changes of a damper half that its next marker round makes. Below 12 lanes the half is not ON (R22) and
trains again. -/
def Dev.halfRemap (d : Dev) (h : Nat) : Dev :=
  let now := d.dmp.plan.filter fun e => e.1 = h && (match e.2.2 with | some l => d.dmp.moving != some l && d.dmp.ret != some l | none => true)
  if now = [] then d.halfGrow h
  else
    let d := { d with dmp := { d.dmp with plan := d.dmp.plan.filter fun e => !now.contains e } }
    let d : Dev := now.foldl (fun d e => d.halfChange h e) (d.halfGen h)
    if 12 ≤ d.rd 0 (R.DMP_HALF_N h) then d
    else (halfLanes h).foldl (fun d i => d.wrBoth h (R.DMP_LANE_PHASE i) 1) (d.pathLost h)

end Sys2Proof.Machine
end

