-- ==== Sys2Proof/Machine/Links.lean ====
section
/-! DEFINITION. Serial lanes and flue links (class 0x30, R317–R347): training, LISTEN, spare switch-over, degraded links, low
power, eye scans and tap-tests. -/

namespace Sys2Proof.Machine

namespace Rsk
/-- R341. -/
abbrev inUse := 0x40
abbrev samplerBusy := 0x41
abbrev notIdle := 0x42
abbrev noReceiver := 0x43
abbrev partnerAbsent := 0x44
abbrev noTap := 0x45
end Rsk

/-! A link's registers and training state. -/

/-- A field of a link's registers (LNK_ block of its die). -/
def Dev.lget (d : Dev) (n : Nat) (f : Nat → Fld) : Nat := d.rd (linkDie n) (f (linkOn n))
def Dev.lset (d : Dev) (n : Nat) (f : Nat → Fld) (v : Nat) : Dev := d.wr (linkDie n) (f (linkOn n)) v
def Dev.lbump (d : Dev) (n : Nat) (f : Nat → Fld) (k : Nat := 1) : Dev := d.bump (linkDie n) (f (linkOn n)) k

def Dev.core (d : Dev) (n : Nat) : LinkCore := d.lnk.links.getD n {}
def Dev.setCore (d : Dev) (n : Nat) (c : LinkCore) : Dev := { d with lnk := { d.lnk with links := d.lnk.links.set n c } }

def Dev.linkSt (d : Dev) (n : Nat) : FnSt := (d.fn (FnId.link n)).st

/-- R347: the physical lane of logical lane `k`. -/
def Dev.mapOf (d : Dev) (n k : Nat) : Nat := d.lget n R.LNK_FL_MAP_LOGICAL / 16 ^ k % 8

/-- The lanes of a link that are not lost. -/
def Dev.goodLanes (d : Dev) (n : Nat) : List Nat := (List.range 5).filter fun p => !bit (d.lget n R.LNK_FL_MAP_FAILED) p

/-- R320: a map of logical lanes to physical lanes, with the spare (7: none), in the registers. -/
def Dev.setMap (d : Dev) (n : Nat) (phys : List Nat) (spare : Nat) : Dev :=
  let m := (phys.mapIdx fun k p => p * 16 ^ k).sum
  (((d.lset n R.LNK_FL_MAP_LOGICAL m).lset n R.LNK_FL_MAP_SPARE spare).lset n R.LNK_FL_STATE_N phys.length).lset n
    R.LNK_FL_STATE_NO_SPARE (b2n (spare = 7))

/-- R330: the map generation advances. -/
def Dev.nextGen (d : Dev) (n : Nat) : Dev := d.lset n R.LNK_FL_STATE_GEN ((d.lget n R.LNK_FL_STATE_GEN + 1) % 16)

/-- R324: a TRAIN block: link, lane, phase, and what became of each tap. -/
def trainWord (n p phase pre main post : Nat) : Nat :=
  0x99 * 2 ^ 56 + n * 2 ^ 52 + p * 2 ^ 49 + phase * 2 ^ 46 + pre * 2 ^ 38 + main * 2 ^ 36 + post * 2 ^ 34

/-- R326: the lanes that a STATUS shows locked. -/
def LinkCore.lockedLanes (c : LinkCore) : List Nat := (List.range 5).filter fun p => bit (c.locked &&& c.blocks) p

/-- R326: a link enters a phase: in DETECT, LOCK, EQUALISE and LISTEN it sends TRAIN on every lane (in LISTEN that of DETECT); from DESKEW on its
marker rounds carry the map over the locked lanes. -/
def Dev.enterPhase (d : Dev) (n ph : Nat) : Dev :=
  let d := d.lset n R.LNK_FL_STATE_PHASE ph
  if ph ≤ 3 ∨ ph = 7 then (List.range 5).foldl (fun d p => d.send (.lane n p (trainWord n p (if ph = 7 then 1 else ph) 0 0 0))) d
  else if ph = 4 then let l := (d.core n).lockedLanes; d.setMap n (l.take 4) (l.getD 4 7)
  else d

/-- R326: training begins at DETECT. -/
def Dev.beginLink (d : Dev) (n : Nat) : Dev :=
  let c := d.core n
  (d.setCore n { c with heard := false, eqDone := 0, errs := 0 }).enterPhase n 1

/-- R327, R328: a link's stored disable is carried out from OFF when it is in LISTEN: the start fails. -/
def Dev.listenFails (d : Dev) (n : Nat) : Dev :=
  let f := d.fn (FnId.link n)
  if f.st = .starting ∧ f.stored.isSome ∧ d.lget n R.LNK_FL_STATE_PHASE = 7 then
    (d.fnFailed (FnId.link n) Rsk.partnerAbsent).1.lset n R.LNK_FL_STATE_PHASE 0
  else d

/-- R327: a link enters LISTEN from a phase. -/
def Dev.enterListen (d : Dev) (n phase : Nat) : Dev :=
  let c := d.core n
  let d := (d.lset n R.LNK_FL_BACKOFF c.backoff).lbump n R.LNK_FL_LISTENS
  let d := d.setCore n { c with told := true, heard := false, backoff := min 1000 (2 * c.backoff) }
  let d := d.enterPhase n 7
  let d := if c.told then d
    else (d.flueEvent (n / 4) (linkSource n)).descriptor 1 (linkDie n) 0x30 n Cause.handshakeTimeout 0 phase
  d.listenFails n

/-- R326: a link reaches ON with the lanes locked: four data lanes and a spare where there are five, DEGRADED with three. -/
def Dev.linkReachesOn (d : Dev) (n : Nat) : Dev :=
  let c := d.core n
  let lanes := c.lockedLanes
  let d := d.lset n R.LNK_FL_MAP_FAILED (((List.range 5).filter fun p => !lanes.contains p).map (2 ^ ·)).sum
  let d := d.setMap n (lanes.take 4) (lanes.getD 4 7)
  let deg := lanes.length < 4
  let d := (d.lset n R.LNK_FL_STATE_DEGRADED (b2n deg)).lset n R.LNK_FL_STATE_PHASE 6
  let d := if deg then d.wr (linkDie n) (R.SCN_LINK_HALF (linkOn n)) 1 else d
  let eq := lanes.map fun p => (5 * n + p, d.lget n fun k => R.LNK_FL_EQ k p)
  let d := { d with age := { d.age with eqGood := eq.foldl (fun l (e : Nat × Nat) => amPut l e.1 e.2) d.age.eqGood } }
  (d.setCore n { c with told := false, backoff := 10 }).lset n R.LNK_FL_BACKOFF 10

/-! Markers and TRAIN (R321, R324). -/

/-- R321: a marker round of a flue link leaves. -/
def Dev.markerRound (d : Dev) (n : Nat) : Dev :=
  let r := d.lnk.rounds.getD n 0
  let lanes := d.lget n R.LNK_FL_STATE_N
  let d := (List.range 5).foldl (fun d p =>
    let lg := ((List.range lanes).find? fun k => d.mapOf n k = p).getD 0x3F
    d.send (.lane n p (markerWord n p lg lanes (d.lget n R.LNK_FL_STATE_GEN) r))) d
  { d with lnk := { d.lnk with rounds := d.lnk.rounds.set n ((r + 1) % 4096) } }

/-! Back channel (R324, R326). -/

/-- HELLO (R324, R327): a partner's HELLO arrives on a link's back channel. -/
def execHello (link id caps : Nat) (s : State) : Host.Outcome State Fault Refusal :=
  event (fun d =>
    if link > 7 then d
    else
      let d := (((d.lset link R.LNK_FL_PARTNER_LO id).lset link R.LNK_FL_PARTNER_HI_ID (id / 2 ^ 32)).lset link R.LNK_FL_PARTNER_HI_CAPS caps).lset
        link R.LNK_FL_STATE_BACK 1
      let d := d.setCore link { d.core link with heard := true }
      let tapped := d.lnk.taps.any fun t => t.lane / 256 = 1 && t.lane % 256 / 5 = link
      if d.lget link R.LNK_FL_STATE_PHASE = 7 ∧ ¬ tapped then d.enterPhase link 1 else d) s

/-- R19: the descriptor of a lost lane of a flue link, at the level that contains it (log entry 166). -/
def Dev.linkFault (d : Dev) (level n action : Nat) : Dev := d.descriptor level (linkDie n) 0x30 n Cause.laneLockLost action 0

/-- R323, R326, R330, R332: lanes of an ON link that a STATUS shows lost; in DESKEW or CHECK a loss sends the link back to
LOCK. -/
def Dev.statusLosses (d : Dev) (n locked : Nat) : Dev :=
  let ph := d.lget n R.LNK_FL_STATE_PHASE
  let c := d.core n
  if ph = 6 then
    let f := d.lget n R.LNK_FL_MAP_FAILED ||| (31 - locked % 32)
    let d := d.lset n R.LNK_FL_MAP_FAILED f
    if d.lget n R.LNK_FL_MAP_SPARE < 5 ∧ bit f (d.lget n R.LNK_FL_MAP_SPARE) then
      ((d.lset n R.LNK_FL_MAP_SPARE 7).lset n R.LNK_FL_STATE_NO_SPARE 1).linkFault 0 n 0 else d
  else if (ph = 4 ∨ ph = 5) ∧ (c.locked &&& (31 - locked % 32)) ≠ 0 then d.enterPhase n 2 else d

/-- BACK_STATUS (R324, R330, R347): a STATUS block arrives: LOCKED, BLOCK_LOCKED, DESKEWED, SH_ERR, EYE_H, EYE_V; `bad` back-channel blocks have
been invalid since the last. -/
def execBackStatus (link locked blocks : Nat) (deskewed : Bool) (shErr eyeH eyeV bad : Nat) (s : State) : Host.Outcome State Fault Refusal :=
  event (fun d =>
    if link > 7 ∨ d.linkSt link = .off then d
    else
      let d := (d.lbump link R.LNK_FL_BK_ERR bad).statusLosses link locked
      let c := d.core link
      let d := d.setCore link { c with locked := locked % 32, blocks := blocks % 32, deskewed := deskewed, errs := c.errs + shErr }
      ((d.lset link R.LNK_FL_EYE (eyeH % 256 * 256 + eyeV % 256)).lbump link R.LNK_FL_SH_ERR (shErr % 65536)).lset link R.LNK_FL_STATE_BACK 1) s

/-- R324: a tap after a request (0 hold, 1 increase, 2 decrease) within its limits and the limit of the sum: the value and
what TRAIN reports (0 unchanged, 1 updated, 2 at limit). -/
def tapStep (v lo hi req room : Nat) : Nat × Nat :=
  match req with
  | 1 => if v < hi ∧ room > 0 then (v + 1, 1) else (v, 2)
  | 2 => if v > lo then (v - 1, 1) else (v, 2)
  | _ => (v, 0)

/-- EQ_REQ (R324, R326): a partner's equaliser request for a lane is applied, and answered with TRAIN. -/
def execEqReq (link lane : Nat) (done : Bool) (pre main post : Nat) (s : State) : Host.Outcome State Fault Refusal :=
  event (fun d =>
    if link > 7 ∨ lane > 4 ∨ d.lget link R.LNK_FL_STATE_PHASE ≠ 3 then d
    else
      let f := fun k => R.LNK_FL_EQ k lane
      let v := d.lget link f
      let (a, b, c) := (v % 16, v / 256 % 64, v / 65536 % 32)
      let (a1, ra) := tapStep a 0 15 pre (63 - (a + b + c))
      let (b1, rb) := tapStep b 16 63 main (63 - (a1 + b + c))
      let (c1, rc) := tapStep c 0 31 post (63 - (a1 + b1 + c))
      let d := d.lset link f (a1 + 256 * b1 + 65536 * c1)
      let k := d.core link
      let d := if done then d.setCore link { k with eqDone := k.eqDone ||| 2 ^ lane } else d
      d.send (.lane link lane (trainWord link lane 3 ra rb rc))) s

/-! Phases (R326, R327). -/

/-- R326: the condition to leave a phase holds. -/
def Dev.phaseDone (d : Dev) (n : Nat) : Bool :=
  let c := d.core n
  let good := c.locked &&& c.blocks
  match d.lget n R.LNK_FL_STATE_PHASE with
  | 1 => c.heard
  | 2 => decide (((List.range 5).filter (bit good)).length ≥ 3)
  | 3 => good &&& c.eqDone = good
  | 4 => c.deskewed
  | 5 => c.errs = 0
  | _ => false

/-- R326: a link moves to its next phase; the exit from DEEP skips EQUALISE (R337). -/
def Dev.phaseNext (d : Dev) (n : Nat) : Dev :=
  let ph := d.lget n R.LNK_FL_STATE_PHASE
  let c := d.core n
  match ph with
  | 2 =>
    if d.lget n R.LNK_FL_STATE_POWER = 2 then d.enterPhase n 4
    else
      let d := (List.range 5).foldl (fun d p => d.lset n (fun k => R.LNK_FL_EQ k p) (d.lget n fun k => R.LNK_FL_EQ_START k p)) d
      (d.setCore n { c with eqDone := 0 }).enterPhase n 3
  | 4 => (d.setCore n { c with errs := 0 }).lset n R.LNK_FL_STATE_PHASE 5
  | 5 => d.linkReachesOn n
  | _ => d.enterPhase n (ph + 1)

/-- R24, R320, R326: the lanes that a damper half trains over take their roles, for its marker rounds from DESKEW on: up to sixteen carry data, the
fixed ones first, the rest are spares; with fewer than sixteen the half is degraded. -/
def Dev.halfMap (d : Dev) (h : Nat) (lanes : List Nat) : Dev :=
  let n := min 16 lanes.length
  let role (d : Dev) (e : Nat × Nat) : Dev :=
    if e.2 < 16 then (d.wrBoth h (R.DMP_LANE_ROLE e.1) 0).wrBoth h (R.DMP_LANE_LOGICAL e.1) e.2
    else (d.wrBoth h (R.DMP_LANE_ROLE e.1) 1).wrBoth h (R.DMP_LANE_LOGICAL e.1) 0x3F
  let d := lanes.zipIdx.foldl role d
  let d := (d.wrBoth h (R.DMP_HALF_N h) n).wrBoth h (R.DMP_HALF_DEGRADED h) (b2n (n < 16))
  if n < 16 then (fromN (4 * h) 4).foldl (fun d k => d.wr (8 + h) (R.SCN_LINK_HALF (linkOn k)) 1) d else d

/-- R326, R26, R24: a damper half (8, 9) or the return lane (10) moves to its next phase; a half trains over its lanes that are not lost, D35 being the
return lane unless another is. -/
def Dev.damperPhase (d : Dev) (link : Nat) : Dev :=
  let h := link - 8
  let back := [d.dmp.ret, d.dmp.moving]
  let other := if d.dmp.ret.isNone then 35 else 36
  let lanes := if link = 10 then [35] else (halfLanes h).filter fun i => d.rd 0 (R.DMP_LANE_ROLE i) ≠ 3 && !back.contains (some i) && i != other
  let die := if link = 10 then 9 else 8 + h
  let ph := d.rd die (R.DMP_LANE_PHASE (lanes.headD 0))
  if ph = 0 ∨ ph ≥ 6 then d
  else
    let d := lanes.foldl (fun d i => (d.wr 0 (R.DMP_LANE_PHASE i) (ph + 1)).wr die (R.DMP_LANE_PHASE i) (ph + 1)) d
    if link = 10 then
      if ph + 1 < 6 then d
      else
        let d := [0, 9].foldl (fun d k => d.wr k (R.DMP_LANE_ROLE 35) 2) (d.wr 0 (R.DMP_LANE_LOCKED 35) 1)
        ({ d with dmp := { d.dmp with ret := some 35 } }).lockChanged 0
    else if ph + 1 = 4 then d.halfMap h lanes
    else if ph + 1 < 6 ∨ lanes.length < 12 then d
    else
      let d := (lanes.foldl (fun d i => d.wr die (R.DMP_LANE_LOCKED i) 1) d).wrBoth h (R.DMP_HALF_ON h) 1
      let d := d.lockChanged die
      let (v, d) := d.freeVal 16
      let credits := d.dmp.credits.mapIdx fun n c => if n / 4 = h then 128 else c
      ({ d with dmp := { d.dmp with credits := credits } }).wr die R.DMP_FWD_LATENCY (v % 3371)

/-- TRAIN_PHASE_ADVANCE (R326): the exit condition of a link's phase holds. -/
def execTrainPhaseAdvance (link : Nat) (s : State) : Host.Outcome State Fault Refusal :=
  event (fun d =>
    if link > 10 then d
    else if link > 7 then d.damperPhase link
    else if d.phaseDone link then d.phaseNext link else d) s

/-- R327: lanes working on an ON link. -/
def Dev.belowThree (d : Dev) (n : Nat) : Bool := d.lget n R.LNK_FL_STATE_PHASE = 6 && decide ((d.goodLanes n).length < 3)

/-- LINK_PHASE_TIMEOUT (R327): a phase times out, or an ON link falls below 3 working lanes. -/
def execLinkPhaseTimeout (link : Nat) (s : State) : Host.Outcome State Fault Refusal :=
  event (fun d =>
    let ph := d.lget link R.LNK_FL_STATE_PHASE
    if link > 7 then d
    else if (1 ≤ ph ∧ ph ≤ 5) ∨ d.belowThree link then d.enterListen link ph else d) s

/-- LISTEN_RETRY (R327, R339): the back-off expires and training retries at DETECT; a tap-test of the link suspends it. -/
def execListenRetry (link : Nat) (s : State) : Host.Outcome State Fault Refusal :=
  event (fun d =>
    let tapped := d.lnk.taps.any fun t => t.lane / 256 = 1 && t.lane % 256 / 5 = link
    if link > 7 ∨ d.lget link R.LNK_FL_STATE_PHASE ≠ 7 ∨ tapped then d else d.beginLink link) s

/-! Enabling and power (R328, R337, R342–R344). -/

/-- R342: LANES, FLAGS and PARTNER of a completion event. -/
def Dev.linkData (d : Dev) (n : Nat) : Bytes :=
  enc 1 (d.lget n R.LNK_FL_STATE_N) ++ enc 1 (d.lget n R.LNK_FL_STATE_DEGRADED + 2 * d.lget n R.LNK_FL_STATE_NO_SPARE)
    ++ enc 2 (d.lget n R.LNK_FL_PARTNER_HI_ID) ++ enc 4 (d.lget n R.LNK_FL_PARTNER_LO)

/-- R337: the pending power request of a link ends. -/
def Dev.powerGone (d : Dev) (n st rs : Nat) : Dev :=
  match amGet d.lnk.power n (0, none) with
  | (_, some c) => ({ d with lnk := { d.lnk with power := amDel d.lnk.power n } }).complete c st rs
  | (_, none) => { d with lnk := { d.lnk with power := amDel d.lnk.power n } }

/-- R328: a link's STOPPING begins. -/
def Dev.stopLink (d : Dev) (n : Nat) : Dev := d.powerGone n St.badState Rs.aborted

/-- What the gate must know of LINK_ENABLE. -/
def specLinkEnable : OpSpec :=
  { op := 0x3000, len := (· = 4), check := fun _ _ p => failIf [
      (decide (u8 p 0 > 7) || decide (u8 p 1 > 1), 0), (!zero? p 2 2, Rs.reserved)] }

/-- LINK_ENABLE (R342, R328). -/
def execLinkEnable (h : Hdr) (p : Bytes) (s : State) : Host.Outcome State Fault Refusal :=
  anvil specLinkEnable h p (.linkEnable h p)
    (fun c d =>
      let n := u8 p 0
      let on := decide (u8 p 1 = 1)
      if ¬ on ∧ d.linkRegionState n ≠ .off then (d, .bad St.badState Rsk.inUse)
      else
        let (d, rep, begins) := d.requestFlue h [linkDie n] (FnId.link n) on true c
        let d := if begins then (if on then d.beginLink n else d.stopLink n) else d.listenFails n
        (d, rep)) s

/-- LINK_TRANSITION_DONE (R328): a link reaches ON, or its STOPPING reaches electrical idle, or its start fails in LISTEN. -/
def execLinkTransitionDone (link : Nat) (s : State) : Host.Outcome State Fault Refusal :=
  event (fun d =>
    let ph := d.lget link R.LNK_FL_STATE_PHASE
    if link > 7 then d
    else match d.linkSt link with
      | .starting =>
        if ph = 6 then
          let (d, next) := d.fnDone (FnId.link link) (d.linkData link)
          if next.isSome then d.stopLink link else d
        else d.listenFails link
      | .stopping =>
        let d := (d.markerRound link).lset link R.LNK_FL_STATE_PHASE 0
        let d := (((d.lset link R.LNK_FL_STATE_POWER 0).lset link R.LNK_FL_STATE_N 0).lset link R.LNK_FL_STATE_DEGRADED 0).wr (linkDie link)
          (R.SCN_LINK_HALF (linkOn link)) 0
        let (d, next) := d.fnDone (FnId.link link)
        if next.isSome then d.beginLink link else d
      | _ => d) s

/-- What the gate must know of LINK_STATUS. -/
def specLinkStatus : OpSpec :=
  { op := 0x3001, len := (· = 4), check := fun _ _ p => failIf [(decide (u8 p 0 > 7), 0), (!zero? p 1 3, Rs.reserved)] }

/-- LINK_STATUS (R343). -/
def execLinkStatus (h : Hdr) (p : Bytes) (s : State) : Host.Outcome State Fault Refusal :=
  anvil specLinkStatus h p (.linkStatus h p)
    (fun _ d => d.flueRead h [linkDie (u8 p 0)] fun d =>
      let n := u8 p 0
      let map := (rfGet d.regs (regAddr (linkDie n) (R.LNK_FL_MAP_LOGICAL (linkOn n)).off)).toNat
      (d, .done (enc 1 (d.lget n R.LNK_FL_STATE_PHASE) ++ enc 1 (d.linkSt n).num
        ++ enc 1 (d.lget n R.LNK_FL_STATE_DEGRADED + 2 * d.lget n R.LNK_FL_STATE_NO_SPARE + 4 * d.lget n R.LNK_FL_STATE_BACK + 8 * b2n (d.linkHalf n))
        ++ enc 1 (d.lget n R.LNK_FL_STATE_POWER) ++ enc 4 map ++ enc 2 (d.lget n R.LNK_FL_PARTNER_HI_ID) ++ enc 4 (d.lget n R.LNK_FL_PARTNER_LO)
        ++ enc 1 (d.lget n R.LNK_FL_PARTNER_HI_CAPS) ++ zeros 1 ++ enc 2 (d.lget n R.LNK_FL_EYE) ++ enc 2 (d.lget n R.LNK_FL_BACKOFF)
        ++ enc 4 (d.lget n R.LNK_FL_SWITCHES) ++ enc 4 (d.lget n R.LNK_FL_LISTENS) ++ enc 4 (d.lget n R.LNK_FL_SH_ERR)))) s

/-- R337: a link may leave ACTIVE. -/
def Dev.mayRest (d : Dev) (n : Nat) : Bool := d.linkRegionState n = .off || d.retainSt = .on

/-- What the gate must know of LANE_POWER. -/
def specLanePower : OpSpec :=
  { op := 0x3002, len := (· = 4), check := fun _ _ p => failIf [
      (decide (u8 p 0 > 7) || decide (u8 p 1 > 2), 0), (!zero? p 2 2, Rs.reserved)] }

/-- LANE_POWER (R344, R337). -/
def execLanePower (h : Hdr) (p : Bytes) (s : State) : Host.Outcome State Fault Refusal :=
  anvil specLanePower h p (.lanePower h p)
    (fun c d =>
      let n := u8 p 0
      if d.linkSt n ≠ .on then (d, .bad St.badState 0)
      else if u8 p 1 ≠ 0 ∧ ¬ d.mayRest n then (d, .bad St.badState Rsk.inUse)
      else
        let (_, d, r) := d.flueWrites h [linkDie n] [()] (fun _ => (linkDie n, none)) fun d _ => d
        match r with
        | some r => d.acceptedFail c r
        | none => (d.powerAsk n (u8 p 1) (some c), .accepted)) s

/-- LANE_POWER_DONE (R337): a link reaches the power state requested. -/
def execLanePowerDone (link : Nat) (s : State) : Host.Outcome State Fault Refusal :=
  event (fun d =>
    match d.lnk.power.find? (·.1 = link) with
    | none => d
    | some (_, target, _) =>
      if d.lget link R.LNK_FL_STATE_POWER = 2 ∧ target ≠ 2 ∧ d.lget link R.LNK_FL_STATE_PHASE ≠ 6 then d
      else (d.lset link R.LNK_FL_STATE_POWER target).powerGone link St.done 0) s

/-- SLEEP_BURST (R337): a sleeping link sends its burst of IDLE with a marker round. -/
def execSleepBurst (link : Nat) (s : State) : Host.Outcome State Fault Refusal :=
  event (fun d => if link < 8 ∧ d.linkIsOn link ∧ d.lget link R.LNK_FL_STATE_POWER = 1 then d.markerRound link else d) s

/-! Spare switch-over and re-striping (R330–R335). -/

/-- R330, R332, R333, R335: the map a marker round of an ON link carries; each lane lost is a block-level fault (R18). -/
def Dev.remap (d : Dev) (n : Nat) : Dev :=
  let lanes := d.lget n R.LNK_FL_STATE_N
  let failed := d.lget n R.LNK_FL_MAP_FAILED
  let spare := d.lget n R.LNK_FL_MAP_SPARE
  let phys := (List.range lanes).map (d.mapOf n)
  let lost := phys.filter fun p => bit failed p
  if lost = [] then
    if lanes = 3 ∧ spare < 5 then
      let other := ((d.goodLanes n).find? fun p => !phys.contains p && p != spare).getD 7
      (((d.setMap n (phys ++ [spare]) other).lset n R.LNK_FL_STATE_DEGRADED 0).nextGen n).lbump n R.LNK_FL_RESTRIPES
    else d
  else if (d.goodLanes n).length < 3 then d
  else
    let swap := decide (spare < 5)
    let first := lost.headD 0
    let phys := if swap then phys.map fun p => if p = first then spare else p else phys
    let rest := phys.filter fun p => !bit failed p
    let d := lost.foldl (fun d _ => d.linkFault 1 n 1) ((d.setMap n rest 7).nextGen n)
    let d := if swap then
        let d := (d.lbump n R.LNK_FL_SWITCHES).flueEvent (n / 4) (linkSource n)
        { d with ras := { d.ras with flags := d.ras.flags.modify n (· ||| 2) } }
      else d
    if rest.length < lanes then
      ((d.lbump n R.LNK_FL_RESTRIPES).lset n R.LNK_FL_STATE_DEGRADED 1).wr (linkDie n) (R.SCN_LINK_HALF (linkOn n)) 1
    else d

/-- MARKER_ROUND (R321, R330, R333, R335): a marker round of a link (0–7), a damper half (8, 9) or the return lane (10). -/
def execMarkerRound (link : Nat) (s : State) : Host.Outcome State Fault Refusal :=
  event (fun d =>
    if link > 10 then d
    else if link > 7 then
      (if link < 10 ∧ d.rd 0 (R.DMP_HALF_ON (link - 8)) = 1 then d.halfRemap (link - 8) else d).damperMarkers link
    else if d.linkActive link then (d.remap link).markerRound link
    else if d.lget link R.LNK_FL_STATE_PHASE = 4 ∨ d.lget link R.LNK_FL_STATE_PHASE = 5 then d.markerRound link else d) s

/-- LANE_RETRAIN (R332): a lost lane of an ON link (0–7), or of a damper half (8, 9), has retrained alone; one that passes
becomes the spare, or the return lane where there is none (R24). -/
def execLaneRetrain (link lane : Nat) (pass : Bool) (s : State) : Host.Outcome State Fault Refusal :=
  event (fun d =>
    if ¬ pass ∨ link > 9 then d
    else if link > 7 then
      let h := link - 8
      let die := 8 + h
      if lane > 35 ∨ d.rd 0 (R.DMP_LANE_ROLE lane) ≠ 3 ∨ ¬((fromN (16 * h) 16) ++ [32 + 2 * h, 33 + 2 * h]).contains lane then d
      else
        let d := [0, die].foldl (fun d k => (d.wr k (R.DMP_LANE_ROLE lane) 1).wr k (R.DMP_LANE_PHASE lane) 6) d
        let d := (d.wr die (R.DMP_LANE_LOCKED lane) 1).lockChanged die
        if lane < 32 then d else d.returnNeeded
    else if lane > 4 ∨ ¬ d.linkIsOn link ∨ ¬ bit (d.lget link R.LNK_FL_MAP_FAILED) lane then d
    else
      let d := d.lset link R.LNK_FL_MAP_FAILED (d.lget link R.LNK_FL_MAP_FAILED - 2 ^ lane)
      if d.lget link R.LNK_FL_MAP_SPARE = 7 then (d.lset link R.LNK_FL_MAP_SPARE lane).lset link R.LNK_FL_STATE_NO_SPARE 0 else d) s

/-- LINK_STARTUP_SEQUENCE (R329): the firmware's next step at start-up: the damper's training, then FL0 to FL7 in order; a
link whose damper half is not ON is left out (R523). -/
def execLinkStartupSequence (s : State) : Host.Outcome State Fault Refusal :=
  event (fun d =>
    let k := d.lnk.startup
    if k = 0 then
      let d := (List.range 36).foldl (fun d i =>
        let die := if i < 16 ∨ i = 32 ∨ i = 33 then 8 else 9
        if d.rd 0 (R.DMP_LANE_PHASE i) = 0 then (d.wr 0 (R.DMP_LANE_PHASE i) 1).wr die (R.DMP_LANE_PHASE i) 1 else d) d
      { d with lnk := { d.lnk with startup := 1 } }
    else if k > 8 then d
    else
      let n := k - 1
      let d := { d with lnk := { d.lnk with startup := k + 1 } }
      if d.linkSt n = .off ∧ d.rd 0 (R.DMP_HALF_ON (n / 4)) = 1 then (d.setFn (FnId.link n) { st := .starting }).beginLink n else d) s

/-! Eye scan and tap-test (R338–R340, R345, R346). -/

/-- R341: a lane field names a lane. -/
def laneOk (l : Nat) : Bool :=
  let i := l % 256
  match l / 256 with
  | 0 => i ≤ 16
  | 1 => i < 40
  | 2 => i < 36
  | 3 => i < 8
  | _ => false

/-- R439: the lane (family × 256 + index) of an element of LANE_OFFSET. -/
def trimLane (b : Nat) : Nat := if b < 17 then b else if b < 25 then 3 * 256 + (b - 17) else 2 * 256 + (b - 25)

/-- R338, R439: a trim job in progress uses the offset sampler of a lane. -/
def Dev.trimUses (d : Dev) (l : Nat) : Bool :=
  match d.trm.running with
  | some j => j.q = 3 && (List.range 61).any fun b => bit j.mask b && trimLane b = l
  | none => false

/-- R338: an eye scan or tap-test uses the lane's offset sampler. -/
def Dev.samplerTaken (d : Dev) (l : Nat) : Bool := d.lnk.scans.any (·.lane = l) || d.lnk.taps.any (·.lane = l)

/-- R338: the lane's offset sampler is in use. -/
def Dev.samplerBusy (d : Dev) (l : Nat) : Bool := d.samplerTaken l || d.trimUses l

/-- R36, R341: the flue die that a lane's receiver, or its tap, is on; none for those on the Mantel die. -/
def Dev.laneDies (d : Dev) (l : Nat) : List Nat :=
  let i := l % 256
  match l / 256 with
  | 1 => [linkDie (i / 5)]
  | 2 => if d.dmp.ret = some i then [] else [8 + laneHalf i]
  | 3 => [linkDie i]
  | _ => []

/-- What the gate must know of EYE_SCAN. -/
def specEyeScan : OpSpec :=
  { op := 0x3003, len := (· = 12), check := fun s _ p => failIf [
      (!laneOk (u16 p 0) || decide (u8 p 2 > 1) || decide (u8 p 3 < 16) || decide (u8 p 3 > if u8 p 2 = 1 then 24 else 30)
        || (u8 p 2 ≠ 1 && (u16 p 4 ≠ 0 || u32 p 8 ≠ 0)), 0),
      (u16 p 0 / 256 = 1, Rsk.noReceiver), (!zero? p 6 2, Rs.reserved), (u8 p 2 = 1 && (s.heap.buf (u16 p 4)).isNone, Rs.noBuffer),
      (u8 p 2 = 1 && (bufCheck s.heap (u16 p 4) (u32 p 8) 65280).isSome, Rs.bufferRange)] }

/-- EYE_SCAN (R345). -/
def execEyeScan (h : Hdr) (p : Bytes) (s : State) : Host.Outcome State Fault Refusal :=
  let map := u8 p 2 = 1
  anvil specEyeScan h p (.eyeScan h p)
    (fun c d =>
      if ¬ (d.laneDies (u16 p 0)).all d.flueUp then d.acceptedFail c (.bad St.fault 0)
      else if d.samplerBusy (u16 p 0) then (d, .bad St.badState Rsk.samplerBusy)
      else
        let x : Scan := ⟨c, u16 p 0, map, u16 p 4, u32 p 8⟩
        ({ d with lnk := { d.lnk with scans := d.lnk.scans ++ [x] } }, .accepted)) s

/-- EYE_SCAN_DONE (R338): a scan finishes with its margins, and in MAP mode its error counts. -/
def execEyeScanDone (lane left right top bottom : Nat) (counts : List Nat) (s : State) : Host.Outcome State Fault Refusal :=
  hearthEventH (fun hp d =>
    match d.lnk.scans.find? (·.lane = lane) with
    | none => (hp, d)
    | some x =>
      let d := { d with lnk := { d.lnk with scans := d.lnk.scans.filter (·.lane ≠ lane) } }
      let lost := x.map && (match hp.buf x.buffer with | some o => o.lost | none => true)
      if lost then (hp, d.complete x.cmd St.fault Rs.bufferLost)
      else
        let bytes := ((List.range 16320).map fun i => encLe 4 (counts.getD i 0)).flatten
        let hp := if x.map then hp.write x.buffer x.offset bytes else hp
        (hp, d.complete x.cmd St.done 0 (enc 1 left ++ enc 1 right ++ enc 1 top ++ enc 1 bottom))) s

/-- R338: a lane lost during a scan ends the scan with FAULT. -/
def Dev.scanLost (d : Dev) (lane : Nat) : Dev :=
  let gone : List Scan := d.lnk.scans.filter fun x => x.lane = lane
  ({ d with lnk := { d.lnk with scans := d.lnk.scans.filter fun x => x.lane ≠ lane } }).completeAll (gone.map Scan.cmd) St.fault 0

/-- R339: a lane is idle: its link or port is OFF or in LISTEN. -/
def Dev.laneIdle (d : Dev) (l : Nat) : Bool :=
  if l / 256 = 1 then let n := l % 256 / 5; d.linkSt n = .off || d.lget n R.LNK_FL_STATE_PHASE = 7
  else l % 256 < 16 && (d.fn (FnId.port (l % 256 / 4))).st = .off

/-- What the gate must know of TAP_TEST. -/
def specTapTest : OpSpec :=
  { op := 0x3004, len := (· = 12), check := fun s _ p => failIf [
      (!laneOk (u16 p 0) || decide (u16 p 2 < 0x8000) || decide (u16 p 6 < 0x200) || decide (u16 p 6 > 0x4000), 0),
      (decide (u16 p 0 / 256 > 1), Rsk.noTap), (u16 p 4 ≠ 0 && (s.heap.buf (u16 p 4)).isNone, Rs.noBuffer),
      (u16 p 4 ≠ 0 && (bufCheck s.heap (u16 p 4) (u32 p 8) 4096).isSome, Rs.bufferRange)] }

/-- TAP_TEST (R346). -/
def execTapTest (h : Hdr) (p : Bytes) (s : State) : Host.Outcome State Fault Refusal :=
  let b := u16 p 4
  anvil specTapTest h p (.tapTest h p)
    (fun c d =>
      if ¬ (d.laneDies (u16 p 0)).all d.flueUp then d.acceptedFail c (.bad St.fault 0)
      else if ¬ d.laneIdle (u16 p 0) then (d, .bad St.badState Rsk.notIdle)
      else if d.samplerBusy (u16 p 0) then (d, .bad St.badState Rsk.samplerBusy)
      else
        let x : Tap := ⟨c, u16 p 0, u16 p 2, b, u16 p 6, u32 p 8⟩
        ({ d with lnk := { d.lnk with taps := d.lnk.taps ++ [x] } }, .accepted)) s

/-- R339: the distance of `k / 2` points in µm, as a quotient: 4 UI a point, at half the speed of light times VF. -/
def tapDist (lane vf k : Nat) : Nat × Nat :=
  let rate := if lane / 256 = 1 then 28125000000 else 25781250000
  (k * 4 * 299792458 * 1000000 * vf, rate * 4 * 65536)

/-- R339, R340: the findings of a trace: points where ρ changes by more than THRESH, at the half-change point. -/
def tapFindings (x : Tap) (rho : List Int) : List (Nat × Int × Nat) :=
  (List.range 2048).filterMap fun k =>
    let v := rho.getD k 0
    let was := if k = 0 then 0 else rho.getD (k - 1) 0
    if (v - was).natAbs ≤ x.thresh then none
    else
      let (n, m) := tapDist x.lane x.vf (2 * k + 1)
      let kind := if v * 10 ≥ 8 * 32768 then 1 else if v * 10 ≤ -8 * 32768 then 2 else if v > was then 3 else 4
      some ((roundDiv n (m * 1000)).toNat, v, kind)

/-- TAP_TEST_DONE (R340): a tap-test finishes with its trace of 2,048 reflection coefficients (Q1.15). -/
def execTapTestDone (lane : Nat) (rho : List Int) (s : State) : Host.Outcome State Fault Refusal :=
  hearthEventH (fun hp d =>
    match d.lnk.taps.find? (·.lane = lane) with
    | none => (hp, d)
    | some x =>
      let d := { d with lnk := { d.lnk with taps := d.lnk.taps.filter (·.lane ≠ lane) } }
      let n := lane % 256 / 5
      let d := if lane / 256 = 1 ∧ d.lget n R.LNK_FL_STATE_PHASE = 7 ∧ (d.core n).heard then d.lset n R.LNK_FL_STATE_PHASE 1 else d
      let lost := x.buffer ≠ 0 && (match hp.buf x.buffer with | some o => o.lost | none => true)
      if lost then (hp, d.complete x.cmd St.fault Rs.bufferLost)
      else
        let rho := (List.range 2048).map fun k => satS 16 (rho.getD k 0)
        let hp := if x.buffer = 0 then hp else hp.write x.buffer x.offset (rho.map fun v => encLe 2 (twos 16 v)).flatten
        let fs := tapFindings x rho
        let (sn, sm) := tapDist x.lane x.vf 2
        let (fn, fm) := tapDist x.lane x.vf 4096
        (hp, d.complete x.cmd St.done 0 (enc 1 (min 8 fs.length) ++ enc 1 (b2n (decide (fs.length > 8)))
          ++ enc 4 (roundDiv sn sm).toNat ++ enc 4 (roundDiv fn (fm * 1000)).toNat
          ++ ((fs.take 8).map fun e => enc 4 e.1 ++ enc 2 (twos 16 e.2.1) ++ enc 1 e.2.2 ++ zeros 1).flatten))) s

end Sys2Proof.Machine
end

