-- ==== Sys2Proof/Machine/Anvil.lean ====
section
/-! DEFINITION. The device class of Anvil (R60–R68), the control port (R45, R46) and the timeouts of sessions and
fragments (R44, R48, R49). -/

namespace Sys2Proof.Machine

/-! Device class. -/

/-- R60: DIES: the dies present and not failed. -/
def Dev.diesByte (d : Dev) : Nat :=
  1 + (List.range 4).foldl (fun n i => n + (if d.hobUp (i + 1) then 2 ^ (i + 1) else 0)) 0
    + (List.range 2).foldl (fun n i => n + (if d.pwr.flueUp.getD i false && !d.thm.fluHalt.getD i false then 2 ^ (5 + i) else 0)) 0

/-- What the gate must know of IDENTITY. -/
def specIdentity : OpSpec :=
  { op := 0x0001, len := (· = 0) }

/-- IDENTITY (R60). -/
def execIdentity (h : Hdr) (p : Bytes) (s : State) : Host.Outcome State Fault Refusal :=
  anvil specIdentity h p (.identity h p)
    (fun _ d => (d, .done (enc 4 0x564F524C ++ enc 2 0x0880 ++ enc 1 0xB0 ++ enc 3 0x020401
      ++ enc 2 (d.tnk.patchOf.getD d.tnk.active 0) ++ enc 8 Config.serial.toNat ++ enc 2 d.anvil.stackId ++ enc 1 (if d.pwr.ready then d.mode else 0)
      ++ enc 1 d.diesByte))) s

/-- R61: a contained fault stands while the device is READY: a failed hob die or Tinker core, a die on SPARE, a damper
half that is not ON, a grate taken offline by faults (log entry 20). -/
def Dev.contained (d : Dev) : Bool :=
  d.fab.failed.any id || d.tnk.failed.any id || ([0] ++ hobDies ++ flueDies).any (fun k => d.rd k R.CLK_STATE_SRC = 1)
  || [0, 1].any (fun f => d.rd 0 (R.DMP_HALF_ON f) = 0) || d.syn.faulted ≠ []

/-- R61: the byte of SESSIONS of a session. -/
def Session.byte (s : Session) : Nat :=
  if ¬ s.isOpen then 0
  else 128 + 64 * b2n s.auth + 16 * (match s.route with | .mgmt _ _ => 0 | .media _ _ _ _ => 1 | .cp => 2)

/-- What the gate must know of STATUS. -/
def specStatus : OpSpec :=
  { op := 0x0002, len := (· = 0) }

/-- STATUS (R61). -/
def execStatus (h : Hdr) (p : Bytes) (s : State) : Host.Outcome State Fault Refusal :=
  anvil specStatus h p (.status h p)
    (fun c d =>
      let st := if ¬ d.pwr.ready then 0 else if d.pwr.safe then 3 else if d.contained then 2 else 1
      (d, .done (enc 1 st ++ enc 1 (if d.pwr.ready then 0 else d.pwr.stage) ++ enc 2 (min d.elapsedMs 65535)
        ++ ((List.range 4).map fun n => enc 1 (d.sess n).byte).flatten
        ++ ((List.range 4).map fun n => enc 2 (d.inFlightOf n).length).flatten
        ++ enc 4 d.pwr.faults ++ enc 2 (if c.who < 4 then (d.sess c.who).evSeq else 0)))) s

/-- R62, R64: waiting commands are answered BAD_STATE, ABORTED. -/
def Dev.abortWaiting (d : Dev) (gone : List Instr) : Dev :=
  gone.foldl (fun d i =>
    match d.anvil.inFlight.find? fun c => some c.h = i.hdr? with
    | some c => d.finalReply c St.badState Rs.aborted []
    | none => d) d

/-- What the gate must know of ABORT. -/
def specAbort : OpSpec :=
  { op := 0x0003, len := (· = 4), check := fun _ _ p => failIf [(decide (u8 p 0 > 1), 0), (!zero? p 1 1, Rs.reserved)] }

/-- ABORT (R62): waiting commands, stored requests, deferred frees (R182) and queued trim jobs (R441) of the sender. -/
def execAbort (h : Hdr) (p : Bytes) (s : State) : Host.Outcome State Fault Refusal :=
  anvil specAbort h p (.abort h p)
    (fun c d =>
      let named (q : Nat) : Bool := u8 p 0 = 0 || q = u16 p 2
      let (gone, stored, d) := d.withdraw (fun k => k.who = c.who && k.epoch = c.epoch && named k.h.seq)
        (fun i => sentBy c.who i && (match i.hdr? with | some g => named g.seq | none => false))
      let d := (d.abortWaiting gone).completeAll stored St.badState Rs.aborted
      let run := ((d.inFlightOf c.who).filter fun k => k ≠ c).length
      (d, .done (enc 2 (gone.length + stored.length) ++ enc 2 run))) s

/-- R49: SK. -/
def sessionKey (k hostNonce devNonce : Bytes) (n : Nat) : Bytes :=
  hmac k ([0x41, 0x4E, 0x56, 0x4C] ++ hostNonce ++ devNonce ++ enc 1 n)

/-- R49, R65: an opcode accepted only on the control port. -/
def localOnly (_ : Dev) (h : Hdr) (_ : Bytes) : Option Nat := if h.route ≠ .cp then some Rs.localOnly else none

/-- R63: the session an open command gets, or the reason why none. -/
def Dev.pickSession (d : Dev) (req : Nat) : Except Nat Nat :=
  if req ≠ 0xFF then (if (d.sess req).isOpen then .error Rs.sessionInUse else .ok req)
  else match (List.range 4).find? fun n => !(d.sess n).isOpen with
    | some n => .ok n
    | none => .error Rs.sessionLimit

/-- What the gate must know of SESSION_OPEN. -/
def specSessionOpen : OpSpec :=
  { op := 0x0004, len := (· = 24), check := fun s _ p => failIf [
      (!(decide (u8 p 0 ≤ 3) || u8 p 0 = 0xFF) || decide (u8 p 1 > 1) || decide (u8 p 2 > 3), 0),
      (!zero? p 3 1 || !zero? p 6 2, Rs.reserved), (u16 p 4 = 0 || decide (u16 p 4 > 600), 0),
      (u8 p 1 = 1 && ((s.dev.anvil.slots.getD (u8 p 2) {}).key).isNone, 0)]
    auth := fun d h p =>
      if decide (p.length > 1) && u8 p 1 = 0 && h.route ≠ .cp && d.anvil.slots.any (fun k => k.policy % 2 = 1) then some Rs.authRequired
      else none }

/-- SESSION_OPEN (R63, R48–R51): with AUTH 1 the reply carries a MAC under the new SK. -/
def execSessionOpen (h : Hdr) (p : Bytes) (s : State) : Host.Outcome State Fault Refusal :=
  anvil specSessionOpen h p (.sessionOpen h p)
    (fun c d =>
      match d.pickSession (u8 p 0) with
      | .error r => (d, .bad St.noResource r)
      | .ok n =>
          let dn := enc 16 (Config.nonce d.free).toNat
          let d := { d with free := d.free + 1 }
          let auth := u8 p 1 = 1
          let sk := if auth then sessionKey (((d.anvil.slots.getD (u8 p 2) {}).key).getD []) (slice p 8 16) dn n else []
          let d := d.setSess n {
            isOpen := true, auth := auth, usable := !auth, route := h.route, slot := u8 p 2, sk := sk, high := h.seq
            idle := u16 p 4, lastValid := d.stamp, epoch := (d.sess n).epoch }
          let data := enc 1 n ++ zeros 3 ++ dn
          if auth then
            let d := { d with anvil := { d.anvil with inFlight := d.anvil.inFlight.erase c } }
            (d.replyRaw h 0x0004 St.done 0 data (some sk), .later)
          else (d, .done data)) s

/-- What the gate must know of SESSION_CLOSE. -/
def specSessionClose : OpSpec :=
  { op := 0x0005, len := (· = 0) }

/-- SESSION_CLOSE (R64): the reply first, then the session closes. -/
def execSessionClose (h : Hdr) (p : Bytes) (s : State) : Host.Outcome State Fault Refusal :=
  anvil specSessionClose h p (.sessionClose h p)
    (fun c d => if c.who > 3 then (d, .bad St.badState Rs.noSession) else ((d.finalReply c St.done 0 []).closeSession c.who, .later)) s

/-- What the gate must know of KEY_SET. -/
def specKeySet : OpSpec :=
  { op := 0x0006, len := (· = 36), auth := localOnly, check := fun _ _ p => failIf [
      (decide (u8 p 0 > 3) || decide (u8 p 1 > 1), 0), (!zero? p 2 2, Rs.reserved)] }

/-- KEY_SET (R65, R50): every session that uses the slot closes. -/
def execKeySet (h : Hdr) (p : Bytes) (s : State) : Host.Outcome State Fault Refusal :=
  anvil specKeySet h p (.keySet h p)
    (fun c d =>
      let key := slice p 4 32
      let k : KeySlot := if zero? key 0 32 then {} else { key := some key, policy := u8 p 1 }
      let d := { d with anvil := { d.anvil with slots := d.anvil.slots.set (u8 p 0) k } }
      let d := d.finalReply c St.done 0 []
      ((List.range 4).foldl (fun d n => if (d.sess n).isOpen && (d.sess n).auth && (d.sess n).slot = u8 p 0 then d.closeSession n else d) d,
        .later)) s

/-- What the gate must know of STACK_SET. -/
def specStackSet : OpSpec :=
  { op := 0x0007, len := (· = 132), check := fun _ h p => failIf [
      (h.tmode ≠ 0 || decide (u16 p 0 > 16383), 0), (!zero? p 2 2, Rs.reserved)] }

/-- STACK_SET (R66): the new ID and groups apply once the reply is sent. -/
def execStackSet (h : Hdr) (p : Bytes) (s : State) : Host.Outcome State Fault Refusal :=
  anvil specStackSet h p (.stackSet h p)
    (fun c d =>
      let d := d.finalReply c St.done 0 []
      let groups := (List.range 1024).filter fun g => bit (u8 p (4 + g / 8)) (g % 8)
      ({ d with anvil := { d.anvil with stackId := u16 p 0, groups := groups } }, .later)) s

/-- What the gate must know of EVENT_SELECT. -/
def specEventSelect : OpSpec :=
  { op := 0x0009, len := (· = 4) }

/-- EVENT_SELECT (R68). -/
def execEventSelect (h : Hdr) (p : Bytes) (s : State) : Host.Outcome State Fault Refusal :=
  anvil specEventSelect h p (.eventSelect h p)
    (fun c d =>
      let se := d.sess c.who
      (d.setSess c.who { se with mask := u32 p 0 }, .done (enc 4 se.mask))) s

/-- What the gate must know of EVENT_REPLAY. -/
def specEventReplay : OpSpec :=
  { op := 0x000A, len := (· = 2) }

/-- EVENT_REPLAY (R68): the held event packets from FROM on are sent again, unchanged. -/
def execEventReplay (h : Hdr) (p : Bytes) (s : State) : Host.Outcome State Fault Refusal :=
  anvil specEventReplay h p (.eventReplay h p)
    (fun c d =>
      let se := d.sess c.who
      let n := se.events.length
      let oldest := (se.evSeq + 65536 - n) % 65536
      let off := (u16 p 0 + 65536 - oldest) % 65536
      if off > n then (d, .reply St.badParam Rs.eventsLost (enc 2 oldest))
      else ((se.events.drop off).foldl (fun d e => d.sendPkt se.route e 0) d, .done (enc 2 (n - off)))) s

/-! Packets from the wire. -/

/-- R38–R40: a packet as received: header, opcode and parameters; none if it is malformed. -/
def parsePkt (route : Route) (b : Bytes) : Option (Hdr × Nat × Bytes) :=
  let len := u16 b 10
  let flags := u8 b 3
  let mac := bit flags 5
  if b.length < 20 ∨ u16 b 0 ≠ 0x5654 ∨ len > 4096 ∨ b.length ≠ 20 + len + (if mac then 32 else 0) then none
  else if withCrc (b.take (16 + len)) ≠ b.take (20 + len) ∨ bit flags 7 ∨ bit flags 6 then none
  else
    some ({ route := route, version := u8 b 2, noSession := bit flags 4, ordered := bit flags 3, quiet := bit flags 2
            session := flags % 4, seq := u16 b 6, tmode := u16 b 8 / 16384, tid := u16 b 8 % 16384, tag := u32 b 12
            mac := if mac then some (b.drop (20 + len)) else none, answered := none }, u16 b 4, (b.drop 16).take len)

/-! The control port (R45, R46). -/

/-- R46, R450: IRQ_N is driven low while the outbound queue is not empty, and held low once the device has no core left. -/
def Dev.irqLow (d : Dev) : Bool := d.cp.outbound ≠ [] || d.tnk.noManage

/-- R45, R56: the port takes no transaction. -/
def Dev.cpSilent (d : Dev) : Bool := d.pwr.hearthHeld || d.thm.shutdown || decide (d.elapsedMs < 5)

/-- The bytes of inbound packets held (R46). -/
def Cp.inFill (c : Cp) : Nat := c.inbound.foldl (fun n b => n + b.length) 0

/-- R45, R46: the end of a WRITE. -/
def Dev.cpWrite (d : Dev) (b : Bytes) : Dev :=
  if d.cp.inFill + b.length > 16384 then { d with cp := { d.cp with full := true, dropped := true } }
  else if (parsePkt .cp b).isNone then ({ d with cp := { d.cp with dropped := true } }).bump 0 R.TNK_AV_FRAMING
  else { d with cp := { d.cp with inbound := d.cp.inbound ++ [b] } }

/-- R45: a READ in which the host clocks `n` bytes. -/
def Dev.cpRead (d : Dev) (n : Nat) : Dev :=
  match d.cp.outbound with
  | [] => d.send (.sdo (zeros n))
  | p :: rest =>
    let b := enc 2 p.size ++ p.bytes
    let d := d.send (.sdo (slice b 0 n))
    if n ≥ b.length then { d with cp := enqueueHeld (d.cp.held.length + 1) { d.cp with outbound := rest } } else d

/-- R45: the STATUS byte; reading it clears bit 2. -/
def Dev.cpStatus (d : Dev) : Dev :=
  let v := b2n (decide (d.cp.outbound ≠ [])) + 2 * b2n d.cp.full + 4 * b2n d.cp.dropped + 8 * b2n d.pwr.ready
    + 16 * (if d.pwr.ready then 0 else d.pwr.stage)
  { d.send (.sdo (enc 1 v)) with cp := { d.cp with dropped := false } }

/-- R45: one transaction by its first byte; `b` is what follows on CP_SDI and `n` how many bytes are clocked. -/
def Dev.cpTransaction (d : Dev) (first : Nat) (b : Bytes) (n : Nat) : Dev :=
  if d.cpSilent then d
  else match first with
    | 2 => d.cpWrite b
    | 3 => d.cpRead n
    | 5 => d.cpStatus
    | _ => d.bump 0 R.TNK_CP_ABANDON

/-- CP_WRITE (R45, R46): a transaction with the bytes that followed its first one. -/
def execCpWrite (first : Nat) (data : Bytes) (s : State) : Host.Outcome State Fault Refusal :=
  event (fun d => d.cpTransaction first data data.length) s

/-- CP_READ (R45): a transaction that clocks a number of bytes after the first. -/
def execCpRead (first clocked : Nat) (s : State) : Host.Outcome State Fault Refusal :=
  event (fun d => d.cpTransaction first (zeros clocked) clocked) s

/-- CP_STATUS (R45). -/
def execCpStatus (first : Nat) (s : State) : Host.Outcome State Fault Refusal :=
  event (fun d => d.cpTransaction first [] 1) s

/-- CP_ABANDON (R46): CP_CS_N stayed low with no CP_SCK edge for 1 ms: counted once; an incomplete WRITE is dropped,
counted and flagged, a READ keeps its packet unless it was clocked whole. -/
def execCpAbandon (first : Nat) (data : Bytes) (s : State) : Host.Outcome State Fault Refusal :=
  event (fun d => if d.cpSilent then d
    else (if first = 2 ∨ first = 3 then d.cpTransaction first data data.length else d).bump 0 R.TNK_CP_ABANDON) s

/-- HELD_REPLY_ENQUEUE (R46): held replies enter the queue, as room for them appears. -/
def execHeldReplyEnqueue (s : State) : Host.Outcome State Fault Refusal :=
  hearthEvent (fun d => { d with cp := enqueueHeld (d.cp.held.length + 1) d.cp }) s

/-! Timeouts. -/

/-- FRAGMENT_TIMEOUT (R44): the fragments of a datagram did not all arrive within 10 ms: those held are dropped. -/
def execFragmentTimeout (src ident : Nat) (s : State) : Host.Outcome State Fault Refusal :=
  event (fun d => { d with anvil := { d.anvil with frags := d.anvil.frags.filter fun r => ¬(r.src = src ∧ r.ident = ident) } }) s

/-- SESSION_IDLE_TIMEOUT (R48): no valid packet arrived in a session for its idle time: it closes. -/
def execSessionIdleTimeout (session : Nat) (s : State) : Host.Outcome State Fault Refusal :=
  hearthEvent (fun d => if session < 4 ∧ (d.sess session).isOpen then d.closeSession session else d) s

/-- AUTH_OPEN_TIMEOUT (R49): no command with a valid MAC arrived within 1 s of the SESSION_OPEN reply: the session is
released. -/
def execAuthOpenTimeout (session : Nat) (s : State) : Host.Outcome State Fault Refusal :=
  hearthEvent (fun d => if session < 4 ∧ (d.sess session).isOpen ∧ ¬ (d.sess session).usable then d.closeSession session else d) s

end Sys2Proof.Machine
end

