-- ==== Sys2Proof/Machine/Network.lean ====
section
/-! DEFINITION. Class 0x31 and the network's own events (R349–R361, R372–R377): ports and interfaces, frames received, path pairs
and the merge of two paths, and the reception of RTP sources. -/

namespace Sys2Proof.Machine

/-! Ports and interfaces (R349–R351). -/

/-- R349: the port of an interface. -/
def ifPort (i : Nat) : Nat := if i = 16 then 4 else i / 4

def Dev.portCfg (d : Dev) (n : Nat) : PortCfg := d.net.ports.getD n {}

/-- R349: an interface exists in its port's mode. -/
def Dev.ifExists (d : Dev) (i : Nat) : Bool := i = 16 || (decide (i < 16) && (i % 4 = 0 || (d.portCfg (i / 4)).mode = 1))

/-- R349: FEC is on. -/
def Dev.ifFec (d : Dev) (i : Nat) : Bool := i ≠ 16 && ((d.portCfg (ifPort i)).mode = 0 || !bit (d.portCfg (ifPort i)).flags 0)

/-- R374: the fields of NET_IF_SET. -/
def ifOf (p : Bytes) : IfCfg := {
  vlan := u16 p 2, addr := u32 p 4, pfx := u8 p 8, gw := u32 p 12, mgmtVlan := u16 p 16, mgmtAddr := u32 p 20, mgmtPfx := u8 p 24 }

/-- IPv4 unicast and multicast addresses. -/
def ip4Uni (a : Nat) : Bool := let h := a / 2 ^ 24; decide (1 ≤ h ∧ h ≤ 223 ∧ h ≠ 127)
def ip4Multi (a : Nat) : Bool := let h := a / 2 ^ 24; decide (224 ≤ h ∧ h ≤ 239)

/-- R359: the interfaces of a path pair, and whether it exists. -/
def pairIf (p path : Nat) : Nat := if p < 4 then p + 4 * path else p + 4 + 4 * path
def Dev.pairExists (d : Dev) (p : Nat) : Bool := decide (p < 8) && d.ifExists (pairIf p 0) && d.ifExists (pairIf p 1)

/-- R365, R366: the PTP interfaces. -/
def Dev.isPtpIf (d : Dev) (i : Nat) : Bool := i = d.time.ptp.ifA || i = d.time.ptp.ifB

/-- The group of PTP (R365). -/
def ptpGroup : Nat := 0xE0000181

/-- The streams that receive (R132), by slot. -/
def Dev.rxSlots (d : Dev) : List Nat := (List.range 8).filter fun k => let st := (d.fn (FnId.decode k)).st; st = .on || st = .starting

def Dev.stream (d : Dev) (k : Nat) : Stream := d.dec.slots.getD k {}
def Dev.sources (d : Dev) (k : Nat) : List Source := match (d.stream k).cfg with | some c => c.sources | none => []

/-- R351, R353, R359: the groups an interface joins. -/
def Dev.joined (d : Dev) (i : Nat) : List Nat :=
  let anvil := if (i = 16 || (d.ifCfg i).mgmtVlan ≠ 0) && d.net.group ≠ 0 then [d.net.group] else []
  let ptp := if d.isPtpIf i then [ptpGroup] else []
  let src := (d.rxSlots.map fun k => ((d.sources k).map fun x =>
    (if pairIf x.pair 0 = i then [x.groupA] else []) ++ (if pairIf x.pair 1 = i ∧ x.groupB ≠ 0 then [x.groupB] else [])).flatten).flatten
  (anvil ++ ptp ++ src).eraseDups

/-- R351: an interface reports the groups it joins, with IGMPv3, or IGMPv2 where the querier speaks only that. -/
def Dev.igmpReport (d : Dev) (i : Nat) : Dev := d.send (.igmp i (if d.net.igmpV2.contains i then 2 else 3) (d.joined i))

/-- What the gate must know of NET_PORT_SET. -/
def specNetPortSet : OpSpec :=
  { op := 0x3100, len := (· = 4), check := fun _ _ p => failIf [
      (decide (u8 p 0 > 4) || decide (u8 p 1 > 1) || (u8 p 1 = 1 && u8 p 0 = 4), 0),
      (decide (u8 p 2 > 3) || !zero? p 3 1, Rs.reserved)] }

/-- NET_PORT_SET (R373, R350). -/
def execNetPortSet (h : Hdr) (p : Bytes) (s : State) : Host.Outcome State Fault Refusal :=
  anvil specNetPortSet h p (.netPortSet h p)
    (fun _ d =>
      let n := u8 p 0
      if (d.portCfg n).mode ≠ u8 p 1 ∧ (d.fn (FnId.port n)).st ≠ .off then (d, .bad St.badState 0x40)
      else ({ d with net := { d.net with ports := d.net.ports.set n ⟨u8 p 1, u8 p 2⟩ } }, .done)) s

/-- R317, R349: the hearth lanes (16: HM) of an interface. -/
def Dev.ifLanes (d : Dev) (i : Nat) : List Nat := if i = 16 ∨ (d.portCfg (i / 4)).mode = 1 then [i] else fromN i 4

/-- The link of an interface changes (R350): port status, the level source of R473, and, on a link that comes up, its lanes, which hold signal,
CDR and block lock (R347). -/
def Dev.linkChange (d : Dev) (i : Nat) (up : Bool) : Dev :=
  if d.rd 0 (R.NET_IF_LINK i) = b2n up then d
  else
    let d := (d.wr 0 (R.NET_IF_LINK i) (b2n up)).setLevel (128 + i) (!up)
    if up then (d.ifLanes i).foldl (fun d l => d.wr 0 (R.LNK_H l) 7) d else d

/-- The interfaces of a port. -/
def Dev.portIfs (d : Dev) (n : Nat) : List Nat := (List.range 17).filter fun i => ifPort i = n && d.ifExists i

/-- What the gate must know of NET_PORT_ENABLE. -/
def specNetPortEnable : OpSpec :=
  { op := 0x3101, len := (· = 4), check := fun _ _ p => failIf [
      (decide (u8 p 0 > 4) || decide (u8 p 1 > 1), 0), (!zero? p 2 2, Rs.reserved)] }

/-- NET_PORT_ENABLE (R373, R350). -/
def execNetPortEnable (h : Hdr) (p : Bytes) (s : State) : Host.Outcome State Fault Refusal :=
  anvil specNetPortEnable h p (.netPortEnable h p)
    (fun c d =>
      let (d, r, begins) := d.request (FnId.port (u8 p 0)) (u8 p 1 = 1) true c
      (if begins ∧ u8 p 1 = 0 then (d.portIfs (u8 p 0)).foldl (fun d i => d.linkChange i false) d else d, r)) s

/-- PORT_TRANSITION_DONE (R350): a port reaches ON or OFF. -/
def execPortTransitionDone (port : Nat) (s : State) : Host.Outcome State Fault Refusal :=
  hearthEvent (fun d => if port > 4 then d else
    match d.fnDone (FnId.port port) with
    | (d, some c) => if u8 c.p 1 = 0 then (d.portIfs port).foldl (fun d i => d.linkChange i false) d else d
    | (d, none) => d) s

/-- PORT_LINK_CHANGE (R350): the link of an interface goes up or down. -/
def execPortLinkChange (iface : Nat) (up : Bool) (s : State) : Host.Outcome State Fault Refusal :=
  hearthEvent (fun d => if ¬ d.ifExists iface ∨ (up ∧ (d.fn (FnId.port (ifPort iface))).st ≠ .on) then d else d.linkChange iface up) s

/-- R372, R374: an address is used on another interface, or twice on this one. -/
def Dev.duplicate (d : Dev) (i : Nat) (c : IfCfg) : Bool :=
  let others := (((List.range 17).filter (· ≠ i)).map fun j => let o := d.ifCfg j; [o.addr, o.mgmtAddr]).flatten.filter (· ≠ 0)
  (c.addr ≠ 0 && (others.contains c.addr || c.mgmtAddr = c.addr)) || (c.mgmtAddr ≠ 0 && others.contains c.mgmtAddr)

/-- R372, R374: the addresses, prefixes or VLANs of a setting are invalid. -/
def ifBad (i : Nat) (c : IfCfg) : Bool :=
  decide (c.vlan > 4094) || decide (c.mgmtVlan > 4094) || (i = 16 && (c.vlan ≠ 0 || c.mgmtVlan ≠ 0))
    || (c.mgmtVlan ≠ 0 && c.mgmtVlan = c.vlan) || (c.addr ≠ 0 && !ip4Uni c.addr) || (c.mgmtAddr ≠ 0 && !ip4Uni c.mgmtAddr)
    || !decide (8 ≤ c.pfx ∧ c.pfx ≤ 30) || !decide (8 ≤ c.mgmtPfx ∧ c.mgmtPfx ≤ 30)

/-- What the gate must know of NET_IF_SET. -/
def specNetIfSet : OpSpec :=
  { op := 0x3102, len := (· = 28), check := fun s _ p => failIf [
      (decide (u8 p 0 > 16), 0), (decide (u8 p 1 > 1) || !zero? p 9 3 || !zero? p 18 2 || !zero? p 25 3, Rs.reserved),
      (u8 p 1 = 1 && u8 p 0 ≠ 16, 0), (!s.dev.ifExists (u8 p 0), 0x41),
      (ifBad (u8 p 0) (ifOf p) || s.dev.duplicate (u8 p 0) (ifOf p), 0x42)] }

/-- NET_IF_SET (R374). -/
def execNetIfSet (h : Hdr) (p : Bytes) (s : State) : Host.Outcome State Fault Refusal :=
  anvil specNetIfSet h p (.netIfSet h p)
    (fun _ d =>
      let d := { d with net := { d.net with ifs := amPut d.net.ifs (u8 p 0) (ifOf p) } }
      let d := if u8 p 1 = 1 then d.bootSave fun b => { b with if16 := p } else d
      (d.igmpReport (u8 p 0), .done)) s

/-- The pair is used by a source of a stream that is not OFF (R372). -/
def Dev.pairUsed (d : Dev) (pr : Nat) : Bool :=
  (List.range 8).any fun k => (d.fn (FnId.decode k)).st ≠ .off && (d.sources k).any (·.pair = pr)

/-- What the gate must know of NET_PAIR_SET. -/
def specNetPairSet : OpSpec :=
  { op := 0x3103, len := (· = 4), check := fun s _ p => failIf [
      (decide (u8 p 0 > 7) || !decide (1 ≤ u16 p 2 ∧ u16 p 2 ≤ 150), 0), (!zero? p 1 1, Rs.reserved),
      (!s.dev.pairExists (u8 p 0), 0x41)] }

/-- NET_PAIR_SET (R375). -/
def execNetPairSet (h : Hdr) (p : Bytes) (s : State) : Host.Outcome State Fault Refusal :=
  anvil specNetPairSet h p (.netPairSet h p)
    (fun _ d => if d.pairUsed (u8 p 0) then (d, .bad St.badState 0x43) else (d.wr 0 (R.NET_PAIR_WINDOW (u8 p 0)) (u16 p 2), .done)) s

/-- What the gate must know of NET_ANVIL_SET. -/
def specNetAnvilSet : OpSpec :=
  { op := 0x3104, len := (· = 4), check := fun _ _ p => failIf [(u32 p 0 ≠ 0 && !ip4Multi (u32 p 0), 0x42)] }

/-- NET_ANVIL_SET (R375, R353). -/
def execNetAnvilSet (h : Hdr) (p : Bytes) (s : State) : Host.Outcome State Fault Refusal :=
  anvil specNetAnvilSet h p (.netAnvilSet h p)
    (fun _ d =>
      let d := { d with net := { d.net with group := u32 p 0 } }
      let ifs := (List.range 17).filter fun i => i = 16 || (d.ifCfg i).mgmtVlan ≠ 0
      (ifs.foldl Dev.igmpReport d, .done)) s

/-- What the gate must know of NET_STATUS. -/
def specNetStatus : OpSpec :=
  { op := 0x3105, len := (· = 4), check := fun s _ p => failIf [
      (decide (u8 p 0 > 16), 0), (!zero? p 1 3, Rs.reserved), (!s.dev.ifExists (u8 p 0), 0x41)] }

/-- NET_STATUS (R376). -/
def execNetStatus (h : Hdr) (p : Bytes) (s : State) : Host.Outcome State Fault Refusal :=
  anvil specNetStatus h p (.netStatus h p)
    (fun _ d =>
      let i := u8 p 0
      (d, .done (enc 1 (d.rd 0 (R.NET_IF_LINK i) + 2 * b2n (d.ifFec i)) ++ zeros 3 ++ enc 4 (d.rd 0 (R.NET_FEC_CORR i))
        ++ enc 4 (d.rd 0 (R.NET_FEC_UNCORR i)) ++ enc 4 (amGet d.net.frames i 0) ++ enc 4 (d.rd 0 (R.NET_IF_DROP i))
        ++ enc 4 (d.rd 0 (R.NET_IF_EARLY i))))) s

/-- What the gate must know of NET_PAIR_STATUS. -/
def specNetPairStatus : OpSpec :=
  { op := 0x3106, len := (· = 4), check := fun s _ p => failIf [
      (decide (u8 p 0 > 7), 0), (!zero? p 1 3, Rs.reserved), (!s.dev.pairExists (u8 p 0), 0x41)] }

/-- NET_PAIR_STATUS (R377). -/
def execNetPairStatus (h : Hdr) (p : Bytes) (s : State) : Host.Outcome State Fault Refusal :=
  anvil specNetPairStatus h p (.netPairStatus h p)
    (fun _ d =>
      let n := u8 p 0
      let c := d.net.pairs.getD n {}
      (d, .done (enc 1 (d.rd 0 (R.NET_PAIR_A_DOWN n) + 2 * d.rd 0 (R.NET_PAIR_B_DOWN n)) ++ zeros 3 ++ enc 4 c.firstA ++ enc 4 c.firstB
        ++ enc 4 (d.rd 0 (R.NET_PAIR_LOST n)) ++ enc 4 c.mismatch ++ enc 4 (d.rd 0 (R.NET_PAIR_SKEW n))))) s

/-! Sources (R110, R355–R361). -/

def Dev.rxOf (d : Dev) (slot src : Nat) : SrcRx := amGet d.net.rx (slot * 32 + src) {}
def Dev.setRx (d : Dev) (slot src : Nat) (x : SrcRx) : Dev := { d with net := { d.net with rx := amPut d.net.rx (slot * 32 + src) x } }
def Dev.source? (d : Dev) (slot src : Nat) : Option Source := (d.sources slot)[src]?
def Dev.setStream (d : Dev) (k : Nat) (f : Stream → Stream) : Dev := { d with dec := { d.dec with slots := d.dec.slots.modify k f } }

/-- R363: how far a short form lies after another, by the nearest instant, in 2^-16 ns. -/
def shortDiff (a b : Nat) : Int := signed 64 ((a + 2 ^ 64 - b % 2 ^ 64) % 2 ^ 64)

/-- R358: the presentation time, a short form of MEDIA, of an RTP timestamp that arrives now. -/
def Dev.rtpTime (d : Dev) (ts : Nat) : Nat :=
  let now := d.now 0 * 90000 / (10 ^ 9 * 2 ^ 32)
  let k := now + (ts + 2 ^ 32 + 2 ^ 31 - now % 2 ^ 32) % 2 ^ 32 - 2 ^ 31
  k * 10 ^ 9 * 65536 / 90000 % 2 ^ 64

/-- R357: a 16-bit sequence number extended: the congruent value nearest to the highest one received. -/
def extendSeq (high : Option Nat) (q : Nat) : Nat :=
  match high with
  | none => q % 65536
  | some hgh =>
    let dd := (q + 65536 - hgh % 65536) % 65536
    (hgh + dd + (if dd ≥ 32768 then 2 ^ 32 - 65536 else 0)) % 2 ^ 32

/-! Components (R104). -/

def Dev.view (d : Dev) (k v : Nat) : ViewSt := (d.stream k).views.getD v {}
def Dev.comp (d : Dev) (k v : Nat) (dep : Bool) : Comp := if dep then (d.view k v).dep else (d.view k v).tex
def Dev.setView (d : Dev) (k v : Nat) (f : ViewSt → ViewSt) : Dev := d.setStream k fun x => { x with views := x.views.modify v f }
def Dev.setComp (d : Dev) (k v : Nat) (dep : Bool) (f : Comp → Comp) : Dev :=
  d.setView k v fun x => if dep then { x with dep := f x.dep } else { x with tex := f x.tex }

/-- The hob die (ID) whose DEC_ registers count a source's packets: the owner of its component. -/
def Dev.srcDie (d : Dev) (slot src : Nat) : Nat :=
  match d.source? slot src with
  | some x => ((d.view slot x.view).owner.getD 0) + 1
  | none => 1

/-- R105: the component a NAL unit of a layer belongs to, by its source; none where the layer is one that is discarded. -/
def layerComp (c : StreamCfg) (z : Source) (vps : Bytes) (layer : Nat) : Option (Nat × Bool) :=
  if z.all then
    let l := (Config.layerOf vps layer).toNat
    let dep := bit l 5
    if bit l 6 ∨ l % 32 ≥ c.views ∨ (dep ∧ (c.kind = 1 ∨ !bit c.mask (l % 32))) then none else some (l % 32, dep)
  else some (z.view, z.depth)

/-- R113: a parameter set goes to every hob die that owns a component of the stream. -/
def Dev.setIn (d : Dev) (slot src : Nat) (nal : Bytes) : Dev :=
  let dies := ((d.stream slot).views.filterMap (·.owner)).eraseDups
  let d := d.setStream slot fun x => { x with sets := (x.sets.filter fun e => e.2 ≠ (src, nal)) ++ dies.map fun i => (i, src, nal) }
  if u8 nal 0 / 2 % 64 = 32 then d.setRx slot src { d.rxOf slot src with vps := nal } else d

/-- R113, R105: a NAL unit is routed: parameter sets to every die, a slice to the queue of its component's die; a layer that is discarded
is counted. -/
def Dev.nalIn (d : Dev) (slot src time : Nat) (nal : Bytes) : Dev :=
  match (d.stream slot).cfg, d.source? slot src with
  | some c, some z =>
    let ty := u8 nal 0 / 2 % 64
    let layer := u8 nal 0 % 2 * 32 + u8 nal 1 / 8
    if 32 ≤ ty ∧ ty ≤ 34 then d.setIn slot src nal
    else match layerComp c z (d.rxOf slot src).vps layer with
      | none => d.bump (d.srcDie slot src) R.DEC_LAYER_DISCARD
      | some (v, dep) =>
        if ty ≥ 32 ∨ (!z.all && layer ≠ 0) ∨ (d.view slot v).owner = none then d
        else d.setStream slot fun x => { x with nals := x.nals ++ [⟨v, dep, src, time, nal⟩] }
  | _, _ => d

/-- R110: the NAL units of an aggregation packet. -/
def splitAp : Nat → Bytes → List Bytes
  | 0, _ => []
  | n + 1, b => if b.length < 2 then [] else let l := u16 b 0; ((b.drop 2).take l) :: splitAp n (b.drop (2 + l))

/-- The number of the frame picked next (R145). -/
def Dev.nextPick (d : Dev) : Nat := (match d.syn.picks with | k :: _ => k.frame | [] => d.frame) + 1

/-- R110, R356: the reception of an access unit or picture has ended. Those closed whose pictures are complete are forgotten. -/
def Dev.auEnds (d : Dev) (slot src time : Nat) : Dev :=
  let due := d.nextPick
  d.setStream slot fun x =>
    let openAt (t : Nat) : Bool := x.views.any fun v => (v.tex.opened ++ v.dep.opened).any fun o => o.time = t
    { x with ended := (x.ended.filter fun e => !e.done || openAt e.time) ++ [{ src := src, time := time, due := due }] }

/-- R110: a packet with another timestamp ends an access unit that no marker bit has ended. -/
def Dev.auBreak (d : Dev) (slot src ts : Nat) : Dev :=
  match (d.rxOf slot src).openTs with
  | some t0 => if t0 = ts then d else d.auEnds slot src (d.rtpTime t0)
  | none => d

/-- R110, R112: an RTP payload in order, after a loss where `gap` says so, is depacketised. A fragmentation unit of which a packet is missing
is dropped; a packet with DONL fields and a PACI packet are discarded and counted. -/
def Dev.depacketBody (d : Dev) (slot src t : Nat) (gap donl : Bool) (b : Bytes) : Dev :=
  let x := d.rxOf slot src
  let x := if gap then { x with frag := none } else x
  let ty := u8 b 0 / 2 % 64
  let whole := { x with frag := none }
  if b.length < 3 then d.setRx slot src x
  else if donl ∨ ty = 50 then (d.setRx slot src whole).bump (d.srcDie slot src) R.DEC_RTP_UNSUPPORTED
  else if ty = 48 then (splitAp b.length (b.drop 2)).foldl (fun d n => d.nalIn slot src t n) (d.setRx slot src whole)
  else if ty = 49 then
    let fu := u8 b 2
    let head := enc 1 (u8 b 0 / 128 * 128 + fu % 64 * 2 + u8 b 0 % 2) ++ enc 1 (u8 b 1)
    let data := match bit fu 7, x.frag with
      | true, _ => some (head ++ b.drop 3)
      | false, some a => some (a ++ b.drop 3)
      | false, none => none
    match data, bit fu 6 with
    | some n, true => (d.setRx slot src whole).nalIn slot src t n
    | some n, false => d.setRx slot src { x with frag := some n }
    | none, _ => d.setRx slot src x
  else (d.setRx slot src whole).nalIn slot src t b

/-- R110: a packet of a compressed source is depacketised; its marker bit, or a new timestamp, ends an access unit. -/
def Dev.depacket (d : Dev) (slot src ts : Nat) (gap mark donl : Bool) (b : Bytes) : Dev :=
  let t := d.rtpTime ts
  let d := (d.auBreak slot src ts).depacketBody slot src t gap donl b
  let d := d.setRx slot src { d.rxOf slot src with openTs := if mark then none else some ts }
  if mark then d.auEnds slot src t else d

/-- RTP_PACKET_RX (R110): a packet of a compressed source, merged and in order, is depacketised. -/
def execRtpPacketRx (slot src ts : Nat) (gap mark donl : Bool) (data : Bytes) (s : State) : Host.Outcome State Fault Refusal :=
  hearthEvent (fun d =>
    match (d.stream slot).cfg, d.source? slot src with
    | some c, some _ => if slot < 8 ∧ c.kind ≠ 3 then d.depacket slot src ts gap mark donl data else d
    | _, _ => d) s

/-! Uncompressed pictures (R111, R355, R356). -/

/-- Octets of a pixel group, which covers 4 columns: of two lines of a texture, of one line of a depth map (R355). -/
def pgOctets (depth : Bool) : Nat := if depth then 5 else 15

/-- R355: the sample row data headers of a packet from an offset on: length, row and column of each, and where the data begins; none
where there are more than three or a field flag is set. -/
def rawHeads (b : Bytes) : Nat → Nat → Option (List (Nat × Nat × Nat) × Nat)
  | 0, _ => none
  | n + 1, o =>
    let e := (u16 b o, u16 b (o + 2), u16 b (o + 4) % 32768)
    if b.length < o + 6 ∨ bit e.2.1 15 then none
    else if bit (u16 b (o + 4)) 15 then (rawHeads b n (o + 6)).map fun r => (e :: r.1, r.2)
    else some ([e], o + 6)

/-- The runs of pixel groups that the headers name, from the data's offset on. -/
def rawCut (b : Bytes) : List (Nat × Nat × Nat) → Nat → List RawRun
  | [], _ => []
  | (len, row, col) :: r, o => ⟨row, col, (b.drop o).take len⟩ :: rawCut b r (o + len)

/-- R355: a packet's runs, for a picture of a size; none where the packet breaks the subset. -/
def rawRuns (depth : Bool) (w h : Nat) (b : Bytes) : Option (List RawRun) :=
  match rawHeads b 3 2 with
  | none => none
  | some (hs, o) =>
    let fits (e : Nat × Nat × Nat) : Bool := e.1 % pgOctets depth = 0 && decide (e.2.1 < h) && (depth || e.2.1 % 2 = 0) && e.2.2 % 4 = 0
      && decide (e.2.2 + e.1 / pgOctets depth * 4 ≤ ceilDiv w 4 * 4)
    if b.length ≤ 8960 ∧ hs.all fits ∧ o + (hs.map (·.1)).sum ≤ b.length then some (rawCut b hs o) else none

/-- The size a configuration declares for a component. -/
def StreamCfg.size (c : StreamCfg) (depth : Bool) : Nat × Nat := if depth then (c.depW, c.depH) else (c.texW, c.texH)

/-- The picture of an order count that is being received. -/
def Comp.current (c : Comp) (poc : Int) : Option OpenPic := c.opened.find? fun o => o.poc = poc && !o.closed

def Comp.modOpen (c : Comp) (poc : Int) (f : OpenPic → OpenPic) : Comp :=
  { c with opened := c.opened.map fun o => if o.poc = poc && !o.closed then f o else o }

/-- A picture number is taken. -/
def Dev.newPic (d : Dev) : Nat × Dev := (d.dec.pics, { d with dec := { d.dec with pics := d.dec.pics + 1 } })

/-- R356, R109: an uncompressed picture begins. The device reads no SDP, so the declared COLOUR applies, counted once for the component's
activation. -/
def Dev.rawOpen (d : Dev) (slot : Nat) (c : StreamCfg) (z : Source) (time : Nat) : Dev :=
  let (n, d) := d.newPic
  let d := if (d.comp slot z.view z.depth).colour = none then d.bump ((d.view slot z.view).owner.getD 0 + 1) R.DEC_COLOUR_DEFAULT else d
  let (w, h) := c.size z.depth
  d.setComp slot z.view z.depth fun k =>
    let o : OpenPic := {
      serial := k.count + 1, poc := (k.count + 1 : Nat), time := time, desc := ⟨n, w, h, 10, 0, false, z.depth⟩, total := 1, rows := 1, made := 1
      colour := c.colour }
    { k with colour := some c.colour, count := k.count + 1, opened := k.opened ++ [o] }

/-- R356: the open picture of an uncompressed source closes. -/
def Dev.rawEnd (d : Dev) (slot src : Nat) (z : Source) : Dev :=
  let x := d.rxOf slot src
  match x.openTs with
  | none => d
  | some ts =>
    let d := d.setComp slot z.view z.depth fun k => { k with opened := k.opened.map fun o => { o with closed := true } }
    (d.setRx slot src { x with openTs := none, closed := some ts }).auEnds slot src (d.rtpTime ts)

/-- R355: a packet arrives within one picture period of its RTP timestamp. -/
def Dev.rawTimely (d : Dev) (c : StreamCfg) (ts : Nat) : Bool :=
  let (a, b) := periodOf c.rate
  decide ((shortDiff (d.rtpTime ts) (d.short 0)).natAbs * b ≤ a)

/-- R356: a timestamp is that of a picture already closed, or of one before it. -/
def SrcRx.isClosed (x : SrcRx) (ts : Nat) : Bool :=
  match x.closed with
  | some z => decide ((z + 2 ^ 32 - ts % 2 ^ 32) % 2 ^ 32 < 2 ^ 31)
  | none => false

/-- R111, R355, R356: a packet of an uncompressed flow: its pixel groups are written to the picture of its timestamp. One for a picture
already closed counts as late, one outside the subset is discarded and counted. -/
def Dev.rawPacket (d : Dev) (slot src ts iface : Nat) (mark : Bool) (b : Bytes) : Dev :=
  match (d.stream slot).cfg, d.source? slot src with
  | some c, some z =>
    let x := d.rxOf slot src
    if x.isClosed ts then d.bump (d.srcDie slot src) R.DEC_LATE
    else if ¬ d.rawTimely c ts then d.bump 0 (R.NET_IF_DROP iface)
    else
      let (w, h) := c.size z.depth
      match rawRuns z.depth w h b with
      | none => d.bump 0 (R.NET_IF_DROP iface)
      | some l =>
        let d := if x.openTs = some ts then d else d.rawEnd slot src z
        let d := if x.openTs = some ts ∨ (d.view slot z.view).owner = none then d else d.rawOpen slot c z (d.rtpTime ts)
        let d := d.setRx slot src { d.rxOf slot src with openTs := some ts }
        let d := d.setComp slot z.view z.depth fun k => { k with opened := k.opened.map fun o => if o.closed then o else { o with runs := o.runs ++ l } }
        if mark then d.rawEnd slot src z else d
  | _, _ => d

/-- A packet delivered by the merge (R360) goes to its depacketiser. -/
def Dev.deliverPkt (d : Dev) (slot src iface : Nat) (gap : Bool) (k : HeldPkt) : Dev :=
  match (d.stream slot).cfg with
  | none => d
  | some c => if c.kind = 3 then d.rawPacket slot src k.ts iface k.mark k.data else d.depacket slot src k.ts gap k.mark k.donl k.data

/-- A 32-bit counter that saturates. -/
def satInc (n : Nat) : Nat := min (n + 1) (2 ^ 32 - 1)

/-- R360: a number is held. -/
def SrcRx.holds (x : SrcRx) (q : Nat) : Bool := x.held.any (·.seq = q)

/-- R360: the packets that can be delivered in order now, and the reception after it. -/
def SrcRx.drain : Nat → SrcRx → SrcRx × List HeldPkt
  | 0, x => (x, [])
  | n + 1, x =>
    match x.next with
    | none => (x, [])
    | some q =>
      match x.held.find? (·.seq = q) with
      | none => (x, [])
      | some k =>
        let (y, l) := SrcRx.drain n { x with next := some ((q + 1) % 2 ^ 32), held := x.held.erase k }
        (y, k :: l)

/-- The packets delivered, in order; the first follows a loss where `gap` says so. -/
def Dev.deliverAll (d : Dev) (slot src iface : Nat) (gap : Bool) (l : List HeldPkt) : Dev :=
  (l.zipIdx).foldl (fun d (e : HeldPkt × Nat) => d.deliverPkt slot src iface (gap && e.2 = 0) e.1) d

/-- What the merge counts for a pair (R360, R377). -/
def Dev.pairCount (d : Dev) (pr : Nat) (f : PairCnt → PairCnt) : Dev := { d with net := { d.net with pairs := d.net.pairs.modify pr f } }

/-- R361: the pair's DOWN bit of a path is set while that path of one of its sources is DOWN. -/
def Dev.pairDown (d : Dev) (pr path : Nat) : Dev :=
  let any := (List.range 8).any fun k => ((d.sources k).zipIdx).any fun e => e.1.pair = pr && (d.rxOf k e.2).down.getD path false
  d.wr 0 (if path = 0 then R.NET_PAIR_A_DOWN pr else R.NET_PAIR_B_DOWN pr) (b2n any)

/-- R361: the skew of two copies in µs, positive where A leads; the register keeps the largest magnitude. -/
def Dev.skewSeen (d : Dev) (pr : Nat) (v : Int) : Dev :=
  if v.natAbs > (d.rdI 0 (R.NET_PAIR_SKEW pr)).natAbs then d.wr 0 (R.NET_PAIR_SKEW pr) (twos 32 (satS 32 v)) else d

/-- R360: a gap declared lost: the first packet held is delivered next. -/
def Dev.loseGap (d : Dev) (slot src iface : Nat) (pr : Nat) : Dev :=
  let x := d.rxOf slot src
  match x.next with
  | none => d
  | some q =>
    let dist (k : HeldPkt) : Nat := (k.seq + 2 ^ 32 - q) % 2 ^ 32
    match x.held.foldl (fun (b : Option Nat) k => some (match b with | none => dist k | some m => min m (dist k))) none with
    | none => d
    | some m =>
      let (y, l) := SrcRx.drain (x.held.length + 1) { x with next := some ((q + m) % 2 ^ 32) }
      let d := (d.setRx slot src y).bump 0 (R.NET_PAIR_LOST pr) m
      (d.setStream slot fun z => { z with lost := min (z.lost + m) (2 ^ 32 - 1) }).deliverAll slot src iface (m > 0) l

/-- R360: a packet of a source on a path (0 A, 1 B): number, timestamp, marker, payload. -/
def Dev.mergePacket (d : Dev) (slot src path pr q ts : Nat) (mark donl : Bool) (b : Bytes) : Dev :=
  let iface := pairIf pr path
  let now := d.now 3
  let x := d.rxOf slot src
  let x := { x with last := x.last.set path (some now) }
  let wasDown := x.down.getD path false
  let x := { x with down := x.down.set path false }
  let d : Dev := if wasDown then ((d.setRx slot src x).pairDown pr path).raise (145 + pr) else d
  let nxt := x.next.getD q
  let dd := (q + 2 ^ 32 - nxt) % 2 ^ 32
  let second (d : Dev) : Dev :=
    let d := d.pairCount pr fun c => if path = 0 then { c with secondA := satInc c.secondA } else { c with secondB := satInc c.secondB }
    match x.first.find? fun e => e.1 = q && e.2.1 ≠ path with
    | none => d
    | some (_, _, t) => d.skewSeen pr ((if path = 0 then -1 else 1) * (((now - t) / (1000 * 2 ^ 32) : Nat) : Int))
  if dd ≥ 0x80000000 then second (d.setRx slot src x)
  else
    match x.held.find? (·.seq = q) with
    | some k => if k.ts ≠ ts then (d.setRx slot src x).pairCount pr fun c => { c with mismatch := satInc c.mismatch } else second (d.setRx slot src x)
    | none =>
      let far := decide (dd ≥ 65536)
      let flushed := if far then x.held.mergeSort fun a b => decide ((a.seq + 2 ^ 32 - nxt) % 2 ^ 32 ≤ (b.seq + 2 ^ 32 - nxt) % 2 ^ 32) else []
      let d := if far then (d.setRx slot src { x with held := [], next := some q }).pairCount pr (fun c => { c with resync := satInc c.resync })
        else d.setRx slot src { x with next := some nxt }
      let d := d.deliverAll slot src iface true flushed
      let d := d.pairCount pr fun c => if path = 0 then { c with firstA := satInc c.firstA } else { c with firstB := satInc c.firstB }
      let x := d.rxOf slot src
      let x := { x with held := x.held ++ [⟨q, ts, now, mark, donl, b⟩], first := ((q, path, now) :: x.first).take 8192 }
      let (y, l) := SrcRx.drain (x.held.length + 1) x
      let d := (d.setRx slot src y).deliverAll slot src iface far l
      if y.held.length ≥ 8192 then d.loseGap slot src iface pr else d

/-- PATH_PACKET_RX (R357, R360): a packet arrives on a path of a source of an ON stream. -/
def Dev.pathPacket (d : Dev) (slot src path pt ssrc q ts : Nat) (mark donl : Bool) (b : Bytes) : Dev :=
  match (d.stream slot).cfg, d.source? slot src with
  | some c, some z =>
    if (d.fn (FnId.decode slot)).st ≠ .on ∨ path > 1 ∨ (path = 1 ∧ z.groupB = 0) then d
    else if pt ≠ z.pt ∧ c.kind ≠ 3 then d
    else
      let x := d.rxOf slot src
      let iface := pairIf z.pair path
      if c.kind ≠ 3 ∧ x.ssrc ≠ none ∧ x.ssrc ≠ some ssrc then d.bump 0 (R.NET_IF_DROP iface)
      else
        let e := if c.kind = 3 then q % 2 ^ 32 else extendSeq x.high q
        let up := match x.high with | none => true | some g => decide ((e + 2 ^ 32 - g) % 2 ^ 32 < 2 ^ 31)
        let x := { x with ssrc := some ssrc, ssrcAt := d.now 3, high := if up then some e else x.high }
        (d.setRx slot src x).mergePacket slot src path z.pair e ts mark donl b
  | _, _ => d

/-- PATH_PACKET_RX (R357, R360). -/
def execPathPacketRx (slot src path pt ssrc seq ts : Nat) (mark donl : Bool) (data : Bytes) (s : State) : Host.Outcome State Fault Refusal :=
  hearthEvent (fun d => d.pathPacket slot src path pt ssrc seq ts mark donl data) s

/-- R360: a source's merge window in 2^-32 ns. -/
def Dev.mergeWindow (d : Dev) (z : Source) : Nat := (if z.groupB = 0 then 1 else d.rd 0 (R.NET_PAIR_WINDOW z.pair)) * 1000000 * 2 ^ 32

/-- R360: the sweep of one source: each gap whose oldest held packet has waited the window. -/
def Dev.sweepSource (d : Dev) (slot src : Nat) (z : Source) : Nat → Dev
  | 0 => d
  | n + 1 =>
    let x := d.rxOf slot src
    match x.held with
    | [] => d
    | k :: r =>
      let oldest := r.foldl (fun m y => min m y.at_) k.at_
      if d.now 3 - oldest < d.mergeWindow z then d else (d.loseGap slot src (pairIf z.pair 0) z.pair).sweepSource slot src z n

/-- MERGE_WINDOW_SWEEP (R360): every 100 µs gaps held longer than the window are declared lost. -/
def execMergeWindowSweep (s : State) : Host.Outcome State Fault Refusal :=
  hearthEvent (fun d => d.rxSlots.foldl (fun d k =>
    ((d.sources k).zipIdx).foldl (fun d (e : Source × Nat) => d.sweepSource k e.2 e.1 ((d.rxOf k e.2).held.length + 1)) d) d) s

/-- R361: a path has delivered nothing for 20 ms, in which the other has delivered. -/
def SrcRx.pathSilent (x : SrcRx) (now path : Nat) : Bool :=
  let quiet (o : Option Nat) : Bool := match o with | some t => decide (now - t ≥ 20000000 * 2 ^ 32) | none => true
  quiet (x.last.getD path none) && !quiet (x.last.getD (1 - path) none)

/-- PATH_DOWN (R361): a path of a source delivered nothing for 20 ms while the other delivered. -/
def execPathDown (slot src path : Nat) (s : State) : Host.Outcome State Fault Refusal :=
  hearthEvent (fun d =>
    match d.source? slot src with
    | none => d
    | some z =>
      let x := d.rxOf slot src
      if path > 1 ∨ z.groupB = 0 ∨ x.down.getD path false ∨ ¬ x.pathSilent (d.now 3) path then d
      else ((d.setRx slot src { x with down := x.down.set path true }).pairDown z.pair path).raise (145 + z.pair)) s

/-- SSRC_TIMEOUT (R357): no packet of the locked SSRC for 1 s: the next one seen is locked. -/
def execSsrcTimeout (slot src : Nat) (s : State) : Host.Outcome State Fault Refusal :=
  hearthEvent (fun d =>
    let silent := d.now 3 - (d.rxOf slot src).ssrcAt ≥ 10 ^ 9 * 2 ^ 32
    if slot < 8 ∧ (d.source? slot src).isSome ∧ silent then d.setRx slot src { d.rxOf slot src with ssrc := none } else d) s

end Sys2Proof.Machine
end

