-- ==== Sys2Proof/Machine/Damper.lean ====
section
/-! DEFINITION. The damper (R22–R33, R36, R336): loss and return of the forward path, lane roles, credits, and the messages
that need no register access. -/

namespace Sys2Proof.Machine

/-! The forward path (R22, R530). -/

/-- DAMPER_FWD_LOSS (R22): the forward path stops delivering a flue die's messages. -/
def execDamperFwdLoss (f : Nat) (s : State) : Host.Outcome State Fault Refusal := event (fun d => if f > 1 then d else d.pathLost f) s

/-- DAMPER_FWD_RESTORE (R22): the forward path of a flue die is ON again; its output resumes at the first frame start at which
pixel data has arrived. -/
def execDamperFwdRestore (f : Nat) (s : State) : Host.Outcome State Fault Refusal :=
  event (fun d => if f > 1 ∨ d.rd 0 (R.DMP_HALF_N f) < 12 then d else (d.wr 0 (R.DMP_HALF_ON f) 1).wr (8 + f) (R.DMP_HALF_ON f) 1) s

/-! Lanes (R23, R24, R325, R336). -/

/-- R323, R336: a damper lane is lost at its receiving end: the hearth end for the return lane, a flue die for the others,
whose report needs the return channel. -/
def Dev.damperLaneLost (d : Dev) (i : Nat) : Dev :=
  if i > 35 then d
  else
    let ret := d.dmp.ret = some i
    let die := 8 + laneHalf i
    let rx := if ret then 0 else die
    if d.rd die (R.DMP_LANE_ROLE i) = 3 then d
    else
      let d := ((d.bump rx (R.DMP_LANE_LOSS i)).wr rx (R.DMP_LANE_LOCKED i) 0).wr die (R.DMP_LANE_ROLE i) 3
      let d := ((d.wrBoth (laneHalf i) (R.DMP_LANE_PHASE i) 2).lockChanged rx).scanLost (2 * 256 + i)
      if ret ∨ d.dmp.moving = some i ∨ d.dmp.ret.isSome then d.laneAllot i else d

/-- DAMPER_LANE_LOSS (R24, R336). -/
def execDamperLaneLoss (lane : Nat) (s : State) : Host.Outcome State Fault Refusal := event (fun d => d.damperLaneLost lane) s

/-- Losses declared while the return channel was down are handled when it is back (R336). -/
def Dev.lateLosses (d : Dev) : Dev :=
  ((List.range 36).filter fun i => d.rd (8 + laneHalf i) (R.DMP_LANE_ROLE i) = 3 && d.rd 0 (R.DMP_LANE_ROLE i) ≠ 3).foldl Dev.laneAllot d

/-- LANE_REVERSE_DONE (R336): the lane that turns round is locked: it is the return lane, and return messages resume. -/
def execLaneReverseDone (s : State) : Host.Outcome State Fault Refusal :=
  event (fun d =>
    match d.dmp.moving with
    | none => d
    | some r =>
      let die (i : Nat) : Nat := 8 + laneHalf i
      let d : Dev := match d.dmp.ret with
        | some o => [0, die o].foldl (fun d k => d.wr k (R.DMP_LANE_ROLE o) 1) ((d.wr 0 (R.DMP_LANE_LOCKED o) 0).wr (die o) (R.DMP_LANE_LOCKED o) 1)
        | none => d
      let d := [0, die r].foldl (fun d k => (d.wr k (R.DMP_LANE_ROLE r) 2).wr k (R.DMP_LANE_PHASE r) 6)
        ((d.wr 0 (R.DMP_LANE_LOCKED r) 1).wr (die r) (R.DMP_LANE_LOCKED r) 0)
      let d := { d with dmp := { d.dmp with ret := some r, moving := none } }
      let d := [0, 8, 9].foldl Dev.lockChanged d
      ((d.retRefill 0).retRefill 1).lateLosses) s

/-- LSTAT (R325): lock states arrive from a flue die (8, 9) at the hearth end, or an order to reverse a lane arrives at the
flue dies (die 0). -/
def execLstat (die locked : Nat) (order : Option Nat) (s : State) : Host.Outcome State Fault Refusal :=
  event (fun d =>
    if die = 0 then
      match order with
      | some i => if 32 ≤ i ∧ i ≤ 35 then (d.wr (8 + laneHalf i) (R.DMP_LANE_LOCKED i) 0).wr (8 + laneHalf i) (R.DMP_LANE_PHASE i) 2 else d
      | none => d
    else if (die = 8 ∨ die = 9) ∧ d.dmp.ret.isSome then
      ((List.range 36).filter fun i => laneHalf i = die - 8 && d.dmp.ret != some i && d.dmp.moving != some i && !bit locked i
        && d.rd 0 (R.DMP_LANE_ROLE i) ≤ 1 && d.rd 0 (R.DMP_HALF_N (die - 8)) ≠ 0).foldl Dev.damperLaneLost d
    else d) s

/-- LANE_LOSS (R323, R318): a receiver of the device declares a lane lost (family × 256 + index): a hearth lane, a damper lane, a
back channel. -/
def execLaneLoss (lane : Nat) (s : State) : Host.Outcome State Fault Refusal :=
  event (fun d =>
    let i := lane % 256
    match lane / 256 with
    | 0 =>
      if i > 16 then d
      else (d.portIfs (ifPort i)).foldl (fun d k => d.linkChange k false) (((d.bump 0 (R.LNK_H_LOSS i)).wr 0 (R.LNK_H i) 0).scanLost lane)
    | 2 => d.damperLaneLost i
    | 3 => if i > 7 then d else (d.lset i R.LNK_FL_STATE_BACK 0).scanLost lane
    | _ => d) s

/-! Credits (R31). -/

/-- CREDIT_REGRANT (R31): a flue die (0, 1) grants again every credit its egress buffers have free. -/
def execCreditRegrant (f : Nat) (s : State) : Host.Outcome State Fault Refusal :=
  hearthEvent (fun d =>
    if f > 1 ∨ d.dmp.ret.isNone then d
    else
      let used (n : Nat) : Nat := (((d.flu.getD f {}).runs.filter fun r => r.link = n).map fun r => runCredits r.words.length).sum
      { d with dmp := { d.dmp with credits := d.dmp.credits.mapIdx fun n c => if n / 4 = f then 128 - used n else c } }) s

/-- CREDIT (R30, R31): the hearth end receives returned credits. -/
def execCredit (f : Nat) (words : List Nat) (chk : MsgCheck) (s : State) : Host.Outcome State Fault Refusal :=
  event (fun d => d.received f ⟨0x86, words⟩ chk fun d =>
      { d with dmp := { d.dmp with credits := words.foldl (fun l w => l.modify (w / 2 ^ 56) fun c => min 128 (c + w / 2 ^ 40 % 65536)) d.dmp.credits } }) s

/-! Messages received by a flue die (R27, R28). -/

/-- A flue die (by ID) takes forward messages: its half delivers them and it is not in reset. -/
def Dev.takesForward (d : Dev) (die : Nat) : Bool := (die = 8 || die = 9) && d.rd 0 (R.DMP_HALF_ON (die - 8)) = 1 && !d.pwr.flueHeld

/-- PIXEL_RUN (R28, R27, R231, R262): a flue die receives pixel data: word 0 and data words. A run whose trailer fails leaves a
gap, which the die fills (R230, R263). -/
def execPixelRun (die : Nat) (words : List Nat) (chk : MsgCheck) (s : State) : Host.Outcome State Fault Refusal :=
  event (fun d =>
    if ¬ d.takesForward die then d
    else
      let d := d.badMessage die chk
      let w := words.headD 0
      let link := w / 2 ^ 56 % 256
      let line := w / 2 ^ 40 % 65536
      let first := w / 2 ^ 24 % 65536
      let frame := w % 2 ^ 24
      if chk = .hcrc ∨ link > 7 ∨ linkDie link ≠ die ∨ words = [] then d
      else if d.mode = 2 then
        let d := d.planeRun link line first frame (if chk = .good then some (words.drop 1) else none)
        let c := runCredits (words.length - 1)
        if c = 0 then d else d.retPut (die - 8) ⟨0x86, [link * 2 ^ 56 + c * 2 ^ 40]⟩
      else
        let r : Run := ⟨link, line, frame, first, words.drop 1, chk = .crc⟩
        { d with flu := d.flu.modify (die - 8) fun x => { x with runs := x.runs ++ [r] } }) s

/-- R262: the bytes of a flue die's plane store. -/
def planeSize : Nat := 0x4000000

/-- BULK_WRITE (R28, R30): a flue die receives bulk data for a die-local byte address. -/
def execBulkWrite (die addr count : Nat) (words : List Nat) (seq : Nat) (chk : MsgCheck) (s : State) : Host.Outcome State Fault Refusal :=
  event (fun d =>
    if ¬ d.takesForward die then d
    else if chk ≠ .good then d.badMessage die chk
    else if ¬ d.canAnswer die then d
    else if addr + count > planeSize ∨ count > 8 * words.length then d.answer die 0 1 0x07 seq
    else
      let bytes := ((words.map (encLe 8)).flatten).take count
      let d := { d with flu := d.flu.modify (die - 8) fun x => { x with store := cellsWrite x.store addr bytes } }
      d.answer die 0 0 0x07 seq) s

/-- R34: the kinds of die (as `dieKind` numbers them) that hold a block; 0 for a block number that does not appear. -/
def blockKinds (blk : Nat) : Nat :=
  if blk = 0x34 ∨ blk = 0x50 ∨ blk = 0x71 then 7
  else if blk = 0x0F then 3
  else if blk = 0x30 ∨ blk = 0x70 then 5
  else if blk = 0x11 ∨ blk = 0x12 ∨ blk = 0x13 ∨ blk = 0x33 then 2
  else if blk = 0x15 ∨ (0x20 ≤ blk ∧ blk ≤ 0x23) then 4
  else if [0x00, 0x0E, 0x14, 0x31, 0x32, 0x40, 0x41, 0x51, 0x60, 0x61].contains blk then 1
  else 0

/-- R35: an address is not refused for a die. -/
def implemented (die a : Nat) : Bool :=
  a / 2 ^ 28 % 16 = die && blockKinds (a / 2 ^ 20 % 256) &&& dieKind die ≠ 0 && a % 4 = 0

/-- R29: a part of a sequence is held: it replaces one of the same number. -/
def FlueEnd.hold (e : FlueEnd) (g id : Nat) (x : Part) : FlueEnd :=
  let mine (y : Held) : Bool := y.frame = g && y.id = id
  let was := match e.parts.find? mine with
    | some y => y.parts
    | none => []
  { e with parts := e.parts.filter (fun y => !mine y) ++ [⟨g, id, was.filter (fun y => y.num ≠ x.num) ++ [x]⟩] }

/-- R29, R212: a part of a sequence for a frame whose point has passed. -/
def Dev.lateCommit (d : Dev) (f g id : Nat) : Dev :=
  let e := d.flueEnd f
  let seen := e.late.contains (g, id)
  let d := d.setFlueEnd f { e with
    parts := e.parts.filter fun y => !(y.frame = g && y.id = id)
    late := if seen then e.late else ((g, id) :: e.late).take 1024 }
  if seen then d else d.bump (8 + f) R.SCN_COMMIT_LATE

/-- The commit whose sequence a part of SEQ `seq` belongs to (log entry 177): that of the access that awaits its answer; 0 where none does. -/
def Dev.commitOf (d : Dev) (die seq : Nat) : Nat :=
  match d.dmp.waiting.find? fun a => a.die = die && a.ty = 3 && a.seq = seq with
  | none => 0
  | some a => match a.why with
    | .commit id => id
    | _ => 0

/-- DAMPER_COMMIT_PART (R29, R30, R33, R35): a flue die receives a COMMIT part, holds or refuses it, and answers it. -/
def execDamperCommitPart (die : Nat) (words : List Nat) (seq : Nat) (chk : MsgCheck) (s : State) : Host.Outcome State Fault Refusal :=
  event (fun d =>
    if ¬ d.takesForward die then d
    else if chk ≠ .good then d.badMessage die chk
    else if ¬ d.canAnswer die then d
    else
      let w := words.headD 0
      let g := w % 2 ^ 48
      let vals : List (Nat × Nat) := (words.drop 1).map fun v => (v / 2 ^ 32 % 2 ^ 32, v % 2 ^ 32)
      let e := d.flueEnd (die - 8)
      let id := d.commitOf die seq
      if vals.any fun v => !implemented die v.1 then d.answer die 0 1 0x03 seq
      else if d.pwr.refuse.getD (die - 8) false && vals.any (fun v => powerBlock v.1) then d.answer die 0 3 0x03 seq
      else if e.applied.contains (g, id) then d.answer die 0 0 0x03 seq
      else if decide (g ≤ e.passed.getD 0) && e.passed.isSome then (d.lateCommit (die - 8) g id).answer die 0 4 0x03 seq
      else (d.setFlueEnd (die - 8) (e.hold g id ⟨w / 2 ^ 56 % 128, bit w 63, vals⟩)).answer die 0 0 0x03 seq) s

/-! Messages received by the hearth end (R30). -/

/-- FRAME_REPORT (R30): the hearth end receives a frame report; the signature stays with the flue die (R219, R226). -/
def execFrameReport (f : Nat) (words : List Nat) (chk : MsgCheck) (s : State) : Host.Outcome State Fault Refusal :=
  event (fun d => d.received f ⟨0x84, words⟩ chk id) s

/-- EVENT (R30, R472): the hearth end receives a raise of an event source. -/
def execEvent (f source : Nat) (chk : MsgCheck) (s : State) : Host.Outcome State Fault Refusal :=
  event (fun d => d.received f ⟨0x82, [source]⟩ chk fun d => d.raise (source % 1024)) s

/-- RETURN_HEARTBEAT_SEND (R30): an idle return lane carries a HEARTBEAT from the flue die that holds it. -/
def execReturnHeartbeatSend (s : State) : Host.Outcome State Fault Refusal :=
  event (fun d =>
    match d.dmp.ret with
    | none => d
    | some l =>
      if (d.flueEnd 0).queue ≠ [] ∨ (d.flueEnd 1).queue ≠ [] ∨ d.dmp.moving.isSome then d else d.backPut (laneHalf l) ⟨0x87, []⟩) s

/-- REG_REPLY (R30, R212): the hearth end receives the answer to an access: value, status, TYPE and SEQ answered. Status 0x01 is a bus error to the
core that made the access. -/
def execRegReply (f word : Nat) (chk : MsgCheck) (s : State) : Host.Outcome State Fault Refusal :=
  event (fun d => d.received f ⟨0x81, [word]⟩ chk fun d =>
      let status := word / 2 ^ 24 % 256
      let mine (a : Access) : Bool := a.die = 8 + f && a.ty = word / 2 ^ 16 % 256 && a.seq = word % 65536
      match d.dmp.waiting.find? mine with
      | none => d
      | some a =>
        let d := { d with dmp := { d.dmp with waiting := d.dmp.waiting.erase a } }
        match a.why with
        | .commit id => d.partAnswered id a.die status
        | .plain => if status = 1 then d.busError else d
        | .shutdown => d) s

/-- R36: a damper access goes unanswered: it is resent with a new SEQ up to 3 times, and then fails. -/
def Dev.replyTimeout (d : Dev) (a : Access) : Dev :=
  let d := { d with dmp := { d.dmp with waiting := d.dmp.waiting.erase a } }
  if a.resends < 3 then (d.bump 0 R.DMP_RESENDS).fwdSend a.die a.ty a.words (some a.why) (a.resends + 1)
  else
    let d := d.accessTimeout a.die a.ty
    match a.why with
    | .commit id => d.judge id a.die false
    | .plain => d
    | .shutdown => d

/-- DAMPER_REPLY_TIMEOUT (R30, R36): an access (die, TYPE, SEQ) has gone unanswered for 50 µs. -/
def execDamperReplyTimeout (die ty seq : Nat) (s : State) : Host.Outcome State Fault Refusal :=
  hearthEvent (fun d =>
    match d.dmp.waiting.find? fun a => a.die = die && a.ty = ty && a.seq = seq with
    | none => d
    | some a => d.replyTimeout a) s

end Sys2Proof.Machine
end

