-- ==== Sys2Proof/Machine/Fabric.lean ====
section
/-! DEFINITION. The die-to-die fabric (R13–R17): links that fail and return, and the conditions under which a hob die is
failed. Links 0–3 join the Mantel die to hob dies 0–3, links 4–9 the pairs 01, 02, 03, 12, 13, 23 of hob dies; link 10 is the
flue bridge. -/

namespace Sys2Proof.Machine

/-- R13: the hob dies (0–3) a fabric link ends on. -/
def fabEnds (n : Nat) : List Nat :=
  match n with
  | 4 => [0, 1]
  | 5 => [0, 2]
  | 6 => [0, 3]
  | 7 => [1, 2]
  | 8 => [1, 3]
  | 9 => [2, 3]
  | _ => if n < 4 then [n] else []

def Dev.fabLink (d : Dev) (n : Nat) : FabLink := amGet d.fab.links n {}
def Dev.setFabLink (d : Dev) (n : Nat) (x : FabLink) : Dev := { d with fab := { d.fab with links := amPut d.fab.links n x } }

/-- R17: the condition a hob die (0–3) meets first is kept. -/
def Dev.hobCondition (d : Dev) (i cause : Nat) : Dev :=
  match d.fab.cond.getD i none with
  | some _ => d
  | none => { d with fab := { d.fab with cond := d.fab.cond.set i (some cause) } }

/-- R17: a hob die's Mantel link and at least two of its hob links are down. -/
def Dev.linksFail (d : Dev) (i : Nat) : Bool :=
  (d.fabLink i).down && decide (((fromN 4 6).filter fun n => (fabEnds n).contains i && (d.fabLink n).down).length ≥ 2)

/-- R19: a fault of a link, against its lower die (log entry 61). -/
def Dev.fabricFault (d : Dev) (level n cause action : Nat) : Dev :=
  let die := if n < 4 then 0 else if n = 10 then 8 else 1 + (fabEnds n).headD 0
  d.descriptor level die (if n = 10 then 0x70 else 0x0F) n cause action 0

/-- R16: a link is declared down: its traffic is rerouted, and a block-level fault is reported, against the lower die of the
link. -/
def Dev.fabricDown (d : Dev) (n : Nat) : Dev :=
  let x := d.fabLink n
  if n > 10 ∨ x.down then d
  else
    let d := d.setFabLink n { x with down := true, good := 0 }
    let d := d.fabricFault 1 n Cause.linkDown 1
    (fabEnds n).foldl (fun d i => if d.linksFail i then d.hobCondition i Cause.linkDown else d) d

/-- R17: the link ends on a failed hob die: it is fenced. -/
def Dev.fenced (d : Dev) (n : Nat) : Bool := (fabEnds n).any fun i => d.fab.failed.getD i false

/-- R17: flits of a fenced link are discarded, and counted against each failed die it ends on. -/
def Dev.fenceFlits (d : Dev) (n flits : Nat) : Dev :=
  let gone (i : Nat) : Bool := (fabEnds n).contains i && d.fab.failed.getD i false
  { d with fab := { d.fab with fenced := d.fab.fenced.mapIdx fun i k => if gone i then k + flits else k } }

/-- FLIT_GROUP_REPLAY (R15, R17, R19): a flit group fails its CRC (`again`: the group replayed last) and is replayed, a corrected cell-level
fault; the fifth failure of the same group declares the link down. The eight flits of a fenced link are discarded. -/
def execFlitGroupReplay (link : Nat) (again : Bool) (s : State) : Host.Outcome State Fault Refusal :=
  hearthEvent (fun d =>
    let x := d.fabLink link
    if link > 10 ∨ x.down then d
    else if d.fenced link then d.fenceFlits link 8
    else
      let k := if again then x.fails + 1 else 1
      let d := d.setFabLink link { x with fails := k }
      if k ≥ 5 then d.fabricDown link else d.fabricFault 0 link Cause.crcError 0) s

/-- FABRIC_HEARTBEAT (R16, R17): an idle link sends a heartbeat flit; that of a fenced link is discarded. -/
def execFabricHeartbeat (link : Nat) (s : State) : Host.Outcome State Fault Refusal :=
  hearthEvent (fun d =>
    if link > 10 then d
    else if d.fenced link then d.fenceFlits link 1
    else let x := d.fabLink link; d.setFabLink link { x with beats := x.beats + 1 }) s

/-- FABRIC_LINK_DOWN (R16): no valid flit for 2 µs; of a fenced link none is expected (R17). -/
def execFabricLinkDown (link : Nat) (s : State) : Host.Outcome State Fault Refusal :=
  hearthEvent (fun d => if d.fenced link then d else d.fabricDown link) s

/-- FABRIC_LINK_RESTORE (R16, R17): 1,024 consecutive good flit groups, of 8 flits each, on a link that came back; those of a fenced link are
discarded. -/
def execFabricLinkRestore (link : Nat) (s : State) : Host.Outcome State Fault Refusal :=
  hearthEvent (fun d =>
    let x := d.fabLink link
    if link > 10 ∨ ¬ x.down then d
    else if d.fenced link then d.fenceFlits link 8192
    else d.setFabLink link { x with down := false, fails := 0, good := 1024 }) s

/-- HOB_WATCHDOG_TIMEOUT (R17): a hob die's (0–3) watchdog goes unanswered for 4 µs. -/
def execHobWatchdogTimeout (i : Nat) (s : State) : Host.Outcome State Fault Refusal := hearthEvent (fun d => d.hobCondition i Cause.watchdog) s

end Sys2Proof.Machine
end

