-- ==== Sys2Proof/Machine/Time.lean ====
section
/-! DEFINITION. Class 0x32 and the events of the time bases (R362–R370, R378–R387): setting and reading bases, PTP, pulse outputs
and capture inputs. -/

namespace Sys2Proof.Machine

/-- A second in 2^-32 ns. -/
def secTicks : Nat := 10 ^ 9 * 2 ^ 32

/-- R363: the range of a base: 48 bits of seconds. -/
def baseWrap : Nat := 2 ^ 48 * secTicks

/-- R363: the full form of a time. -/
def fullForm (v : Nat) : Bytes := enc 6 (v / secTicks) ++ enc 4 (v % secTicks / 2 ^ 32) ++ enc 2 (v % 2 ^ 32 / 2 ^ 16)

/-- R363: the time of a full form. -/
def ofFull (p : Bytes) (o : Nat) : Nat := u48 p o * secTicks + u32 p (o + 6) * 2 ^ 32 + u16 p (o + 10) * 2 ^ 16

/-- R369: the first point at or after a time of the grid START + k × PERIOD (short forms). -/
def gridFrom (start period t : Nat) : Nat :=
  let a := shortDiff t start
  if a ≤ 0 then start else (start + ceilDiv a.toNat period * period) % 2 ^ 64

/-- R362: the range of INCR. -/
def incrMin : Nat := 0x664C2F838
def incrMax : Nat := 0x66809D494

def Dev.setBase (d : Dev) (b v : Nat) : Dev := { d with time := { d.time with t := d.time.t.set b (v % baseWrap) } }

def Dev.setTpo (d : Dev) (n : Nat) (f : Tpo → Tpo) : Dev := { d with time := { d.time with tpo := d.time.tpo.modify n f } }

/-- R369: a one-shot fires. -/
def Dev.tpoFire (d : Dev) (n : Nat) (late : Bool) : Dev :=
  let d := (d.setTpo n fun x => { x with fired := true, first := if late then d.short x.base else x.first }).wr 0 (R.PTP_TPO_FIRED n) 1
  (if late then d.wr 0 (R.PTP_TPO_LATE n) 1 else d).raise (161 + n)

/-- R364: a step of a base: counted and reported; one-shots whose time a forward step passes fire late, periodic pulses go on at the next
point of their grid, capture windows whose close the step passes are closed; a step of MEDIA moves no raster, so the times of the frame in progress and of the last FSYNC_IN edge are restated on it. -/
def Dev.stepBase (d : Dev) (b v : Nat) : Dev :=
  let old := d.now b
  let was := d.short b
  let d := ((d.setBase b v).bump 0 (R.PTP_STEPS b)).raise 160
  let moved : Int := ((d.now b : Int) - old) / 2 ^ 16
  let d : Dev := if b ≠ 0 then d else { d with
    ras := { d.ras with
      startAt := ((d.ras.startAt : Int) + moved).toNat, fsLast := d.ras.fsLast.map fun t => ((t : Int) + moved).toNat }
    clk := { d.clk with copy := d.clk.copy.map (· - moved) } }
  let now := d.short b
  let grid (x : Tpo) : Tpo := if x.mode = 2 ∧ x.base = b then { x with first := gridFrom x.start x.period now } else x
  let shut (x : Tci) : Tci :=
    if x.base = b ∧ shortDiff x.closes was > 0 ∧ shortDiff x.closes now ≤ 0 then { x with shut := true } else x
  let d : Dev := { d with time := { d.time with tpo := d.time.tpo.map grid, tci := d.time.tci.map shut } }
  (List.range 8).foldl (fun d n =>
    let x := d.time.tpo.getD n {}
    if x.mode = 1 ∧ x.base = b ∧ ¬ x.fired ∧ shortDiff x.start was > 0 ∧ shortDiff x.start (d.short b) ≤ 0 then d.tpoFire n true else d) d

/-- R362: an increment applies from the next tick. -/
def Dev.setIncr (d : Dev) (b v : Nat) : Dev :=
  let d := { d with time := { d.time with incr := d.time.incr.set b v } }
  let d := (d.wr 0 (R.PTP_INCR_FRAC b) v).wr 0 (R.PTP_INCR_NS b) (v / 2 ^ 32)
  if b = 0 ∧ d.rd 0 R.PTP_STATE_MEDIA = 2 then
    { d with time := { d.time with ptp := { d.time.ptp with incrs := (d.now 3, v) :: d.time.ptp.incrs.take 8191 } } }
  else d

def Dev.setPtp (d : Dev) (f : Ptp → Ptp) : Dev := { d with time := { d.time with ptp := f d.time.ptp } }

/-- R381: HYBRID, SERVO host, SOURCE PPS_IN. -/
def Ptp.hybrid (x : Ptp) : Bool := bit x.flags 0
def Ptp.servoHost (x : Ptp) : Bool := bit x.flags 2
def Ptp.usesPps (x : Ptp) : Bool := bit x.flags 1

/-- R362, R367: the firmware servo owns MEDIA. -/
def Dev.servoOwned (d : Dev) (b : Nat) : Bool := b = 0 && !d.time.ptp.servoHost

/-- R367: MEDIA enters a state; it reports lock while LOCKED. -/
def Dev.mediaState (d : Dev) (st : Nat) : Dev :=
  (d.wr 0 R.PTP_STATE_MEDIA st).wr 0 R.PTP_STATE_REPORTS_LOCK (b2n (st = 2 || (st = 3 && d.time.ptp.hold ≠ 0)))

/-- R367: the mean increment over the last 64 s of LOCKED, each weighted by how long it was in effect. -/
def incrMean (now cur : Nat) (l : List (Nat × Nat)) : Nat :=
  let lo := now - 64 * secTicks
  let (sum, tot, _) := l.foldl (fun (a : Nat × Nat × Nat) e =>
    let (s, t, until_) := a
    let since := max e.1 lo
    if until_ ≤ since then (s, t, min until_ e.1) else (s + (until_ - since) * e.2, t + (until_ - since), e.1)) (0, 0, now)
  if tot = 0 then cur else (roundFree sum tot).toNat

/-- R367: MEDIA enters HOLDOVER: under the firmware servo INCR is held at its mean. -/
def Dev.holdover (d : Dev) : Dev :=
  let x := d.time.ptp
  let d := if x.servoHost then d else d.setIncr 0 (incrMean (d.now 3) (d.time.incr.getD 0 0) x.incrs)
  ((d.setPtp fun x => { x with heldAt := some (d.now 3), good := 0, bad := 0 }).mediaState 3).sourceLost

/-- R367: the servo reacquires. -/
def Dev.reacquire (d : Dev) : Dev :=
  let d := d.setPtp fun x => { x with good := 0, bad := 0, incrs := [], sync := none, twoStep := none, heldAt := none }
  (d.mediaState (if d.time.ptp.master.isSome || d.time.ptp.usesPps then 1 else 0)).sourceLost

/-! Commands of the bases. -/

/-- R379: VALUE of TIME_SET is out of range. -/
def timeBad (p : Bytes) : Bool :=
  match u8 p 1 with
  | 0 => decide (u32 p 10 ≥ 10 ^ 9)
  | 1 => decide ((signed 64 (u64 p 4)).natAbs > 10 ^ 12) || u16 p 14 ≠ 0
  | 2 => !decide (incrMin ≤ u64 p 4 ∧ u64 p 4 ≤ incrMax) || u32 p 12 ≠ 0
  | _ => decide (u8 p 4 > 1) || !zero? p 5 11 || u8 p 0 ≠ 0

/-- R364, R379: an ADD of signed ns and a 16-bit fraction. -/
def Dev.addBase (d : Dev) (b : Nat) (ns : Int) (frac : Nat) : Dev :=
  d.stepBase b (((d.now b : Int) + ns * 2 ^ 32 + frac * 2 ^ 16) % (baseWrap : Int)).toNat

/-- What the gate must know of TIME_SET. -/
def specTimeSet : OpSpec :=
  { op := 0x3200, len := (· = 16), check := fun _ _ p => failIf [
      (decide (u8 p 0 > 3) || decide (u8 p 1 > 3), 0), (!zero? p 2 2, Rs.reserved),
      (u8 p 0 = 3 && decide (u8 p 1 ≤ 2), 0x40), (timeBad p, 0)] }

/-- TIME_SET (R379, R364, R367, R368). -/
def execTimeSet (h : Hdr) (p : Bytes) (s : State) : Host.Outcome State Fault Refusal :=
  anvil specTimeSet h p (.timeSet h p)
    (fun _ d =>
      let b := u8 p 0
      let op := u8 p 1
      let x := d.time.ptp
      if op = 3 then
        if ¬ x.servoHost then (d, .bad St.badState 0x41)
        else
          let d := (d.mediaState (if u8 p 4 = 1 then 2 else if x.master.isSome then 1 else 0)).sourceLost
          (d, .done (fullForm (d.now 0)))
      else if op = 0 ∧ b = 0 ∧ x.usesPps then
        (d.setPtp fun x => { x with ppsSec := some (u48 p 4) }, .done (fullForm (d.now 0)))
      else if d.servoOwned b then (d, .bad St.badState 0x41)
      else
        let d := match op with
          | 0 => d.stepBase b (ofFull p 4)
          | 1 => d.addBase b (signed 64 (u64 p 4)) (u16 p 12)
          | _ => d.setIncr b (u64 p 4)
        (d, .done (fullForm (d.now b)))) s

/-- What the gate must know of TIME_READ. -/
def specTimeRead : OpSpec :=
  { op := 0x3201, len := (· = 0) }

/-- TIME_READ (R380). -/
def execTimeRead (h : Hdr) (p : Bytes) (s : State) : Host.Outcome State Fault Refusal :=
  anvil specTimeRead h p (.timeRead h p)
    (fun _ d => (d, .done (((List.range 4).map fun b =>
      fullForm (d.now b) ++ enc 1 (if b = 0 then d.rd 0 R.PTP_STATE_MEDIA else 0) ++ zeros 3).flatten))) s

/-- PTP_ADJ_GO (R364, R387): GO written in PTP_ADJ_CTRL applies the ADD. -/
def Dev.adjGo (d : Dev) (b frac : Nat) : Dev :=
  if b = 3 ∨ d.servoOwned b then d.bump 0 R.PTP_REFUSED
  else (d.wr 0 (R.PTP_ADJ_CTRL_FRAC b) frac).addBase b (d.rdI 0 (R.PTP_ADJ_NS b)) (frac % 65536)

/-- PTP_ADJ_GO (R364). -/
def execPtpAdjGo (base frac : Nat) (s : State) : Host.Outcome State Fault Refusal := hearthEvent (fun d => if base > 3 then d else d.adjGo base frac) s

/-- R362, R387: a write of PTP_INCR_NS applies INCR; one out of range is ignored. -/
def Dev.incrWrite (d : Dev) (b ns : Nat) : Dev :=
  if b = 3 ∨ d.servoOwned b then d.bump 0 R.PTP_REFUSED
  else
    let v := ns % 256 * 2 ^ 32 + d.rd 0 (R.PTP_INCR_FRAC b)
    if incrMin ≤ v ∧ v ≤ incrMax then d.setIncr b v else d

/-- PTP_INCR_WRITE (R362). -/
def execPtpIncrWrite (base ns : Nat) (s : State) : Host.Outcome State Fault Refusal := hearthEvent (fun d => if base > 3 then d else d.incrWrite base ns) s

/-- R387: a read of SEC_LO latches the base's time words. -/
def Dev.latchTime (d : Dev) (b : Nat) : Dev :=
  let v := d.now b
  ((((d.wr 0 (R.PTP_T_SEC_LO b) (v / secTicks)).wr 0 (R.PTP_T_SEC_HI b) (v / secTicks / 2 ^ 32)).wr 0 (R.PTP_T_NS b) (v % secTicks / 2 ^ 32)).wr 0
    (R.PTP_T_FRAC b) (v % 2 ^ 32 / 2 ^ 16))

/-- PTP_TIME_LATCH_READ (R387). -/
def execPtpTimeLatchRead (base : Nat) (s : State) : Host.Outcome State Fault Refusal := hearthEvent (fun d => if base > 3 then d else d.latchTime base) s

/-! PTP (R365–R368, R381–R383). -/

/-- What the gate must know of PTP_SET. -/
def specPtpSet : OpSpec :=
  { op := 0x3202, len := (· = 12), check := fun s _ p => failIf [
      (decide (u8 p 0 > 127) || decide (u8 p 1 > 16) || (decide (u8 p 2 > 16) && u8 p 2 ≠ 0xFF) || u8 p 1 = u8 p 2, 0),
      (decide (u8 p 3 > 7) || !zero? p 9 3, Rs.reserved),
      (!decide (10 ≤ u16 p 4 ∧ u16 p 4 ≤ 10000) || decide (u16 p 6 > 3600) || !decide (2 ≤ u8 p 8 ∧ u8 p 8 ≤ 10), 0),
      (!s.dev.ifExists (u8 p 1) || (u8 p 2 ≠ 0xFF && !s.dev.ifExists (u8 p 2)), 0x41)] }

/-- PTP_SET (R381). -/
def execPtpSet (h : Hdr) (p : Bytes) (s : State) : Host.Outcome State Fault Refusal :=
  anvil specPtpSet h p (.ptpSet h p)
    (fun _ d =>
      let keep (m : Master) : Bool := u8 p 0 = d.time.ptp.domain && (m.iface = u8 p 1 || m.iface = u8 p 2)
      let d := d.setPtp fun x => { x with
        domain := u8 p 0, ifA := u8 p 1, ifB := u8 p 2, flags := u8 p 3, lockNs := u16 p 4, hold := u16 p 6, annT := u8 p 8
        masters := x.masters.filter keep, master := x.master.filter keep, ppsSec := none }
      (([u8 p 1, u8 p 2].filter (· ≤ 16)).foldl Dev.igmpReport d.reacquire, .done)) s

/-- R382: whole seconds in HOLDOVER. -/
def Dev.heldSec (d : Dev) : Nat := match d.time.ptp.heldAt with | some t => if d.rd 0 R.PTP_STATE_MEDIA = 3 then (d.now 3 - t) / secTicks else 0 | none => 0

/-- What the gate must know of PTP_STATUS. -/
def specPtpStatus : OpSpec :=
  { op := 0x3203, len := (· = 0) }

/-- PTP_STATUS (R382). -/
def execPtpStatus (h : Hdr) (p : Bytes) (s : State) : Host.Outcome State Fault Refusal :=
  anvil specPtpStatus h p (.ptpStatus h p)
    (fun _ d =>
      let x := d.time.ptp
      (d, .done (enc 1 (d.rd 0 R.PTP_STATE_MEDIA) ++ enc 1 (d.rd 0 R.PTP_STATE_REPORTS_LOCK + 2 * d.rd 0 R.PTP_STATE_IF_B + 4 * b2n x.tlv)
        ++ enc 2 (match x.master with | some m => m.steps | none => 0) ++ enc 8 (match x.master with | some m => m.gm | none => 0)
        ++ enc 4 (d.rd 0 R.PTP_OFFSET) ++ enc 4 (d.rd 0 R.PTP_DELAY) ++ enc 2 (min d.heldSec 65535) ++ zeros 2 ++ enc 4 x.discard))) s

/-- What the gate must know of PTP_SAMPLES. -/
def specPtpSamples : OpSpec :=
  { op := 0x3204, len := (· = 4), check := fun _ _ p => failIf [
      (!decide (1 ≤ u8 p 0 ∧ u8 p 0 ≤ 64), 0), (!zero? p 1 3, Rs.reserved)] }

/-- PTP_SAMPLES (R383). -/
def execPtpSamples (h : Hdr) (p : Bytes) (s : State) : Host.Outcome State Fault Refusal :=
  anvil specPtpSamples h p (.ptpSamples h p)
    (fun _ d =>
      let l := d.time.ptp.samples
      let l := l.drop (l.length - u8 p 0)
      (d, .done (enc 1 l.length ++ zeros 3
        ++ (l.map fun r => enc 4 r.seq ++ enc 8 r.t1 ++ enc 8 r.t2 ++ enc 8 r.t3 ++ enc 8 r.t4).flatten))) s

/-- R366: the data set of a master in the order of the comparison of IEEE 1588-2019: quality, grandmaster, steps removed, then IF_A
before IF_B, then the port. -/
def Master.rank (ifA : Nat) (m : Master) : List Nat :=
  [m.pri1, m.cls, m.acc, m.var, m.pri2, m.gm, m.steps, if m.iface = ifA then 0 else 1, m.port]

/-- The lexicographic order of two lists of numbers. -/
def lexLt : List Nat → List Nat → Bool
  | a :: x, b :: y => decide (a < b) || (a = b && lexLt x y)
  | _, _ => false

/-- R366: the best master heard. -/
def Ptp.best (x : Ptp) : Option Master :=
  x.masters.foldl (fun b m => match b with
    | none => some m
    | some k => if lexLt (m.rank x.ifA) (k.rank x.ifA) then some m else b) none

/-- R366, R367: the best master is followed; a change of master or interface clears LOCKED and the servo reacquires; with none
left MEDIA enters HOLDOVER from LOCKED (a LOCKED the host set stays until HOLD_LIMIT). -/
def Dev.followBest (d : Dev) : Dev :=
  let x := d.time.ptp
  let best := x.best
  let was := x.master
  let d := d.setPtp fun x => { x with master := best, lostAt := if best.isSome then none else if was.isSome then some (d.now 3) else x.lostAt }
  match best, was with
  | some m, some o =>
    let d := d.wr 0 R.PTP_STATE_IF_B (b2n (m.iface = x.ifB))
    if m.iface = o.iface ∧ m.port = o.port then d else if x.usesPps then d else d.reacquire
  | some m, none =>
    let d := d.wr 0 R.PTP_STATE_IF_B (b2n (m.iface = x.ifB))
    if x.usesPps then d else if x.servoHost ∧ d.rd 0 R.PTP_STATE_MEDIA = 2 then d else d.reacquire
  | none, some _ => if d.rd 0 R.PTP_STATE_MEDIA = 2 ∧ ¬ x.servoHost ∧ ¬ x.usesPps then d.holdover else d
  | none, none => d

/-- R365: a message outside the supported ranges is discarded and counted. -/
def Dev.ptpDiscard (d : Dev) : Dev := d.setPtp fun x => { x with discard := min (x.discard + 1) (2 ^ 32 - 1) }

/-- R365, R366: an Announce received on an interface. -/
def Dev.ptpAnnounce (d : Dev) (m : Master) (domain : Nat) (logInt : Int) (tlv : Bool) : Dev :=
  if ¬ d.isPtpIf m.iface then d
  else if domain ≠ d.time.ptp.domain ∨ logInt < -3 ∨ logInt > 1 then d.ptpDiscard
  else
    let same (k : Master) : Bool := k.iface = m.iface && k.port = m.port
    let l := d.time.ptp.masters
    let l := if l.any same then l.map fun k => if same k then m else k else l ++ [m]
    (d.setPtp fun x => { x with masters := l, tlv := x.tlv || tlv }).followBest

/-- PTP_ANNOUNCE_RX (R365, R366). -/
def execPtpAnnounceRx (iface port pri1 cls acc var pri2 gm steps domain : Nat) (logInt : Int) (tlv : Bool) (addr : Nat) (s : State) :
    Host.Outcome State Fault Refusal :=
  hearthEvent (fun d => d.ptpAnnounce ⟨iface, port, pri1, cls, acc, var, pri2, gm, steps, addr⟩ domain logInt tlv) s

/-- R367: the mean path delay of the last 16 exchanges, in 2^-16 ns. -/
def Ptp.meanDelay (x : Ptp) : Int := if x.delays = [] then 0 else roundFree x.delays.sum x.delays.length

/-- R367: one run of the servo and of the lock condition on an offset in 2^-16 ns. An increment under the firmware servo is a free value
in the range of R362 (log entry 33). -/
def Dev.servo (d : Dev) (off : Int) : Dev :=
  let x := d.time.ptp
  let d := d.wr 0 R.PTP_OFFSET (twos 32 (satS 32 (roundFree off 65536)))
  if x.servoHost then d
  else
    let good := if off.natAbs < x.lockNs * 65536 then x.good + 1 else 0
    let bad := if off.natAbs > 10 * x.lockNs * 65536 then x.bad + 1 else 0
    let d := d.setPtp fun x => { x with good := good, bad := bad }
    let st := d.rd 0 R.PTP_STATE_MEDIA
    let d := if st = 2 ∧ bad ≥ 4 then (d.mediaState 1).sourceLost
      else if st ≠ 2 ∧ good ≥ 16 then ((d.setPtp fun x => { x with heldAt := none, incrs := [(d.now 3, d.time.incr.getD 0 0)] }).mediaState 2) else d
    if off.natAbs > 1000000 * 65536 then d.stepBase 0 (((d.now 0 : Int) - off * 65536) % (baseWrap : Int)).toNat
    else
      let (v, d) := d.freeVal 64
      d.setIncr 0 (incrMin + v % (incrMax - incrMin + 1))

/-- R367: an exchange is known: t1 and t2 (MEDIA, 2^-16 ns). -/
def Dev.syncSeen (d : Dev) (t1 t2 : Nat) : Dev :=
  let d := d.setPtp fun x => { x with sync := some (t1, t2), twoStep := none }
  if d.time.ptp.usesPps then d else d.servo ((t2 : Int) - t1 - d.time.ptp.meanDelay)

/-- R365, R367: a Sync received now from a port; `t1` is its origin time with corrections, in 2^-16 ns. -/
def Dev.ptpSync (d : Dev) (iface port domain : Nat) (logInt : Int) (two : Bool) (seq t1 : Nat) : Dev :=
  if ¬ d.isPtpIf iface then d
  else if domain ≠ d.time.ptp.domain ∨ logInt < -7 ∨ logInt > -1 then d.ptpDiscard
  else
    match d.time.ptp.master with
    | none => d
    | some m =>
      if m.iface ≠ iface ∨ m.port ≠ port then d
      else if two then d.setPtp fun x => { x with twoStep := some (seq, t1, d.media) }
      else d.syncSeen t1 d.media

/-- PTP_SYNC_RX (R365, R367). -/
def execPtpSyncRx (iface port domain : Nat) (logInt : Int) (two : Bool) (seq t1 : Nat) (s : State) : Host.Outcome State Fault Refusal :=
  hearthEvent (fun d => d.ptpSync iface port domain logInt two seq t1) s

/-- R365: a Follow_Up gives a two-step Sync its origin time (the Sync's own correction is in `twoStep`). -/
def Dev.ptpFollow (d : Dev) (iface port domain seq t1 : Nat) : Dev :=
  if ¬ d.isPtpIf iface then d
  else if domain ≠ d.time.ptp.domain then d.ptpDiscard
  else
    match d.time.ptp.master, d.time.ptp.twoStep with
    | some m, some (q, c, t2) => if m.iface = iface ∧ m.port = port ∧ q = seq then d.syncSeen (t1 + c) t2 else d
    | _, _ => d

/-- PTP_FOLLOW_UP_RX (R365). -/
def execPtpFollowUpRx (iface port domain seq t1 : Nat) (s : State) : Host.Outcome State Fault Refusal :=
  hearthEvent (fun d => d.ptpFollow iface port domain seq t1) s

/-- R365: a Delay_Req: its 44 bytes after the UDP header. -/
def Dev.delayReq (d : Dev) (iface seq : Nat) : Bytes :=
  enc 1 0x01 ++ enc 1 0x02 ++ enc 2 44 ++ enc 1 d.time.ptp.domain ++ zeros 15 ++ enc 8 (Config.mac iface).toNat ++ enc 2 1 ++ enc 2 seq
    ++ enc 1 1 ++ enc 1 0x7F ++ zeros 10

/-- DELAY_REQ_SEND (R365, R381): the device sends a Delay_Req, in hybrid mode to its master alone, and time-stamps it. -/
def execDelayReqSend (s : State) : Host.Outcome State Fault Refusal :=
  hearthEvent (fun d =>
    match d.time.ptp.master with
    | none => d
    | some m =>
      let q := d.time.ptp.reqSeq
      let d := d.setPtp fun x => { x with req := some (q, d.media), reqSeq := (q + 1) % 65536 }
      let dst := if d.time.ptp.hybrid then m.addr else ptpGroup
      d.send (.udp m.iface (d.nextHop m.iface false dst) dst 319 319 (d.delayReq m.iface q))) s

/-- R367, R383: a Delay_Resp answers the Delay_Req outstanding: a record is formed and the path delay averaged. -/
def Dev.ptpDelayResp (d : Dev) (iface port domain seq t4 : Nat) : Dev :=
  if ¬ d.isPtpIf iface then d
  else if domain ≠ d.time.ptp.domain then d.ptpDiscard
  else
    match d.time.ptp.master, d.time.ptp.req, d.time.ptp.sync with
    | some m, some (q, t3), some (t1, t2) =>
      if q ≠ seq ∨ m.port ≠ port ∨ m.iface ≠ iface then d
      else
        let delay := roundFree (((t2 : Int) - t1) + ((t4 : Int) - t3)) 2
        let d := d.setPtp fun x => { x with
          req := none, noAnswer := 0, delays := (delay :: x.delays).take 16, next := (x.next + 1) % 2 ^ 32
          samples := (x.samples ++ [PtpSample.mk x.next (t1 % 2 ^ 64) (t2 % 2 ^ 64) (t3 % 2 ^ 64) (t4 % 2 ^ 64)]).drop (x.samples.length + 1 - 64) }
        d.wr 0 R.PTP_DELAY (twos 32 (satS 32 (roundFree d.time.ptp.meanDelay 65536)))
    | _, _, _ => d

/-- DELAY_RESP_RX (R383, R367). -/
def execDelayRespRx (iface port domain seq t4 : Nat) (s : State) : Host.Outcome State Fault Refusal :=
  hearthEvent (fun d => d.ptpDelayResp iface port domain seq t4) s

/-- DELAY_REQ_TIMEOUT (R366): a Delay_Req unanswered after 1 s is counted; the delays already averaged are kept. -/
def execDelayReqTimeout (s : State) : Host.Outcome State Fault Refusal :=
  hearthEvent (fun d => if d.time.ptp.req = none then d else d.setPtp fun x => { x with req := none, noAnswer := x.noAnswer + 1 }) s

/-- ANNOUNCE_TIMEOUT (R366): a master's Announce messages stop: it is dropped. -/
def execAnnounceTimeout (iface port : Nat) (s : State) : Host.Outcome State Fault Refusal :=
  hearthEvent (fun d => (d.setPtp fun x => { x with masters := x.masters.filter fun m => ¬(m.iface = iface ∧ m.port = port) }).followBest) s

/-- HOLD_LIMIT_EXPIRE (R367): HOLDOVER has lasted HOLD_LIMIT: MEDIA stops reporting lock; a LOCKED the host set is cleared when
the port has had no master for HOLD_LIMIT. -/
def execHoldLimitExpire (s : State) : Host.Outcome State Fault Refusal :=
  hearthEvent (fun d =>
    let x := d.time.ptp
    let st := d.rd 0 R.PTP_STATE_MEDIA
    if st = 3 then (d.wr 0 R.PTP_STATE_REPORTS_LOCK 0).sourceLost
    else if st = 2 ∧ x.servoHost ∧ x.master = none then
      (((d.setPtp fun x => { x with heldAt := x.lostAt }).mediaState 3).wr 0 R.PTP_STATE_REPORTS_LOCK 0).sourceLost
    else d) s

/-! Pulse outputs (R369, R384). -/

/-- R384: a setting is out of range. -/
def tpoBad (p : Bytes) : Bool :=
  let per := u64 p 12
  let w := u32 p 20
  match u8 p 2 with
  | 0 => false
  | 1 => per ≠ 0 || !decide (10 ≤ w ∧ w ≤ 10 ^ 9)
  | _ => decide (per < 100 * 65536) || decide (per > (2 ^ 32 - 1) * 65536) || decide (w < 10) || decide ((w + 10) * 65536 > per)

/-- What the gate must know of TPO_SET. -/
def specTpoSet : OpSpec :=
  { op := 0x3205, len := (· = 24), check := fun _ _ p => failIf [
      (decide (u8 p 0 > 7) || decide (u8 p 1 > 3) || decide (u8 p 2 > 2), 0), (decide (u8 p 3 > 1), Rs.reserved), (tpoBad p, 0)] }

/-- TPO_SET (R384, R369). -/
def execTpoSet (h : Hdr) (p : Bytes) (s : State) : Host.Outcome State Fault Refusal :=
  anvil specTpoSet
    h p (.tpoSet h p)
    (fun _ d =>
      let n := u8 p 0
      if u8 p 2 = 1 ∧ shortDiff (u64 p 4) (d.short (u8 p 1)) < 1000 * 65536 then (d, .bad St.badState 0x42)
      else
        let from_ := (d.short (u8 p 1) + 1000 * 65536) % 2 ^ 64
        let x : Tpo := { mode := u8 p 2, base := u8 p 1, flags := u8 p 3, start := u64 p 4, period := u64 p 12, width := u32 p 20
                         first := if u8 p 2 = 2 then gridFrom (u64 p 4) (u64 p 12) from_ else u64 p 4
                         since := d.now 3 + 1000 * 2 ^ 32 }
        let d := { d with time := { d.time with
            tpoOld := if d.now 3 < (d.time.tpo.getD n {}).since then d.time.tpoOld else d.time.tpoOld.set n (d.time.tpo.getD n {}) } }
        let d := d.setTpo n fun _ => x
        ((d.wr 0 (R.PTP_TPO_MODE n) (u8 p 2)).wr 0 (R.PTP_TPO_BASE n) (u8 p 1), .done)) s

/-- TPO_FIRE (R369): a one-shot's time is reached. -/
def execTpoFire (pin : Nat) (s : State) : Host.Outcome State Fault Refusal :=
  hearthEvent (fun d => let x := d.time.tpo.getD pin {}; if x.mode = 1 ∧ ¬ x.fired then d.tpoFire pin false else d) s

/-- R369: the level of a pin by a setting: its pulse, inverted where it is active low. -/
def Dev.tpoLevel (d : Dev) (x : Tpo) : Bool :=
  let since := shortDiff (d.short x.base) x.first
  let on : Bool := match x.mode with
    | 0 => false
    | 1 => x.fired && decide (0 ≤ since) && decide (since < x.width * 65536)
    | _ => decide (0 ≤ since) && decide (since % x.period < x.width * 65536)
  on != bit x.flags 0

/-- R369: the level of a pin TPOn; a setting applies 1 µs after it is received. -/
def Dev.tpoPin (d : Dev) (n : Nat) : Bool :=
  d.tpoLevel (if d.now 3 < (d.time.tpo.getD n {}).since then d.time.tpoOld.getD n {} else d.time.tpo.getD n {})

/-- R387: the next edge of an output, a short form of its base; 0 with none to come. -/
def Dev.tpoNext (d : Dev) (n : Nat) : Nat :=
  let x := d.time.tpo.getD n {}
  let now := d.short x.base
  let ahead := shortDiff x.first now
  let w := x.width * 65536
  let edge (o : Int) : Nat := ((now : Int) + o).toNat % 2 ^ 64
  if x.mode = 0 then 0
  else if x.mode = 1 ∧ x.fired then (if ahead ≤ 0 ∧ ahead + w > 0 then edge (ahead + w) else 0)
  else if ahead > 0 then x.first
  else if x.mode = 1 then (if ahead + w > 0 then edge (ahead + w) else 0)
  else
    let into := (-ahead) % x.period
    if into < w then edge (w - into) else edge (x.period - into)

/-! Capture inputs (R370, R385). -/

def Dev.setTci (d : Dev) (n : Nat) (f : Tci → Tci) : Dev := { d with time := { d.time with tci := d.time.tci.modify n f } }

/-- What the gate must know of TCI_SET. -/
def specTciSet : OpSpec :=
  { op := 0x3206, len := (· = 20), check := fun _ _ p => failIf [
      (decide (u8 p 0 > 4) || decide (u8 p 1 > 3) || decide (u8 p 2 > 3), 0), (decide (u8 p 3 > 1), Rs.reserved)] }

/-- TCI_SET (R385). -/
def execTciSet (h : Hdr) (p : Bytes) (s : State) : Host.Outcome State Fault Refusal :=
  anvil specTciSet h p (.tciSet h p)
    (fun _ d =>
      let n := u8 p 0
      let d := d.setTci n fun x => { x with edge := u8 p 1, base := u8 p 2, window := u8 p 3 = 1, opens := u64 p 4, closes := u64 p 12, fifo := [], shut := false }
      ((d.wr 0 (R.PTP_TCI_EDGE n) (u8 p 1)).wr 0 (R.PTP_TCI_FILL n) 0, .done)) s

/-- What the gate must know of TCI_READ. -/
def specTciRead : OpSpec :=
  { op := 0x3207, len := (· = 4), check := fun _ _ p => failIf [
      (decide (u8 p 0 > 4) || !decide (1 ≤ u8 p 1 ∧ u8 p 1 ≤ 32), 0), (!zero? p 2 2, Rs.reserved)] }

/-- TCI_READ (R385). -/
def execTciRead (h : Hdr) (p : Bytes) (s : State) : Host.Outcome State Fault Refusal :=
  anvil specTciRead h p (.tciRead h p)
    (fun _ d =>
      let n := u8 p 0
      let q := (d.time.tci.getD n {}).fifo
      let l := q.take (u8 p 1)
      let d := (d.setTci n fun x => { x with fifo := q.drop (u8 p 1) }).wr 0 (R.PTP_TCI_FILL n) (q.length - l.length)
      (d, .done (enc 1 l.length ++ zeros 3 ++ enc 4 (d.rd 0 (R.PTP_TCI_OVERFLOW n)) ++ enc 4 (d.rd 0 (R.PTP_TCI_OUTSIDE n))
        ++ (l.map fun r => enc 4 r.seq ++ enc 1 r.edge ++ zeros 3 ++ (r.stamps.map (enc 8)).flatten).flatten))) s

/-- R370: an edge at an input. -/
def Dev.capture_ (d : Dev) (n : Nat) (rising : Bool) : Dev :=
  let x := d.time.tci.getD n {}
  let sel : Bool := if rising then x.edge = 1 || x.edge = 3 else x.edge = 2 || x.edge = 3
  let close : Bool := match x.last with | some l => decide (d.now 3 - l < 100 * 2 ^ 32) | none => false
  if n > 4 ∨ ¬ sel ∨ close then d
  else
    let d := d.setTci n fun x => { x with last := some (d.now 3) }
    let st := d.short x.base
    if x.window && (x.shut || decide (shortDiff st x.opens < 0) || decide (shortDiff st x.closes ≥ 0)) then d.bump 0 (R.PTP_TCI_OUTSIDE n)
    else if x.fifo.length ≥ 32 then d.bump 0 (R.PTP_TCI_OVERFLOW n)
    else
      let r : CapRec := ⟨x.seq, if rising then 1 else 2, (List.range 4).map d.short⟩
      let d := d.setTci n fun x => { x with fifo := x.fifo ++ [r], seq := (x.seq + 1) % 2 ^ 32 }
      (d.wr 0 (R.PTP_TCI_FILL n) (x.fifo.length + 1)).raise (169 + n)

/-- R368, R370: a rising edge of PPS_IN: recorded, and with SOURCE PPS_IN MEDIA's second. -/
def Dev.ppsEdge (d : Dev) : Dev :=
  let d := d.capture_ 4 true
  if ¬ d.time.ptp.usesPps then d
  else
    let sec := d.time.ptp.ppsSec
    let d := d.setPtp fun x => { x with ppsLast := some (d.now 3), ppsSec := none }
    let d := if d.rd 0 R.PTP_STATE_MEDIA = 0 ∨ d.rd 0 R.PTP_STATE_MEDIA = 3 then d.reacquire else d
    match sec with
    | some k => d.stepBase 0 (k * secTicks)
    | none =>
      let t := d.media
      let one := secTicks / 2 ^ 16
      let r : Int := ((t % one : Nat) : Int)
      d.servo (if 2 * r > one then r - one else r)

/-- CAPTURE_EDGE (R370): an edge at TCI0–TCI3 or PPS_IN; a rising one at PPS_IN is also MEDIA's (R368). -/
def execCaptureEdge (pin : Nat) (rising : Bool) (s : State) : Host.Outcome State Fault Refusal :=
  hearthEvent (fun d => if pin = 4 ∧ rising then d.ppsEdge else d.capture_ pin rising) s

/-- PPS_IN_EDGE (R368, R370): a rising edge of PPS_IN. -/
def execPpsInEdge (s : State) : Host.Outcome State Fault Refusal := hearthEvent Dev.ppsEdge s

/-- PPS_MISSING (R368): no PPS_IN edge for 2 s. -/
def execPpsMissing (s : State) : Host.Outcome State Fault Refusal :=
  hearthEvent (fun d => if d.time.ptp.usesPps ∧ d.rd 0 R.PTP_STATE_MEDIA = 2 then d.holdover else d) s

end Sys2Proof.Machine
end

