-- ==== Sys2Proof/Machine/Clocks.lean ====
section
/-! DEFINITION. Class 0x34 and the events of clock synthesis (R412–R427): references, PLLs, switch-over and return, and the flue raster
synthesizers (R32, R421). -/

namespace Sys2Proof.Machine

def Dev.clkDie (d : Dev) (k : Nat) : ClkDie := amGet d.clk.dies k {}
def Dev.setClkDie (d : Dev) (k : Nat) (f : ClkDie → ClkDie) : Dev := { d with clk := { d.clk with dies := amMod d.clk.dies k {} f } }

/-- The die IDs of R4. -/
def allDies : List Nat := [0] ++ hobDies ++ flueDies

/-- R473: a die reports its clock. -/
def Dev.clockEvent (d : Dev) (die : Nat) : Dev := if die ≥ 8 then d.flueEvent (die - 8) (224 + die) else d.raise (224 + die)

/-- R416: the block-level descriptor of a clock fault. -/
def Dev.clockFault (d : Dev) (die unit action : Nat) : Dev := (d.descriptor 1 die 0x34 unit Cause.pllLockLost action 0).clockEvent die

/-- R416: the outputs of a die switch to SPARE. -/
def Dev.toSpare (d : Dev) (die : Nat) : Dev :=
  ((d.wr die R.CLK_STATE_SRC 1).bump die R.CLK_SWITCHES).unsettled.setClkDie die fun x => { x with returning := false }

/-- R418, R17: a hob die without a clock: its watchdog goes unanswered. -/
def Dev.noClock (d : Dev) (die : Nat) : Dev := if 1 ≤ die ∧ die ≤ 4 then d.hobCondition (die - 1) Cause.watchdog else d

/-- R416, R418: the die runs on MAIN, which has failed: it switches over, if SPARE is locked; if not it has no clock (log entry 188). -/
def Dev.mainFailed (d : Dev) (die : Nat) : Dev :=
  if d.rd die R.CLK_STATE_SRC ≠ 0 then d
  else if d.rd die R.CLK_STATE_SPARE_LOCKED = 1 then (d.toSpare die).clockFault die 0 1 else d.noClock die

/-- R412: the dies a reference serves: REFCLK 0, FLUE_REF0 1, FLUE_REF1 2. -/
def refDies (ref : Nat) : List Nat :=
  match ref with
  | 0 => [0, 1, 2, 3, 4]
  | 1 => [8]
  | 2 => [9]
  | _ => []

/-- REF_LOSS (R412, R416, R417): a reference is lost: its dies switch to SPARE, which runs on in holdover. -/
def execRefLoss (ref : Nat) (s : State) : Host.Outcome State Fault Refusal :=
  hearthEvent (fun d => (refDies ref).foldl (fun d k =>
    if d.rd k R.CLK_STATE_REF_OK = 0 ∨ ¬ d.dieUp k then d
    else
      let d := ((d.wr k R.CLK_STATE_REF_OK 0).bump k R.CLK_REF_LOSS).mainFailed k
      let d := d.setClkDie k fun x => { x with returning := false }
      ((d.wr k R.CLK_STATE_MAIN_LOCKED 0).wr k R.CLK_STATE_HOLDOVER (d.rd k R.CLK_STATE_SPARE_LOCKED)).wr k R.CLK_STATE_SPARE_LOCKED 0) d) s

/-- REF_VALID (R412): a reference has been valid again for 1 ms. -/
def execRefValid (ref : Nat) (s : State) : Host.Outcome State Fault Refusal :=
  hearthEvent (fun d => (refDies ref).foldl (fun d k => d.wr k R.CLK_STATE_REF_OK 1) d) s

/-- MAIN_LOCK_LOSS (R415, R416, R418): MAIN of a die loses lock; four losses within 1 s hold it off. -/
def execMainLockLoss (die : Nat) (s : State) : Host.Outcome State Fault Refusal :=
  hearthEvent (fun d =>
    if dieKind die = 0 ∨ ¬ d.dieUp die ∨ d.rd die R.CLK_STATE_MAIN_LOCKED = 0 then d
    else
      let d := (d.wr die R.CLK_STATE_MAIN_LOCKED 0).bump die R.CLK_MAIN_LOSS
      let recent := d.stamp :: (d.clkDie die).losses.filter fun t => d.within t (10 ^ 9)
      let d := d.setClkDie die fun x => { x with losses := recent, returning := false }
      let d := if recent.length ≥ 4 then d.wr die R.CLK_STATE_MAIN_HELD 1 else d
      d.mainFailed die) s

/-- R417, R418: a die on SPARE begins to return to MAIN, where both are locked, MAIN is not held off and SPARE is not forced. -/
def Dev.beginReturn (d : Dev) (die : Nat) : Dev :=
  if d.rd die R.CLK_STATE_SRC = 1 ∧ d.rd die R.CLK_STATE_MAIN_LOCKED = 1 ∧ d.rd die R.CLK_STATE_SPARE_LOCKED = 1 ∧ d.rd die R.CLK_STATE_MAIN_HELD = 0 ∧ ¬ (d.clkDie die).forced then
    d.setClkDie die fun x => { x with returning := true }
  else d

/-- PLL_LOCK_ACQUIRE (R415, R413, R418): a PLL (0 MAIN, 1 SPARE) has been within WIN for N cycles. SPARE takes a new seed and
ends its holdover; a die on SPARE returns to a MAIN that is locked again, and one whose MAIN has failed switches to a SPARE that is (R418). -/
def execPllLockAcquire (die pll : Nat) (s : State) : Host.Outcome State Fault Refusal :=
  hearthEvent (fun d =>
    if dieKind die = 0 ∨ ¬ d.dieUp die ∨ d.rd die R.CLK_STATE_REF_OK = 0 then d
    else match pll with
      | 0 => (d.wr die R.CLK_STATE_MAIN_LOCKED 1).beginReturn die
      | 1 =>
        let d := ((d.wr die R.CLK_STATE_SPARE_LOCKED 1).wr die R.CLK_STATE_HOLDOVER 0).setClkDie die fun x => { x with seed := some (d.rd die R.CLK_SEED) }
        if d.rd die R.CLK_STATE_MAIN_LOCKED = 0 then d.mainFailed die else d.beginReturn die
      | _ => d) s

/-- MAIN_RETURN (R418, R419): SPARE is aligned and the mux switches to MAIN. -/
def execMainReturn (die : Nat) (s : State) : Host.Outcome State Fault Refusal :=
  hearthEvent (fun d =>
    let x := d.clkDie die
    if ¬ x.returning then d
    else ((d.wr die R.CLK_STATE_SRC 0).unsettled.setClkDie die fun x => { x with returning := false, waiting := [] }).completeAll x.waiting St.done 0) s

/-- SPARE_LOCK_LOSS (R418): SPARE fails: reported while MAIN runs; a die that runs on it has no clock, and its watchdog goes
unanswered (R17). -/
def execSpareLockLoss (die : Nat) (s : State) : Host.Outcome State Fault Refusal :=
  hearthEvent (fun d =>
    if dieKind die = 0 ∨ ¬ d.dieUp die ∨ d.rd die R.CLK_STATE_SPARE_LOCKED = 0 then d
    else
      let d := (d.wr die R.CLK_STATE_SPARE_LOCKED 0).clockFault die 1 0
      if d.rd die R.CLK_STATE_SRC = 1 then d.noClock die else d) s

/-! Commands. -/

/-- R423, R36: the die is answered FAULT: a failed hob die, a flue die out of reach. -/
def Dev.clkFault (d : Dev) (die : Nat) : Option Rep :=
  if 1 ≤ die ∧ die ≤ 4 ∧ ¬ d.hobUp die then some (.bad St.fault 0x42)
  else if (die = 8 ∨ die = 9) ∧ ¬ d.flueUp die then some (.bad St.fault 0)
  else none

/-- What the gate must know of CLK_STATUS. -/
def specClkStatus : OpSpec :=
  { op := 0x3400, len := (· = 4), check := fun _ _ p => failIf [(dieKind (u8 p 0) = 0, 0), (!zero? p 1 3, Rs.reserved)] }

/-- CLK_STATUS (R424). -/
def execClkStatus (h : Hdr) (p : Bytes) (s : State) : Host.Outcome State Fault Refusal :=
  anvil specClkStatus h p (.clkStatus h p)
    (fun _ d =>
      let k := u8 p 0
      match d.clkFault k with
      | some r => (d, r)
      | none =>
        let reg (f : Fld) : Bytes := enc 4 (rfGet d.regs (regAddr k f.off)).toNat
        d.flueRead h (if k ≥ 8 then [k] else []) fun d =>
          (d, .done (reg R.CLK_STATE_SRC ++ reg R.CLK_SWITCHES ++ reg R.CLK_MAIN_LOSS ++ reg R.CLK_REF_LOSS
            ++ (if k ≥ 8 then reg R.CLK_FR_STATE ++ reg R.CLK_FR_ERROR ++ reg R.CLK_FR_HOLDOVERS else zeros 12)))) s

/-- What the gate must know of CLK_CONFIG. -/
def specClkConfig : OpSpec :=
  { op := 0x3401, len := (· = 8), check := fun _ _ p => failIf [
      ((dieKind (u8 p 0) = 0 && u8 p 0 ≠ 0xFF) || !decide (10 ≤ u16 p 2 ∧ u16 p 2 ≤ 500) || decide (u16 p 4 < 64), 0),
      (!zero? p 1 1, Rs.reserved)] }

/-- CLK_CONFIG (R425): WIN, N and the seed of one die, or of every die in service. -/
def execClkConfig (h : Hdr) (p : Bytes) (s : State) : Host.Outcome State Fault Refusal :=
  anvil specClkConfig h p (.clkConfig h p)
    (fun _ d =>
      let k := u8 p 0
      let dies := if k = 0xFF then [0] ++ d.hobsUp ++ flueDies else [k]
      let set (d : Dev) (die : Nat) : Dev :=
        let d := (d.wr die R.CLK_LOCK_CFG_WIN (u16 p 2)).wr die R.CLK_LOCK_CFG_N (u16 p 4)
        if u16 p 6 = 0 then d else d.wr die R.CLK_SEED (u16 p 6)
      match if k = 0xFF then none else d.clkFault k with
      | some r => (d, r)
      | none =>
        let flue := dies.filter (· ≥ 8)
        if ¬ flue.all d.flueUp then (d, .bad St.fault 0)
        else
          let one (w : Nat × Nat) (d : Dev) : Dev :=
            if w.2 = 0 then (d.wr w.1 R.CLK_LOCK_CFG_WIN (u16 p 2)).wr w.1 R.CLK_LOCK_CFG_N (u16 p 4) else d.wr w.1 R.CLK_SEED (u16 p 6)
          let ws := (flue.map fun k => (k, 0) :: (if u16 p 6 = 0 then [] else [(k, 1)])).flatten
          let (_, d, r) := ((dies.filter (· < 8)).foldl set d).flueWrites h flue ws
            (fun w => (w.1, some (if w.2 = 0 then R.CLK_LOCK_CFG_WIN else R.CLK_SEED))) fun d w => one w d
          (d, r.getD .done)) s

/-- What the gate must know of CLK_SELECT. -/
def specClkSelect : OpSpec :=
  { op := 0x3402, len := (· = 4), check := fun _ _ p => failIf [
      (dieKind (u8 p 0) = 0 || decide (u8 p 1 > 2), 0), (!zero? p 2 2, Rs.reserved)] }

/-- CLK_SELECT (R426): automatic selection, SPARE forced, or a held-off MAIN released. -/
def execClkSelect (h : Hdr) (p : Bytes) (s : State) : Host.Outcome State Fault Refusal :=
  anvil specClkSelect h p (.clkSelect h p)
    (fun c d =>
      let k := u8 p 0
      match d.clkFault k with
      | some (.reply st rs _) => if k ≥ 8 then (((d.finalReply c St.accepted 0 []).complete c st rs), .later) else (d, .bad st rs)
      | some .later => (d, .later)
      | none =>
        if (d.clkDie k).returning then (d, .bad St.badState 0x41)
        else
          let d := d.finalReply c St.accepted 0 []
          let wait (d : Dev) : Dev :=
            let d := d.beginReturn k
            if (d.clkDie k).returning then d.setClkDie k fun x => { x with waiting := x.waiting ++ [c] } else d.complete c St.done 0
          match u8 p 1 with
          | 0 => (wait (d.setClkDie k fun x => { x with forced := false }), .later)
          | 1 =>
            if d.rd k R.CLK_STATE_SRC = 1 then ((d.setClkDie k fun x => { x with forced := true }).complete c St.done 0, .later)
            else if d.rd k R.CLK_STATE_SPARE_LOCKED = 0 then (d.complete c St.fault 0, .later)
            else ((((d.setClkDie k fun x => { x with forced := true }).toSpare k).clockEvent k).complete c St.done 0, .later)
          | _ =>
            if d.rd k R.CLK_STATE_MAIN_LOCKED = 0 then (d.complete c St.badState 0x40, .later)
            else (wait ((d.wr k R.CLK_STATE_MAIN_HELD 0).setClkDie k fun x => { x with forced := false, losses := [] }), .later)) s

/-! The flue raster synthesizers (R32, R420, R421). -/

/-- TIME_FWD_SEND (R32, R28): TIME_FWD leaves on both halves, DIE 0xF, each copy with its own SEQ (R27). -/
def execTimeFwdSend (s : State) : Host.Outcome State Fault Refusal :=
  hearthEvent (fun d =>
    let v := d.media
    let one := 10 ^ 9 * 65536
    let ws := [v / one * 65536, v % one / 65536 * 2 ^ 32 + v % 65536 * 65536]
    flueDies.foldl (fun d k => if d.rd 0 (R.DMP_HALF_ON (k - 8)) = 0 then d else d.fwdPut k 15 0x04 ws) d) s

def Dev.setSynth (d : Dev) (f : Nat) (g : FlueSynth → FlueSynth) : Dev := { d with clk := { d.clk with synth := d.clk.synth.modify f g } }

/-- R26, R32: DMP_FWD_LATENCY in 2^-16 ns (unit intervals of 35.6 ps). -/
def Dev.fwdLatency (d : Dev) (die : Nat) : Int := roundFree ((d.rd die R.DMP_FWD_LATENCY * 356 * 65536 : Nat) : Int) 10000

/-- R421: a flue die compares a carried time with its MEDIA copy: it steps the copy, or its loop corrects the raster clock by an
amount the spec does not state (log entry 34). -/
def Dev.timeFwd (d : Dev) (f carried : Nat) : Dev :=
  let die := 8 + f
  let copy := (d.media : Int) + d.clk.copy.getD f 0
  let err := (carried : Int) + d.fwdLatency die - copy
  let d := d.wr die R.CLK_FR_ERROR (twos 32 (satS 32 (roundFree err 65536)))
  let x := d.clk.synth.getD f {}
  let d := d.setSynth f fun x => { x with valid := x.valid + 1 }
  let d := if x.valid + 1 ≥ 8 then d.wr die R.CLK_FR_STATE 1 else d
  if err.natAbs > 1000 * 65536 then { d with clk := { d.clk with copy := d.clk.copy.set f (d.clk.copy.getD f 0 + err) } }
  else
    let (v, d) := d.freeVal 32
    let d := d.wr die R.CLK_FR_PPB v
    d.setSynth f fun x => { x with ppb := (d.stamp, signed 32 v) :: x.ppb.take 8191 }

/-- TIME_FWD (R32, R421, R27): a flue die receives TIME_FWD. -/
def execTimeFwd (die w0 w1 : Nat) (chk : MsgCheck) (s : State) : Host.Outcome State Fault Refusal :=
  event (fun d =>
    if ¬ d.takesForward die then d
    else if chk ≠ .good then (d.badMessage die chk).setSynth (die - 8) fun x => { x with valid := 0 }
    else d.timeFwd (die - 8) (w0 / 65536 * (10 ^ 9 * 65536) + w1 / 2 ^ 32 * 65536 + w1 / 65536 % 65536)) s

/-- FLUE_SYNTH_HOLDOVER (R32, R421): no valid TIME_FWD for 500 µs: the frequency word is held at its mean over the last second. -/
def execFlueSynthHoldover (die : Nat) (s : State) : Host.Outcome State Fault Refusal :=
  event (fun d =>
    if (die ≠ 8 ∧ die ≠ 9) ∨ d.rd die R.CLK_FR_STATE = 2 then d
    else
      let l := ((d.clk.synth.getD (die - 8) {}).ppb.filter fun e => d.within e.1 (10 ^ 9)).map (·.2)
      let d := (d.wr die R.CLK_FR_STATE 2).bump die R.CLK_FR_HOLDOVERS
      let d := if l = [] then d else d.wr die R.CLK_FR_PPB (twos 32 (roundFree l.sum l.length))
      d.setSynth (die - 8) fun x => { x with valid := 0 }) s

end Sys2Proof.Machine
end

