-- ==== Sys2Proof/Machine/Streams.lean ====
section
/-! DEFINITION. Class 0x11: stream slots, admission, view assignment and reports (R103–R137). -/

namespace Sys2Proof.Machine

/-! Load and admission (R118–R120). -/

/-- R131: a rate in Hz × 1,001. -/
def hz1001 (rate : Nat) : Nat :=
  match rate with
  | 0 => 24000
  | 1 => 24024
  | 2 => 25025
  | 3 => 30000
  | 4 => 30030
  | 5 => 50050
  | 6 => 60000
  | _ => 60060

def popcount (v n : Nat) : Nat := ((List.range n).filter fun i => bit v i).length

/-- R119: a stream's load in samples per second × 1,001. -/
def StreamCfg.loadOf (c : StreamCfg) : Nat :=
  if c.kind = 3 then 0 else (c.views * c.texW * c.texH + popcount c.mask 16 * c.depW * c.depH) * hz1001 c.rate

/-- R116: live. -/
def Stream.live (x : Stream) : Bool := x.prio ≥ 6

def Dev.decSt (d : Dev) (k : Nat) : FnSt := (d.fn (FnId.decode k)).st

/-- R119: the streams that count as enabled: those whose slot is not OFF. -/
def Dev.enabledStreams (d : Dev) : List Nat := (List.range 8).filter fun k => d.decSt k ≠ .off

def Dev.loadSum (d : Dev) (ks : List Nat) : Nat := (ks.map fun k => match (d.stream k).cfg with | some c => c.loadOf | none => 0).sum
def Dev.viewSum (d : Dev) (ks : List Nat) : Nat := (ks.map fun k => match (d.stream k).cfg with | some c => c.views | none => 0).sum

/-- R17: the hob dies (0–3) in service. -/
def Dev.hobNums (d : Dev) : List Nat := (List.range 4).filter fun i => !d.fab.failed.getD i false

/-- R119: the live conditions with slot `k` among the live streams. -/
def Dev.admitLive (d : Dev) (k : Nat) : Bool :=
  let ks := k :: (d.enabledStreams.filter fun j => j ≠ k && (d.stream j).live)
  decide (d.loadSum ks ≤ 12190000000 * 1001) && decide (d.viewSum ks ≤ 18)

/-- R119: admission of slot `k`. -/
def Dev.admits (d : Dev) (k : Nat) : Bool :=
  let all := k :: d.enabledStreams.filter (· ≠ k)
  (!(d.stream k).live || d.admitLive k) && decide (d.loadSum all ≤ d.hobNums.length * 4062500000 * 1001)
    && decide (d.viewSum all ≤ 6 * d.hobNums.length)

/-- The views a hob die (0–3) owns: (slot, view), ascending. -/
def Dev.viewsOn (d : Dev) (i : Nat) : List (Nat × Nat) :=
  ((List.range 8).map fun k => (((d.stream k).views.zipIdx).filter fun e => e.1.owner = some i).map fun e => (k, e.2)).flatten

/-- R120: the owner found from die `i` on. -/
def findDie (failed : List Bool) (used : List Nat) (i : Nat) : Nat :=
  (([0, 1, 2, 3].map fun j => (i + j) % 4).find? fun j => !failed.getD j false && used.getD j 0 < 6).getD (i % 4)

/-- R120: the owners of a stream's views without a table. -/
def placeViews (failed : List Bool) (slot : Nat) : Nat → Nat → List Nat → List Nat
  | 0, _, _ => []
  | n + 1, i, used =>
    let o := findDie failed used (i + slot)
    o :: placeViews failed slot n (i + 1) (used.modify o (· + 1))

/-! Reports (R129). -/

/-- R129: a decode report record is written and the decode report source raised. -/
def Dev.decRecord (d : Dev) (ty slot view : Nat) (depth : Bool) (detail : Nat) (poc aux : Int) : Dev :=
  let b := encLe 1 ty ++ encLe 1 slot ++ encLe 1 (view % 16 + 16 * b2n depth) ++ encLe 1 detail ++ encLe 4 (twos 32 poc) ++ encLe 4 (twos 32 aux)
    ++ encLe 4 d.dec.next
  let l := d.dec.ring ++ [(d.dec.next, b)]
  ({ d with dec := { d.dec with ring := l.drop (l.length - 64), next := (d.dec.next + 1) % 2 ^ 32 } } : Dev).raise 64

/-! Streams starting and stopping (R120, R127, R132). -/

/-- R120, R404: the channel of a hob die (0–3) in which a component's buffer is placed: one in service that holds no planish replica
where there is one; which of them is open (log entry 35). -/
def Dev.chooseChan (d : Dev) (i : Nat) : Nat × Dev :=
  let up := (List.range 4).filter fun c => d.rd (i + 1) (R.MEM_CH_STATE_STATE c) = 2
  let best := up.filter fun c => !(d.mem.maps.getD i []).contains c
  let l := if best = [] then up else best
  let (v, d) := d.freeVal 2
  (if l = [] then 0 else l.getD (v % l.length) 0, d)

/-- A view as it starts on a die (R127). -/
def Dev.newView (d : Dev) (i : Nat) : ViewSt × Dev :=
  let (a, d) := d.chooseChan i
  let (b, d) := d.chooseChan i
  ({ owner := some i, tex := { chan := a }, dep := { chan := b } }, d)

/-- R351: every interface of a stream's sources reports its groups. -/
def Dev.streamGroups (d : Dev) (k : Nat) : Dev :=
  let ifs := (((d.sources k).map fun z => pairIf z.pair 0 :: (if z.groupB ≠ 0 then [pairIf z.pair 1] else [])).flatten).eraseDups
  ifs.foldl Dev.igmpReport d

/-- The reception of a stream's sources is forgotten. -/
def Dev.dropRx (d : Dev) (k : Nat) : Dev := { d with net := { d.net with rx := d.net.rx.filter fun e => e.1 / 32 ≠ k } }

/-! The entropy-output buffer (R114). -/

/-- The bytes a component's pictures hold in the buffer. -/
def Comp.held (c : Comp) : Nat := (c.opened.map (·.bytes)).sum

/-- R114: the fill of the buffer of a hob die (0–3) by live or by non-live streams, in bytes. -/
def Dev.eob (d : Dev) (i : Nat) (live : Bool) : Nat :=
  ((d.viewsOn i).map fun e => if (d.stream e.1).live = live then (d.view e.1 e.2).tex.held + (d.view e.1 e.2).dep.held else 0).sum

/-- R137: a hob die's fill registers follow its buffer. -/
def Dev.eobSync (d : Dev) (i : Nat) : Dev :=
  let kib := ceilDiv (d.eob i true + d.eob i false) 1024
  (d.wr (i + 1) R.DEC_EOB_FILL kib).hwm (i + 1) R.DEC_EOB_HWM kib

/-- The fill of every hob die's buffer after pictures were dropped. -/
def Dev.eobAll (d : Dev) : Dev := [0, 1, 2, 3].foldl Dev.eobSync d

/-- R132: STARTING: groups joined, views placed, buffers reserved. -/
def Dev.streamStart (d : Dev) (k : Nat) : Dev :=
  match (d.stream k).cfg with
  | none => d
  | some c =>
    let used := (List.range 4).map fun i => (d.viewsOn i).length
    let owners := match (d.stream k).assign with
      | some t => t.take c.views
      | none => placeViews d.fab.failed k c.views 0 used
    let (vs, d) := owners.foldl (fun (a : List ViewSt × Dev) i => let (v, d) := a.2.newView i; (a.1 ++ [v], d)) ([], d)
    let d := (d.dropRx k).setStream k fun x => { x with views := vs, load := c.loadOf, nals := [], sets := [], ended := [], lost := 0 }
    d.streamGroups k

/-- R132: STOPPING: groups left and queued work discarded. -/
def Dev.streamStop (d : Dev) (k : Nat) : Dev :=
  let d := (d.dropRx k).setStream k fun x => { x with nals := [], ended := [], views := x.views.map fun v => {
    v with tex := { v.tex with opened := [] }, dep := { v.dep with opened := [] } } }
  d.eobAll.streamGroups k

/-- DECODE_STREAM_SET: the sources by their descriptors. -/
def sourcesOf (p : Bytes) : List Source :=
  (List.range (u8 p 3)).map fun n =>
    let o := 24 + 16 * n
    ⟨u8 p o % 16, bit (u8 p o) 4, bit (u8 p o) 5, u8 p (o + 1), u8 p (o + 2), u32 p (o + 4), u16 p (o + 8), u32 p (o + 12)⟩

def streamCfgOf (p : Bytes) : StreamCfg :=
  ⟨u8 p 1, u8 p 4, u8 p 5, u16 p 6, u16 p 8, u16 p 10, u16 p 12, u16 p 14, u8 p 16, sourcesOf p⟩

/-- R104: the components a configuration declares. -/
def StreamCfg.comps (c : StreamCfg) : List (Nat × Bool) :=
  ((List.range c.views).map fun v => (v, false)) ++ (((List.range c.views).filter fun v => bit c.mask v).map fun v => (v, true))

/-- R131: the sources match the kind. -/
def StreamCfg.sourcesOk (c : StreamCfg) : Bool :=
  let own := (c.sources.filter fun z => !z.all).map fun z => (z.view, z.depth)
  let alls := (c.sources.filter (·.all)).length
  let deps := c.comps.filter (·.2)
  let each (want : List (Nat × Bool)) : Bool := own.length = want.length && want.all own.contains
  match c.kind with
  | 1 => alls = 1 && each deps
  | 2 => alls = 1 && own = []
  | _ => alls = 0 && each c.comps

/-- R131: a source descriptor is out of range. -/
def sourceBad (p : Bytes) (n : Nat) : Bool :=
  let o := 24 + 16 * n
  decide (u8 p (o + 1) > 7) || !decide (96 ≤ u8 p (o + 2) ∧ u8 p (o + 2) ≤ 127) || !ip4Multi (u32 p (o + 4)) || decide (u16 p (o + 8) < 1024)
    || (u32 p (o + 12) ≠ 0 && !ip4Multi (u32 p (o + 12)))

/-- R131: the fixed part of DECODE_STREAM_SET is out of range. -/
def streamBad (p : Bytes) : Bool :=
  let dim (v hi : Nat) : Bool := !decide (64 ≤ v ∧ v ≤ hi) && !(v = 0 && u16 p 6 = 0)
  decide (u8 p 0 > 7) || decide (u8 p 1 > 3) || decide (u8 p 2 > 7) || !decide (1 ≤ u8 p 3 ∧ u8 p 3 ≤ 32) || !decide (1 ≤ u8 p 4 ∧ u8 p 4 ≤ 16)
    || decide (u8 p 5 > 7) || decide (u16 p 6 ≥ 2 ^ u8 p 4) || !decide (64 ≤ u16 p 8 ∧ u16 p 8 ≤ 3840) || !decide (64 ≤ u16 p 10 ∧ u16 p 10 ≤ 2160)
    || dim (u16 p 12) 1920 || dim (u16 p 14) 1080

/-- R130: a group and port already used by another slot or by another source. -/
def Dev.sourceInUse (d : Dev) (k : Nat) (l : List Source) : Bool :=
  let keys (z : Source) : List (Nat × Nat) := ((z.groupA, z.port) :: (if z.groupB ≠ 0 then [(z.groupB, z.port)] else [])).eraseDups
  let own := (l.map keys).flatten
  let others := (((List.range 8).filter (· ≠ k)).map fun j => ((d.sources j).map keys).flatten).flatten
  own.any others.contains || own.eraseDups.length ≠ own.length

/-- What the gate must know of DECODE_STREAM_SET. -/
def specDecodeStreamSet : OpSpec :=
  { op := 0x1100, len := fun n => decide (24 ≤ n) && (n - 24) % 16 = 0, fits := fun p => p.length = 24 + 16 * u8 p 3, check := fun _ _ p =>
      failIf [(streamBad p, 0), (decide (u8 p 16 > 3) || !zero? p 17 7, Rs.reserved),
        ((List.range (u8 p 3)).any fun n => decide (u8 p (24 + 16 * n) > 63) || u8 p (27 + 16 * n) ≠ 0 || u16 p (34 + 16 * n) ≠ 0, Rs.reserved),
        ((List.range (u8 p 3)).any (sourceBad p) || !(streamCfgOf p).sourcesOk, 0)] }

/-- DECODE_STREAM_SET (R131). -/
def execDecodeStreamSet (h : Hdr) (p : Bytes) (s : State) : Host.Outcome State Fault Refusal :=
  anvil specDecodeStreamSet h p (.decodeStreamSet h p)
    (fun _ d =>
      let k := u8 p 0
      let c := streamCfgOf p
      if d.decSt k ≠ .off then (d, .bad St.badState 0x40)
      else if c.sources.any fun z => !d.pairExists z.pair then (d, .bad St.badState 0x43)
      else if d.sourceInUse k c.sources then (d, .bad St.badState 0x42)
      else ((d.setStream k fun x => { x with cfg := some c, prio := u8 p 2, views := [], load := 0, lost := 0 }).sourceCheck, .done)) s

/-- What the gate must know of DECODE_STREAM_ENABLE. -/
def specDecodeStreamEnable : OpSpec :=
  { op := 0x1101, len := (· = 4), check := fun _ _ p => failIf [
      (decide (u8 p 0 > 7) || decide (u8 p 1 > 1), 0), (!zero? p 2 2, Rs.reserved)] }

/-- DECODE_STREAM_ENABLE (R132, R55, R119). -/
def execDecodeStreamEnable (h : Hdr) (p : Bytes) (s : State) : Host.Outcome State Fault Refusal :=
  anvil specDecodeStreamEnable h p (.decodeStreamEnable h p)
    (fun c d =>
      let k := u8 p 0
      let on : Bool := u8 p 1 = 1
      if (d.stream k).cfg = none then (d, .bad St.badState 0x45)
      else if on ∧ d.decSt k = .off ∧ ¬ d.admits k then (d, .bad St.noResource 0x41)
      else
        let (d, r, begins) := d.request (FnId.decode k) on true c
        (if begins then (if on then d.streamStart k else d.streamStop k) else d, r)) s

/-- DECODE_TRANSITION_DONE (R132): a slot reaches ON or OFF; a stored request is carried out. -/
def execDecodeTransitionDone (slot : Nat) (s : State) : Host.Outcome State Fault Refusal :=
  hearthEvent (fun d =>
    if slot > 7 then d
    else
      let was := d.decSt slot
      let release (d : Dev) : Dev := if was = .stopping then d.setStream slot fun x => { x with views := [], load := 0 } else d
      match d.fnDone (FnId.decode slot) with
      | (d, none) => release d
      | (d, some c) =>
        let d := release d
        if d.decSt slot = .stopping then d.streamStop slot
        else if ({ d with fns := amPut d.fns (FnId.decode slot) {} } : Dev).admits slot then d.streamStart slot
        else (d.setFn (FnId.decode slot) {}).complete c St.noResource 0x41) s

/-- What the gate must know of DECODE_PRIORITY. -/
def specDecodePriority : OpSpec :=
  { op := 0x1102, len := (· = 4), check := fun _ _ p => failIf [
      (decide (u8 p 0 > 7) || decide (u8 p 1 > 7), 0), (!zero? p 2 2, Rs.reserved)] }

/-- DECODE_PRIORITY (R133). -/
def execDecodePriority (h : Hdr) (p : Bytes) (s : State) : Host.Outcome State Fault Refusal :=
  anvil specDecodePriority h p (.decodePriority h p)
    (fun _ d =>
      let k := u8 p 0
      let old := (d.stream k).prio
      if (d.stream k).cfg = none then (d, .bad St.badState 0x45)
      else if u8 p 1 ≥ 6 ∧ old < 6 ∧ d.decSt k ≠ .off ∧ ¬ d.admitLive k then (d, .bad St.noResource 0x41)
      else (d.setStream k fun x => { x with prio := u8 p 1 }, .done (enc 1 old))) s

/-- R121: a table names a failed die, or puts more than six views on a die. -/
def Dev.tableBad (d : Dev) (k : Nat) (t : List Nat) : Bool :=
  t.any (fun i => d.fab.failed.getD i false)
    || (List.range 4).any fun i => decide ((t.filter (· = i)).length + ((d.viewsOn i).filter fun e => e.1 ≠ k).length > 6)

/-- R121, R124: a component whose pictures are gone: concealed until a picture begun from now on ends that. -/
def Comp.restart (c : Comp) : Comp := { c with hidden := some c.count, trial := none, cycles := [], dpb := [], opened := [] }

/-- R121, R124: a view moves to another die: its pictures are not carried over. -/
def Dev.moveView (d : Dev) (k v : Nat) (owner : Option Nat) : Dev :=
  let x := (d.stream k).views.getD v {}
  let gone (c : Comp) (chan : Nat) : Comp := { c.restart with chan := chan }
  let (a, d) := match owner with | some i => d.chooseChan i | none => (0, d)
  let (b, d) := match owner with | some i => d.chooseChan i | none => (0, d)
  let d := d.setStream k fun y => { y with views := y.views.set v { x with owner := owner, tex := gone x.tex a, dep := gone x.dep b } }
  (d.eobAll).decRecord 6 k v false (owner.getD 0xFF) x.lastPoc 0

/-- What the gate must know of DECODE_ASSIGN. -/
def specDecodeAssign : OpSpec :=
  { op := 0x1103, len := (· = 20), check := fun _ _ p => failIf [
      (decide (u8 p 0 > 7) || decide (u8 p 1 > 1), 0), (!zero? p 2 2, Rs.reserved)] }

/-- DECODE_ASSIGN (R134, R121). -/
def execDecodeAssign (h : Hdr) (p : Bytes) (s : State) : Host.Outcome State Fault Refusal :=
  anvil specDecodeAssign h p (.decodeAssign h p)
    (fun _ d =>
      let k := u8 p 0
      let all := (List.range 16).map fun i => u8 p (4 + i)
      if all.all (· = 0xFF) then (d.setStream k fun x => { x with assign := none }, .done)
      else match (d.stream k).cfg with
        | none => (d, .bad St.badState 0x45)
        | some c =>
          let t := all.take c.views
          if t.any (fun i => decide (i > 3)) || (all.drop c.views).any (· ≠ 0) then (d, .bad St.badParam 0)
          else if d.tableBad k t then (d, .bad St.badParam 0x44)
          else if u8 p 1 = 1 ∧ d.decSt k ≠ .on then (d, .bad St.badState 0)
          else
            let d := d.setStream k fun x => { x with assign := some t }
            if u8 p 1 = 0 then (d, .done)
            else
              let moved := (List.range c.views).filter fun v => ((d.stream k).views.getD v {}).owner ≠ some (t.getD v 0)
              (moved.foldl (fun d v => d.moveView k v (some (t.getD v 0))) d, .done)) s

/-- R135: a component's part of VIEW_STATE. -/
def Comp.code (c : Comp) : Nat := if c.tool.isSome then 4 else if c.hidden.isSome then 3 else if c.waiting then 1 else 2

/-- R125: a component is concealed. -/
def Comp.concealed (c : Comp) : Bool := c.waiting || c.hidden.isSome || c.tool.isSome

/-- R135: VIEW_STATE. -/
def ViewSt.code (v : ViewSt) (depth : Bool) : Nat :=
  if v.owner = none then 5 else max v.tex.code (if depth then v.dep.code else 0)

/-- R135: the entry of a view. -/
def Dev.viewEntry (d : Dev) (k i : Nat) : Bytes :=
  let x := d.stream k
  match x.cfg, x.views[i]? with
  | some c, some v =>
    let hasDep := bit c.mask i
    enc 1 (v.code hasDep) ++ enc 1 (v.owner.getD 0xFF)
      ++ enc 1 (b2n (!hasDep) + 2 * b2n v.tex.concealed + 4 * b2n (hasDep && v.dep.concealed))
      ++ enc 1 (v.tex.tool.getD (if hasDep then v.dep.tool.getD 0 else 0)) ++ enc 4 (twos 32 v.lastPoc)
  | _, _ => enc 1 0 ++ enc 1 0xFF ++ zeros 6

/-- What the gate must know of DECODE_STATUS. -/
def specDecodeStatus : OpSpec :=
  { op := 0x1104, len := (· = 4), check := fun _ _ p => failIf [(decide (u8 p 0 > 7), 0), (!zero? p 1 3, Rs.reserved)] }

/-- DECODE_STATUS (R135). -/
def execDecodeStatus (h : Hdr) (p : Bytes) (s : State) : Host.Outcome State Fault Refusal :=
  anvil specDecodeStatus h p (.decodeStatus h p)
    (fun _ d =>
      let k := u8 p 0
      let x := d.stream k
      (d, .done (enc 1 (d.decSt k).num ++ enc 1 x.prio ++ zeros 2 ++ enc 4 (roundFree x.load (1001 * 1000000)).toNat ++ enc 4 x.lost
        ++ ((List.range 16).map (d.viewEntry k)).flatten))) s

/-- What the gate must know of DECODE_EVENTS. -/
def specDecodeEvents : OpSpec :=
  { op := 0x1105, len := (· = 8), check := fun _ _ p => failIf [
      (!decide (1 ≤ u16 p 4 ∧ u16 p 4 ≤ 64), 0), (!zero? p 6 2, Rs.reserved)] }

/-- DECODE_EVENTS (R136). -/
def execDecodeEvents (h : Hdr) (p : Bytes) (s : State) : Host.Outcome State Fault Refusal :=
  anvil specDecodeEvents h p (.decodeEvents h p)
    (fun _ d =>
      let oldest := match d.dec.ring with | e :: _ => e.1 | [] => d.dec.next
      let l := (d.dec.ring.filter fun e => e.1 ≥ u32 p 0).take (u16 p 4)
      (d, .done (enc 4 oldest ++ enc 4 d.dec.next ++ (l.map (·.2)).flatten))) s

/-! Views of a failed die (R122). -/

/-- The placed views of every enabled stream: (slot, view, owner). -/
def Dev.placed (d : Dev) : List (Nat × Nat × Option Nat) :=
  (d.enabledStreams.map fun k => ((d.stream k).views.zipIdx).map fun e => (k, e.2, e.1.owner)).flatten

def Dev.liveOn (d : Dev) (i : Nat) : Nat := ((d.viewsOn i).filter fun e => (d.stream e.1).live).length

/-- R122 rule 1: the surviving die with the fewest live views. -/
def Dev.fewestLive (d : Dev) : Option Nat :=
  d.hobNums.foldl (fun b i => match b with
    | none => some i
    | some j => if d.liveOn i < d.liveOn j then some i else some j) none

/-- R122 rule 2: the non-live view on a die that is displaced: the lowest priority, then the highest slot, then the highest view. -/
def Dev.victim (d : Dev) (i : Nat) : Option (Nat × Nat) :=
  ((d.viewsOn i).filter fun e => !(d.stream e.1).live).foldl (fun b e => match b with
    | none => some e
    | some j => if (d.stream e.1).prio ≤ (d.stream j.1).prio then some e else some j) none

/-- A view's owner is cleared while its place is sought. -/
def Dev.unplace (d : Dev) (e : Nat × Nat) : Dev :=
  d.setStream e.1 fun y => { y with views := y.views.modify e.2 fun v => { v with owner := none } }

/-- R122 rule 1 and 2: a live view is placed; the view it displaces, if any. -/
def Dev.placeLive (d : Dev) (e : Nat × Nat) : Dev × List (Nat × Nat) :=
  match d.fewestLive with
  | none => (d, [])
  | some i =>
    if (d.viewsOn i).length < 6 then (d.moveView e.1 e.2 (some i), [])
    else match d.victim i with
      | some v => ((d.unplace v).moveView e.1 e.2 (some i), [v])
      | none => (d.moveView e.1 e.2 none, [])

/-- R122 rule 3: a view takes a free slot, or is UNPLACED. -/
def Dev.placeFree (d : Dev) (e : Nat × Nat) : Dev := d.moveView e.1 e.2 (d.hobNums.find? fun i => (d.viewsOn i).length < 6)

/-- R122 rule 3: descending priority, then ascending slot and view. -/
def Dev.byPriority (d : Dev) (l : List (Nat × Nat)) : List (Nat × Nat) :=
  l.mergeSort fun a b =>
    let pa := (d.stream a.1).prio
    let pb := (d.stream b.1).prio
    decide (pa > pb) || (pa = pb && (decide (a.1 < b.1) || (a.1 = b.1 && decide (a.2 ≤ b.2))))

/-- VIEW_REPLACE (R122): the views of failed dies are placed on the remaining ones. -/
def execViewReplace (s : State) : Host.Outcome State Fault Refusal :=
  hearthEvent (fun d =>
    let lost := (d.placed.filter fun e => match e.2.2 with | some i => d.fab.failed.getD i false | none => false).map fun e => (e.1, e.2.1)
    let d := lost.foldl Dev.unplace d
    let (live, rest) := lost.partition fun e => (d.stream e.1).live
    let (d, out) := live.foldl (fun (a : Dev × List (Nat × Nat)) e => let (d, l) := a.1.placeLive e; (d, a.2 ++ l)) (d, [])
    (d.byPriority rest ++ d.byPriority out).foldl Dev.placeFree d) s

end Sys2Proof.Machine
end

