-- ==== Sys2Proof/Machine/Decoding.lean ====
section
/-! DEFINITION. The decoding of pictures (R105–R117, R123–R128, R356): slices parsed, rows reconstructed, access units closed,
substitution and concealment. What a slice holds comes with the event; the samples of coded slices are named by picture numbers. -/

namespace Sys2Proof.Machine

/-! Samples (R111, R124, R128). -/

def PicData.desc : PicData → PicDesc
  | .coded d => d
  | .flat d => d
  | .raw d _ => d
  | .filled d _ _ _ => d

/-- The picture under another number. -/
def PicData.withDesc (p : PicData) (x : PicDesc) : PicData :=
  match p with
  | .coded d => .coded { d with num := x.num }
  | .flat _ => .flat x
  | .raw _ l => .raw x l
  | .filled d c l s => .filled { d with num := x.num } c l s

/-- A 10-bit sample of a pixel group, most significant bit first. -/
def sample10 (b : Bytes) (o n : Nat) : Nat := u16 b (o + 10 * n / 8) / 2 ^ (6 - 10 * n % 8) % 1024

/-- R355: the sample a run holds of a plane (0 luma or depth, 1 Cb, 2 Cr), if it covers it. A texture group holds Y00 Y01 Y10 Y11 Cb Cr of its
left two columns, then of its right two. -/
def RawRun.sample (r : RawRun) (depth : Bool) (plane x y : Nat) : Option Nat :=
  let lx := if plane = 0 then x else 2 * x
  let ly := if plane = 0 then y else 2 * y
  let g := (lx - r.col) / 4
  let q := (lx - r.col) % 4
  if lx < r.col ∨ g ≥ r.data.length / pgOctets depth then none
  else if depth then (if r.row = y then some (sample10 r.data (5 * g) q) else none)
  else if r.row ≠ ly / 2 * 2 then none
  else some (sample10 r.data (15 * g) (q / 2 * 6 + (if plane = 0 then ly % 2 * 2 + q % 2 else 3 + plane)))

/-- R124: the CTU of a luma position, in raster scan. -/
def PicDesc.ctuAt (d : PicDesc) (ctb x y : Nat) : Nat := y / max ctb 1 * ceilDiv d.w (max ctb 1) + x / max ctb 1

/-- The code of a sample. Samples of coded slices, samples outside the picture and samples of an uncompressed picture that neither it nor an
earlier one received are free (log entry 40). -/
def PicData.sample (p : PicData) (plane : Nat) (x y : Int) : Nat :=
  let free (d : PicDesc) : Nat := (Config.sample d.num plane x y).toNat % 2 ^ d.bits
  let sh (d : PicDesc) : Bool := let k := if plane = 0 then 1 else 2; decide (0 ≤ x) && decide (k * x < d.w) && decide (0 ≤ y) && decide (k * y < d.h)
  match p with
  | .coded d => free d
  | .flat d => if sh d then (if d.depth then 0 else 2 ^ (d.bits - 1)) else free d
  | .raw d l => if sh d then ((l.findSome? fun r => r.sample d.depth plane x.toNat y.toNat).getD (free d)) else free d
  | .filled d ctb lost sub =>
    let k := if plane = 0 then 1 else 2
    let a := d.ctuAt ctb (k * x).toNat (k * y).toNat
    if sh d && lost.any fun e => decide (e.1 ≤ a) && decide (a < e.1 + e.2) then sub.sample plane x y else free d

/-! The substitute of a picture (R124). -/

/-- R124: the available picture nearest to an order count, ties to the lower. -/
def Comp.nearest (c : Comp) (poc : Int) : Option Pic :=
  c.dpb.foldl (fun b x => match b with
    | none => some x
    | some y =>
      if (x.poc - poc).natAbs < (y.poc - poc).natAbs ∨ ((x.poc - poc).natAbs = (y.poc - poc).natAbs ∧ x.poc < y.poc) then some x else some y) none

/-- R124, R129: DETAIL of a substitution: 0 the nearest picture, 1 a flat one. -/
def Comp.substDetail (c : Comp) (poc : Int) : Nat := if (c.nearest poc).isSome then 0 else 1

/-- R124: what stands in for a picture. -/
def Comp.standIn (c : Comp) (poc : Int) (x : PicDesc) : PicData :=
  match c.nearest poc with
  | some q => q.data
  | none => .flat x

/-- The die ID whose registers count what befalls a view. -/
def Dev.viewDie (d : Dev) (k v : Nat) : Nat := (d.view k v).owner.getD 0 + 1

/-- R125, R126: a substitution in a picture: its component is concealed from it on, and the refresh cycles it falls into end. -/
def Comp.substituted (c : Comp) (poc : Int) : Comp :=
  match c.opened.find? fun o => o.poc = poc && !o.closed with
  | none => c
  | some o => ({ c with hidden := some (max o.serial (c.hidden.getD 0)), cycles := c.cycles.filter fun e => e.1 > o.serial } : Comp).modOpen poc
      fun o => { o with subst := true }

/-- R125: an inter-layer reference of a picture is concealed. -/
def Comp.interHidden (c : Comp) (poc : Int) : Comp :=
  match c.opened.find? fun o => o.poc = poc && !o.closed with
  | none => c
  | some o => ({ c with hidden := some (max o.serial (c.hidden.getD 0)) } : Comp).modOpen poc fun o => { o with inter := true }

/-! Due times and the choice of work (R116, R117, R145). -/

/-- R145: the first frame that needs a picture: none where no frame does, or where that is not known before its access unit closes. With a
presentation delay it follows from the presentation time; without, it is the frame picked first after the access unit closed. -/
def Dev.dueFrame (d : Dev) (k time : Nat) : Option Nat :=
  let die := d.hobsUp.headD 1
  let delay := d.rdB die R.SYN_PRES_DELAY
  if d.mode = 0 ∨ d.rdB die R.SYN_SOURCE_SLOT ≠ k then none
  else if delay = 0 then ((d.stream k).ended.find? fun e => e.time = time).map (·.due)
  else
    let (n, b) := d.frameStart d.frame
    let period := (d.frameStart (d.frame + 1)).1 - n
    let wait := (d.mediaAt time + (delay * 1000 * 65536 : Nat)) * b - n
    if period ≤ 0 then none else some ((d.frame : Int) - (-wait) / period).toNat

/-- A piece of work of a component: slot, view, depth, presentation time. -/
structure Work where
  slot  : Nat
  view  : Nat
  depth : Bool
  time  : Nat
  deriving DecidableEq, Repr

/-- R116: the first piece comes before the second: higher priority, earlier due time, lower slot, lower view. -/
def Dev.before (d : Dev) (a b : Work) : Bool :=
  let pa := (d.stream a.slot).prio
  let pb := (d.stream b.slot).prio
  let due (w : Work) : Nat × Nat := match d.dueFrame w.slot w.time with
    | some f => (0, f)
    | none => (1, 0)
  let (xa, xb) := (due a, due b)
  if pa ≠ pb then pa > pb
  else if xa.1 ≠ xb.1 then xa.1 < xb.1
  else if xa.2 ≠ xb.2 then xa.2 < xb.2
  else if a.slot ≠ b.slot then a.slot < b.slot
  else if a.view ≠ b.view then a.view < b.view
  else !a.depth && b.depth

/-- R116: the piece taken among those ready. -/
def Dev.choose (d : Dev) (l : List Work) : Option Work :=
  l.foldl (fun b w => match b with
    | none => some w
    | some y => if d.before w y then some w else some y) none

/-- The components a hob die (0–3) owns in the slots that are ON. -/
def Dev.compsOn (d : Dev) (i : Nat) : List (Nat × Nat × Bool) :=
  (((d.viewsOn i).filter fun e => d.decSt e.1 = .on).map fun e => [(e.1, e.2, false), (e.1, e.2, true)]).flatten

/-- The oldest slice of a component that waits. -/
def Dev.firstNal (d : Dev) (e : Nat × Nat × Bool) : Option Nal := (d.stream e.1).nals.find? fun n => n.view = e.2.1 && n.depth = e.2.2

/-- R113, R116: the slice an entropy engine of hob die `i` takes next. -/
def Dev.nextSlice (d : Dev) (i : Nat) : Option (Work × Nal) :=
  match d.choose ((d.compsOn i).filterMap fun e => (d.firstNal e).map fun n => ⟨e.1, e.2.1, e.2.2, n.time⟩) with
  | none => none
  | some w => (d.firstNal (w.slot, w.view, w.depth)).map fun n => (w, n)

/-- R116: an engine (0, 1 entropy, 2–7 pixel) of a hob die takes work; a switch from non-live to live work is counted. -/
def Dev.takeWork (d : Dev) (i engine : Nat) (live : Bool) : Dev :=
  let was := amGet d.dec.last (i * 8 + engine) true
  let d := { d with dec := { d.dec with last := amPut d.dec.last (i * 8 + engine) live } }
  if live && !was then d.bump (i + 1) R.DEC_PREEMPT else d

/-! Tools and limits (R106–R108). -/

/-- R107: the code of a tool that is not supported. -/
def toolNumber : Tool → Option Nat
  | .ivDiMc | .ivMvScal | .subPbMc | .wedge | .skipIntra | .depthLut => none
  | .ivResPred => some 0x01
  | .depthRef => some 0x02
  | .vsp => some 0x03
  | .dbbp => some 0x04
  | .illumination => some 0x05
  | .texMc => some 0x06
  | .contour => some 0x07
  | .cqt => some 0x08
  | .interDcOnly => some 0x09
  | .rangeExtension => some 0x10
  | .screenContent => some 0x11
  | .scalability => some 0x12

/-- R106: the profile is one that a kind of stream accepts. -/
def acceptedProfile (kind : Nat) : Profile → Bool
  | .main | .main10 => true
  | .multiviewMain => kind = 1
  | .main3d => kind = 2
  | .other => false

/-- R106: a limit is exceeded. -/
def StreamCfg.exceeds (c : StreamCfg) (depth : Bool) (p : ParamSet) : Bool :=
  let (w, h) := c.size depth
  let mono := depth && c.kind = 2
  decide (p.level > 61) || p.chroma ≠ (if mono then 0 else 1) || !([8, 10].contains p.bitsY && [8, 10].contains p.bitsC) || decide (p.width > w)
    || decide (p.height > h) || decide (p.rate > hz1001 c.rate) || decide (p.dpb > 7) || decide (p.layers > 32) || p.fieldSeq

/-- R106, R107: the code of the first check that the active parameter sets fail, in the order of the codes, limits last. -/
def StreamCfg.toolCode (c : StreamCfg) (depth : Bool) (p : ParamSet) : Option Nat :=
  let codes := p.tools.filterMap toolNumber ++ (if p.chroma > 1 ∨ p.bitsY > 10 ∨ p.bitsC > 10 then [0x10] else [])
    ++ (if acceptedProfile c.kind p.profile then [] else [0x13]) ++ (if c.exceeds depth p then [0x21] else [])
  codes.min?

/-- R109: the colour the VUI gives ([0] BT.2020, [1] HLG), if it gives one. -/
def vuiColour (p : ParamSet) : Option Nat :=
  match p.primaries, p.transfer with
  | 1, 16 => some 0
  | 9, 16 => some 1
  | 1, 18 => some 2
  | 9, 18 => some 3
  | _, _ => none

/-- R108: a component becomes REJECTED: its slices are discarded from the next on. -/
def Dev.reject (d : Dev) (k v : Nat) (dep : Bool) (tool : Nat) (poc : Int) : Dev :=
  let d := (d.setComp k v dep fun c => { c with tool := some tool, cycles := [] }).bump (d.viewDie k v) R.DEC_REJECT
  d.decRecord 3 k v dep tool poc 0

/-- R108: a slice header fails a check. A component REJECTED already stays so; one that was leaving at the same IRAP picture has not left,
and that picture is not decoded. -/
def Dev.refuse (d : Dev) (k v : Nat) (dep : Bool) (tool : Nat) (poc : Int) : Dev :=
  let c := d.comp k v dep
  if c.tool.isSome then d
  else if c.trial = some poc then
    d.setComp k v dep fun c => { c with tool := some tool, trial := none, opened := c.opened.filter fun o => o.closed || o.poc ≠ poc }
  else d.reject k v dep tool poc

/-! Slices (R113, R123). -/

/-- A new picture of a component begins: its reference picture set decides which pictures stay references (R123); an IRAP picture at
which decoding begins has its RASL pictures discarded (R127); a recovery point SEI message starts a refresh cycle (R126). -/
def Comp.beginPic (c : Comp) (x : SliceInfo) (num time nt colour : Nat) (dep : Bool) : Comp :=
  let irap : Bool := decide (16 ≤ nt ∧ nt ≤ 23)
  let n := c.count + 1
  let o : OpenPic := {
    serial := n, poc := x.poc, time := time, desc := ⟨num, x.ps.width, x.ps.height, x.ps.bitsY, x.ps.siting, x.ps.full, dep⟩, ctb := x.ps.ctb
    total := x.total, rows := x.rows, irap := irap, refs := x.refs, colour := colour }
  { c with
    noRasl := if irap then nt ≠ 21 || c.waiting else c.noRasl
    trial := if c.trial = some x.poc then c.trial else none
    count := n
    cycles := match x.recov with
      | some r => c.cycles ++ [(n, r)]
      | none => c.cycles
    dpb := c.dpb.map fun q => { q with ref := q.ref && x.refs.contains q.poc }
    opened := c.opened ++ [o] }

/-- R123, R124, R129: one missing reference of a picture of a component is substituted by the nearest picture of the reference's own
component. -/
def Dev.missingRef (d : Dev) (k v : Nat) (dep : Bool) (poc miss : Int) (of : Comp) : Dev :=
  let d := d.setComp k v dep fun c => c.substituted poc
  (d.bump (d.viewDie k v) R.DEC_MISSING_REF).decRecord 1 k v dep (of.substDetail miss) poc miss

/-- R123: the references a slice names that are not in the buffer and were not counted for its picture. -/
def Comp.missing (c : Comp) (x : SliceInfo) : List Int :=
  let known := (c.dpb.filter (·.ref)).map (·.poc) ++ (c.opened.filter (·.poc ≠ x.poc)).map (·.poc)
  let seen := match c.current x.poc with
    | some o => o.miss
    | none => []
  (x.refs.filter fun r => !known.contains r && !seen.contains r).eraseDups

/-- A component has a picture of a presentation time, being decoded or decoded. -/
def Comp.hasTime (c : Comp) (t : Nat) : Bool := (c.opened.any fun o => o.time = t) || c.dpb.any fun q => q.time = t

/-- R123: a component that a slice references in its access unit has no picture there and gets none: it does not exist or is discarded,
UNPLACED or REJECTED. -/
def Dev.neverComes (d : Dev) (k : Nat) (e : Nat × Bool) (t : Nat) : Bool :=
  let none_ := match (d.stream k).cfg with
    | some c => decide (e.1 ≥ c.views) || (e.2 && !bit c.mask e.1)
    | none => true
  none_ || (d.view k e.1).owner = none || ((d.comp k e.1 e.2).tool.isSome && !(d.comp k e.1 e.2).hasTime t)

/-- R123, R125: an inter-layer reference of a picture: one that never comes is missing, one that is concealed conceals the component. -/
def Dev.interRef (d : Dev) (k v : Nat) (dep : Bool) (poc : Int) (time : Nat) (e : Nat × Bool) : Dev :=
  match (d.comp k v dep).current poc with
  | none => d
  | some o =>
    if o.deps.contains e then d
    else
      let d := d.setComp k v dep fun c => c.modOpen poc fun o => { o with deps := o.deps ++ [e] }
      if d.neverComes k e time then
        (d.missingRef k v dep poc poc (d.comp k e.1 e.2)).setComp k v dep fun c => c.modOpen poc fun o => { o with miss := poc :: o.miss }
      else if (d.comp k e.1 e.2).concealed then d.setComp k v dep fun c => c.interHidden poc
      else d

/-- R113, R114, R123: a slice segment of a component is parsed into the buffer, unless it is lost: it fails parsing, or its address does not
follow the previous segment. -/
def Dev.takeSlice (d : Dev) (i k v : Nat) (dep : Bool) (x : SliceInfo) (time nt : Nat) : Dev :=
  let own := match (d.stream k).cfg with
    | some c => c.colour
    | none => 0
  let d := if x.activate ∧ vuiColour x.ps = none then d.bump (d.viewDie k v) R.DEC_COLOUR_DEFAULT else d
  let d := if x.activate then d.setComp k v dep fun c => { c with colour := some ((vuiColour x.ps).getD own) } else d
  let d := if ((d.comp k v dep).current x.poc).isSome then d
    else let (n, d) := d.newPic; d.setComp k v dep fun c => c.beginPic x n time nt (c.colour.getD own) dep
  let d := ((d.comp k v dep).missing x).foldl (fun d r =>
    (d.missingRef k v dep x.poc r (d.comp k v dep)).setComp k v dep fun c => c.modOpen x.poc fun o => { o with miss := r :: o.miss }) d
  let d := x.inter.foldl (fun d e => d.interRef k v dep x.poc time e) d
  let next := match (d.comp k v dep).current x.poc with
    | some o => o.last
    | none => 0
  let d := d.setComp k v dep fun c => c.modOpen x.poc fun o => { o with last := x.addr + x.ctus }
  if ¬ x.ok ∨ x.addr ≠ next then d
  else (d.setComp k v dep fun c => c.modOpen x.poc fun o => { o with got := o.got ++ [(x.addr, x.ctus)], bytes := o.bytes + x.bytes }).eobSync i

/-- R114: the buffer has no room for a segment, or the segment would take non-live streams above their cap. -/
def Dev.stalls (d : Dev) (i : Nat) (live : Bool) (bytes : Nat) : Bool :=
  decide (d.eob i true + d.eob i false + bytes > 16777216) || (!live && decide (d.eob i false + bytes > d.rd (i + 1) R.DEC_EOB_NONLIVE_CAP * 1024))

/-- R110: a die holds an SPS and a PPS of a source: parameter sets come in band only. -/
def Dev.hasSets (d : Dev) (k i src : Nat) : Bool :=
  [33, 34].all fun ty => (d.stream k).sets.any fun e => e.1 = i && e.2.1 = src && u8 e.2.2 0 / 2 % 64 = ty

/-- R113, R127, R108: the slice taken, with what the engine finds in it. -/
def Dev.slice (d : Dev) (i : Nat) (c : StreamCfg) (w : Work) (nal : Nal) (x : SliceInfo) : Dev :=
  let (k, v, dep) := (w.slot, w.view, w.depth)
  let nt := u8 nal.data 0 / 2 % 64
  let m := d.comp k v dep
  let irap : Bool := decide (16 ≤ nt ∧ nt ≤ 23)
  if (nt = 8 ∨ nt = 9) ∧ m.noRasl then d.setComp k v dep fun m => { m with skipped := (nal.time :: m.skipped.filter (· ≠ nal.time)).take 16 }
  else if ¬ d.hasSets k i nal.src then d
  else match c.toolCode dep x.ps with
    | some t => d.refuse k v dep t x.poc
    | none =>
      if m.tool.isSome ∧ ¬ irap then d
      else
        let d := if m.tool.isSome then d.setComp k v dep fun m => { m with tool := none, hidden := some m.count, trial := some x.poc } else d
        d.takeSlice i k v dep x nal.time nt

/-- SLICE_SEGMENT_PARSE (R113, R105–R108, R114, R116, R127): entropy engine `engine` of hob die `i` takes its next slice segment; `x` is
what it finds there. -/
def execSliceSegmentParse (i engine : Nat) (x : SliceInfo) (s : State) : Host.Outcome State Fault Refusal :=
  hearthEvent (fun d =>
    match d.nextSlice i with
    | none => d
    | some (w, nal) =>
      match (d.stream w.slot).cfg with
      | none => d
      | some c =>
        let live := (d.stream w.slot).live
        if i > 3 ∨ engine > 1 then d
        else if d.stalls i live x.bytes then d.bump (i + 1) R.DEC_EOB_STALL
        else ((d.setStream w.slot fun y => { y with nals := y.nals.erase nal }).takeWork i engine live).slice i c w nal x) s

/-! Reconstruction (R113, R115, R126). -/

/-- R126, R129: the picture of a place in decoding order ends a component's concealment, unless a later one has concealed it. -/
def Dev.concealEnd (d : Dev) (k v : Nat) (dep : Bool) (serial : Nat) (poc : Int) : Dev :=
  let c := d.comp k v dep
  let still := decide (c.hidden.getD 0 > serial)
  let d := d.setComp k v dep fun c => {
    c with waiting := false, hidden := if still then c.hidden else none
           usable := if c.waiting || c.hidden.isSome then serial else c.usable }
  if (c.waiting || c.hidden.isSome) && !still then d.decRecord 5 k v dep 0 poc 0 else d

/-- The ranges of CTUs that no segment covers, from a CTU on; the segments ascending. -/
def uncovered (total : Nat) : List (Nat × Nat) → Nat → List (Nat × Nat)
  | [], a => if a < total then [(a, total - a)] else []
  | (b, n) :: r, a => (if a < b then [(a, b - a)] else []) ++ uncovered total r (max a (b + n))

/-- R123: the CTUs of a picture that are lost. -/
def OpenPic.lost (o : OpenPic) : List (Nat × Nat) := uncovered o.total (o.got.mergeSort fun a b => decide (a.1 ≤ b.1)) 0

/-- R111, R124, R128: the samples of a picture as it is complete: lost CTUs from the picture that stands in, pixel groups not received
from the newest picture before. -/
def Comp.dataOf (c : Comp) (kind : Nat) (o : OpenPic) : PicData :=
  if kind = 3 then
    let old := match c.dpb with
      | ⟨_, _, _, _, _, .raw _ l⟩ :: _ => l
      | _ => []
    .raw o.desc (o.runs ++ old.filter fun r => !o.runs.any fun n => n.row = r.row && n.col = r.col && n.data.length = r.data.length)
  else if o.lost = [] then .coded o.desc
  else if o.lost = [(0, o.total)] then (c.standIn o.poc o.desc).withDesc o.desc
  else .filled o.desc o.ctb o.lost (c.standIn o.poc o.desc)

/-- R124–R126: a picture is complete: it enters the decoded picture buffer; an IRAP picture decoded with no substitution, or the end of a
refresh cycle, ends concealment. -/
def Dev.picDone (d : Dev) (k v : Nat) (dep : Bool) (o : OpenPic) : Dev :=
  let clean := !o.subst && !o.inter
  let kind := match (d.stream k).cfg with
    | some c => c.kind
    | none => 0
  let d := d.setComp k v dep fun c =>
    { c with opened := c.opened.erase o, dpb := (⟨o.serial, o.poc, o.time, true, o.colour, c.dataOf kind o⟩ :: c.dpb).take 8 }
  let d := if dep then d else d.setView k v fun x => { x with lastPoc := o.poc }
  let c := d.comp k v dep
  let ends := c.cycles.any fun e => decide (e.1 ≤ o.serial) && decide (e.2 ≤ o.poc)
  let d := d.setComp k v dep fun c => { c with cycles := c.cycles.filter fun e => !(decide (e.1 ≤ o.serial) && decide (e.2 ≤ o.poc)) }
  if clean && (o.irap || ends) then d.concealEnd k v dep o.serial o.poc else d

/-- R115: the completed CTU rows that are published of a picture of a component: all of them once it is complete. -/
def Comp.published (c : Comp) (p : OpenPic → Bool) : Option OpenPic := c.opened.find? p

/-- R113, R115: the next row of a picture waits on a reference picture being reconstructed, on its own die or another, whose rows its
prediction blocks reach. -/
def Dev.waitsOn (d : Dev) (k : Nat) (m : Comp) (o : OpenPic) : Bool :=
  let behind (q : OpenPic) : Bool := decide (min (Config.reachRows o.desc.num o.made q.desc.num).toNat q.rows > q.made)
  (o.refs.any fun r => match m.published fun q => q.poc = r && decide (q.serial < o.serial) with
    | some q => behind q
    | none => false)
  || o.deps.any fun e => match (d.comp k e.1 e.2).published fun q => q.time = o.time with
    | some q => behind q
    | none => !(d.comp k e.1 e.2).hasTime o.time && !o.closed

/-- R113: the CTUs of a row are parsed, or its access unit has closed. -/
def OpenPic.parsedRow (o : OpenPic) : Bool :=
  o.closed || decide ((match o.lost with | e :: _ => e.1 | [] => o.total) ≥ min o.total ((o.made + 1) * ceilDiv o.total (max o.rows 1)))

/-- R113, R115: the oldest picture of a component whose rows are not all done has a row ready. -/
def Dev.rowReady (d : Dev) (e : Nat × Nat × Bool) : Option OpenPic :=
  let m := d.comp e.1 e.2.1 e.2.2
  match m.opened.find? fun o => decide (o.made < o.rows) with
  | none => none
  | some o => if o.parsedRow && !d.waitsOn e.1 m o then some o else none

/-- R116: the CTU row a pixel engine of hob die `i` takes next. -/
def Dev.nextRow (d : Dev) (i : Nat) : Option (Work × OpenPic) :=
  match d.choose ((d.compsOn i).filterMap fun e => (d.rowReady e).map fun o => ⟨e.1, e.2.1, e.2.2, o.time⟩) with
  | none => none
  | some w => (d.rowReady (w.slot, w.view, w.depth)).map fun o => (w, o)

/-- CTU_ROW_RECONSTRUCT (R113, R115, R116): pixel engine `engine` (0–5) of hob die `i` takes and reconstructs its next CTU row. The rows of
a picture follow one another, which keeps the two-CTU lag. -/
def execCtuRowReconstruct (i engine : Nat) (s : State) : Host.Outcome State Fault Refusal :=
  hearthEvent (fun d =>
    match d.nextRow i with
    | none => d
    | some (w, o) =>
      if i > 3 ∨ engine > 5 then d
      else
        let d := d.takeWork i (2 + engine) (d.stream w.slot).live
        let o' := { o with made := o.made + 1, bytes := o.bytes - o.bytes / (o.rows - o.made) }
        let d := (d.setComp w.slot w.view w.depth fun c => { c with opened := c.opened.map fun q => if q = o then o' else q }).eobSync i
        if o'.made = o'.rows ∧ o'.closed then d.picDone w.slot w.view w.depth o' else d) s

/-- R137: the engines of a hob die (ID) that are busy: none where the die has no work, else a free value (log entry 3). -/
def Dev.decBusy (d : Dev) (die : Nat) : Nat × Dev :=
  let any := (d.compsOn (die - 1)).any fun e => (d.firstNal e).isSome || (d.comp e.1 e.2.1 e.2.2).opened.any fun o => decide (o.made < o.rows)
  if any then d.freeVal 8 else (0, d)

/-! Closures (R110, R123–R125, R128, R356). -/

/-- R105: the components a source carries. -/
def StreamCfg.carried (c : StreamCfg) (src : Nat) : List (Nat × Bool) :=
  match c.sources[src]? with
  | none => []
  | some z => if z.all then (if c.kind = 1 then c.comps.filter fun e => !e.2 else c.comps) else [(z.view, z.depth)]

/-- The picture of a presentation time that is being received. -/
def Comp.ofTime (c : Comp) (time : Nat) : Option OpenPic := c.opened.find? fun o => o.time = time && !o.closed

/-- R127, R108, R122: nothing is lost of a component in an access unit of which it has no picture: a RASL picture was discarded, or the
component is REJECTED, UNPLACED or not yet decoding. -/
def Dev.noneDue (d : Dev) (k v : Nat) (dep : Bool) (time : Nat) : Bool :=
  let c := d.comp k v dep
  (c.ofTime time).isNone && (c.skipped.contains time || c.tool.isSome || (d.view k v).owner = none || (c.waiting && c.dpb = []))

/-- R123, R124: at the end of an access unit, the CTUs of a component's picture that are not covered are lost and counted. `poc`, `total`
and `rows` are those of a picture of which no segment was parsed. -/
def Dev.closeLost (d : Dev) (k v : Nat) (dep : Bool) (c : StreamCfg) (time : Nat) (poc : Int) (total rows : Nat) : Dev :=
  if d.noneDue k v dep time then d.setComp k v dep fun m => { m with skipped := m.skipped.filter (· ≠ time) }
  else
    let d := if ((d.comp k v dep).ofTime time).isSome then d
      else
        let (n, d) := d.newPic
        let (w, h) := c.size dep
        let like : PicDesc := match (d.comp k v dep).dpb with
          | q :: _ => q.data.desc
          | [] => ⟨0, w, h, 10, 0, false, dep⟩
        d.setComp k v dep fun m =>
          let o : OpenPic := {
            serial := m.count + 1, poc := poc, time := time, desc := { like with num := n }, total := total, rows := rows
            colour := m.colour.getD c.colour }
          { m with count := m.count + 1, opened := m.opened ++ [o] }
    match (d.comp k v dep).ofTime time with
    | none => d
    | some o =>
      match o.lost with
      | [] => d
      | e :: _ =>
        let det := (d.comp k v dep).substDetail o.poc
        let d := (d.setComp k v dep fun m => m.substituted o.poc).bump (d.viewDie k v) R.DEC_SLICE_LOST
        d.decRecord 2 k v dep det o.poc e.1

/-- R123, R125: as an access unit ends, a component's picture follows what became of those it references: one that never came is missing,
one that is concealed conceals it. -/
def Dev.closeInter (d : Dev) (k : Nat) (e : Nat × Bool) (time : Nat) : Dev :=
  match (d.comp k e.1 e.2).ofTime time with
  | none => d
  | some o => o.deps.foldl (fun d r =>
      let q := d.comp k r.1 r.2
      if !q.hasTime time && !o.miss.contains o.poc then
        (d.missingRef k e.1 e.2 o.poc o.poc q).setComp k e.1 e.2 fun c => c.modOpen o.poc fun o => { o with miss := o.poc :: o.miss }
      else if q.concealed && !o.inter then d.setComp k e.1 e.2 fun c => c.interHidden o.poc
      else d) d

/-- A component's picture of an access unit is closed; it is complete where its rows are done. -/
def Dev.closeEnd (d : Dev) (k : Nat) (e : Nat × Bool) (time : Nat) : Dev :=
  match (d.comp k e.1 e.2).ofTime time with
  | none => d
  | some o =>
    let o' := { o with closed := true }
    let d := d.setComp k e.1 e.2 fun c => { c with opened := c.opened.map fun q => if q = o then o' else q }
    if o'.made = o'.rows then d.picDone k e.1 e.2 o' else d

/-- R123–R125: the access unit of a presentation time closes for the components a source carries. -/
def Dev.closeAu (d : Dev) (k src : Nat) (c : StreamCfg) (time : Nat) (poc : Int) (total rows : Nat) : Dev :=
  let es := c.carried src
  let d := es.foldl (fun d e => d.closeLost k e.1 e.2 c time poc total rows) d
  let d := es.foldl (fun d _ => es.foldl (fun d e => d.closeInter k e time) d) d
  es.foldl (fun d e => d.closeEnd k e time) d

/-- ACCESS_UNIT_CLOSE (R110, R123–R125): the oldest access unit of a source whose reception has ended closes, once its slices are parsed. -/
def execAccessUnitClose (slot src : Nat) (poc : Int) (total rows : Nat) (s : State) : Host.Outcome State Fault Refusal :=
  hearthEvent (fun d =>
    match (d.stream slot).cfg, (d.stream slot).ended.find? fun e => e.src = src && !e.done with
    | some c, some a =>
      if d.decSt slot ≠ .on ∨ c.kind = 3 ∨ (d.stream slot).nals.any fun n => n.src = src && n.time = a.time then d
      else
        let d := d.setStream slot fun x => { x with ended := x.ended.map fun e => if e = a then { e with done := true } else e }
        d.closeAu slot src c a.time poc total rows
    | _, _ => d) s

/-- R128: every pixel group of an uncompressed picture was received. -/
def OpenPic.whole (o : OpenPic) : Bool :=
  let step := if o.desc.depth then 1 else 2
  (List.range (ceilDiv o.desc.h step)).all fun n =>
    decide (((o.runs.filter fun r => r.row = step * n).map fun r => r.data.length / pgOctets o.desc.depth * 4).sum ≥ o.desc.w)

/-- UNCOMPRESSED_PICTURE_CLOSE (R356, R128): the oldest picture of a kind 3 source whose reception has ended closes; with a packet lost its
missing lines come from the picture before and the component is concealed, until the next picture received complete. -/
def execUncompressedPictureClose (slot src : Nat) (s : State) : Host.Outcome State Fault Refusal :=
  hearthEvent (fun d =>
    match (d.stream slot).cfg, d.source? slot src with
    | some c, some z =>
      match (d.comp slot z.view z.depth).opened.find? (·.closed) with
      | none => d
      | some o =>
        if c.kind ≠ 3 ∨ d.decSt slot ≠ .on then d
        else
          let d := d.setStream slot fun x => { x with ended := x.ended.map fun e => if e.src = src && e.time = o.time then { e with done := true } else e }
          let o' := { o with irap := o.whole, subst := !o.whole }
          let d := d.setComp slot z.view z.depth fun m => { m with
            hidden := if o.whole then m.hidden else some o.serial, opened := m.opened.map fun q => if q = o then o' else q }
          d.picDone slot z.view z.depth o'
    | _, _ => d) s

/-- PICTURE_LATE (R117, R129): the oldest picture of a component that is not complete and not counted yet has reached its due time. -/
def execPictureLate (slot view : Nat) (depth : Bool) (s : State) : Host.Outcome State Fault Refusal :=
  hearthEvent (fun d =>
    match (d.comp slot view depth).opened.find? fun o => !o.late with
    | none => d
    | some o =>
      if (d.dueFrame slot o.time).all fun f => decide (d.nextPick ≤ f) then d
      else
        let d := d.setComp slot view depth fun c => { c with opened := c.opened.map fun q => if q = o then { q with late := true } else q }
        (d.bump (d.viewDie slot view) R.DEC_LATE).decRecord 4 slot view depth 0 o.poc 0) s

end Sys2Proof.Machine
end

