-- ==== Sys2Proof/Machine/Memory.lean ====
section
/-! DEFINITION. Class 0x33 and the events of hearth memory (R388–R411): requests and ECC, activate counting, frequency changes, tests
and channel faults. Channels are numbered 4d + c. -/

namespace Sys2Proof.Machine

def Dev.memCh (d : Dev) (n : Nat) : MemCh := amGet d.mem.chans n {}
def Dev.setMemCh (d : Dev) (n : Nat) (f : MemCh → MemCh) : Dev := { d with mem := { d.mem with chans := amMod d.mem.chans n {} f } }

/-- The die ID of a channel, its number on the die, and its state. -/
def chDie (n : Nat) : Nat := n / 4 + 1
def chNum (n : Nat) : Nat := n % 4
def Dev.mget (d : Dev) (n : Nat) (f : Nat → Fld) : Nat := d.rd (chDie n) (f (chNum n))
def Dev.mset (d : Dev) (n : Nat) (f : Nat → Fld) (v : Nat) : Dev := d.wr (chDie n) (f (chNum n)) v
def Dev.mbump (d : Dev) (n : Nat) (f : Nat → Fld) : Dev := d.bump (chDie n) (f (chNum n))
def Dev.chUp (d : Dev) (n : Nat) : Bool := d.hobUp (chDie n) && d.mget n R.MEM_CH_STATE_STATE = 2

/-- R388: the supported data rates. -/
def memRateOk (r : Nat) : Bool := [8533, 7500, 6400, 5500, 4266, 3200].contains r

/-- MR8's density code as Gb per rank (the LPDDR5 code; log entry 36). -/
def densityGb (code : Nat) : Nat := ([2, 3, 4, 6, 8, 12, 16, 24, 32] : List Nat).getD code 0

/-- R388: the usable MiB of a channel. -/
def Dev.usableMiB (d : Dev) (n : Nat) : Nat := densityGb (d.mget n R.MEM_CH_STATE_DENSITY) * 128 * d.mget n R.MEM_CH_STATE_RANKS * 7 / 8

/-! Channel faults (R403, R404). -/

/-- R404: objects with their only copy in the channel become LOST; a survivor keeps its other copy. -/
def Heap.chanLost (hp : Heap) (n : Nat) : Heap :=
  let here (o : Obj) (die : Nat) : Bool := die = chDie n && (Config.objChannel o.handle die).toNat = chNum n
  { hp with objs := hp.objs.map fun o =>
      if here o o.die then
        match o.mirror with
        | some m => { o with die := m, mirror := none }
        | none => { o with lost := true }
      else match o.mirror with
        | some m => if here o m then { o with mirror := none } else o
        | none => o }

/-- R404, R122: the components whose buffers lie in a failed channel are concealed; their pictures are gone. -/
def Comp.chanGone (c : Comp) (ch : Nat) : Comp := if c.chan = ch then c.restart else c

/-- Every view of a hob die (0–3) changed. -/
def Dev.mapViews (d : Dev) (i : Nat) (f : ViewSt → ViewSt) : Dev :=
  { d with dec := { d.dec with slots := d.dec.slots.map fun x => { x with views := x.views.map fun v => if v.owner = some i then f v else v } } }

/-- R404: a channel fault: the channel is fenced and reported, components and objects in it are lost, a frequency change ends. -/
def channelFail (n cause : Nat) (hp : Heap) (d : Dev) : Heap × Dev :=
  if n > 15 ∨ d.mget n R.MEM_CH_STATE_STATE = 3 ∨ ¬ d.hobUp (chDie n) then (hp, d)
  else
    let i := n / 4
    let c := chNum n
    let d := (d.mset n R.MEM_CH_STATE_STATE 3).wr (chDie n) R.MEM_DIE_FAILED (d.rd (chDie n) R.MEM_DIE_FAILED ||| 2 ^ c)
    let d := (d.descriptor 1 (chDie n) 0x33 n cause 1 0).raise (192 + n)
    let d := d.dropPicked fun k v => let x := d.view k v.view; x.owner = some i && (x.tex.chan = c || x.dep.chan = c)
    let d := (d.mapViews i fun v => { v with tex := v.tex.chanGone c, dep := v.dep.chanGone c }).eobAll
    let map := (d.mem.maps.getD i []).contains c
    let d := if map then d.wr (chDie n) R.MEM_DIE_MAP_SINGLE 1 else d
    let d : Dev := { d with mem := { d.mem with
        maps := d.mem.maps.modify i fun l => l.filter (· ≠ c)
        recover := amPut d.mem.recover i (amGet d.mem.recover i 0 ||| (1 + 2 * b2n map))
        change := d.mem.change.map fun f => { f with over_ := true } } }
    (hp.chanLost n, d.cutSurfaces hp (hp.chanLost n))

/-- CHANNEL_FAIL (R403, R404): a channel fails training, differs in configuration or loses its supply; `cause` as R405 gives it. -/
def execChannelFail (n cause : Nat) (s : State) : Host.Outcome State Fault Refusal := hearthEventH (channelFail n cause) s

/-- MEM_REQUEST_TIMEOUT (R403): a request has been in flight for 50 µs. -/
def execMemRequestTimeout (n : Nat) (s : State) : Host.Outcome State Fault Refusal := hearthEventH (channelFail n 0x41) s

/-- DQS_RETRACK (R401): the DQS drift is retracked; a step that cannot hold lock fails the channel. -/
def execDqsRetrack (n : Nat) (ok : Bool) (s : State) : Host.Outcome State Fault Refusal :=
  hearthEventH (fun hp d => if ok then (hp, d) else channelFail n 0x40 hp d) s

/-- R404: a step of a die's recovery is done. -/
def Dev.recovered (d : Dev) (i part : Nat) : Dev :=
  let left := amGet d.mem.recover i 0 &&& (3 - part)
  { d with mem := { d.mem with recover := if left = 0 then amDel d.mem.recover i else amPut d.mem.recover i left } }

/-- R20: the memory recovery, tests and part in a frequency change of a failed hob die are cancelled; a test's command ends FAULT. -/
def Dev.memGone (d : Dev) (i : Nat) : Dev :=
  let tests := (fromN (4 * i) 4).filterMap fun n => (d.memCh n).test.map (·.cmd)
  let d := (fromN (4 * i) 4).foldl (fun d n => if (d.memCh n).test.isSome then d.setMemCh n fun x => { x with test := none } else d) d
  let d := { d with mem := { d.mem with
      recover := amDel d.mem.recover i
      change := d.mem.change.map (fun (f : FreqChange) => { f with left := f.left.filter fun n => n / 4 ≠ i }) } }
  d.completeAll tests St.fault 0

/-- BUFFER_REPLACE (R404): the picture buffers of a failed channel are placed in another channel of the die. -/
def execBufferReplace (n : Nat) (s : State) : Host.Outcome State Fault Refusal :=
  hearthEvent (fun d =>
    if n > 15 ∨ d.mget n R.MEM_CH_STATE_STATE ≠ 3 ∨ ¬ d.hobUp (chDie n) then d
    else
      let (c, d) := d.chooseChan (n / 4)
      let move (k : Comp) : Comp := if k.chan = chNum n then { k with chan := c } else k
      (d.mapViews (n / 4) fun v => { v with tex := move v.tex, dep := move v.dep }).recovered (n / 4) 1) s

/-- MAP_MIRROR_RECREATE (R404): the die's planish mirror is re-created in another channel, if one has room; which is open. -/
def execMapMirrorRecreate (i : Nat) (s : State) : Host.Outcome State Fault Refusal :=
  hearthEvent (fun d =>
    let held := d.mem.maps.getD i []
    let l := (List.range 4).filter fun c => d.chUp (4 * i + c) && !held.contains c
    if i > 3 ∨ ¬ d.hobUp (i + 1) then d
    else if held.length ≥ 2 ∨ l = [] then d.recovered i 2
    else
      let (v, d) := d.freeVal 2
      let d := { d with mem := { d.mem with maps := d.mem.maps.set i (held ++ [l.getD (v % l.length) 0]) } }
      (d.wr (i + 1) R.MEM_DIE_MAP_SINGLE (b2n (held.length + 1 < 2))).recovered i 2) s

/-! Requests (R391–R397). -/

/-- R396: the table after an activate of a row, and the row's count. -/
def activate (t : List (Nat × Nat × Nat)) (row : Nat) : List (Nat × Nat × Nat) × Nat × Nat :=
  match t.find? fun e => e.2.1 = row with
  | some (i, _, c) => (amPut t i (row, c + 1), i, c + 1)
  | none =>
    if t.length < 256 then
      let i := ((List.range 256).find? fun j => !t.any fun e => e.1 = j).getD 0
      (amPut t i (row, 1), i, 1)
    else
      let low := t.foldl (fun (b : Option (Nat × Nat × Nat)) e => match b with
        | none => some e
        | some x => if e.2.2 < x.2.2 then some e else some x) none
      match low with
      | some (i, _, c) => (amPut t i (row, c + 1), i, c + 1)
      | none => (t, 0, 0)

/-- R396, R397: an ACTIVATE of a row (rank, bank and row as one number); at THRESHOLD its neighbours are refreshed. -/
def Dev.activateRow (d : Dev) (n row : Nat) : Dev :=
  let (t, i, c) := activate (d.memCh n).act row
  let d := d.hwm (chDie n) (R.MEM_CH_NBR_HWM (chNum n)) c
  if c ≥ d.rd (chDie n) R.MEM_NBR_CFG_THRESHOLD then
    (d.setMemCh n fun x => { x with act := amPut t i (row, 0) }).mbump n R.MEM_CH_NBR
  else d.setMemCh n fun x => { x with act := t }

/-- R390: the die-local address of a line; R392: its bits [21:6]. -/
def lineAddr (n line : Nat) : Nat := chNum n * 2 ^ 32 + line * 64

/-- R392, R411: an error is loaded into ERR_ADDR and ERR_INFO. -/
def Dev.loadErr (d : Dev) (n line synd : Nat) (ue scrub : Bool) : Dev :=
  let c := chNum n
  let d := d.wrLoHi (chDie n) (R.MEM_CH_ERR_ADDR_LO c) (R.MEM_CH_ERR_ADDR_HI c) (lineAddr n line)
  ((d.mset n R.MEM_CH_ERR_INFO_SYNDROME synd).mset n R.MEM_CH_ERR_INFO_UE (b2n ue)).mset n R.MEM_CH_ERR_INFO_SCRUB (b2n scrub)

/-- R392, R403: the ECC outcome of a read (0 good, 1 corrected, 2 uncorrectable); UE_LIMIT distinct lines within 1 s fail the channel. -/
def readEcc (n line err synd : Nat) (scrub : Bool) (hp : Heap) (d : Dev) : Heap × Dev :=
  if err = 2 ∨ (d.memCh n).bad.contains line then
    let d := (d.loadErr n line synd true scrub).mbump n R.MEM_CH_UE
    let d := d.descriptor 1 (chDie n) 0x33 n Cause.eccUncorrectable 1 line
    let seen := (line, d.stamp) :: (d.memCh n).ueSeen.filter fun e => e.1 ≠ line && d.within e.2 (10 ^ 9)
    let d := d.setMemCh n fun x => { x with bad := if x.bad.contains line then x.bad else line :: x.bad, ueSeen := seen }
    if seen.length ≥ d.rd (chDie n) R.MEM_UE_LIMIT then channelFail n 0x42 hp d else (hp, d)
  else if err = 1 then
    (hp, ((d.loadErr n line synd false scrub).mbump n R.MEM_CH_CE).descriptor 0 (chDie n) 0x33 n Cause.eccCorrected 0 line)
  else (hp, d)

/-- R390: the lines of a channel's test window: its top MiB. -/
def Dev.inWindow (d : Dev) (n line : Nat) : Bool := decide (line ≥ (d.usableMiB n - 1) * 16384)

/-- A line's value: as written, or what the DRAM held, or in the test window what the last test left there (log entry 32). -/
def Dev.lineValue (d : Dev) (n line : Nat) : Nat :=
  amGet (d.memCh n).lines line (Config.dramLine n (if d.inWindow n line then line + 2 ^ 28 * (d.memCh n).era else line)).toNat

/-- The bytes of a line that a mask names replaced. -/
def mergeLine (old mask new : Nat) : Nat :=
  (List.range 64).foldl (fun v i => v + (if bit mask i then new else old) / 256 ^ i % 256 * 256 ^ i) 0

/-- MEM_REQUEST (R391, R392, R394, R396): a channel serves a read, or a write of the bytes a mask names; the row it activates, if it does;
how the read is found, and the requests in flight. -/
def execMemRequest (n line : Nat) (write : Option (Nat × Nat)) (row : Option Nat) (err synd inflight : Nat) (s : State) :
    Host.Outcome State Fault Refusal :=
  hearthEventH (fun hp d =>
    if n > 15 then (hp, d)
    else if ¬ d.chUp n then
      (hp, if write.isSome ∨ d.mget n R.MEM_CH_STATE_STATE ≠ 3 then d else d.send (.memLine (chDie n) (chNum n) line true 0))
    else
      let d := (d.mset n R.MEM_CH_INFLIGHT_NOW inflight).hwm (chDie n) (R.MEM_CH_INFLIGHT_HWM (chNum n)) inflight
      let d := match row with | some r => d.activateRow n r | none => d
      match write with
      | some (mask, data) =>
        let v := mergeLine (d.lineValue n line) mask data
        let whole := decide (mask % 2 ^ 64 = 2 ^ 64 - 1)
        (hp, d.setMemCh n fun x => { x with lines := amPut x.lines line v, bad := if whole then x.bad.filter (· ≠ line) else x.bad })
      | none =>
        let bad : Bool := err = 2 || (d.memCh n).bad.contains line
        let (hp, d) := readEcc n line err synd false hp d
        (hp, d.send (.memLine (chDie n) (chNum n) line bad (d.lineValue n line)))) s

/-- SCRUB_READ (R393): the patrol scrub reads a line; `last` ends a pass. -/
def execScrubRead (n line err synd : Nat) (last : Bool) (s : State) : Host.Outcome State Fault Refusal :=
  hearthEventH (fun hp d =>
    if n > 15 ∨ ¬ d.chUp n then (hp, d)
    else
      let d := if last then d.mbump n R.MEM_CH_SCRUB_PASSES else d
      readEcc n line err synd true hp d) s

/-- MEM_REFRESH (R395): a per-bank refresh is issued; no state of the block changes. -/
def execMemRefresh (_n : Nat) (s : State) : Host.Outcome State Fault Refusal := event id s

/-- MR4_POLL (R395): MR4 is read; over the device's limit it is reported. -/
def execMr4Poll (n mr4 : Nat) (hot : Bool) (s : State) : Host.Outcome State Fault Refusal :=
  hearthEvent (fun d =>
    if n > 15 ∨ ¬ d.chUp n then d
    else
      let d := d.mset n R.MEM_CH_STATE_MR4 mr4
      if hot then (d.raise (192 + n)).descriptor 1 (chDie n) 0x33 n Cause.thermalLimit 0 0 else d) s

/-- ACT_WINDOW_START (R397, R410): a 32 ms window starts: the table is freed, and settings given before apply. -/
def execActWindowStart (n : Nat) (s : State) : Host.Outcome State Fault Refusal :=
  hearthEvent (fun d =>
    if n > 15 then d
    else
      let d := d.setMemCh n fun x => { x with act := [] }
      let die := chDie n
      match d.mem.nbrNext.find? fun e => e.1 = die with
      | none => d
      | some (_, t, r, u) =>
        let d := ((d.wr die R.MEM_NBR_CFG_THRESHOLD t).wr die R.MEM_NBR_CFG_DIST r).wr die R.MEM_UE_LIMIT u
        { d with mem := { d.mem with nbrNext := d.mem.nbrNext.filter fun e => e.1 ≠ die } }) s

/-! Commands. -/

/-- What the gate must know of MEM_STATUS. -/
def specMemStatus : OpSpec :=
  { op := 0x3300, len := (· = 4), check := fun _ _ p => failIf [(decide (u8 p 0 > 3), 0), (!zero? p 1 3, Rs.reserved)] }

/-- MEM_STATUS (R406). -/
def execMemStatus (h : Hdr) (p : Bytes) (s : State) : Host.Outcome State Fault Refusal :=
  anvil specMemStatus h p (.memStatus h p)
    (fun _ d =>
      let i := u8 p 0
      if ¬ d.hobUp (i + 1) then (d, .bad St.fault 0)
      else
        let entry (c : Nat) : Bytes :=
          let n := 4 * i + c
          let set := d.mget n R.MEM_CH_STATE_SET
          enc 1 (d.mget n R.MEM_CH_STATE_STATE) ++ enc 1 set ++ enc 2 (d.rd (i + 1) (R.MEM_TIM0_RATE c set)) ++ enc 2 (d.usableMiB n) ++ zeros 2
            ++ enc 4 (d.mget n R.MEM_CH_CE) ++ enc 4 (d.mget n R.MEM_CH_UE) ++ enc 4 (d.mget n R.MEM_CH_NBR) ++ enc 4 (d.mget n R.MEM_CH_EYE)
            ++ enc 2 (d.mget n R.MEM_CH_INFLIGHT_HWM) ++ zeros 2
            ++ enc 8 (d.rdLoHi (i + 1) (R.MEM_CH_ERR_ADDR_LO c) (R.MEM_CH_ERR_ADDR_HI c))
        (d, .done (((List.range 4).map entry).flatten))) s

/-- The channels a command names: DIE and CHANNEL, 0xFF for every one; of the dies in service. -/
def Dev.namedChans (d : Dev) (die chan : Nat) : List Nat :=
  (List.range 16).filter fun n => (die = 0xFF || n / 4 = die) && (chan = 0xFF || n % 4 = chan) && d.hobUp (chDie n)

/-- What the gate must know of MEM_TIMING_SET. -/
def specMemTimingSet : OpSpec :=
  { op := 0x3301, len := (· = 24), check := fun _ _ p => failIf [
      ((decide (u8 p 0 > 3) && u8 p 0 ≠ 0xFF) || (decide (u8 p 1 > 3) && u8 p 1 ≠ 0xFF) || decide (u8 p 2 > 1), 0),
      (!zero? p 3 1, Rs.reserved), (!memRateOk (u32 p 4 % 16384), 0x45)] }

/-- MEM_TIMING_SET (R407). -/
def execMemTimingSet (h : Hdr) (p : Bytes) (s : State) : Host.Outcome State Fault Refusal :=
  anvil specMemTimingSet h p (.memTimingSet h p)
    (fun _ d =>
      let ns := d.namedChans (u8 p 0) (u8 p 1)
      let st := u8 p 2
      if u8 p 0 ≠ 0xFF ∧ ¬ d.hobUp (u8 p 0 + 1) then (d, .bad St.fault 0)
      else if ns.any fun n => d.mget n R.MEM_CH_STATE_SET = st then (d, .bad St.badState 0x43)
      else
        let one (d : Dev) (n : Nat) : Dev :=
          let k := chDie n
          let c := chNum n
          let d := ((d.wr k (R.MEM_TIM0_RATE c st) (u32 p 4)).wr k (R.MEM_TIM0_RL c st) (u32 p 4 / 2 ^ 16)).wr k (R.MEM_TIM0_WL c st) (u32 p 4 / 2 ^ 24)
          (((d.wr k (R.MEM_TIM1 c st) (u32 p 8)).wr k (R.MEM_TIM2 c st) (u32 p 12)).wr k (R.MEM_TIM3 c st) (u32 p 16)).wr k (R.MEM_TIM4 c st) (u32 p 20)
        (ns.foldl one d, .done)) s

/-- What the gate must know of MEM_FREQ. -/
def specMemFreq : OpSpec :=
  { op := 0x3302, len := (· = 4), check := fun _ _ p => failIf [(decide (u8 p 0 > 1), 0), (!zero? p 1 3, Rs.reserved)] }

/-- MEM_FREQ (R408, R399, R400). -/
def execMemFreq (h : Hdr) (p : Bytes) (s : State) : Host.Outcome State Fault Refusal :=
  anvil specMemFreq h p (.memFreq h p)
    (fun c d =>
      let on : Bool := d.mode = 2 && (List.range 4).any fun r => (d.fn (FnId.region r)).st = .on
      if d.fab.failed.any id ∧ on then (d, .bad St.badState 0x42)
      else if d.mem.change.isSome then (d, .bad St.badState 0x41)
      else if d.mem.recover ≠ [] then (d, .bad St.badState 0x40)
      else
        let ns := (List.range 16).filter fun n => d.hobUp (chDie n) && d.chUp n
        ({ d with mem := { d.mem with change := some { cmd := c, set_ := u8 p 0, left := ns } } }, .accepted)) s

/-- MEM_CHANNEL_FREQ_CHANGE (R399): a channel's turn, one after the other: it switches timing set through self-refresh. -/
def execMemChannelFreqChange (n : Nat) (s : State) : Host.Outcome State Fault Refusal :=
  hearthEvent (fun d =>
    match d.mem.change with
    | none => d
    | some f =>
      if f.over_ ∨ f.left.head? ≠ some n then d
      else ({ d with mem := { d.mem with change := some { f with left := f.left.tail } } } : Dev).mset n R.MEM_CH_STATE_SET f.set_) s

/-- MEM_FREQ_DONE (R399, R400, R408): every channel has changed, or a channel fault ended the change. -/
def execMemFreqDone (s : State) : Host.Outcome State Fault Refusal :=
  hearthEvent (fun d =>
    match d.mem.change with
    | none => d
    | some f =>
      if f.left ≠ [] ∧ ¬ f.over_ then d
      else
        let on := (List.range 16).filter fun n => d.chUp n && d.mget n R.MEM_CH_STATE_SET = f.set_
        let mask := (on.map fun n => 2 ^ n).sum
        ({ d with mem := { d.mem with change := none } } : Dev).complete f.cmd (if f.over_ then St.fault else St.done) 0 (enc 2 mask)) s

/-- What the gate must know of MEM_TEST. -/
def specMemTest : OpSpec :=
  { op := 0x3303, len := (· = 16), check := fun _ _ p => failIf [
      (decide (u8 p 0 > 3) || decide (u8 p 1 > 3) || decide (u8 p 2 > 6) || u8 p 3 % 4 = 0 || u8 p 4 = 0, 0),
      (decide (u8 p 3 > 7) || !zero? p 5 3, Rs.reserved), (decide (u8 p 2 ≤ 2) && u64 p 8 = 0, 0)] }

/-- MEM_TEST (R409, R402). -/
def execMemTest (h : Hdr) (p : Bytes) (s : State) : Host.Outcome State Fault Refusal :=
  anvil specMemTest h p (.memTest h p)
    (fun c d =>
      let n := 4 * u8 p 0 + u8 p 1
      if ¬ d.hobUp (u8 p 0 + 1) then (d, .bad St.fault 0)
      else if ¬ d.chUp n then (d, .bad St.badState 0x40)
      else if (d.memCh n).test.isSome then (d, .bad St.badState 0x44)
      else (d.setMemCh n fun x => { x with test := some ⟨c, u8 p 2, u8 p 3, u8 p 4, u64 p 8⟩ }, .accepted)) s

/-- MEM_TEST_DONE (R402, R409): the passes of a test finish, with what was found; a window that was written holds what the model does
not know. -/
def execMemTestDone (n errors first dq corrected : Nat) (s : State) : Host.Outcome State Fault Refusal :=
  hearthEvent (fun d =>
    match (d.memCh n).test with
    | none => d
    | some t =>
      let out (l : Nat) : Bool := !d.inWindow n l
      let d := if bit t.flags 0 then
          d.setMemCh n fun x => { x with
            test := none, era := x.era + 1, lines := x.lines.filter fun e => out e.1
            bad := if bit t.flags 2 then x.bad else x.bad.filter out }
        else d.setMemCh n fun x => { x with test := none }
      if ¬ d.chUp n then d.complete t.cmd St.fault 0x40
      else d.complete t.cmd St.done 0 (enc 4 errors ++ enc 8 first ++ enc 2 dq ++ enc 4 corrected)) s

/-- What the gate must know of MEM_NBR_SET. -/
def specMemNbrSet : OpSpec :=
  { op := 0x3304, len := (· = 4), check := fun _ _ p => failIf [
      (!decide (256 ≤ u16 p 0 ∧ u16 p 0 ≤ 16384) || !decide (1 ≤ u8 p 2 ∧ u8 p 2 ≤ 2) || u8 p 3 = 0, 0)] }

/-- MEM_NBR_SET (R410). -/
def execMemNbrSet (h : Hdr) (p : Bytes) (s : State) : Host.Outcome State Fault Refusal :=
  anvil specMemNbrSet h p (.memNbrSet h p)
    (fun _ d => ({ d with mem := { d.mem with nbrNext := d.hobsUp.map fun k => (k, u16 p 0, u8 p 2, u8 p 3) } }, .done)) s

end Sys2Proof.Machine
end

