-- ==== Sys2Proof/Machine/SynMath.lean ====
section
/-! DEFINITION. The cell pipeline and composition (R147–R153, R155, R169–R177, R232, R261): from a ray record to the code of an
emitter or mirror. Quantities are exact rationals until the spec names a format; where it names a format and no rounding the rounding
is free (log entry 5). -/

namespace Sys2Proof.Machine

def ratRound (q : ℚ) : Int := roundFree q.num q.den
def ratNear (q : ℚ) : Int := roundDiv q.num q.den
def rat0 (q : ℚ) : ℚ := if q < 0 then 0 else q
def rat1 (q : ℚ) : ℚ := if q < 0 then 0 else if 1 < q then 1 else q

/-- A value in an unsigned format of `bits` bits; what lies outside is not stated (log entry 41). -/
def intoU (bits : Nat) (v : Int) : Nat := if 0 ≤ v ∧ v < 2 ^ bits then v.toNat else (Config.outside v).toNat % 2 ^ bits

/-! Powers, for the transfer functions: numbers in units of 2^-120. -/

def fixOne : Int := 2 ^ 120

def fixOf (q : ℚ) : Int := q.num * fixOne / q.den

/-- 2·atanh z by its series: `n` further terms from the odd power `k`, whose power of z is `t`. -/
def atanhSeries (z2 : Int) : Nat → Nat → Int → Int
  | 0, _, _ => 0
  | n + 1, k, t => 2 * t / k + atanhSeries z2 n (k + 2) (t * z2 / fixOne)

/-- ln of m for m in [1, 2). -/
def lnUnit (m : Int) : Int := let z := (m - fixOne) * fixOne / (m + fixOne); atanhSeries (z * z / fixOne) 44 1 z

def ln2Fix : Int := let z := fixOne / 3; atanhSeries (z * z / fixOne) 44 1 z

/-- The natural logarithm of a positive number. -/
def lnFix (x : Int) : Int :=
  let e : Int := (x.toNat.log2 : Int) - 120
  let m := if e < 0 then x * 2 ^ (-e).toNat else x / 2 ^ e.toNat
  lnUnit m + e * ln2Fix

def expSeries (t : Int) : Nat → Nat → Int → Int
  | 0, _, _ => 0
  | n + 1, k, a => a + expSeries t n (k + 1) (a * t / fixOne / ((k + 1 : Nat) : Int))

/-- The exponential function. -/
def expFix (t : Int) : Int :=
  let k := t / ln2Fix
  let v := expSeries (t - k * ln2Fix) 48 0 fixOne
  if k < 0 then v / 2 ^ (-k).toNat else v * 2 ^ k.toNat

/-- x to the power n / d, 0 for x not above 0. -/
def powFix (x : Int) (n d : Nat) : Int := if x ≤ 0 then 0 else expFix (lnFix x * n / d)

/-- The inverse of the PQ transfer function (ST 2084), 1.0 standing for 203 cd/m². -/
def pqLinear (q : ℚ) : Int :=
  let p := powFix (fixOf (rat1 q)) 32 2523
  let num := p - fixOf (3424 / 4096)
  let den := fixOf (2413 / 128) - fixOf (2392 / 128) * p / fixOne
  powFix ((if num < 0 then 0 else num) * fixOne / den) 16384 2610 * 10000 / 203

/-- The inverse of HLG's OETF (BT.2100). -/
def hlgScene (q : ℚ) : Int :=
  let x := rat1 q
  let a : ℚ := 17883277 / 100000000
  let b : ℚ := 1 - 4 * a
  if x ≤ 1 / 2 then fixOf (x * x / 3)
  else
    let c := fixOne / 2 - fixOf a * lnFix (fixOf (4 * a)) / fixOne
    (expFix ((fixOf x - c) * fixOne / fixOf a) + fixOf b) / 12

/-- Code values in [0, 1] of red, green, blue to linear light in units of 2^-120, 1.0 standing for 203 cd/m²; transfer 0 SDR, 1 PQ,
2 HLG (1,000 cd/m², system gamma 1.2), 3 linear (R152, R175). -/
def toLinear (transfer : Nat) (c : ℚ × ℚ × ℚ) : Int × Int × Int :=
  let (r, g, b) := c
  match transfer with
  | 0 => (powFix (fixOf (rat0 r)) 12 5, powFix (fixOf (rat0 g)) 12 5, powFix (fixOf (rat0 b)) 12 5)
  | 1 => (pqLinear r, pqLinear g, pqLinear b)
  | 2 =>
    let (r, g, b) := (hlgScene r, hlgScene g, hlgScene b)
    let y := (2627 * r + 6780 * g + 593 * b) / 10000
    let k := powFix y 1 5
    (r * k / fixOne * 1000 / 203, g * k / fixOne * 1000 / 203, b * k / fixOne * 1000 / 203)
  | _ => (fixOf r, fixOf g, fixOf b)

/-- U4.16, saturating at 15.999 98. -/
def u416 (v : Int) : Int := clampI 0 0xFFFFF v

/-- A linear value in units of 2^-120 as U4.16. -/
def quant416 (v : Int) : Int := u416 (roundFree v (2 ^ 104))

/-! Source cameras (R147) and the cell pipeline (R149–R153). -/

/-- R163: a camera of the set in effect on a die: as stored. -/
structure Camera where
  cx : Int
  cy : Int
  cz : Int
  fx : Nat
  fy : Nat
  pu : Int
  pv : Int
  zn : Nat
  zf : Nat
  deriving DecidableEq, Repr

def Dev.camera (d : Dev) (die i : Nat) : Camera :=
  let s (f : Fld) : Int := signed 32 (d.rdB die f)
  { cx := s (R.SYN_CAM_CX i), cy := s (R.SYN_CAM_CY i), cz := s (R.SYN_CAM_CZ i), fx := d.rdB die (R.SYN_CAM_FX i)
    fy := d.rdB die (R.SYN_CAM_FY i), pu := s (R.SYN_CAM_PU i), pv := s (R.SYN_CAM_PV i), zn := d.rdB die (R.SYN_CAM_ZN i)
    zf := d.rdB die (R.SYN_CAM_ZF i) }

/-- R149: D_i as U4.28. -/
def Camera.dist (c : Camera) (r : RayRec) : Nat :=
  let a : ℚ := (r.tx : ℚ) / 16384 - ((c.cx - r.ox : Int) : ℚ) / c.cz
  let b : ℚ := (r.ty : ℚ) / 16384 - ((c.cy - r.oy : Int) : ℚ) / c.cz
  intoU 32 (ratRound ((a * a + b * b) * 2 ^ 28))

/-- R147: 1/Z for a normalised inverse depth. -/
def Camera.invZ (c : Camera) (a : ℚ) : ℚ := a * (4096 / (c.zn : ℚ) - 4096 / c.zf) + 4096 / c.zf

/-- R147, R150: the texture position of the ray's point at inverse depth `a`. -/
def Camera.uv (c : Camera) (r : RayRec) (a : ℚ) : ℚ × ℚ :=
  let iz := c.invZ a
  let f (o t cc : Int) (fl : Nat) (p : Int) : ℚ :=
    let x : ℚ := ((o - cc : Int) : ℚ) / 4096 + (c.cz : ℚ) / 4096 * ((t : ℚ) / 16384)
    (p : ℚ) / 65536 + (fl : ℚ) / 65536 * (x * iz - (t : ℚ) / 16384)
  (f r.ox r.tx c.cx c.fx c.pu, f r.oy r.ty c.cy c.fy c.pv)

/-- R151: the ray parameter of a hit. -/
def Camera.zOf (c : Camera) (a : ℚ) : ℚ := (c.cz : ℚ) / 4096 - 1 / c.invZ a

/-- The sizes of a stream's pictures. -/
structure Dims where
  texW : Nat
  texH : Nat
  depW : Nat
  depH : Nat
  deriving DecidableEq, Repr

/-- R147, R150: the normalised inverse depth at a texture position: the nearest sample, 0 outside. -/
def depthAt (m : Dims) (p : PicData) (uv : ℚ × ℚ) : ℚ :=
  let x := (uv.1 * m.depW / m.texW).floor
  let y := (uv.2 * m.depH / m.texH).floor
  if 0 ≤ x ∧ x < p.desc.w ∧ 0 ≤ y ∧ y < p.desc.h then (p.sample 0 x y : ℚ) / ((2 ^ p.desc.bits - 1 : Nat) : ℚ) else 0

/-- R155: taps, search steps K and refinements of a throttle level. -/
def throttle (level : Nat) : Nat × Nat × Nat :=
  match level with
  | 0 => (4, 32, 4)
  | 1 => (3, 32, 4)
  | 2 => (2, 32, 4)
  | 3 => (2, 16, 3)
  | _ => (2, 8, 2)

/-- R150: the refinements: the interval (lo, hi) halved `n` times. -/
def refine (hit : ℚ → Bool) : Nat → ℚ → ℚ → ℚ
  | 0, lo, hi => (lo + hi) / 2
  | n + 1, lo, hi => let m := (lo + hi) / 2; if hit m then refine hit n m hi else refine hit n lo m

/-- R150: the depth search of a tap: α_hit, and whether no surface was found. -/
def search (k refs : Nat) (hit : ℚ → Bool) : ℚ × Bool :=
  let a (i : Nat) : ℚ := 1 - (i : ℚ) / k
  match (List.range (k + 1)).find? fun i => hit (a i) with
  | none => (0, true)
  | some 0 => (1, false)
  | some (i + 1) => (refine hit refs (a (i + 1)) (a i), false)

/-- A tap after the search (R150): its view's texture picture and colour, D, the texture position in units of 2^-8, and z. -/
structure SynTap where
  tex    : PicData
  colour : Nat
  dist   : Nat
  u      : Int
  v      : Int
  z      : ℚ
  deriving DecidableEq, Repr

/-- R149: the n usable views nearest to the ray, ties to the lower index, with D. -/
def Dev.nearestViews (d : Dev) (die n : Nat) (views : List PickView) (r : RayRec) : List (Nat × PickView) :=
  ((views.map fun v => ((d.camera die v.view).dist r, v)).mergeSort fun a b => a.1 < b.1 || (a.1 = b.1 && a.2.view ≤ b.2.view)).take n

/-- R150: a tap searched: none where its hit lies outside its texture picture; and whether no surface was found. -/
def Dev.tap (d : Dev) (die k refs : Nat) (m : Dims) (r : RayRec) (e : Nat × PickView) : Option SynTap × Bool :=
  let c := d.camera die e.2.view
  let (a, far) := search k refs fun a => decide (a ≤ depthAt m e.2.dep (c.uv r a))
  let (u, v) := c.uv r a
  let (u, v) := (ratRound (u * 256), ratRound (v * 256))
  let inside := 0 ≤ u ∧ u < 256 * (e.2.tex.desc.w : Int) ∧ 0 ≤ v ∧ v < 256 * (e.2.tex.desc.h : Int)
  (if inside then some ⟨e.2.tex, e.2.colour, e.1, u, v, c.zOf a⟩ else none, far)

/-- A bilinear sample of a plane at a position in samples, sample (0, 0) having its centre at (0, 0). -/
def bilinear (p : PicData) (plane : Nat) (x y : ℚ) : ℚ :=
  let i := x.floor
  let j := y.floor
  let fx := x - i
  let fy := y - j
  let s (a b : Int) : ℚ := p.sample plane a b
  (1 - fy) * ((1 - fx) * s i j + fx * s (i + 1) j) + fy * ((1 - fx) * s i (j + 1) + fx * s (i + 1) (j + 1))

/-- R152: the colour of a tap: bilinear fetch, matrix, transfer: U4.16. Its colour is [0] BT.2020, [1] HLG (R109). -/
def tapColour (t : SynTap) : Int × Int × Int :=
  let b := t.tex.desc.bits
  let u : ℚ := t.u / 256
  let v : ℚ := t.v / 256
  let site := t.tex.desc.site
  let cx : ℚ := u / 2 - (if site = 0 ∨ site = 2 ∨ site = 4 then 1 / 4 else 1 / 2)
  let cy : ℚ := v / 2 - (if site = 2 ∨ site = 3 then 1 / 4 else if site = 4 ∨ site = 5 then 3 / 4 else 1 / 2)
  let full := t.tex.desc.full
  let s : ℚ := 2 ^ b / 256
  let y := if full then bilinear t.tex 0 (u - 1 / 2) (v - 1 / 2) / (2 ^ b - 1) else (bilinear t.tex 0 (u - 1 / 2) (v - 1 / 2) - 16 * s) / (219 * s)
  let ch (plane : Nat) : ℚ := (bilinear t.tex plane cx cy - 128 * s) / (if full then 2 ^ b - 1 else 224 * s)
  let kr : ℚ := if bit t.colour 0 then 2627 / 10000 else 2126 / 10000
  let kb : ℚ := if bit t.colour 0 then 593 / 10000 else 722 / 10000
  let r := y + 2 * (1 - kr) * ch 2
  let bl := y + 2 * (1 - kb) * ch 1
  let g := (y - kr * r - kb * bl) / (1 - kr - kb)
  let (r, g, bl) := toLinear (if bit t.colour 1 then 2 else 1) (r, g, bl)
  (quant416 r, quant416 g, quant416 bl)

/-- R153: a ray sample. -/
structure RaySample where
  r      : Int
  g      : Int
  b      : Int
  dark   : Bool
  subst  : Bool
  noview : Bool
  far    : Bool
  z      : Int
  view   : Nat
  taps   : Nat
  deriving DecidableEq, Repr

/-- R153: the 96-bit word of a ray sample. -/
def RaySample.word (s : RaySample) : Nat :=
  twos 20 s.r + twos 20 s.g * 2 ^ 20 + twos 20 s.b * 2 ^ 40 + b2n s.dark * 2 ^ 60 + b2n s.subst * 2 ^ 61 + b2n s.noview * 2 ^ 62 + b2n s.far * 2 ^ 63
    + twos 16 s.z * 2 ^ 64 + s.view % 256 * 2 ^ 80 + s.taps % 8 * 2 ^ 88

/-- What computing rays counts: rays, clamped rays (R80), rays without a view, taps outside their pictures, rays with occlusion but
on the front tap (R168), malformed tiles read. -/
structure RayCount where
  clamped : Nat := 0
  noview  : Nat := 0
  off     : Nat := 0
  occ     : Nat := 0
  tiles   : List (Nat × Nat) := []
  deriving DecidableEq, Repr

/-- R149–R154: a ray sample from a ray record and the views usable for it, with what it counts; `waits` are the views whose taps are
dropped because they waited on a read that returned uncorrectable. -/
def Dev.raySample (d : Dev) (die level : Nat) (m : Dims) (views : List PickView) (waits : List Nat) (r : RayRec) : RaySample × RayCount :=
  let (n, k, refs) := throttle level
  let near := d.nearestViews die (min n (d.rdB die R.SYN_TAPS_MAX)) views r
  let found := (near.filter fun e => !waits.contains e.2.view).map (d.tap die k refs m r)
  let far := found.all (·.2)
  let kept := found.filterMap (·.1)
  let cnt : RayCount := { clamped := b2n r.clamped, off := found.length - kept.length }
  let black : RaySample := ⟨0, 0, 0, r.dark, r.subst, true, far, -32768, r.view, 0⟩
  match kept with
  | [] => (black, { cnt with noview := 1 })
  | t0 :: rest =>
    let zf := rest.foldl (fun z t => if z < t.z then t.z else z) t0.z
    let tol : ℚ := d.rdB die R.SYN_OCC_TOL / 4096
    let w (t : SynTap) : ℚ := rat0 (1 - (zf - t.z) / tol) / ((t.dist + d.rdB die R.SYN_EPS : Nat) : ℚ)
    let ws := kept.map w
    let front := kept.findIdx fun t => t.z = zf
    let occ := decide (kept.length > 1) && (ws.zipIdx).all fun e => e.2 = front || e.1 = 0
    let sum := ws.foldl (· + ·) 0
    let u15 := ws.map fun x => ratRound (x / sum * 32768)
    let cols := kept.map tapColour
    let blend (f : Int × Int × Int → Int) : Int :=
      u416 (roundDiv ((List.zipWith (fun w c => w * f c) u15 cols).foldl (· + ·) 0 * r.gain) (2 ^ 29))
    ({ r := blend (·.1), g := blend (·.2.1), b := blend (·.2.2), dark := r.dark, subst := r.subst, noview := false
       far := far, z := satS 16 (ratRound (zf * 16)), view := r.view, taps := (ws.filter (· ≠ 0)).length }, { cnt with occ := b2n occ })

/-! Layers (R171–R176). -/

/-- BT.2087: BT.709 primaries to BT.2020. -/
def to2020 (c : Int × Int × Int) : Int × Int × Int :=
  let (r, g, b) := c
  ((6274 * r + 3293 * g + 433 * b) / 10000, (691 * r + 9195 * g + 114 * b) / 10000, (164 * r + 880 * g + 8956 * b) / 10000)

/-- R175: a pixel's premultiplied linear colour (U4.16) and its alpha. -/
def linearPixel (fmt colour fill v : Nat) : (Int × Int × Int) × ℚ :=
  let p := unpackPixel fmt v
  let part (c : Option (Nat × Nat)) (miss : ℚ) : ℚ := match c with
    | some (x, n) => (x : ℚ) / n
    | none => miss
  let a := part p.a 1
  let c : ℚ × ℚ × ℚ := if fmt = 4 then ((bits fill 29 20 : ℚ) / 1023, (bits fill 19 10 : ℚ) / 1023, (bits fill 9 0 : ℚ) / 1023)
    else (part p.r 0, part p.g 0, part p.b 0)
  let transfer := bits colour 2 1
  let pre := bit colour 3
  if a = 0 then ((0, 0, 0), 0)
  else
    let c := if pre && transfer ≠ 3 then (c.1 / a, c.2.1 / a, c.2.2 / a) else c
    let l := toLinear transfer c
    let l := if bit colour 0 then l else to2020 l
    let mul (x : Int) : Int := if pre && transfer = 3 then x else x * a.num / a.den
    ((quant416 (mul l.1), quant416 (mul l.2.1), quant416 (mul l.2.2)), a)

/-- sin(π n / d) / (π n / d) in units of 2^-160; 0 and 1 where it is exact. -/
def sinc (n d : Int) : Int :=
  if n = 0 then 2 ^ 160
  else if n % d = 0 then 0
  else
    let x := n * piFix / d
    let m := (n / d) % 2
    let y := (n % d) * piFix / d
    let s := series (y * y / 2 ^ 160) 40 1 y
    (if m = 0 then s else -s) * 2 ^ 160 / x

/-- The Lanczos-4 kernel at n / d, in units of 2^-160: 0 from 4 on. -/
def lanczos4 (n d : Int) : Int := if 4 * d ≤ n ∨ n ≤ -(4 * d) then 0 else sinc n d * sinc n (4 * d) / 2 ^ 160

/-- R172: the coefficients of a phase (1/64 pixel) of the kernel widened by num/den, in units of 2^-14 and of sum 1. That they are held in
that format and normalised is the model's (log entry 42). -/
def lanczosSet (num den phase : Nat) : List Int :=
  let half := 4 * ceilDiv num den
  let ws := (List.range (2 * half)).map fun (k : Nat) => lanczos4 ((64 * ((k : Int) - (half - 1 : Nat)) - phase) * den) (64 * num)
  ws.map fun w => roundFree (w * 2 ^ 14) (ws.foldl (· + ·) 0)

/-- R172: the filter taps along one axis: pixels (held within the crop rectangle) and coefficients, at a position in 1/64 pixel, for a
ratio num/den of source pixels per unit. -/
def axisTaps (s : Int) (lo n num den : Nat) : List (Int × Int) :=
  let g := Nat.gcd num den
  let (num, den) := if num ≤ den ∨ g = 0 then (1, 1) else (num / g, den / g)
  let half := 4 * ceilDiv num den
  let t := s - 32
  let i := t / 64
  ((lanczosSet num den (t % 64).toNat).zipIdx).map fun c => (clampI lo (lo + n - 1) (i + (c.2 : Int) - (half - 1 : Nat)), c.1)

/-- R172, R175: the filtered pixel of a layer at a source position in 1/64 pixel: colour U4.16, alpha in units of 2^-16. -/
def layerPixel (o : Obj) (l : LayerSet) (sx sy : Int) : (Int × Int × Int) × Int :=
  let xs := axisTaps sx l.srcX l.srcW (l.srcW * 4096) l.dstW
  let ys := axisTaps sy l.srcY l.srcH (l.srcH * 4096) l.dstH
  let px := (ys.map fun y => xs.map fun x =>
    (x.2 * y.2, if o.badAt x.1.toNat y.1.toNat then ((0, 0, 0), 0) else linearPixel o.pixFmt o.colour l.fill (o.pixel x.1.toNat y.1.toNat))).flatten
  let sum (f : (Int × Int × Int) × ℚ → ℚ) : ℚ := px.foldl (fun s e => s + (e.1 : ℚ) * f e.2) 0 / 2 ^ 28
  ((u416 (ratRound (sum fun p => p.1.1)), u416 (ratRound (sum fun p => p.1.2.1)), u416 (ratRound (sum fun p => p.1.2.2))),
    clampI 0 65536 (ratRound (rat0 (sum fun p => p.2) * 65536)))

/-- R189: the malformed tiles among those the pixel at a source position is read from, as (surface, tile). -/
def layerTiles (o : Obj) (l : LayerSet) (sx sy : Int) : List (Nat × Nat) :=
  if o.fmt ≠ 8 then []
  else
    let base := o.pixFmt
    let xs := ((axisTaps sx l.srcX l.srcW (l.srcW * 4096) l.dstW).map fun e => e.1.toNat / 64).eraseDups
    let ys := ((axisTaps sy l.srcY l.srcH (l.srcH * 4096) l.dstH).map fun e => e.1.toNat / 4).eraseDups
    ((ys.map fun y => xs.map fun x => y * tilesX o.width + x).flatten.filter fun t => tileBad base (o.tile t)).map fun t => (o.handle, t)

/-- R171: where a ray meets a layer: the source position in 1/64 pixel. -/
def LayerSet.meets (l : LayerSet) (r : RayRec) : Option (Int × Int) :=
  let zl := if bit l.flags 0 then 0 else l.z
  let px := roundDiv (64 * r.ox + zl * r.tx) 64
  let py := roundDiv (64 * r.oy + zl * r.ty) 64
  if px < l.posX ∨ px ≥ l.posX + l.dstW ∨ py < l.posY ∨ py ≥ l.posY + l.dstH then none
  else some (64 * l.srcX + roundFree (64 * (px - l.posX) * l.srcW) l.dstW, 64 * l.srcY + roundFree (64 * (py - l.posY) * l.srcH) l.dstH)

/-- R174: the enabled layers in the order they are drawn: by Z_L, then by index; screen-locked ones last. -/
def drawOrder (ls : List LayerSet) : List (Nat × LayerSet) :=
  let on := ((ls.zipIdx).filter (·.1.enable)).map fun e => (e.2, e.1)
  let (locked, free) := on.partition fun e => bit e.2.flags 0
  (free.mergeSort fun a b => decide (a.2.z ≤ b.2.z)) ++ locked

/-- R176: a layer's pixel over the colour so far: each product, LA · a among them, is rounded into U4.16. -/
def over_ (la a c d : Int) : Int := u416 (roundDiv (la * c) 32768 + roundDiv ((65536 - roundDiv (la * a) 32768) * d) 65536)

/-- R174–R177: composition of a ray sample: `bad` are layers not drawn after a read that returned uncorrectable, `kept` surfaces not yet LOST
when the ray was composed. -/
def compose (hp : Heap) (ls : List LayerSet) (bad kept : List Nat) (r : RayRec) (s : RaySample) : (Int × Int × Int) × List (Nat × Nat) :=
  if s.dark then ((s.r, s.g, s.b), [])
  else
    (drawOrder ls).foldl (fun acc e =>
      let l := e.2
      match hp.surf l.surface, l.meets r with
      | some o, some (sx, sy) =>
        if (o.lost ∧ ¬ kept.contains o.handle) ∨ bad.contains e.1 ∨ (bit l.flags 1 ∧ ¬ bit l.flags 0 ∧ l.z < s.z) then acc
        else
          let ((cr, cg, cb), a) := layerPixel o l sx sy
          let (dr, dg, db) := acc.1
          let la : Int := l.alpha
          ((over_ la a cr dr, over_ la a cg dg, over_ la a cb db), (acc.2 ++ layerTiles o l sx sy).eraseDups)
      | _, _ => acc) ((s.r, s.g, s.b), [])

/-! Codes (R232, R261). -/

/-- R232, R261: point k of a curve (as at reset: `top` at 1,024). -/
def curvePoint (c : Option Curve) (top k : Nat) : Nat :=
  match c with
  | some c => c.pts.getD k 0
  | none => (roundDiv (top * k : Nat) 1024).toNat

/-- R232, R261: the code of a linear colour. -/
def curveCode (c : Option Curve) (top : Nat) (v : Int) : Nat :=
  let m := match c with
    | some c => c.lmax
    | none => 65536
  let x := v.toNat
  if x ≥ m then curvePoint c top 1024
  else
    let k := x * 1024 / m
    let r := x * 1024 % m
    (roundDiv ((curvePoint c top k * (m - r) + curvePoint c top (k + 1) * r : Nat) : Int) m).toNat

/-- R261: the 8-bit plane value of a 10-bit code under the temporal dither. -/
def ditherCode (on : Bool) (frame u v cx : Nat) : Nat :=
  let dd := match v % 2, u % 2 with
    | 0, 0 => 0
    | 0, _ => 2
    | _, 0 => 3
    | _, _ => 1
  let t := if on then (dd + frame % 4) % 4 else 2
  min 255 ((cx + t) / 4)

end Sys2Proof.Machine
end

