-- ==== Sys2Proof/Machine/Synth.lean ====
section
/-! DEFINITION. View synthesis (R138–R168): picking, dealing, computing and sending strips, rescue, failover and underrun, cells and
grates going offline, and class 0x12. Hob dies are given by their IDs 1–4. -/

namespace Sys2Proof.Machine

/-! The grate list (R143). -/

/-- The grates online: not of a failed die, not taken offline by the host or by faults. -/
def Dev.gratesOn (d : Dev) : List (Nat × Nat) :=
  ((d.hobsUp.map fun k => [0, 1, 2].map fun g => (k, g)).flatten).filter fun e => !d.syn.hostOff.contains e && !d.syn.faulted.contains e

/-- R143: round r of the list: the (r + 1)-th online grate of every die that has one. -/
def grateRound (on : List (Nat × Nat)) (r : Nat) : List (Nat × Nat) := hobDies.filterMap fun k => (on.filter (·.1 = k))[r]?

/-- R143: the place of a single entry of the last round: after the first entry whose die, and whose successor's die, is another. -/
def moveSingle (l : List (Nat × Nat)) (e : Nat × Nat) : List (Nat × Nat) :=
  let n := l.length
  match (List.range n).find? fun i => (l.getD i e).1 ≠ e.1 && (l.getD ((i + 1) % n) e).1 ≠ e.1 with
  | some i => l.take (i + 1) ++ [e] ++ l.drop (i + 1)
  | none => l ++ [e]

/-- R143: the grate list. -/
def grateList (on : List (Nat × Nat)) : List (Nat × Nat) :=
  let rounds := ([0, 1, 2].map (grateRound on)).filter (· ≠ [])
  match rounds.getLast? with
  | some [e] => moveSingle rounds.dropLast.flatten e
  | _ => rounds.flatten

/-- R143: the list as it follows the online grates; a changed list starts at the next strip, rotated so that no two strips in a row
go to one die. -/
def Dev.relist (d : Dev) : Dev :=
  let l := grateList d.gratesOn
  let l : List (Nat × Nat) := match l, d.syn.lastDie with
    | e :: r, some k => if e.1 = k then r ++ [e] else l
    | _, _ => l
  let d := d.hobsUp.foldl (fun d k =>
    d.wr k R.SYN_STATE_GRATE_ONLINE (((l.filter (·.1 = k)).map fun e => 2 ^ e.2).sum)) d
  if l.length = d.syn.list.length ∧ l.all d.syn.list.contains then d
  else
    let d := d.hobsUp.foldl (fun d k => (d.wr k R.SYN_DEAL_COUNT l.length).wr k R.SYN_DEAL_EPOCH (d.rd k R.SYN_DEAL_EPOCH + 1)) d
    { d with syn := { d.syn with list := l, first := d.syn.next } }

/-! Strips and their times (R138–R142). -/

/-- A MEDIA time, as a quotient, is reached. -/
def Dev.reached (d : Dev) (q : Int × Int) : Bool := decide (q.1 ≤ (d.media : Int) * q.2)

/-- The raster of a region: that in effect, or for a STARTING region the one it starts with (R221, log entry 174). -/
def Dev.rasterOf (d : Dev) (r : Nat) : Raster :=
  match (d.fn (FnId.region r)).st, d.ras.rasters.getD r none with
  | .starting, some x => x
  | _, _ => ⟨d.rate, d.width, d.active, d.vblank, d.slotLines⟩

/-- R138: columns of a strip of a region. -/
def Dev.stripWidth (d : Dev) (r : Nat) : Nat := if d.mode = 2 then 2560 else (d.rasterOf r).width

/-- R138: strips of a region (of one view of it, in projector mode). -/
def Dev.stripCount (d : Dev) (r : Nat) : Nat := if d.mode = 2 then 100 else (d.rasterOf r).active / 16

/-- R139, R140: an instant of a frame of a region: lines (in projector mode, slots) from the frame's start, then nanoseconds, in
2^-16 ns, as a quotient. -/
def Dev.frameAt (d : Dev) (r frame : Nat) (lines ns : Int) : Int × Int :=
  let (n, b) := d.frameStart frame
  let x := d.rasterOf r
  let (a, c) := lineTime x.rate x.active x.vblank
  (n * c + lines * (if d.mode = 2 then x.slotLines else 1) * a * b + ns * 65536 * b * c, b * c)

/-- R139, R140: the need time of a strip. -/
def Dev.needTime (d : Dev) (r view idx frame : Nat) : Int × Int :=
  if d.mode = 2 then
    let ns : Int := 188 * (idx : Int) - 4000
    if view = 0 then d.frameAt r (frame - 1) 767 ns else d.frameAt r frame (24 * (view : Int) - 1) ns
  else d.frameAt r frame (16 * (idx : Int)) (-4000)

/-- R139, R140: the release time of a strip: SYN_LEAD before its need time; in projector mode the end of the load of the last plane of the
view whose plane-store buffer it takes, which for views 0 and 1 lies in the frame before. -/
def Dev.releaseTime (d : Dev) (r view idx frame : Nat) : Int × Int :=
  if d.mode = 2 then
    if view < 2 then d.frameAt r (frame - 1) (742 + 24 * (view : Int)) 18800 else d.frameAt r frame (24 * (view : Int) - 26) 18800
  else d.frameAt r frame (16 * (idx : Int)) (-4000 - 1000 * (d.syn.lead : Int))

/-- A quotient less a time in nanoseconds. -/
def earlier (q : Int × Int) (ns : Int) : Int × Int := (q.1 - ns * 65536 * q.2, q.2)

/-- R142: the deadline of a strip. -/
def Dev.deadline (d : Dev) (r view idx frame : Nat) : Int × Int := earlier (d.needTime r view idx frame) 64000

/-- R142: the slack of a strip now, in µs, saturating at 0. -/
def Dev.slackNow (d : Dev) (r view idx frame : Nat) : Nat :=
  let (n, b) := d.deadline r view idx frame
  min ((n - (d.media : Int) * b) / (b * 65536000)).toNat 65535

/-- A strip by its name. -/
def Strip.is (t : Strip) (region view idx frame : Nat) : Bool := t.region = region && t.view = view && t.idx = idx && t.frame = frame

def Dev.strip? (d : Dev) (region view idx frame : Nat) : Option Strip := d.syn.strips.find? fun t => t.is region view idx frame

def Dev.setStrip (d : Dev) (t : Strip) : Dev :=
  { d with syn := { d.syn with strips := d.syn.strips.map fun x => if x.is t.region t.view t.idx t.frame then t else x } }

/-- A strip wholly sent or discarded is no longer outstanding. -/
def Dev.dropStrip (d : Dev) (t : Strip) : Dev :=
  { d with syn := { d.syn with strips := d.syn.strips.filter fun x => !x.is t.region t.view t.idx t.frame } }

/-- The die whose counters show what befalls a strip: the one it was dealt to, or the lowest in service. -/
def Dev.countDie (d : Dev) (die : Nat) : Nat := if d.hobsUp.contains die then die else d.hobsUp.headD 1

/-- R168 FAILOVER: redone strips are outstanding. -/
def Dev.failoverFlag (d : Dev) : Dev :=
  let on := d.syn.strips.any fun t => t.redone && !t.excused && t.phase < 2
  d.hobsUp.foldl (fun d k => d.wr k R.SYN_STATE_FAILOVER (b2n on)) d

/-! Failover (R160, R161). -/

/-- R160: columns of a segment of a region's strip. -/
def Dev.segWidth (d : Dev) (r : Nat) : Nat := ceilDiv (ceilDiv (d.stripWidth r) (max d.syn.list.length 1)) 64 * 64

/-- R144, R160: a strip split into segments over the grate list. -/
def Dev.split (d : Dev) (t : Strip) : Strip :=
  let w := d.segWidth t.region
  { t with seg := w, parts := d.syn.list.take (ceilDiv (d.stripWidth t.region) (max w 1)) }

/-- The grates that hold a strip or its segments. -/
def Strip.holders (t : Strip) : List (Nat × Nat) := if t.parts = [] then [(t.die, t.grate)] else t.parts

/-- The parts of a strip: grate, first column, columns. -/
def Dev.partsOf (d : Dev) (t : Strip) : List ((Nat × Nat) × Nat × Nat) :=
  let w := d.stripWidth t.region
  if t.parts = [] then [((t.die, t.grate), 0, w)] else (t.parts.zipIdx).map fun e => (e.1, e.2 * t.seg, min t.seg (w - e.2 * t.seg))

/-- R161: a lost strip with `k` lost strips ahead of it is excused at once: a segment takes its rays at 4.0625 G rays/s. -/
def Dev.tooClose (d : Dev) (t : Strip) (k : Nat) : Bool :=
  let (n, b) := earlier (d.needTime t.region t.view t.idx t.frame) 2000
  let seg : Int := (d.segWidth t.region * 256 * 65536 / 65 : Nat)
  decide (n < ((d.media : Int) + 2000 * 65536 + (k + 1) * seg) * b)

/-- A lost strip is excused (R161). -/
def Dev.excuse (d : Dev) (t : Strip) : Dev := (d.bump (d.countDie t.die) R.SYN_EXCUSED).setStrip { t with excused := true }

/-- R160, R161: STRIP_REDEAL: the strips selected, which are in need order, are lost: redone in segments over the new list, or excused. `k`
counts the lost strips ahead that are still to be redone. -/
def Dev.redeal (d : Dev) (lost : Strip → Bool) : Dev :=
  let hit (t : Strip) : Bool := lost t && !t.excused && t.phase < 3
  let d := d.relist
  let (d, _) := d.syn.strips.foldl (fun (a : Dev × Nat) t =>
    if hit t then
      let t := a.1.split { t with redone := true, rescued := false, phase := 0, lines := [], cuts := [] }
      let d := a.1.setStrip t
      if d.tooClose t a.2 then (d.excuse t, a.2) else (d, a.2 + 1)
    else (a.1, a.2 + b2n (t.redone && !t.excused && t.phase < 2))) (d, 0)
  d.failoverFlag

/-! Host requests for grates (R167). -/

/-- R167: the pending requests are carried out in order: an offline one as the next strip is dealt, an online one (`all`) at the
first strip of a frame. -/
def Dev.moveGrates (d : Dev) (all : Bool) : Dev :=
  let now := d.syn.moving.filter fun e => all || !e.2.2
  if now = [] then d
  else
    let off := now.foldl (fun (l : List (Nat × Nat)) e => if e.2.2 then l.filter (· ≠ e.2.1) else if l.contains e.2.1 then l else l ++ [e.2.1]) d.syn.hostOff
    let d := { d with syn := { d.syn with hostOff := off, moving := d.syn.moving.filter fun e => !(all || !e.2.2) } }
    let d := d.redeal fun t => t.phase = 0 && !t.rescued && !t.redone && off.contains (t.die, t.grate)
    now.foldl (fun d e => d.finalReply e.1 St.done 0 []) d

/-! Picking and dealing (R143–R146, R156). -/

/-- R156: the level in effect now. -/
def Dev.levelNow (d : Dev) : Nat := let k := d.hobsUp.headD 1; max (d.rd k R.SYN_THROTTLE_THERMAL) (d.rd k R.SYN_THROTTLE_FLOOR)

/-- R145: a texture picture may be taken for frame F. -/
def Dev.inTime (d : Dev) (frame : Nat) (q : Pic) : Bool :=
  let delay := d.rdB (d.hobsUp.headD 1) R.SYN_PRES_DELAY
  let (n, b) := d.frameStart frame
  delay = 0 || decide (d.mediaAt q.time * b ≤ n - (delay * 1000 * 65536 : Nat) * b)

/-- R145, R146: the newest complete access unit of a usable view, from the picture that ended its concealment on (R126). -/
def Dev.pickView (d : Dev) (frame slot v : Nat) : Option PickView :=
  let x := d.view slot v
  let dead := match x.owner with
    | some i => d.fab.failed.getD i false
    | none => true
  let hasDep := match (d.stream slot).cfg with
    | some c => bit c.mask v
    | none => false
  if dead || !hasDep || x.tex.concealed || x.dep.concealed then none
  else
    (x.tex.dpb.filter (d.inTime frame)).findSome? (fun t => (x.dep.dpb.find? fun q => q.time = t.time).map fun q => (t, q)) |>.bind fun e =>
      if e.1.serial ≥ x.tex.usable ∧ e.2.serial ≥ x.dep.usable then some ⟨v, e.1.data, e.2.data, e.1.colour⟩ else none

/-- R154: lines of pictures that are no longer chosen are never hit. -/
def Dev.cachePurge (d : Dev) : Dev :=
  let live := ((d.syn.picks.map (·.views)).flatten.map fun v => [v.tex.desc.num, v.dep.desc.num]).flatten
  { d with syn := { d.syn with cache := d.syn.cache.filter fun l => live.contains l.pic } }

/-- PICK_TIME (R145, R146, R156, R92): at the release time of frame F's first strip, what F is computed from. -/
def execPickTime (frame : Nat) (s : State) : Host.Outcome State Fault Refusal :=
  hearthEvent (fun d =>
    if d.mode = 0 ∨ (d.syn.picks.any fun k => decide (k.frame ≥ frame)) ∨ ¬ d.reached (d.releaseTime 0 0 0 frame) then d
    else
      let d := (d.pmSwap frame).moveGrates true
      let k0 := d.hobsUp.headD 1
      let slot := d.rdB k0 R.SYN_SOURCE_SLOT
      let usable := d.decSt slot = .on ∧ d.rd k0 R.SYN_SOURCE_MISMATCH = 0
      let n := match (d.stream slot).cfg with
        | some c => c.views
        | none => 0
      let k : Pick := {
        frame := frame, level := d.levelNow, copy := d.activeCopy, slot := slot
        views := if usable then (List.range n).filterMap (d.pickView frame slot) else []
        regs := d.bound.filter fun e => e.1 / 2 ^ 28 < 8, layers := d.lay.bound, curves := d.curves.bound
        film := (d.film.mapBase, d.film.map), dither := d.syn.dither }
      let picks := (k :: d.syn.picks).take 4
      ({ d with syn := { d.syn with
          picks := picks, dealt := d.syn.dealt.filter fun e => picks.any fun k => k.frame = e.1.2 } } : Dev).cachePurge) s

/-- A region is being synthesised: ON, or STARTING for its first frame. -/
def Dev.synthesised (d : Dev) (r : Nat) : Bool := (d.fn (FnId.region r)).st = .on || (d.fn (FnId.region r)).st = .starting

/-- The strip exists in its region's frame. -/
def Dev.stripExists (d : Dev) (region view idx : Nat) : Bool :=
  d.regionExists region && d.synthesised region && decide (idx < d.stripCount region) && (if d.mode = 2 then decide (view < 32) else view = 0)

/-! The deal sequence (R143). -/

/-- Strips of a frame of a region, and how many of them are dealt; they are dealt in the order of their need times: by view, then by
strip. -/
def Dev.stripTotal (d : Dev) (r : Nat) : Nat := d.stripCount r * (if d.mode = 2 then 32 else 1)
def Dev.dealtOf (d : Dev) (r frame : Nat) : Nat := (kvGet d.syn.dealt (r, frame)).getD 0

/-- R143: a strip's place in the deal sequence: its need time, then the first flue link of its region. The first comes before the
second. -/
def dealBefore (a b : (Int × Int) × Nat) : Bool :=
  let x := a.1.1 * b.1.2
  let y := b.1.1 * a.1.2
  decide (x < y) || (x = y && decide (a.2 < b.2))

def Dev.dealKey (d : Dev) (r view idx frame : Nat) : (Int × Int) × Nat := (d.needTime r view idx frame, (regionLinks d.mode r).headD 0)

/-- R143: no other region's next strip, of a frame picked and not yet due, comes before this one. -/
def Dev.dealNext (d : Dev) (region view idx frame : Nat) : Bool :=
  let key := d.dealKey region view idx frame
  d.dealtOf region frame = view * d.stripCount region + idx &&
  (List.range 4).all fun r => d.syn.picks.all fun k =>
    let n := d.dealtOf r k.frame
    let c := max (d.stripCount r) 1
    let other := d.dealKey r (n / c) (n % c) k.frame
    (r = region && k.frame = frame) || !((d.fn (FnId.region r)).st = .on || decide (n > 0)) || decide (n ≥ d.stripTotal r)
      || d.syn.dead.contains (r, k.frame) || d.reached other.1 || !dealBefore other key

/-! View caches (R154). -/

/-- The strip's ray at a position of it, in a hob die's geometry. -/
def Dev.rayOf (d : Dev) (k : Pick) (die : Nat) (t : Strip) (x y : Nat) : RayRec :=
  let d : Dev := { d with bound := k.regs ++ d.bound.filter fun e => e.1 / 2 ^ 28 ≥ 8 }
  let z := d.rasterOf t.region
  if d.mode = 2 then d.rayProj die k.copy t.region t.view x y
  else d.rayPanel die k.copy z.width z.active x y (amGet k.film.2 (y / 8 * 2048 + x / 8) k.film.1)

/-- The blocks that cover a box of texels, widened by 16 and held within a picture. -/
def boxBlocks (w h bw bh : Nat) (ps : List (ℚ × ℚ)) : List (Nat × Nat) :=
  let lo (f : ℚ × ℚ → ℚ) : Int := (ps.map fun p => (f p).floor).foldl min ((ps.map fun p => (f p).floor).headD 0) - 16
  let hi (f : ℚ × ℚ → ℚ) : Int := (ps.map fun p => (f p).floor).foldl max ((ps.map fun p => (f p).floor).headD 0) + 16
  let cut (v : Int) (n : Nat) : Nat := (clampI 0 ((n : Int) - 1) v).toNat
  if hi (·.1) < 0 ∨ lo (·.1) ≥ w ∨ hi (·.2) < 0 ∨ lo (·.2) ≥ h then []
  else
    let x0 := cut (lo (·.1)) w / bw
    let y0 := cut (lo (·.2)) h / bh
    ((fromN y0 (cut (hi (·.2)) h / bh + 1 - y0)).map fun y => (fromN x0 (cut (hi (·.1)) w / bw + 1 - x0)).map fun x => (x, y)).flatten

/-- R154: the footprint of a strip on a grate: for each usable view, the box of the near-to-far search lines of its first and last
rays. -/
def Dev.footprint (d : Dev) (k : Pick) (t : Strip) : List CacheLine :=
  let m : Dims := match (d.stream k.slot).cfg with
    | some c => ⟨c.texW, c.texH, c.depW, c.depH⟩
    | none => ⟨1, 1, 1, 1⟩
  let e : Dev := { d with bound := k.regs }
  let rays := [d.rayOf k t.die t 0 (16 * t.idx), d.rayOf k t.die t (d.stripWidth t.region - 1) (16 * t.idx + 15)]
  (k.views.map fun v =>
    let c := e.camera t.die v.view
    let ps : List (ℚ × ℚ) := (rays.map fun r => [c.uv r 0, c.uv r 1]).flatten
    let dps : List (ℚ × ℚ) := ps.map fun p => (p.1 * (m.depW : ℚ) / m.texW, p.2 * (m.depH : ℚ) / m.texH)
    ((boxBlocks v.tex.desc.w v.tex.desc.h 16 8 ps).map fun b => ⟨t.die, t.grate, v.tex.desc.num, false, b.1, b.2⟩)
      ++ (boxBlocks v.dep.desc.w v.dep.desc.h 32 8 dps).map fun b => ⟨t.die, t.grate, v.dep.desc.num, true, b.1, b.2⟩).flatten

/-- R154: fills for a strip's footprint: the grate's cache holds 8,192 lines; which it gives up is not stated (log entry 175). -/
def Dev.cacheFill (d : Dev) (k : Pick) (t : Strip) : Dev :=
  let new := d.footprint k t
  let (mine, rest) := (d.syn.cache.filter fun l => !new.contains l).partition fun l => l.die = t.die && l.grate = t.grate
  { d with syn := { d.syn with cache := (new ++ mine).take 8192 ++ rest } }

/-- STRIP_DEAL (R143, R154): the next strip of the deal sequence, at its release time, is dealt to the next entry of the grate list. -/
def execStripDeal (region view idx frame : Nat) (s : State) : Host.Outcome State Fault Refusal :=
  hearthEvent (fun d =>
    match d.syn.picks.find? fun k => k.frame = frame with
    | none => d
    | some k =>
      if ¬ d.stripExists region view idx ∨ d.syn.dead.contains (region, frame) ∨ ¬ d.dealNext region view idx frame
          ∨ ¬ d.reached (d.releaseTime region view idx frame) then d
      else
        let d := d.moveGrates false
        match d.syn.list[(d.syn.next - d.syn.first) % d.syn.list.length]? with
        | none => d
        | some (die, g) =>
          let t : Strip := { region := region, view := view, idx := idx, frame := frame, die := die, grate := g }
          let d := { d with syn := { d.syn with
            next := d.syn.next + 1, lastDie := some die, strips := d.syn.strips ++ [t]
            dealt := kvPut d.syn.dealt (region, frame) (d.dealtOf region frame + 1) } }
          (d.hobsUp.foldl (fun d j => d.wr j R.SYN_THROTTLE_EFFECTIVE k.level) d).cacheFill k t) s

/-- R141: a grate may begin a strip: it runs no other, holds none dealt to it earlier that it has not begun, and one of the two buffers of
its store is free. -/
def Dev.mayBegin (d : Dev) (t : Strip) : Bool :=
  let mine := d.syn.strips.filter fun x => x.die = t.die && x.grate = t.grate && !x.redone
  !(mine.any fun x => x.phase = 1) && decide ((mine.filter fun x => x.phase = 1 || x.phase = 2).length < 2)
    && (mine.find? fun x => x.phase = 0 && !x.rescued) == some t

/-- STRIP_BEGIN (R141). -/
def execStripBegin (region view idx frame : Nat) (s : State) : Host.Outcome State Fault Refusal :=
  hearthEvent (fun d =>
    match d.strip? region view idx frame with
    | none => d
    | some t => if t.phase = 0 ∧ ¬ t.redone ∧ ¬ t.rescued ∧ d.mayBegin t then d.setStrip { t with phase := 1 } else d) s

/-! Computing a strip (R78–R88, R148–R153, R174, R232, R261). -/

/-- R146, R154: the views usable for a ray besides those usable still: those lost in events it was issued before. A ray issued before one
event was issued before the later ones. -/
def cutViews (x y : Nat) : List RayCut → Bool → List PickView
  | [], _ => []
  | c :: r, b => let b := b || Config.issued c.id x y; (if b then c.views else []) ++ cutViews x y r b

/-- R154: the views whose tap waited, on a ray issued before, on a read that returned uncorrectable. -/
def cutWaits (x y : Nat) (cs : List RayCut) : List Nat := (cs.map fun c => c.waits.filter fun v => Config.waiting c.id v x y).flatten

/-- R177: what composition of a ray must know of the events before it was composed: layers of a segment no longer drawn, and surfaces
LOST after it. -/
def cutLayers (x y seg : Nat) : List RayCut → Bool → List Nat × List Nat
  | [], _ => ([], [])
  | c :: r, b =>
    let b := b || Config.composed c.id x y
    let (bad, kept) := cutLayers x y seg r b
    ((if b then [] else (c.layers.filter (·.1 = seg)).map (·.2)) ++ bad, (if b then c.surfaces else []) ++ kept)

/-- A ray's code, and what computing it counts; `seg` is the segment it lies in. -/
def Dev.rayCode (d : Dev) (hp : Heap) (k : Pick) (die : Nat) (t : Strip) (seg x y : Nat) : Nat × RayCount :=
  let m : Dims := match (d.stream k.slot).cfg with
    | some c => ⟨c.texW, c.texH, c.depW, c.depH⟩
    | none => ⟨0, 0, 0, 0⟩
  let r := d.rayOf k die t x y
  let e : Dev := { d with bound := k.regs }
  let (sm, cnt) := e.raySample die k.level m (k.views ++ cutViews x y t.cuts false) (cutWaits x y t.cuts) r
  let (bad, kept) := cutLayers x y seg t.cuts false
  let ((cr, cg, cb), tiles) := compose hp k.layers bad kept r sm
  let base := if d.mode = 2 then 3 else 0
  let top := if d.mode = 2 then 1020 else 4095
  let code (c : Nat) (v : Int) : Nat := curveCode (k.curves.getD (base + c) none) top v
  let q (c : Nat) (v : Int) : Nat := ditherCode k.dither t.frame x y (code c v)
  (if d.mode = 2 then q 0 cr * 65536 + q 1 cg * 256 + q 2 cb else code 0 cr * 2 ^ 24 + code 1 cg * 4096 + code 2 cb, { cnt with tiles := tiles })

/-- Counts of two sets of rays together. -/
def RayCount.add (a b : RayCount) : RayCount :=
  ⟨a.clamped + b.clamped, a.noview + b.noview, a.off + b.off, a.occ + b.occ, (a.tiles ++ b.tiles).eraseDups⟩

/-- The codes of columns `c0` to `c0 + n - 1` of a strip, line by line, computed on a die, and what that counts of the rays `of`. -/
def Dev.computePart (d : Dev) (hp : Heap) (k : Pick) (die : Nat) (t : Strip) (seg c0 n : Nat) (of : Nat → Nat → Bool := fun _ _ => true) :
    List (List Nat) × RayCount :=
  let rows := (fromN (16 * t.idx) 16).map fun y => (fromN c0 n).map fun x => (d.rayCode hp k die t seg x y, of x y)
  (rows.map fun r => r.map (·.1.1), (rows.flatten.filter (·.2)).foldl (fun c e => c.add e.1.2) {})

/-- R168, R80, R189: what rays counted enters a die's counters; the clocks lost to cache misses are not stated (log entry 3). -/
def Dev.countRays (d : Dev) (die : Nat) (c : RayCount) : Dev :=
  let (stall, d) := d.freeVal 32
  (((((d.bump die R.SYN_PM_CLAMP c.clamped).bump die R.SYN_NOVIEW c.noview).bump die R.SYN_OFFIMAGE c.off).bump die R.SYN_OCC_ALL c.occ).bump die
    R.CMP_PEWTER_BAD c.tiles.length).bump die R.SYN_STALL stall

/-- R144, R160: the codes of a strip's parts over its grates. -/
def Dev.computeStrip (d : Dev) (hp : Heap) (k : Pick) (t : Strip) : List (List Nat) × Dev :=
  ((d.partsOf t).zipIdx).foldl (fun (a : List (List Nat) × Dev) e =>
    let (g, c0, n) := e.1
    let (rows, cnt) := d.computePart hp k g.1 t e.2 c0 n
    (List.zipWith (· ++ ·) a.1 rows, a.2.countRays (d.countDie g.1) cnt)) (List.replicate 16 [], d)

/-- R80: strips that are lost or stopped: the rays of theirs that were computed by then are counted on the dies in service that computed
them. -/
def Dev.countPartial (d : Dev) (hp : Heap) (stopped : Strip → Bool) : Dev :=
  (d.syn.strips.filter fun t => stopped t && d.computing t).foldl (fun (d : Dev) t =>
    match d.syn.picks.find? fun k => k.frame = t.frame with
    | none => d
    | some k =>
      let id := d.free
      let d : Dev := { d with free := id + 1 }
      ((d.partsOf t).zipIdx).foldl (fun (d : Dev) e =>
        let (g, c0, n) := e.1
        if d.hobsUp.contains g.1 then d.countRays g.1 (d.computePart hp k g.1 t e.2 c0 n (Config.issued id)).2 else d) d) d

/-- R154, R177: reads for a strip that returned uncorrectable: `views` name pictures (2 × view, plus 1 for the depth picture), which become
unreadable, the taps that waited on them being dropped; `layers` name layers (plus 8 × segment), each counted and reported with the
memory channel that holds its surface. -/
def Dev.badReads (d : Dev) (hp : Heap) (k : Pick) (is : Strip → Bool) (die : Nat → Nat) (views layers : List Nat) : Dev :=
  let nums := views.filterMap fun n => (k.views.find? fun v => v.view = n / 2).map fun v => if n % 2 = 1 then v.dep.desc.num else v.tex.desc.num
  let gone (v : PickView) : Bool := nums.contains v.tex.desc.num || nums.contains v.dep.desc.num
  let d := if views = [] ∧ layers = [] then d
    else d.cutRays fun j t id => {
      id := id, views := j.views.filter gone, waits := if is t then (j.views.filter gone).map (·.view) else []
      layers := if is t then layers.map fun n => (n / 8, n % 8) else [] }
  let d := d.unpick fun _ v => gone v
  layers.foldl (fun d n =>
    let d := d.bump (die (n / 8)) R.CMP_LAYER_FAULT
    match hp.surf (k.layers.getD (n % 8) {}).surface with
    | none => d
    | some o => d.descriptor 1 o.die 0x33 (4 * (o.die - 1) + (Config.objChannel o.handle o.die).toNat) Cause.eccUncorrectable 1 0) d

/-- A strip's rays have all passed composition (R142, R148–R154, R174–R177). -/
def Dev.stripDone (d : Dev) (hp : Heap) (t : Strip) (badViews badLayers : List Nat) : Dev :=
  match d.syn.picks.find? fun k => k.frame = t.frame with
  | none => d
  | some k =>
    let is (x : Strip) : Bool := x.is t.region t.view t.idx t.frame
    let die (seg : Nat) : Nat := d.countDie (((d.partsOf t).map (·.1.1)).getD seg t.die)
    let d := d.badReads hp k is die badViews badLayers
    let t := (d.syn.strips.find? is).getD t
    let k := (d.syn.picks.find? fun k => k.frame = t.frame).getD k
    let (rows, d) := d.computeStrip hp k t
    (d.bump (d.countDie t.die) R.SYN_STRIPS).setStrip { t with phase := 2, lines := rows, cuts := [] }

/-- STRIP_COMPLETE (R142, R148–R154, R174–R177): all rays of a strip have passed composition. `badViews` and `badLayers` are the pictures and
layers of which a read returned uncorrectable. -/
def execStripComplete (region view idx frame : Nat) (badViews badLayers : List Nat) (s : State) : Host.Outcome State Fault Refusal :=
  hearthEvent (fun d =>
    match d.strip? region view idx frame, d.syn.picks.any fun k => k.frame = frame with
    | some t, true =>
      if t.redone ∨ t.phase ≥ 2 ∨ (t.phase = 0 ∧ ¬ t.rescued) then d
      else
        let die := d.countDie t.die
        let d := d.stripDone s.heap t badViews badLayers
        d.wr die R.SYN_SLACK_MIN (min (d.slackNow region view idx frame) (d.rd die R.SYN_SLACK_MIN))
    | _, _ => d) s

/-- REDONE_STRIP_COMPLETE (R160): all segments of the first lost strip in need order are computed. -/
def execRedoneStripComplete (badViews badLayers : List Nat) (s : State) : Host.Outcome State Fault Refusal :=
  hearthEvent (fun d =>
    match d.redoing with
    | none => d
    | some t =>
      if t.parts = [] ∨ ¬ d.syn.picks.any fun k => k.frame = t.frame then d
      else ((d.stripDone s.heap t badViews badLayers).bump (d.countDie t.die) R.SYN_REDEALT).failoverFlag) s

/-! Sending (R141, R28, R31, R22). -/

/-- Codes of `w` bits, most significant first, in groups of `g` that fill whole 64-bit words. -/
def packCodes (g w : Nat) : Nat → List Nat → List Nat
  | 0, _ => []
  | n + 1, l =>
    if l = [] then []
    else
      let v := (l.take g).foldl (fun a c => a * 2 ^ w + c) 0
      let words := g * w / 64
      ((List.range words).map fun i => v / 2 ^ (64 * (words - 1 - i)) % 2 ^ 64) ++ packCodes g w n (l.drop g)

/-- The PIXEL_RUN messages of a line of a band: up to `k` groups of `g` pixels each, from pixel `first`. -/
def pixelRuns (link line frame g w k : Nat) : Nat → Nat → List Nat → List (List Nat)
  | 0, _, _ => []
  | n + 1, first, l =>
    if l = [] then []
    else
      let w0 := link * 2 ^ 56 + line * 2 ^ 40 + first * 2 ^ 24 + frame % 2 ^ 24
      (w0 :: packCodes g w k (l.take (g * k))) :: pixelRuns link line frame g w k n (first + g * k) (l.drop (g * k))

/-- R333, R334, R271: the hearth sends a link's line (or an array's row) of a frame: under half refresh only what it carries, until full
refresh is to resume. -/
def Dev.carriedLine (d : Dev) (n frame line : Nat) : Bool :=
  let die := linkDie n
  let goesOn : Bool := frame ≤ d.frame || d.rd die (R.LNK_FL_STATE_DEGRADED (linkOn n)) = 1 || d.rd die (R.DMP_HALF_DEGRADED (n / 4)) = 1
  !(d.ras.halfSent.getD n false && goesOn) || line % 2 = frame % 2

/-- What a line of a strip sends: for each link the messages, and how many rays it carries. -/
def Dev.lineRunsOf (d : Dev) (t : Strip) : List (Nat × Nat × List (List Nat)) :=
  let row := 16 * t.idx + t.sent
  let codes := t.lines.getD t.sent []
  let carried (n : Nat) (ms : List (List Nat)) : List (List Nat) := if d.carriedLine n t.frame row then ms else []
  if d.mode = 2 then
    [(2 * t.region, 2560, carried (2 * t.region) <| carried (2 * t.region + 1) <| pixelRuns (2 * t.region) (1600 * t.view + row) t.frame 8 24 160 2 0 codes)]
  else
    let width := (d.rasterOf t.region).width
    ((fromN 0 6).filter fun n => bandWidth width n > 0).map fun n =>
      let w := bandWidth width n
      (n, w, carried n (pixelRuns n row t.frame 16 36 56 5 0 ((codes.drop (bandStart width n)).take w)))

/-- R22, R31: a link's share of a line leaves against credits; for a flue die that is not reachable it is discarded and counted. -/
def Dev.sendRuns (d : Dev) (e : Nat × Nat × List (List Nat)) : Dev :=
  let die := linkDie e.1
  if ¬ d.flueUp die then d.bump 0 (R.DMP_RAY_DROP (die - 8)) e.2.1
  else
    let c := (e.2.2.map fun m => runCredits (m.length - 1)).sum
    let d := { d with dmp := { d.dmp with credits := d.dmp.credits.modify e.1 fun x => x - c } }
    e.2.2.foldl (fun d m => d.fwdSend die 0x01 m none) d

/-- R31: the credits for a share are there. -/
def Dev.credited (d : Dev) (e : Nat × Nat × List (List Nat)) : Bool :=
  !d.flueUp (linkDie e.1) || decide ((e.2.2.map fun m => runCredits (m.length - 1)).sum ≤ d.dmp.credits.getD e.1 0)

/-- A line of a strip has left; with its last line the strip is wholly sent. -/
def Dev.lineLeft (d : Dev) (t : Strip) : Dev :=
  if t.sent + 1 ≥ 16 then (d.dropStrip t).failoverFlag else d.setStrip { t with sent := t.sent + 1 }

/-- R139: the instant from which the next line of a strip is sent: in panel mode 4 µs before its line-start marker; in projector mode it is
sent as credits allow. -/
def Dev.lineDue (d : Dev) (t : Strip) : Bool :=
  d.mode = 2 || d.reached (d.frameAt t.region t.frame ((16 * t.idx + t.sent : Nat) : Int) (-4000))

/-- STRIP_LINE_SEND (R141, R31): the next line of a complete strip leaves the store. -/
def execStripLineSend (region view idx frame : Nat) (s : State) : Host.Outcome State Fault Refusal :=
  hearthEvent (fun d =>
    match d.strip? region view idx frame with
    | none => d
    | some t =>
      let es := d.lineRunsOf t
      if t.phase ≠ 2 ∨ ¬ es.all d.credited ∨ ¬ d.lineDue t then d else (es.foldl Dev.sendRuns d).lineLeft t) s

/-- EXCUSED_LINE_SEND (R161): the time of the next line of a lost strip that is excused, or that is not complete 2 µs before its need time: a
PIXEL_RUN with no data on each link. -/
def execExcusedLineSend (region view idx frame : Nat) (s : State) : Host.Outcome State Fault Refusal :=
  hearthEvent (fun d =>
    match d.strip? region view idx frame with
    | none => d
    | some t =>
      if ¬ t.redone ∨ t.phase ≥ 2 ∨ (¬ t.excused ∧ ¬ d.reached (earlier (d.needTime region view idx frame) 2000)) then d
      else
        let d := if t.excused then d else d.excuse t
        let t := { t with excused := true }
        let line := (if d.mode = 2 then 1600 * t.view else 0) + 16 * t.idx + t.sent
        let mark (n : Nat) : List Nat := [n * 2 ^ 56 + line * 2 ^ 40 + t.frame % 2 ^ 24]
        let es := (d.lineRunsOf t).map fun e => (e.1, e.2.1, if d.carriedLine e.1 t.frame line then [mark e.1] else [])
        ((es.foldl Dev.sendRuns d).lineLeft t).failoverFlag) s

/-! Rescue and underrun (R144, R157, R158). -/

/-- R144: the nominal strip time of a grate, 4.0625 G rays/s, in ns. -/
def Dev.stripTime (d : Dev) (r : Nat) : Int := (d.stripWidth r * 256 / 65 : Nat)

/-- STRIP_RESCUE (R144, R551): a strip not begun by its deadline less two strip times is split over every online grate. -/
def execStripRescue (region view idx frame : Nat) (s : State) : Host.Outcome State Fault Refusal :=
  hearthEvent (fun d =>
    match d.strip? region view idx frame with
    | none => d
    | some t =>
      if t.phase ≠ 0 ∨ t.redone ∨ t.rescued ∨ d.syn.list = [] ∨ ¬ d.reached (earlier (d.deadline region view idx frame) (2 * d.stripTime region)) then d
      else (d.bump (d.countDie t.die) R.SYN_RESCUE).setStrip (d.split { t with rescued := true })) s

/-- R157, R158: the region underruns for a frame. -/
def Dev.underrun (d : Dev) (hp : Heap) (region view idx frame die grate : Nat) : Dev :=
  let d := d.countPartial hp fun t => t.region = region && t.frame = frame
  let syn := { d.syn with
    strips := d.syn.strips.filter fun t => !(t.region = region && t.frame = frame), dead := ((region, frame) :: d.syn.dead).take 16 }
  let d := { d with syn := syn }.failoverFlag
  let links := regionLinks d.mode region
  let link := links.headD 0
  let d := (d.bump die R.SYN_UNDERRUN).wrLoHi die R.SYN_UR_FRAME_LO R.SYN_UR_FRAME_HI frame
  let d := (((d.wr die R.SYN_UR_WHERE_LINK link).wr die R.SYN_UR_WHERE_VIEW view).wr die R.SYN_UR_WHERE_STRIP idx).wr die R.SYN_UR_WHERE_GRATE grate
  let where_ := rfGet d.regs (regAddr die R.SYN_UR_WHERE_LINK.off)
  let d := (d.raise 96).ashPut 0x0003 0xFF (encLe 4 where_.toNat ++ encLe 1 die)
  links.foldl (fun d n => if d.flueUp (linkDie n) then d.fwdSend (linkDie n) 0x08 [n * 2 ^ 56 + frame % 2 ^ 48] none else d) d

/-- STRIP_DEADLINE_MISS (R157, R551): a strip is not complete at its deadline; with no grate online, one that could not be dealt. -/
def execStripDeadlineMiss (region view idx frame : Nat) (s : State) : Host.Outcome State Fault Refusal :=
  hearthEvent (fun d =>
    match d.strip? region view idx frame with
    | some t => if t.phase ≥ 2 ∨ t.redone ∨ ¬ d.reached (d.deadline region view idx frame) then d else d.underrun s.heap region view idx frame (d.countDie t.die) t.grate
    | none =>
      if d.syn.list ≠ [] ∨ ¬ d.stripExists region view idx ∨ d.syn.dead.contains (region, frame) ∨ ¬ d.reached (d.deadline region view idx frame)
      then d
      else d.underrun s.heap region view idx frame (d.hobsUp.headD 1) 0) s

/-! Cells and grates (R159). -/

/-- R159: a grate goes offline through faults. -/
def Dev.grateOffline (d : Dev) (hp : Heap) (die g cause : Nat) : Dev :=
  let d := d.descriptor 1 die 0x12 (256 + g) cause 1 0
  let d := { d with syn := { d.syn with faulted := d.syn.faulted ++ [(die, g)] } }
  let lost (t : Strip) : Bool := t.holders.contains (die, g) && t.phase < 2
  (d.countPartial hp lost).redeal lost

/-- R159: a cell goes offline. -/
def Dev.cellOffline (d : Dev) (hp : Heap) (die g c cause : Nat) : Dev :=
  let off := d.rd die R.SYN_CELL_OFFLINE ||| 2 ^ (8 * g + c)
  let d := (d.wr die R.SYN_CELL_OFFLINE off).descriptor 1 die 0x12 (8 * g + c) cause 1 0
  if ((List.range 8).filter fun i => bit off (8 * g + i)).length = 3 then d.grateOffline hp die g cause else d

/-- CELL_CHECK_FAIL (R159, R18): cell `c` of grate `g` of a hob die (ID) fails a check: corrected, uncorrectable or parity (a CAUSE of
R19); the third failure within 1 ms, or an uncorrectable one, takes it offline. -/
def execCellCheckFail (die g c cause : Nat) (s : State) : Host.Outcome State Fault Refusal :=
  hearthEvent (fun d =>
    if ¬ d.hobsUp.contains die ∨ g > 2 ∨ c > 7 ∨ cause = 0 ∨ cause > 3 ∨ bit (d.rd die R.SYN_CELL_OFFLINE) (8 * g + c) ∨ d.syn.faulted.contains (die, g)
    then d
    else
      let key := (die, 8 * g + c)
      let times := d.stamp :: ((kvGet d.syn.cellErr key).getD []).filter fun t => d.within t 1000000
      let rest := d.syn.cellErr.filter fun e => e.1 ≠ key
      if cause = Cause.eccUncorrectable ∨ times.length ≥ 3 then
        ({ d with syn := { d.syn with cellErr := rest } }).cellOffline s.heap die g c cause
      else
        ({ d with syn := { d.syn with cellErr := rest ++ [(key, times)] } }).descriptor 0 die 0x12 (8 * g + c) cause 0 0) s

/-! Class 0x12 (R162–R167). -/

/-- R163: the fields of camera `i`, with their offsets in the block. -/
def camFields (i : Nat) : List (Fld × Nat) :=
  [(R.SYN_CAM_CX i, 0), (R.SYN_CAM_CY i, 4), (R.SYN_CAM_CZ i, 8), (R.SYN_CAM_FX i, 12), (R.SYN_CAM_FY i, 16), (R.SYN_CAM_PU i, 20),
    (R.SYN_CAM_PV i, 24), (R.SYN_CAM_ZN i, 28), (R.SYN_CAM_ZF i, 32)]

/-- R163: a camera's values are out of range. -/
def cameraBad (p : Bytes) (o : Nat) : Bool :=
  decide (s32 p (o + 8) < 0x1000) || decide (u32 p (o + 12) < 0x10000) || decide (u32 p (o + 16) < 0x10000) || decide (u32 p (o + 28) < 0x1000)
    || decide (u32 p (o + 32) ≤ u32 p (o + 28))

/-- What the gate must know of SYN_SOURCE_SET. -/
def specSynSourceSet : OpSpec :=
  { op := 0x1200, len := fun n => decide (8 ≤ n) && (n - 8) % 40 = 0, fits := fun p => p.length = 8 + 40 * u8 p 1, check := fun _ _ p => failIf [
      (decide (u8 p 0 > 7) || u8 p 1 = 0 || decide (u8 p 1 > 16), 0), (!zero? p 2 6, Rs.reserved)] }

/-- SYN_SOURCE_SET (R163). -/
def execSynSourceSet (h : Hdr) (p : Bytes) (s : State) : Host.Outcome State Fault Refusal :=
  anvil specSynSourceSet h p (.synSourceSet h p)
    (fun _ d =>
      let n := u8 p 1
      if (List.range n).any fun i => u32 p (44 + 40 * i) ≠ 0 then (d, .bad St.badParam Rs.reserved)
      else if (List.range n).any fun i => cameraBad p (8 + 40 * i) then (d, .bad St.badParam 0)
      else match (d.stream (u8 p 0)).cfg with
        | none => (d, .bad St.badState 0x41)
        | some c =>
          if c.views ≠ n then (d, .bad St.badParam 0x40)
          else
            let ws := (R.SYN_SOURCE_SLOT, u8 p 0) :: ((List.range n).map fun i => (camFields i).map fun e => (e.1, u32 p (8 + 40 * i + e.2))).flatten
            let d := d.hobsUp.foldl (fun d k => ws.foldl (fun d w => d.wrS k w.1 w.2) d) d
            ({ d with syn := { d.syn with camNext := n } }, .done)) s

/-- What the gate must know of SYN_SOURCE_GET. -/
def specSynSourceGet : OpSpec :=
  { op := 0x1201, len := (· = 4), check := fun _ _ p => failIf [(decide (u8 p 0 > 1), 0), (!zero? p 1 3, Rs.reserved)] }

/-- SYN_SOURCE_GET (R164). -/
def execSynSourceGet (h : Hdr) (p : Bytes) (s : State) : Host.Outcome State Fault Refusal :=
  anvil specSynSourceGet h p (.synSourceGet h p)
    (fun _ d =>
      let k := d.hobsUp.headD 1
      let sh := u8 p 0 = 1
      let get (f : Fld) : Nat := if sh then d.rdS k f else d.rdB k f
      let n := if sh then d.syn.camNext else d.syn.camNow
      (d, .done (enc 1 (get R.SYN_SOURCE_SLOT) ++ enc 1 n ++ zeros 6
        ++ ((List.range n).map fun i => ((camFields i).map fun e => enc 4 (get e.1)).flatten ++ zeros 4).flatten))) s

/-- What the gate must know of SYN_CONFIG. -/
def specSynConfig : OpSpec :=
  { op := 0x1202, len := (· = 16), check := fun _ _ p => failIf [
      (decide (u16 p 0 < 100) || decide (u16 p 0 > 2000) || decide (u8 p 2 < 2) || decide (u8 p 2 > 4) || decide (u8 p 3 > 4)
        || decide (u32 p 4 > 1000000) || decide (u32 p 8 < 0x100) || decide (u32 p 8 > 0x1000000) || u32 p 12 = 0 || decide (u32 p 12 > 0xFFFFFFF), 0)] }

/-- SYN_CONFIG (R165). -/
def execSynConfig (h : Hdr) (p : Bytes) (s : State) : Host.Outcome State Fault Refusal :=
  anvil specSynConfig
    h p (.synConfig h p)
    (fun _ d =>
      let ws : List (Fld × Nat) := [(R.SYN_LEAD, u16 p 0), (R.SYN_TAPS_MAX, u8 p 2), (R.SYN_PRES_DELAY, u32 p 4), (R.SYN_OCC_TOL, u32 p 8), (R.SYN_EPS, u32 p 12)]
      (d.hobsUp.foldl (fun d k => (ws.foldl (fun d w => d.wrS k w.1 w.2) d).wr k R.SYN_THROTTLE_FLOOR (u8 p 3)) d, .done)) s

/-- A counter summed over the hob dies in service. -/
def Dev.hobSum (d : Dev) (f : Fld) : Nat := min (2 ^ 32 - 1) ((d.hobsUp.map fun k => d.rd k f).sum)

/-- What the gate must know of SYN_STATUS. -/
def specSynStatus : OpSpec :=
  { op := 0x1203, len := (· = 0) }

/-- SYN_STATUS (R166). -/
def execSynStatus (h : Hdr) (p : Bytes) (s : State) : Host.Outcome State Fault Refusal :=
  anvil specSynStatus h p (.synStatus h p)
    (fun _ d =>
      let k := d.hobsUp.headD 1
      let frames := d.hobsUp.map fun k => (d.rdLoHi k R.SYN_UR_FRAME_LO R.SYN_UR_FRAME_HI, k)
      let last := frames.foldl (fun b e => if b.1 < e.1 then e else b) (0, k)
      (d, .done (enc 1 (d.rd k R.SYN_THROTTLE_EFFECTIVE) ++ enc 1 (d.rd k R.SYN_THROTTLE_THERMAL) ++ enc 1 (d.rd k R.SYN_THROTTLE_FLOOR)
        ++ enc 1 d.syn.list.length ++ enc 2 ((d.syn.list.map fun e => 2 ^ (3 * (e.1 - 1) + e.2)).sum)
        ++ enc 2 ((d.hobsUp.map fun k => d.rd k R.SYN_SLACK_MIN).foldl min 65535) ++ enc 4 (d.hobSum R.SYN_UNDERRUN) ++ enc 4 (d.hobSum R.SYN_EXCUSED)
        ++ enc 4 (d.hobSum R.SYN_RESCUE) ++ enc 4 (d.hobSum R.SYN_NOVIEW) ++ enc 8 last.1 ++ enc 1 (d.rd last.2 R.SYN_UR_WHERE_LINK) ++ zeros 3))) s

/-- What the gate must know of SYN_GRATE_SET. -/
def specSynGrateSet : OpSpec :=
  { op := 0x1204, len := (· = 4), check := fun _ _ p => failIf [
      (decide (u8 p 0 > 3) || decide (u8 p 1 > 2) || decide (u8 p 2 > 1), 0), (!zero? p 3 1, Rs.reserved)] }

/-- SYN_GRATE_SET (R167): the reply waits for the list to change. -/
def execSynGrateSet (h : Hdr) (p : Bytes) (s : State) : Host.Outcome State Fault Refusal :=
  anvil specSynGrateSet h p (.synGrateSet h p)
    (fun c d =>
      let e := (u8 p 0 + 1, u8 p 1)
      let on := decide (u8 p 2 = 1)
      let off := d.syn.moving.foldl (fun (l : List (Nat × Nat)) m =>
        if m.2.2 then l.filter (· ≠ m.2.1) else if l.contains m.2.1 then l else l ++ [m.2.1]) d.syn.hostOff
      let left := (d.gratesOn.filter fun g => !off.contains g) ++ (d.syn.hostOff.filter fun g => !off.contains g && !d.syn.faulted.contains g && d.hobsUp.contains g.1)
      if ¬ d.hobUp e.1 then (d, .bad St.badState 0x43)
      else if d.syn.faulted.contains e then (d, .bad St.badState 0x44)
      else if off.contains e = !on ∧ d.syn.moving = [] then (d, .done)
      else if ¬ on ∧ (left.filter (· ≠ e)).length < 9 then (d, .bad St.noResource 0x42)
      else ({ d with syn := { d.syn with moving := d.syn.moving ++ [(c, e, on)] } }, .later)) s

end Sys2Proof.Machine
end

