-- ==== Sys2Proof/Machine/Thermal.lean ====
section
/-! DEFINITION. Housekeeping and the thermal guard (R451–R456, R513), thermal shutdown, the safe state (R525, R526), the failure of a
hob die (R17), and the thermal commands of class 0x50 (R468). -/

namespace Sys2Proof.Machine

namespace Rsm
/-- R467. -/
abbrev noStandby := 0x40
abbrev sensorOk := 0x41
abbrev replanBusy := 0x42
abbrev flashFault := 0x43
abbrev coreSwitch := 0x44
abbrev notHeld := 0x40
abbrev badSignature := 0x40
abbrev wrongStepping := 0x41
abbrev rollback := 0x42
abbrev slotActive := 0x45
abbrev notStaged := 0x46
end Rsm

/-! Sensors (R451, R452). -/

/-- R451: the die ID and the index on it of sensor `n` (0–47). -/
def sensorDie (n : Nat) : Nat := if n < 8 then 0 else if n < 40 then 1 + (n - 8) / 8 else 8 + (n - 40) / 4
def sensorIdx (n : Nat) : Nat := if n < 40 then n % 8 else n % 4

/-- The sensors of a die. -/
def dieSensors (die : Nat) : List Nat := (List.range 48).filter fun n => sensorDie n = die

/-- R451, R513: the flue die (0, 1) that samples a channel; none for a channel of the Mantel sequencer. Received damper power (88–95)
is measured where forward lanes end. -/
def chanFlue (ch : Nat) : Option Nat :=
  if 40 ≤ ch ∧ ch < 48 then some ((ch - 40) / 4)
  else if ch = 66 ∨ ch = 68 ∨ ch = 83 then some 1
  else if (65 ≤ ch ∧ ch ≤ 71) ∨ (82 ≤ ch ∧ ch ≤ 86) then some 0
  else if 88 ≤ ch ∧ ch < 96 then some ((ch - 88) / 4)
  else none

/-- R452: the value (Q8.8 °C) of a count of sensor `n`: through its two calibration points, plus TRIM. -/
def Dev.sensorValue (d : Dev) (n count : Nat) : Int :=
  let cal := (Config.sensorCal n).toNat
  let c25 : Int := (cal % 2 ^ 32 : Nat)
  let c105 : Int := (cal / 2 ^ 32 : Nat)
  25 * 256 + roundFree (((count : Int) - c25) * 80 * 256) (c105 - c25) + 16 * d.rdI (sensorDie n) (R.THM_SENSOR_TRIM (sensorIdx n))

/-- A Q8.8 value as 16 bits; one outside the format is not stated (log entry 41). -/
def q88 (v : Int) : Nat := if -32768 ≤ v ∧ v ≤ 32767 then twos 16 v else (Config.outside v).toNat % 65536

def Dev.sensor (d : Dev) (n : Nat) : Sensor := amGet d.thm.sensors n {}
def Dev.setSensor (d : Dev) (n : Nat) (f : Sensor → Sensor) : Dev := { d with thm := { d.thm with sensors := amMod d.thm.sensors n {} f } }

/-- A reading of a channel reaches the Mantel die. -/
def Dev.hkRead (d : Dev) (ch v : Nat) : Dev :=
  { d with thm := { d.thm with reading := amPut d.thm.reading ch (v % 65536), age := amPut d.thm.age ch 0 } }

/-- HOUSEKEEPING_SAMPLE (R451, R452): the sequencer samples a channel: a sensor's count, or another quantity's reading. A flue die
sends its reading in TELEMETRY. -/
def execHousekeepingSample (ch raw : Nat) (s : State) : Host.Outcome State Fault Refusal :=
  event (fun d =>
    if ch > 95 then d
    else
      let count := raw % 2 ^ 32
      let v : Int := if ch < 48 then d.sensorValue ch count else 0
      let word := if ch < 48 then q88 v else raw % 65536
      match chanFlue ch with
      | none =>
        if d.pwr.hearthHeld ∨ d.thm.shutdown then d
        else
          let d := if ch < 48 then
              (d.setSensor ch fun x => { x with value := v, count := count }).wr (sensorDie ch) (R.THM_SENSOR_RAW (sensorIdx ch)) count
            else d
          d.hkRead ch word
      | some f =>
        if d.pwr.flueHeld then d
        else
          let d := if ch < 48 then d.wr (8 + f) (R.THM_SENSOR_RAW (sensorIdx ch)) count else d
          let ns := (((d.media : Int) + d.clk.copy.getD f 0) / 65536 % 2 ^ 32).toNat
          d.retPut f ⟨0x83, [ch * 2 ^ 56 + word * 2 ^ 32 + ns]⟩) s

/-- TELEMETRY (R30, R451): the hearth receives readings of a flue die. -/
def execTelemetry (f : Nat) (words : List Nat) (chk : MsgCheck) (s : State) : Host.Outcome State Fault Refusal :=
  event (fun d => d.received f ⟨0x83, words⟩ chk fun d => words.foldl (fun d w =>
        let ch := w / 2 ^ 56 % 256
        let v := w / 2 ^ 32 % 65536
        if ch > 95 then d
        else
          let d := d.hkRead ch v
          if ch < 48 then d.setSensor ch fun x => { x with value := signed 16 v, count := d.rd (sensorDie ch) (R.THM_SENSOR_RAW (sensorIdx ch)) } else d) d) s

/-- R455, R526: the lasers of a flue die go dark: in projector mode a STRIKE with colour 3 and no light cuts what is on the lamp bus. -/
def Dev.lasersDark (d : Dev) (f : Nat) : Dev :=
  if d.mode = 2 ∧ d.segSt f ≠ .off then d.send (.lamp f (strikeFrame 3 0 false false false)) else d

/-! The safe state (R525, R526). -/

/-- R526: every region is disabled. -/
def Dev.regionsStop (d : Dev) : Dev :=
  (List.range 4).foldl (fun d r =>
    let f := d.fn (FnId.region r)
    match f.st with
    | .on =>
      let d := d.setFn (FnId.region r) { st := .stopping }
      { d with ras := { d.ras with stopAt := d.ras.stopAt.set r d.frame, darkAt := d.ras.darkAt.set r none } }
    | .starting => d.fnOff (FnId.region r) Rs.safeState
    | .stopping => (d.setFn (FnId.region r) { f with stored := none }).completeAll f.stored.toList St.fault Rs.safeState
    | .off => d) d

/-- R526: the film runs its disable where FILM_HV is in range, and parks otherwise. -/
def Dev.filmSafe (d : Dev) : Dev :=
  if d.filmSt = .off then d
  else if [0, 1].all fun f => !d.pwr.hvLow.getD f false && !d.pwr.hvHigh.getD f false then
    let f := d.fn FnId.film
    if f.st = .stopping then (d.setFn FnId.film { f with stored := none }).completeAll f.stored.toList St.fault Rs.safeState
    else ((d.completeAll f.running St.fault Rs.safeState).setFn FnId.film { st := .stopping, running := f.stored.toList }).filmStop
  else [0, 1].foldl (fun d f => if (d.filmDie f).park.isSome then d else d.parkBegin f) d

/-- R525, R526: the device enters the safe state. -/
def Dev.safeEnter (d : Dev) (cause why detail : Nat) : Dev :=
  if d.pwr.safe then d
  else
    let d := { d with pwr := { d.pwr with safe := true }, ras := { d.ras with safeDark := true } }
    let d := (d.lasersDark 0).lasersDark 1
    let d := (d.wr 0 R.PWR_STATE_SAFE 1).wr 0 R.PWR_STATE_SAFE_CAUSE cause
    ((d.regionsStop.filmSafe).descriptor 3 0 0x71 cause why 3 detail).twinFail

/-- PWR_SAFE (R525, R532): the value 0x0000_5AFE enters the safe state. -/
def Dev.safeWrite (d : Dev) (value : Nat) : Dev := if value = 0x5AFE then d.safeEnter 3 Cause.hostSafe 0 else d

/-- PWR_SAFE_WRITE (R525, R526). -/
def execPwrSafeWrite (value : Nat) (s : State) : Host.Outcome State Fault Refusal := hearthEvent (fun d => d.safeWrite (value % 2 ^ 32)) s

/-! Thermal shutdown (R455, R456). -/

/-- R519: a cell rests in the state it holds. -/
def Cell.halt (c : Cell) : Cell := { c with wave := none, next := none }

/-- R455, R519: a flue die blanks and halts its outputs; a park that has begun runs to its end. -/
def Dev.flueHalt (d : Dev) (f : Nat) : Dev :=
  if d.thm.fluHalt.getD f true then d
  else
    let d := ({ d with thm := { d.thm with fluHalt := d.thm.fluHalt.set f true } } : Dev).lasersDark f
    let regions := if d.mode = 1 then [0] else [2 * f, 2 * f + 1]
    let d := regions.foldl (fun d r => d.fnOff (FnId.region r)) d
    let d := (fromN (4 * f) 4).foldl (fun d n => (d.fnOff (FnId.link n)).lset n R.LNK_FL_STATE_PHASE 0) d
    let d := d.fnOff (FnId.lamp f)
    let x := d.filmDie f
    let d := if x.park.isSome then d
      else ((d.setFilmDie f { x.mapCells Cell.halt with due := [], pulse := false, arm := false, reseat := 0, dark := 1 }).fnOff FnId.film).filmDark
    d.twinFail

/-- R455, R33: PWR_SHUTDOWN of a flue die (0, 1): its code orders the flue part of the shutdown; refused during a power failure. -/
def Dev.shutdownWrite (d : Dev) (f value : Nat) : Dev :=
  if value = 0x53485554 ∧ ¬ d.pwr.refuse.getD f false then d.flueHalt f else d

/-- PWR_SHUTDOWN_WRITE (R455, R519). -/
def execPwrShutdownWrite (f value : Nat) (s : State) : Host.Outcome State Fault Refusal :=
  event (fun d => if f > 1 then d else d.shutdownWrite f (value % 2 ^ 32)) s

/-- FLUE_THERMAL_SHUTDOWN (R455): a flue die finds a sensor of its own at 125 °C or more. -/
def execFlueThermalShutdown (f : Nat) (s : State) : Host.Outcome State Fault Refusal :=
  event (fun d => if f > 1 then d else d.flueHalt f) s

/-- The hottest judged value of the sampled sensors of a die; `none` where none has been sampled. -/
def Dev.hottest (d : Dev) (die : Nat) : Option Int :=
  ((dieSensors die).filter fun n => d.thm.reading.any fun e => e.1 = n).foldl (fun b n =>
    let v := (d.sensor n).judged
    match b with
    | none => some v
    | some w => some (if v > w then v else w)) none

/-- R455, R459, R460: the shutdown of the device for sensor `n`: hearth work stops, the flue dies are ordered dark, the SHUTDOWN record
goes to both journal copies, and the management domain halts. CAUSE is not stated, nor which sector an erase is suspended in (log
entry 3). -/
def Dev.thermalShutdown (d : Dev) (n : Nat) : Dev :=
  let d := d.twinFail
  let d := flueDies.foldl (fun d k => d.fwdSend k 0x05 [regAddr k R.PWR_SHUTDOWN.off * 2 ^ 32 + 0x53485554] (some .shutdown)) d
  let (why, d) := d.freeVal 8
  let erasing : Bool := d.ash.clearing ≠ []
  let (sect, d) : Nat × Dev := if erasing then d.freeVal 32 else (0xFFFFFFFF, d)
  let data := encLe 1 why ++ encLe 1 n ++ encLe 2 (q88 (d.sensor n).judged) ++ encLe 4 sect
    ++ (([0, 1, 2, 3, 4, 8, 9] : List Nat).map fun k => encLe 2 (q88 ((d.hottest k).getD 0))).flatten ++ zeros 2
  let held := d.ash.queue.length
  let d := d.ashPut 0x0006 0xFF data
  let rec_ := d.ash.queue.drop held
  { d with
    ash := { d.ash with
      queue := d.ash.queue.take held, copyA := d.ash.copyA ++ rec_, copyB := d.ash.copyB ++ rec_
      suspend := if erasing then some sect else none }
    thm := { d.thm with shutdown := true }
    syn := { d.syn with list := [], strips := [], picks := [] }
    lay := { d.lay with queue := [], running := none }
    ing := {} }

/-! The thermal guard (R453, R454). -/

/-- The median of a list of values; an even count takes the mean of the middle two (rounding: log entry 5). -/
def medianOf (l : List Int) : Option Int :=
  let s := l.mergeSort fun a b => decide (a ≤ b)
  let n := s.length
  if n = 0 then none
  else if n % 2 = 1 then some (s.getD (n / 2) 0)
  else some (roundFree (s.getD (n / 2 - 1) 0 + s.getD (n / 2) 0) 2)

/-- R451: a flue channel is stale: its reading has not arrived for two rounds. -/
def Dev.isStale (d : Dev) (ch : Nat) : Bool := (chanFlue ch).isSome && decide (amGet d.thm.age ch 1 ≥ 3)

/-- A sensor has been sampled since reset. -/
def Dev.sampled (d : Dev) (n : Nat) : Bool := d.thm.reading.any fun e => e.1 = n

/-- R453, step 2: a sensor meets a condition of failure, given how many rounds its count has been the same. -/
def Dev.sensorBad (d : Dev) (n same : Nat) : Bool :=
  let x := d.sensor n
  let others := ((dieSensors (sensorDie n)).filter fun m => m ≠ n && d.sampled m && (d.sensor m).state = 0).map fun m => (d.sensor m).value
  decide (x.value < -40 * 256) || decide (x.value > 150 * 256) || x.count = 0 || x.count = 0xFFFFFFFF || decide (same ≥ 8)
    || (match medianOf others with
      | some m => decide ((x.value - m).natAbs > 20 * 256)
      | none => false)

/-- R453, steps 1 and 2, and R451: a sensor after the checks of a round. -/
def Dev.sensorNext (d : Dev) (n : Nat) : Sensor :=
  let x := d.sensor n
  if d.isStale n then { x with state := if x.state = 0 then 3 else x.state }
  else if ¬ d.sampled n then x
  else
    let same := if x.prev = some x.count then x.same + 1 else 1
    let bad := d.sensorBad n same
    let x := { x with prev := some x.count, same := same }
    if x.state = 0 ∨ x.state = 3 then { x with state := if bad then 1 else 0, good := 0 }
    else if bad then { x with good := 0 }
    else if x.good + 1 ≥ 8 then { x with state := 0, good := 0 }
    else { x with good := x.good + 1 }

/-- The hottest value of the sensors given that work. -/
def Dev.hotWorking (d : Dev) (l : List Nat) : Option Int :=
  (l.filter fun n => d.sampled n && (d.sensor n).state = 0).foldl (fun b n =>
    let v := (d.sensor n).value
    match b with
    | none => some v
    | some w => some (if v > w then v else w)) none

/-- R453, step 3: the judged value of a sensor, and whether its die has no working sensor. -/
def Dev.judge3 (d : Dev) (n : Nat) : Int × Bool :=
  let x := d.sensor n
  if x.state = 0 ∨ x.state = 3 then (x.value, false)
  else match d.hotWorking (dieSensors (sensorDie n)) with
    | some v => (v + 8 * 256, false)
    | none => match d.hotWorking (List.range 48) with
      | some v => (v + 8 * 256, true)
      | none => (x.judged, true)

/-- R453: a sensor's state changed: an ash record, the thermal event, and at a failure the descriptor. -/
def Dev.sensorChanged (d : Dev) (n was : Nat) : Dev :=
  let x := d.sensor n
  if x.state = was then d
  else
    let d := (d.ashPut 0x0005 0xFF (encLe 1 n ++ encLe 1 x.state ++ encLe 4 x.count ++ encLe 2 (q88 x.judged))).raise 32
    if x.state ≠ 1 then d
    else (d.bump 0 R.THM_SENSOR_FAILS).descriptor 1 (sensorDie n) 0x50 (sensorIdx n) Cause.sensorFailed 1 n

/-- A hob-die sensor is failed and not acknowledged. -/
def Dev.unacked (d : Dev) : Bool := (fromN 8 32).any fun n => (d.sensor n).state = 1

/-- R454: θ_L in Q8.8 °C. -/
def Dev.theta (d : Dev) (l : Nat) : Int := (d.rd 0 R.THM_T1_AT : Int) + 5 * 256 * ((l : Int) - 1)

/-- R454: the thermal level changes. -/
def Dev.setThermal (d : Dev) (l : Nat) (h : Int) : Dev :=
  let was := d.rd 0 R.THM_STATE_LEVEL
  if l = was then d
  else
    let d := ((d.wr 0 R.THM_STATE_LEVEL l).bump 0 R.THM_LEVEL_CHANGES).wrAll hobDies R.SYN_THROTTLE_THERMAL l
    (d.ashPut 0x0004 0xFF (encLe 1 was ++ encLe 1 l ++ encLe 2 (q88 h))).raise 32

/-- Rounds of 6 ms in the second of R454. -/
def fallRounds : Nat := 167

/-- R454: the level after a round. The second of a fall begins again after an unacknowledged failure (the worked case: acknowledged at
round 501, the level falls at round 668; log entry 144). -/
def Dev.judgeLevel (d : Dev) : Dev :=
  match (hobDies.filterMap d.hottest).foldl (fun (b : Option Int) v => match b with
      | none => some v
      | some w => some (if v > w then v else w)) none with
  | none => d
  | some h =>
    let d := d.wr 0 R.THM_STATE_H (q88 h)
    let now := d.rd 0 R.THM_STATE_LEVEL
    let top := (([1, 2, 3, 4] : List Nat).filter fun l => decide (h ≥ d.theta l)).foldl max 0
    let keep (d : Dev) (n : Nat) : Dev := { d with thm := { d.thm with below := n } }
    if top > now then keep (d.setThermal top h) 0
    else if now = 0 ∨ ¬ h < d.theta now - 3 * 256 ∨ d.unacked then keep d 0
    else if d.thm.below + 1 ≥ fallRounds then keep (d.setThermal (now - 1) h) 0
    else keep d (d.thm.below + 1)

/-! Rails (R512, R513). -/

/-- R512, R513: the monitor limits of a voltage channel in mV. FILM_HV (71) has none. -/
def Dev.railLimits (d : Dev) (ch : Nat) : Option (Nat × Nat) :=
  let core (r : Nat) : Option (Nat × Nat) := let v := 750 + 5 * d.rd 0 (R.PWR_VID_STEPS r); some (v - 50, v + 75)
  if 48 ≤ ch ∧ ch ≤ 52 then core (ch - 48)
  else if 53 ≤ ch ∧ ch ≤ 56 then some (470, 550)
  else if 57 ≤ ch ∧ ch ≤ 60 then some (980, 1150)
  else if ch = 61 ∨ ch = 67 ∨ ch = 68 then some (850, 990)
  else if ch = 62 ∨ ch = 69 then some (1650, 1980)
  else if ch = 63 ∨ ch = 70 then some (1130, 1320)
  else if ch = 64 then some (700, 825)
  else if ch = 65 ∨ ch = 66 then core (ch - 60)
  else none

/-- R514, R327: a flue die leaves the reset that its core rail held it in: its damper half is trained again. -/
def Dev.halfAgain (d : Dev) (f : Nat) : Dev :=
  if d.lnk.startup = 0 then d
  else (halfLanes f).foldl (fun d i => (d.wr 0 (R.DMP_LANE_PHASE i) 1).wr (8 + f) (R.DMP_LANE_PHASE i) 1) d

/-- R514: a rail back within its limits: the bits of PWR_RAIL_STATE that stand for it clear. -/
def Dev.railBack (d : Dev) (ch : Nat) : Dev :=
  let core (die : Nat) : Dev := (d.wr die R.PWR_RAIL_STATE_CORE_LOW 0).wr die R.PWR_RAIL_STATE_CORE_HIGH 0
  if 48 ≤ ch ∧ ch ≤ 52 then core (ch - 48)
  else if 53 ≤ ch ∧ ch ≤ 60 then d.wr ((ch - 53) % 4 + 1) R.PWR_RAIL_STATE_MEM 0
  else if ch = 63 then d.wr 0 R.PWR_RAIL_STATE_DAMPER 0
  else if ch = 65 ∨ ch = 66 then
    let low := d.rd (ch - 57) R.PWR_RAIL_STATE_CORE_LOW = 1
    if low then (core (ch - 57)).halfAgain (ch - 65) else core (ch - 57)
  else if ch = 70 then d.wrAll flueDies R.PWR_RAIL_STATE_DAMPER 0
  else d

/-- R513, R525: a rail after a round. -/
def Dev.judgeRail (d : Dev) (ch : Nat) : Dev :=
  match d.railLimits ch with
  | none => d
  | some (lo, hi) =>
    if ¬ d.sampled ch ∨ d.isStale ch then d
    else
      let v := amGet d.thm.reading ch 0
      let f := R.PWR_RAIL_FAULT_LO
      let b := 2 ^ (ch - 48)
      if lo ≤ v ∧ v ≤ hi then
        let d := d.railBack ch
        { d.wr 0 f (d.rd 0 f &&& (2 ^ 32 - 1 - b)) with pwr := { d.pwr with railBad := amDel d.pwr.railBad ch } }
      else
        let n := amGet d.pwr.railBad ch 0 + 1
        let d := { d with pwr := { d.pwr with railBad := amPut d.pwr.railBad ch n } }
        let d := if n = 2 then (d.wr 0 f (d.rd 0 f ||| b)).descriptor 1 0 0x71 ch Cause.supplyRange 0 0 else d
        if n = 8 ∧ (ch = 48 ∨ ch = 61 ∨ ch = 62 ∨ ch = 64) then d.safeEnter 2 Cause.supplyRange ch else d

/-- R513: the rails after a round; the level source follows PWR_RAIL_FAULT. -/
def Dev.judgeRails (d : Dev) : Dev :=
  let d := (fromN 48 23).foldl Dev.judgeRail d
  d.setLevel 33 (d.rd 0 R.PWR_RAIL_FAULT_LO ≠ 0)

/-- R453, steps 1–3, R452: the sensors after a round: states, judged values, and what they compensate. -/
def Dev.judgeSensors (d : Dev) : Dev :=
  let was := (List.range 48).map fun n => (d.sensor n).state
  let next := (List.range 48).map fun n => (n, d.sensorNext n)
  let d := { d with thm := { d.thm with sensors := next } }
  let js := (List.range 48).map d.judge3
  let d := (List.range 48).foldl (fun d n =>
    let x := d.sensor n
    let v := (js.getD n (0, false)).1
    ((d.setSensor n fun x => { x with judged := v }).wr (sensorDie n) (R.THM_SENSOR_VALUE (sensorIdx n)) (q88 v)).wr (sensorDie n)
      (R.THM_SENSOR_STATE (sensorIdx n)) x.state) d
  let d := { d with thm := { d.thm with
      bandgap := ([0, 1, 2, 3, 4, 8, 9] : List Nat).map fun k => (k, (d.sensor ((dieSensors k).headD 0)).judged) } }
  let d := (d.wr 0 R.THM_STATE_BLIND (b2n (js.any (·.2)))).wr 0 R.THM_STATE_UNACKED (b2n d.unacked)
  (List.range 48).foldl (fun d n => d.sensorChanged n (was.getD n 0)) d

/-- The sensor that has reached 125 °C, if one has. -/
def Dev.overheated (d : Dev) : Option Nat := (List.range 48).find? fun n => d.sampled n && decide ((d.sensor n).judged ≥ 125 * 256)

/-- HK_ROUND_END (R451–R455, R513, R525): a housekeeping round ends: its sensors and rails are judged. -/
def execHkRoundEnd (s : State) : Host.Outcome State Fault Refusal :=
  event (fun d =>
    if d.pwr.hearthHeld ∨ d.thm.shutdown then d
    else
      let age := (((List.range 96).filter fun ch => (chanFlue ch).isSome).map fun ch => (ch, min (amGet d.thm.age ch 1 + 1) 3))
      let d := { d with thm := { d.thm with age := age } }
      let d := d.judgeSensors
      match d.overheated with
      | some n => d.thermalShutdown n
      | none => d.judgeLevel.judgeRails) s

/-! A hob die fails (R17, R122, R160, R180, R525). -/

/-- R17, R20, R525: hob die `i` (0–3), which meets a condition of R17, is declared failed. -/
def hobFail (i : Nat) (hp : Heap) (d : Dev) : Heap × Dev :=
  match d.fab.cond.getD i none with
  | none => (hp, d)
  | some cause =>
    if d.fab.failed.getD i true then (hp, d)
    else
      let die := i + 1
      let again := d.fab.failed.any id
      let d := { d with fab := { d.fab with failed := d.fab.failed.set i true } }
      let d := (d.descriptor 2 die 0x0F 0 cause 2 0).unsettled
      let d := (d.memGone i).dropPicked fun k v => (d.view k v.view).owner = some i
      let d := (d.mapViews i fun v => { v with tex := v.tex.restart, dep := v.dep.restart }).eobAll
      let lost (t : Strip) : Bool := t.holders.any fun g => g.1 = die
      let d := (d.countPartial hp lost).redeal lost
      (hp.dieLost die, if again then d.safeEnter 1 cause die else d)

/-- HOB_DIE_FAIL (R17). -/
def execHobDieFail (i : Nat) (s : State) : Host.Outcome State Fault Refusal := hearthEventH (hobFail i) s

/-! Commands (R468). -/

/-- What the gate must know of THM_STATUS. -/
def specThmStatus : OpSpec :=
  { op := 0x5000, len := (· = 0) }

/-- THM_STATUS (R468). -/
def execThmStatus (h : Hdr) (p : Bytes) (s : State) : Host.Outcome State Fault Refusal :=
  anvil specThmStatus h p (.thmStatus h p)
    (fun _ d => (d, .done (enc 1 (d.rd 0 R.THM_STATE_LEVEL) ++ enc 1 (d.rd 0 R.THM_STATE_BLIND + 2 * b2n d.unacked) ++ enc 2 (d.rd 0 R.THM_STATE_H)
      ++ ((List.range 48).map fun n => enc 2 (q88 (d.sensor n).judged) ++ enc 1 (d.sensor n).state ++ zeros 1).flatten))) s

/-- What the gate must know of THM_ACK. -/
def specThmAck : OpSpec :=
  { op := 0x5001, len := (· = 4), check := fun _ _ p => failIf [(decide (u8 p 0 > 47), 0), (!zero? p 1 3, Rs.reserved)] }

/-- THM_ACK (R468, R454). -/
def execThmAck (h : Hdr) (p : Bytes) (s : State) : Host.Outcome State Fault Refusal :=
  anvil specThmAck h p (.thmAck h p)
    (fun _ d =>
      let n := u8 p 0
      let st := (d.sensor n).state
      if st ≠ 1 ∧ st ≠ 2 then (d, .bad St.badState Rsm.sensorOk)
      else
        let d := (d.setSensor n fun x => { x with state := 2 }).wr (sensorDie n) (R.THM_SENSOR_STATE (sensorIdx n)) 2
        (d.wr 0 R.THM_STATE_UNACKED (b2n d.unacked), .done)) s

/-- What the gate must know of THM_SET. -/
def specThmSet : OpSpec :=
  { op := 0x5002, len := (· = 100), check := fun _ _ p => failIf [
      (!decide (0x5A00 ≤ u16 p 0 ∧ u16 p 0 ≤ 0x6900), 0), (!zero? p 2 2, Rs.reserved),
      ((List.range 48).any fun n => decide ((s16 p (4 + 2 * n)).natAbs > 2048), 0)] }

/-- THM_SET (R468, R471): T1_AT and the trims of every sensor, those of the flue dies over the damper. -/
def execThmSet (h : Hdr) (p : Bytes) (s : State) : Host.Outcome State Fault Refusal :=
  let trim (n : Nat) : Int := s16 p (4 + 2 * n)
  anvil specThmSet h p (.thmSet h p)
    (fun _ d =>
      let set (d : Dev) (n : Nat) : Dev := d.wr (sensorDie n) (R.THM_SENSOR_TRIM (sensorIdx n)) (twos 9 (roundDiv (trim n) 16))
      if ¬ flueDies.all d.flueUp then (d, .bad St.fault 0)
      else
        let d := (List.range 40).foldl set (d.wr 0 R.THM_T1_AT (u16 p 0))
        let (_, d, r) := d.flueWrites h flueDies (fromN 40 8) (fun n => (sensorDie n, some (R.THM_SENSOR_TRIM (sensorIdx n)))) set
        (d, r.getD .done)) s

/-- What the gate must know of HK_READ. -/
def specHkRead : OpSpec :=
  { op := 0x5003, len := (· = 0) }

/-- HK_READ (R468): the 96 readings and the stale mask, bit n for channel n. -/
def execHkRead (h : Hdr) (p : Bytes) (s : State) : Host.Outcome State Fault Refusal :=
  anvil specHkRead h p (.hkRead h p)
    (fun _ d => (d, .done (((List.range 96).map fun ch => enc 2 (amGet d.thm.reading ch 0)).flatten
      ++ enc 12 (((List.range 96).filter d.isStale).map (2 ^ ·)).sum))) s

end Sys2Proof.Machine
end

