-- ==== Sys2Proof/Machine/AshLog.lean ====
section
/-! DEFINITION. The ash log (class 0x51, R459, R460, R469): the record queue, the two journal copies, the boot scan, and the
once-a-second summary of corrected faults (R19); BOOTCFG_SET (R458). -/

namespace Sys2Proof.Machine

/-- R471, R473: a write of the serial flash has succeeded or failed. -/
def Dev.flashWrote (d : Dev) (ok : Bool) : Dev :=
  let d := d.wr 0 R.ASH_STATE_FLASH_FAULT (b2n !ok)
  if ok then d else d.raise 34

/-- A command's own flash write (`Hdr.answered` says whether it fails). -/
def flashOk (h : Hdr) : Bool := h.answered.isNone

/-- R459: the record of a SEQ from whichever copy holds it. -/
def Ash.held (a : Ash) (q : Nat) : Option AshRec := (a.copyA.find? fun r => r.seq = q) <|> (a.copyB.find? fun r => r.seq = q)

/-- R459: the records of both copies, rising. -/
def Ash.merged (a : Ash) : List AshRec :=
  (a.copyA ++ a.copyB.filter fun r => !a.copyA.any fun x => x.seq = r.seq).mergeSort fun x y => decide (x.seq ≤ y.seq)

/-- R457, R459: the records a copy holds at most: 6,144 sectors of 64, one of them kept erased. -/
def journalMax : Nat := 6143 * 64

/-- R459: the journal wraps: its oldest sector is overwritten. -/
def wrapJournal (l : List AshRec) : List AshRec := if l.length > journalMax then l.drop 64 else l

/-- ASH_OLDEST follows what is held; with nothing held it is the SEQ of the next record to be appended. -/
def Dev.ashOldest (d : Dev) : Dev :=
  let next := match d.ash.queue with
    | r :: _ => r.seq
    | [] => d.rd 0 R.ASH_NEXT
  d.wr 0 R.ASH_OLDEST (((d.ash.copyA ++ d.ash.copyB).map AshRec.seq).foldl min next)

/-- ASH_APPEND (R459, R460): the oldest record of the queue is appended to copy A, read back, and appended to copy B; `a` and `b` say
which of the writes held. A record that neither copy holds stays queued. -/
def execAshAppend (a b : Bool) (s : State) : Host.Outcome State Fault Refusal :=
  event (fun d =>
    match d.ash.queue with
    | [] => d
    | r :: rest =>
      if d.pwr.hearthHeld ∨ d.thm.shutdown ∨ d.rd 0 R.ASH_STATE_READY = 0 ∨ d.ash.clearing ≠ [] then d
      else
        let d := d.flashWrote (a && b)
        if ¬ a ∧ ¬ b then d
        else
          ({ d with ash := { d.ash with
              queue := rest
              copyA := if a then wrapJournal (d.ash.copyA ++ [r]) else d.ash.copyA
              copyB := if b then wrapJournal (d.ash.copyB ++ [r]) else d.ash.copyB } }).ashOldest) s

/-- R461: an AGE record: measure, element, daily value. -/
def ageData (m e v : Nat) : Bytes := encLe 1 m ++ encLe 4 e ++ encLe 4 v

/-- ASH_SCAN (R459, R456, R461): both copies are scanned: missing twins are completed, the journal's head is found, the queued records
take their numbers, the daily values are reloaded, and the BOOT record is queued. The reset cause is not stated (log entry 3). -/
def execAshScan (s : State) : Host.Outcome State Fault Refusal :=
  event (fun d =>
    if d.pwr.hearthHeld ∨ d.thm.shutdown ∨ d.rd 0 R.ASH_STATE_READY = 1 then d
    else
      let all := d.ash.merged
      let torn := (all.filter fun r => !(d.ash.copyA.contains r && d.ash.copyB.contains r)).length
      let last := all.getLast?
      let next := match last with | some r => r.seq + 1 | none => 0
      let boot := match last with | some r => r.boot + 1 | none => 0
      let q := d.ash.queue.mapIdx fun i r => { r with seq := next + i, boot := boot }
      let ages := all.filter fun r => r.ty = 0x000C
      let daily := ages.foldl (fun l r => kvPut l (le 1 r.data 0, le 4 r.data 1) (le 4 r.data 5)) d.age.daily
      let d := { d with
        ash := { d.ash with copyA := all, copyB := all, queue := q, bootCnt := boot, suspend := none }
        age := { d.age with daily := daily } }
      let d := ((d.bump 0 R.ASH_TORN torn).wr 0 R.ASH_NEXT (next + q.length)).wr 0 R.ASH_STATE_READY 1
      let (why, d) := d.freeVal 8
      let after := match last with | some r => decide (r.ty = 0x0006) | none => false
      (d.ashPut 0x0007 0xFF (encLe 1 why ++ [0xB0, 2, 4, 1] ++ encLe 2 (d.tnk.patchOf.getD d.tnk.active 0) ++ encLe 1 (b2n after))).ashOldest) s

/-- ASH_SUMMARY (R19): one SUMMARY record per block whose corrected-fault counter has advanced. -/
def execAshSummary (s : State) : Host.Outcome State Fault Refusal :=
  event (fun d =>
    if d.pwr.hearthHeld ∨ d.thm.shutdown ∨ d.tnk.noManage then d
    else
      let l := d.ash.corr
      let d := { d with ash := { d.ash with corr := [] } }
      l.foldl (fun d e => d.ashPut 0x0002 0 (encLe 1 e.1.1 ++ encLe 1 e.1.2 ++ encLe 4 e.2)) d) s

/-- What the gate must know of ASH_STATUS. -/
def specAshStatus : OpSpec :=
  { op := 0x5100, len := (· = 0) }

/-- ASH_STATUS (R469). -/
def execAshStatus (h : Hdr) (p : Bytes) (s : State) : Host.Outcome State Fault Refusal :=
  anvil specAshStatus h p (.ashStatus h p)
    (fun _ d => (d, .done (enc 4 (d.rd 0 R.ASH_OLDEST) ++ enc 4 (d.rd 0 R.ASH_NEXT) ++ enc 2 d.ash.queue.length ++ zeros 2
      ++ enc 4 (d.rd 0 R.ASH_LOST) ++ enc 4 (d.rd 0 R.ASH_TORN)))) s

/-- What the gate must know of ASH_READ. -/
def specAshRead : OpSpec :=
  { op := 0x5101, len := (· = 8), check := fun _ _ p => failIf [
      (u8 p 4 = 0 || decide (u8 p 4 > 63), 0), (!zero? p 5 3, Rs.reserved)] }

/-- ASH_READ (R469): the records held from FIRST on, COUNT at most. -/
def execAshRead (h : Hdr) (p : Bytes) (s : State) : Host.Outcome State Fault Refusal :=
  anvil specAshRead h p (.ashRead h p)
    (fun _ d =>
      let old := d.rd 0 R.ASH_OLDEST
      if u32 p 0 < old then (d, .reply St.badParam Rsm.notHeld (enc 4 old))
      else (d, .done (((fromN (u32 p 0) (u8 p 4)).filterMap d.ash.held).map AshRec.bytes).flatten)) s

/-- What the gate must know of ASH_NOTE. -/
def specAshNote : OpSpec :=
  { op := 0x5102, len := (· = 24) }

/-- ASH_NOTE (R469): a HOST record is queued. -/
def execAshNote (h : Hdr) (p : Bytes) (s : State) : Host.Outcome State Fault Refusal :=
  anvil specAshNote h p (.ashNote h p)
    (fun _ d =>
      let q := d.rd 0 R.ASH_NEXT
      let n := d.ash.queue.length
      let d := d.ashPut 0x000B 0xFF p
      (d, if d.ash.queue.length = n then .bad St.noResource 0 else .done (enc 4 q))) s

/-- What the gate must know of ASH_CLEAR. -/
def specAshClear : OpSpec :=
  { op := 0x5103, len := (· = 0), auth := localOnly }

/-- ASH_CLEAR (R469): erasure of both copies begins; only on the control port. -/
def execAshClear (h : Hdr) (p : Bytes) (s : State) : Host.Outcome State Fault Refusal :=
  anvil specAshClear h p (.ashClear h p)
    (fun c d =>
      ({ d with ash := { d.ash with clearing := d.ash.clearing ++ [c] } }, .accepted)) s

/-- ASH_CLEAR_DONE (R469, R467): the erasure ends, `ok` or with a flash fault. -/
def execAshClearDone (ok : Bool) (s : State) : Host.Outcome State Fault Refusal :=
  event (fun d =>
    let cs := d.ash.clearing
    if cs = [] ∨ d.thm.shutdown ∨ d.pwr.hearthHeld then d
    else
      let d := ({ d with ash := { d.ash with clearing := [] } }).flashWrote ok
      if ok then (({ d with ash := { d.ash with copyA := [], copyB := [] } }).ashOldest).completeAll cs St.done 0
      else d.completeAll cs St.fault Rsm.flashFault) s

/-- What the gate must know of BOOTCFG_SET. -/
def specBootcfgSet : OpSpec :=
  { op := 0x5005, len := (· = 4), check := fun _ _ p => failIf [
      (!((u16 p 0 = 0 || memRateOk (u16 p 0)) && (u16 p 2 = 0 || memRateOk (u16 p 2))), 0)] }

/-- BOOTCFG_SET (R468, R458, R388): the memory rates of the boot configuration; 0 for the default. -/
def execBootcfgSet (h : Hdr) (p : Bytes) (s : State) : Host.Outcome State Fault Refusal :=
  anvil specBootcfgSet h p (.bootcfgSet h p)
    (fun _ d =>
      let d := d.flashWrote (flashOk h)
      if flashOk h then (d.bootSave fun b => { b with rate0 := u16 p 0, rate1 := u16 p 2 }, .done)
      else (d, .bad St.fault Rsm.flashFault)) s

end Sys2Proof.Machine
end

