-- ==== Sys2Proof/Machine/Events.lean ====
section
/-! DEFINITION. The event controller's own commands (R472–R482): doorbells, claims and completions, hold-off windows, and sleep. -/

namespace Sys2Proof.Machine

/-- IRQ_DOORBELL (R472): a doorbell write raises the source it names. -/
def execIrqDoorbell (source : Nat) (s : State) : Host.Outcome State Fault Refusal := hearthEvent (fun d => d.raise (source % 1024)) s

/-- R475: a source comes before another in a claim: the higher PRIO of its group, then the lower number. -/
def Dev.claimBefore (d : Dev) (a b : Nat) : Bool :=
  let pa := d.rd 0 (R.IRQ_GROUP_PRIO (a / 32))
  let pb := d.rd 0 (R.IRQ_GROUP_PRIO (b / 32))
  decide (pb < pa) || (pa = pb && decide (a ≤ b))

/-- The claimable sources (R478), best first (R475). -/
def Dev.claimables (d : Dev) : List Nat :=
  ((d.ev.srcs.map (·.1)).filter d.claimable).mergeSort (d.claimBefore · ·)

/-- R478: a source leaves its group's batch. -/
def Dev.leaveBatch (d : Dev) (s : Nat) : Dev :=
  let g := d.grp (s / 32)
  d.setGrp (s / 32) { g with batch := g.batch.filter (· ≠ s) }

/-- R475: the candidates in turn: a level source found low is withdrawn, the first other is claimed. -/
def Dev.claimFrom (d : Dev) : List Nat → Dev × Option Nat
  | [] => (((d.wr 0 R.IRQ_CLAIM_SOURCE 0x3FF).wr 0 R.IRQ_CLAIM_VALID 0).wr 0 R.IRQ_CLAIM_LEVEL 0, none)
  | s :: rest =>
    let v := d.src s
    let d := d.leaveBatch s
    if srcIsLevel s && !v.level then
      ((d.setSrc s { v with st := 0, count := 0 }).bump 0 R.IRQ_WITHDRAWN).claimFrom rest
    else
      let d := d.setSrc s { v with st := 2, count := 0, rep := false, cCount := v.count, cFirst := v.first }
      let d := ((d.wr 0 R.IRQ_CLAIM_SOURCE s).wr 0 R.IRQ_CLAIM_VALID 1).wr 0 R.IRQ_CLAIM_LEVEL (b2n (srcIsLevel s))
      ((d.wr 0 R.IRQ_CLAIM_COUNT v.count).wrLoHi 0 R.IRQ_CLAIM_TIME_LO R.IRQ_CLAIM_TIME_HI v.first, some s)

/-- R475: a read of IRQ_CLAIM. -/
def Dev.claim (d : Dev) : Dev × Option Nat := d.claimFrom d.claimables

/-- IRQ_CLAIM (R475, R479): the firmware claims the best claimable source and notifies the sessions that select its group. -/
def execIrqClaim (s : State) : Host.Outcome State Fault Refusal :=
  hearthEvent (fun d =>
    if d.ev.asleep then d
    else match d.claim with
      | (d, none) => d
      | (d, some k) => let v := d.src k; d.notify k v.cCount v.cFirst) s

/-- R476: a write of IRQ_COMPLETE. -/
def Dev.completeSource (d : Dev) (k : Nat) (nocause : Bool) : Dev :=
  let v := d.src k
  if v.st ≠ 2 then d.bump 0 R.IRQ_STRAY
  else
    let d := if nocause then d.bump 0 R.IRQ_VANISHED else d
    let v' : Src :=
      if srcIsLevel k then
        if v.level then
          (if v.count = 0 then { v with st := 1, count := 1, first := d.short 0, rep := false } else { v with st := 1, rep := false })
        else { v with st := 0, count := 0, rep := false }
      else { v with st := if v.rep then 1 else 0, rep := false }
    (d.setSrc k v').openGroup (k / 32)

/-- IRQ_COMPLETE (R476). -/
def execIrqComplete (source : Nat) (nocause : Bool) (s : State) : Host.Outcome State Fault Refusal :=
  hearthEvent (fun d => d.completeSource (source % 1024) nocause) s

/-- R477: at a Tinker core switch every ACTIVE source becomes PENDING again, claimable at once. -/
def Dev.claimsBack (d : Dev) : Dev :=
  (d.ev.srcs.filter fun e => e.2.st = 2).foldl (fun d (e : Nat × Src) =>
    let v := e.2
    let d := d.setSrc e.1 { v with st := 1, rep := false, count := min 65535 (v.count + v.cCount), first := v.cFirst }
    let g := d.grp (e.1 / 32)
    d.setGrp (e.1 / 32) { g with batch := g.batch ++ [e.1] }) d

/-- GROUP_HOLDOFF_END (R478): the hold-off window of a HELD group ends; it opens again if a source is pending. -/
def execGroupHoldoffEnd (group : Nat) (s : State) : Host.Outcome State Fault Refusal :=
  hearthEvent (fun d =>
    let g := d.grp group
    if g.until_ = none then d
    else
      let d := d.setGrp group { g with until_ := none }
      if d.ev.asleep then d else d.openGroup group) s

/-- TINKER_DOMAIN_STOP (R481): the Tinker clock domain stops; the controller's state is retained. -/
def execTinkerDomainStop (s : State) : Host.Outcome State Fault Refusal :=
  hearthEvent (fun d => { d with ev := { d.ev with asleep := true } }) s

/-- R481: the held raises are applied with their stamps; one that found the 64-entry FIFO full arrives only now. -/
def Dev.applyWake (d : Dev) (l : List (Nat × Nat × Nat)) : Dev :=
  let d := (l.take 64).foldl (fun d (e : Nat × Nat × Nat) => d.raiseAt e.1 e.2.1) d
  (l.drop 64).foldl (fun d (e : Nat × Nat × Nat) => d.raiseAt e.1 (d.short 0)) d

/-- IRQ_WAKE (R481): a held raise wakes the domain. -/
def execIrqWake (s : State) : Host.Outcome State Fault Refusal :=
  hearthEvent (fun d =>
    if ¬ d.ev.asleep ∨ d.ev.wake = [] then d
    else
      let l := d.ev.wake
      let d := ({ d with ev := { d.ev with asleep := false, wake := [] } } : Dev).bump 0 R.IRQ_WAKES
      (List.range 11).foldl Dev.openGroup (d.applyWake l)) s

end Sys2Proof.Machine
end

