-- ==== Sys2Proof/Machine/Tinker.lean ====
section
/-! DEFINITION. The two Tinker cores (R449, R450) and hitless update (class 0x52, R464–R466, R470). -/

namespace Sys2Proof.Machine

/-! The cores. -/

/-- R471: the TNK_ registers follow the cores. -/
def Dev.tnkRegs (d : Dev) : Dev :=
  let t := d.tnk
  let d := (d.wr 0 R.TNK_CORE_ACTIVE t.active).wr 0 R.TNK_CORE_STANDBY_OK (b2n t.standbyOk)
  let d := d.wr 0 R.TNK_CORE_FAILED (b2n (t.failed.getD 0 false) + 2 * b2n (t.failed.getD 1 false))
  (d.wr 0 R.TNK_PATCH (t.patchOf.getD t.active 0)).wr 0 R.TNK_PATCH_SLOT (t.slotOf.getD t.active 0)

/-- The cores changed, and their registers with them. -/
def Dev.setTnk (d : Dev) (f : Tnk → Tnk) : Dev := ({ d with tnk := f d.tnk } : Dev).tnkRegs

/-- A core's patch level and slot are those of the other. -/
def Tnk.copyPatch (t : Tnk) (core src : Nat) : Tnk :=
  { t with patchOf := t.patchOf.set core (t.patchOf.getD src 0), slotOf := t.slotOf.set core (t.slotOf.getD src 0) }

/-- R460: a CORE record: old and new active core, and the cause. -/
def Dev.coreRecord (d : Dev) (old new cause : Nat) : Dev := d.ashPut 0x000A 3 (encLe 1 old ++ encLe 1 new ++ encLe 1 cause)

/-- R450, R466: what the failed core had begun and not completed is answered FAULT, CORE_SWITCH. -/
def Dev.coreSwitchEnds (d : Dev) : Dev :=
  let asks := d.tnk.switchReq
  let runs := d.age.running ++ d.upd.staging
  let acts := (d.upd.act.map (·.1)).toList
  let torn (l : List PatchSlot) (c : Cmd) : List PatchSlot := l.modify (u8 c.p 0 - 1) fun x => { x with state := 2 }
  let d := { d with
    tnk := { d.tnk with switchReq := [] }
    age := { d.age with running := [] }
    ash := { d.ash with slots := d.upd.staging.foldl torn d.ash.slots }
    upd := { d.upd with staging := [], act := none, phase := 0 } }
  (asks.foldl (fun d c => d.finalReply c St.fault Rsm.coreSwitch []) d).completeAll (runs ++ acts) St.fault Rsm.coreSwitch

/-- TINKER_CORE_SWITCH (R450, R466, R477): the active core fails; the standby takes over, unpatched during an activation. Without a
standby the device has no management left. -/
def execTinkerCoreSwitch (cause : Nat) (s : State) : Host.Outcome State Fault Refusal :=
  event (fun d =>
    if d.pwr.hearthHeld ∨ d.thm.shutdown ∨ d.tnk.noManage then d
    else
      let old := d.tnk.active
      let new := 1 - old
      if ¬ d.tnk.standbyOk then d.setTnk fun t => { t with failed := t.failed.set old true, noManage := true }
      else
        let before := d.upd.phase = 1 ∨ d.upd.phase = 2
        let d := d.setTnk fun t =>
          let t := if before then t.copyPatch new old else t
          { t with active := new, standbyOk := false, failed := t.failed.set old true }
        let d := ((d.bump 0 R.TNK_SWITCHES).coreSwitchEnds).claimsBack.unsettled
        ((d.descriptor 3 0 0x00 old Cause.watchdog 2 0).raise 16).coreRecord old new (cause % 256)) s

/-- CORE_SELFTEST_DONE (R450): the self-test of the core that is not active ends: it becomes standby or stays failed. -/
def execCoreSelftestDone (pass : Bool) (s : State) : Host.Outcome State Fault Refusal :=
  hearthEvent (fun d =>
    let k := 1 - d.tnk.active
    if ¬ d.tnk.failed.getD k false ∨ ¬ pass ∨ d.tnk.noManage then d
    else d.setTnk fun t => { t.copyPatch k t.active with failed := t.failed.set k false, standbyOk := true }) s

/-- STATE_TABLE_CHECK (R449): the standby checks the state table and itself; `ok` false is a fault of the standby. -/
def execStateTableCheck (ok : Bool) (s : State) : Host.Outcome State Fault Refusal :=
  hearthEvent (fun d =>
    if ok ∨ ¬ d.tnk.standbyOk then d
    else
      let k := 1 - d.tnk.active
      (d.setTnk fun t => { t with standbyOk := false, failed := t.failed.set k true }).descriptor 3 0 0x00 k Cause.crcError 1 0) s

/-- What the gate must know of TINKER_SWITCH. -/
def specTinkerSwitch : OpSpec :=
  { op := 0x5004, len := (· = 0) }

/-- TINKER_SWITCH (R468): the reply waits for the exchange at the next frame start. -/
def execTinkerSwitch (h : Hdr) (p : Bytes) (s : State) : Host.Outcome State Fault Refusal :=
  anvil specTinkerSwitch h p (.tinkerSwitch h p)
    (fun c d =>
      if ¬ d.tnk.standbyOk then (d, .bad St.badState Rsm.noStandby)
      else if d.upd.act.isSome then (d, .bad St.badState 0)
      else ({ d with tnk := { d.tnk with switchReq := d.tnk.switchReq ++ [c] } }, .later)) s

/-! Patch images (R464). -/

/-- R464: the reason an image is refused. -/
def imageBad (floor : Nat) (b : Bytes) : Option Nat :=
  let body := le 4 b 16
  if le 4 b 0 ≠ 0x48435450 ∨ le 2 b 4 ≠ 1 ∨ le 2 b 6 = 0 ∨ u8 b 12 > 1 ∨ u8 b 13 > 1 ∨ ¬ zero? b 14 2 ∨ ¬ zero? b 20 44 ∨ body = 0 ∨ body > 524288
      ∨ b.length ≠ 160 + body ∨ ¬ Config.signatureOk b then some Rsm.badSignature
  else if u8 b 8 ≠ 0xB0 ∨ u8 b 9 ≠ 2 ∨ u8 b 10 ≠ 4 ∨ u8 b 11 ≠ 1 then some Rsm.wrongStepping
  else if le 2 b 6 < floor then some Rsm.rollback
  else none

/-- R470: a patch slot holding an image. -/
def slotOfImage (floor : Nat) (b : Bytes) : PatchSlot :=
  { state := if (imageBad floor b).isNone then 1 else 2, level := le 2 b 6, key := u8 b 12, raise := u8 b 13 = 1, image := b }

def Dev.slot (d : Dev) (k : Nat) : PatchSlot := d.ash.slots.getD (k - 1) {}

/-- R460: a PATCH record: slot, level, action (0 staged, 1 activated, 2 reverted, 3 refused at boot). -/
def Dev.patchRecord (d : Dev) (slot level action : Nat) : Dev := d.ashPut 0x0009 0xFF (encLe 1 slot ++ encLe 2 level ++ encLe 1 action)

/-- What the gate must know of UPDATE_STAGE. -/
def specUpdateStage : OpSpec :=
  { op := 0x5200, len := (· = 12), check := fun s _ p => failIf [
      (u8 p 0 = 0 || decide (u8 p 0 > 2) || decide (u8 p 1 > 3) || u32 p 8 = 0, 0), ((s.heap.buf (u16 p 2)).isNone, Rs.noBuffer),
      ((bufCheck s.heap (u16 p 2) (u32 p 4) (u32 p 8)).isSome, Rs.bufferRange)] }

/-- UPDATE_STAGE (R470). -/
def execUpdateStage (h : Hdr) (p : Bytes) (s : State) : Host.Outcome State Fault Refusal :=
  anvilR specUpdateStage h p (.updateStage h p)
    (fun c hp d =>
      if d.tnk.slotOf.getD d.tnk.active 0 = u8 p 0 then (d, .bad St.badState Rsm.slotActive)
      else if (match hp.buf (u16 p 2) with | some o => o.lost | none => true) then (d, .bad St.fault Rs.bufferLost)
      else ({ d with upd := { d.upd with staging := d.upd.staging ++ [c] } }, .accepted)) s

/-- UPDATE_STAGE_DONE (R470, R464, R467): the oldest staging ends: its slot is verified or invalid. -/
def execUpdateStageDone (s : State) : Host.Outcome State Fault Refusal :=
  hearthEvent (fun d =>
    match d.upd.staging with
    | [] => d
    | c :: rest =>
      let d := { d with upd := { d.upd with staging := rest } }
      let k := u8 c.p 0
      let raw := match s.heap.buf (u16 c.p 2) with
        | some o => if o.lost then none else some (o.read (u32 c.p 4) (u32 c.p 8))
        | none => none
      match raw with
      | none => d.complete c St.fault Rs.bufferLost
      | some raw =>
        let img := (if u8 c.p 1 = 0 then some raw else inflate (u8 c.p 1) raw).getD []
        let floor := d.rd 0 R.TNK_FLOOR
        let ok := flashOk c.h
        let x := slotOfImage floor img
        let d := d.flashWrote ok
        let d := { d with ash := { d.ash with slots := d.ash.slots.set (k - 1) (if ok then x else { x with state := 2 }) } }
        if ¬ ok then d.complete c St.fault Rsm.flashFault
        else match imageBad floor img with
          | some r => d.complete c St.fault r
          | none => (d.patchRecord k x.level 0).complete c St.done 0) s

/-! Activation (R466, R470). -/

/-- What the gate must know of UPDATE_ACTIVATE. -/
def specUpdateActivate : OpSpec :=
  { op := 0x5201, len := (· = 4), check := fun _ _ p => failIf [(decide (u8 p 0 > 2), 0), (!zero? p 1 3, Rs.reserved)] }

/-- UPDATE_ACTIVATE (R470). -/
def execUpdateActivate (h : Hdr) (p : Bytes) (s : State) : Host.Outcome State Fault Refusal :=
  anvil specUpdateActivate h p (.updateActivate h p)
    (fun c d =>
      if ¬ d.tnk.standbyOk then (d, .bad St.badState Rsm.noStandby)
      else if d.upd.act.isSome ∨ d.tnk.switchReq ≠ [] then (d, .bad St.badState 0)
      else if u8 p 0 ≠ 0 ∧ (d.slot (u8 p 0)).state ≠ 1 then (d, .bad St.badState Rsm.notStaged)
      else ({ d with upd := { d.upd with act := some (c, u8 p 0), phase := 1 } }, .accepted)) s

/-- STANDBY_PATCH_READY (R466): the standby has read, verified and loaded the slot and runs it, or has failed to. -/
def execStandbyPatchReady (ok : Bool) (s : State) : Host.Outcome State Fault Refusal :=
  hearthEvent (fun d =>
    match d.upd.act with
    | none => d
    | some (c, k) =>
      if d.upd.phase ≠ 1 then d
      else
        let x := d.slot k
        let bad := if k = 0 then none else imageBad (d.rd 0 R.TNK_FLOOR) x.image
        if ¬ ok ∨ ¬ d.tnk.standbyOk ∨ bad.isSome then
          ({ d with upd := { d.upd with act := none, phase := 0 } }).complete c St.fault (bad.getD 0)
        else
          let b := 1 - d.tnk.active
          let d := d.setTnk fun t => { t with
            patchOf := t.patchOf.set b (if k = 0 then 0 else x.level), slotOf := t.slotOf.set b k }
          { d with upd := { d.upd with phase := 2, readyAt := d.media } }) s

/-- R466: the update's swap point is here: no mode is set, or the frame in course started at least 2 ms after the standby was ready. -/
def Dev.swapDue (d : Dev) : Bool := d.mode = 0 || decide (d.upd.readyAt + 2000000 * 2 ^ 16 ≤ d.ras.startAt)

/-- UPDATE_SWAP (R466, R468): the swap point: the roles are exchanged, and the waiting commands begin. -/
def execUpdateSwap (s : State) : Host.Outcome State Fault Refusal :=
  hearthEvent (fun d =>
    if ¬ d.tnk.standbyOk ∨ (¬ (d.upd.phase = 2 ∧ d.swapDue) ∧ d.tnk.switchReq = []) then d
    else
      let old := d.tnk.active
      let new := 1 - old
      let asks := d.tnk.switchReq
      let d := d.setTnk fun t => { t with active := new, switchReq := [] }
      let (why, d) := d.freeVal 8
      let d := d.claimsBack.coreRecord old new why
      let d := if d.upd.phase = 2 then { d with upd := { d.upd with phase := 3 } } else d
      asks.foldl (fun d c => d.finalReply c St.done 0 []) d) s

/-- UPDATE_ACTIVATE_DONE (R466, R464, R458): the old active core has loaded the image and is standby; the boot configuration names the
slot, the floor rises where the image asks for it, and the update completes. -/
def execUpdateActivateDone (s : State) : Host.Outcome State Fault Refusal :=
  hearthEvent (fun d =>
    match d.upd.act with
    | none => d
    | some (c, k) =>
      if d.upd.phase ≠ 3 then d
      else
        let x := d.slot k
        let d := d.setTnk fun t => t.copyPatch (1 - t.active) t.active
        let d := { d with upd := { d.upd with act := none, phase := 0 } }
        let d := if k ≠ 0 ∧ x.raise then d.wr 0 R.TNK_FLOOR (max (d.rd 0 R.TNK_FLOOR) (min 63 x.level)) else d
        let d := (if k = 0 then d.patchRecord 0 0 2 else d.patchRecord k x.level 1).flashWrote (flashOk c.h)
        if flashOk c.h then (d.bootSave fun b => { b with slot := k }).complete c St.done 0
        else d.complete c St.fault Rsm.flashFault) s

/-- What the gate must know of UPDATE_STATUS. -/
def specUpdateStatus : OpSpec :=
  { op := 0x5202, len := (· = 0) }

/-- UPDATE_STATUS (R470). -/
def execUpdateStatus (h : Hdr) (p : Bytes) (s : State) : Host.Outcome State Fault Refusal :=
  anvil specUpdateStatus h p (.updateStatus h p)
    (fun _ d => (d, .done (enc 1 (d.tnk.slotOf.getD d.tnk.active 0) ++ zeros 3
      ++ (([1, 2] : List Nat).map fun k => let x := d.slot k; enc 1 x.state ++ zeros 1 ++ enc 2 x.level ++ enc 1 x.key ++ zeros 3).flatten
      ++ enc 2 (d.rd 0 R.TNK_FLOOR)))) s

end Sys2Proof.Machine
end

