-- ==== Sys2Proof/Machine/Ageing.lean ====
section
/-! DEFINITION. Ageing and margin re-planning (R461–R463, R468, R515). -/

namespace Sys2Proof.Machine

/-- R461, R532: the core rail (0 Mantel, 1–4 hob dies, 5, 6 flue dies) of an oscillator pair: pairs 0–7 two per hob die, 8–11 on the
Mantel die, 12–15 two per flue die. -/
def pairRail (i : Nat) : Nat := if i < 8 then 1 + i / 2 else if i < 12 then 0 else 5 + (i - 12) / 2

/-! Sampling (R461). The measures are 0 transistor ageing, 1 flue link margin, 2 receiving lane margin, 3 light source efficiency,
4 emitter efficiency. -/

/-- A measure whose daily value is a minimum (the others are means). -/
def ageMin (m : Nat) : Bool := m = 1 || m = 2

/-- A sample of (measure, element) joins today's. -/
def Dev.ageAdd (d : Dev) (m e v : Nat) : Dev :=
  let new : Nat × Nat := match kvGet d.age.today (m, e) with
    | none => (v, 1)
    | some (t, n) => (if ageMin m then min t v else t + v, n + 1)
  { d with age := { d.age with today := kvPut d.age.today (m, e) new } }

/-- R461: the day's values: written as AGE records, and the baseline where one is due. -/
def Dev.ageDay (d : Dev) : Dev :=
  let vals := (d.age.today.map fun e => (e.1, if ageMin e.1.1 then e.2.1 else (roundFree e.2.1 e.2.2).toNat))
    ++ d.age.samples.map fun e => ((4, e.1), e.2)
  let pairs := vals.filter fun e => e.1.1 = 0
  let d := { d with age := { d.age with
      today := [], samples := [], daily := vals.foldl (fun l e => kvPut l e.1 e.2) d.age.daily
      base := if d.age.rebase then pairs.foldl (fun l e => amPut l e.1.2 e.2) d.age.base else d.age.base
      rebase := d.age.rebase && pairs = [] } }
  vals.foldl (fun d e => d.ashPut 0x000C 0xFF (ageData e.1.1 e.1.2 e.2)) d

/-- AGE_SAMPLE_TICK (R461): the 60 s sample: the slowdown of the 16 pairs in ppm, the eyes of the flue links, and the scan of one free
receiving lane (lane, MARGIN); `day` ends a day. -/
def execAgeSampleTick (pairs : List Nat) (scan : Option (Nat × Nat)) (day : Bool) (s : State) : Host.Outcome State Fault Refusal :=
  event (fun d =>
    if d.pwr.hearthHeld ∨ d.thm.shutdown ∨ d.tnk.noManage then d
    else
      let d := (List.range 16).foldl (fun d i => match pairs[i]? with | some v => d.ageAdd 0 i v | none => d) d
      let on := (List.range 8).filter fun n => d.linkIsOn n && d.flueUp (linkDie n)
      let d := on.foldl (fun d n => let e := d.lget n R.LNK_FL_EYE; (d.ageAdd 1 (2 * n) (e / 256)).ageAdd 1 (2 * n + 1) (e % 256)) d
      let d := match scan with
        | some (l, v) => if laneOk l && l / 256 ≠ 1 && !d.samplerBusy l then d.ageAdd 2 l v else d
        | none => d
      if day then d.ageDay else d) s

/-- What the gate must know of AGE_SAMPLE. -/
def specAgeSample : OpSpec :=
  { op := 0x5008, len := fun n => decide (6 ≤ n ∧ n ≤ 1536) && n % 6 = 0, check := fun _ _ p => failIf [
      ((List.range (p.length / 6)).any fun i => decide (u32 p (6 * i) > 65535), 0)] }

/-- AGE_SAMPLE (R468): emitter efficiencies, 1 to 256 of them. -/
def execAgeSample (h : Hdr) (p : Bytes) (s : State) : Host.Outcome State Fault Refusal :=
  anvil specAgeSample h p (.ageSample h p)
    (fun _ d => ({ d with age := { d.age with
        samples := (List.range (p.length / 6)).foldl (fun l i => amPut l (u32 p (6 * i)) (u16 p (6 * i + 4))) d.age.samples } }, .done)) s

/-- What the gate must know of AGE_SET. -/
def specAgeSet : OpSpec :=
  { op := 0x5006, len := (· = 272), check := fun _ _ p => failIf [
      (decide (u8 p 0 > 3) || !zero? p 1 1 || !zero? p 6 2, Rs.reserved),
      (decide (u32 p 2 > 86399) || decide (u16 p 14 > 0x7FFF), 0),
      ((List.range 256).any fun i => decide (u8 p (16 + i) > 47) && u8 p (16 + i) ≠ 0xFF, 0)] }

/-- AGE_SET (R468). -/
def execAgeSet (h : Hdr) (p : Bytes) (s : State) : Host.Outcome State Fault Refusal :=
  anvil specAgeSet h p (.ageSet h p)
    (fun _ d => ({ d with age := { d.age with
        advise := bit (u8 p 0) 0, rebase := d.age.rebase || bit (u8 p 0) 1, planAt := u32 p 2, mask := u64 p 6, ceiling := u16 p 14
        loops := (List.range 256).map fun i => u8 p (16 + i) } }, .done)) s

/-- What the gate must know of AGE_REPLAN. -/
def specAgeReplan : OpSpec :=
  { op := 0x5007, len := (· = 0) }

/-- AGE_REPLAN (R468). -/
def execAgeReplan (h : Hdr) (p : Bytes) (s : State) : Host.Outcome State Fault Refusal :=
  anvil specAgeReplan h p (.ageReplan h p)
    (fun c d =>
      if d.age.running ≠ [] ∨ d.age.postponed then (d, .bad St.badState Rsm.replanBusy)
      else ({ d with age := { d.age with running := [c] } }, .accepted)) s

/-! Re-planning (R462, R463). -/

/-- R462: the re-plan is postponed. -/
def Dev.replanWaits (d : Dev) : Bool :=
  decide (d.rd 0 R.THM_STATE_LEVEL ≥ 2)
    || ((List.range 4).any fun r => let st := (d.fn (FnId.region r)).st; st = .starting || st = .stopping)
    || (match d.age.hold with | some t => d.within t (60 * 10 ^ 9) | none => false)
    || d.upd.act.isSome || d.upd.staging ≠ []

/-- R463: a REPLAN record: output (0 core trim, 1 equaliser start, 2 current headroom, 3 luminance budget), element, old and new
value. -/
def Dev.replanRecord (d : Dev) (out elem old new : Nat) : Dev :=
  d.ashPut 0x0008 0xFF (encLe 1 out ++ encLe 2 elem ++ encLe 4 old ++ encLe 4 new)

/-- R515: VOUT_COMMAND's value for a number of trim steps, in the regulator's linear format. -/
def Dev.voutValue (d : Dev) (r steps : Nat) : Nat :=
  let e := signed 5 (amGet d.pwr.vexp r 0)
  let mv : Int := (750 + 5 * steps : Nat)
  (if e ≥ 0 then roundFree mv (1000 * 2 ^ e.toNat) else roundFree (mv * 2 ^ (-e).toNat) 1000).toNat % 65536

/-- R515, VID_STEP: a core rail's trim set to a number of steps; `nack` says that the regulator acknowledges neither write. -/
def Dev.vidStep (d : Dev) (r steps : Nat) (nack : Bool) : Dev :=
  let o : Output := .pmbus (d.rd 0 (R.PWR_VID_FLUE r) = 1) (d.rd 0 (R.PWR_VID_ADDR r)) 0x21 (d.voutValue r steps)
  if nack then ((d.send o).send o).descriptor 1 0 0x71 r Cause.handshakeTimeout 0 0
  else (d.send o).wr 0 (R.PWR_VID_STEPS r) steps

/-- R463: the trim steps that a die's slowdown since its baseline asks for: one for each 0.4 % (4,000 ppm). -/
def Dev.wantedSteps (d : Dev) (r : Nat) : Nat :=
  let ds := (List.range 16).filterMap fun i =>
    if pairRail i ≠ r then none
    else match kvGet d.age.daily (0, i), d.age.base.find? fun e => e.1 = i with
      | some v, some b => some ((v : Int) - b.2)
      | _, _ => none
  if ds = [] then 0 else (roundFree ds.sum ds.length / 4000).toNat

/-- R463: the core trims: at most one step up; the rails changed so far are counted. -/
def Dev.replanTrim (nacks : List Nat) (a : Dev × Nat) (r : Nat) : Dev × Nat :=
  let (d, n) := a
  let old := d.rd 0 (R.PWR_VID_STEPS r)
  if d.wantedSteps r ≤ old ∨ old ≥ 10 then a
  else
    let real := !d.age.advise && d.rd 0 (R.PWR_VID_LINEAR r) = 1
    let d := if real then d.vidStep r (old + 1) (nacks.contains r) else d
    if real ∧ nacks.contains r then (d, n) else (d.replanRecord 0 r old (old + 1), n + 1)

/-- R463: the equaliser starting points of a flue link whose daily margin fell by 2 steps or more since the last change. -/
def Dev.replanEq (a : Dev × Nat) (k : Nat) : Dev × Nat :=
  let fell (d : Dev) (i : Nat) : Bool := match kvGet d.age.daily (1, i), d.age.eqMargin.find? fun e => e.1 = i with
    | some v, some b => decide (v + 2 ≤ b.2)
    | _, _ => false
  let note (d : Dev) : Dev :=
    let l := ([2 * k, 2 * k + 1] : List Nat).foldl (fun (l : List (Nat × Nat)) i => match kvGet d.age.daily (1, i) with
      | some v => amPut l i v
      | none => l) d.age.eqMargin
    { d with age := { d.age with eqMargin := l } }
  let first := !(a.1.age.eqMargin.any fun e => e.1 / 2 = k)
  if first then (note a.1, a.2)
  else if !(fell a.1 (2 * k) || fell a.1 (2 * k + 1)) || !a.1.flueUp (linkDie k) then a
  else
    let (d, n) := (List.range 5).foldl (fun (a : Dev × Nat) p =>
      match a.1.age.eqGood.find? fun e => e.1 = 5 * k + p with
      | none => a
      | some (_, v) =>
        let f := fun n => R.LNK_FL_EQ_START n p
        let old := a.1.lget k f
        if v = old then a
        else
          let d := if a.1.age.advise then a.1 else a.1.coreWrite (linkDie k) (f (linkOn k)) v
          (d.replanRecord 1 (5 * k + p) old v, a.2 + 1)) a
    (if d.age.advise then d else note d, n)

/-- R463: laser current headroom below 10 % raises the thermal event source. -/
def Dev.replanHeadroom (d : Dev) : Dev :=
  (d.age.applied.filter fun e => decide (10 * (65535 - e.2) < 65535)).foldl (fun d _ => d.raise 32) d

/-- R463: the luminance budget of a loop of BUDGET_MASK. -/
def Dev.replanBudget (a : Dev × Nat) (L : Nat) : Dev × Nat :=
  let d := a.1
  let die := loopDie L
  let l := loopLocal L
  let g := d.rd die (R.BLW_L_CFG_GROUP l)
  let fed := (List.range 128).filter fun n => d.rd die (R.LMP_CH_SOURCE n) = g
  let top := (fed.map fun n => amGet d.age.applied (128 * (die - 8) + n) 0).foldl max 0
  let old := d.rdI die (R.BLW_L_OLIM_OUT_HI l)
  if ¬ bit d.age.mask L ∨ d.rd die (R.BLW_L_CFG_GROUPED l) = 0 ∨ top = 0 ∨ ¬ d.flueUp die then a
  else
    let want := min (d.age.ceiling : Int) (roundFree (old * 58982) top)
    let new := clampI (old - 655) (old + 655) want
    if new = old then a
    else
      let d := if d.age.advise then d else d.coreWrite die (R.BLW_L_OLIM_OUT_HI l) (twos 16 new)
      (d.replanRecord 3 L (twos 16 old) (twos 16 new), a.2 + 1)

/-- REPLAN_RUN (R462, R463, R515): the daily or commanded re-plan: postponed, or computed and applied. `nack` lists the core rails whose
regulators do not acknowledge. -/
def execReplanRun (nack : List Nat) (s : State) : Host.Outcome State Fault Refusal :=
  event (fun d =>
    if ¬ d.pwr.ready ∨ d.pwr.hearthHeld ∨ d.thm.shutdown ∨ d.tnk.noManage then d
    else if d.replanWaits then { d with age := { d.age with postponed := true } }
    else
      let a := (List.range 7).foldl (Dev.replanTrim nack) (d, 0)
      let a := (List.range 8).foldl Dev.replanEq a
      let (d, n) := (List.range 48).foldl Dev.replanBudget (a.1.replanHeadroom, a.2)
      let cs := d.age.running
      ({ d with age := { d.age with running := [], postponed := false, applied := [] } }).completeAll cs St.done 0 (enc 2 n)) s

end Sys2Proof.Machine
end

