-- ==== Sys2Proof/Machine/Motion.lean ====
section
/-! DEFINITION. The motion search of the confidence encoder (R491). Vectors are in quarter samples. What R491 leaves open (the diamond, the
order of the candidates, how each is brought to whole samples, and what "outside" measures) is log entry 189. -/

namespace Sys2Proof.Machine

/-! Predictions (ITU-T H.265, 8.5.3.3). -/

/-- A luma sample of a reference picture (10 bits): the reconstruction of picture `num` of a run of a stream, its edge samples outside it. -/
def refLuma (run num w h : Nat) (x y : Int) : Int :=
  (Config.encRecon run num (clampI 0 (w - 1) x).toNat (clampI 0 (h - 1) y).toNat).toNat

/-- The luma interpolation filter at a quarter-sample place. -/
def lumaTaps (f : Nat) : List Int :=
  match f with
  | 0 => [0, 0, 0, 64, 0, 0, 0, 0]
  | 1 => [-1, 4, -10, 58, 17, -5, 1, 0]
  | 2 => [-1, 4, -11, 40, 40, -11, 4, -1]
  | _ => [0, 1, -5, 17, 58, -10, 4, -1]

/-- Eight samples under a filter. -/
def filter8 (f : Nat) (sample : Int → Int) : Int := ((lumaTaps f).zipIdx.map fun e => e.1 * sample ((e.2 : Int) - 3)).sum

/-- The predicted luma sample at a place in quarter samples. -/
def predLuma (ref : Int → Int → Int) (qx qy : Int) : Int :=
  let row (y : Int) : Int := filter8 (qx % 4).toNat (fun k => ref (qx / 4 + k) y) / 4
  clampI 0 1023 ((filter8 (qy % 4).toNat (fun k => row (qy / 4 + k)) / 64 + 8) / 16)

/-- The sum of absolute differences of a block under a vector. -/
def blockSad (src : Nat → Nat → Int) (ref : Int → Int → Int) (b : PredBlock) (v : Int × Int) : Nat :=
  ((fromN b.y b.h).map fun y => ((fromN b.x b.w).map fun x =>
    (src x y - predLuma ref (4 * x + v.1) (4 * y + v.2)).natAbs).sum).sum

/-! Candidates. -/

/-- The vector of the block that covers a sample, if one does. -/
def mvAt (l : List MvBlock) (x y : Int) : Option (Int × Int) :=
  (l.find? fun m => decide ((m.at_.x : Int) ≤ x ∧ x < m.at_.x + m.at_.w ∧ (m.at_.y : Int) ≤ y ∧ y < m.at_.y + m.at_.h)).map fun m => (m.mx, m.my)

/-- The blocks of `l` in the slice of the CTU row `row`, with `k` rows in a slice. -/
def inSlice (k row : Nat) (l : List MvBlock) : List MvBlock := l.filter fun m => m.at_.y / 64 / k = row / k

/-- The two AMVP candidates of a block (H.265, 8.5.3.2.7): of the left and the upper neighbours, then of the previous picture, then
zero. Every reference is the previous picture, so no vector is scaled. -/
def amvp (near prev : List MvBlock) (b : PredBlock) : List (Int × Int) :=
  let x : Int := b.x
  let y : Int := b.y
  let first (l : List (Int × Int)) : Option (Int × Int) := (l.filterMap fun e => mvAt near e.1 e.2).head?
  let left := first [(x - 1, y + b.h), (x - 1, y + b.h - 1)]
  let upper := first [(x + b.w, y - 1), (x + b.w - 1, y - 1), (x - 1, y - 1)]
  let spatial := (left.toList ++ upper.toList).dedup
  let grid (v : Int) : Int := v / 16 * 16
  let corner := if (b.y + b.h) / 64 = b.y / 64 then mvAt prev (grid (x + b.w)) (grid (y + b.h)) else none
  let temporal := corner <|> mvAt prev (grid (x + b.w / 2)) (grid (y + b.h / 2))
  ((if spatial.length < 2 then spatial ++ temporal.toList else spatial) ++ [(0, 0), (0, 0)]).take 2

/-- R491, step 1: the candidates of a block: zero, the left, top and top-right blocks, the co-located vector, and AMVP's two. -/
def mvCandidates (near prev : List MvBlock) (b : PredBlock) : List (Int × Int) :=
  let x : Int := b.x
  let y : Int := b.y
  (0, 0) :: ([mvAt near (x - 1) y, mvAt near x (y - 1), mvAt near (x + b.w) (y - 1), mvAt prev x y].filterMap id ++ amvp near prev b)

/-! The search. -/

/-- R491, step 3: a vector that points at most 64 samples outside a picture of w × h. -/
def mvClamp (w h : Nat) (b : PredBlock) (v : Int × Int) : Int × Int :=
  (clampI (4 * (-64 - b.x)) (4 * ((w : Int) + 64 - b.x - b.w)) v.1, clampI (4 * (-64 - b.y)) (4 * ((h : Int) + 64 - b.y - b.h)) v.2)

/-- The cheapest of a vector and others: the first where several are. -/
def mvBest (cost : Int × Int → Nat) (v : Int × Int) (l : List (Int × Int)) : Int × Int :=
  l.foldl (fun m x => if cost x < cost m then x else m) v

/-- A vector's neighbours at the offsets given, as far as they lie within the window. -/
def mvAround (inside : Int × Int → Bool) (v : Int × Int) (offs : List (Int × Int)) : List (Int × Int) :=
  (offs.map fun o => (v.1 + o.1, v.2 + o.2)).filter inside

/-- R491, step 2: the diamond search: the large diamond until its centre is best. -/
def mvDiamond (cost : Int × Int → Nat) (inside : Int × Int → Bool) : Nat → Int × Int → Int × Int
  | 0, v => v
  | n + 1, v =>
    let m := mvBest cost v (mvAround inside v [(8, 0), (-8, 0), (0, 8), (0, -8), (4, 4), (4, -4), (-4, 4), (-4, -4)])
    if m = v then v else mvDiamond cost inside n m

/-- The eight neighbours at a distance. -/
def mvRing (k : Int) : List (Int × Int) := [(-k, -k), (0, -k), (k, -k), (-k, 0), (k, 0), (-k, k), (0, k), (k, k)]

/-- R491: the vector of a block: the best candidate at whole samples, a diamond search, then half and quarter samples, within 16 samples of
that candidate on each axis. -/
def motionVector (src : Nat → Nat → Int) (ref : Int → Int → Int) (w h : Nat) (near prev : List MvBlock) (b : PredBlock) : Int × Int :=
  let whole (v : Int × Int) : Int × Int := mvClamp w h b ((v.1 + 2) / 4 * 4, (v.2 + 2) / 4 * 4)
  let cost := blockSad src ref b
  let best := mvBest cost (0, 0) ((mvCandidates near prev b).map whole)
  let inside (v : Int × Int) : Bool := decide ((v.1 - best.1).natAbs ≤ 64 ∧ (v.2 - best.2).natAbs ≤ 64) && mvClamp w h b v = v
  let v := mvDiamond cost inside 1089 best
  let v := mvBest cost v (mvAround inside v [(4, 0), (-4, 0), (0, 4), (0, -4)])
  let v := mvBest cost v (mvAround inside v (mvRing 2))
  mvBest cost v (mvAround inside v (mvRing 1))

/-- R491: the vectors of blocks in the order they are coded; `near` are those of the slice so far. -/
def motionBlocks (src : Nat → Nat → Int) (ref : Int → Int → Int) (w h : Nat) (prev : List MvBlock) : List MvBlock → List PredBlock → List MvBlock
  | _, [] => []
  | near, b :: r =>
    let v := motionVector src ref w h near prev b
    let m : MvBlock := { at_ := b, mx := v.1, my := v.2 }
    m :: motionBlocks src ref w h prev (m :: near) r

end Sys2Proof.Machine
end

