-- ==== Sys2Proof/Machine/Encoder.lean ====
section
/-! DEFINITION. The confidence encoder: class 0x60 and its events (R483–R501). The syntax elements an H.265 encoder chooses are
open (R489 bounds them): the division into prediction blocks, the coded sizes and the slices' NAL units are operands of the events;
the input pictures, the structure of each stream, the motion search, rate control, starving and the RTP packets are the model's. -/

namespace Sys2Proof.Machine

def Dev.encSlot (d : Dev) (s : Nat) : EncSlot := d.conf.slots.getD s {}
def Dev.setEnc (d : Dev) (s : Nat) (f : EncSlot → EncSlot) : Dev := { d with conf := { d.conf with slots := d.conf.slots.modify s f } }
def Dev.encSt (d : Dev) (s : Nat) : FnSt := (d.fn (FnId.enc s)).st

/-! A configuration (R498) by its fields. -/

def encSource (p : Bytes) : Nat := u8 p 1
def encIndex (p : Bytes) : Nat := u8 p 2
def encLive (p : Bytes) : Bool := decide (u8 p 3 ≥ 6)
def encW (p : Bytes) : Nat := u16 p 4
def encH (p : Bytes) : Nat := u16 p 6
def encDiv (p : Bytes) : Nat := u8 p 8
def encRefresh (p : Bytes) : Bool := u8 p 9 = 1
def encCols (p : Bytes) : Nat := ceilDiv (encW p) 64
def encCtuRows (p : Bytes) : Nat := ceilDiv (encH p) 64
def encSlices (p : Bytes) : Nat := ceilDiv (encCtuRows p) (u8 p 10)

/-- R485: strips of 16 rows of the input picture. -/
def encStrips (p : Bytes) : Nat := ceilDiv (encH p) 16

/-- R484: the picture rate in Hz, at a device frame rate code. -/
def encRate (rate : Nat) (p : Bytes) : ℚ := ((periodOf rate).2 * 10 ^ 9 * 65536 : Nat) / ((periodOf rate).1 * encDiv p : Nat)

/-- R493: A. -/
def encA (rate : Nat) (p : Bytes) : Nat := u32 p 16 * encDiv p * (periodOf rate).1 / ((periodOf rate).2 * 10 ^ 9 * 65536)

/-- R494: the reserve of a CTU row with `intra` CTUs coded intra. -/
def rowReserve (p : Bytes) (row intra : Nat) : Nat :=
  (if row % u8 p 10 = 0 then 320 else 0) + 96 * intra + 4 * (encCols p - intra)

/-- R495: the reserve of all rows of an I picture. -/
def intraReserve (p : Bytes) : Nat := ((List.range (encCtuRows p)).map fun r => rowReserve p r (encCols p)).sum

/-! Admission (R483). -/

/-- Pixels per second of a slot. -/
def Dev.encLoad (d : Dev) (s : Nat) : ℚ := (encW (d.encSlot s).cfg * encH (d.encSlot s).cfg : Nat) * encRate d.rate (d.encSlot s).cfg

/-- The slots that are not OFF. -/
def Dev.encEnabled (d : Dev) : List Nat := (List.range 4).filter fun s => d.encSt s ≠ .off

/-- R483: a slot may be enabled beside those enabled. -/
def Dev.encAdmit (d : Dev) (s : Nat) : Bool :=
  let l := s :: d.encEnabled.filter (· ≠ s)
  let sum (l : List Nat) : ℚ := (l.map d.encLoad).foldl (· + ·) 0
  decide (sum l ≤ 10 ^ 9) && decide (sum (l.filter fun k => encLive (d.encSlot k).cfg) ≤ 9 * 10 ^ 8)

/-- R493, R496: a stream starts: its bucket is full, its SSRC, first sequence number and source port are drawn. -/
def Dev.encStart (d : Dev) (s : Nat) : Dev :=
  let (ssrc, d) := d.freeVal 32
  let (q, d) := d.freeVal 16
  let (port, d) := d.freeVal 16
  let run := d.free
  let d := { d with free := run + 1 }
  d.setEnc s fun x => {
    run := run, cfg := x.cfg, view := x.view, bound := x.bound, b := u32 x.cfg 20, last := u32 x.cfg 20, ssrc := ssrc, rtpSeq := q, sport := port
    camSeen := (d.conf.taps.getD (encIndex x.cfg) {}).closed }

/-- R499: a stream stops: the picture in progress is still sent. -/
def Dev.encStop (d : Dev) (s : Nat) : Dev := d.setEnc s fun x => { x with pics := x.pics.filter fun q => decide (q.row > 0) }

/-! Class 0x60 (R497–R501). -/

namespace Rse
abbrev capacity := 0x40
abbrev bitrate := 0x41
abbrev streamNotOff := 0x42
abbrev sourceSize := 0x43
end Rse

/-- R498: a field out of its range. -/
def encBad (p : Bytes) : Bool :=
  let n (v lo hi : Nat) : Bool := !decide (lo ≤ v ∧ v ≤ hi)
  n (u8 p 0) 0 3 || n (u8 p 1) 0 2 || n (u8 p 2) 0 (if u8 p 1 = 2 then 7 else if u8 p 1 = 1 then 1 else 0) || n (u8 p 3) 0 7 || n (u8 p 8) 1 8
    || n (u8 p 9) 0 1 || n (u8 p 10) 1 34 || n (u8 p 11) 0 2 || (if u8 p 9 = 0 then n (u16 p 12) 1 600 else u16 p 12 ≠ 0)
    || (if u8 p 9 = 1 then n (u8 p 14) 1 8 else u8 p 14 ≠ 0) || n (u8 p 15) 0 63 || n (u32 p 16) 1000000 200000000 || n (u8 p 24) 0 16
    || n (u8 p 25) 96 127 || n (u16 p 26) 1024 65535

/-- R485, R486, R489: the picture's size is not one the source may have. -/
def Dev.encSizeBad (d : Dev) (p : Bytes) : Bool :=
  let w := encW p
  let hh := encH p
  !decide (128 ≤ w ∧ w ≤ 3840 ∧ 128 ≤ hh ∧ hh ≤ 2160) || w % 8 ≠ 0 || hh % 8 ≠ 0
    || (encSource p = 0 && (decide (w > 1920) || decide (hh > 1080)))
    || (encSource p = 1 && (2 * w ≠ (d.cam (encIndex p)).cfg.width || 2 * hh ≠ (d.cam (encIndex p)).cfg.height))

/-- What the gate must know of ENC_STREAM_SET. -/
def specEncStreamSet : OpSpec :=
  { op := 0x6000, len := (· = 40), check := fun s _ p => failIf [
      (encBad p || decide (u32 p 20 > 16777215), 0), (!zero? p 32 8, Rs.reserved), (s.dev.encSizeBad p, Rse.sourceSize)] }

/-- R484, R493, R495, R53 (step 15): what a configuration breaks at the rate in effect, if anything. -/
def Dev.encRateBad (d : Dev) (p : Bytes) : Option Nat :=
  let a := encA d.rate p
  failIf [(decide (encRate d.rate p > 60), 0), (decide (a < intraReserve p), Rse.bitrate), (decide (u32 p 20 < 4 * a), 0)]

/-- ENC_STREAM_SET (R498, R484, R495). -/
def execEncStreamSet (h : Hdr) (p : Bytes) (s : State) : Host.Outcome State Fault Refusal :=
  anvil specEncStreamSet h p (.encStreamSet h p)
    (fun _ d =>
      match d.encRateBad p with
      | some rs => (d, .bad St.badParam rs)
      | none =>
      if d.encSt (u8 p 0) ≠ .off then (d, .bad St.badState Rse.streamNotOff)
      else (d.setEnc (u8 p 0) fun x => { x with cfg := p }, .done)) s

/-- What the gate must know of ENC_STREAM_ENABLE. -/
def specEncStreamEnable : OpSpec :=
  { op := 0x6001, len := (· = 4), check := fun _ _ p => failIf [
      (decide (u8 p 0 > 3) || decide (u8 p 1 > 1), 0), (!zero? p 2 2, Rs.reserved)] }

/-- ENC_STREAM_ENABLE (R499, R483, R484). -/
def execEncStreamEnable (h : Hdr) (p : Bytes) (s : State) : Host.Outcome State Fault Refusal :=
  anvil specEncStreamEnable h p (.encStreamEnable h p)
    (fun c d =>
      let k := u8 p 0
      let on : Bool := u8 p 1 = 1
      let q := (d.encSlot k).cfg
      if on ∧ d.mode = 0 then (d, .bad St.badState Rs.notInMode)
      else if on ∧ q = [] then (d, .bad St.badState 0)
      else if on ∧ d.encSt k = .off ∧ encRate d.rate q > 60 then (d, .bad St.badState 0)
      else if on ∧ d.encSt k = .off ∧ (encA d.rate q < intraReserve q ∨ u32 q 20 < 4 * encA d.rate q) then (d, .bad St.badParam Rse.bitrate)
      else if on ∧ d.encSt k = .off ∧ ¬ d.encAdmit k then (d, .bad St.noResource Rse.capacity)
      else
        let (d, r, begins) := d.request (FnId.enc k) on true c
        (if begins then (if on then d.encStart k else d.encStop k) else d, r)) s

/-- What the gate must know of ENC_VIEW_SET. -/
def specEncViewSet : OpSpec :=
  { op := 0x6002, len := (· = 32), check := fun _ _ p => failIf [
      (decide (u8 p 0 > 3), 0), (!zero? p 1 3, Rs.reserved), (decide (s32 p 12 ≤ 0), 0)] }

/-- ENC_VIEW_SET (R500). -/
def execEncViewSet (h : Hdr) (p : Bytes) (s : State) : Host.Outcome State Fault Refusal :=
  anvil specEncViewSet h p (.encViewSet h p)
    (fun _ d =>
      let d := d.setEnc (u8 p 0) fun x => { x with view := p }
      ({ d with conf := { d.conf with views := amPut d.conf.views (u8 p 0) p } }, .done)) s

/-- What the gate must know of ENC_KEY. -/
def specEncKey : OpSpec :=
  { op := 0x6003, len := (· = 4), check := fun _ _ p => failIf [(decide (u8 p 0 > 3), 0), (!zero? p 1 3, Rs.reserved)] }

/-- ENC_KEY (R490, R500). -/
def execEncKey (h : Hdr) (p : Bytes) (s : State) : Host.Outcome State Fault Refusal :=
  anvil specEncKey h p (.encKey h p)
    (fun _ d => (d.setEnc (u8 p 0) fun x => { x with key := true }, .done)) s

/-- What the gate must know of ENC_STATUS. -/
def specEncStatus : OpSpec :=
  { op := 0x6004, len := (· = 4), check := fun _ _ p => failIf [(decide (u8 p 0 > 3), 0), (!zero? p 1 3, Rs.reserved)] }

/-- ENC_STATUS (R501). -/
def execEncStatus (h : Hdr) (p : Bytes) (s : State) : Host.Outcome State Fault Refusal :=
  anvil specEncStatus h p (.encStatus h p)
    (fun _ d =>
      let k := u8 p 0
      let x := d.encSlot k
      (d, .done (enc 1 (d.encSt k).num ++ enc 1 (b2n x.lost + 2 * b2n x.starved) ++ zeros 2 ++ enc 4 (d.rd 0 (R.ENC_PICTURES k))
        ++ enc 4 (d.rd 0 (R.ENC_STARVED k)) ++ enc 4 (d.rd 0 (R.ENC_REPEAT k)) ++ enc 4 (d.rd 0 (R.ENC_LATE k)) ++ enc 4 x.last
        ++ enc 8 (d.rdLoHi 0 (R.ENC_STARVED_FRAME_LO k) (R.ENC_STARVED_FRAME_HI k))))) s

/-! Input pictures: colours (R489, R152, R175). -/

/-- The PQ code of a linear value in units of 2^-120, 1.0 standing for 203 cd/m². -/
def pqCode (x : Int) : Int :=
  let p := powFix (x * 203 / 10000) 2610 16384
  powFix ((fixOf (3424 / 4096) + fixOf (2413 / 128) * p / fixOne) * fixOne / (fixOne + fixOf (2392 / 128) * p / fixOne)) 2523 32

/-- The OETF of HLG (BT.2100). -/
def hlgCode (e : Int) : Int :=
  let a : ℚ := 17883277 / 100000000
  let b : ℚ := 1 - 4 * a
  if 12 * e ≤ fixOne then powFix (3 * e) 1 2
  else
    let c := fixOne / 2 - fixOf a * lnFix (fixOf (4 * a)) / fixOne
    fixOf a * lnFix (12 * e - fixOf b) / fixOne + c

/-- R489: a linear BT.2020 colour (U4.16) as R', G', B' of a stream: 0 PQ, 1 HLG (1,000 cd/m², system gamma 1.2), 2 BT.709 SDR. -/
def encPrime (colour : Nat) (c : Int × Int × Int) : Int × Int × Int :=
  let r := c.1 * 2 ^ 104
  let g := c.2.1 * 2 ^ 104
  let b := c.2.2 * 2 ^ 104
  match colour with
  | 0 => (pqCode r, pqCode g, pqCode b)
  | 1 =>
    let y := (2627 * r + 6780 * g + 593 * b) / 10000 * 203 / 1000
    let f (x : Int) : Int := if y ≤ 0 then 0 else hlgCode (x * 203 / 1000 * fixOne / powFix y 1 6)
    (f r, f g, f b)
  | _ =>
    let f (x : Int) : Int := powFix (clampI 0 fixOne (x / 10000)) 5 12
    (f (16605 * r - 5876 * g - 728 * b), f (11329 * g - 1246 * r - 83 * b), f (11187 * b - 182 * r - 1006 * g))

/-- R489: Y', Cb, Cr of R', G', B' in units of 2^-120 (the matrix of the stream's colour space). -/
def encYcc (colour : Nat) (c : Int × Int × Int) : Int × Int × Int :=
  let (kr, kb) : Int × Int := if colour = 2 then (2126, 722) else (2627, 593)
  let y := (kr * c.1 + (10000 - kr - kb) * c.2.1 + kb * c.2.2) / 10000
  (y, (c.2.2 - y) * 5000 / (10000 - kb), (c.1 - y) * 5000 / (10000 - kr))

/-- A 10-bit code of a luma value, and of a chroma value (log entry 53). -/
def lumaCode (y : Int) : Nat := (clampI 0 1023 (if Config.encFull then roundFree (1023 * y) fixOne else 64 + roundFree (876 * y) fixOne)).toNat
def chromaCode (v : Int) : Nat := (clampI 0 1023 (512 + roundFree ((if Config.encFull then 1023 else 896) * v) fixOne)).toNat

/-- R489: rows of linear colours as codes: 4:2:0, the chroma averaged over 2 × 2. -/
def encRows (colour : Nat) (px : List (List (Int × Int × Int))) : EncRows :=
  let ycc := px.map fun r => r.map fun c => encYcc colour (encPrime colour c)
  let at_ (x y : Nat) : Int × Int × Int := (ycc.getD y []).getD x (0, 0, 0)
  let half (f : Int × Int × Int → Int) : List (List Nat) :=
    (List.range (px.length / 2)).map fun j => (List.range ((px.headD []).length / 2)).map fun i =>
      chromaCode ((f (at_ (2 * i) (2 * j)) + f (at_ (2 * i + 1) (2 * j)) + f (at_ (2 * i) (2 * j + 1)) + f (at_ (2 * i + 1) (2 * j + 1))) / 4)
  { luma := ycc.map fun r => r.map fun e => lumaCode e.1, cb := half (·.2.1), cr := half (·.2.2) }

/-- An input picture given pixel by pixel, as strips of 16 rows. -/
def encStripOf (p : Bytes) (pix : Nat → Nat → Int × Int × Int) (k : Nat) : EncRows :=
  encRows (u8 p 11) ((fromN (16 * k) (min 16 (encH p - 16 * k))).map fun y => (List.range (encW p)).map fun x => pix x y)

def encImage (p : Bytes) (pix : Nat → Nat → Int × Int × Int) : List (Nat × EncRows) := (List.range (encStrips p)).map fun k => (k, encStripOf p pix k)

/-! Sources. -/

/-- R486: four times the numerator of a colour of the quad at (2x, 2y): the mean of its values of that colour (of all four, mono). -/
def quadColour (cfg : CamCfg) (b : Bytes) (ls : List (List Nat)) (x y k : Nat) : Int :=
  let ps := ([(0, 0), (1, 0), (0, 1), (1, 1)] : List (Nat × Nat)).filter fun e => let c := cfaColour cfg.cfa (cfaPos e.1 e.2); c = 3 || c = k
  ps.foldl (fun n e => n + camLin b (dtypeBits cfg.dtype) ls (2 * x + e.1) (2 * y + e.2)) 0 * 4 / ps.length

/-- R486: a pixel of a CAMERA source. -/
def quadPixel (cfg : CamCfg) (b : Bytes) (ls : List (List Nat)) (x y : Nat) : Int × Int × Int :=
  let f (i : Nat) : Int :=
    let n := (List.range 3).foldl (fun n j => n + camCcm b i j * quadColour cfg b ls x y j) 0
    u416 (roundFree (n * 65536) (4096 * 4 * camDen b (dtypeBits cfg.dtype)))
  (f 0, f 1, f 2)

/-- R487: a pixel of a LAYER source: the layer's surface with its crop, scaled to W × H under R172. -/
def layerSource (p : Bytes) (l : LayerSet) (o : Obj) (x y : Nat) : Int × Int × Int :=
  let l := { l with dstW := 4096 * encW p, dstH := 4096 * encH p }
  let f (lo n i size : Nat) : Int := 64 * (lo : Int) + roundFree (32 * (2 * i + 1) * n : Nat) size
  (layerPixel o l (f l.srcX l.srcW x (encW p)) (f l.srcY l.srcH y (encH p))).1

/-- A value in a signed format of `bits` bits; what lies outside is not stated (log entry 41). -/
def intoS (n : Nat) (v : Int) : Int := if -(2 ^ (n - 1) : Int) ≤ v ∧ v < 2 ^ (n - 1) then v else signed n ((Config.outside v).toNat % 2 ^ n)

/-- R485: the ray of monitor pixel (i, j) of a view (as ENC_VIEW_SET gives it). A focal length of 0 gives no point: free (log entry
41). -/
def monitorRay (v : Bytes) (i j : Nat) : RayRec :=
  let f (c : Int) (pp : Int) (fl k : Nat) : Int × Int :=
    let q : ℚ := (c : ℚ) / 4096 + ((k : ℚ) + 1 / 2 - (pp : ℚ) / 65536) * ((s32 v 12 : ℚ) / 4096) / ((fl : ℚ) / 65536)
    let o := if fl = 0 then signed 32 ((Config.outside k).toNat % 2 ^ 32) else intoS 32 (ratRound (q * 4096))
    let t : ℚ := ((c : ℚ) / 4096 - q) / ((s32 v 12 : ℚ) / 4096)
    (o, if fl = 0 then signed 16 ((Config.outside k).toNat % 2 ^ 16) else intoS 16 (ratRound (t * 16384)))
  let x := f (s32 v 4) (s32 v 24) (u32 v 16) i
  let y := f (s32 v 8) (s32 v 28) (u32 v 20) j
  { ox := x.1, oy := y.1, tx := x.2, ty := y.2, gain := 0x4000, view := 0, dark := false, subst := false, clamped := false }

/-- R485: the colour of monitor pixel (i, j), computed on a die, and what that counts. -/
def Dev.monitorPixel (d : Dev) (hp : Heap) (k : Pick) (cs : List RayCut) (v : Bytes) (die level i j : Nat) : (Int × Int × Int) × RayCount :=
  let m : Dims := match (d.stream k.slot).cfg with
    | some c => ⟨c.texW, c.texH, c.depW, c.depH⟩
    | none => ⟨0, 0, 0, 0⟩
  let r := monitorRay v i j
  let (sm, cnt) := d.raySample die level m (k.views ++ cutViews i j cs false) (cutWaits i j cs) r
  let (bad, kept) := cutLayers i j 0 cs false
  let (c, tiles) := compose hp k.layers bad kept r sm
  (c, { cnt with tiles := tiles })

/-- All source rows of a picture are there. -/
def EncPic.whole (q : EncPic) (p : Bytes) : Bool := !q.waits || decide (q.rows.length ≥ encStrips p)

/-- R141, R485: a grate has nothing else to do: it computes no output strip and may begin none. -/
def Dev.grateIdle (d : Dev) (die g : Nat) : Bool :=
  d.syn.list.contains (die, g)
    && !(d.syn.strips.any fun t => t.die = die && t.grate = g && !t.redone && (t.phase = 1 || (t.phase = 0 && d.mayBegin t)))

/-- R154, R177: reads for a monitor strip that returned uncorrectable, and what they are to its own pixels. -/
def Dev.monitorReads (d : Dev) (hp : Heap) (k : Pick) (die : Nat) (views layers : List Nat) : Pick × List RayCut × Dev :=
  let (vs, rest) := k.views.partition fun v => views.any fun n => n / 2 = v.view
  let cut : RayCut := { id := d.free, views := vs, waits := vs.map (·.view), layers := layers.map fun n => (0, n % 8) }
  ({ k with views := rest }, [cut], { d with free := d.free + 1 }.badReads hp k (fun _ => false) (fun _ => die) views layers)

/-- MONITOR_STRIP (R485): a grate that would otherwise wait has computed a strip of 16 rows of the monitor picture of a slot.
`badViews` and `badLayers` are the pictures and layers of which a read returned uncorrectable. -/
def execMonitorStrip (s idx die grate : Nat) (badViews badLayers : List Nat) (st : State) : Host.Outcome State Fault Refusal :=
  hearthEvent (fun d =>
    let x := d.encSlot s
    match x.pics.find? fun q => q.waits && !q.rep && !(q.rows.any fun e => e.1 = idx) with
    | none => d
    | some q =>
      match q.pick with
      | none => d
      | some k =>
        if s > 3 ∨ encSource x.cfg ≠ 0 ∨ idx ≥ encStrips x.cfg ∨ ¬ d.grateIdle die grate then d
        else
          let (k, cs, d) := d.monitorReads st.heap k die badViews badLayers
          let e : Dev := { d with bound := k.regs }
          let level := d.rd die R.SYN_THROTTLE_EFFECTIVE
          let px := (fromN (16 * idx) (min 16 (encH x.cfg - 16 * idx))).map fun y => (List.range (encW x.cfg)).map fun i =>
            e.monitorPixel st.heap k cs q.view die level i y
          let d := d.countRays die (px.flatten.foldl (fun c z => c.add z.2) {})
          let q' := { q with rows := amPut q.rows idx (encRows (u8 x.cfg 11) (px.map fun r => r.map (·.1))) }
          d.setEnc s fun x => { x with
            pics := x.pics.map fun z => if z.num = q.num then q' else z
            lost := x.lost && !q'.whole x.cfg }) st

/-! Picture times (R484, R488, R490, R492). -/

/-- R488, R492: the picture did not make it: it becomes a repeat where nothing of it is coded yet and it is not the stream's first. -/
def EncPic.toRepeat (q : EncPic) : EncPic :=
  if q.row > 0 ∨ q.num = 0 then { q with waits := false }
  else { q with rep := true, waits := false, intra := false, recover := false, col0 := 0, col1 := 0 }

/-- R488, R492: what a picture time does to the pictures before it. -/
def Dev.encOverdue (d : Dev) (s : Nat) : Dev :=
  let x := d.encSlot s
  x.pics.foldl (fun d q =>
    let late : Bool := !encLive x.cfg && q.row = 0 && !q.rep && q.num ≠ 0
    let missing : Bool := q.waits && !q.whole x.cfg
    if !(late || missing) then d
    else
      let d := (d.bump 0 (R.ENC_REPEAT s)).bump 0 (R.ENC_LATE s) (b2n late)
      d.setEnc s fun y => { y with
        pics := y.pics.map fun z => if z.num = q.num then q.toRepeat else z
        lost := y.lost || missing
        key := y.key || (q.intra && q.row = 0 && q.num ≠ 0) || (q.recover && q.row = 0)
        col := if encRefresh x.cfg ∧ q.row = 0 then q.col0 else y.col }) d

/-- R485–R488: the new source picture of a slot: its rows where they are there at once (none: they come as monitor strips), or
that there is nothing new. -/
def Dev.encSourceNow (d : Dev) (hp : Heap) (x : EncSlot) : Option (Option (List (Nat × EncRows))) :=
  let p := x.cfg
  match encSource p with
  | 0 => if d.syn.picks.any fun k => k.frame = d.frame then some none else none
  | 1 =>
    let c := encIndex p
    let t := d.conf.taps.getD c {}
    if (d.fn (FnId.cam c)).st = .on ∧ d.rd 0 (R.CAM_STATE_LOST c) = 0 ∧ t.closed > x.camSeen ∧ ¬ d.encSizeBad p
    then some (some (encImage p (quadPixel (d.cam c).cfg t.newest.1 t.newest.2))) else none
  | _ =>
    let l := d.lay.bound.getD (encIndex p) {}
    match hp.surf l.surface with
    | some o => if l.enable ∧ ¬ o.lost then some (some (encImage p (layerSource p l o))) else none
    | none => none

/-- R484, R488, R490: the new picture of a slot. -/
def Dev.encTake (d : Dev) (hp : Heap) (s : Nat) : Dev :=
  let x := d.encSlot s
  let p := x.cfg
  if ¬ (d.encSt s = .starting ∨ d.encSt s = .on) ∨ p = [] ∨ d.frame % encDiv p ≠ 0 ∨ x.pics.any (fun q => q.frame = d.frame) then d
  else
    let d := d.encOverdue s
    let x := d.encSlot s
    let src := d.encSourceNow hp x
    let first : Bool := x.count = 0
    let due : Bool := first || (!encRefresh p && (x.key || x.count % u16 p 12 = 0))
    let rep := src.isNone && !first
    let column : Bool := encRefresh p && !first && !rep
    let c0 := if x.key then 0 else x.col
    let q : EncPic := {
      frame := d.frame, time := d.ras.startAt, num := x.count, intra := due && !rep, rep := rep
      recover := column && c0 = 0, col0 := if column then c0 else 0, col1 := if column then min (c0 + u8 p 14) (encCols p) else 0
      waits := src = some none, rows := (src.getD none).getD [], view := x.bound
      pick := if encSource p = 0 then d.syn.picks.find? fun k => k.frame = d.frame else none }
    let d := d.bump 0 (R.ENC_REPEAT s) (b2n rep)
    d.setEnc s fun x => { x with
      pics := x.pics ++ [q], count := x.count + 1
      col := if column then (if q.col1 ≥ encCols p then 0 else q.col1) else x.col
      key := if rep then x.key || due else false
      camSeen := (d.conf.taps.getD (encIndex p) {}).closed
      lost := if encSource p = 0 then x.lost || src.isNone else src.isNone }

/-- ENC_PICTURE_TIME (R484, R488, R490, R492): a device frame starts: the engines take the new pictures of the streams whose
picture time it is, live streams first. -/
def execEncPictureTime (s : State) : Host.Outcome State Fault Refusal :=
  hearthEvent (fun d =>
    let (live, rest) := (List.range 4).partition fun k => encLive (d.encSlot k).cfg
    (live ++ rest).foldl (fun d k => d.encTake s.heap k) d) s

/-! Coding (R492–R494). -/

/-- The picture of a slot whose rows are coded next. -/
def EncSlot.coding (x : EncSlot) : Option EncPic := x.pics.find? fun q => decide (q.row < encCtuRows x.cfg)

/-- R490: the source rows of the next CTU row are there. -/
def EncPic.ready (q : EncPic) (p : Bytes) : Bool :=
  !q.waits || (fromN (4 * q.row) (min 4 (encStrips p - 4 * q.row))).all fun k => q.rows.any fun e => e.1 = k

/-- The slot has a row to code. -/
def EncSlot.codable (x : EncSlot) : Bool := match x.coding with
  | some q => q.ready x.cfg
  | none => false

/-- R494: CTUs of a row coded intra in its cheapest mode. -/
def EncPic.intraCols (q : EncPic) (p : Bytes) : Nat := if q.intra then encCols p else q.col1 - q.col0

/-- R494: the reserve of the rows from `r` on. -/
def EncPic.reserve (q : EncPic) (p : Bytes) (r : Nat) : Nat :=
  ((fromN r (encCtuRows p - r)).map fun k => rowReserve p k (q.intraCols p)).sum

/-- R492: the engines may code a row of the slot's picture now: a live picture waits for no other class; a picture in course goes on, and
pictures begin in ascending order of their slots. -/
def Dev.encTurn (d : Dev) (s : Nat) : Bool :=
  let live (k : Nat) : Bool := encLive (d.encSlot k).cfg
  let begun (k : Nat) : Bool := match (d.encSlot k).coding with | some q => decide (q.row > 0) | none => false
  let rivals := (List.range 4).filter fun k => k ≠ s && (d.encSlot k).codable
  (live s || !rivals.any live) && (begun s || !(rivals.any fun k => live k = live s && (begun k || decide (k < s))))

/-- A prediction block lies in a CTU row of a picture, outside the columns coded intra. -/
def EncPic.hasBlock (q : EncPic) (p : Bytes) (b : PredBlock) : Bool :=
  !q.intra && !q.rep && decide (b.y / 64 = q.row ∧ 0 < b.w ∧ 0 < b.h ∧ (b.x + b.w - 1) / 64 = b.x / 64 ∧ (b.y + b.h - 1) / 64 = q.row)
    && decide (b.x + b.w ≤ encW p ∧ b.y + b.h ≤ encH p) && (decide (b.x / 64 < q.col0) || decide (q.col1 ≤ b.x / 64))

/-- A luma code of a picture's input. -/
def EncPic.luma (q : EncPic) (x y : Nat) : Int :=
  match q.rows.find? fun e => e.1 = y / 16 with
  | some e => ((e.2.luma.getD (y % 16) []).getD x 0 : Nat)
  | none => 0

/-- R491: the vectors of the next CTU row of a slot's picture, divided into prediction blocks. -/
def EncSlot.rowVectors (x : EncSlot) (q : EncPic) (blocks : List PredBlock) : List MvBlock :=
  let p := x.cfg
  motionBlocks q.luma (refLuma x.run (q.num - 1) (encW p) (encH p)) (encW p) (encH p) x.prevMvs (inSlice (u8 p 10) q.row q.mvs)
    (blocks.filter (q.hasBlock p))

/-- ENC_ROW_CODE (R491–R494): the next CTU row of a slot's picture, divided into `blocks`, is searched and coded into scratch, in `size` bits; `cheap`
are the sizes of the rows from it on in their cheapest mode, if they are needed. -/
def execEncRowCode (s size : Nat) (cheap : List Nat) (blocks : List PredBlock) (st : State) : Host.Outcome State Fault Refusal :=
  hearthEvent (fun d =>
    let x := d.encSlot s
    let p := x.cfg
    match x.coding with
    | none => d
    | some q =>
      if s > 3 ∨ ¬ q.ready p ∨ ¬ d.encTurn s then d
      else
        let a := encA d.rate p
        let q := if q.row = 0 then { q with budget := min x.b (if q.intra then 4 * a else 2 * a) } else q
        let x := if q.row = 0 then { x with last := x.b } else x
        let rows := encCtuRows p
        let fits : Bool := decide (q.spent + size + q.reserve p (q.row + 1) ≤ q.budget)
        let q' : EncPic := if fits then { q with spent := q.spent + size, row := q.row + 1, mvs := q.mvs ++ x.rowVectors q blocks }
          else { q with
            spent := q.spent + ((fromN q.row (rows - q.row)).map fun k => min (cheap.getD (k - q.row) 0) (rowReserve p k (q.intraCols p))).sum
            row := rows, starved := some q.row }
        let d := if fits then d
          else (d.bump 0 (R.ENC_STARVED s)).wrLoHi 0 (R.ENC_STARVED_FRAME_LO s) (R.ENC_STARVED_FRAME_HI s) q.frame
        let ended : Bool := decide (q'.row ≥ rows)
        d.setEnc s fun _ => { x with
          pics := x.pics.map fun z => if z.num = q.num then q' else z
          prevMvs := if ended then q'.mvs else x.prevMvs
          b := if ended then min (u32 p 20) (x.b - q'.spent + a) else x.b
          starved := if ended then q'.starved.isSome else x.starved }) st

/-! Transport (R490, R496). -/

/-- R496, R358: the RTP timestamp of a picture time. -/
def rtpStamp (t : Nat) : Nat := t * 9 / (10 ^ 5 * 65536) % 2 ^ 32

/-- RFC 7798: the fragments of a NAL unit's payload after its 2-byte header. -/
def fuParts (head : Bytes) : Nat → Bool → Bytes → List Bytes
  | 0, _, _ => []
  | n + 1, first, b =>
    let lastOne := decide (b.length ≤ 1397)
    let ty := u8 head 0 / 2 % 64
    let pay := enc 1 (u8 head 0 / 128 * 128 + 49 * 2 + u8 head 0 % 2) ++ enc 1 (u8 head 1)
      ++ enc 1 (128 * b2n first + 64 * b2n lastOne + ty) ++ b.take 1397
    pay :: (if lastOne then [] else fuParts head n false (b.drop 1397))

/-- R496: the payloads of a NAL unit: one packet, or fragmentation units. -/
def nalPayloads (nal : Bytes) : List Bytes := if nal.length ≤ 1400 then [nal] else fuParts (nal.take 2) nal.length true (nal.drop 2)

/-- One RTP packet of a slot. -/
def Dev.rtpSend (d : Dev) (s ts : Nat) (mark : Bool) (pay : Bytes) : Dev :=
  let x := d.encSlot s
  let p := x.cfg
  let b := [0x80] ++ enc 1 (128 * b2n mark + u8 p 25) ++ enc 2 x.rtpSeq ++ enc 4 ts ++ enc 4 x.ssrc ++ pay
  let d := if d.rd 0 (R.NET_IF_LINK (u8 p 24)) = 1 then d.send (.rtp (u8 p 24) (d.nextHop (u8 p 24) false (u32 p 28)) (u32 p 28) x.sport (u16 p 26) (u8 p 15) b) else d
  d.setEnc s fun x => { x with rtpSeq := (x.rtpSeq + 1) % 65536 }

/-- A NAL unit of layer 0 of a type (H.265, 7.3.1). -/
def nalOf (ty : Nat) (body : Bytes) : Bytes := enc 1 (2 * ty) ++ [1] ++ body

/-- Bits as bytes, most significant first; the last byte filled with zeros. -/
def packBits : Nat → List Bool → Bytes
  | 0, _ => []
  | n + 1, l => if l = [] then [] else BitVec.ofNat 8 (bitsVal ((l.take 8 ++ List.replicate (8 - l.length) false).reverse)) :: packBits n (l.drop 8)

/-- An Exp-Golomb code ue(v) (H.265, 9.2). -/
def ueBits (v : Nat) : List Bool :=
  let n := Nat.log2 (v + 1)
  List.replicate n false ++ ((List.range (n + 1)).map fun i => (v + 1).testBit i).reverse

/-- R490: a recovery point SEI message with a recovery count (H.265, D.2.8). -/
def recoverySei (count : Nat) : Bytes :=
  let bits := ueBits (if count = 0 then 0 else 2 * count - 1) ++ [Config.recoverExact, false]
  let pay := packBits 8 (if bits.length % 8 = 0 then bits else bits ++ [true])
  nalOf 39 (enc 1 6 ++ enc 1 pay.length ++ pay ++ [0x80])

/-- R490: the pictures of a refresh cycle. -/
def encCycle (p : Bytes) : Nat := ceilDiv (encCols p) (u8 p 14)

/-- R489: parameter sets go ahead of a picture: an IDR picture, one with a recovery point, and where the next picture would come more than a
second after the last sets. -/
def EncSlot.wantsSets (x : EncSlot) (rate : Nat) (q : EncPic) : Bool :=
  q.intra || q.recover || match x.setsAt with
    | none => true
    | some t => decide ((q.time - t) * (periodOf rate).2 + encDiv x.cfg * (periodOf rate).1 > 10 ^ 9 * 65536 * (periodOf rate).2)

/-- R489, R490: the NAL units ahead of a picture's first slice. -/
def EncSlot.ahead (x : EncSlot) (rate : Nat) (q : EncPic) : List Bytes :=
  (if x.wantsSets rate q then ([0, 1, 2] : List Nat).map fun k => nalOf (32 + k) (Config.encParams x.cfg rate k) else [])
    ++ (if q.recover then [recoverySei (encCycle x.cfg - 1)] else [])

/-- ENC_SLICE_SEND (R490, R496): the next coded slice of a slot leaves, as its NAL units, the first with what goes ahead of its picture; the
last slice closes the picture. -/
def execEncSliceSend (s : Nat) (nals : List Bytes) (st : State) : Host.Outcome State Fault Refusal :=
  hearthEvent (fun d =>
    let x := d.encSlot s
    let p := x.cfg
    match x.pics with
    | [] => d
    | q :: _ =>
      if s > 3 ∨ q.row < min ((q.sent + 1) * u8 p 10) (encCtuRows p) then d
      else
        let lastSlice : Bool := decide (q.sent + 1 ≥ encSlices p)
        let pre := if q.sent = 0 then x.ahead d.rate q else []
        let pays := ((pre ++ nals).map nalPayloads).flatten
        let d := (pays.zipIdx).foldl (fun d e => d.rtpSend s (rtpStamp q.time) (lastSlice && e.2 + 1 = pays.length) e.1) d
        let d := if lastSlice then d.bump 0 (R.ENC_PICTURES s) else d
        let ps := if lastSlice then x.pics.drop 1 else x.pics.map fun z => if z.num = q.num then { z with sent := q.sent + 1 } else z
        d.setEnc s fun x => { x with pics := ps, setsAt := if q.sent = 0 && x.wantsSets d.rate q then some q.time else x.setsAt }) st

/-- ENC_TRANSITION_DONE (R499, R55, R483): a picture time in STARTING reaches ON; STOPPING reaches OFF once the picture in progress is
sent. A stored request is carried out. -/
def execEncTransitionDone (s : Nat) (st : State) : Host.Outcome State Fault Refusal :=
  hearthEvent (fun d =>
    let was := d.encSt s
    let x := d.encSlot s
    if s > 3 ∨ (was = .starting ∧ d.frame % encDiv x.cfg ≠ 0) ∨ (was = .stopping ∧ x.pics ≠ []) then d
    else match d.fnDone (FnId.enc s) with
      | (d, none) => d
      | (d, some c) =>
        if was = .starting then d.encStop s
        else if ({ d with fns := amPut d.fns (FnId.enc s) {} } : Dev).encAdmit s then d.encStart s
        else (d.setFn (FnId.enc s) {}).complete c St.noResource Rse.capacity) st

end Sys2Proof.Machine
end

