-- ==== Sys2Proof/Machine/Ethernet.lean ====
section
/-! DEFINITION. The reception of Ethernet frames (R352, R353, R44): classification, ARP, ICMP and IGMP, and delivery to PTP, Anvil,
the twin heartbeat receiver and the sources of streams. -/

namespace Sys2Proof.Machine

/-- A received frame by its fields: source MAC, VLAN tag, EtherType, the offset of its payload. -/
structure Frame where
  src  : Nat
  tag  : Option Nat
  kind : Nat
  off  : Nat
  deriving DecidableEq, Repr

/-- The fields of an Ethernet frame. -/
def parseFrame (f : Bytes) : Frame :=
  if u16 f 12 = 0x8100 then ⟨u48 f 6, some (u16 f 14 % 4096), u16 f 16, 18⟩ else ⟨u48 f 6, none, u16 f 12, 14⟩

/-- The one's complement sum of 16-bit words. -/
def onesSum : Bytes → Nat
  | [] => 0
  | [a] => a.toNat * 256
  | a :: b :: r => a.toNat * 256 + b.toNat + onesSum r

/-- The Internet checksum. -/
def inetSum (b : Bytes) : Nat :=
  let s := onesSum b
  let s := s % 65536 + s / 65536
  let s := s % 65536 + s / 65536
  65535 - s

/-- An IPv4 datagram as received: its header's fields and its payload. -/
structure Ip4 where
  ident : Nat
  more  : Bool
  fragOff : Nat
  proto : Nat
  src   : Nat
  dst   : Nat
  data  : Bytes
  deriving DecidableEq, Repr

/-- The IPv4 datagram of a frame, with a valid header checksum. -/
def parseIp (b : Bytes) : Option Ip4 :=
  let hl := u8 b 0 % 16 * 4
  let len := u16 b 2
  if u8 b 0 / 16 ≠ 4 ∨ hl < 20 ∨ len < hl ∨ b.length < len ∨ inetSum (b.take hl) ≠ 0 then none
  else some ⟨u16 b 4, bit (u16 b 6) 13, u16 b 6 % 8192 * 8, u8 b 9, u32 b 12, u32 b 16, (b.take len).drop hl⟩

/-- The Ethernet header of a frame the device sends back. -/
def ethHead (iface : Nat) (f : Frame) : Bytes :=
  enc 6 f.src ++ enc 6 (Config.mac iface).toNat ++ (match f.tag with | some t => enc 2 0x8100 ++ enc 2 t | none => []) ++ enc 2 f.kind

/-- R352 step 3: an ARP reply. -/
def arpReply (iface addr : Nat) (f : Frame) (a : Bytes) : Bytes :=
  ethHead iface f ++ enc 2 1 ++ enc 2 0x0800 ++ enc 1 6 ++ enc 1 4 ++ enc 2 2 ++ enc 6 (Config.mac iface).toNat ++ enc 4 addr
    ++ slice a 8 6 ++ slice a 14 4

/-- R352 step 6: an echo reply. -/
def echoReply (iface addr : Nat) (f : Frame) (g : Ip4) : Bytes :=
  let body := g.data.drop 4
  let icmp := zeros 4 ++ body
  let icmp := zeros 2 ++ enc 2 (inetSum icmp) ++ body
  let hd (c : Nat) : Bytes := enc 1 0x45 ++ zeros 1 ++ enc 2 (20 + icmp.length) ++ enc 2 g.ident ++ zeros 2 ++ enc 1 64 ++ enc 1 1 ++ enc 2 c
    ++ enc 4 addr ++ enc 4 g.src
  ethHead iface f ++ hd (inetSum (hd 0)) ++ icmp

/-! Anvil over UDP (R44). -/

/-- R44, R39: a datagram for UDP port 7880 is one packet; a malformed one is counted. -/
def Dev.anvilIn (d : Dev) (r : Route) (b : Bytes) : Dev :=
  if (parsePkt r b).isNone then d.bump 0 R.TNK_AV_FRAMING
  else { d with anvil := { d.anvil with inbound := d.anvil.inbound ++ [⟨r, b⟩] } }

/-- A byte of a datagram being reassembled: that of the fragment that came first where several cover it (log entry 170). -/
def fragByte (l : List (Nat × Bool × Bytes)) (i : Nat) : Option Byte :=
  (l.find? fun e => decide (e.1 ≤ i) && decide (i < e.1 + e.2.2.length)).map fun e => e.2.2.getD (i - e.1) 0

/-- The bytes of a datagram from its start to the end of its last fragment, if fragments cover them all. -/
def joinFrags (l : List (Nat × Bool × Bytes)) : Option Bytes :=
  match l.find? (·.2.1) with
  | none => none
  | some e => (List.range (e.1 + e.2.2.length)).mapM (fragByte l)

/-- The bytes of the datagram that fragments reach up to. -/
def fragReach (l : List (Nat × Bool × Bytes)) : Nat := (l.map fun e => e.1 + e.2.2.length).foldl max 0

/-- R44: a fragment is held; the datagram's payload once all are. -/
def Dev.fragIn (d : Dev) (iface : Nat) (g : Ip4) : Dev × Option Bytes :=
  let mine (x : Reassembly) : Bool := x.src = g.src && x.ident = g.ident && x.iface = iface
  let old := match d.anvil.frags.find? mine with | some x => x.parts | none => []
  let part := (g.fragOff, !g.more, g.data)
  let parts := if old.contains part then old else old ++ [part]
  let rest := d.anvil.frags.filter fun x => !mine x
  if fragReach parts + 20 > 4200 then
    (({ d with anvil := { d.anvil with frags := rest } } : Dev).bump 0 (R.NET_IF_DROP iface), none)
  else
    match joinFrags parts with
    | some b => ({ d with anvil := { d.anvil with frags := rest } }, some b)
    | none => ({ d with anvil := { d.anvil with frags := rest ++ [⟨g.src, g.ident, iface, parts⟩] } }, none)

/-! PTP messages (R365). -/

/-- A PTP time stamp with a correction, in 2^-16 ns. -/
def ptpTime (b : Bytes) (o : Nat) (corr : Int) : Nat := (((u48 b o * 10 ^ 9 + u32 b (o + 6)) * 65536 : Nat) + corr).toNat

/-- R365: a PTP message received on an interface, from an address. -/
def Dev.ptpMessage (d : Dev) (iface addr : Nat) (b : Bytes) : Dev :=
  let ty := u8 b 0 % 16
  let domain := u8 b 4
  let corr := signed 64 (u64 b 8)
  let port := u64 b 20 * 65536 + u16 b 28
  let seq := u16 b 30
  let logInt := s8 b 33
  if b.length < 44 ∨ u8 b 1 % 16 ≠ 2 then d.ptpDiscard
  else match ty with
    | 0x0 =>
      let two := bit (u16 b 6) 9
      d.ptpSync iface port domain logInt two seq (if two then corr.toNat else ptpTime b 34 corr)
    | 0x8 => d.ptpFollow iface port domain seq (ptpTime b 34 corr)
    | 0x9 =>
      if u64 b 44 = (Config.mac iface).toNat ∧ u16 b 52 = 1 then d.ptpDelayResp iface port domain seq (ptpTime b 34 (-corr)) else d
    | 0xB => d.ptpAnnounce ⟨iface, port, u8 b 47, u8 b 48, u8 b 49, u16 b 50, u8 b 52, u64 b 53, u16 b 61, addr⟩ domain logInt false
    | 0xD => if domain = d.time.ptp.domain ∧ u16 b 48 = 3 ∧ u24 b 52 = 0x6897E8 then d.setPtp fun x => { x with tlv := true } else d.ptpDiscard
    | _ => d.ptpDiscard

/-! Media packets (R352 step 11). -/

/-- R131, R359: the source of an ON stream, and its path, for a group and port on an interface. -/
def Dev.findSource (d : Dev) (iface dst port : Nat) : Option (Nat × Nat × Nat) :=
  ((List.range 8).filter fun k => (d.fn (FnId.decode k)).st = .on).findSome? fun k =>
    ((d.sources k).zipIdx).findSome? fun (e : Source × Nat) =>
      let z := e.1
      if z.port ≠ port then none
      else if z.groupA = dst ∧ pairIf z.pair 0 = iface then some (k, e.2, 0)
      else if z.groupB = dst ∧ z.groupB ≠ 0 ∧ pairIf z.pair 1 = iface then some (k, e.2, 1)
      else none

/-- R357, R355: an RTP packet of a source. -/
def Dev.rtpIn (d : Dev) (slot src path : Nat) (b : Bytes) : Dev :=
  let hl := 12 + 4 * (u8 b 0 % 16)
  let hl := if bit (u8 b 0) 4 then hl + 4 + 4 * u16 b (hl + 2) else hl
  let pad := if bit (u8 b 0) 5 then u8 b (b.length - 1) else 0
  let data := (b.take (b.length - pad)).drop hl
  if u8 b 0 / 64 ≠ 2 ∨ b.length < hl + pad then d
  else
    let raw : Bool := match (d.stream slot).cfg with | some c => c.kind = 3 | none => false
    let q := if raw then u16 data 0 * 65536 + u16 b 2 else u16 b 2
    d.pathPacket slot src path (u8 b 1 % 128) (u32 b 8) q (u32 b 4) (bit (u8 b 1) 7) (Config.hasDonl data) data

/-- R528: the payload of a twin heartbeat. -/
def Dev.twinIn (d : Dev) (src : Nat) (b : Bytes) : Dev :=
  if b.length ≠ 64 ∨ u32 b 0 ≠ 0x54574E49 ∨ u32 b 60 ≠ crc32c (b.take 60) then d
  else d.twinHeard src (u8 b 4) (u16 b 6) (u64 b 8) (u64 b 16) ((List.range 6).map fun n => u32 b (24 + 4 * n))

/-! Classification (R352). -/

/-- A frame dropped (R352). -/
def Dev.dropFrame (d : Dev) (iface : Nat) : Dev := d.bump 0 (R.NET_IF_DROP iface)

/-- Steps 8 to 12 of R352 on a whole UDP datagram. -/
def Dev.udpIn (d : Dev) (iface : Nat) (mgmt : Bool) (tag : Nat) (src dst : Nat) (u : Bytes) : Dev :=
  let sport := u16 u 0
  let dport := u16 u 2
  let data := (u.take (u16 u 4)).drop 8
  if u.length < 8 ∨ u16 u 4 < 8 ∨ u16 u 4 > u.length then d.dropFrame iface
  else if (dport = 319 ∨ dport = 320) ∧ d.isPtpIf iface ∧ ¬ mgmt then (if d.elapsedMs < 200 then d.dropFrame iface else d.ptpMessage iface src data)
  else if dport = 7880 ∧ iface = 16 then d.anvilIn (.mgmt src sport) data
  else if dport = 7880 ∧ mgmt then d.anvilIn (.media iface tag src sport) data
  else if dport = 7881 ∧ iface = 16 ∧ src = d.rd 0 R.PWR_TWIN_PARTNER ∧ d.rd 0 R.PWR_TWIN_CFG_ENABLE = 1 then d.twinIn src data
  else if ¬ d.pwr.ready then d.bump 0 (R.NET_IF_EARLY iface)
  else match d.findSource iface dst dport with
    | some (k, i, path) => if mgmt then d.dropFrame iface else d.rtpIn k i path data
    | none => d.dropFrame iface

/-- Steps 4 to 12 of R352. -/
def Dev.ipIn (d : Dev) (iface : Nat) (mgmt : Bool) (addr : Nat) (f : Frame) (b : Bytes) : Dev :=
  match parseIp b with
  | none => d.dropFrame iface
  | some g =>
    let frag := g.more || g.fragOff ≠ 0
    let anvil := (iface = 16 || mgmt) && g.proto = 17
    if frag && (!anvil || (g.fragOff = 0 && u16 g.data 2 ≠ 7880)) then d.dropFrame iface
    else if ¬((addr ≠ 0 ∧ g.dst = addr) ∨ (d.joined iface).contains g.dst ∨ g.dst = 0xE0000001) then d.dropFrame iface
    else if g.proto = 1 then
      if u8 g.data 0 = 8 ∧ u8 g.data 1 = 0 ∧ g.dst = addr ∧ g.data.length ≥ 8 then d.send (.eth iface (echoReply iface addr f g)) else d.dropFrame iface
    else if g.proto = 2 then
      if u8 g.data 0 = 0x11 ∧ (g.dst = 0xE0000001 ∨ (d.joined iface).contains g.dst) then
        let others := d.net.igmpV2.filter (· ≠ iface)
        ({ d with net := { d.net with igmpV2 := if g.data.length < 12 then iface :: others else others } } : Dev).igmpReport iface
      else d.dropFrame iface
    else if g.proto ≠ 17 then d.dropFrame iface
    else if frag then
      match d.fragIn iface g with
      | (d, some u) => d.udpIn iface mgmt (f.tag.getD 0) g.src g.dst u
      | (d, none) => d
    else d.udpIn iface mgmt (f.tag.getD 0) g.src g.dst g.data

/-- R352: a received frame is classified. -/
def Dev.frameIn (d : Dev) (iface : Nat) (fcs : Bool) (b : Bytes) : Dev :=
  let d := { d with net := { d.net with frames := amMod d.net.frames iface 0 fun n => min (n + 1) (2 ^ 32 - 1) } }
  let f := parseFrame b
  let c := d.ifCfg iface
  let mgmt : Bool := c.mgmtVlan ≠ 0 && f.tag = some c.mgmtVlan
  let media : Bool := match f.tag with | none => c.vlan = 0 | some t => t ≠ 0 && t = c.vlan
  let addr := if mgmt then c.mgmtAddr else c.addr
  let data := b.drop f.off
  if ¬ fcs ∨ b.length + 4 > 9216 ∨ b.length < 60 then d.dropFrame iface
  else if ¬ media ∧ ¬ mgmt then d.dropFrame iface
  else if f.kind = 0x0806 then
    if addr = 0 ∨ u32 data 24 ≠ addr then d.dropFrame iface
    else
      let d := { d with net := { d.net with arp := amPut d.net.arp (iface * 2 ^ 32 + u32 data 14) (u48 data 8) } }
      if u16 data 6 = 1 then d.send (.eth iface (arpReply iface addr f data)) else d
  else if f.kind ≠ 0x0800 then d.dropFrame iface
  else d.ipIn iface mgmt addr f data

/-- ETH_FRAME_RX (R352): a frame (without its FCS, which is good or not) arrives on an interface; its FEC has corrected and failed to correct so
many codewords since the frame before (R386). -/
def execEthFrameRx (iface : Nat) (fcs : Bool) (corrected failed : Nat) (frame : Bytes) (s : State) : Host.Outcome State Fault Refusal :=
  hearthEvent (fun d => if ¬ d.ifExists iface ∨ d.rd 0 (R.NET_IF_LINK iface) = 0 ∨ d.pwr.hearthHeld then d
    else
      let d := if d.ifFec iface then (d.bump 0 (R.NET_FEC_CORR iface) corrected).bump 0 (R.NET_FEC_UNCORR iface) failed else d
      d.frameIn iface fcs frame) s

end Sys2Proof.Machine
end

