-- ==== Sys2Proof/Machine/Ingot.lean ====
section
/-! DEFINITION. Ingot: class 0x61 and the run of a job (R502–R510). What symbols the compressor chooses is open (R502); what it writes
is always a valid stream of the source (log entry 52). -/

namespace Sys2Proof.Machine

/-! The compressor (R502, R504, R505). -/

/-- Units of a stored block: header, then single bytes. `pos` is where the block begins, in bits. -/
def storedUnits (pos : Nat) (final : Bool) (b : Bytes) : List (List Bool) :=
  let pad := List.replicate ((8 - (pos + 3) % 8) % 8) false
  ([final, false, false] ++ pad ++ bytesBits (encLe 2 b.length ++ encLe 2 (65535 - b.length))) :: b.map fun x => byteBits x

/-- A stored block of up to 65,536 bytes: a stored block holds 65,535. -/
def storedBlock (pos : Nat) (final : Bool) (b : Bytes) : List (List Bool) :=
  if b.length ≤ 65535 then storedUnits pos final b
  else
    let u := storedUnits pos false (b.take 65535)
    u ++ storedUnits (pos + u.flatten.length) final (b.drop 65535)

/-- One block of a stream, unit by unit: the decompressor after it and the bytes written. -/
def Inf.blockRun : Nat → Inf → Nat → Option (Inf × Bytes)
  | 0, _, _ => none
  | n + 1, s, room =>
    match s.unit room with
    | .ok t out =>
      if t.phase = .block ∨ t.phase = .trail [] then some (t, out)
      else (Inf.blockRun n t (room - out.length)).map fun e => (e.1, out ++ e.2)
    | _ => none

/-- The units spell the block: decompressed after the history they give its bytes, and end there. -/
def spells (hist b : Bytes) (final : Bool) (units : List (List Bool)) : Bool :=
  let bits := units.flatten
  let pad := List.replicate ((8 - bits.length % 8) % 8) false
  match Inf.blockRun (bits.length + 1) { wrap := 1, phase := .block, bits := bits ++ pad, hist := hist } b.length with
  | some (t, out) => out = b && (if final then t.phase = .trail [] && t.bits = [] else t.phase = .block && t.bits.length = pad.length)
  | none => false

/-- R502: the units of a block: dynamic Huffman as the compressor chooses, or stored where that is smaller. -/
def blockUnits (level : Nat) (hist b : Bytes) (final : Bool) (pos : Nat) : List (List Bool) :=
  let u := Config.deflate level hist b final
  let st := storedBlock pos final b
  if spells hist b final u && u.flatten.take 3 = [final, false, true] && decide (u.flatten.length ≤ st.flatten.length) then u else st

/-- The wrapper header, byte by byte. -/
def headUnits (wrap level : Nat) : List (List Bool) :=
  match wrap with
  | 0 => []
  | 1 =>
    let f := (Config.zlibLevel level).toNat * 64
    ([0x78, BitVec.ofNat 8 (f + (31 - (0x7800 + f) % 31) % 31)] : Bytes).map byteBits
  | _ => ([0x1F, 0x8B, 8, 0, 0, 0, 0, 0, 0, 255] : Bytes).map byteBits

/-- What follows the final block: the bits up to the byte boundary, and the trailer as one unit. -/
def tailUnits (s : Inf) (pos : Nat) : List (List Bool) :=
  let pad := List.replicate ((8 - pos % 8) % 8) false
  match s.wrap with
  | 0 => if pad = [] then [] else [pad]
  | 1 => [pad ++ bytesBits (enc 4 s.check)]
  | _ => [pad ++ bytesBits (encLe 4 s.check ++ encLe 4 (s.total % 2 ^ 32))]

/-- A compressor at the start of a stream. -/
def defStart (wrap level : Nat) : Def := { sum := infStart wrap, units := headUnits wrap level }

/-- Units written while they fit into `room` bits: the bits written, and the units left. -/
def emitUnits : Nat → List (List Bool) → List Bool × List (List Bool)
  | _, [] => ([], [])
  | room, u :: r =>
    if u.length > room then ([], u :: r)
    else let (w, l) := emitUnits (room - u.length) r; (u ++ w, l)

/-- The open block becomes units: a block, and after the final one the trailer. -/
def Def.form (c : Def) (level : Nat) (final : Bool) : Def :=
  let u := blockUnits level c.before c.block final c.pend.length
  { c with
    before := c.sum.hist, block := [], final := final
    units := u ++ (if final then tailUnits c.sum (c.pend.length + u.flatten.length) else []) }

/-- Source bytes taken into the open block. -/
def Def.take (c : Def) (b : Bytes) : Def := { c with sum := b.foldl Inf.put c.sum, block := c.block ++ b }

/-- R504, R505: compression: what is left of the source, the bytes written, and whether it stopped for want of room. `room` is in bits
beyond those held; at most `n` blocks. -/
def Def.run (level : Nat) (final : Bool) : Nat → Def → Bytes → Nat → Def × Bytes × List Bool × Bool
  | 0, c, src, _ => (c, src, [], false)
  | n + 1, c, src, room =>
    let (w, l) := emitUnits room c.units
    let c := { c with units := l, pend := (c.pend ++ w).drop ((c.pend ++ w).length / 8 * 8) }
    let room := room - w.length
    if l ≠ [] then (c, src, w, true)
    else if c.final then (c, src, w, false)
    else
      let k := 65536 - c.block.length
      let c := c.take (src.take k)
      let src := src.drop k
      if c.block.length < 65536 ∧ ¬ (final ∧ src = []) then (c, src, w, false)
      else let (c, src, v, full) := Def.run level final n (c.form level (final && src = [])) src room; (c, src, w ++ v, full)

/-- Whole bytes of a string of bits. -/
def bitsBytes : Nat → List Bool → Bytes
  | 0, _ => []
  | n + 1, l => BitVec.ofNat 8 (bitsVal (l.take 8)) :: bitsBytes n (l.drop 8)

/-! Running a job. -/

/-- What a job comes to: OUTCOME (0 DONE, 1 OUT_FULL, 2 NEED_INPUT), the reason of a FAULT, PENDING_BITS, source bytes consumed, the
bytes written, and the context it leaves (none where the stream is whole, or on a fault). -/
structure JobEnd where
  outcome  : Nat
  bad      : Option Nat := none
  pending  : Nat
  consumed : Nat
  out      : Bytes
  ctx      : Option IngCtx
  check    : Nat
  deriving DecidableEq, Repr

/-- R504, R505: a compression. -/
def compressJob (j : IngJob) (x : IngCtx) (src : Bytes) (room : Nat) : JobEnd :=
  let (c, rest, w, full) := Def.run j.level j.final (src.length / 65536 + 3) x.comp src (8 * room - x.comp.pend.length)
  if full ∧ w = [] then
    { outcome := 1, pending := x.comp.pend.length, consumed := 0, out := [], ctx := some x, check := x.comp.sum.check }
  else
    let bits := x.comp.pend ++ w
    { outcome := b2n full, pending := c.pend.length, consumed := src.length - rest.length, out := bitsBytes (bits.length / 8) bits
      ctx := if c.final && !full then none else some { x with comp := c }, check := c.sum.check }

/-- R504, R505, R507: a decompression. -/
def decompressJob (j : IngJob) (x : IngCtx) (src : Bytes) (room : Nat) : JobEnd :=
  let n0 := x.inf.bits.length
  let s := { x.inf with bits := x.inf.bits ++ bytesBits src }
  let (t, out, how) := Inf.run (s.bits.length + 2) s room
  let used := s.bits.length - t.bits.length
  let consumed := ceilDiv (used - n0) 8
  let left := n0 + 8 * consumed - used
  let stop (oc : Nat) (bad : Option Nat) (keep : Bool) : JobEnd := {
    outcome := oc, bad := bad, pending := left % 8, consumed := consumed, out := out, check := t.check
    ctx := if keep then some { x with inf := { t with bits := t.bits.take left } } else none }
  match how with
  | .done => stop 0 none false
  | .full => stop 1 none true
  | .bad => stop 0 (some 0x43) false
  | .mismatch => stop 0 (some 0x44) false
  | .need =>
    if j.final then stop 0 (some 0x43) false
    else { outcome := 2, pending := t.bits.length % 8, consumed := src.length, out := out, ctx := some { x with inf := t }, check := t.check }

/-- R509: the data of a completion event. -/
def JobEnd.data (e : JobEnd) (ctx check : Nat) : Bytes :=
  enc 1 e.outcome ++ enc 1 e.pending ++ enc 4 e.consumed ++ enc 4 e.out.length ++ enc 1 ctx ++ zeros 3 ++ enc 4 check

/-- R506: the lowest context that is not held. -/
def Ing.freeCtx (g : Ing) : Nat := ((fromN 1 64).find? fun k => !(g.ctxs.any fun e => e.1 = k)).getD 0

/-- R503: the next host job starts. -/
def Ing.next (g : Ing) : Ing :=
  match g.running, g.queue with
  | none, j :: r => { g with running := some j, queue := r }
  | _, _ => g

/-- R503: a load of the device's own is in Ingot (a planish or film table load of a compressed image), and runs first. -/
def Dev.ownLoad (d : Dev) : Bool :=
  (match d.pm.load with | some l => l.format ≠ 0 | none => false) || d.film.load.any fun l => l.format ≠ 0

/-- R503: the next host job starts, unless a load of the device's own comes first. -/
def Dev.ingNext (d : Dev) : Dev := if d.ownLoad then d else { d with ing := d.ing.next }

/-- INGOT_JOB_RUN (R503–R507): the job at the front runs to its end and reports. -/
def execIngotJobRun (s : State) : Host.Outcome State Fault Refusal :=
  hearthEventH (fun hp d =>
    let d := d.ingNext
    let g := d.ing
    match g.running with
    | none => (hp, d)
    | some j =>
        let after (d : Dev) (ctxs : List (Nat × IngCtx)) : Dev :=
          ({ d with ing := { g with running := none, ctxs := ctxs } } : Dev).ingNext
        let fail (st rs : Nat) (ctxs : List (Nat × IngCtx)) : Heap × Dev :=
          (hp, ((after d ctxs).bump 0 R.ING_JOBS).complete j.cmd st rs (zeros 18))
        let held := (g.ctxs.find? fun e => e.1 = j.ctx).map (·.2)
        match hp.buf j.src, hp.buf j.dst with
        | some a, some b =>
          if a.lost ∨ b.lost then fail St.fault Rs.bufferLost (amDel g.ctxs j.ctx)
          else if ¬ j.resume ∧ g.freeCtx = 0 then fail St.noResource 0x40 g.ctxs
          else
            let x := held.getD { op := j.op, wrap := j.wrap, level := j.level, inf := infStart j.wrap, comp := defStart j.wrap j.level }
            let n := if j.resume then j.ctx else g.freeCtx
            let src := a.read j.srcOff j.srcLen
            let e := if j.op = 0 then compressJob j x src (b.size - j.dstOff) else decompressJob j x src (b.size - j.dstOff)
            let ctxs := match e.ctx with
              | some c => amPut g.ctxs n c
              | none => amDel g.ctxs n
            let (free, d) := d.freeVal 32
            let d := (after d ctxs).bump 0 R.ING_JOBS
            let d := d.bump 0 R.ING_OUT_FULL (b2n (e.bad.isNone && e.outcome = 1))
            let d := d.bump 0 R.ING_FAULTS (b2n e.bad.isSome)
            let data := e.data (if e.ctx.isSome then n else 0) (if j.wrap = 0 then free else e.check)
            (hp.write j.dst j.dstOff e.out, d.complete j.cmd (if e.bad.isSome then St.fault else St.done) (e.bad.getD 0) data)
        | _, _ => fail St.fault Rs.bufferLost (amDel g.ctxs j.ctx)) s

/-! Class 0x61 (R508–R510). -/

/-- A context is named by a job that is queued or running. -/
def Ing.ctxBusy (g : Ing) (k : Nat) : Bool := (g.running.toList ++ g.queue).any fun j => j.resume && j.ctx = k

/-- What the gate must know of INGOT_JOB. -/
def specIngotJob : OpSpec :=
  { op := 0x6100, len := (· = 24), check := fun s _ p =>
      let resume := bit (u8 p 3) 1
      failIf [
        (decide (u8 p 0 > 1) || decide (u8 p 1 > 2) || (if u8 p 0 = 0 then !decide (1 ≤ u8 p 2 ∧ u8 p 2 ≤ 9) else u8 p 2 ≠ 0), 0),
        (decide (u8 p 3 > 3), Rs.reserved), (if resume then !decide (1 ≤ u8 p 20 ∧ u8 p 20 ≤ 64) else u8 p 20 ≠ 0, 0),
        (!zero? p 21 3, Rs.reserved), ((s.heap.buf (u16 p 4)).isNone || (s.heap.buf (u16 p 6)).isNone, Rs.noBuffer),
        ((bufCheck s.heap (u16 p 4) (u32 p 8) (max (u32 p 12) 1)).isSome || (bufCheck s.heap (u16 p 6) (u32 p 16) 1).isSome, Rs.bufferRange)] }

/-- INGOT_JOB (R509, R503, R506). -/
def execIngotJob (h : Hdr) (p : Bytes) (s : State) : Host.Outcome State Fault Refusal :=
  anvilR specIngotJob
    h p (.ingotJob h p)
    (fun c hp d =>
      let g := d.ing
      let j : IngJob := {
        cmd := c, op := u8 p 0, wrap := u8 p 1, level := u8 p 2, final := bit (u8 p 3) 0, resume := bit (u8 p 3) 1, src := u16 p 4
        dst := u16 p 6, srcOff := u32 p 8, srcLen := u32 p 12, dstOff := u32 p 16, ctx := u8 p 20 }
      let lost (k : Nat) : Bool := match hp.buf k with | some o => o.lost | none => true
      let same : Bool := match g.ctxs.find? fun e => e.1 = j.ctx with
        | some (_, x) => x.op = j.op && x.wrap = j.wrap && x.level = j.level
        | none => false
      if lost j.src ∨ lost j.dst then (d, .bad St.fault Rs.bufferLost)
      else if j.resume ∧ g.ctxBusy j.ctx then (d, .bad St.badState 0x41)
      else if j.resume ∧ !same then (d, .bad St.badParam 0x45)
      else if ¬ j.resume ∧ g.ctxs.length ≥ 64 then (d, .bad St.noResource 0x40)
      else if g.queue.length ≥ 16 then (d, .bad St.noResource 0x42)
      else (({ d with ing := { g with queue := g.queue ++ [j] } } : Dev).ingNext, .accepted)) s

/-- What the gate must know of INGOT_FREE. -/
def specIngotFree : OpSpec :=
  { op := 0x6101, len := (· = 4), check := fun _ _ p => failIf [
      (!decide (1 ≤ u8 p 0 ∧ u8 p 0 ≤ 64), 0), (!zero? p 1 3, Rs.reserved)] }

/-- INGOT_FREE (R510, R506). -/
def execIngotFree (h : Hdr) (p : Bytes) (s : State) : Host.Outcome State Fault Refusal :=
  anvil specIngotFree h p (.ingotFree h p)
    (fun _ d =>
      if d.ing.ctxBusy (u8 p 0) then (d, .bad St.badState 0x41)
      else ({ d with ing := { d.ing with ctxs := amDel d.ing.ctxs (u8 p 0) } }, .done)) s

/-- R510, R511: the contexts held, bit k − 1 for context k. -/
def Ing.ctxMap (g : Ing) : Nat := ((fromN 1 64).map fun k => if g.ctxs.any fun e => e.1 = k then 2 ^ (k - 1) else 0).sum

/-- What the gate must know of INGOT_STATUS. -/
def specIngotStatus : OpSpec :=
  { op := 0x6102, len := (· = 0) }

/-- INGOT_STATUS (R510). -/
def execIngotStatus (h : Hdr) (p : Bytes) (s : State) : Host.Outcome State Fault Refusal :=
  anvil specIngotStatus h p (.ingotStatus h p)
    (fun _ d => (d, .done (enc 1 d.ing.queue.length ++ enc 1 (b2n d.ing.running.isSome) ++ zeros 2 ++ enc 8 d.ing.ctxMap))) s

end Sys2Proof.Machine
end

