-- ==== Sys2Proof/Machine/Startup.lean ====
section
/-! DEFINITION. Resets and start-up (R514–R516, R520–R523): what each reset keeps and clears, the stages of the first second, and a
damper half that comes late. -/

namespace Sys2Proof.Machine

/-! Resets (R516, R521). -/

/-- R521, R33: PWR_FLUE_RESET of a flue die: its code runs the soft reset; refused during a power failure. -/
def Dev.flueResetWrite (d : Dev) (f value : Nat) : Dev :=
  if value = 0x52535420 ∧ ¬ d.pwr.refuse.getD f false then d.flueResetAsk f else d

/-- PWR_FLUE_RESET_WRITE (R521). -/
def execPwrFlueResetWrite (f value : Nat) (s : State) : Host.Outcome State Fault Refusal :=
  event (fun d => if f > 1 then d else d.flueResetWrite f (value % 2 ^ 32)) s

/-- R516, R514: a flue die is reset: its regions go dark and its damper half is gone. A power-on reset clears CHS_PARK_ too (R258). -/
def Dev.flueReset (d : Dev) (f : Nat) (powerOn : Bool) : Dev :=
  let gone := ofDie (8 + f) fun off => !powerOn && parkReg off
  let d := d.pathLost f
  let d := d.flueClear f
  let d := { d with regs := rfDrop d.regs gone, shadow := rfDrop d.shadow gone, bound := rfDrop d.bound gone }
  let lanes := (List.range 36).filter fun i => laneHalf i = f
  let d := lanes.foldl (fun d i => ((d.wr 0 (R.DMP_LANE_PHASE i) 0).wr 0 (R.DMP_LANE_ROLE i) 0).wr 0 (R.DMP_LANE_LOCKED i) 0) d
  let mine (o : Option Nat) : Option Nat := match o with
    | some i => if laneHalf i = f then none else some i
    | none => none
  { d with
    dmp := { d.dmp with ret := mine d.dmp.ret, moving := mine d.dmp.moving, ends := d.dmp.ends.set f {} }
    clk := { d.clk with synth := d.clk.synth.set f {}, copy := d.clk.copy.set f 0, dies := amDel d.clk.dies (8 + f) }
    film := { d.film with table := [] }
    pwr := { d.pwr with refuse := d.pwr.refuse.set f false, flueUp := d.pwr.flueUp.set f false, lateHalf := d.pwr.lateHalf.set f true } }

/-- FLUE_RESET_ASSERT (R516): both flue dies are held in reset; `powerOn`: by the flue power-on reset. -/
def execFlueResetAssert (powerOn : Bool) (s : State) : Host.Outcome State Fault Refusal :=
  event (fun d =>
    let d := [0, 1].foldl (fun d f => d.flueReset f powerOn) d
    { d with pwr := { d.pwr with flueHeld := true } }) s

/-- FLUE_RESET_RELEASE (R516, R523, R327): the flue dies leave reset; where the damper has already been trained once, it is trained
again. -/
def execFlueResetRelease (s : State) : Host.Outcome State Fault Refusal :=
  event (fun d =>
    if ¬ d.pwr.flueHeld then d
    else
      let d := { d with pwr := { d.pwr with flueHeld := false, ownReset := [true, true] } }
      if d.lnk.startup = 0 then d
      else (d.halfAgain 0).halfAgain 1) s

/-- A lamp segment without the commands of a hearth that has been reset. -/
def Segment.forget (x : Segment) : Segment :=
  { x with queue := x.queue.filter fun t => !t.why.isHost, fresh := [], taken := [], enumCmd := none }

/-- R22, R521: the functions that run on the flue dies (regions, film, lamp segments, loops, links), without the requests of the hearth. -/
def flueFns (l : List (Nat × Fn)) : List (Nat × Fn) :=
  (l.filter fun e => [0x15, 0x20, 0x22, 0x23, 0x30].contains (e.1 / 256)).map fun e => (e.1, { st := e.2.st })

/-- R516, R521, R458: the hearth side is held in reset: everything on it goes to its reset state but for what the serial flash and the
fuses hold. The flue dies keep their state: they blank their output, and their rasters, film, loops and links run on in the mode they were
in (R22), until they are reset (R521). -/
def Dev.hearthReset (d : Dev) : Dev :=
  let flue (e : Nat × Word) : Bool := decide (e.1 / 2 ^ 28 ≥ 8)
  let new : Dev := {
    regs := d.regs.filter flue, shadow := d.shadow.filter flue, bound := d.bound.filter flue
    anvil := { sess := d.anvil.sess.mapIdx fun i x => { isOpen := decide (i = 4), usable := decide (i = 4), epoch := x.epoch + 1 } }
    dmp := { lost := [true, true], ends := d.dmp.ends }
    thm := { fluHalt := d.thm.fluHalt }
    ash := { copyA := d.ash.copyA, copyB := d.ash.copyB, suspend := d.ash.suspend, boot := d.ash.boot, slots := d.ash.slots }
    pwr := {
      hearthHeld := true, flueHeld := d.pwr.flueHeld, ownReset := [false, false], pfailN := d.pwr.pfailN, hvLow := d.pwr.hvLow
      hvHigh := d.pwr.hvHigh, refuse := d.pwr.refuse }
    clk := { dies := d.clk.dies.filter (·.1 ≥ 8), synth := d.clk.synth, copy := d.clk.copy }
    flu := d.flu
    mode := d.mode
    frame := d.frame
    fns := ({} : Dev).fns.foldl (fun l e => amPut l e.1 e.2) (flueFns d.fns)
    ras := { d.ras with rasters := [none, none, none, none], commits := [], capture := [], judging := [] }
    curves := { bound := d.curves.bound }
    lnk := { links := d.lnk.links, rounds := d.lnk.rounds }
    film := { d.film with slots := [], load := [], carried := [] }
    lamp := { d.lamp with segs := d.lamp.segs.map Segment.forget }
    blw := { d.blw with swaps := [], staged := [], carried := [] }
    out := d.out, free := d.free }
  let new := new.wr 0 R.TNK_FLOOR (d.rd 0 R.TNK_FLOOR)
  flueDies.foldl (fun x k => x.wr k (R.DMP_HALF_ON (k - 8)) 0) new

/-- RESET_ASSERT (R516): RESET_N is low, or the hearth power-on reset acts; what the hearth's memory held is gone. -/
def execResetAssert (s : State) : Host.Outcome State Fault Refusal := eventH (fun _ d => ({}, d.hearthReset)) s

/-- R458, R466: the firmware the cores boot with: the slot the boot configuration names, unless its image fails its check or two boots
with it have not reached READY. -/
def Dev.bootPatch (d : Dev) : Dev :=
  match d.bootCfg with
  | none => d
  | some b =>
    if b.slot = 0 ∨ b.slot > 2 ∨ b.fails ≥ 2 then d
    else
      let x := d.slot b.slot
      if x.state ≠ 1 ∨ (imageBad (d.rd 0 R.TNK_FLOOR) x.image).isSome then d.patchRecord b.slot x.level 3
      else
        let d := d.bootSave fun b => { b with fails := b.fails + 1 }
        d.setTnk fun t => { t with patchOf := [x.level, x.level], slotOf := [b.slot, b.slot] }

/-- RESET_RELEASE (R516, R520, R458): the filtered rising edge of RESET_N: the first second begins, with the boot configuration. -/
def execResetRelease (s : State) : Host.Outcome State Fault Refusal :=
  event (fun d =>
    if d.pwr.ready ∨ d.pwr.done ≠ [] then d
    else
      let d := { d with pwr := { d.pwr with hearthHeld := false, resetAt := d.stamp } }
      let d := match d.bootCfg with
        | none => d.wr 0 R.TNK_BOOTCFG_LOST 1
        | some b =>
          let d := if zero? b.if16 0 28 then d else { d with net := { d.net with ifs := amPut d.net.ifs 16 (ifOf b.if16) } }
          let rate (d : Dev) (set v : Nat) : Dev := if v = 0 then d
            else hobDies.foldl (fun d k => (List.range 4).foldl (fun d c => d.wr k (R.MEM_TIM0_RATE c set) v) d) d
          rate (rate d 0 b.rate0) 1 b.rate1
      d.bootPatch) s

/-! Start-up (R520, R523, R515). -/

/-- R56: the stage shown: the earliest not complete; 0 at READY. -/
def Dev.stageNow (d : Dev) : Dev :=
  { d with pwr := { d.pwr with stage := if d.pwr.ready then 0 else (([1, 2, 3, 4, 5] : List Nat).find? fun k => !d.pwr.done.contains k).getD 5 } }

/-- R520, stage 0x02: what memory training found of each channel (density code, ranks; ranks 0: training failed). -/
def memTrained (chans : List (Nat × Nat)) (hp : Heap) (d : Dev) : Heap × Dev :=
  chans.zipIdx.foldl (fun (a : Heap × Dev) e =>
    let n := e.2
    if n > 15 then a
    else if e.1.2 = 0 then channelFail n 0x40 a.1 a.2
    else (a.1, ((a.2.mset n R.MEM_CH_STATE_STATE 2).mset n R.MEM_CH_STATE_DENSITY e.1.1).mset n R.MEM_CH_STATE_RANKS e.1.2)) (hp, d)

/-- R521, R523, stage 0x03: damper halves that are ON bring in their flue die, reset first if it kept its state; others come late. -/
def Dev.halvesTrained (d : Dev) : Dev :=
  [0, 1].foldl (fun d f =>
    if d.rd 0 (R.DMP_HALF_ON f) = 1 then
      let d := if d.pwr.ownReset.getD f true then d else d.flueSoftReset f
      { d with pwr := { d.pwr with flueUp := d.pwr.flueUp.set f true, lateHalf := d.pwr.lateHalf.set f false } }
    else { d with pwr := { d.pwr with lateHalf := d.pwr.lateHalf.set f true } }) d

/-- R515: the regulators found at READY: (rail, VOUT_MODE); each in linear mode gets its transition rate (its encoding: log entry 3) and
the latest trim of the REPLAN records. -/
def Dev.regulators (d : Dev) (vout : List (Nat × Nat)) : Dev :=
  vout.foldl (fun d e =>
    let r := e.1
    let addr := d.rd 0 (R.PWR_VID_ADDR r)
    if r > 6 ∨ addr = 0 ∨ e.2 / 32 ≠ 0 then d
    else
      let d := { d with pwr := { d.pwr with vexp := amPut d.pwr.vexp r (e.2 % 32) } }
      let (v, d) := d.freeVal 16
      let d := (d.wr 0 (R.PWR_VID_LINEAR r) 1).send (.pmbus (d.rd 0 (R.PWR_VID_FLUE r) = 1) addr 0x27 v)
      let trims := (d.ash.merged.filter fun x => x.ty = 0x0008 && le 1 x.data 0 = 0 && le 2 x.data 1 = r).map fun x => le 4 x.data 7
      match trims.getLast? with
      | none => d
      | some n => (fromN 1 (min n 10)).foldl (fun d k => d.vidStep r k false) d) d

/-- R520, R466: READY: no mode is set, every region, the film and every lamp segment is OFF, the standby is there, and the count of failed
boots is cleared. -/
def Dev.nowReady (d : Dev) (vout : List (Nat × Nat)) : Dev :=
  let d := { d with pwr := { d.pwr with ready := true }, mode := 0, frame := 0, ras := {}, fns := d.fns.filter fun e => !([0x15, 0x20, 0x22].contains (e.1 / 256)) }
  let d := (d.setTnk fun t => { t with standbyOk := true }).regulators vout
  match d.bootCfg with
  | some b => if b.fails = 0 then d else d.bootSave fun b => { b with fails := 0 }
  | none => d

/-- STARTUP_STAGE_COMPLETE (R520, R56, R523): a stage completes: `chans` is what memory training found (stage 0x02), `vout` the
VOUT_MODE of the regulators that answer (stage 0x05). READY follows the last. -/
def execStartupStageComplete (stage : Nat) (chans vout : List (Nat × Nat)) (s : State) : Host.Outcome State Fault Refusal :=
  eventH (fun hp d =>
    if d.pwr.ready ∨ d.pwr.hearthHeld ∨ stage = 0 ∨ stage > 5 ∨ d.pwr.done.contains stage then (hp, d)
    else
      let (hp, d) := if stage = 2 then memTrained chans hp d else (hp, d)
      let d := if stage = 3 then d.halvesTrained else d
      let d := { d with pwr := { d.pwr with done := stage :: d.pwr.done } }
      (hp, (if ([1, 2, 3, 4, 5] : List Nat).all d.pwr.done.contains then d.nowReady vout else d).stageNow)) s

/-- DAMPER_HALF_JOIN (R523): a half that was missing comes ON: its flue die is brought in. -/
def execDamperHalfJoin (f : Nat) (s : State) : Host.Outcome State Fault Refusal :=
  hearthEvent (fun d =>
    if f > 1 ∨ ¬ d.pwr.lateHalf.getD f false ∨ d.rd 0 (R.DMP_HALF_ON f) = 0 ∨ ¬ d.pwr.ready then d
    else
      let d := if d.pwr.ownReset.getD f true then d else d.flueSoftReset f
      let d := { d with pwr := { d.pwr with flueUp := d.pwr.flueUp.set f true, lateHalf := d.pwr.lateHalf.set f false } }
      let d := (fromN (4 * f) 4).foldl (fun d n => if d.linkSt n = .off then (d.setFn (FnId.link n) { st := .starting }).beginLink n else d) d
      d.raise (rasterSource f)) s

/-! Rail comparators (R514). -/

/-- RAIL_COMPARATOR_TRIP (R514): a comparator finds a rail below (or, `high`, above) its limits: 0 VDD_MAN, 1–4 VDD_HOB0–3, 5, 6
VDD_FL0, 1, 7 VDD_AON, 8–11 VDDQ_HOB0–3, 12–15 VDD2_HOB0–3, 16 VDD_DMPH, 17 VDD_DMPF. -/
def execRailComparatorTrip (rail : Nat) (high : Bool) (s : State) : Host.Outcome State Fault Refusal :=
  eventH (fun hp d =>
    let mark (d : Dev) (die : Nat) : Dev := d.wr die (if high then R.PWR_RAIL_STATE_CORE_HIGH else R.PWR_RAIL_STATE_CORE_LOW) 1
    if rail = 0 then (if high then (hp, mark d 0) else ({}, mark d.hearthReset 0))
    else if rail = 7 then (if high then (hp, d) else ({}, d.hearthReset))
    else if rail ≤ 4 then (hp, (mark d rail).hobCondition (rail - 1) Cause.supplyRange)
    else if rail ≤ 6 then (hp, if high then mark d (rail + 3) else mark (d.flueReset (rail - 5) false) (rail + 3))
    else if rail ≤ 15 then
      let i := rail % 4
      let d := d.wr (i + 1) R.PWR_RAIL_STATE_MEM 1
      (fromN (4 * i) 4).foldl (fun a n => channelFail n Cause.supplyRange a.1 a.2) (hp, d)
    else if rail = 16 then (hp, ((d.wr 0 R.PWR_RAIL_STATE_DAMPER 1).pathLost 0).pathLost 1)
    else if rail = 17 then (hp, ((d.wrAll flueDies R.PWR_RAIL_STATE_DAMPER 1).pathLost 0).pathLost 1)
    else (hp, d)) s

end Sys2Proof.Machine
end

