-- ==== Sys2Proof/Machine/Trim.lean ====
section
/-! DEFINITION. The trim engine (class 0x41, R439–R442, R447). -/

namespace Sys2Proof.Machine

namespace Rst
/-- R443. -/
abbrev disagree := 0x40
abbrev notDark := 0x41
abbrev noSignal := 0x42
abbrev samplerBusy := 0x43
abbrev laneLost := 0x44
abbrev trimBusy := 0x45
abbrev queueFull := 0x46
abbrev partial_ := 0x47
end Rst

/-- R439: the number of elements of a quantity, and the bytes of a value (R447). -/
def trimCount (q : Nat) : Nat := if q = 3 then 61 else 32
def trimSize (q : Nat) : Nat := if q = 3 then 1 else if q = 4 then 64 else 2

/-- R440: the tolerance within which two results agree. -/
def trimTol (q : Nat) : Nat := if q = 2 then 41 else if q = 3 then 2 else 16

/-- The elements of a mask. -/
def maskBits (n m : Nat) : List Nat := (List.range n).filter (bit m)

/-- R441: the offset samplers a LANE_OFFSET job needs are taken. -/
def Dev.trimBlocked (d : Dev) (j : TrimJob) : Bool := j.q = 3 && (maskBits 61 j.mask).any fun b => d.samplerTaken (trimLane b)

/-- R439: the lane of an element is in block lock at its receiving end. -/
def Dev.trimLocked (d : Dev) (b : Nat) : Bool :=
  if b < 17 then bit (d.rd 0 (R.LNK_H b)) 2
  else if b < 25 then d.lget (b - 17) R.LNK_FL_STATE_BACK = 1
  else d.rd (if d.dmp.ret = some (b - 25) then 0 else 8 + laneHalf (b - 25)) (R.DMP_LANE_LOCKED (b - 25)) = 1

/-- R439: the reason why the condition of a quantity does not hold for a job. -/
def Dev.trimCondition (d : Dev) (j : TrimJob) : Option Nat :=
  let dies := [0, 1].filter fun f => (maskBits 32 j.mask).any fun b => b / 16 = f
  match j.q with
  | 1 =>
    if d.mode = 2 then (if dies.all d.dieRegionOn then none else some Rst.notDark)
    else if d.retainSt = .on ∨ (d.fn (FnId.region 0)).st = .off then none else some Rst.notDark
  | 2 => if d.mode = 2 ∧ dies.all (fun f => d.segSt f = .on) then none else some Rst.noSignal
  | 3 => if (maskBits 61 j.mask).all d.trimLocked then none else some Rst.noSignal
  | _ => none

/-- R441: queued jobs start, one at a time; one whose sampler is taken is refused. -/
def Dev.trimStart : Nat → Dev → Dev
  | 0, d => d
  | n + 1, d =>
    match d.trm.running, d.trm.queue with
    | none, j :: rest =>
      let d := { d with trm := { d.trm with queue := rest } }
      if d.trimBlocked j then Dev.trimStart n (d.complete j.cmd St.badState Rst.samplerBusy)
      else { d with trm := { d.trm with running := some j } }
    | _, _ => d

/-- What the gate must know of TRIM_RUN. -/
def specTrimRun : OpSpec :=
  { op := 0x4100, len := (· = 12), check := fun _ _ p => failIf [
      (u8 p 0 = 0 || decide (u8 p 0 > 4) || u64 p 4 = 0 || decide (u64 p 4 ≥ 2 ^ trimCount (u8 p 0)), 0), (!zero? p 1 3, Rs.reserved)] }

/-- TRIM_RUN (R447, R441). -/
def execTrimRun (h : Hdr) (p : Bytes) (s : State) : Host.Outcome State Fault Refusal :=
  anvil specTrimRun h p (.trimRun h p)
    (fun c d =>
      let j : TrimJob := ⟨c, u8 p 0, u64 p 4⟩
      if j.q = 2 ∧ d.mode ≠ 2 then (d, .bad St.badState Rs.notInMode)
      else if d.trm.running.isSome then
        if d.trm.queue.length ≥ 4 then (d, .bad St.noResource Rst.queueFull)
        else ({ d with trm := { d.trm with queue := d.trm.queue ++ [j] } }, .accepted)
      else if d.trimBlocked j then (d, .bad St.badState Rst.samplerBusy)
      else ({ d with trm := { d.trm with running := some j } }, .accepted)) s

/-- R439: a measurement as a value of the quantity: for PD_GAIN the fitted slope G (in 1/65,536 code) gives GAIN. -/
def Dev.trimValue (d : Dev) (q : Nat) (v : Int) : Int :=
  if q = 2 then (if v ≤ 0 then 65535 else min 65535 (roundDiv ((d.rd 0 R.TRM_GAIN_TARGET : Int) * 16384 * 65536) (255 * v))) else v

/-- R440: two results agree within the tolerance of the quantity. -/
def trimAgree (q : Nat) (a b : List Int) : Bool := (List.zipWith (fun x y => decide ((x - y).natAbs ≤ trimTol q)) a b).all id && a.length = b.length

/-- R440, R442: the values of an element are applied: OFFSET and GAIN of BLW_ADC, a lane's offset, an ADC's table. -/
def Dev.trimApply (d : Dev) (q e : Nat) (v : List Int) : Dev :=
  let die := 8 + e / 16
  match q with
  | 1 => d.wr die (R.BLW_ADC_OFFSET (e % 16)) (twos 16 (satS 16 (v.getD 0 0)))
  | 2 => d.wr die (R.BLW_ADC_GAIN (e % 16)) (clampI 0 65535 (v.getD 0 0)).toNat
  | 3 =>
    let x := clampI (-63) 63 (v.getD 0 0)
    { d with trm := { d.trm with lanes := if x = 0 then amDel d.trm.lanes e else amPut d.trm.lanes e x } }
  | _ =>
    let l := (List.range 64).map fun i => satS 8 (v.getD i 0)
    { d with trm := { d.trm with lin := if l.all (· == 0) then amDel d.trm.lin e else amPut d.trm.lin e l } }

/-- R441: the elements of a job whose writes succeed: flue dies are written in order, and the first that fails ends it. -/
def Dev.trimReach (d : Dev) (j : TrimJob) (failed : List Nat) : List Nat × Bool :=
  let es := maskBits (trimCount j.q) j.mask
  if j.q = 3 then (es, true)
  else
    let bad (k : Nat) : Bool := !d.flueUp k || failed.contains k
    let e0 := es.filter (· < 16)
    let e1 := es.filter (· ≥ 16)
    if e0 ≠ [] ∧ bad 8 then ([], false) else if e1 ≠ [] ∧ bad 9 then (e0, false) else (es, true)

/-- A mask of elements. -/
def bitsMask (l : List Nat) : Nat := (l.map (2 ^ ·)).sum

/-- R440, R441: how a job ends: status, reason, disagreeing elements, elements applied, the device. -/
def Dev.trimEnd (d : Dev) (j : TrimJob) (a b : List (List Int)) (cond : Nat) (failed : List Nat) : Nat × Nat × List Nat × List Nat × Dev :=
  let es := maskBits (trimCount j.q) j.mask
  let why := if cond = 3 then some Rst.laneLost else match d.trimCondition j with
    | some r => some r
    | none => if cond = 1 then some Rst.noSignal else if cond = 2 then some Rst.notDark else none
  match why with
  | some r => (St.fault, r, [], [], d)
  | none =>
    let va (i : Nat) : List Int := (a.getD i []).map (d.trimValue j.q)
    let vb (i : Nat) : List Int := (b.getD i []).map (d.trimValue j.q)
    let idx := es.mapIdx fun i e => (i, e)
    let bad := (idx.filter fun x => !trimAgree j.q (va x.1) (vb x.1)).map (·.2)
    if bad ≠ [] then (St.fault, Rst.disagree, bad, [], d)
    else
      let (ok, whole) := d.trimReach j failed
      let d := (idx.filter fun x => ok.contains x.2).foldl (fun d x =>
        d.trimApply j.q x.2 (List.zipWith (fun u v => roundDiv (u + v) 2) (va x.1) (vb x.1))) d
      (if whole then St.done else St.fault, if whole then 0 else if ok = [] then 0 else Rst.partial_, [], ok, d)

/-- TRIM_JOB_DONE (R440, R441): the job's two runs have ended with their results for each element of the mask, in order
(`cond`: 1 no signal, 2 not dark, 3 a lane was lost; `failed`: flue dies whose writes fail). -/
def execTrimJobDone (a b : List (List Int)) (cond : Nat) (failed : List Nat) (s : State) : Host.Outcome State Fault Refusal :=
  hearthEvent (fun d =>
    match d.trm.running with
    | none => d
    | some j =>
      let d := { d with trm := { d.trm with running := none } }
      let (st, rs, bad, ok, d) := d.trimEnd j a b cond failed
      let d := (d.bump 0 R.TRM_RUNS).wrLoHi 0 R.TRM_LAST_LO R.TRM_LAST_HI (bitsMask bad)
      let d := if st = St.done then d else if rs = Rst.disagree then d.bump 0 R.TRM_DISAGREE else d.bump 0 R.TRM_FAULTS
      (d.complete j.cmd st rs (enc 8 (bitsMask bad) ++ enc 8 (bitsMask ok))).trimStart 5) s

/-- The flue dies that hold elements of a range of a quantity. -/
def trimDies (q first count : Nat) : List Nat :=
  if q = 3 then [] else flueDies.filter fun k => (fromN first count).any fun e => 8 + e / 16 = k

/-- R447: QUANTITY, FIRST and COUNT name elements. -/
def trimRangeOk (p : Bytes) : Bool := 1 ≤ u8 p 0 && u8 p 0 ≤ 4 && u8 p 2 ≠ 0 && u8 p 1 + u8 p 2 ≤ trimCount (u8 p 0)

/-- R447: the bytes of an element's value. -/
def Dev.trimBytes (d : Dev) (q e : Nat) : Bytes :=
  match q with
  | 1 => enc 2 (d.rd (8 + e / 16) (R.BLW_ADC_OFFSET (e % 16)))
  | 2 => enc 2 (d.rd (8 + e / 16) (R.BLW_ADC_GAIN (e % 16)))
  | 3 => enc 1 (twos 8 (amGet d.trm.lanes e 0))
  | _ => let l := amGet d.trm.lin e []; ((List.range 64).map fun i => enc 1 (twos 8 (l.getD i 0))).flatten

/-- What the gate must know of TRIM_READ. -/
def specTrimRead : OpSpec :=
  { op := 0x4101, len := (· = 4), check := fun _ _ p => failIf [(!trimRangeOk p, 0), (!zero? p 3 1, Rs.reserved)] }

/-- TRIM_READ (R447). -/
def execTrimRead (h : Hdr) (p : Bytes) (s : State) : Host.Outcome State Fault Refusal :=
  anvil specTrimRead h p (.trimRead h p)
    (fun _ d => d.flueRead h (trimDies (u8 p 0) (u8 p 1) (u8 p 2)) fun d => (d, .done ((fromN (u8 p 1) (u8 p 2)).map (d.trimBytes (u8 p 0))).flatten)) s

/-- R447: the value of element `i` of a TRIM_WRITE. -/
def trimArg (p : Bytes) (q i : Nat) : List Int :=
  match q with
  | 1 => [s16 p (4 + 2 * i)]
  | 2 => [(u16 p (4 + 2 * i) : Int)]
  | 3 => [s8 p (4 + i)]
  | _ => (List.range 64).map fun k => s8 p (4 + 64 * i + k)

/-- What the gate must know of TRIM_WRITE. -/
def specTrimWrite : OpSpec :=
  { op := 0x4102, len := (· ≥ 4), fits := fun p => p.length = 4 + trimSize (u8 p 0) * u8 p 2, check := fun _ _ p =>
      failIf [
        (!trimRangeOk p || (u8 p 0 = 3 && (List.range (u8 p 2)).any fun i => decide ((s8 p (4 + i)).natAbs > 63)), 0),
        (!zero? p 3 1, Rs.reserved)] }

/-- TRIM_WRITE (R447, R442). -/
def execTrimWrite (h : Hdr) (p : Bytes) (s : State) : Host.Outcome State Fault Refusal :=
  anvil specTrimWrite h p (.trimWrite h p)
    (fun _ d =>
      let q := u8 p 0
      let es := fromN (u8 p 1) (u8 p 2)
      let busy := (d.trm.running.toList ++ d.trm.queue).any fun j => j.q = q && es.any fun e => bit j.mask e
      if busy then (d, .bad St.badState Rst.trimBusy)
      else
        let ws := es.mapIdx fun i e => (i, e)
        let set (d : Dev) (w : Nat × Nat) : Dev := d.trimApply q w.2 (trimArg p q w.1)
        let reg (w : Nat × Nat) : Nat × Option Fld :=
          (8 + w.2 / 16, match q with
            | 1 => some (R.BLW_ADC_OFFSET (w.2 % 16))
            | 2 => some (R.BLW_ADC_GAIN (w.2 % 16))
            | _ => none)
        if q = 3 then (ws.foldl set d, .done)
        else
          let (_, d, r) := d.flueWrites h (trimDies q (u8 p 1) (u8 p 2)) ws reg set
          (d, r.getD .done)) s

end Sys2Proof.Machine
end

