-- ==== Sys2Proof/Machine/RegAccess.lean ====
section
/-! DEFINITION. Register access (R7, R10, R34–R37, R69–R71, R30): what a read of a register returns and does, what a write to it
does, the Anvil register commands, and the damper's REG_WRITE and REG_READ as a flue die receives them. -/

namespace Sys2Proof.Machine

/-! Reading (R7, R10). -/

/-- The row of the register at an address. -/
def rowAt (a : Nat) : Option RegRow := regRow? (a / 2 ^ 28 % 16) (a / 2 ^ 20 % 256) (a % 2 ^ 20)

/-- Sixteen or fewer 2-bit codes, the first lowest. -/
def pack2 (l : List Nat) : Nat := l.foldr (fun x n => x + 4 * n) 0

/-- The fields of a register (block and offset as `Fld.off` numbers them) of a hob die that live outside the register store: the planish
map's (R90–R92) and the view slots' (R137). -/
def Dev.liveHob (d : Dev) (die off : Nat) : List (Fld × Nat) :=
  if off = R.SYN_PM_STATE_STATE_A.off then
    [(R.SYN_PM_STATE_STATE_A, (d.copy 0).state), (R.SYN_PM_STATE_STATE_B, (d.copy 1).state), (R.SYN_PM_STATE_ACTIVE, d.activeCopy)]
  else if off = R.SYN_PM_PEND_LO.off then [(R.SYN_PM_PEND_LO, d.pm.pendFrame)]
  else if off = R.SYN_PM_PEND_HI.off then [(R.SYN_PM_PEND_HI, d.pm.pendFrame / 2 ^ 32)]
  else if off = R.SYN_PM_SWAP_LO.off then [(R.SYN_PM_SWAP_LO, d.pm.swapFrame)]
  else if off = R.SYN_PM_SWAP_HI.off then [(R.SYN_PM_SWAP_HI, d.pm.swapFrame / 2 ^ 32)]
  else if 0x1100100 ≤ off ∧ off < 0x1100118 then
    let n := (off - 0x1100100) / 4
    match (d.viewsOn (die - 1))[n]? with
    | none => []
    | some (k, i) =>
      let v := (d.stream k).views.getD i {}
      let dep := match (d.stream k).cfg with | some c => bit c.mask i | none => false
      [(R.DEC_VIEW_SLOT n, k), (R.DEC_VIEW_VIEW n, i), (R.DEC_VIEW_USED n, 1), (R.DEC_VIEW_CHAN_T n, v.tex.chan),
        (R.DEC_VIEW_CHAN_D n, v.dep.chan), (R.DEC_VIEW_STATE n, v.code dep)]
  else if off / 2 ^ 20 = 0x33 ∧ off % 256 = 0 ∧ off % 2 ^ 20 < 0x400 then
    let c := off / 256 % 16
    [(R.MEM_CH_STATE_CHANGING c, b2n (match d.mem.change with | some x => x.left.contains (4 * (die - 1) + c) | none => false))]
  else []

/-- The same of a flue die: raster (R227), film (R258), Quench (R295), lamp (R296), Bellows (R316), links (R347) and power (R532). -/
def Dev.liveFlue (d : Dev) (die off : Nat) : List (Fld × Nat) :=
  let f := die - 8
  let o := off % 2 ^ 20
  match off / 2 ^ 20 with
  | 0x15 =>
    if o < 0x10 then [(R.SCN_LINK_STATE (o / 4), (d.linkRegionState (4 * f + o / 4)).num)]
    else if off = R.SCN_LINE_TIME.off then [(R.SCN_LINE_TIME, d.lineTimeWord)]
    else if off = R.SCN_VBLANK_NOW.off then [(R.SCN_VBLANK_NOW, if d.ras.started then d.ras.vnow else 0)]
    else if off = R.SCN_FRAME_LO.off then [(R.SCN_FRAME_LO, d.frame)]
    else if off = R.SCN_FRAME_HI.off then [(R.SCN_FRAME_HI, d.frame / 2 ^ 32)]
    else if off = R.SCN_LINE_NOW.off then [(R.SCN_LINE_NOW, if d.ras.started then d.lineNow else 0)]
    else if off = R.SCN_GL_STATUS_SOURCE.off ∧ f = 0 then
      [(R.SCN_GL_STATUS_SOURCE, d.ras.source), (R.SCN_GL_STATUS_LOCKED, b2n d.ras.locked),
        (R.SCN_GL_STATUS_VALID, b2n d.ras.fsValid + 2 * b2n d.epochValid)]
    else if off = R.SCN_GL_ERROR.off ∧ f = 0 then [(R.SCN_GL_ERROR, twos 32 d.errorNs)]
    else []
  | 0x20 =>
    if off = R.CHS_STATE_FILM.off then [(R.CHS_STATE_FILM, d.filmSt.num), (R.CHS_STATE_RETAIN, d.retainSt.num)]
    else if off = R.CHS_GEOM_FPF.off then [(R.CHS_GEOM_FPF, fpfOf d.rate), (R.CHS_GEOM_L_FF, lffOf d.rate d.active)]
    else if off = R.CHS_BUSY_CELLS.off then [(R.CHS_BUSY_CELLS, d.busyCells f)]
    else if off = R.CHS_SLOTS.off then [(R.CHS_SLOTS, d.slotBits)]
    else []
  | 0x21 =>
    if o < 8 then
      let m := o / 4
      let a := 2 * f + m
      if d.mode ≠ 2 then []
      else [(R.QNC_STATE_REGION m, (d.fn (FnId.region a)).st.num), (R.QNC_STATE_HALF m, b2n (d.arrayHalf a)),
        (R.QNC_STATE_ABANDONED m, b2n (d.blackAt (2 * a) d.frame (2 ^ 32) || d.blackAt (2 * a + 1) d.frame (2 ^ 32)))]
    else []
  | 0x22 =>
    if o = 0 then [(R.LMP_STATE_SEGMENT, (d.segSt f).num), (R.LMP_STATE_SLOT_LOCKED, b2n (d.mode = 2 && d.segSt f == .on))] else []
  | 0x23 =>
    let st (l : Nat) : Nat := (d.fn (loopFn (24 * f + l))).st.num
    if off = R.BLW_LOOP_STATE_LO.off then [(R.BLW_LOOP_STATE_LO, pack2 ((List.range 16).map st))]
    else if off = R.BLW_LOOP_STATE_HI.off then [(R.BLW_LOOP_STATE_HI, pack2 ((fromN 16 8).map st))]
    else if off = R.BLW_SWAP_PEND.off then
      [(R.BLW_SWAP_PEND, ((List.range 24).map fun l => if d.blw.swaps.any fun s => s.loop = 24 * f + l then 2 ^ l else 0).sum)]
    else []
  | 0x30 => if o % 256 = 0 ∧ o < 0x400 then [(R.LNK_FL_STATE_FUNC (o / 256), (d.fn (FnId.link (4 * f + o / 256))).st.num)] else []
  | 0x71 =>
    if off = R.PWR_PFAIL_STATUS_PFAIL_N.off then
      [(R.PWR_PFAIL_STATUS_PFAIL_N, b2n (d.pwr.pfailN.getD f true)), (R.PWR_PFAIL_STATUS_HV_LOW, b2n (d.pwr.hvLow.getD f false)),
        (R.PWR_PFAIL_STATUS_HV_HIGH, b2n (d.pwr.hvHigh.getD f false))]
    else []
  | _ => []

/-- The groups with claimable sources (R482). -/
def Dev.openGroups (d : Dev) : Nat :=
  ((List.range 32).map fun g => if d.claimables.any fun s => s / 32 = g then 2 ^ g else 0).sum

/-- The same of the Mantel die: events (R482), network (R386), times (R387), cameras and trim (R448), the ash log (R471), encoders and
Ingot (R511). -/
def Dev.liveMantel (d : Dev) (off : Nat) : List (Fld × Nat) :=
  let o := off % 2 ^ 20
  match off / 2 ^ 20 with
  | 0x0E =>
    if off = R.IRQ_OPEN.off then [(R.IRQ_OPEN, d.openGroups)]
    else if 0x100 ≤ o ∧ o < 0x180 then
      let g := (o - 0x100) / 4
      [(R.IRQ_GROUP_HELD g, b2n (d.grp g).until_.isSome)]
    else if 0x1000 ≤ o then
      let s := (o - 0x1000) / 4
      let v := d.src s
      [(R.IRQ_SRC_STATE s, v.st), (R.IRQ_SRC_TYPE s, b2n (srcIsLevel s)), (R.IRQ_SRC_LEVEL_NOW s, b2n (srcIsLevel s && v.level)),
        (R.IRQ_SRC_REPEAT s, b2n v.rep), (R.IRQ_SRC_COUNT s, v.count)]
    else []
  | 0x31 => if o < 0x44 then [(R.NET_IF_EXISTS (o / 4), b2n (d.ifExists (o / 4))), (R.NET_IF_FEC (o / 4), b2n (d.ifFec (o / 4)))] else []
  | 0x32 =>
    if 0x200 ≤ o ∧ o < 0x300 then
      let n := (o - 0x200) / 32
      if o % 32 = 4 then [(R.PTP_TPO_NEXT_LO n, d.tpoNext n)]
      else if o % 32 = 8 then [(R.PTP_TPO_NEXT_HI n, d.tpoNext n / 2 ^ 32)] else []
    else []
  | 0x40 => if o % 256 = 0 ∧ o < 0x200 then [(R.CAM_STATE_FUNC (o / 256), (d.fn (FnId.cam (o / 256))).st.num)] else []
  | 0x41 =>
    if o = 0 then
      [(R.TRM_STATE_BUSY, b2n d.trm.running.isSome), (R.TRM_STATE_QUANTITY, match d.trm.running with | some j => j.q | none => 0),
        (R.TRM_STATE_QUEUED, d.trm.queue.length)]
    else []
  | 0x51 => if off = R.ASH_QUEUED.off then [(R.ASH_QUEUED, d.ash.queue.length)] else []
  | 0x60 =>
    if o = 0 then [(R.ENC_STATE, pack2 ((List.range 4).map fun s => (d.encSt s).num))]
    else if off = R.ENC_LOAD.off then
      let q := (d.encEnabled.map d.encLoad).foldl (· + ·) 0
      [(R.ENC_LOAD, (roundFree q.num (q.den * 1000000)).toNat)]
    else []
  | 0x61 =>
    if o = 0 then [(R.ING_STATE_BUSY, b2n d.ing.running.isSome), (R.ING_STATE_QUEUED, d.ing.queue.length)]
    else if off = R.ING_CTX_LO.off then [(R.ING_CTX_LO, d.ing.ctxMap)]
    else if off = R.ING_CTX_HI.off then [(R.ING_CTX_HI, d.ing.ctxMap / 2 ^ 32)]
    else []
  | _ => []

/-- The fields of a register that live outside the register store. -/
def Dev.live (d : Dev) (die off : Nat) : List (Fld × Nat) :=
  match dieKind die with
  | 1 => d.liveMantel off
  | 2 => d.liveHob die off
  | 4 => d.liveFlue die off
  | _ => []

/-- R7, R10: the value a read returns: WO bits and reserved bits are 0, an RS field reads its shadow copy; a reserved address reads 0. -/
def Dev.peek (d : Dev) (a : Nat) : Nat :=
  match rowAt a with
  | none => 0
  | some r =>
    let m (n : Nat) : Word := BitVec.ofNat 32 n
    let w := (rfGet d.regs a &&& m (r.ro ||| r.rw ||| r.w1c)) ||| (rfGet d.shadow a &&& m r.rs)
    ((d.live (a / 2 ^ 28 % 16) (a % 2 ^ 28)).foldl (fun (w : Word) (e : Fld × Nat) => setBits w e.1.hi e.1.lo e.2) w).toNat

/-- What a read does before it returns: a read of IRQ_CLAIM claims (R475), a read of SEC_LO latches the time words (R387); the
engines busy and the encoders' buffer fill at the moment of the read are free values (log entry 3). -/
def Dev.sample (d : Dev) (a : Nat) : Dev :=
  let die := a / 2 ^ 28 % 16
  let off := a % 2 ^ 28
  if die = 0 ∧ off = R.IRQ_CLAIM_SOURCE.off then d.claim.1
  else if die = 0 ∧ off / 2 ^ 20 = 0x32 ∧ off % 2 ^ 20 < 0x80 ∧ off % 32 = 0 then d.latchTime (off % 2 ^ 20 / 32)
  else if dieKind die = 2 ∧ off = R.DEC_BUSY_ENTROPY.off then
    let (v, d) := d.decBusy die
    (d.wr die R.DEC_BUSY_ENTROPY v).wr die R.DEC_BUSY_PIXEL (v / 4)
  else if die = 0 ∧ off = R.ENC_BUF_FILL.off then
    let (v, d) := d.freeVal 23
    d.wr 0 R.ENC_BUF_FILL v
  else d

/-- R10: a register is read. -/
def Dev.regRead (d : Dev) (a : Nat) : Nat × Dev := let d := d.sample a; (d.peek a, d)

/-! Writing (R7, R10). -/

/-- R10: a write applied by access type: RW bits take the value, W1C bits written 1 clear, RS bits go to the shadow copy; RO, WO
and reserved bits ignore it. -/
def Dev.writePlain (d : Dev) (a v : Nat) : Dev :=
  match rowAt a with
  | none => d
  | some r =>
    let m (n : Nat) : Word := BitVec.ofNat 32 n
    let o := rfGet d.regs a
    let d := { d with regs := rfSet d.regs a (((o &&& ~~~(m r.rw)) ||| (m v &&& m r.rw)) &&& ~~~(m v &&& m r.w1c)) }
    if r.rs = 0 then d else { d with shadow := rfSet d.shadow a (m v &&& m r.rs) }

/-- The value written with a field replaced by the one held: a field's write that the spec ignores. -/
def Dev.keep (d : Dev) (die : Nat) (f : Fld) (v : Nat) : Nat := (setBits (BitVec.ofNat 32 v) f.hi f.lo (d.rd die f)).toNat

/-- R102: a direct write to the geometry registers of a hob die sets a field to a value that RAYMODEL_SET takes in the mode set. -/
def Dev.geometryOk (d : Dev) (die off v : Nat) : Bool :=
  let arrays := d.rd die R.SYN_RM_GRID_ARRAYS
  if off = 0x1201000 then
    let n := bits v 7 4
    layoutOk d.mode (bits v 2 0) && (if d.mode = 1 then n = 0 else decide (1 ≤ n ∧ n ≤ 4))
  else if off = 0x1201004 then
    [bits v 15 0, bits v 31 16].all fun x => decide (0x0100 ≤ x ∧ x ≤ 0x2800)
  else
    let n := (off - 0x1201040) / 16
    if n ≥ arrays then v = 0
    else if off % 16 = 8 then decide (0x0400 ≤ bits v 15 0 ∧ bits v 15 0 ≤ 0x4000) else true

/-- R306, R307, R310: the Bellows registers of a loop: the value taken, or none where the write is refused and counted. -/
def Dev.loopWrite (d : Dev) (die off v : Nat) : Option Nat :=
  let l := (off - 0x2300200) / 64
  let L := 24 * (die - 8) + l
  let o := (off - 0x2300200) % 64
  if o = 0 then
    let v := if bits v 7 4 > 8 then d.keep die (R.BLW_L_CFG_RATE l) v else v
    let group := if bit v 11 then some (bits v 10 8) else none
    if (d.cfgRefused L (bits v 3 0) (bits v 7 4) group (bits v 27 12)).isSome then none else some v
  else if 0x20 ≤ o then (if (d.coeffRefused L (if o < 0x30 then 0 else 1)).isSome then none else some v)
  else some v

/-- R324: a starting point within the limits of the equalizer. -/
def eqStartOk (v : Nat) : Bool :=
  let main := bits v 13 8
  decide (16 ≤ main) && decide (bits v 3 0 + main + bits v 20 16 ≤ 63)

/-- What a write to a register with a limit of its own leaves of the value: none where the whole write is ignored; and the
counter of ignored writes that it raises. -/
def Dev.take (d : Dev) (die off v : Nat) : Option Nat × Option Fld :=
  let o := off % 2 ^ 20
  let all (ok : Bool) : Option Nat × Option Fld := (if ok then some v else none, none)
  match off / 2 ^ 20 with
  | 0x0E =>
    if 0x100 ≤ o ∧ o < 0x180 ∧ (o - 0x100) / 4 > 10 then (some (d.keep die (R.IRQ_GROUP_ENABLE ((o - 0x100) / 4)) v), none) else all true
  | 0x11 => if o = 0xC then all (decide (1024 ≤ bits v 14 0 ∧ bits v 14 0 ≤ 15360)) else all true
  | 0x12 =>
    if o = 0xC then all (decide (bits v 6 4 ≤ 4))
    else if o = 0x1000 ∨ o = 0x1004 ∨ (0x1040 ≤ o ∧ o < 0x1080) then all (d.mode ≠ 0 && d.regionsOff && d.geometryOk die off v)
    else if 0x1014 ≤ o ∧ o < 0x1020 then all (d.mode ≠ 0)
    else all true
  | 0x14 => if o < 0x28 ∧ o ≠ 4 then all (d.rd 0 R.BLT_STATUS_BUSY = 0) else all true
  | 0x20 => if o = 0x18 then all (d.rdB die R.CHS_CFG_TEMP_CH = 0xFF) else all true
  | 0x23 =>
    if 0x200 ≤ o ∧ o < 0x800 then
      let t := d.loopWrite die off v
      (t, if t.isNone then some R.BLW_REFUSED else none)
    else all true
  | 0x30 => if dieKind die = 4 ∧ 0x40 ≤ o % 256 ∧ o % 256 < 0x54 ∧ o < 0x400 then (if eqStartOk v then some (v &&& 0x1F3F0F) else none, none) else all true
  | 0x32 =>
    if o < 0x80 ∧ 0x10 ≤ o % 32 then
      let b := o / 32
      if b = 3 ∨ d.servoOwned b then (none, some R.PTP_REFUSED)
      else if o % 32 = 0x14 then (none, none) else all true
    else all true
  | 0x33 =>
    if o < 0x400 ∧ 0x40 ≤ o % 256 ∧ o % 256 < 0x80 then
      if d.rd die (R.MEM_CH_STATE_SET (o / 256)) = (o % 256 - 0x40) / 32 then (none, some R.MEM_REFUSED) else all true
    else if o = 0x400 then
      let v := if 256 ≤ bits v 14 0 ∧ bits v 14 0 ≤ 16384 then v else d.keep die R.MEM_NBR_CFG_THRESHOLD v
      (some (if 1 ≤ bits v 17 16 ∧ bits v 17 16 ≤ 2 then v else d.keep die R.MEM_NBR_CFG_DIST v), none)
    else if o = 0x404 then all (bits v 7 0 ≠ 0)
    else all true
  | 0x34 =>
    if o = 8 then all (bits v 15 0 ≠ 0)
    else if 0x10 ≤ o ∧ o < 0x1C then
      if bit v 0 then all true else (some (d.keep die (R.CLK_OUT_ENABLE ((o - 0x10) / 4)) v), some R.CLK_REFUSED)
    else all true
  | 0x40 => if o = 0x200 then all (bits v 1 0 ≠ 3) else all true
  | 0x50 =>
    if o < 0x20 then all (decide ((signed 9 (bits v 31 23)).natAbs ≤ 128))
    else if o = 0x104 then all (decide (0x5A00 ≤ bits v 15 0 ∧ bits v 15 0 ≤ 0x6900))
    else all true
  | 0x71 => if die = 0 ∧ (o = 0x100 ∨ o = 0x104) ∧ d.mode = 2 then (none, some R.PWR_TWIN_REFUSED) else all true
  | _ => all true

/-- The byte ranges of its block that a clear register clears when its bit 0 is written 1. -/
def clearOf (die blk o : Nat) : List (Nat × Nat) :=
  let four (f : Nat → List (Nat × Nat)) : List (Nat × Nat) := ((List.range 4).map f).flatten
  match blk, o with
  | 0x00, 0x414 => [(0x400, 0x414)]
  | 0x0E, 0x214 => [(0x200, 0x214)]
  | 0x11, 0x224 => [(0x8, 0xC), (0x200, 0x224)]
  | 0x12, 0x228 => [(0x200, 0x228), (0x300, 0x30C)]
  | 0x12, 0x111C => [(0x1118, 0x111C)]
  | 0x13, 0x210 => [(0x200, 0x210)]
  | 0x15, 0x420 => [(0x400, 0x420)]
  | 0x20, 0x128 => [(0x100, 0x11C)]
  | 0x21, 0x318 => [(0x204, 0x208), (0x300, 0x318)]
  | 0x22, 0xA1C => [(0xA00, 0xA10)]
  | 0x23, 0x810 => [(0x800, 0x810)]
  | 0x30, 0x400 => if dieKind die = 4 then four fun n => [(0x100 * n + 0x80, 0x100 * n + 0x94)] else []
  | 0x30, 0x200 => if die = 0 then [(0x100, 0x144)] else []
  | 0x31, 0x800 => [(0x100, 0x444), (0x600, 0x720)]
  | 0x32, 0x500 => [(0x110, 0x124)] ++ (List.range 5).map fun m => (0x404 + 0x10 * m, 0x40C + 0x10 * m)
  | 0x33, 0x410 => (four fun c => [(0x100 * c + 4, 0x100 * c + 0xC), (0x100 * c + 0x18, 0x100 * c + 0x20)]) ++ [(0x40C, 0x410)]
  | 0x34, 0x110 => [(0x100, 0x110), (0x20C, 0x214)]
  | 0x40, 0x204 => [(0x10, 0x2C), (0x110, 0x12C)]
  | 0x41, 0x1C => [(0x8, 0x1C)]
  | 0x50, 0x110 => if die = 0 then [(0x108, 0x110)] else []
  | 0x51, 0x18 => [(0x10, 0x18)]
  | 0x60, 0x200 => four fun s => [(0x100 + 0x20 * s, 0x110 + 0x20 * s)]
  | 0x61, 0x1C => [(0x10, 0x1C)]
  | 0x70, 0x1210 => [(0x1100, 0x1190)]
  | 0x70, 0x130 => [(0x100, 0x12C)]
  | 0x71, 0x120 => if die = 0 then [(0x110, 0x120)] else []
  | _, _ => []

/-- A clear register is written with bit 0 = 1. -/
def Dev.clears (d : Dev) (die off : Nat) : Dev :=
  let blk := off / 2 ^ 20
  let d := (clearOf die blk (off % 2 ^ 20)).foldl (fun d r => d.clearRange die blk r.1 r.2) d
  if off = R.NET_CLEAR.off ∧ die = 0 then { d with net := { d.net with frames := [], pairs := d.net.pairs.map fun _ => {} } }
  else if off = R.MEM_CLEAR.off ∧ dieKind die = 2 then (List.range 4).foldl (fun d c => d.wr die (R.MEM_CH_INFLIGHT_HWM c) 0) d
  else d

/-- R227: a direct write of a shadow raster register: the shadow raster of each region of the die takes the value. -/
def Dev.rasterDirect (d : Dev) (die : Nat) : Dev :=
  let upd (k : Nat) (y : Option Raster) : Option Raster :=
    if (regionDies d.mode k).contains die then
      y.map fun z => { z with
        rate := d.rdS die R.SCN_RATE, width := if d.mode = 2 then z.width else d.rdS die R.SCN_WIDTH
        active := d.rdS die R.SCN_ACTIVE, vblank := d.rdS die R.SCN_VBLANK
        slotLines := if d.mode = 2 then d.rdS die R.SCN_SLOT_LINES else z.slotLines }
    else y
  { d with ras := { d.ras with rasters := d.ras.rasters.mapIdx upd } }

/-- What a write does beyond the register, where the register acts on writing. -/
def Dev.acts (d : Dev) (die off v : Nat) : Dev :=
  let o := off % 2 ^ 20
  let d := if bit v 0 then d.clears die off else d
  match off / 2 ^ 20 with
  | 0x0E =>
    if o = 0 then d.raise (v % 1024)
    else if o = 0x14 then d.completeSource (v % 1024) (bit v 16)
    else if 0x100 ≤ o ∧ o < 0x180 ∧ !d.ev.asleep then d.openGroup ((o - 0x100) / 4)
    else d
  | 0x15 => if 0x100 ≤ o ∧ o ≤ 0x110 then d.rasterDirect die else d
  | 0x32 =>
    if o < 0x80 ∧ o % 32 = 0x14 ∧ o / 32 ≠ 3 ∧ !d.servoOwned (o / 32) then d.incrWrite (o / 32) v
    else if o < 0x80 ∧ o % 32 = 0x1C ∧ bit v 31 ∧ o / 32 ≠ 3 ∧ !d.servoOwned (o / 32) then d.adjGo (o / 32) (bits v 15 0)
    else d
  | 0x71 =>
    if die = 0 ∧ o = 4 then d.safeWrite v
    else if dieKind die = 4 ∧ o = 0xC then d.shutdownWrite (die - 8) v
    else if dieKind die = 4 ∧ o = 0x10 then d.flueResetWrite (die - 8) v
    else d
  | _ => d

/-- R10: a register is written. A lamp channel's ENABLE acts as LAMP_CHANNEL_SET makes it (R289, R296). -/
def regWrite (a v : Nat) (hp : Heap) (d : Dev) : Heap × Dev :=
  let die := a / 2 ^ 28 % 16
  let off := a % 2 ^ 28
  let o := off % 2 ^ 20
  let was := d.chEnabled (die - 8) ((o - 0x100) / 4)
  let v := v % 2 ^ 32
  if off = R.BLT_CTRL_START.off ∧ die = 0 ∧ bit v 4 then bltDirect (bits v 1 0) hp d
  else
    let (t, cnt) := d.take die off v
    let d := match cnt with
      | some f => d.bump die f
      | none => d
    let d := match t with
      | some w => d.writePlain a w
      | none => d
    let d := if dieKind die = 4 ∧ off / 2 ^ 20 = 0x22 ∧ 0x100 ≤ o ∧ o < 0x300 then d.channelTurned (die - 8) ((o - 0x100) / 4) was else d
    (hp, d.acts die off v)

/-! Anvil register access (R69–R71). -/

/-- R34–R36: a die cannot be reached by a register access. -/
def Dev.unreachable (d : Dev) (die : Nat) : Bool :=
  match dieKind die with
  | 2 => !d.hobUp die
  | 4 => !d.flueUp die
  | _ => false

/-- R35, R69: a range of registers that an access may name. -/
def rangeOk (a n : Nat) : Bool := implemented (a / 2 ^ 28 % 16) a && decide (a % 2 ^ 20 + 4 * n ≤ 2 ^ 20)

/-- Accesses that are answered before one exhausts its resends: all of `n` on the hearth, none of a flue die whose replies find no room (R25). -/
def Dev.answeredOf (d : Dev) (h : Hdr) (die n : Nat) : Nat :=
  if dieKind die ≠ 4 then n else if ¬ d.canAnswer die then 0 else min (h.answered.getD n) n

/-- R36: a register read, over the damper where a flue die holds it. -/
def Dev.readOver (d : Dev) (a : Nat) : Nat × Dev :=
  let r := d.regRead a
  if dieKind (a / 2 ^ 28) = 4 then (r.1, r.2.exchange (a / 2 ^ 28) 0x06 (a * 2 ^ 32) r.1 0) else r

/-- R36: a register written, over the damper where a flue die holds it. -/
def writeOver (a v : Nat) (hp : Heap) (d : Dev) : Heap × Dev :=
  let x := regWrite a v hp d
  if dieKind (a / 2 ^ 28) = 4 then (x.1, x.2.exchange (a / 2 ^ 28) 0x05 (a * 2 ^ 32 + v % 2 ^ 32) (x.2.peek a) 0) else x

/-- What the gate must know of REG_READ. -/
def specRegRead : OpSpec :=
  { op := 0x0100, len := (· = 8), check := fun _ _ p => failIf [
      (!decide (1 ≤ u16 p 4 ∧ u16 p 4 ≤ 256), 0), (!rangeOk (u32 p 0) (u16 p 4), 0), (!zero? p 6 2, Rs.reserved)] }

/-- REG_READ (R69). -/
def execRegRead (h : Hdr) (p : Bytes) (s : State) : Host.Outcome State Fault Refusal :=
  anvil specRegRead h p (.regRead h p)
    (fun _ d =>
      let a := u32 p 0
      let die := a / 2 ^ 28
      let n := d.answeredOf h die (u16 p 4)
      if d.unreachable die then (d, .bad St.fault 0)
      else
        let (vs, d) := (List.range n).foldl (fun (x : Bytes × Dev) i => let (v, d) := x.2.readOver (a + 4 * i); (x.1 ++ enc 4 v, d)) ([], d)
        if n < u16 p 4 then (d.accessLost die 0x06 ((a + 4 * n) * 2 ^ 32), .bad St.timeout 0) else (d, .done vs)) s

/-- R70: registers written in ascending order until a write fails: how many were written, the result, and the failure. -/
def writeRun (h : Hdr) (a : Nat) (p : Bytes) (n : Nat) (hp : Heap) (d : Dev) : Nat × Heap × Dev × Option Nat :=
  let die := a / 2 ^ 28
  (List.range n).foldl (fun (x : Nat × Heap × Dev × Option Nat) i =>
    let (k, hp, d, bad) := x
    match bad with
    | some _ => x
    | none =>
      let v := u32 p (8 + 4 * i)
      let word := (a + 4 * i) * 2 ^ 32 + v
      if d.unreachable die then (k, hp, d, some St.fault)
      else if d.answeredOf h die n ≤ i then (k, hp, d.accessLost die 0x05 word, some St.timeout)
      else if d.writeRefused a then (k, hp, d.exchange die 0x05 word (d.peek (a + 4 * i)) 3, some St.fault)
      else
        let (hp, d) := writeOver (a + 4 * i) v hp d
        (k + 1, hp, d, none)) (0, hp, d, none)

/-- What the gate must know of REG_WRITE. -/
def specRegWrite : OpSpec :=
  { op := 0x0101, len := fun n => decide (8 ≤ n) && n % 4 = 0, fits := fun p => p.length = 8 + 4 * u16 p 4, check := fun _ _ p => failIf [
      (!decide (1 ≤ u16 p 4 ∧ u16 p 4 ≤ 1022), 0), (!rangeOk (u32 p 0) (u16 p 4), 0), (!zero? p 6 2, Rs.reserved)] }

/-- REG_WRITE (R70). -/
def execRegWrite (h : Hdr) (p : Bytes) (s : State) : Host.Outcome State Fault Refusal :=
  anvilH specRegWrite h p (.regWrite h p)
    (fun _ hp d =>
      let n := u16 p 4
      let (k, hp, d, bad) := writeRun h (u32 p 0) p n hp d
      match bad with
      | none => (hp, d, .done)
      | some st => (hp, d, .reply st 0 (if k = 0 then [] else enc 2 k))) s

/-- R71: one register read, changed under a mask and written, with the value before and after. -/
def modifyRun (h : Hdr) (a mask value : Nat) (hp : Heap) (d : Dev) : Heap × Dev × Rep :=
  let n := d.answeredOf h (a / 2 ^ 28) 2
  if d.unreachable (a / 2 ^ 28) then (hp, d, .bad St.fault 0)
  else if n = 0 then (hp, d.accessLost (a / 2 ^ 28) 0x06 (a * 2 ^ 32), .bad St.timeout 0)
  else
    let r := d.readOver a
    let m : Word := BitVec.ofNat 32 mask
    let w := (BitVec.ofNat 32 r.1 &&& ~~~m) ||| (BitVec.ofNat 32 value &&& m)
    let word := a * 2 ^ 32 + w.toNat
    if n = 1 then (hp, r.2.accessLost (a / 2 ^ 28) 0x05 word, .bad St.timeout 0)
    else if r.2.writeRefused a then (hp, r.2.exchange (a / 2 ^ 28) 0x05 word r.1 3, .bad St.fault 0)
    else
      let x := writeOver a w.toNat hp r.2
      (x.1, x.2, .done (enc 4 r.1 ++ enc 4 (x.2.peek a)))

/-- What the gate must know of REG_MODIFY. -/
def specRegModify : OpSpec :=
  { op := 0x0102, len := (· = 12), check := fun _ _ p => failIf [(!rangeOk (u32 p 0) 1, 0)] }

/-- REG_MODIFY (R71). -/
def execRegModify (h : Hdr) (p : Bytes) (s : State) : Host.Outcome State Fault Refusal :=
  anvilH specRegModify h p (.regModify h p) (fun _ hp d => modifyRun h (u32 p 0) (u32 p 4) (u32 p 8) hp d) s

/-! The damper's register messages (R28, R30, R33, R35). -/

/-- DAMPER_REG_WRITE (R30): a flue die receives a REG_WRITE, writes or refuses it, and replies with the value now held. -/
def execDamperRegWrite (die addr value seq : Nat) (chk : MsgCheck) (s : State) : Host.Outcome State Fault Refusal :=
  eventH (fun hp d =>
    if ¬ d.takesForward die then (hp, d)
    else if chk ≠ .good then (hp, d.badMessage die chk)
    else if ¬ d.canAnswer die then (hp, d)
    else if ¬ implemented die addr then (hp, d.answer die 0 1 0x05 seq)
    else if d.writeRefused addr then (hp, d.answer die (d.peek addr) 3 0x05 seq)
    else
      let (hp, d) := regWrite addr value hp d
      (hp, d.answer die (d.peek addr) 0 0x05 seq)) s

/-- DAMPER_REG_READ (R30): a flue die receives a REG_READ and replies with the value. -/
def execDamperRegRead (die addr seq : Nat) (chk : MsgCheck) (s : State) : Host.Outcome State Fault Refusal :=
  event (fun d =>
    if ¬ d.takesForward die then d
    else if chk ≠ .good then d.badMessage die chk
    else if ¬ d.canAnswer die then d
    else if ¬ implemented die addr then d.answer die 0 1 0x06 seq
    else
      let (v, d) := d.regRead addr
      d.answer die v 0 0x06 seq) s

/-! A core's write (R10, R35, R36). -/

/-- REGISTER_WRITE (R10, R7, R36): a Tinker core writes a register; one of a flue die by a REG_WRITE, which awaits its REG_REPLY. -/
def execRegisterWrite (addr value : Nat) (s : State) : Host.Outcome State Fault Refusal :=
  hearthEventH (fun hp d =>
    if ¬ implemented (addr / 2 ^ 28 % 16) addr then (hp, d.busError)
    else if d.unreachable (addr / 2 ^ 28 % 16) then (hp, d)
    else if dieKind (addr / 2 ^ 28 % 16) = 4 then
      (hp, d.fwdSend (addr / 2 ^ 28 % 16) 0x05 [addr % 2 ^ 32 * 2 ^ 32 + value % 2 ^ 32] (some .plain))
    else regWrite addr value hp d) s

end Sys2Proof.Machine
end

