-- ==== Sys2Proof/Machine/Dispatch.lean ====
section
/-! DEFINITION. The dispatcher: one arm per command, each one direct call of its meaning. -/

namespace Sys2Proof.Machine

def exec (i : Instr) (s : State) : Host.Outcome State Fault Refusal :=
  match i with
  | .identity h p => Sys2Proof.Machine.execIdentity h p s
  | .status h p => Sys2Proof.Machine.execStatus h p s
  | .abort h p => Sys2Proof.Machine.execAbort h p s
  | .sessionOpen h p => Sys2Proof.Machine.execSessionOpen h p s
  | .sessionClose h p => Sys2Proof.Machine.execSessionClose h p s
  | .keySet h p => Sys2Proof.Machine.execKeySet h p s
  | .stackSet h p => Sys2Proof.Machine.execStackSet h p s
  | .modeSet h p => Sys2Proof.Machine.execModeSet h p s
  | .eventSelect h p => Sys2Proof.Machine.execEventSelect h p s
  | .eventReplay h p => Sys2Proof.Machine.execEventReplay h p s
  | .regRead h p => Sys2Proof.Machine.execRegRead h p s
  | .regWrite h p => Sys2Proof.Machine.execRegWrite h p s
  | .regModify h p => Sys2Proof.Machine.execRegModify h p s
  | .bufCreate h p => Sys2Proof.Machine.execBufCreate h p s
  | .bufWrite h p => Sys2Proof.Machine.execBufWrite h p s
  | .bufRead h p => Sys2Proof.Machine.execBufRead h p s
  | .bufFree h p => Sys2Proof.Machine.execBufFree h p s
  | .surfUpload h p => Sys2Proof.Machine.execSurfUpload h p s
  | .surfUploadDone => Sys2Proof.Machine.execSurfUploadDone s
  | .raymodelSet h p => Sys2Proof.Machine.execRaymodelSet h p s
  | .raymodelGet h p => Sys2Proof.Machine.execRaymodelGet h p s
  | .aimSet h p => Sys2Proof.Machine.execAimSet h p s
  | .planishLoad h p => Sys2Proof.Machine.execPlanishLoad h p s
  | .planishLoadDone => Sys2Proof.Machine.execPlanishLoadDone s
  | .planishClone h p => Sys2Proof.Machine.execPlanishClone h p s
  | .planishCloneDone => Sys2Proof.Machine.execPlanishCloneDone s
  | .planishSelect h p => Sys2Proof.Machine.execPlanishSelect h p s
  | .planishRead h p => Sys2Proof.Machine.execPlanishRead h p s
  | .planishStatus h p => Sys2Proof.Machine.execPlanishStatus h p s
  | .planishRetireDone => Sys2Proof.Machine.execPlanishRetireDone s
  | .decodeStreamSet h p => Sys2Proof.Machine.execDecodeStreamSet h p s
  | .decodeStreamEnable h p => Sys2Proof.Machine.execDecodeStreamEnable h p s
  | .decodeTransitionDone slot => Sys2Proof.Machine.execDecodeTransitionDone slot s
  | .decodePriority h p => Sys2Proof.Machine.execDecodePriority h p s
  | .decodeAssign h p => Sys2Proof.Machine.execDecodeAssign h p s
  | .decodeStatus h p => Sys2Proof.Machine.execDecodeStatus h p s
  | .decodeEvents h p => Sys2Proof.Machine.execDecodeEvents h p s
  | .synSourceSet h p => Sys2Proof.Machine.execSynSourceSet h p s
  | .synSourceGet h p => Sys2Proof.Machine.execSynSourceGet h p s
  | .synConfig h p => Sys2Proof.Machine.execSynConfig h p s
  | .synStatus h p => Sys2Proof.Machine.execSynStatus h p s
  | .synGrateSet h p => Sys2Proof.Machine.execSynGrateSet h p s
  | .surfaceCreate h p => Sys2Proof.Machine.execSurfaceCreate h p s
  | .surfaceFree h p => Sys2Proof.Machine.execSurfaceFree h p s
  | .surfaceFreeComplete handle => Sys2Proof.Machine.execSurfaceFreeComplete handle s
  | .layerSet h p => Sys2Proof.Machine.execLayerSet h p s
  | .layerStatus h p => Sys2Proof.Machine.execLayerStatus h p s
  | .fenceOp h p => Sys2Proof.Machine.execFenceOp h p s
  | .blit h p => Sys2Proof.Machine.execBlit h p s
  | .bltFillStart => Sys2Proof.Machine.execBltFillStart s
  | .bltCopyStart => Sys2Proof.Machine.execBltCopyStart s
  | .bltConvertStart => Sys2Proof.Machine.execBltConvertStart s
  | .blitComplete bad => Sys2Proof.Machine.execBlitComplete bad s
  | .rasterSet h p => Sys2Proof.Machine.execRasterSet h p s
  | .rasterEnable h p => Sys2Proof.Machine.execRasterEnable h p s
  | .commit h p => Sys2Proof.Machine.execCommit h p s
  | .commitCaptureComplete => Sys2Proof.Machine.execCommitCaptureComplete s
  | .genlockSet h p => Sys2Proof.Machine.execGenlockSet h p s
  | .rasterStatus h p => Sys2Proof.Machine.execRasterStatus h p s
  | .signatureRead h p => Sys2Proof.Machine.execSignatureRead h p s
  | .panelCurveSet h p => Sys2Proof.Machine.execPanelCurveSet h p s
  | .filmTableSet h p => Sys2Proof.Machine.execFilmTableSet h p s
  | .filmTableLoadDone => Sys2Proof.Machine.execFilmTableLoadDone s
  | .filmConfig h p => Sys2Proof.Machine.execFilmConfig h p s
  | .filmEnable h p => Sys2Proof.Machine.execFilmEnable h p s
  | .filmUpdate h p => Sys2Proof.Machine.execFilmUpdate h p s
  | .filmStatus h p => Sys2Proof.Machine.execFilmStatus h p s
  | .panelRetain h p => Sys2Proof.Machine.execPanelRetain h p s
  | .quenchConfig h p => Sys2Proof.Machine.execQuenchConfig h p s
  | .projCurveSet h p => Sys2Proof.Machine.execProjCurveSet h p s
  | .quenchStatus h p => Sys2Proof.Machine.execQuenchStatus h p s
  | .lampEnable h p => Sys2Proof.Machine.execLampEnable h p s
  | .lampTransitionDone seg => Sys2Proof.Machine.execLampTransitionDone seg s
  | .lampChannelSet h p => Sys2Proof.Machine.execLampChannelSet h p s
  | .lampTableSet h p => Sys2Proof.Machine.execLampTableSet h p s
  | .lampSetpoint h p => Sys2Proof.Machine.execLampSetpoint h p s
  | .lampClear h p => Sys2Proof.Machine.execLampClear h p s
  | .lampNodes h p => Sys2Proof.Machine.execLampNodes h p s
  | .lampNodeAccess h p => Sys2Proof.Machine.execLampNodeAccess h p s
  | .bellowsLoopSet h p => Sys2Proof.Machine.execBellowsLoopSet h p s
  | .bellowsCoeffSet h p => Sys2Proof.Machine.execBellowsCoeffSet h p s
  | .bellowsSwap h p => Sys2Proof.Machine.execBellowsSwap h p s
  | .bellowsSetpoint h p => Sys2Proof.Machine.execBellowsSetpoint h p s
  | .bellowsEnable h p => Sys2Proof.Machine.execBellowsEnable h p s
  | .bellowsStatus h p => Sys2Proof.Machine.execBellowsStatus h p s
  | .linkEnable h p => Sys2Proof.Machine.execLinkEnable h p s
  | .linkStatus h p => Sys2Proof.Machine.execLinkStatus h p s
  | .lanePower h p => Sys2Proof.Machine.execLanePower h p s
  | .lanePowerDone link => Sys2Proof.Machine.execLanePowerDone link s
  | .eyeScan h p => Sys2Proof.Machine.execEyeScan h p s
  | .eyeScanDone lane left right top bottom counts => Sys2Proof.Machine.execEyeScanDone lane left right top bottom counts s
  | .tapTest h p => Sys2Proof.Machine.execTapTest h p s
  | .tapTestDone lane rho => Sys2Proof.Machine.execTapTestDone lane rho s
  | .netPortSet h p => Sys2Proof.Machine.execNetPortSet h p s
  | .netPortEnable h p => Sys2Proof.Machine.execNetPortEnable h p s
  | .portTransitionDone port => Sys2Proof.Machine.execPortTransitionDone port s
  | .netIfSet h p => Sys2Proof.Machine.execNetIfSet h p s
  | .netPairSet h p => Sys2Proof.Machine.execNetPairSet h p s
  | .netAnvilSet h p => Sys2Proof.Machine.execNetAnvilSet h p s
  | .netStatus h p => Sys2Proof.Machine.execNetStatus h p s
  | .netPairStatus h p => Sys2Proof.Machine.execNetPairStatus h p s
  | .timeSet h p => Sys2Proof.Machine.execTimeSet h p s
  | .timeRead h p => Sys2Proof.Machine.execTimeRead h p s
  | .ptpSet h p => Sys2Proof.Machine.execPtpSet h p s
  | .ptpStatus h p => Sys2Proof.Machine.execPtpStatus h p s
  | .ptpSamples h p => Sys2Proof.Machine.execPtpSamples h p s
  | .tpoSet h p => Sys2Proof.Machine.execTpoSet h p s
  | .tciSet h p => Sys2Proof.Machine.execTciSet h p s
  | .tciRead h p => Sys2Proof.Machine.execTciRead h p s
  | .memStatus h p => Sys2Proof.Machine.execMemStatus h p s
  | .memTimingSet h p => Sys2Proof.Machine.execMemTimingSet h p s
  | .memFreq h p => Sys2Proof.Machine.execMemFreq h p s
  | .memFreqDone => Sys2Proof.Machine.execMemFreqDone s
  | .memTest h p => Sys2Proof.Machine.execMemTest h p s
  | .memTestDone n errors first dq corrected => Sys2Proof.Machine.execMemTestDone n errors first dq corrected s
  | .memNbrSet h p => Sys2Proof.Machine.execMemNbrSet h p s
  | .clkStatus h p => Sys2Proof.Machine.execClkStatus h p s
  | .clkConfig h p => Sys2Proof.Machine.execClkConfig h p s
  | .clkSelect h p => Sys2Proof.Machine.execClkSelect h p s
  | .camSet h p => Sys2Proof.Machine.execCamSet h p s
  | .camEnable h p => Sys2Proof.Machine.execCamEnable h p s
  | .camTransitionDone c => Sys2Proof.Machine.execCamTransitionDone c s
  | .camPipeSet h p => Sys2Proof.Machine.execCamPipeSet h p s
  | .camStatsSet h p => Sys2Proof.Machine.execCamStatsSet h p s
  | .camStatus h p => Sys2Proof.Machine.execCamStatus h p s
  | .trimRun h p => Sys2Proof.Machine.execTrimRun h p s
  | .trimJobDone a b cond failed => Sys2Proof.Machine.execTrimJobDone a b cond failed s
  | .trimRead h p => Sys2Proof.Machine.execTrimRead h p s
  | .trimWrite h p => Sys2Proof.Machine.execTrimWrite h p s
  | .thmStatus h p => Sys2Proof.Machine.execThmStatus h p s
  | .thmAck h p => Sys2Proof.Machine.execThmAck h p s
  | .thmSet h p => Sys2Proof.Machine.execThmSet h p s
  | .hkRead h p => Sys2Proof.Machine.execHkRead h p s
  | .tinkerSwitch h p => Sys2Proof.Machine.execTinkerSwitch h p s
  | .bootcfgSet h p => Sys2Proof.Machine.execBootcfgSet h p s
  | .ageSet h p => Sys2Proof.Machine.execAgeSet h p s
  | .ageReplan h p => Sys2Proof.Machine.execAgeReplan h p s
  | .ageSample h p => Sys2Proof.Machine.execAgeSample h p s
  | .ashStatus h p => Sys2Proof.Machine.execAshStatus h p s
  | .ashRead h p => Sys2Proof.Machine.execAshRead h p s
  | .ashNote h p => Sys2Proof.Machine.execAshNote h p s
  | .ashClear h p => Sys2Proof.Machine.execAshClear h p s
  | .updateStage h p => Sys2Proof.Machine.execUpdateStage h p s
  | .updateActivate h p => Sys2Proof.Machine.execUpdateActivate h p s
  | .updateStatus h p => Sys2Proof.Machine.execUpdateStatus h p s
  | .encStreamSet h p => Sys2Proof.Machine.execEncStreamSet h p s
  | .encStreamEnable h p => Sys2Proof.Machine.execEncStreamEnable h p s
  | .encViewSet h p => Sys2Proof.Machine.execEncViewSet h p s
  | .encKey h p => Sys2Proof.Machine.execEncKey h p s
  | .encStatus h p => Sys2Proof.Machine.execEncStatus h p s
  | .ingotJob h p => Sys2Proof.Machine.execIngotJob h p s
  | .ingotJobRun => Sys2Proof.Machine.execIngotJobRun s
  | .ingotFree h p => Sys2Proof.Machine.execIngotFree h p s
  | .ingotStatus h p => Sys2Proof.Machine.execIngotStatus h p s
  | .cpWrite first data => Sys2Proof.Machine.execCpWrite first data s
  | .cpRead first clocked => Sys2Proof.Machine.execCpRead first clocked s
  | .cpStatus first => Sys2Proof.Machine.execCpStatus first s
  | .cpAbandon first data => Sys2Proof.Machine.execCpAbandon first data s
  | .heldReplyEnqueue => Sys2Proof.Machine.execHeldReplyEnqueue s
  | .fragmentTimeout src ident => Sys2Proof.Machine.execFragmentTimeout src ident s
  | .sessionIdleTimeout session => Sys2Proof.Machine.execSessionIdleTimeout session s
  | .authOpenTimeout session => Sys2Proof.Machine.execAuthOpenTimeout session s
  | .flitGroupReplay link again => Sys2Proof.Machine.execFlitGroupReplay link again s
  | .fabricHeartbeat link => Sys2Proof.Machine.execFabricHeartbeat link s
  | .fabricLinkDown link => Sys2Proof.Machine.execFabricLinkDown link s
  | .fabricLinkRestore link => Sys2Proof.Machine.execFabricLinkRestore link s
  | .hobWatchdogTimeout hob => Sys2Proof.Machine.execHobWatchdogTimeout hob s
  | .hobDieFail hob => Sys2Proof.Machine.execHobDieFail hob s
  | .viewReplace => Sys2Proof.Machine.execViewReplace s
  | .cellCheckFail die g c cause => Sys2Proof.Machine.execCellCheckFail die g c cause s
  | .ashSummary => Sys2Proof.Machine.execAshSummary s
  | .damperFwdLoss f => Sys2Proof.Machine.execDamperFwdLoss f s
  | .damperFwdRestore f => Sys2Proof.Machine.execDamperFwdRestore f s
  | .damperLaneLoss lane => Sys2Proof.Machine.execDamperLaneLoss lane s
  | .laneReverseDone => Sys2Proof.Machine.execLaneReverseDone s
  | .creditRegrant f => Sys2Proof.Machine.execCreditRegrant f s
  | .timeFwdSend => Sys2Proof.Machine.execTimeFwdSend s
  | .timeFwd die w0 w1 chk => Sys2Proof.Machine.execTimeFwd die w0 w1 chk s
  | .flueSynthHoldover die => Sys2Proof.Machine.execFlueSynthHoldover die s
  | .abandon link frame => Sys2Proof.Machine.execAbandon link frame s
  | .damperCommitPart die words seq chk => Sys2Proof.Machine.execDamperCommitPart die words seq chk s
  | .damperRegWrite die addr value seq chk => Sys2Proof.Machine.execDamperRegWrite die addr value seq chk s
  | .damperRegRead die addr seq chk => Sys2Proof.Machine.execDamperRegRead die addr seq chk s
  | .pixelRun die words chk => Sys2Proof.Machine.execPixelRun die words chk s
  | .bulkWrite die addr count words seq chk => Sys2Proof.Machine.execBulkWrite die addr count words seq chk s
  | .pfail f cause frame chk => Sys2Proof.Machine.execPfail f cause frame chk s
  | .credit f words chk => Sys2Proof.Machine.execCredit f words chk s
  | .frameReport f words chk => Sys2Proof.Machine.execFrameReport f words chk s
  | .event f source chk => Sys2Proof.Machine.execEvent f source chk s
  | .regReply f word chk => Sys2Proof.Machine.execRegReply f word chk s
  | .telemetry f words chk => Sys2Proof.Machine.execTelemetry f words chk s
  | .returnHeartbeatSend => Sys2Proof.Machine.execReturnHeartbeatSend s
  | .damperReplyTimeout die ty seq => Sys2Proof.Machine.execDamperReplyTimeout die ty seq s
  | .rtpPacketRx slot src ts gap mark donl data => Sys2Proof.Machine.execRtpPacketRx slot src ts gap mark donl data s
  | .pathPacketRx slot src path pt ssrc seq ts mark donl data => Sys2Proof.Machine.execPathPacketRx slot src path pt ssrc seq ts mark donl data s
  | .mergeWindowSweep => Sys2Proof.Machine.execMergeWindowSweep s
  | .pathDown slot src path => Sys2Proof.Machine.execPathDown slot src path s
  | .ssrcTimeout slot src => Sys2Proof.Machine.execSsrcTimeout slot src s
  | .sliceSegmentParse hob engine x => Sys2Proof.Machine.execSliceSegmentParse hob engine x s
  | .ctuRowReconstruct hob engine => Sys2Proof.Machine.execCtuRowReconstruct hob engine s
  | .accessUnitClose slot src poc total rows => Sys2Proof.Machine.execAccessUnitClose slot src poc total rows s
  | .uncompressedPictureClose slot src => Sys2Proof.Machine.execUncompressedPictureClose slot src s
  | .pictureLate slot view depth => Sys2Proof.Machine.execPictureLate slot view depth s
  | .pickTime frame => Sys2Proof.Machine.execPickTime frame s
  | .stripDeal region view idx frame => Sys2Proof.Machine.execStripDeal region view idx frame s
  | .stripBegin region view idx frame => Sys2Proof.Machine.execStripBegin region view idx frame s
  | .stripComplete region view idx frame badViews badLayers => Sys2Proof.Machine.execStripComplete region view idx frame badViews badLayers s
  | .stripLineSend region view idx frame => Sys2Proof.Machine.execStripLineSend region view idx frame s
  | .stripRescue region view idx frame => Sys2Proof.Machine.execStripRescue region view idx frame s
  | .stripDeadlineMiss region view idx frame => Sys2Proof.Machine.execStripDeadlineMiss region view idx frame s
  | .redoneStripComplete badViews badLayers => Sys2Proof.Machine.execRedoneStripComplete badViews badLayers s
  | .excusedLineSend region view idx frame => Sys2Proof.Machine.execExcusedLineSend region view idx frame s
  | .monitorStrip slot idx die grate badViews badLayers => Sys2Proof.Machine.execMonitorStrip slot idx die grate badViews badLayers s
  | .layerRelease layer => Sys2Proof.Machine.execLayerRelease layer s
  | .bindingPoint => Sys2Proof.Machine.execBindingPoint s
  | .frameStart => Sys2Proof.Machine.execFrameStart s
  | .latchLine f => Sys2Proof.Machine.execLatchLine f s
  | .lineSend link line => Sys2Proof.Machine.execLineSend link line s
  | .fsyncInEdge falling => Sys2Proof.Machine.execFsyncInEdge falling s
  | .fsyncLost => Sys2Proof.Machine.execFsyncLost s
  | .filmFrameStart => Sys2Proof.Machine.execFilmFrameStart s
  | .filmPulseEnd => Sys2Proof.Machine.execFilmPulseEnd s
  | .powerFail f cause => Sys2Proof.Machine.execPowerFail f cause s
  | .parkStep f => Sys2Proof.Machine.execParkStep f s
  | .powerReturn f => Sys2Proof.Machine.execPowerReturn f s
  | .slotStart => Sys2Proof.Machine.execSlotStart s
  | .lampTransaction seg status value => Sys2Proof.Machine.execLampTransaction seg status value s
  | .lampReplyTimeout seg crc => Sys2Proof.Machine.execLampReplyTimeout seg crc s
  | .lostNodePoll seg addr reply => Sys2Proof.Machine.execLostNodePoll seg addr reply s
  | .lampEnumerate seg found => Sys2Proof.Machine.execLampEnumerate seg found s
  | .lampWritesDone => Sys2Proof.Machine.execLampWritesDone s
  | .bellowsTick f frame samples => Sys2Proof.Machine.execBellowsTick f frame samples s
  | .markerRound link => Sys2Proof.Machine.execMarkerRound link s
  | .laneLoss lane => Sys2Proof.Machine.execLaneLoss lane s
  | .hello link id caps => Sys2Proof.Machine.execHello link id caps s
  | .backStatus link locked blocks deskewed shErr eyeH eyeV bad => Sys2Proof.Machine.execBackStatus link locked blocks deskewed shErr eyeH eyeV bad s
  | .eqReq link lane done pre main post => Sys2Proof.Machine.execEqReq link lane done pre main post s
  | .lstat die locked order => Sys2Proof.Machine.execLstat die locked order s
  | .trainPhaseAdvance link => Sys2Proof.Machine.execTrainPhaseAdvance link s
  | .linkPhaseTimeout link => Sys2Proof.Machine.execLinkPhaseTimeout link s
  | .listenRetry link => Sys2Proof.Machine.execListenRetry link s
  | .linkTransitionDone link => Sys2Proof.Machine.execLinkTransitionDone link s
  | .laneRetrain link lane pass => Sys2Proof.Machine.execLaneRetrain link lane pass s
  | .linkStartupSequence => Sys2Proof.Machine.execLinkStartupSequence s
  | .sleepBurst link => Sys2Proof.Machine.execSleepBurst link s
  | .ethFrameRx iface fcs corrected failed frame => Sys2Proof.Machine.execEthFrameRx iface fcs corrected failed frame s
  | .portLinkChange iface up => Sys2Proof.Machine.execPortLinkChange iface up s
  | .ptpAnnounceRx iface port pri1 cls acc var pri2 gm steps domain logInt tlv addr => Sys2Proof.Machine.execPtpAnnounceRx iface port pri1 cls acc var pri2 gm steps domain logInt tlv addr s
  | .ptpSyncRx iface port domain logInt two seq t1 => Sys2Proof.Machine.execPtpSyncRx iface port domain logInt two seq t1 s
  | .delayRespRx iface port domain seq t4 => Sys2Proof.Machine.execDelayRespRx iface port domain seq t4 s
  | .delayReqTimeout => Sys2Proof.Machine.execDelayReqTimeout s
  | .announceTimeout iface port => Sys2Proof.Machine.execAnnounceTimeout iface port s
  | .holdLimitExpire => Sys2Proof.Machine.execHoldLimitExpire s
  | .ppsInEdge => Sys2Proof.Machine.execPpsInEdge s
  | .ppsMissing => Sys2Proof.Machine.execPpsMissing s
  | .captureEdge pin rising => Sys2Proof.Machine.execCaptureEdge pin rising s
  | .tpoFire pin => Sys2Proof.Machine.execTpoFire pin s
  | .ptpAdjGo base frac => Sys2Proof.Machine.execPtpAdjGo base frac s
  | .ptpIncrWrite base ns => Sys2Proof.Machine.execPtpIncrWrite base ns s
  | .ptpTimeLatchRead base => Sys2Proof.Machine.execPtpTimeLatchRead base s
  | .twinHeartbeatRx src role stack frame start sigs => Sys2Proof.Machine.execTwinHeartbeatRx src role stack frame start sigs s
  | .twinHeartbeatMissing => Sys2Proof.Machine.execTwinHeartbeatMissing s
  | .memRequest n line write row err synd inflight => Sys2Proof.Machine.execMemRequest n line write row err synd inflight s
  | .scrubRead n line err synd last => Sys2Proof.Machine.execScrubRead n line err synd last s
  | .memRefresh n => Sys2Proof.Machine.execMemRefresh n s
  | .mr4Poll n mr4 hot => Sys2Proof.Machine.execMr4Poll n mr4 hot s
  | .actWindowStart n => Sys2Proof.Machine.execActWindowStart n s
  | .memChannelFreqChange n => Sys2Proof.Machine.execMemChannelFreqChange n s
  | .dqsRetrack n ok => Sys2Proof.Machine.execDqsRetrack n ok s
  | .memRequestTimeout n => Sys2Proof.Machine.execMemRequestTimeout n s
  | .channelFail n cause => Sys2Proof.Machine.execChannelFail n cause s
  | .bufferReplace n => Sys2Proof.Machine.execBufferReplace n s
  | .mapMirrorRecreate hob => Sys2Proof.Machine.execMapMirrorRecreate hob s
  | .refLoss ref => Sys2Proof.Machine.execRefLoss ref s
  | .refValid ref => Sys2Proof.Machine.execRefValid ref s
  | .mainLockLoss die => Sys2Proof.Machine.execMainLockLoss die s
  | .pllLockAcquire die pll => Sys2Proof.Machine.execPllLockAcquire die pll s
  | .mainReturn die => Sys2Proof.Machine.execMainReturn die s
  | .spareLockLoss die => Sys2Proof.Machine.execSpareLockLoss die s
  | .camFrameStart c => Sys2Proof.Machine.execCamFrameStart c s
  | .camLineRx c vc dtype hdr crcOk line => Sys2Proof.Machine.execCamLineRx c vc dtype hdr crcOk line s
  | .camFrameEnd c => Sys2Proof.Machine.execCamFrameEnd c s
  | .camFrameTimeout c => Sys2Proof.Machine.execCamFrameTimeout c s
  | .camLost c => Sys2Proof.Machine.execCamLost c s
  | .pipeLineTake => Sys2Proof.Machine.execPipeLineTake s
  | .cciWrite c ack => Sys2Proof.Machine.execCciWrite c ack s
  | .cciListTimeout c => Sys2Proof.Machine.execCciListTimeout c s
  | .tinkerCoreSwitch cause => Sys2Proof.Machine.execTinkerCoreSwitch cause s
  | .coreSelftestDone pass => Sys2Proof.Machine.execCoreSelftestDone pass s
  | .stateTableCheck ok => Sys2Proof.Machine.execStateTableCheck ok s
  | .hkRoundEnd => Sys2Proof.Machine.execHkRoundEnd s
  | .flueThermalShutdown f => Sys2Proof.Machine.execFlueThermalShutdown f s
  | .ashAppend a b => Sys2Proof.Machine.execAshAppend a b s
  | .ashScan => Sys2Proof.Machine.execAshScan s
  | .ageSampleTick pairs scan day => Sys2Proof.Machine.execAgeSampleTick pairs scan day s
  | .replanRun nack => Sys2Proof.Machine.execReplanRun nack s
  | .updateSwap => Sys2Proof.Machine.execUpdateSwap s
  | .updateActivateDone => Sys2Proof.Machine.execUpdateActivateDone s
  | .irqDoorbell source => Sys2Proof.Machine.execIrqDoorbell source s
  | .irqClaim => Sys2Proof.Machine.execIrqClaim s
  | .irqComplete source nocause => Sys2Proof.Machine.execIrqComplete source nocause s
  | .groupHoldoffEnd group => Sys2Proof.Machine.execGroupHoldoffEnd group s
  | .irqWake => Sys2Proof.Machine.execIrqWake s
  | .encPictureTime => Sys2Proof.Machine.execEncPictureTime s
  | .encRowCode slot size cheap blocks => Sys2Proof.Machine.execEncRowCode slot size cheap blocks s
  | .encSliceSend slot nals => Sys2Proof.Machine.execEncSliceSend slot nals s
  | .encTransitionDone slot => Sys2Proof.Machine.execEncTransitionDone slot s
  | .resetRelease => Sys2Proof.Machine.execResetRelease s
  | .flueResetRelease => Sys2Proof.Machine.execFlueResetRelease s
  | .startupStageComplete stage chans vout => Sys2Proof.Machine.execStartupStageComplete stage chans vout s
  | .damperHalfJoin f => Sys2Proof.Machine.execDamperHalfJoin f s
  | .railComparatorTrip rail high => Sys2Proof.Machine.execRailComparatorTrip rail high s
  | .pwrSafeWrite value => Sys2Proof.Machine.execPwrSafeWrite value s
  | .pwrShutdownWrite f value => Sys2Proof.Machine.execPwrShutdownWrite f value s
  | .pwrFlueResetWrite f value => Sys2Proof.Machine.execPwrFlueResetWrite f value s
  | .registerWrite addr value => Sys2Proof.Machine.execRegisterWrite addr value s
  | .resetAssert => Sys2Proof.Machine.execResetAssert s
  | .flueResetAssert powerOn => Sys2Proof.Machine.execFlueResetAssert powerOn s
  | .housekeepingSample ch raw => Sys2Proof.Machine.execHousekeepingSample ch raw s
  | .ptpFollowUpRx iface port domain seq t1 => Sys2Proof.Machine.execPtpFollowUpRx iface port domain seq t1 s
  | .delayReqSend => Sys2Proof.Machine.execDelayReqSend s
  | .ashClearDone ok => Sys2Proof.Machine.execAshClearDone ok s
  | .updateStageDone => Sys2Proof.Machine.execUpdateStageDone s
  | .standbyPatchReady ok => Sys2Proof.Machine.execStandbyPatchReady ok s
  | .tinkerDomainStop => Sys2Proof.Machine.execTinkerDomainStop s

end Sys2Proof.Machine
end

