-- ==== Sys2Proof/Machine/Wire.lean ====
section
/-! DEFINITION. From a packet to a command: the opcodes of the opcode map (R59). -/

namespace Sys2Proof.Machine

/-- R59: the command of an opcode; none for an opcode that is not assigned. -/
def commandOf (op : Nat) (h : Hdr) (p : Bytes) : Option Instr :=
  match op with
  | 0x0001 => some (.identity h p)
  | 0x0002 => some (.status h p)
  | 0x0003 => some (.abort h p)
  | 0x0004 => some (.sessionOpen h p)
  | 0x0005 => some (.sessionClose h p)
  | 0x0006 => some (.keySet h p)
  | 0x0007 => some (.stackSet h p)
  | 0x0008 => some (.modeSet h p)
  | 0x0009 => some (.eventSelect h p)
  | 0x000A => some (.eventReplay h p)
  | 0x0100 => some (.regRead h p)
  | 0x0101 => some (.regWrite h p)
  | 0x0102 => some (.regModify h p)
  | 0x0200 => some (.bufCreate h p)
  | 0x0201 => some (.bufWrite h p)
  | 0x0202 => some (.bufRead h p)
  | 0x0203 => some (.bufFree h p)
  | 0x0204 => some (.surfUpload h p)
  | 0x1000 => some (.raymodelSet h p)
  | 0x1001 => some (.raymodelGet h p)
  | 0x1002 => some (.aimSet h p)
  | 0x1003 => some (.planishLoad h p)
  | 0x1004 => some (.planishClone h p)
  | 0x1005 => some (.planishSelect h p)
  | 0x1006 => some (.planishRead h p)
  | 0x1007 => some (.planishStatus h p)
  | 0x1100 => some (.decodeStreamSet h p)
  | 0x1101 => some (.decodeStreamEnable h p)
  | 0x1102 => some (.decodePriority h p)
  | 0x1103 => some (.decodeAssign h p)
  | 0x1104 => some (.decodeStatus h p)
  | 0x1105 => some (.decodeEvents h p)
  | 0x1200 => some (.synSourceSet h p)
  | 0x1201 => some (.synSourceGet h p)
  | 0x1202 => some (.synConfig h p)
  | 0x1203 => some (.synStatus h p)
  | 0x1204 => some (.synGrateSet h p)
  | 0x1300 => some (.surfaceCreate h p)
  | 0x1301 => some (.surfaceFree h p)
  | 0x1302 => some (.layerSet h p)
  | 0x1303 => some (.layerStatus h p)
  | 0x1304 => some (.fenceOp h p)
  | 0x1400 => some (.blit h p)
  | 0x1500 => some (.rasterSet h p)
  | 0x1501 => some (.rasterEnable h p)
  | 0x1502 => some (.commit h p)
  | 0x1503 => some (.genlockSet h p)
  | 0x1504 => some (.rasterStatus h p)
  | 0x1505 => some (.signatureRead h p)
  | 0x2000 => some (.panelCurveSet h p)
  | 0x2001 => some (.filmTableSet h p)
  | 0x2002 => some (.filmConfig h p)
  | 0x2003 => some (.filmEnable h p)
  | 0x2004 => some (.filmUpdate h p)
  | 0x2005 => some (.filmStatus h p)
  | 0x2006 => some (.panelRetain h p)
  | 0x2100 => some (.quenchConfig h p)
  | 0x2101 => some (.projCurveSet h p)
  | 0x2102 => some (.quenchStatus h p)
  | 0x2200 => some (.lampEnable h p)
  | 0x2201 => some (.lampChannelSet h p)
  | 0x2202 => some (.lampTableSet h p)
  | 0x2203 => some (.lampSetpoint h p)
  | 0x2204 => some (.lampClear h p)
  | 0x2205 => some (.lampNodes h p)
  | 0x2206 => some (.lampNodeAccess h p)
  | 0x2300 => some (.bellowsLoopSet h p)
  | 0x2301 => some (.bellowsCoeffSet h p)
  | 0x2302 => some (.bellowsSwap h p)
  | 0x2303 => some (.bellowsSetpoint h p)
  | 0x2304 => some (.bellowsEnable h p)
  | 0x2305 => some (.bellowsStatus h p)
  | 0x3000 => some (.linkEnable h p)
  | 0x3001 => some (.linkStatus h p)
  | 0x3002 => some (.lanePower h p)
  | 0x3003 => some (.eyeScan h p)
  | 0x3004 => some (.tapTest h p)
  | 0x3100 => some (.netPortSet h p)
  | 0x3101 => some (.netPortEnable h p)
  | 0x3102 => some (.netIfSet h p)
  | 0x3103 => some (.netPairSet h p)
  | 0x3104 => some (.netAnvilSet h p)
  | 0x3105 => some (.netStatus h p)
  | 0x3106 => some (.netPairStatus h p)
  | 0x3200 => some (.timeSet h p)
  | 0x3201 => some (.timeRead h p)
  | 0x3202 => some (.ptpSet h p)
  | 0x3203 => some (.ptpStatus h p)
  | 0x3204 => some (.ptpSamples h p)
  | 0x3205 => some (.tpoSet h p)
  | 0x3206 => some (.tciSet h p)
  | 0x3207 => some (.tciRead h p)
  | 0x3300 => some (.memStatus h p)
  | 0x3301 => some (.memTimingSet h p)
  | 0x3302 => some (.memFreq h p)
  | 0x3303 => some (.memTest h p)
  | 0x3304 => some (.memNbrSet h p)
  | 0x3400 => some (.clkStatus h p)
  | 0x3401 => some (.clkConfig h p)
  | 0x3402 => some (.clkSelect h p)
  | 0x4000 => some (.camSet h p)
  | 0x4001 => some (.camEnable h p)
  | 0x4002 => some (.camPipeSet h p)
  | 0x4003 => some (.camStatsSet h p)
  | 0x4004 => some (.camStatus h p)
  | 0x4100 => some (.trimRun h p)
  | 0x4101 => some (.trimRead h p)
  | 0x4102 => some (.trimWrite h p)
  | 0x5000 => some (.thmStatus h p)
  | 0x5001 => some (.thmAck h p)
  | 0x5002 => some (.thmSet h p)
  | 0x5003 => some (.hkRead h p)
  | 0x5004 => some (.tinkerSwitch h p)
  | 0x5005 => some (.bootcfgSet h p)
  | 0x5006 => some (.ageSet h p)
  | 0x5007 => some (.ageReplan h p)
  | 0x5008 => some (.ageSample h p)
  | 0x5100 => some (.ashStatus h p)
  | 0x5101 => some (.ashRead h p)
  | 0x5102 => some (.ashNote h p)
  | 0x5103 => some (.ashClear h p)
  | 0x5200 => some (.updateStage h p)
  | 0x5201 => some (.updateActivate h p)
  | 0x5202 => some (.updateStatus h p)
  | 0x6000 => some (.encStreamSet h p)
  | 0x6001 => some (.encStreamEnable h p)
  | 0x6002 => some (.encViewSet h p)
  | 0x6003 => some (.encKey h p)
  | 0x6004 => some (.encStatus h p)
  | 0x6100 => some (.ingotJob h p)
  | 0x6101 => some (.ingotFree h p)
  | 0x6102 => some (.ingotStatus h p)
  | _ => none

end Sys2Proof.Machine
end

