-- ==== Sys2Proof/Machine/Idle.lean ====
section
/-! DEFINITION. What the block does by itself when no command from outside waits. -/

namespace Sys2Proof.Machine

/-- What an idle step does: run a command that the block holds, or change the device alone. -/
inductive IdleNext where
  | command (i : Instr) (d : Dev)
  | quiet (d : Dev)

/-- R52: the first waiting command whose wait is over: it is the first of its sender, and what it waits for has passed. -/
def Dev.resumable (d : Dev) : Option Instr :=
  d.anvil.waiting.find? fun i =>
    match i.hdr?, d.anvil.inFlight.find? fun c => some c.h = i.hdr? with
    | some h, some c =>
      (d.waitingOf h).head? == some i && !d.mustWait c.who h 3 && (isAbort i || !(h.ordered && (d.inFlightOf c.who).head? != some c))
    | _, _ => true

/-- A tick of the time clock: each base adds its increment (R362); log entry 10. -/
def Dev.tick (d : Dev) : Dev :=
  { d with time := { d.time with t := (List.zipWith (· + ·) d.time.t d.time.incr).map fun x => x % (2 ^ 48 * 10 ^ 9 * 2 ^ 32) } }

/-- A packet received is interpreted: its command, or the answer to an opcode that is not assigned. -/
def Dev.interpret (d : Dev) (r : Route) (b : Bytes) : IdleNext :=
  match parsePkt r b with
  | none => .quiet d
  | some (h, op, p) =>
    match commandOf op h p with
    | some i => .command i d
    | none => .quiet (gate { op := op, known := false, len := fun _ => true } h p (.identity h p) { dev := d, heap := {}, pending := [] }).1

/-- What the idle block does next. -/
def idleNext (d : Dev) : IdleNext :=
  match (if d.mute then none else d.resumable) with
  | some i => .command i { d with anvil := { d.anvil with resuming := true, waiting := d.anvil.waiting.erase i } }
  | none =>
    match d.cp.inbound, d.anvil.inbound with
    | b :: rest, _ => ({ d with cp := { d.cp with inbound := rest, full := false } } : Dev).interpret .cp b
    | [], x :: rest => ({ d with anvil := { d.anvil with inbound := rest } } : Dev).interpret x.route x.bytes
    | [], [] => .quiet d.tick

end Sys2Proof.Machine
end

