-- ==== Sys2Proof/Machine/Step.lean ====
section
/-! DEFINITION. The step: the command at the front of the queue is run; with an empty queue the block goes on by itself. -/

namespace Sys2Proof.Machine

/-- One step. On an empty queue the block runs what it holds itself, in this order: a waiting Anvil command whose wait is
over (R52), the oldest packet received (R44, R46), else a tick of the time bases (log entry 10). -/
def step (s : State) : Host.Outcome State Fault Refusal :=
  match s.pending with
  | c :: rest => exec c { s with pending := rest }
  | [] =>
    match idleNext s.dev with
    | .command i d => exec i { s with dev := d }
    | .quiet d => .next { s with dev := d }

/-- The state with the command a word spells in front of its queue: no word spells one. -/
def State.withFetchWord (s : State) (nbits w : Nat) : State :=
  match decodeTableWord nbits w with
  | some i => { s with pending := i :: s.pending }
  | none => s

end Sys2Proof.Machine
end

