-- ==== Sys2Proof/Machine/Opcodes.lean ====
section
/-! DEFINITION. What the gate must know of every Anvil command (R53, R59): its opcode, its LENGTHs, its parameter check. -/

namespace Sys2Proof.Machine

/-- The opcode row of an Anvil command; none for an event. -/
def opSpec (i : Instr) : Option OpSpec :=
  match i with
  | .identity _ _ => some specIdentity
  | .status _ _ => some specStatus
  | .abort _ _ => some specAbort
  | .sessionOpen _ _ => some specSessionOpen
  | .sessionClose _ _ => some specSessionClose
  | .keySet _ _ => some specKeySet
  | .stackSet _ _ => some specStackSet
  | .modeSet _ _ => some specModeSet
  | .eventSelect _ _ => some specEventSelect
  | .eventReplay _ _ => some specEventReplay
  | .regRead _ _ => some specRegRead
  | .regWrite _ _ => some specRegWrite
  | .regModify _ _ => some specRegModify
  | .bufCreate _ _ => some specBufCreate
  | .bufWrite _ _ => some specBufWrite
  | .bufRead _ _ => some specBufRead
  | .bufFree _ _ => some specBufFree
  | .surfUpload _ _ => some specSurfUpload
  | .raymodelSet _ _ => some specRaymodelSet
  | .raymodelGet _ _ => some specRaymodelGet
  | .aimSet _ _ => some specAimSet
  | .planishLoad _ _ => some specPlanishLoad
  | .planishClone _ _ => some specPlanishClone
  | .planishSelect _ _ => some specPlanishSelect
  | .planishRead _ _ => some specPlanishRead
  | .planishStatus _ _ => some specPlanishStatus
  | .decodeStreamSet _ _ => some specDecodeStreamSet
  | .decodeStreamEnable _ _ => some specDecodeStreamEnable
  | .decodePriority _ _ => some specDecodePriority
  | .decodeAssign _ _ => some specDecodeAssign
  | .decodeStatus _ _ => some specDecodeStatus
  | .decodeEvents _ _ => some specDecodeEvents
  | .synSourceSet _ _ => some specSynSourceSet
  | .synSourceGet _ _ => some specSynSourceGet
  | .synConfig _ _ => some specSynConfig
  | .synStatus _ _ => some specSynStatus
  | .synGrateSet _ _ => some specSynGrateSet
  | .surfaceCreate _ _ => some specSurfaceCreate
  | .surfaceFree _ _ => some specSurfaceFree
  | .layerSet _ _ => some specLayerSet
  | .layerStatus _ _ => some specLayerStatus
  | .fenceOp _ _ => some specFenceOp
  | .blit _ _ => some specBlit
  | .rasterSet _ _ => some specRasterSet
  | .rasterEnable _ _ => some specRasterEnable
  | .commit _ _ => some specCommit
  | .genlockSet _ _ => some specGenlockSet
  | .rasterStatus _ _ => some specRasterStatus
  | .signatureRead _ _ => some specSignatureRead
  | .panelCurveSet _ _ => some specPanelCurveSet
  | .filmTableSet _ _ => some specFilmTableSet
  | .filmConfig _ _ => some specFilmConfig
  | .filmEnable _ _ => some specFilmEnable
  | .filmUpdate _ _ => some specFilmUpdate
  | .filmStatus _ _ => some specFilmStatus
  | .panelRetain _ _ => some specPanelRetain
  | .quenchConfig _ _ => some specQuenchConfig
  | .projCurveSet _ _ => some specProjCurveSet
  | .quenchStatus _ _ => some specQuenchStatus
  | .lampEnable _ _ => some specLampEnable
  | .lampChannelSet _ _ => some specLampChannelSet
  | .lampTableSet _ _ => some specLampTableSet
  | .lampSetpoint _ _ => some specLampSetpoint
  | .lampClear _ _ => some specLampClear
  | .lampNodes _ _ => some specLampNodes
  | .lampNodeAccess _ _ => some specLampNodeAccess
  | .bellowsLoopSet _ _ => some specBellowsLoopSet
  | .bellowsCoeffSet _ _ => some specBellowsCoeffSet
  | .bellowsSwap _ _ => some specBellowsSwap
  | .bellowsSetpoint _ _ => some specBellowsSetpoint
  | .bellowsEnable _ _ => some specBellowsEnable
  | .bellowsStatus _ _ => some specBellowsStatus
  | .linkEnable _ _ => some specLinkEnable
  | .linkStatus _ _ => some specLinkStatus
  | .lanePower _ _ => some specLanePower
  | .eyeScan _ _ => some specEyeScan
  | .tapTest _ _ => some specTapTest
  | .netPortSet _ _ => some specNetPortSet
  | .netPortEnable _ _ => some specNetPortEnable
  | .netIfSet _ _ => some specNetIfSet
  | .netPairSet _ _ => some specNetPairSet
  | .netAnvilSet _ _ => some specNetAnvilSet
  | .netStatus _ _ => some specNetStatus
  | .netPairStatus _ _ => some specNetPairStatus
  | .timeSet _ _ => some specTimeSet
  | .timeRead _ _ => some specTimeRead
  | .ptpSet _ _ => some specPtpSet
  | .ptpStatus _ _ => some specPtpStatus
  | .ptpSamples _ _ => some specPtpSamples
  | .tpoSet _ _ => some specTpoSet
  | .tciSet _ _ => some specTciSet
  | .tciRead _ _ => some specTciRead
  | .memStatus _ _ => some specMemStatus
  | .memTimingSet _ _ => some specMemTimingSet
  | .memFreq _ _ => some specMemFreq
  | .memTest _ _ => some specMemTest
  | .memNbrSet _ _ => some specMemNbrSet
  | .clkStatus _ _ => some specClkStatus
  | .clkConfig _ _ => some specClkConfig
  | .clkSelect _ _ => some specClkSelect
  | .camSet _ _ => some specCamSet
  | .camEnable _ _ => some specCamEnable
  | .camPipeSet _ _ => some specCamPipeSet
  | .camStatsSet _ _ => some specCamStatsSet
  | .camStatus _ _ => some specCamStatus
  | .trimRun _ _ => some specTrimRun
  | .trimRead _ _ => some specTrimRead
  | .trimWrite _ _ => some specTrimWrite
  | .thmStatus _ _ => some specThmStatus
  | .thmAck _ _ => some specThmAck
  | .thmSet _ _ => some specThmSet
  | .hkRead _ _ => some specHkRead
  | .tinkerSwitch _ _ => some specTinkerSwitch
  | .bootcfgSet _ _ => some specBootcfgSet
  | .ageSet _ _ => some specAgeSet
  | .ageReplan _ _ => some specAgeReplan
  | .ageSample _ _ => some specAgeSample
  | .ashStatus _ _ => some specAshStatus
  | .ashRead _ _ => some specAshRead
  | .ashNote _ _ => some specAshNote
  | .ashClear _ _ => some specAshClear
  | .updateStage _ _ => some specUpdateStage
  | .updateActivate _ _ => some specUpdateActivate
  | .updateStatus _ _ => some specUpdateStatus
  | .encStreamSet _ _ => some specEncStreamSet
  | .encStreamEnable _ _ => some specEncStreamEnable
  | .encViewSet _ _ => some specEncViewSet
  | .encKey _ _ => some specEncKey
  | .encStatus _ _ => some specEncStatus
  | .ingotJob _ _ => some specIngotJob
  | .ingotFree _ _ => some specIngotFree
  | .ingotStatus _ _ => some specIngotStatus
  | _ => none

end Sys2Proof.Machine
end

