-- ==== Sys2Proof/WellFormed.lean ====
section
/-! DEFINITION. Well-formed commands: header fields within their widths (R38), parameter bytes within LENGTH (R38), and the indices
and fields of events within the numbers and widths of what they name. -/

namespace Sys2Proof

/-- R38, R40: the fields of a header are within their widths; a MAC has 32 bytes (R49). -/
def Hdr.wf (h : Hdr) : Bool :=
  decide (h.version < 2 ^ 8) && decide (h.session < 4) && decide (h.seq < 2 ^ 16) && decide (h.tmode < 4) && decide (h.tid < 2 ^ 14)
    && decide (h.tag < 2 ^ 32) && (match h.mac with | some m => m.length == 32 | none => true)

/-- The indices of an event are those of things the device has, and its fields are within their widths. -/
def Instr.inRange (i : Instr) : Bool :=
  match i with
  | .decodeTransitionDone slot => decide (slot < 8)
  | .surfaceFreeComplete handle => decide (handle < 65536)
  | .lampTransitionDone seg => decide (seg < 2)
  | .lanePowerDone link => decide (link < 8)
  | .portTransitionDone port => decide (port < 5)
  | .memTestDone n _ first dq _ => decide (n < 16) && decide (first < 2 ^ 64) && decide (dq < 65536)
  | .camTransitionDone c => decide (c < 2)
  | .cpWrite first _ => decide (first < 256)
  | .cpRead first _ => decide (first < 256)
  | .cpStatus first => decide (first < 256)
  | .cpAbandon first _ => decide (first < 256)
  | .fragmentTimeout src ident => decide (src < 2 ^ 32) && decide (ident < 65536)
  | .sessionIdleTimeout session => decide (session < 4)
  | .authOpenTimeout session => decide (session < 4)
  | .flitGroupReplay link _ => decide (link < 11)
  | .fabricHeartbeat link => decide (link < 11)
  | .fabricLinkDown link => decide (link < 11)
  | .fabricLinkRestore link => decide (link < 11)
  | .hobWatchdogTimeout hob => decide (hob < 4)
  | .hobDieFail hob => decide (hob < 4)
  | .cellCheckFail die g c cause => decide (die < 5) && decide (g < 3) && decide (c < 8) && decide (cause < 4)
  | .damperFwdLoss f => decide (f < 2)
  | .damperFwdRestore f => decide (f < 2)
  | .damperLaneLoss lane => decide (lane < 36)
  | .creditRegrant f => decide (f < 2)
  | .timeFwd die w0 w1 _ => decide (die < 10) && decide (w0 < 2 ^ 64) && decide (w1 < 2 ^ 64)
  | .flueSynthHoldover die => decide (die < 10)
  | .abandon link frame => decide (link < 8) && decide (frame < 2 ^ 48)
  | .damperCommitPart die _ seq _ => decide (die < 10) && decide (seq < 65536)
  | .damperRegWrite die addr value seq _ => decide (die < 10) && decide (addr < 2 ^ 32) && decide (value < 2 ^ 32) && decide (seq < 65536)
  | .damperRegRead die addr seq _ => decide (die < 10) && decide (addr < 2 ^ 32) && decide (seq < 65536)
  | .pixelRun die _ _ => decide (die < 10)
  | .bulkWrite die addr count _ seq _ => decide (die < 10) && decide (addr < 2 ^ 32) && decide (count < 65536) && decide (seq < 65536)
  | .pfail f cause frame _ => decide (f < 2) && decide (cause < 4) && decide (frame < 2 ^ 48)
  | .credit f _ _ => decide (f < 2)
  | .frameReport f _ _ => decide (f < 2)
  | .event f source _ => decide (f < 2) && decide (source < 1024)
  | .regReply f word _ => decide (f < 2) && decide (word < 2 ^ 64)
  | .telemetry f _ _ => decide (f < 2)
  | .damperReplyTimeout die ty seq => decide (die < 10) && decide (ty < 256) && decide (seq < 65536)
  | .rtpPacketRx slot src ts _ _ _ _ => decide (slot < 8) && decide (src < 32) && decide (ts < 2 ^ 32)
  | .pathPacketRx slot src path pt ssrc seq ts _ _ _ => decide (slot < 8) && decide (src < 32) && decide (path < 2) && decide (pt < 128) && decide (ssrc < 2 ^ 32) && decide (seq < 65536) && decide (ts < 2 ^ 32)
  | .pathDown slot src path => decide (slot < 8) && decide (src < 32) && decide (path < 2)
  | .ssrcTimeout slot src => decide (slot < 8) && decide (src < 32)
  | .sliceSegmentParse hob engine _ => decide (hob < 4) && decide (engine < 2)
  | .ctuRowReconstruct hob engine => decide (hob < 4) && decide (engine < 6)
  | .accessUnitClose slot src _ _ _ => decide (slot < 8) && decide (src < 32)
  | .uncompressedPictureClose slot src => decide (slot < 8) && decide (src < 32)
  | .pictureLate slot view _ => decide (slot < 8) && decide (view < 16)
  | .pickTime frame => decide (frame < 2 ^ 48)
  | .stripDeal region view idx frame => decide (region < 4) && decide (view < 32) && decide (idx < 1024) && decide (frame < 2 ^ 48)
  | .stripBegin region view idx frame => decide (region < 4) && decide (view < 32) && decide (idx < 1024) && decide (frame < 2 ^ 48)
  | .stripComplete region view idx frame _ _ => decide (region < 4) && decide (view < 32) && decide (idx < 1024) && decide (frame < 2 ^ 48)
  | .stripLineSend region view idx frame => decide (region < 4) && decide (view < 32) && decide (idx < 1024) && decide (frame < 2 ^ 48)
  | .stripRescue region view idx frame => decide (region < 4) && decide (view < 32) && decide (idx < 1024) && decide (frame < 2 ^ 48)
  | .stripDeadlineMiss region view idx frame => decide (region < 4) && decide (view < 32) && decide (idx < 1024) && decide (frame < 2 ^ 48)
  | .excusedLineSend region view idx frame => decide (region < 4) && decide (view < 32) && decide (idx < 1024) && decide (frame < 2 ^ 48)
  | .monitorStrip slot idx die grate _ _ => decide (slot < 4) && decide (idx < 1024) && decide (die < 10) && decide (grate < 3)
  | .layerRelease layer => decide (layer < 8)
  | .latchLine f => decide (f < 2)
  | .lineSend link _ => decide (link < 8)
  | .powerFail f cause => decide (f < 2) && decide (cause < 4)
  | .parkStep f => decide (f < 2)
  | .powerReturn f => decide (f < 2)
  | .lampTransaction seg st value => decide (seg < 2) && decide (st < 256) && decide (value < 65536)
  | .lampReplyTimeout seg _ => decide (seg < 2)
  | .lostNodePoll seg addr _ => decide (seg < 2) && decide (addr < 32)
  | .lampEnumerate seg _ => decide (seg < 2)
  | .bellowsTick f _ _ => decide (f < 2)
  | .markerRound link => decide (link < 11)
  | .hello link id caps => decide (link < 8) && decide (id < 2 ^ 48) && decide (caps < 256)
  | .backStatus link locked blocks _ shErr eyeH eyeV bad => decide (link < 8) && decide (locked < 32) && decide (blocks < 32) && decide (shErr < 65536) && decide (eyeH < 256) && decide (eyeV < 256) && decide (bad < 65536)
  | .eqReq link lane _ pre main post => decide (link < 8) && decide (lane < 5) && decide (pre < 4) && decide (main < 4) && decide (post < 4)
  | .lstat die locked _ => decide (die < 10) && decide (locked < 2 ^ 36)
  | .trainPhaseAdvance link => decide (link < 11)
  | .linkPhaseTimeout link => decide (link < 8)
  | .listenRetry link => decide (link < 8)
  | .linkTransitionDone link => decide (link < 8)
  | .laneRetrain link lane _ => decide (link < 11) && decide (lane < 36)
  | .sleepBurst link => decide (link < 8)
  | .ethFrameRx iface _ _ _ _ => decide (iface < 17)
  | .portLinkChange iface _ => decide (iface < 17)
  | .ptpAnnounceRx iface port _ _ _ _ _ _ _ domain _ _ addr => decide (iface < 17) && decide (port < 2 ^ 80) && decide (domain < 256) && decide (addr < 2 ^ 32)
  | .ptpSyncRx iface _ domain _ _ seq _ => decide (iface < 17) && decide (domain < 256) && decide (seq < 65536)
  | .delayRespRx iface _ domain seq _ => decide (iface < 17) && decide (domain < 256) && decide (seq < 65536)
  | .announceTimeout iface _ => decide (iface < 17)
  | .captureEdge pin _ => decide (pin < 5)
  | .tpoFire pin => decide (pin < 8)
  | .ptpAdjGo base frac => decide (base < 4) && decide (frac < 65536)
  | .ptpIncrWrite base ns => decide (base < 4) && decide (ns < 256)
  | .ptpTimeLatchRead base => decide (base < 4)
  | .twinHeartbeatRx src role stack frame start _ => decide (src < 2 ^ 32) && decide (role < 256) && decide (stack < 65536) && decide (frame < 2 ^ 48) && decide (start < 2 ^ 64)
  | .memRequest n _ _ _ _ synd _ => decide (n < 16) && decide (synd < 256)
  | .scrubRead n _ _ synd _ => decide (n < 16) && decide (synd < 256)
  | .memRefresh n => decide (n < 16)
  | .mr4Poll n mr4 _ => decide (n < 16) && decide (mr4 < 32)
  | .actWindowStart n => decide (n < 16)
  | .memChannelFreqChange n => decide (n < 16)
  | .dqsRetrack n _ => decide (n < 16)
  | .memRequestTimeout n => decide (n < 16)
  | .channelFail n cause => decide (n < 16) && decide (cause < 256)
  | .bufferReplace n => decide (n < 16)
  | .mapMirrorRecreate hob => decide (hob < 4)
  | .refLoss ref => decide (ref < 2)
  | .refValid ref => decide (ref < 2)
  | .mainLockLoss die => decide (die < 10)
  | .pllLockAcquire die pll => decide (die < 10) && decide (pll < 2)
  | .mainReturn die => decide (die < 10)
  | .spareLockLoss die => decide (die < 10)
  | .camFrameStart c => decide (c < 2)
  | .camLineRx c vc dtype _ _ _ => decide (c < 2) && decide (vc < 4) && decide (dtype < 64)
  | .camFrameEnd c => decide (c < 2)
  | .camFrameTimeout c => decide (c < 2)
  | .camLost c => decide (c < 2)
  | .cciWrite c _ => decide (c < 2)
  | .cciListTimeout c => decide (c < 2)
  | .tinkerCoreSwitch cause => decide (cause < 256)
  | .flueThermalShutdown f => decide (f < 2)
  | .irqDoorbell source => decide (source < 1024)
  | .irqComplete source _ => decide (source < 1024)
  | .groupHoldoffEnd group => decide (group < 32)
  | .encRowCode slot _ _ _ => decide (slot < 4)
  | .encSliceSend slot _ => decide (slot < 4)
  | .encTransitionDone slot => decide (slot < 4)
  | .startupStageComplete stage _ _ => decide (stage < 6)
  | .damperHalfJoin f => decide (f < 2)
  | .railComparatorTrip rail _ => decide (rail < 16)
  | .pwrSafeWrite value => decide (value < 2 ^ 32)
  | .pwrShutdownWrite f value => decide (f < 2) && decide (value < 2 ^ 32)
  | .pwrFlueResetWrite f value => decide (f < 2) && decide (value < 2 ^ 32)
  | .registerWrite addr value => decide (addr < 2 ^ 32) && decide (value < 2 ^ 32)
  | .housekeepingSample ch raw => decide (ch < 96) && decide (raw < 2 ^ 32)
  | .ptpFollowUpRx iface _ domain seq _ => decide (iface < 17) && decide (domain < 256) && decide (seq < 65536)
  | .identity _ _
  | .status _ _
  | .abort _ _
  | .sessionOpen _ _
  | .sessionClose _ _
  | .keySet _ _
  | .stackSet _ _
  | .modeSet _ _
  | .eventSelect _ _
  | .eventReplay _ _
  | .regRead _ _
  | .regWrite _ _
  | .regModify _ _
  | .bufCreate _ _
  | .bufWrite _ _
  | .bufRead _ _
  | .bufFree _ _
  | .surfUpload _ _
  | .surfUploadDone
  | .raymodelSet _ _
  | .raymodelGet _ _
  | .aimSet _ _
  | .planishLoad _ _
  | .planishLoadDone
  | .planishClone _ _
  | .planishCloneDone
  | .planishSelect _ _
  | .planishRead _ _
  | .planishStatus _ _
  | .planishRetireDone
  | .decodeStreamSet _ _
  | .decodeStreamEnable _ _
  | .decodePriority _ _
  | .decodeAssign _ _
  | .decodeStatus _ _
  | .decodeEvents _ _
  | .synSourceSet _ _
  | .synSourceGet _ _
  | .synConfig _ _
  | .synStatus _ _
  | .synGrateSet _ _
  | .surfaceCreate _ _
  | .surfaceFree _ _
  | .layerSet _ _
  | .layerStatus _ _
  | .fenceOp _ _
  | .blit _ _
  | .bltFillStart
  | .bltCopyStart
  | .bltConvertStart
  | .blitComplete _
  | .rasterSet _ _
  | .rasterEnable _ _
  | .commit _ _
  | .commitCaptureComplete
  | .genlockSet _ _
  | .rasterStatus _ _
  | .signatureRead _ _
  | .panelCurveSet _ _
  | .filmTableSet _ _
  | .filmTableLoadDone
  | .filmConfig _ _
  | .filmEnable _ _
  | .filmUpdate _ _
  | .filmStatus _ _
  | .panelRetain _ _
  | .quenchConfig _ _
  | .projCurveSet _ _
  | .quenchStatus _ _
  | .lampEnable _ _
  | .lampChannelSet _ _
  | .lampTableSet _ _
  | .lampSetpoint _ _
  | .lampClear _ _
  | .lampNodes _ _
  | .lampNodeAccess _ _
  | .bellowsLoopSet _ _
  | .bellowsCoeffSet _ _
  | .bellowsSwap _ _
  | .bellowsSetpoint _ _
  | .bellowsEnable _ _
  | .bellowsStatus _ _
  | .linkEnable _ _
  | .linkStatus _ _
  | .lanePower _ _
  | .eyeScan _ _
  | .eyeScanDone _ _ _ _ _ _
  | .tapTest _ _
  | .tapTestDone _ _
  | .netPortSet _ _
  | .netPortEnable _ _
  | .netIfSet _ _
  | .netPairSet _ _
  | .netAnvilSet _ _
  | .netStatus _ _
  | .netPairStatus _ _
  | .timeSet _ _
  | .timeRead _ _
  | .ptpSet _ _
  | .ptpStatus _ _
  | .ptpSamples _ _
  | .tpoSet _ _
  | .tciSet _ _
  | .tciRead _ _
  | .memStatus _ _
  | .memTimingSet _ _
  | .memFreq _ _
  | .memFreqDone
  | .memTest _ _
  | .memNbrSet _ _
  | .clkStatus _ _
  | .clkConfig _ _
  | .clkSelect _ _
  | .camSet _ _
  | .camEnable _ _
  | .camPipeSet _ _
  | .camStatsSet _ _
  | .camStatus _ _
  | .trimRun _ _
  | .trimJobDone _ _ _ _
  | .trimRead _ _
  | .trimWrite _ _
  | .thmStatus _ _
  | .thmAck _ _
  | .thmSet _ _
  | .hkRead _ _
  | .tinkerSwitch _ _
  | .bootcfgSet _ _
  | .ageSet _ _
  | .ageReplan _ _
  | .ageSample _ _
  | .ashStatus _ _
  | .ashRead _ _
  | .ashNote _ _
  | .ashClear _ _
  | .updateStage _ _
  | .updateActivate _ _
  | .updateStatus _ _
  | .encStreamSet _ _
  | .encStreamEnable _ _
  | .encViewSet _ _
  | .encKey _ _
  | .encStatus _ _
  | .ingotJob _ _
  | .ingotJobRun
  | .ingotFree _ _
  | .ingotStatus _ _
  | .heldReplyEnqueue
  | .viewReplace
  | .ashSummary
  | .laneReverseDone
  | .timeFwdSend
  | .returnHeartbeatSend
  | .mergeWindowSweep
  | .redoneStripComplete _ _
  | .bindingPoint
  | .frameStart
  | .fsyncInEdge _
  | .fsyncLost
  | .filmFrameStart
  | .filmPulseEnd
  | .slotStart
  | .lampWritesDone
  | .laneLoss _
  | .linkStartupSequence
  | .delayReqTimeout
  | .holdLimitExpire
  | .ppsInEdge
  | .ppsMissing
  | .twinHeartbeatMissing
  | .pipeLineTake
  | .coreSelftestDone _
  | .stateTableCheck _
  | .hkRoundEnd
  | .ashAppend _ _
  | .ashScan
  | .ageSampleTick _ _ _
  | .replanRun _
  | .updateSwap
  | .updateActivateDone
  | .irqClaim
  | .irqWake
  | .encPictureTime
  | .resetRelease
  | .flueResetRelease
  | .resetAssert
  | .flueResetAssert _
  | .delayReqSend
  | .ashClearDone _
  | .updateStageDone
  | .standbyPatchReady _
  | .tinkerDomainStop => true

/-- A command is well formed: an Anvil command whose header and LENGTH are; an event whose operands are in range. -/
def Instr.wf (i : Instr) : Bool :=
  match i.hdr? with
  | some h => h.wf && decide (i.params.length < 2 ^ 16)
  | none => i.inRange

end Sys2Proof
end

