-- ==== Sys2Proof/Safety.lean ====
section
/-! DEFINITION. The words the claims use: the invariant that every step keeps, and what it means that a command begins,
ends in a reply, or that an event occurs. -/

namespace Sys2Proof.Machine

/-- An object's bytes are in canonical form and inside it (R178). -/
def Obj.wf (o : Obj) : Bool := cellsWf o.cells && cellsBelow o.cells o.size

/-- The heap is in canonical form: each object is. -/
def Heap.wf (hp : Heap) : Bool := hp.objs.all Obj.wf

/-- The machine with another device: its object heap and its queue are as before. -/
def State.withDev (s : State) (d : Dev) : State := { s with dev := d }

/-- The machine with another device and object heap: its queue is as before. -/
def State.withBoth (s : State) (x : Heap × Dev) : State := { s with heap := x.1, dev := x.2 }

/-- Every check of R53 that does not depend on the command's own effect lets `i` begin in `s`: `d` is the device then, and `c`
the command with its sender. -/
def Begins (i : Instr) (s : State) (d : Dev) (c : Cmd) : Prop :=
  match opSpec i, i.hdr? with
  | some sp, some h => gate sp h i.params i s = (d, some c)
  | _, _ => False

/-- Nothing before the sender's own checks stops a packet with header `h` (R53 steps 1 to 4): the device answers, the packet is
no longer than R38 allows, addresses this device and has the version of R38. -/
abbrev Arrives (s : State) (h : Hdr) (p : Bytes) : Prop :=
  s.dev.silent h = false ∧ s.dev.anvil.resuming = false ∧ p.length ≤ 4096 ∧ targetOk h = true ∧ s.dev.targeted h = true ∧ h.version = 1

/-- A command of the local channel (R47): it arrives at a READY device, and the channel's limit of 16 has room (R52). -/
abbrev LocalEntry (s : State) (h : Hdr) (p : Bytes) : Prop :=
  Arrives s h p ∧ s.dev.pwr.ready = true ∧ h.route = .cp ∧ h.noSession = true ∧ (s.dev.inFlightOf 4).length < 16

/-- R46, R52, R466: nothing makes a command of the local channel wait: room for its reply, no core being exchanged, and (but for
ABORT) nothing of the channel waiting before it, nor in flight if it is ORDERED. -/
abbrev LocalGoes (s : State) (h : Hdr) (op : Nat) : Prop :=
  outFill s.dev.cp.outbound + 4148 ≤ cpOutCap ∧ s.dev.beginsHeld = false ∧
    (op = 3 ∨ (s.dev.waitingOf h = [] ∧ (h.ordered = false ∨ s.dev.inFlightOf 4 = [])))

/-- The command as the local channel accepts it, and the device with it in flight. -/
def localCmd (s : State) (h : Hdr) (op : Nat) (p : Bytes) : Cmd := { who := 4, epoch := (s.dev.sess 4).epoch, h := h, op := op, p := p }
def localDev (s : State) (h : Hdr) (op : Nat) (p : Bytes) : Dev :=
  { s.dev with anvil := { s.dev.anvil with inFlight := s.dev.anvil.inFlight ++ [localCmd s h op p] } }

/-- R57: neither a safe state nor the output mode refuses the command's class. -/
abbrev ClassAllowed (d : Dev) (cls : Nat) : Prop := (d.pwr.safe && safeRefuses cls) = false ∧ modeRefuses d.mode cls = false

/-- The commands that may change the object heap: those that create, write or free objects or fill them, those that write
registers (a blit may be started so), and the events that move pixels or lose a die. -/
def changesHeap (i : Instr) : Bool :=
  match i with
  | .bufCreate _ _ | .bufWrite _ _ | .bufFree _ _ | .surfUpload _ _ | .surfaceCreate _ _ | .surfaceFree _ _ | .regWrite _ _
  | .regModify _ _ | .camEnable _ _ | .damperRegWrite _ _ _ _ _ | .registerWrite _ _ | .surfUploadDone | .surfaceFreeComplete _
  | .bltFillStart | .bltCopyStart | .bltConvertStart | .blitComplete _ | .camLineRx _ _ _ _ _ _ | .camFrameEnd _ | .camFrameStart _
  | .camFrameTimeout _ | .pipeLineTake | .camTransitionDone _ | .ingotJobRun | .eyeScanDone _ _ _ _ _ _ | .tapTestDone _ _
  | .channelFail _ _ | .memRequestTimeout _ | .memRequest _ _ _ _ _ _ _ | .scrubRead _ _ _ _ _ | .dqsRetrack _ _ | .resetAssert
  | .startupStageComplete _ _ _ | .railComparatorTrip _ _ | .hobDieFail _ => true
  | _ => false

/-! When a command begins, said of the state and the command alone. -/

/-- The header of an Anvil command (that of a local STATUS for an event, which has none). -/
def hdrOf (i : Instr) : Hdr := i.hdr?.getD {
  route := .cp, version := 1, noSession := true, ordered := false, quiet := false, session := 0, seq := 0, tmode := 0, tid := 0
  tag := 0, mac := none, answered := none }

/-- The opcode of an Anvil command's row. -/
def opOf (i : Instr) : Nat := ((opSpec i).map OpSpec.op).getD 0

/-- Who sends a packet (R47): the session it names, the local channel (4), or on a network route nobody's session (5). -/
def senderOf (h : Hdr) : Nat := if h.noSession then (if h.route = .cp then 4 else 5) else h.session

/-- The command that begins: its sender, header, opcode and parameters. -/
def begunCmd (i : Instr) (s : State) : Cmd :=
  { who := senderOf (hdrOf i), epoch := (s.dev.sess (senderOf (hdrOf i))).epoch, h := hdrOf i, op := opOf i, p := i.params }

/-- R48: the sender's session has been heard now. -/
def heardDev (i : Instr) (s : State) : Dev :=
  let w := senderOf (hdrOf i)
  if w < 4 then s.dev.setSess w { s.dev.sess w with lastValid := s.dev.stamp, usable := true } else s.dev

/-- R51: the command's SEQ is new to its session (it moves H), or late but not seen before. -/
def seqNew (i : Instr) (s : State) : Bool :=
  seqRule ((heardDev i s).sess (senderOf (hdrOf i))) (hdrOf i).seq = .acceptNew
def seqLate (i : Instr) (s : State) : Bool :=
  seqRule ((heardDev i s).sess (senderOf (hdrOf i))) (hdrOf i).seq = .accept

/-- R51: the sender's session has accepted the command's SEQ. -/
def takenDev (i : Instr) (s : State) : Dev :=
  let w := senderOf (hdrOf i)
  if w < 4 then (heardDev i s).setSess w (((heardDev i s).sess w).accept (hdrOf i).seq (seqNew i s)) else heardDev i s

/-- The device as a command begins: its SEQ is accepted, and it is in flight. Nothing else has changed. -/
def begunDev (i : Instr) (s : State) : Dev :=
  { takenDev i s with anvil := { (takenDev i s).anvil with inFlight := (takenDev i s).anvil.inFlight ++ [begunCmd i s] } }

/-- R53: every step lets the command begin now: the device answers, the packet is one of R38 for it, the device is READY (or the command one
of R56), its sender is known, its MAC right, its SEQ accepted, the sender's commands in flight are below the limit, nothing makes it
wait, LENGTH and parameters are valid, and neither the safe state nor the mode refuses its class. -/
def mayBegin (i : Instr) (s : State) : Bool :=
  match opSpec i with
  | none => false
  | some sp =>
    let h := hdrOf i
    let w := senderOf h
    !s.dev.anvil.resuming && !s.dev.silent h && decide (i.params.length ≤ 4096) && targetOk h && s.dev.targeted h && h.version = 1
      && (s.dev.pwr.ready || sp.op = 1 || sp.op = 2 || sp.op = 3) && s.dev.whoSends h sp.op = some w && s.dev.macOk w h sp.op i.params
      && (sp.auth (heardDev i s) h i.params).isNone && (decide (w > 3) || seqNew i s || seqLate i s)
      && (decide (w ≥ 5) || decide (((takenDev i s).inFlightOf w).length < if w = 4 then 16 else 256))
      && sp.known && !(begunDev i s).mustWait w h sp.op && sp.lenOk i.params && (sp.check s h i.params).isNone
      && !(s.dev.pwr.safe && safeRefuses sp.cls) && !modeRefuses s.dev.mode sp.cls

/-- In every state in which the command begins and `cond` holds of it, exec answers the next state in which the device has had the effect
`eff` and the command its reply `rep`; heap and queue are as before. -/
def Ends (i : Instr) (cond : Cmd → Dev → Prop) (eff : Cmd → Dev → Dev) (rep : Cmd → Dev → Rep) : Prop :=
  ∀ s, mayBegin i s = true → cond (begunCmd i s) (begunDev i s) →
    exec i s = .next (s.withDev (finish (begunCmd i s) (eff (begunCmd i s) (begunDev i s)) (rep (begunCmd i s) (begunDev i s))))

/-- A command that only reports: in every state in which it begins and `cond` holds, it is answered DONE with `data` and changes nothing
else. -/
def Reports (i : Instr) (cond : Cmd → Dev → Prop) (data : Cmd → Dev → Bytes) : Prop :=
  Ends i cond (fun _ d => d) (fun c d => .done (data c d))

/-- The same as `Ends` for a command whose effect reads and changes the object heap. -/
def EndsOn (i : Instr) (cond : Cmd → Heap → Dev → Prop) (eff : Cmd → Heap → Dev → Heap × Dev) (rep : Cmd → Heap → Dev → Rep) : Prop :=
  ∀ s, mayBegin i s = true → cond (begunCmd i s) s.heap (begunDev i s) →
    exec i s = .next (s.withBoth ((eff (begunCmd i s) s.heap (begunDev i s)).1,
      finish (begunCmd i s) (eff (begunCmd i s) s.heap (begunDev i s)).2 (rep (begunCmd i s) s.heap (begunDev i s))))

/-- Under `cond` the event answers the next state in which the device is `eff` of itself; heap and queue are as before. -/
def Occurs (i : Instr) (cond : Dev → Prop) (eff : Dev → Dev) : Prop :=
  ∀ s, cond s.dev → exec i s = .next (s.withDev (eff s.dev))

/-- The same for an event whose effect reads and changes the object heap. -/
def OccursOn (i : Instr) (cond : Heap → Dev → Prop) (eff : Heap → Dev → Heap × Dev) : Prop :=
  ∀ s, cond s.heap s.dev → exec i s = .next (s.withBoth (eff s.heap s.dev))

end Sys2Proof.Machine
end

