-- ==== Sys2Proof/Certificates/Slice0/Obligations.lean ====
section
/-! DEFINITION. The statements for the provers: what the rules of the spec say that each command does, what it leaves as it
is, and what every step keeps. -/

open Sys2Proof Sys2Proof.Machine

/-- For every state with a command c at the front of its queue, step is exec of c on the state with the rest of the queue: the model's own queue, first in first out. (R37, R52) -/
def Obligations.StepRunsFront : Prop :=
  ∀ (c : Instr) (rest : List Instr) (d : Dev) (hp : Heap),
    step { dev := d, heap := hp, pending := c :: rest } = exec c { dev := d, heap := hp, pending := rest }

/-- With an empty queue, no packet received waiting to be interpreted and no accepted command whose wait is over, a step advances the four time bases by their increments and changes nothing else. That a step on an empty queue is a tick is the model's choice (log entry 10); what a tick does to the bases is R362's. (R362) -/
def Obligations.IdleStepTicksTheClock : Prop :=
  ∀ (s : State), s.pending = [] → s.dev.resumable = none → s.dev.cp.inbound = [] → s.dev.anvil.inbound = [] →
    step s = .next (s.withDev s.dev.tick) ∧
      s.dev.tick = { s.dev with time := { s.dev.time with t := s.dev.tick.time.t } } ∧
      ∀ b < 4, s.dev.time.t.length = 4 → s.dev.time.incr.length = 4 →
        s.dev.tick.now b = (s.dev.now b + s.dev.time.incr.getD b 0) % (2 ^ 48 * 10 ^ 9 * 2 ^ 32)

/-- For every row of the table, every operand and every state, exec answers a next state with the queue as it was: what the spec calls a fault is a descriptor, a status or a state of the device. (R19, R42, R53) -/
def Obligations.EveryCommandAnswers : Prop :=
  ∀ (i : Instr) (s : State), ∃ t, exec i s = .next t ∧ t.pending = s.pending

/-- Every command and event but those that create, write, fill or free objects, write registers (a blit may be started so), move pixels or end a die leaves every byte of every surface and bulk buffer as it is. (R178, R180, R181) -/
def Obligations.OnlyHeapCommandsChangeTheHeap : Prop :=
  ∀ (i : Instr) (s t : State), changesHeap i = false → exec i s = .next t → t.heap = s.heap

/-- State.reset has an empty object heap in canonical form, no session open but the local channel, no output mode, stack ID 0 and no group membership, and an empty queue. (That the heap is empty at reset is the model's choice, log entry 13; stack ID and groups are R66's.) (R48, R56, R66, R178) -/
def Obligations.HeapFormAtReset : Prop :=
  State.reset.heap.wf = true ∧
  State.reset.heap.objs = [] ∧
  State.reset.pending = [] ∧
  State.reset.dev.mode = 0 ∧
  State.reset.dev.anvil.stackId = 0 ∧
  State.reset.dev.anvil.groups = [] ∧
  (∀ n < 4, (State.reset.dev.sess n).isOpen = false) ∧
  State.reset.dev.pwr.ready = false

/-- From every state whose object heap is in canonical form (each object's bytes at strictly rising addresses below its size, none of them the value an unlisted byte reads as), any step that answers a next state answers one whose heap is in canonical form, so equal contents are equal data. (R178, R179, R195) -/
def Obligations.StepKeepsHeapForm : Prop :=
  ∀ s t : State, s.heap.wf = true → step s = .next t → t.heap.wf = true

/-- For every Anvil command i with header h and parameters p, the opcode that its row carries names, with h and p, exactly i; and two commands with different opcodes are different. For every Anvil command whose header fields fit their fields and whose parameters fit LENGTH, the bytes R38 lays out for it, with its MAC where it has one, are read back as the same header, opcode and parameters, and the opcode names the same command: no bit of a packet is dropped or read twice. (R38, R39, R40, R59) -/
def Obligations.PacketReadsBack : Prop :=
  (∀ (i : Instr) (sp : OpSpec) (h : Hdr), opSpec i = some sp → i.hdr? = some h → commandOf sp.op h i.params = some i ∧ sp.known = true) ∧
  (∀ (i : Instr) (sp : OpSpec) (h : Hdr), opSpec i = some sp → i.hdr? = some h → i.wf = true →
    h.answered = none → i.params.length ≤ 4096 →
    parsePkt h.route (macInput h sp.op i.params ++ h.mac.getD []) = some (h, sp.op, i.params) ∧ commandOf sp.op h i.params = some i)

/-- Where the checks of R53 let a command begin, the device differs from before only in the command interface: sessions, commands in flight and waiting. No register, no other part, no output has changed. The command that begins carries the packet's header and parameters and the row's opcode. A final reply changes nothing of the device but its command interface, the control port's queue and what has left the device, where neither it nor a reply that waits for it is an AUTH_FAIL: no register and no other part. Where an earlier command of its sender and class has no final reply yet, the reply waits for it (R52) and only that changes; else the command is no longer in flight. (R41, R49, R51, R52, R53) -/
def Obligations.InterfaceWorkTouchesOnlyTheInterface : Prop :=
  (∀ (i : Instr) (s : State) (d : Dev) (c : Cmd), Begins i s d c →
    d = { s.dev with anvil := d.anvil } ∧ i.hdr? = some c.h ∧ c.p = i.params ∧ (opSpec i).map OpSpec.op = some c.op) ∧
  (∀ (d : Dev) (c : Cmd) (st rs : Nat) (data : Bytes), st ≠ St.authFail → (∀ r ∈ d.anvil.due, r.st ≠ St.authFail) →
    d.finalReply c st rs data =
      { d with anvil := (d.finalReply c st rs data).anvil, cp := (d.finalReply c st rs data).cp, out := (d.finalReply c st rs data).out } ∧
    (d.replyBlocked c = true → d.finalReply c st rs data =
      { d with anvil := { d.anvil with due := d.anvil.due ++ [⟨c, st, rs, data⟩] } }) ∧
    (d.replyBlocked c = false → d.anvil.due = [] → (d.finalReply c st rs data).anvil.inFlight = d.anvil.inFlight.erase c))

/-- A NOSESSION packet of any opcode on the control port of a READY device, with a valid LENGTH and parameters, in a class that neither safe state nor mode refuses, begins if the outbound queue has room for the largest reply, the channel has fewer than 16 commands in flight, and (but for ABORT) no earlier command of the channel waits, nor is in flight if it is ORDERED. Its SEQ is not checked and no MAC is needed. (R46, R47, R52, R53, R57) -/
def Obligations.LocalChannelBegins : Prop :=
  ∀ (i : Instr) (sp : OpSpec) (h : Hdr) (s : State), opSpec i = some sp → i.hdr? = some h →
    LocalEntry s h i.params → LocalGoes s h sp.op → sp.lenOk i.params = true → sp.check s h i.params = none →
    ClassAllowed s.dev sp.cls → Begins i s (localDev s h sp.op i.params) (localCmd s h sp.op i.params)

/-- A command of an open session on its own route, with a valid MAC where the session is authenticated and with (SEQ − H) mod 65,536 in 1–32,767, begins under the conditions that let any command begin (KEY_SET on the control port only): H becomes its SEQ, it is in flight and held among the last 256 accepted, and the session has been used. (R48, R49, R51, R52, R53) -/
def Obligations.SessionWindowMoves : Prop :=
  ∀ (i : Instr) (sp : OpSpec) (h : Hdr) (s : State), opSpec i = some sp → i.hdr? = some h →
    Arrives s h i.params → s.dev.pwr.ready = true → (h.route = .cp → outFill s.dev.cp.outbound + 4148 ≤ cpOutCap) →
    h.noSession = false → h.session < 4 →
    (s.dev.sess h.session).isOpen = true → (s.dev.sess h.session).route = h.route → sp.op ≠ 0x0004 →
    s.dev.macOk h.session h sp.op i.params = true →
    1 ≤ (h.seq + 65536 - (s.dev.sess h.session).high) % 65536 → (h.seq + 65536 - (s.dev.sess h.session).high) % 65536 ≤ 32767 →
    (s.dev.inFlightOf h.session).length < 256 → s.dev.beginsHeld = false → sp.auth (heardDev i s) h i.params = none →
    (sp.op = 3 ∨ (s.dev.waitingOf h = [] ∧ (h.ordered = false ∨ s.dev.inFlightOf h.session = []))) →
    sp.lenOk i.params = true → sp.check s h i.params = none → ClassAllowed s.dev sp.cls →
    ∃ d c, Begins i s d c ∧ c.who = h.session ∧ (d.sess h.session).high = h.seq ∧ (d.sess h.session).usable = true ∧
      d.anvil.inFlight = s.dev.anvil.inFlight ++ [c] ∧
      ∃ r ∈ (d.sess h.session).recent, r = ⟨h.seq, none⟩

/-- In a session of a READY device, a packet whose SEQ is among the last 256 accepted and does not move the window is not performed again: with its reply held, that reply is sent and the duplicate counted; with none yet, it is ignored and counted. The session is marked used, and a reply sent again counts towards R48's sixteen AUTH_FAIL in a row as the first did; no other part of the device or the heap changes. (R48, R51, R53) -/
def Obligations.ResendIsNotPerformedAgain : Prop :=
  ∀ (i : Instr) (sp : OpSpec) (h : Hdr) (s : State) (r : Recent), opSpec i = some sp → i.hdr? = some h →
    Arrives s h i.params → s.dev.pwr.ready = true → h.noSession = false → h.session < 4 →
    (s.dev.sess h.session).isOpen = true → (s.dev.sess h.session).route = h.route → sp.op ≠ 0x0004 →
    s.dev.macOk h.session h sp.op i.params = true → sp.auth (heardDev i s) h i.params = none →
    ¬(1 ≤ (h.seq + 65536 - (s.dev.sess h.session).high) % 65536 ∧ (h.seq + 65536 - (s.dev.sess h.session).high) % 65536 ≤ 32767) →
    (s.dev.sess h.session).recent.find? (·.seq = h.seq) = some r →
    let d := s.dev.setSess h.session { s.dev.sess h.session with lastValid := s.dev.stamp, usable := true }
    exec i s = .next (s.withDev (match r.reply with
      | some p => ((d.bump 0 R.TNK_AV_DUP).sendPkt h.route p (d.replyDelay h)).countAuth h.session (u8 p.body 0)
      | none => d.bump 0 R.TNK_AV_DUP))

/-- For every Anvil command at a device that answers: an ill-formed TARGET is dropped and counted; a TARGET of another device is ignored; VERSION other than 1 is BAD_OPCODE, VERSION; before READY all but IDENTITY, STATUS and ABORT are BUSY_INIT with the stage and the milliseconds; with no session and none allowed it is BAD_STATE, NO_SESSION; a wrong MAC is AUTH_FAIL, BAD_MAC, and the opcode's own AUTH_FAIL (KEY_SET off the control port, SESSION_OPEN without the authentication a slot requires) is answered there too, both without a MAC in the reply. Each is the only change (AUTH_FAIL also counts towards R48's sixteen). A command that the local channel would accept is answered, before its own effect: BUSY, IN_FLIGHT_LIMIT with 16 in flight; else, where nothing makes it wait, BAD_LENGTH for an invalid LENGTH, then BAD_PARAM with the row's reason, then FAULT, SAFE_STATE in a safe state but for classes 0x00, 0x01, 0x50–0x52, then BAD_STATE, NOT_IN_MODE for classes 0x20 and 0x21 in the other mode and 0x15, 0x20, 0x21 in none. The final reply is the only change. (R47, R48, R49, R50, R52, R53, R54, R56, R57) -/
def Obligations.RefusalsOfTheGate : Prop :=
  (∀ (i : Instr) (sp : OpSpec) (h : Hdr) (s : State), opSpec i = some sp → i.hdr? = some h →
    s.dev.silent h = false → s.dev.anvil.resuming = false → i.params.length ≤ 4096 →
    (targetOk h = false → exec i s = .next (s.withDev (s.dev.bump 0 R.TNK_AV_TARGET))) ∧
    (targetOk h = true → s.dev.targeted h = false → exec i s = .next s) ∧
    (targetOk h = true → s.dev.targeted h = true → h.version ≠ 1 →
      exec i s = .next (s.withDev (s.dev.replyRaw h sp.op St.badOpcode Rs.version [] none))) ∧
    (targetOk h = true → s.dev.targeted h = true → h.version = 1 → s.dev.pwr.ready = false → sp.op ≠ 1 → sp.op ≠ 2 → sp.op ≠ 3 →
      exec i s = .next (s.withDev (s.dev.replyRaw h sp.op St.busyInit s.dev.pwr.stage (enc 2 (min s.dev.elapsedMs 65535)) none))) ∧
    (targetOk h = true → s.dev.targeted h = true → h.version = 1 → s.dev.pwr.ready = true → s.dev.whoSends h sp.op = none →
      exec i s = .next (s.withDev (s.dev.replyRaw h sp.op St.badState Rs.noSession [] none))) ∧
    (∀ w, targetOk h = true → s.dev.targeted h = true → h.version = 1 → s.dev.pwr.ready = true → s.dev.whoSends h sp.op = some w →
      s.dev.macOk w h sp.op i.params = false →
      exec i s = .next (s.withDev ((s.dev.replyRaw h sp.op St.authFail Rs.badMac [] none).countAuth w St.authFail))) ∧
    (∀ w r, targetOk h = true → s.dev.targeted h = true → h.version = 1 → s.dev.pwr.ready = true → s.dev.whoSends h sp.op = some w →
      s.dev.macOk w h sp.op i.params = true → sp.auth (heardDev i s) h i.params = some r →
      exec i s = .next (s.withDev (((heardDev i s).replyRaw h sp.op St.authFail r [] none).countAuth w St.authFail)))) ∧
  (∀ (i : Instr) (sp : OpSpec) (h : Hdr) (s : State), opSpec i = some sp → i.hdr? = some h →
    let d := localDev s h sp.op i.params
    let c := localCmd s h sp.op i.params
    (Arrives s h i.params → s.dev.pwr.ready = true → h.route = .cp → h.noSession = true → 16 ≤ (s.dev.inFlightOf 4).length →
      exec i s = .next (s.withDev (s.dev.finalReply c St.busy Rs.inFlightLimit []))) ∧
    (LocalEntry s h i.params → LocalGoes s h sp.op →
      (sp.lenOk i.params = false → exec i s = .next (s.withDev (d.finalReply c St.badLength 0 []))) ∧
      (∀ r, sp.lenOk i.params = true → sp.check s h i.params = some r → exec i s = .next (s.withDev (d.finalReply c St.badParam r []))) ∧
      (sp.lenOk i.params = true → sp.check s h i.params = none → s.dev.pwr.safe = true →
        sp.cls ∉ [0x00, 0x01, 0x50, 0x51, 0x52] → exec i s = .next (s.withDev (d.finalReply c St.fault Rs.safeState []))) ∧
      (sp.lenOk i.params = true → sp.check s h i.params = none → s.dev.pwr.safe = false →
        (s.dev.mode = 0 ∧ sp.cls ∈ [0x15, 0x20, 0x21] ∨ s.dev.mode = 2 ∧ sp.cls = 0x20 ∨ s.dev.mode = 1 ∧ sp.cls = 0x21) →
        exec i s = .next (s.withDev (d.finalReply c St.badState Rs.notInMode [])))))

/-- For each state of a function, request and stored request: the state after, the reply, what is stored, which stored command is superseded and which commands the transition in progress answers; an enable in ON with other parameters is BAD_STATE; a transition that ends carries out what is stored, and one that fails leaves OFF and carries a stored enable out from there. (R55) -/
def Obligations.FunctionRequestTable : Prop :=
  ∀ (f : Fn) (c : Cmd) (same : Bool),
    (f.st = .off → f.request true same c = { fn := { st := .starting, stored := none, running := [c] }, rep := .accepted, begins := true } ∧
      f.request false same c = { fn := f, rep := .done }) ∧
    (f.st = .starting → (f.request true same c).rep = .accepted ∧ (f.request true same c).fn = { f with stored := none, running := f.running ++ [c] } ∧
      (f.request false same c).rep = .deferred ∧ (f.request false same c).fn = { f with stored := some c } ∧
      (f.request true same c).gone = f.stored.toList ∧ (f.request false same c).gone = f.stored.toList) ∧
    (f.st = .on → f.request true true c = { fn := f, rep := .done } ∧ f.request true false c = { fn := f, rep := .bad St.badState 0 } ∧
      f.request false same c = { fn := { st := .stopping, stored := none, running := [c] }, rep := .accepted, begins := true }) ∧
    (f.st = .stopping → (f.request false same c).rep = .accepted ∧ (f.request false same c).fn = { f with stored := none, running := f.running ++ [c] } ∧
      (f.request true same c).rep = .deferred ∧ (f.request true same c).fn = { f with stored := some c } ∧
      (f.request true same c).gone = f.stored.toList ∧ (f.request false same c).gone = f.stored.toList) ∧
    (f.st = .starting → f.finish.done = f.running ∧ f.finish.next = f.stored ∧ f.finish.fn.st = (if f.stored = none then .on else .stopping)) ∧
    (f.st = .stopping → f.finish.done = f.running ∧ f.finish.next = f.stored ∧ f.finish.fn.st = (if f.stored = none then .off else .starting)) ∧
    (f.st = .starting → f.fail.1.fn.st = .off ∧ f.fail.1.done = f.running ∧ f.fail.2 = f.stored.toList)

/-- Wherever they begin: IDENTITY is DONE with vendor, part, stepping B0, ROM 2.4.1, patch level, serial number, stack ID, mode (0 before READY) and dies; STATUS is DONE with 22 bytes whose STATE is 0 before READY, 3 in a safe state, else 2 with a contained fault, else 1, with stage, milliseconds and fault count. Nothing else changes. (R60, R61) -/
def Obligations.DeviceReports : Prop :=
  (∀ h p, Reports (.identity h p) (fun _ _ => True) fun _ d =>
    enc 4 0x564F524C ++ enc 2 0x0880 ++ [0xB0] ++ [2, 4, 1] ++ enc 2 (d.tnk.patchOf.getD d.tnk.active 0) ++ enc 8 Config.serial.toNat ++
      enc 2 d.anvil.stackId ++ enc 1 (if d.pwr.ready then d.mode else 0) ++ enc 1 d.diesByte) ∧
  (∀ h p s, mayBegin (.status h p) s = true →
    let d := begunDev (.status h p) s; let c := begunCmd (.status h p) s
    ∃ data, exec (.status h p) s = .next (s.withDev (d.finalReply c St.done 0 data)) ∧
    data.length = 22 ∧ u8 data 0 = (if d.pwr.ready = false then 0 else if d.pwr.safe then 3 else if d.contained then 2 else 1) ∧
    u8 data 1 = (if d.pwr.ready then 0 else d.pwr.stage % 256) ∧ u16 data 2 = min d.elapsedMs 65535 ∧ u32 data 16 = d.pwr.faults % 2 ^ 32)

/-- EVENT_SELECT is opcode 0x0009 with 4 bytes of GROUP_MASK: wherever it begins, the mask of the sending session (or local channel) becomes GROUP_MASK and the reply is DONE with the mask before; a notification of a source goes to the session whose bit for the source's group is set, and to no other. EVENT_REPLAY is 0x000A with 2 bytes of FROM: a FROM still held sends exactly the held packets from there on, unchanged, and replies how many; a FROM no longer held is BAD_PARAM, EVENTS_LOST, with the oldest sequence number held. (R68) -/
def Obligations.EventSelectAndReplay : Prop :=
  (∀ h p s, mayBegin (.eventSelect h p) s = true →
    let c := begunCmd (.eventSelect h p) s
    c.op = 0x0009 ∧ p.length = 4) ∧
  (∀ h p s, mayBegin (.eventReplay h p) s = true →
    let c := begunCmd (.eventReplay h p) s
    c.op = 0x000A ∧ p.length = 2) ∧
  (∀ h p, Ends (.eventSelect h p) (fun _ _ => True)
    (fun c d => d.setSess c.who { d.sess c.who with mask := u32 p 0 }) (fun c d => .done (enc 4 (d.sess c.who).mask))) ∧
  (∀ (d : Dev) (k cnt fst n : Nat), n < 5 → (∀ m < 5, bit (d.sess m).mask (k / 32) = decide (m = n)) →
    d.notify k cnt fst = d.sendEvent n 0x00FF 0 (zeros 4 ++ enc 2 k ++ enc 2 cnt ++ enc 8 fst)) ∧
  (∀ h p, Ends (.eventReplay h p)
    (fun c d => (u16 p 0 + 65536 - ((d.sess c.who).evSeq + 65536 - (d.sess c.who).events.length) % 65536) % 65536 ≤ (d.sess c.who).events.length)
    (fun c d => ((d.sess c.who).events.drop ((u16 p 0 + 65536 - ((d.sess c.who).evSeq + 65536 - (d.sess c.who).events.length) % 65536) % 65536)).foldl
      (fun d e => d.sendPkt (d.sess c.who).route e 0) d)
    (fun c d => .done (enc 2 ((d.sess c.who).events.length -
      (u16 p 0 + 65536 - ((d.sess c.who).evSeq + 65536 - (d.sess c.who).events.length) % 65536) % 65536)))) ∧
  (∀ h p, Ends (.eventReplay h p)
    (fun c d => (d.sess c.who).events.length < (u16 p 0 + 65536 - ((d.sess c.who).evSeq + 65536 - (d.sess c.who).events.length) % 65536) % 65536)
    (fun _ d => d) (fun c d => .reply St.badParam Rs.eventsLost (enc 2 (((d.sess c.who).evSeq + 65536 - (d.sess c.who).events.length) % 65536))))

/-- SESSION_OPEN with AUTH 0 that begins, with a free session wanted or any free one, opens that session on the packet's route with H the packet's SEQ, and replies its number and the nonce; with AUTH 1 also its session key is HMAC-SHA-256 of the slot key over "ANVL", the nonces and the number, and the reply carries a MAC under it. A wanted open session is SESSION_IN_USE, none free SESSION_LIMIT. With AUTH 0 on a network route while a slot requires authentication it is AUTH_FAIL, AUTH_REQUIRED. SESSION_CLOSE replies DONE, then the session is closed. KEY_SET off the control port is AUTH_FAIL, LOCAL_ONLY and changes nothing; on it the slot holds the key (empty for all zeros) and sessions that authenticate with the slot are closed. (R48, R49, R50, R63, R64, R65) -/
def Obligations.SessionsOpenAndClose : Prop :=
  (∀ h p n, Ends (.sessionOpen h p)
    (fun _ d => u8 p 1 = 0 ∧ d.pickSession (u8 p 0) = .ok n)
    (fun _ d => ({ d with free := d.free + 1 } : Dev).setSess n
      { isOpen := true, auth := false, usable := true, route := h.route, slot := u8 p 2, sk := [], high := h.seq, idle := u16 p 4,
        lastValid := d.stamp, epoch := (d.sess n).epoch })
    (fun _ d => .done (enc 1 n ++ zeros 3 ++ enc 16 (Config.nonce d.free).toNat))) ∧
  (∀ h p n s, mayBegin (.sessionOpen h p) s = true →
    let d := begunDev (.sessionOpen h p) s; let c := begunCmd (.sessionOpen h p) s
    u8 p 1 = 1 → d.pickSession (u8 p 0) = .ok n → n < d.anvil.sess.length →
    ∃ t, exec (.sessionOpen h p) s = .next (s.withDev t) ∧ (t.sess n).isOpen = true ∧ (t.sess n).auth = true ∧ (t.sess n).usable = false ∧
      (t.sess n).sk = hmac (((d.anvil.slots.getD (u8 p 2) {}).key).getD [])
        ([0x41, 0x4E, 0x56, 0x4C] ++ slice p 8 16 ++ enc 16 (Config.nonce d.free).toNat ++ enc 1 n) ∧
      t = (let d' := (({ d with free := d.free + 1 } : Dev).setSess n (t.sess n))
        ({ d' with anvil := { d'.anvil with inFlight := d'.anvil.inFlight.erase c } } : Dev).replyRaw h 0x0004 St.done 0
          (enc 1 n ++ zeros 3 ++ enc 16 (Config.nonce d.free).toNat) (some (t.sess n).sk))) ∧
  (∀ h p r, Ends (.sessionOpen h p)
    (fun _ d => d.pickSession (u8 p 0) = .error r)
    (fun _ d => d) (fun _ _ => .bad St.noResource r)) ∧
  (∀ (d : Dev) (q : Nat), q ≠ 0xFF → d.pickSession q = if (d.sess q).isOpen then .error Rs.sessionInUse else .ok q) ∧
  (∀ (d : Dev), (∀ n < 4, (d.sess n).isOpen = true) → d.pickSession 0xFF = .error Rs.sessionLimit) ∧
  (∀ h p, Ends (.sessionClose h p) (fun c _ => c.who ≤ 3) (fun c d => (d.finalReply c St.done 0 []).closeSession c.who) (fun _ _ => .later)) ∧
  (∀ h p s, Arrives s h p → s.dev.pwr.ready = true → h.route ≠ .cp → h.noSession = false → s.dev.whoSends h 0x0006 = some h.session →
    s.dev.macOk h.session h 0x0006 p = true →
    exec (.keySet h p) s = .next (s.withDev (((heardDev (.keySet h p) s).replyRaw h 0x0006 St.authFail Rs.localOnly [] none).countAuth
      h.session St.authFail))) ∧
  (∀ h p s, Arrives s h p → s.dev.pwr.ready = true → h.route ≠ .cp → h.noSession = true → 2 ≤ p.length → u8 p 1 = 0 →
    (s.dev.anvil.slots.any fun k => k.policy % 2 = 1) = true →
    exec (.sessionOpen h p) s = .next (s.withDev (s.dev.replyRaw h 0x0004 St.authFail Rs.authRequired [] none))) ∧
  (∀ h p s, mayBegin (.keySet h p) s = true →
    let d := begunDev (.keySet h p) s
    h.route = .cp → u8 p 0 < d.anvil.slots.length →
    ∃ t, exec (.keySet h p) s = .next (s.withDev t) ∧
      t.anvil.slots.getD (u8 p 0) {} = (if zero? (slice p 4 32) 0 32 then {} else { key := some (slice p 4 32), policy := u8 p 1 }) ∧
      (∀ k, k ≠ u8 p 0 → t.anvil.slots.getD k {} = d.anvil.slots.getD k {}) ∧ t.regs = d.regs)

/-- STACK_SET replies DONE under the old stack ID and then holds the new ID and exactly the groups whose bits are set. ABORT answers each waiting command in its scope BAD_STATE, ABORTED, completes each stored request in its scope the same way, and replies with how many of both there were and how many commands are left to complete. HELD_REPLY_ENQUEUE moves held replies in order into an outbound queue with room for all of them; FRAGMENT_TIMEOUT drops the fragments of that datagram and no others; SESSION_IDLE_TIMEOUT closes an open session; AUTH_OPEN_TIMEOUT closes one that no valid command has used, and leaves a used one open. (What the hearth side does, it does while it is neither held in reset nor shut down.) (R44, R46, R48, R49, R62, R66) -/
def Obligations.StackAbortAndTimeouts : Prop :=
  (∀ h p, Ends (.stackSet h p) (fun _ _ => True)
    (fun c d => { d.finalReply c St.done 0 [] with
      anvil := { (d.finalReply c St.done 0 []).anvil with
        stackId := u16 p 0, groups := (List.range 1024).filter fun g => bit (u8 p (4 + g / 8)) (g % 8) } })
    (fun _ _ => .later)) ∧
  (∀ h p s, mayBegin (.abort h p) s = true →
    let d := begunDev (.abort h p) s; let c := begunCmd (.abort h p) s
    let scope (q : Nat) : Bool := u8 p 0 = 0 || q = u16 p 2
    let w := d.withdraw (fun k => k.who = c.who && k.epoch = c.epoch && scope k.h.seq)
      (fun i => sentBy c.who i && (match i.hdr? with | some g => scope g.seq | none => false))
    let e := (w.2.2.abortWaiting w.1).completeAll w.2.1 St.badState Rs.aborted
    exec (.abort h p) s = .next (s.withDev (e.finalReply c St.done 0
      (enc 2 (w.1.length + w.2.1.length) ++ enc 2 ((e.inFlightOf c.who).filter fun k => k ≠ c).length)))) ∧
  (∀ s r, s.dev.hearthOff = false → s.dev.cp.held = [r] → outFill s.dev.cp.outbound + r.size ≤ cpOutCap →
    exec .heldReplyEnqueue s = .next (s.withDev { s.dev with cp := { s.dev.cp with outbound := s.dev.cp.outbound ++ [r], held := [] } })) ∧
  (∀ src ident, Occurs (.fragmentTimeout src ident) (fun _ => True)
    (fun d => { d with anvil := { d.anvil with frags := d.anvil.frags.filter fun r => ¬(r.src = src ∧ r.ident = ident) } })) ∧
  (∀ n s, s.dev.hearthOff = false → n < 4 → (s.dev.sess n).isOpen = true → ∃ t, exec (.sessionIdleTimeout n) s = .next (s.withDev t) ∧
    t = s.dev.closeSession n ∧ (t.sess n).isOpen = false ∧ t.regs = s.dev.regs) ∧
  (∀ n s, s.dev.hearthOff = false → n < 4 → (s.dev.sess n).isOpen = true → (s.dev.sess n).usable = false →
    exec (.authOpenTimeout n) s = .next (s.withDev (s.dev.closeSession n))) ∧
  (∀ n s, s.dev.hearthOff = false → (s.dev.sess n).usable = true → exec (.authOpenTimeout n) s = .next s)

/-- When the port answers: a WRITE of a well-formed packet with room is held for the interpreter; one without room is dropped and sets STATUS bits 1 and 2, uncounted; a malformed one is dropped, flagged and counted; a READ that clocks the whole packet and its length removes the oldest outbound packet, a shorter one leaves it, and with none it reads zeros; STATUS sends one byte and clears bit 2; any other first byte is counted; a transaction with no CP_SCK edge for 1 ms is abandoned and counted. A silent port does nothing. (R45, R46, R72) -/
def Obligations.ControlPortTransactions : Prop :=
  (∀ b, Occurs (.cpWrite 2 b) (fun d => d.cpSilent = false ∧ d.cp.inFill + b.length ≤ 16384 ∧ (parsePkt .cp b).isSome)
    (fun d => { d with cp := { d.cp with inbound := d.cp.inbound ++ [b] } })) ∧
  (∀ b, Occurs (.cpWrite 2 b) (fun d => d.cpSilent = false ∧ 16384 < d.cp.inFill + b.length)
    (fun d => { d with cp := { d.cp with full := true, dropped := true } })) ∧
  (∀ b, Occurs (.cpWrite 2 b) (fun d => d.cpSilent = false ∧ d.cp.inFill + b.length ≤ 16384 ∧ (parsePkt .cp b) = none)
    (fun d => ({ d with cp := { d.cp with dropped := true } }).bump 0 R.TNK_AV_FRAMING)) ∧
  (∀ n, Occurs (.cpRead 3 n) (fun d => d.cpSilent = false ∧ d.cp.outbound = []) (fun d => d.send (.sdo (zeros n)))) ∧
  (∀ n q rest, Occurs (.cpRead 3 n) (fun d => d.cpSilent = false ∧ d.cp.outbound = q :: rest ∧ n < 2 + q.bytes.length)
    (fun d => d.send (.sdo (slice (enc 2 q.size ++ q.bytes) 0 n)))) ∧
  (∀ n q rest s, s.dev.cpSilent = false → s.dev.cp.outbound = q :: rest → s.dev.cp.held = [] → 2 + q.bytes.length ≤ n →
    exec (.cpRead 3 n) s = .next (s.withDev { s.dev.send (.sdo (slice (enc 2 q.size ++ q.bytes) 0 n)) with
      cp := { s.dev.cp with outbound := rest } })) ∧
  (∀ s, s.dev.cpSilent = false → ∃ v, exec (.cpStatus 5) s = .next (s.withDev
      { s.dev.send (.sdo (enc 1 v)) with cp := { s.dev.cp with dropped := false } }) ∧
    bit v 1 = s.dev.cp.full ∧ bit v 2 = s.dev.cp.dropped ∧ bit v 3 = s.dev.pwr.ready ∧ bit v 0 = decide (s.dev.cp.outbound ≠ [])) ∧
  (∀ first b, first ∉ [2, 3, 5] → Occurs (.cpWrite first b) (fun d => d.cpSilent = false) (fun d => d.bump 0 R.TNK_CP_ABANDON)) ∧
  (∀ first b, first ∉ [2, 3] → Occurs (.cpAbandon first b) (fun d => d.cpSilent = false) (fun d => d.bump 0 R.TNK_CP_ABANDON)) ∧
  (∀ b, Occurs (.cpAbandon 2 b) (fun d => d.cpSilent = false) (fun d => (d.cpWrite b).bump 0 R.TNK_CP_ABANDON)) ∧
  (∀ first b, Occurs (.cpWrite first b) (fun d => d.cpSilent = true) id)

/-- For every register that no other part of the state shows through: after a direct write of a word, a read returns RW bits as written, W1C bits cleared where 1 was written, RO bits as they were, RS bits from the shadow copy just written, and WO and reserved bits 0; a register at another address reads as before. At an aligned address that names no register a read returns 0 and a write changes nothing. (R7, R10, R35) -/
def Obligations.PlainRegisterReadsAndWrites : Prop :=
  (∀ (d : Dev) (a v : Nat) (r : RegRow), rowAt a = some r → v < 2 ^ 32 → (∀ e : Dev, e.live (a / 2 ^ 28 % 16) (a % 2 ^ 28) = []) →
    (d.writePlain a v).peek a =
      (((((rfGet d.regs a &&& ~~~(BitVec.ofNat 32 r.rw)) ||| (BitVec.ofNat 32 v &&& BitVec.ofNat 32 r.rw)) &&&
        ~~~(BitVec.ofNat 32 v &&& BitVec.ofNat 32 r.w1c)) &&& BitVec.ofNat 32 (r.ro ||| r.rw ||| r.w1c)) |||
        ((if r.rs = 0 then rfGet d.shadow a else BitVec.ofNat 32 v &&& BitVec.ofNat 32 r.rs) &&& BitVec.ofNat 32 r.rs)).toNat) ∧
  (∀ (d : Dev) (a b v : Nat), a ≠ b → rfGet (d.writePlain a v).regs b = rfGet d.regs b ∧ rfGet (d.writePlain a v).shadow b = rfGet d.shadow b) ∧
  (∀ (d : Dev) (a v : Nat), rowAt a = none → d.peek a = 0 ∧ d.writePlain a v = d)

/-- Where the die named can be reached and no access is lost: REG_READ replies the values of COUNT registers read in ascending order; REG_WRITE of n values to the Mantel die writes them in ascending order and is DONE, and one of a register of a flue die writes it with one exchange of REG_WRITE and REG_REPLY; REG_MODIFY writes (old & ~MASK) | (VALUE & MASK) and replies the value before and after. A failed hob die, or a flue die whose damper half or return channel is not ON, is answered FAULT and not touched. REGISTER_WRITE writes the register where its hearth die holds the block and can be reached; one of a flue die leaves as a REG_WRITE, which awaits its REG_REPLY; an address R35 refuses raises a descriptor and writes nothing. A flue die that takes forward messages and has room to answer performs a good REG_WRITE or REG_READ of an implemented address and answers status 0x00 with the value now held or read; it answers 0x01 for an unimplemented address and 0x03 for a CHS_ or PWR_ register while it refuses after a power failure, writing nothing; a message that fails a check is counted and not answered. (What the hearth side does, it does while it is neither held in reset nor shut down.) (R27, R30, R33, R35, R36, R69, R70, R71) -/
def Obligations.RegistersThroughCommandsCoresAndTheDamper : Prop :=
  (∀ h p, Ends (.regRead h p) (fun _ d => d.unreachable (u32 p 0 / 2 ^ 28) = false ∧ u16 p 4 ≤ d.answeredOf h (u32 p 0 / 2 ^ 28) (u16 p 4))
    (fun _ d => ((List.range (u16 p 4)).foldl (fun (x : Bytes × Dev) i => (x.1 ++ enc 4 (x.2.readOver (u32 p 0 + 4 * i)).1, (x.2.readOver (u32 p 0 + 4 * i)).2)) ([], d)).2)
    (fun _ d => .done ((List.range (u16 p 4)).foldl (fun (x : Bytes × Dev) i => (x.1 ++ enc 4 (x.2.readOver (u32 p 0 + 4 * i)).1, (x.2.readOver (u32 p 0 + 4 * i)).2)) ([], d)).1)) ∧
  (∀ h p, Ends (.regRead h p) (fun _ d => d.unreachable (u32 p 0 / 2 ^ 28) = true) (fun _ d => d) (fun _ _ => .bad St.fault 0)) ∧
  (∀ h p, EndsOn (.regWrite h p)
    (fun _ _ _ => dieKind (u32 p 0 / 2 ^ 28) = 1)
    (fun _ hp d => (List.range (u16 p 4)).foldl (fun (x : Heap × Dev) i => regWrite (u32 p 0 + 4 * i) (u32 p (8 + 4 * i)) x.1 x.2) (hp, d))
    (fun _ _ _ => .done)) ∧
  (∀ h p, EndsOn (.regWrite h p)
    (fun _ _ d => u16 p 4 = 1 ∧ dieKind (u32 p 0 / 2 ^ 28) = 4 ∧ d.unreachable (u32 p 0 / 2 ^ 28) = false ∧
      1 ≤ d.answeredOf h (u32 p 0 / 2 ^ 28) 1 ∧ d.writeRefused (u32 p 0) = false)
    (fun _ hp d => ((regWrite (u32 p 0) (u32 p 8) hp d).1, (regWrite (u32 p 0) (u32 p 8) hp d).2.exchange (u32 p 0 / 2 ^ 28) 0x05
      (u32 p 0 * 2 ^ 32 + u32 p 8 % 2 ^ 32) ((regWrite (u32 p 0) (u32 p 8) hp d).2.peek (u32 p 0)) 0)) (fun _ _ _ => .done)) ∧
  (∀ h p, EndsOn (.regWrite h p)
    (fun _ _ d => 1 ≤ u16 p 4 ∧ d.unreachable (u32 p 0 / 2 ^ 28) = true)
    (fun _ hp d => (hp, d)) (fun _ _ _ => .bad St.fault 0)) ∧
  (∀ h p, EndsOn (.regModify h p) (fun _ _ _ => dieKind (u32 p 0 / 2 ^ 28) = 1)
    (fun _ hp d => regWrite (u32 p 0) (((BitVec.ofNat 32 (d.regRead (u32 p 0)).1 &&& ~~~(BitVec.ofNat 32 (u32 p 4))) |||
      (BitVec.ofNat 32 (u32 p 8) &&& BitVec.ofNat 32 (u32 p 4)) : Word)).toNat hp (d.regRead (u32 p 0)).2)
    (fun _ hp d => .done (enc 4 (d.regRead (u32 p 0)).1 ++ enc 4 ((regWrite (u32 p 0)
      (((BitVec.ofNat 32 (d.regRead (u32 p 0)).1 &&& ~~~(BitVec.ofNat 32 (u32 p 4))) |||
      (BitVec.ofNat 32 (u32 p 8) &&& BitVec.ofNat 32 (u32 p 4)) : Word)).toNat hp (d.regRead (u32 p 0)).2).2.peek (u32 p 0))))) ∧
  (∀ h p, EndsOn (.regModify h p) (fun _ _ d => d.unreachable (u32 p 0 / 2 ^ 28) = true) (fun _ hp d => (hp, d)) (fun _ _ _ => .bad St.fault 0)) ∧
  (∀ a v, OccursOn (.registerWrite a v)
    (fun _ d => d.hearthOff = false ∧ implemented (a / 2 ^ 28 % 16) a = true ∧ d.unreachable (a / 2 ^ 28 % 16) = false ∧ dieKind (a / 2 ^ 28 % 16) ≠ 4)
    (fun hp d => regWrite a v hp d)) ∧
  (∀ a v, OccursOn (.registerWrite a v)
    (fun _ d => d.hearthOff = false ∧ implemented (a / 2 ^ 28 % 16) a = true ∧ d.unreachable (a / 2 ^ 28 % 16) = false ∧ dieKind (a / 2 ^ 28 % 16) = 4)
    (fun hp d => (hp, d.fwdSend (a / 2 ^ 28 % 16) 0x05 [a % 2 ^ 32 * 2 ^ 32 + v % 2 ^ 32] (some .plain)))) ∧
  (∀ a v, OccursOn (.registerWrite a v) (fun _ d => d.hearthOff = false ∧ implemented (a / 2 ^ 28 % 16) a = false) (fun hp d => (hp, d.busError))) ∧
  (∀ die a v q, OccursOn (.damperRegWrite die a v q .good)
    (fun _ d => d.takesForward die = true ∧ d.canAnswer die = true ∧ implemented die a = true ∧ d.writeRefused a = false)
    (fun hp d => ((regWrite a v hp d).1, (regWrite a v hp d).2.answer die ((regWrite a v hp d).2.peek a) 0 0x05 q))) ∧
  (∀ die a v q, OccursOn (.damperRegWrite die a v q .good)
    (fun _ d => d.takesForward die = true ∧ d.canAnswer die = true ∧ implemented die a = true ∧ d.writeRefused a = true)
    (fun hp d => (hp, d.answer die (d.peek a) 3 0x05 q))) ∧
  (∀ die a v q, OccursOn (.damperRegWrite die a v q .good)
    (fun _ d => d.takesForward die = true ∧ d.canAnswer die = true ∧ implemented die a = false) (fun hp d => (hp, d.answer die 0 1 0x05 q))) ∧
  (∀ die a v q, OccursOn (.damperRegWrite die a v q .crc) (fun _ d => d.takesForward die = true) (fun hp d => (hp, d.bump die R.DMP_CRC_ERR))) ∧
  (∀ die a q, Occurs (.damperRegRead die a q .good)
    (fun d => d.takesForward die = true ∧ d.canAnswer die = true ∧ implemented die a = true)
    (fun d => (d.regRead a).2.answer die (d.regRead a).1 0 0x06 q)) ∧
  (∀ die a q, Occurs (.damperRegRead die a q .hcrc) (fun d => d.takesForward die = true) (fun d => d.bump die R.DMP_HCRC_ERR)) ∧
  (∀ value status ty q, status < 256 → ty < 256 → q < 65536 → value < 2 ^ 32 →
    replyWord value status ty q / 2 ^ 32 = value ∧ replyWord value status ty q / 2 ^ 24 % 256 = status ∧
    replyWord value status ty q / 2 ^ 16 % 256 = ty ∧ replyWord value status ty q % 65536 = q)

/-- A doorbell naming an assigned source raises it: COUNT grows (saturating), the first raise stamps MEDIA, an idle source is PENDING and an active one is marked to repeat; one naming an unassigned source is counted; while the domain sleeps it waits in the wake FIFO. A claim makes the best claimable source ACTIVE with COUNT 0 and notifies the sessions that select its group. Completing an active edge source makes it PENDING again if it was raised meanwhile, else idle; completing one not active is counted. A group's window ends; the domain stops and wakes on a held raise. (What the hearth side does, it does while it is neither held in reset nor shut down.) (R472, R473, R474, R475, R476, R478, R481) -/
def Obligations.EventControllerActions : Prop :=
  (∀ k s, s.dev.hearthOff = false → k < 1024 → srcAssigned k = false → exec (.irqDoorbell k) s = .next (s.withDev (s.dev.bump 0 R.IRQ_UNASSIGNED))) ∧
  (∀ k s, s.dev.hearthOff = false → k < 1024 → srcAssigned k = true → s.dev.ev.asleep = false → ∃ t, exec (.irqDoorbell k) s = .next (s.withDev t) ∧
    t = { s.dev with ev := t.ev } ∧ (t.src k).count = min ((s.dev.src k).count + 1) 65535 ∧
    (t.src k).first = (if (s.dev.src k).count = 0 then s.dev.short 0 else (s.dev.src k).first) ∧
    (t.src k).st = (if (s.dev.src k).st = 0 then 1 else (s.dev.src k).st) ∧
    (t.src k).rep = ((s.dev.src k).rep || decide ((s.dev.src k).st = 2)) ∧ ∀ j, j ≠ k → t.src j = s.dev.src j) ∧
  (∀ k s, s.dev.hearthOff = false → k < 1024 → srcAssigned k = true → s.dev.ev.asleep = true → exec (.irqDoorbell k) s =
    .next (s.withDev { s.dev with ev := { s.dev.ev with wake := s.dev.ev.wake ++ [(k, s.dev.short 0, s.dev.now 3)] } })) ∧
  (∀ s k rest, s.dev.hearthOff = false → s.dev.ev.asleep = false → s.dev.claimables = k :: rest → ¬(srcIsLevel k = true ∧ (s.dev.src k).level = false) →
    ∃ e : Dev, exec .irqClaim s = .next (s.withDev (e.notify k (s.dev.src k).count (s.dev.src k).first)) ∧
      (e.src k).st = 2 ∧ (e.src k).count = 0 ∧ (e.src k).rep = false ∧ ∀ j, j ≠ k → e.src j = s.dev.src j) ∧
  (∀ k n s, s.dev.hearthOff = false → k < 1024 → (s.dev.src k).st ≠ 2 → exec (.irqComplete k n) s = .next (s.withDev (s.dev.bump 0 R.IRQ_STRAY))) ∧
  (∀ k s, s.dev.hearthOff = false → k < 1024 → (s.dev.src k).st = 2 → srcIsLevel k = false → ∃ t, exec (.irqComplete k false) s = .next (s.withDev t) ∧
    t = { s.dev with ev := t.ev } ∧ (t.src k).st = (if (s.dev.src k).rep then 1 else 0) ∧ (t.src k).rep = false ∧ ∀ j, j ≠ k → t.src j = s.dev.src j) ∧
  (∀ g s, s.dev.hearthOff = false → (s.dev.grp g).until_ ≠ none → s.dev.ev.asleep = false →
    exec (.groupHoldoffEnd g) s = .next (s.withDev ((s.dev.setGrp g { s.dev.grp g with until_ := none }).openGroup g))) ∧
  Occurs .tinkerDomainStop (fun d => d.hearthOff = false) (fun d => { d with ev := { d.ev with asleep := true } }) ∧
  (∀ s, s.dev.hearthOff = false → s.dev.ev.asleep = true → s.dev.ev.wake ≠ [] → ∃ t, exec .irqWake s = .next (s.withDev t) ∧ t.ev.asleep = false ∧ t.ev.wake = [])

/-- A failed flit group of an up link is replayed up to four times, each a corrected cell-level fault; the fifth failure of the same group declares the link down. A link declared down is reported once, at block level against the lower die, and a hob die whose Mantel link and at least two hob links are down has met its condition of failure. A heartbeat leaves the link's state up; 1,024 good groups bring a down link back. The links of a failed hob die are fenced: their flits are discarded and counted, and nothing brings them back or down. A watchdog that is not answered is kept as the first condition a hob die met, and HOB_DIE_FAIL declares such a die failed with one region-level descriptor. (What the hearth side does, it does while it is neither held in reset nor shut down.) (R15, R16, R17, R19) -/
def Obligations.FabricLinksFailAndReturn : Prop :=
  (∀ n again s, s.dev.hearthOff = false → n ≤ 10 → (s.dev.fabLink n).down = false → s.dev.fenced n = false → (if again then (s.dev.fabLink n).fails + 1 else 1) < 5 →
    exec (.flitGroupReplay n again) s = .next (s.withDev ((s.dev.setFabLink n { s.dev.fabLink n with
      fails := if again then (s.dev.fabLink n).fails + 1 else 1 }).fabricFault 0 n Cause.crcError 0))) ∧
  (∀ n again s, s.dev.hearthOff = false → n ≤ 10 → (s.dev.fabLink n).down = false → s.dev.fenced n = true →
    exec (.flitGroupReplay n again) s = .next (s.withDev (s.dev.fenceFlits n 8))) ∧
  (∀ n s, s.dev.hearthOff = false → n ≤ 10 → (s.dev.fabLink n).down = false → s.dev.fenced n = false → 4 ≤ (s.dev.fabLink n).fails →
    exec (.flitGroupReplay n true) s = .next (s.withDev ((s.dev.setFabLink n { s.dev.fabLink n with fails := (s.dev.fabLink n).fails + 1 }).fabricDown n))) ∧
  (∀ n s, s.dev.hearthOff = false → n ≤ 10 → s.dev.fenced n = false → exec (.fabricHeartbeat n) s = .next (s.withDev (s.dev.setFabLink n { s.dev.fabLink n with beats := (s.dev.fabLink n).beats + 1 }))) ∧
  (∀ n s, s.dev.hearthOff = false → n ≤ 3 → (s.dev.fabLink n).down = false → s.dev.fenced n = false → ∃ t, exec (.fabricLinkDown n) s = .next (s.withDev t) ∧ (t.fabLink n).down = true ∧
    t.fab.failed = s.dev.fab.failed ∧ t.regs = (s.dev.descriptor 1 0 0x0F n Cause.linkDown 1 0).regs) ∧
  (∀ n s, s.dev.hearthOff = false → (s.dev.fabLink n).down = true ∨ s.dev.fenced n = true → exec (.fabricLinkDown n) s = .next s) ∧
  (∀ n s, s.dev.hearthOff = false → n ≤ 10 → (s.dev.fabLink n).down = true → s.dev.fenced n = false → exec (.fabricLinkRestore n) s =
    .next (s.withDev (s.dev.setFabLink n { s.dev.fabLink n with down := false, fails := 0, good := 1024 }))) ∧
  (∀ i s, s.dev.hearthOff = false → s.dev.fab.cond.getD i none = none → exec (.hobWatchdogTimeout i) s =
    .next (s.withDev { s.dev with fab := { s.dev.fab with cond := s.dev.fab.cond.set i (some Cause.watchdog) } })) ∧
  (∀ i s c, s.dev.hearthOff = false → s.dev.fab.cond.getD i none = some c → exec (.hobWatchdogTimeout i) s = .next s) ∧
  (∀ i s c, s.dev.hearthOff = false → s.dev.fab.cond.getD i none = some c → s.dev.fab.failed.getD i true = false → ∃ t, exec (.hobDieFail i) s = .next t ∧
    t.heap = s.heap.dieLost (i + 1) ∧ t.pending = s.pending ∧ Output.desc (descWord 2 (i + 1) 0x0F 0 c 2 0) ∈ t.dev.out) ∧
  (∀ i s, s.dev.hearthOff = false → s.dev.fab.cond.getD i none = none → exec (.hobDieFail i) s = .next s)

/-- When the forward path of a flue die stops delivering, the half is recorded lost and both ends show it not ON, and outside the ACTIVE twin role nothing else changes; restored with at least 12 lanes in the half, both ends show it ON. A damper lane that is already recorded lost changes nothing when it is declared lost again, as LANE_LOSS of the damper family does; a hearth lane declared lost is counted and not locked, and the interfaces of its port lose their link; with the return channel down a lane other than the return lane is counted, unlocked and marked lost at its flue die only, and its phase shows the loss at both ends. With no return lane, the lane that turns round, once locked, becomes the return lane at both ends, the change of lock is told, held messages enter the return queues and losses not yet reported are handled. An order to reverse a reversible lane unlocks it and sets its phase to training at its flue die. A re-grant while the return channel is up gives each link of the die the 128 credits less what its buffer holds. (What the hearth side does, it does while it is neither held in reset nor shut down.) (R22, R23, R24, R31, R323, R325, R336) -/
def Obligations.ForwardPathAndLanes : Prop :=
  (∀ f, f ≤ 1 → Occurs (.damperFwdLoss f) (fun d => d.twinRole ≠ 1)
    (fun d => (({ d with dmp := { d.dmp with lost := d.dmp.lost.set f true } } : Dev).wr 0 (R.DMP_HALF_ON f) 0).wr (8 + f) (R.DMP_HALF_ON f) 0)) ∧
  (∀ f, f ≤ 1 → Occurs (.damperFwdRestore f) (fun d => 12 ≤ d.rd 0 (R.DMP_HALF_N f))
    (fun d => (d.wr 0 (R.DMP_HALF_ON f) 1).wr (8 + f) (R.DMP_HALF_ON f) 1)) ∧
  (∀ f, f ≤ 1 → Occurs (.damperFwdRestore f) (fun d => d.rd 0 (R.DMP_HALF_N f) < 12) id) ∧
  (∀ i, i ≤ 35 → Occurs (.damperLaneLoss i) (fun d => d.rd (8 + laneHalf i) (R.DMP_LANE_ROLE i) = 3) id) ∧
  (∀ i, i ≤ 35 → Occurs (.damperLaneLoss i) (fun d => d.rd (8 + laneHalf i) (R.DMP_LANE_ROLE i) ≠ 3 ∧ d.dmp.ret = none ∧ d.dmp.moving ≠ some i)
    (fun d => ((((d.bump (8 + laneHalf i) (R.DMP_LANE_LOSS i)).wr (8 + laneHalf i) (R.DMP_LANE_LOCKED i) 0).wr (8 + laneHalf i) (R.DMP_LANE_ROLE i) 3).wrBoth
      (laneHalf i) (R.DMP_LANE_PHASE i) 2).scanLost (512 + i))) ∧
  (∀ i, i ≤ 35 → Occurs (.laneLoss (512 + i)) (fun d => d.rd (8 + laneHalf i) (R.DMP_LANE_ROLE i) = 3) id) ∧
  (∀ i, i ≤ 16 → Occurs (.laneLoss i) (fun _ => True)
    (fun d => (d.portIfs (ifPort i)).foldl (fun d k => d.linkChange k false) (((d.bump 0 (R.LNK_H_LOSS i)).wr 0 (R.LNK_H i) 0).scanLost i))) ∧
  (∀ r, Occurs .laneReverseDone (fun d => d.dmp.moving = some r ∧ d.dmp.ret = none)
    (fun d =>
      let e := ((((d.wr 0 (R.DMP_LANE_LOCKED r) 1).wr (8 + laneHalf r) (R.DMP_LANE_LOCKED r) 0).wr 0 (R.DMP_LANE_ROLE r) 2).wr 0
        (R.DMP_LANE_PHASE r) 6).wr (8 + laneHalf r) (R.DMP_LANE_ROLE r) 2 |>.wr (8 + laneHalf r) (R.DMP_LANE_PHASE r) 6
      let e : Dev := { e with dmp := { e.dmp with ret := some r, moving := none } }
      ((([0, 8, 9].foldl Dev.lockChanged e).retRefill 0).retRefill 1).lateLosses)) ∧
  (∀ k i, 32 ≤ i → i ≤ 35 → Occurs (.lstat 0 k (some i)) (fun _ => True)
    (fun d => (d.wr (8 + laneHalf i) (R.DMP_LANE_LOCKED i) 0).wr (8 + laneHalf i) (R.DMP_LANE_PHASE i) 2)) ∧
  (∀ f s, s.dev.hearthOff = false → f ≤ 1 → s.dev.dmp.ret.isSome = true → ∃ t, exec (.creditRegrant f) s = .next (s.withDev t) ∧ t = { s.dev with dmp := t.dmp } ∧
    t.dmp.credits.length = s.dev.dmp.credits.length ∧ ∀ n, n < s.dev.dmp.credits.length → t.dmp.credits.getD n 0 = if n / 4 = f
      then 128 - (((s.dev.flu.getD f {}).runs.filter fun r => r.link = n).map fun r => runCredits r.words.length).sum
      else s.dev.dmp.credits.getD n 0)

/-- A return message that is not the next of the named die's queue, or arrives while the return channel is down or moving, changes nothing. One that is leaves the queue, what was held enters it, and: one that fails a check is counted; a FRAME_REPORT does nothing else; an EVENT raises its source; CREDIT gives each named link back its credits, at most 128; a REG_REPLY that answers no waiting access does nothing else, and one that answers a plain access ends the wait for it, with a bus error where its status is 0x01. An idle return lane carries a HEARTBEAT of the die that holds it. A waiting access that goes unanswered is resent, counted, up to three times; the fourth time it is counted as timed out with a block-level descriptor of cause handshake timeout. (What the hearth side does, it does while it is neither held in reset nor shut down.) (R25, R30, R31, R36, R472) -/
def Obligations.ReturnMessagesAtTheHearthEnd : Prop :=
  (∀ f w c, Occurs (.frameReport f w c) (fun d => d.retTake f ⟨0x84, w⟩ = none) id) ∧
  (∀ f w s e, s.dev.hearthOff = false → s.dev.retTake f ⟨0x84, w⟩ = some e → exec (.frameReport f w .good) s = .next (s.withDev e)) ∧
  (∀ f w s e, s.dev.hearthOff = false → s.dev.retTake f ⟨0x84, w⟩ = some e →
    exec (.frameReport f w .hcrc) s = .next (s.withDev (e.bump 0 R.DMP_HCRC_ERR))) ∧
  (∀ f k s e, s.dev.hearthOff = false → s.dev.retTake f ⟨0x82, [k]⟩ = some e →
    exec (.event f k .crc) s = .next (s.withDev (e.bump 0 R.DMP_CRC_ERR))) ∧
  (∀ f k c, Occurs (.event f k c) (fun d => d.retTake f ⟨0x82, [k]⟩ = none) id) ∧
  (∀ f k s e, s.dev.hearthOff = false → k < 1024 → s.dev.retTake f ⟨0x82, [k]⟩ = some e → exec (.event f k .good) s = .next (s.withDev (e.raise k))) ∧
  (∀ f w s e, s.dev.hearthOff = false → s.dev.retTake f ⟨0x86, w⟩ = some e → ∃ t, exec (.credit f w .good) s = .next (s.withDev t) ∧ t = { e with dmp := t.dmp } ∧
    t.dmp = { e.dmp with credits := t.dmp.credits } ∧ ∀ x, w = [x] → x / 2 ^ 56 < e.dmp.credits.length →
      t.dmp.credits.getD (x / 2 ^ 56) 0 = min 128 (e.dmp.credits.getD (x / 2 ^ 56) 0 + x / 2 ^ 40 % 65536)) ∧
  (∀ f w s e, s.dev.hearthOff = false → s.dev.retTake f ⟨0x81, [w]⟩ = some e → (∀ a ∈ e.dmp.waiting, ¬(a.die = 8 + f ∧ a.ty = w / 2 ^ 16 % 256 ∧ a.seq = w % 65536)) →
    exec (.regReply f w .good) s = .next (s.withDev e)) ∧
  (∀ f w s e a rest, s.dev.hearthOff = false → s.dev.retTake f ⟨0x81, [w]⟩ = some e → e.dmp.waiting = a :: rest → a.die = 8 + f → a.ty = w / 2 ^ 16 % 256 →
    a.seq = w % 65536 → a.why = .plain → exec (.regReply f w .good) s = .next (s.withDev
      (if w / 2 ^ 24 % 256 = 1 then ({ e with dmp := { e.dmp with waiting := rest } } : Dev).busError
       else { e with dmp := { e.dmp with waiting := rest } }))) ∧
  (∀ l, Occurs .returnHeartbeatSend
    (fun d => d.dmp.ret = some l ∧ (d.flueEnd 0).queue = [] ∧ (d.flueEnd 1).queue = [] ∧ d.dmp.moving = none)
    (fun d => d.backPut (laneHalf l) ⟨0x87, []⟩)) ∧
  (∀ s a rest, s.dev.hearthOff = false → s.dev.dmp.waiting = a :: rest → a.resends < 3 → exec (.damperReplyTimeout a.die a.ty a.seq) s =
    .next (s.withDev ((({ s.dev with dmp := { s.dev.dmp with waiting := rest } } : Dev).bump 0 R.DMP_RESENDS).fwdSend a.die a.ty a.words (some a.why) (a.resends + 1)))) ∧
  (∀ s a rest, s.dev.hearthOff = false → s.dev.dmp.waiting = a :: rest → 3 ≤ a.resends → a.why = .plain → exec (.damperReplyTimeout a.die a.ty a.seq) s =
    .next (s.withDev ((({ s.dev with dmp := { s.dev.dmp with waiting := rest } } : Dev).bump 0 R.DMP_TIMEOUTS).descriptor 1 a.die 0x70 (a.die - 8)
      Cause.handshakeTimeout 0 a.ty)))

/-- A flue die whose half is not ON takes no forward message. One that is: discards and counts a message that fails its header check; in panel mode it holds a PIXEL_RUN for one of its links as a run of pixel data; writes a BULK_WRITE that lies in its plane store there, in memory order, and answers status 0x00, or answers 0x01 outside the store and writes nothing; holds a COMMIT part for a frame whose point has not passed and answers 0x00, answers 0x01 where one address is not implemented, 0x03 where it refuses one after a power failure, holding nothing, and 0x04 for a frame whose point has passed. (R27, R28, R29, R30, R33, R35, R231, R262) -/
def Obligations.FlueDieTakesPixelAndBulkData : Prop :=
  (∀ die w c, Occurs (.pixelRun die w c) (fun d => d.takesForward die = false) id) ∧
  (∀ die w, Occurs (.pixelRun die w .hcrc) (fun d => d.takesForward die = true) (fun d => d.bump die R.DMP_HCRC_ERR)) ∧
  (∀ die x w, x < 2 ^ 64 → Occurs (.pixelRun die (x :: w) .good)
    (fun d => d.takesForward die = true ∧ d.mode = 1 ∧ x / 2 ^ 56 ≤ 7 ∧ linkDie (x / 2 ^ 56) = die)
    (fun d => { d with flu := d.flu.modify (die - 8) fun e => { e with
      runs := e.runs ++ [⟨x / 2 ^ 56, x / 2 ^ 40 % 65536, x % 2 ^ 24, x / 2 ^ 24 % 65536, w, false⟩] } })) ∧
  (∀ die a n w q, Occurs (.bulkWrite die a n w q .good)
    (fun d => d.takesForward die = true ∧ d.canAnswer die = true ∧ a + n ≤ planeSize ∧ n ≤ 8 * w.length)
    (fun d => ({ d with flu := d.flu.modify (die - 8) fun e => { e with store := cellsWrite e.store a (((w.map (encLe 8)).flatten).take n) } } : Dev).answer
      die 0 0 0x07 q)) ∧
  (∀ die a n w q, Occurs (.bulkWrite die a n w q .good)
    (fun d => d.takesForward die = true ∧ d.canAnswer die = true ∧ planeSize < a + n) (fun d => d.answer die 0 1 0x07 q)) ∧
  (∀ die a n w q, Occurs (.bulkWrite die a n w q .crc) (fun d => d.takesForward die = true) (fun d => d.bump die R.DMP_CRC_ERR)) ∧
  (∀ die w v q, Occurs (.damperCommitPart die (w :: v) q .good)
    (fun d => d.takesForward die = true ∧ d.canAnswer die = true ∧ (∀ x ∈ v, implemented die (x / 2 ^ 32 % 2 ^ 32) = true) ∧
      d.pwr.refuse.getD (die - 8) false = false ∧ (d.flueEnd (die - 8)).applied.contains (w % 2 ^ 48, d.commitOf die q) = false ∧
      (d.flueEnd (die - 8)).passed = none)
    (fun d => (d.setFlueEnd (die - 8) ((d.flueEnd (die - 8)).hold (w % 2 ^ 48) (d.commitOf die q)
      ⟨w / 2 ^ 56 % 128, bit w 63, v.map fun x => (x / 2 ^ 32 % 2 ^ 32, x % 2 ^ 32)⟩)).answer die 0 0 0x03 q)) ∧
  (∀ die w v q x, x ∈ v → Occurs (.damperCommitPart die (w :: v) q .good)
    (fun d => d.takesForward die = true ∧ d.canAnswer die = true ∧ implemented die (x / 2 ^ 32 % 2 ^ 32) = false) (fun d => d.answer die 0 1 0x03 q)) ∧
  (∀ die w v q x, x ∈ v → powerBlock (x / 2 ^ 32 % 2 ^ 32) = true → Occurs (.damperCommitPart die (w :: v) q .good)
    (fun d => d.takesForward die = true ∧ d.canAnswer die = true ∧ (∀ y ∈ v, implemented die (y / 2 ^ 32 % 2 ^ 32) = true) ∧
      d.pwr.refuse.getD (die - 8) false = true) (fun d => d.answer die 0 3 0x03 q)) ∧
  (∀ die w v q p, w % 2 ^ 48 ≤ p → Occurs (.damperCommitPart die (w :: v) q .good)
    (fun d => d.takesForward die = true ∧ d.canAnswer die = true ∧ (∀ y ∈ v, implemented die (y / 2 ^ 32 % 2 ^ 32) = true) ∧
      d.pwr.refuse.getD (die - 8) false = false ∧ (d.flueEnd (die - 8)).applied.contains (w % 2 ^ 48, d.commitOf die q) = false ∧
      (d.flueEnd (die - 8)).passed = some p)
    (fun d => (d.lateCommit (die - 8) (w % 2 ^ 48) (d.commitOf die q)).answer die 0 4 0x03 q))

/-- BUF_CREATE that finds room replies the handle and die of an object that is in the heap, whose handle is not 0 and was not in use, that reads as zeros, and every other object is as before; without room it is NO_RESOURCE and the heap is as before. BUF_WRITE on a buffer that is neither being freed, nor read by a job, nor LOST stores the data: reading that range then gives the data, and every other byte of it and every other object is as before. BUF_READ returns the bytes asked for. BUF_FREE of a buffer no job reads removes it; a busy one is DEFERRED and kept. (R178, R180, R182, R195, R196) -/
def Obligations.BuffersHoldWhatIsWritten : Prop :=
  (∀ h p o hp', EndsOn (.bufCreate h p)
    (fun _ hp d => hp.alloc d.hobsUp .buffer (u32 p 0) (u8 p 4 = 1) = .ok (hp', o)) (fun _ _ d => (hp', d))
    (fun _ _ _ => .done (enc 2 o.handle ++ enc 1 (o.die + 16 * o.mirror.getD 0xF)))) ∧
  (∀ h p r, EndsOn (.bufCreate h p)
    (fun _ hp d => hp.alloc d.hobsUp .buffer (u32 p 0) (u8 p 4 = 1) = .error r) (fun _ hp d => (hp, d)) (fun _ _ _ => .bad St.noResource r)) ∧
  (∀ (hp hp' : Heap) (o : Obj) dies kind size m, hp.alloc dies kind size m = .ok (hp', o) →
    hp'.find o.handle = some o ∧ hp.find o.handle = none ∧ 1 ≤ o.handle ∧ o.handle ≤ 65535 ∧ o.size = size ∧ o.kind = kind ∧ o.lost = false ∧
      (∀ a n, o.read a n = List.replicate n 0) ∧ ∀ k, k ≠ o.handle → hp'.find k = hp.find k) ∧
  (∀ h p o, EndsOn (.bufWrite h p)
    (fun _ hp d => hp.buf (u16 p 0) = some o ∧ d.freeing (u16 p 0) = false ∧ d.bufBusy (u16 p 0) = false ∧ o.lost = false)
    (fun _ hp d => (hp.write (u16 p 0) (u32 p 4) (p.drop 8), d)) (fun _ _ _ => .done)) ∧
  (∀ (hp : Heap) (o : Obj) k a (b : Bytes), hp.wf = true → hp.find k = some o → a + b.length ≤ o.size → ∃ o', (hp.write k a b).find k = some o' ∧
    o'.read a b.length = b ∧ o'.size = o.size ∧ (∀ j, j < a ∨ a + b.length ≤ j → cellGet o'.cells j = cellGet o.cells j) ∧
      ∀ k', k' ≠ k → (hp.write k a b).find k' = hp.find k') ∧
  (∀ h p o, EndsOn (.bufRead h p)
    (fun _ hp _ => hp.buf (u16 p 0) = some o ∧ o.lost = false)
    (fun _ hp d => (hp, d)) (fun _ _ _ => .done (o.read (u32 p 4) (u16 p 2)))) ∧
  (∀ h p o, EndsOn (.bufFree h p)
    (fun _ hp d => hp.buf (u16 p 0) = some o ∧ d.freeing (u16 p 0) = false ∧ d.bufBusy (u16 p 0) = false)
    (fun _ hp d => (hp.release (u16 p 0), d)) (fun _ _ _ => .done)) ∧
  (∀ h p o, EndsOn (.bufFree h p)
    (fun _ hp d => hp.buf (u16 p 0) = some o ∧ d.freeing (u16 p 0) = false ∧ d.bufBusy (u16 p 0) = true)
    (fun c hp d => (hp, { d with lay := { d.lay with frees := d.lay.frees ++ [(u16 p 0, c)] } })) (fun _ _ _ => .deferred)) ∧
  (∀ (hp : Heap) k k', (hp.release k).find k = none ∧ (k' ≠ k → (hp.release k).find k' = hp.find k'))

/-- SURFACE_CREATE that finds room replies handle, dies, pitch (0 for pewter) and size of the image. SURFACE_FREE of a free surface removes it, of a STAGED one is BAD_STATE, STAGED, of one FREEING is BAD_STATE, FREEING, and of one LATCHED, READING or BUSY is DEFERRED; a deferred free completes, with its completion event, once none of these holds. SURF_UPLOAD between objects neither FREEING nor LOST is ACCEPTED and joins the blitter's queue; the upload at its head, done, has copied the bytes, leaves the queue, signals its fence and completes its command. (What the hearth side does, it does while it is neither held in reset nor shut down.) (R178, R179, R181, R182, R183, R197, R198, R199) -/
def Obligations.SurfacesAreCreatedAndFreed : Prop :=
  (∀ h p o hp', EndsOn (.surfaceCreate h p)
    (fun _ hp d => hp.alloc d.hobsUp (.surface (u8 p 0) (u8 p 1) (u8 p 2) (u16 p 4) (u16 p 6) (u32 p 8))
      (imageBytes (u8 p 0) (u8 p 1) (u16 p 4) (u16 p 6)) (bit (u8 p 2) 4) = .ok (hp', o)) (fun _ _ d => (hp', d))
    (fun _ _ _ => .done (enc 2 o.handle ++ enc 1 o.dieByte ++ zeros 1 ++ enc 4 (if u8 p 0 = 8 then 0 else pitchOf (u8 p 0) (u16 p 4)) ++
      enc 4 (imageBytes (u8 p 0) (u8 p 1) (u16 p 4) (u16 p 6))))) ∧
  (∀ h p o, EndsOn (.surfaceFree h p)
    (fun _ hp d => hp.surf (u16 p 0) = some o ∧ d.freeing (u16 p 0) = false ∧ d.staged (u16 p 0) = false ∧ d.latched (u16 p 0) = false ∧
      d.reading (u16 p 0) = false ∧ d.surfBusy (u16 p 0) = false)
    (fun _ hp d => (hp.release (u16 p 0), d)) (fun _ _ _ => .done)) ∧
  (∀ h p o, EndsOn (.surfaceFree h p) (fun _ hp d => hp.surf (u16 p 0) = some o ∧ d.freeing (u16 p 0) = true)
    (fun _ hp d => (hp, d)) (fun _ _ _ => .bad St.badState Rsf.freeing)) ∧
  (∀ h p o, EndsOn (.surfaceFree h p)
    (fun _ hp d => hp.surf (u16 p 0) = some o ∧ d.freeing (u16 p 0) = false ∧ d.staged (u16 p 0) = true)
    (fun _ hp d => (hp, d)) (fun _ _ _ => .bad St.badState Rsf.staged)) ∧
  (∀ h p o, EndsOn (.surfaceFree h p)
    (fun _ hp d => hp.surf (u16 p 0) = some o ∧ d.freeing (u16 p 0) = false ∧ d.staged (u16 p 0) = false ∧
      (d.latched (u16 p 0) || d.reading (u16 p 0) || d.surfBusy (u16 p 0)) = true)
    (fun c hp d => (hp, { d with lay := { d.lay with frees := d.lay.frees ++ [(u16 p 0, c)] } })) (fun _ _ _ => .deferred)) ∧
  (∀ k c rest, OccursOn (.surfaceFreeComplete k)
    (fun _ d => d.hearthOff = false ∧ d.lay.frees = (k, c) :: rest ∧ (∀ e ∈ rest, e.1 ≠ k) ∧ d.latched k = false ∧ d.reading k = false ∧ d.surfBusy k = false ∧ d.bufBusy k = false)
    (fun hp d => (hp.release k, ({ d with lay := { d.lay with frees := rest } } : Dev).complete c St.done 0))) ∧
  (∀ k c rest, OccursOn (.surfaceFreeComplete k)
    (fun _ d => d.hearthOff = false ∧ d.lay.frees = (k, c) :: rest ∧ d.latched k = true) (fun hp d => (hp, d))) ∧
  (∀ h p o b, EndsOn (.surfUpload h p)
    (fun _ hp d => hp.surf (u16 p 0) = some o ∧ hp.buf (u16 p 2) = some b ∧ d.freeing (u16 p 0) = false ∧ d.freeing (u16 p 2) = false ∧
      o.lost = false ∧ b.lost = false)
    (fun c hp d => (hp, { d with lay := { d.lay with queue := d.lay.queue ++ [{
      cmd := some c, up := true, src := u16 p 2, dst := u16 p 0, offset := u32 p 4, mode := u8 p 8, dstX := u16 p 12,
      dstY := u16 p 14, w := u16 p 16, h := u16 p 18, dest := u32 p 20, bytes := u32 p 24, fence := u64 p 28 }] } })) (fun _ _ _ => .accepted)) ∧
  (∀ op c rest o b, op.up = true → op.cmd = some c → OccursOn .surfUploadDone
    (fun hp d => d.hearthOff = false ∧ d.lay.running = none ∧ d.lay.queue = op :: rest ∧ hp.find op.dst = some o ∧ hp.find op.src = some b ∧ o.lost = false ∧ b.lost = false)
    (fun hp d => (hp.upload op, (({ d with lay := { d.lay with queue := rest } } : Dev).signal op.fence).complete c St.done 0)))

/-- LAYER_SET that is off, or names a surface neither FREEING nor LOST, makes the block the layer's shadow setting, marks it for the next commit and changes nothing else. LAYER_STATUS reports 16 bytes for each of the eight layers, STATE 0 for one that is off, 2 for one with a setting held, else 1. FENCE_OP replies the slot's counter after the operation: unchanged for a read, the larger of the counter and VALUE for a signal, 0 for a reset, which is BAD_STATE, FENCE_WAITED while a held setting or a queued operation names the slot; no other slot's counter changes. LAYER_RELEASE, once the strips of the frames that read it are composed, signals the release fence of the replaced surface and ends its reading. (What the hearth side does, it does while it is neither held in reset nor shut down.) (R170, R181, R183, R185, R200, R201, R202) -/
def Obligations.LayersAndFences : Prop :=
  (∀ h p, EndsOn (.layerSet h p)
    (fun _ hp d => u8 p 1 ≠ 1 ∨ (d.freeing (u16 p 4) = false ∧ ∀ o, hp.surf (u16 p 4) = some o → o.lost = false))
    (fun _ hp d => (hp, { d with lay := { d.lay with shadow := d.lay.shadow.set (u8 p 0) (layerOf p), changed := d.lay.changed.set (u8 p 0) true } }))
    (fun _ _ _ => .done)) ∧
  (∀ h p, EndsOn (.layerSet h p) (fun _ _ d => u8 p 1 = 1 ∧ d.freeing (u16 p 4) = true)
    (fun _ hp d => (hp, d)) (fun _ _ _ => .bad St.badState Rsf.freeing)) ∧
  (∀ h p, Reports (.layerStatus h p) (fun _ _ => True) (fun _ d => ((List.range 8).map d.layerEntry).flatten)) ∧
  (∀ (d : Dev) n, (d.layerEntry n).length = 16 ∧ u8 (d.layerEntry n) 0 =
    (if (d.lay.bound.getD n {}).enable then (if (d.lay.held.getD n none).isSome then 2 else 1) else 0)) ∧
  (∀ h p, Reports (.fenceOp h p) (fun _ _ => u8 p 2 = 0) (fun _ d => enc 8 (d.fence (u16 p 0)))) ∧
  (∀ h p, Ends (.fenceOp h p) (fun _ _ => u8 p 2 = 1 ∧ u16 p 0 ≤ 1023 ∧ u64 p 4 < 2 ^ 54)
    (fun _ d => d.setFence (u16 p 0) (max (d.fence (u16 p 0)) (u64 p 4))) (fun _ d => .done (enc 8 (max (d.fence (u16 p 0)) (u64 p 4))))) ∧
  (∀ h p, Ends (.fenceOp h p) (fun _ d => u8 p 2 = 2 ∧ d.fenceWaited (u16 p 0) = false)
    (fun _ d => d.setFence (u16 p 0) 0) (fun _ _ => .done (enc 8 0))) ∧
  (∀ h p, Ends (.fenceOp h p) (fun _ d => u8 p 2 = 2 ∧ d.fenceWaited (u16 p 0) = true)
    (fun _ d => d) (fun _ _ => .bad St.badState Rsf.fenceWaited)) ∧
  (∀ (d : Dev) k j v, 1 ≤ k → k ≤ 1023 → j ≤ 1023 → v < 2 ^ 54 →
    (d.setFence k v).fence j = if j = k then v else d.fence j) ∧
  (∀ n r, Occurs (.layerRelease n) (fun d => d.hearthOff = false ∧ d.lay.reading.find? (fun x => x.layer = n && d.composed x.frame) = some r)
    (fun d => ({ d with lay := { d.lay with reading := d.lay.reading.erase r } } : Dev).signal r.release))

/-- BLIT that passes the checks of START is queued and ACCEPTED; one that fails is answered with the matching reason and not queued. A START while an operation runs is counted in BLT_REJECT and changes nothing else. A START whose operation heads the queue takes it, loads the registers and begins it; one with an empty queue begins what the registers describe; failing the checks it ends at once with the code. The operation that runs ends with code 0, or 6 after an uncorrectable read, or 8 where an object became LOST. (What the hearth side does, it does while it is neither held in reset nor shut down.) On a destination of a plain format whose rectangle lies inside it: after a FILL every pixel of the rectangle is the fill value cut to the pixel; after a COPY from another surface of the same format it is the source pixel; after a CONVERT it is the source pixel converted, one of a malformed pewter tile as transparent; pixels outside the rectangle are as before. (R179, R180, R183, R190, R191, R192, R193, R194, R203) -/
def Obligations.BlitterQueuesAndMovesPixels : Prop :=
  (∀ h p, EndsOn (.blit h p) (fun c hp d => bltCheck hp d (blitOf c p) = none)
    (fun c hp d => (hp, { d with lay := { d.lay with queue := d.lay.queue ++ [blitOf c p] } })) (fun _ _ _ => .accepted)) ∧
  (∀ h p k, EndsOn (.blit h p) (fun c hp d => bltCheck hp d (blitOf c p) = some k) (fun _ hp d => (hp, d)) (fun _ _ _ => bltReply k)) ∧
  (∀ o, OccursOn .bltFillStart (fun _ d => d.hearthOff = false ∧ d.lay.running = some o) (fun hp d => (hp, d.bump 0 R.BLT_REJECT))) ∧
  (∀ o, OccursOn .bltCopyStart (fun _ d => d.hearthOff = false ∧ d.lay.running = some o) (fun hp d => (hp, d.bump 0 R.BLT_REJECT))) ∧
  (∀ o, OccursOn .bltConvertStart (fun _ d => d.hearthOff = false ∧ d.lay.running = some o) (fun hp d => (hp, d.bump 0 R.BLT_REJECT))) ∧
  (∀ o rest, o.up = false → o.op = 0 → OccursOn .bltFillStart (fun _ d => d.hearthOff = false ∧ d.lay.running = none ∧ d.lay.queue = o :: rest)
    (fun hp d => bltStart o hp ({ d with lay := { d.lay with queue := rest } }.bltLoad o))) ∧
  (∀ o rest, o.up = false → o.op = 1 → OccursOn .bltCopyStart (fun _ d => d.hearthOff = false ∧ d.lay.running = none ∧ d.lay.queue = o :: rest)
    (fun hp d => bltStart o hp ({ d with lay := { d.lay with queue := rest } }.bltLoad o))) ∧
  (∀ o rest, o.up = false → o.op = 2 → OccursOn .bltConvertStart (fun _ d => d.hearthOff = false ∧ d.lay.running = none ∧ d.lay.queue = o :: rest)
    (fun hp d => bltStart o hp ({ d with lay := { d.lay with queue := rest } }.bltLoad o))) ∧
  OccursOn .bltFillStart (fun _ d => d.hearthOff = false ∧ d.lay.running = none ∧ d.lay.queue = [])
    (fun hp d => bltStart { d.bltRegs with op := 0 } hp (d.wr 0 R.BLT_CTRL_OP 0)) ∧
  (∀ (o : BltOp) (hp : Heap) (d : Dev), bltCheck hp (((d.wr 0 R.BLT_STATUS_DONE 0).wr 0 R.BLT_STATUS_ERROR 0).wr 0 R.BLT_STATUS_DIR 0) o = none →
    (bltStart o hp d).1 = hp.upd o.dst (bltPixels (hp.surf o.src) o) ∧ (bltStart o hp d).2.lay = { d.lay with running := some o } ∧
      (bltStart o hp d).2.rd 0 R.BLT_STATUS_BUSY = 1) ∧
  (∀ bad o b, OccursOn (.blitComplete bad)
    (fun hp d => d.hearthOff = false ∧ d.lay.running = some o ∧ o.op = 0 ∧ hp.find o.dst = some b ∧ b.lost = false)
    (fun hp d => (hp, d.bltEnd o (if bad then 6 else 0)))) ∧
  (∀ bad o b, OccursOn (.blitComplete bad) (fun hp d => d.hearthOff = false ∧ d.lay.running = some o ∧ hp.find o.dst = some b ∧ b.lost = true)
    (fun hp d => (hp, d.bltEnd o 8))) ∧
  (∀ (dst src : Obj) (o : BltOp) fmt c w h cl, dst.kind = .surface fmt 0 c w h cl → fmt ≤ 4 → dst.wf = true → dst.size = imageBytes fmt 0 w h →
    o.dstX + o.w ≤ w → o.dstY + o.h ≤ h → o.src ≠ o.dst → (o.op = 0 ∨ o.op = 1 ∨ o.op = 2) → (o.op = 1 → src.fmt = fmt) →
    ∀ x y, x < w → y < h → (bltPixels (some src) o dst).pixel x y =
      if o.dstX ≤ x ∧ x < o.dstX + o.w ∧ o.dstY ≤ y ∧ y < o.dstY + o.h then
        (if o.op = 0 then o.fill % 256 ^ fmtBytes fmt
         else if o.op = 1 then src.pixel (o.srcX + (x - o.dstX)) (o.srcY + (y - o.dstY))
         else if src.badAt (o.srcX + (x - o.dstX)) (o.srcY + (y - o.dstY)) then packPixel fmt ⟨some (0, 255), none, none, none⟩
         else packPixel fmt (unpackPixel src.pixFmt (src.pixel (o.srcX + (x - o.dstX)) (o.srcY + (y - o.dstY)))))
      else dst.pixel x y)

/-- CONVERT changes each channel value v of a code of m bits to the code r of n bits that lies nearest to v (2^n - 1) / (2^m - 1), the higher one at a tie, and every channel of a converted pixel is so made; a source without alpha gives the maximum alpha code, a destination without alpha has none, a conversion into A8 keeps only alpha, and one from A8 gives colour channels 0. (R191) -/
def Obligations.ConvertChangesChannels : Prop :=
  (∀ v m n, 1 ≤ m → 2 * m * rescale v m n ≤ 2 * v * n + m ∧ 2 * v * n + m < 2 * m * (rescale v m n + 1)) ∧
  (∀ g v, g ≤ 4 → unpackPixel 0 (packPixel 0 (unpackPixel g v)) =
    let u := unpackPixel g v
    ⟨none, some (chan u.r 31 0, 31), some (chan u.g 63 0, 63), some (chan u.b 31 0, 31)⟩) ∧
  (∀ g v, g ≤ 4 → unpackPixel 1 (packPixel 1 (unpackPixel g v)) =
    let u := unpackPixel g v
    ⟨none, some (chan u.r 255 0, 255), some (chan u.g 255 0, 255), some (chan u.b 255 0, 255)⟩) ∧
  (∀ g v, g ≤ 4 → unpackPixel 2 (packPixel 2 (unpackPixel g v)) =
    let u := unpackPixel g v
    ⟨some (chan u.a 255 255, 255), some (chan u.r 255 0, 255), some (chan u.g 255 0, 255), some (chan u.b 255 0, 255)⟩) ∧
  (∀ g v, g ≤ 4 → unpackPixel 3 (packPixel 3 (unpackPixel g v)) =
    let u := unpackPixel g v
    ⟨some (chan u.a 3 3, 3), some (chan u.r 1023 0, 1023), some (chan u.g 1023 0, 1023), some (chan u.b 1023 0, 1023)⟩) ∧
  (∀ g v, g ≤ 4 → unpackPixel 4 (packPixel 4 (unpackPixel g v)) = ⟨some (chan (unpackPixel g v).a 255 255, 255), none, none, none⟩) ∧
  (∀ v m n k, chan (some (v, m)) n k = rescale v m n ∧ chan none n k = k) ∧
  (∀ v, (unpackPixel 0 v).a = none ∧ (unpackPixel 1 v).a = none ∧ (unpackPixel 4 v).r = none ∧ (unpackPixel 4 v).g = none ∧ (unpackPixel 4 v).b = none)

/-- MODE_SET to the mode in effect changes nothing; to another while a region is not OFF it is BAD_STATE and changes nothing; else the mode is set, the rasters are forgotten and cleared in the flue dies that can be reached, and ray model and layers take their values for it. RAYMODEL_SET, with a mode set, a model legal for it and every region OFF, writes the registers. RAYMODEL_GET reports them and the aims. AIM_SET outside panel mode is BAD_STATE, in it DONE. PLANISH_LOAD into a copy that can take it marks it LOADING and is ACCEPTED; PLANISH_CLONE likewise for the copy that is not ACTIVE; when done the target holds the ACTIVE copy's entries and is READY. PLANISH_SELECT stages a READY copy and refuses a retiring one. PLANISH_READ returns entries of a copy that is neither EMPTY nor LOADING. PLANISH_STATUS reports both states, the frames, and the counts. A retired copy is READY once no strip of an earlier frame is unfinished. (What the hearth side does, it does while it is neither held in reset nor shut down.) (R1, R67, R90, R91, R92, R94, R95, R96, R98, R99, R100, R101) -/
def Obligations.ModeRayModelAndMap : Prop :=
  (∀ h p, Ends (.modeSet h p) (fun _ d => d.mode = u8 p 0) (fun _ d => d) (fun _ _ => .done)) ∧
  (∀ h p, Ends (.modeSet h p) (fun _ d => d.mode ≠ u8 p 0 ∧ d.regionsOff = false) (fun _ d => d) (fun _ _ => .bad St.badState 0)) ∧
  (∀ h p, Ends (.modeSet h p) (fun _ d => d.mode ≠ u8 p 0 ∧ d.regionsOff = true)
    (fun _ d => ((({ d with mode := u8 p 0, ras := { d.ras with rasters := [none, none, none, none] } } : Dev).rayReset (u8 p 0)).layersOff).rastersOff h)
    (fun _ _ => .done)) ∧
  (∀ h p, Ends (.raymodelSet h p) (fun _ d => d.mode ≠ 0 ∧ rayModeOk d.mode p = true ∧ d.regionsOff = true)
    (fun _ d => d.rayWrite p) (fun _ _ => .done)) ∧
  (∀ h p, Ends (.raymodelSet h p) (fun _ d => d.mode ≠ 0 ∧ rayModeOk d.mode p = true ∧ d.regionsOff = false)
    (fun _ d => d) (fun _ _ => .bad St.badState Rsp.regionNotOff)) ∧
  (∀ h p, Reports (.raymodelGet h p) (fun _ _ => True) (fun _ d => d.rayBlock (d.hobsUp.headD 1) ++
    ((List.range 4).map fun k => enc 2 (twos 16 (d.aimT (d.hobsUp.headD 1) k)) ++ enc 2 (twos 16 (d.aimP (d.hobsUp.headD 1) k))).flatten)) ∧
  (∀ (d : Dev) k, (d.rayBlock k).length = 56) ∧
  (∀ h p, Ends (.aimSet h p) (fun _ d => d.mode ≠ 1) (fun _ d => d) (fun _ _ => .bad St.badState Rs.notInMode)) ∧
  (∀ h p, Ends (.aimSet h p) (fun _ d => d.mode = 1) (fun _ d => d.hobsUp.foldl (fun d k => [1, 2, 3].foldl (fun d a =>
    (d.wrS k (R.SYN_RM_AIM_AIM_T a) (u16 p (4 * a - 4))).wrS k (R.SYN_RM_AIM_AIM_P a) (u16 p (4 * a - 2))) d) d) (fun _ _ => .done)) ∧
  (∀ h p o, EndsOn (.planishLoad h p)
    (fun _ hp d => loadRefusal (d.copy (u8 p 0)).state = none ∧ ((d.copy (u8 p 0)).state = 3 ∨ (u32 p 4 = 0 ∧ u32 p 8 = 65536)) ∧
      hp.buf (u16 p 12) = some o ∧ o.lost = false ∧ (d.copy (u8 p 0)).state ≤ 7)
    (fun c hp d => (hp, { d.copyState (u8 p 0) 1 with pm := { (d.copyState (u8 p 0) 1).pm with
      load := some ⟨c, u8 p 0, u8 p 1, u32 p 4, u32 p 8, u16 p 12, u32 p 16, u32 p 20⟩ } })) (fun _ _ _ => .accepted)) ∧
  (∀ h p r, EndsOn (.planishLoad h p) (fun _ _ d => loadRefusal (d.copy (u8 p 0)).state = some r) (fun _ hp d => (hp, d))
    (fun _ _ _ => .bad St.badState r)) ∧
  (∀ h p, Ends (.planishClone h p) (fun _ d => loadRefusal (d.copy (1 - d.activeCopy)).state = none)
    (fun c d => { d.copyState (1 - d.activeCopy) 1 with pm := { (d.copyState (1 - d.activeCopy) 1).pm with clone := some c } }) (fun _ _ => .accepted)) ∧
  (∀ c, Occurs .planishCloneDone (fun d => d.hearthOff = false ∧ d.pm.clone = some c) (fun d =>
    (({ d.setCopy (1 - d.activeCopy) ⟨3, (d.copy d.activeCopy).nominal, (d.copy d.activeCopy).entries⟩ with
      pm := { (d.setCopy (1 - d.activeCopy) ⟨3, (d.copy d.activeCopy).nominal, (d.copy d.activeCopy).entries⟩).pm with clone := none } } : Dev).complete c St.done 0))) ∧
  (∀ h p, Ends (.planishSelect h p) (fun _ d => (d.copy (u8 p 0)).state = 3) (fun _ d => d.copyState (u8 p 0) 7) (fun _ _ => .done)) ∧
  (∀ h p, Ends (.planishSelect h p) (fun _ d => (d.copy (u8 p 0)).state = 6) (fun _ d => d) (fun _ _ => .bad St.badState Rsp.copyInUse)) ∧
  (∀ h p, Reports (.planishRead h p) (fun _ d => (d.copy (u8 p 0)).state ≠ 0 ∧ (d.copy (u8 p 0)).state ≠ 1)
    (fun _ d => ((List.range (u16 p 2)).map fun i => encLe 16 ((d.copy (u8 p 0)).entry (u8 p 0) (u32 p 4 + i))).flatten)) ∧
  (∀ h p s, mayBegin (.planishStatus h p) s = true →
    let d := begunDev (.planishStatus h p) s; let c := begunCmd (.planishStatus h p) s
    ∃ data, exec (.planishStatus h p) s = .next (s.withDev (d.finalReply c St.done 0 data)) ∧
    data.length = 28 ∧ slice data 0 4 = enc 1 (d.copy 0).state ++ enc 1 (d.copy 1).state ++ [0, 0]) ∧
  Occurs .planishRetireDone (fun d => d.hearthOff = false ∧ (d.copy 0).state = 6 ∧ (d.syn.strips.any fun t => t.frame < d.pm.swapFrame && t.phase < 3) = false)
    (fun d => d.copyState 0 3)

/-- When a load of uncompressed entries from a buffer not LOST is done: if every entry passes its check, all are written, the copy is READY and the completion event is DONE; at the first entry that does not pass, the entries before it are written, the copy becomes DIRTY and the completion event is FAULT, CHECK, with how many were written and which failed. Entries outside the range keep their values. (What the hearth side does, it does while it is neither held in reset nor shut down.) (R84, R90, R97) -/
def Obligations.PlanishEntriesAreChecked : Prop :=
  (∀ s l o, s.dev.hearthOff = false → s.dev.pm.load = some l → l.format = 0 → s.heap.buf l.buffer = some o → o.lost = false → l.bytes = 16 * l.count → l.copy < s.dev.pm.copies.length →
    (∀ i < l.count, entryOk (srcEntry (o.read l.offset l.bytes) i) = true) →
    ∃ t : Dev, exec .planishLoadDone s = .next (s.withDev (t.complete l.cmd St.done 0 (enc 4 l.count ++ enc 4 0xFFFFFFFF))) ∧
      t = { s.dev with pm := t.pm } ∧ t.pm.load = none ∧ (t.copy l.copy).state = 3 ∧
      (∀ i < l.count, amGet (t.copy l.copy).entries (l.first + i) 0 = srcEntry (o.read l.offset l.bytes) i) ∧
      ∀ j v, j < l.first ∨ l.first + l.count ≤ j → amGet (t.copy l.copy).entries j v = amGet (s.dev.copy l.copy).entries j v) ∧
  (∀ s l o k, s.dev.hearthOff = false → s.dev.pm.load = some l → l.format = 0 → s.heap.buf l.buffer = some o → o.lost = false → l.bytes = 16 * l.count → k < l.count →
    l.copy < s.dev.pm.copies.length →
    (∀ i < k, entryOk (srcEntry (o.read l.offset l.bytes) i) = true) → entryOk (srcEntry (o.read l.offset l.bytes) k) = false →
    ∃ t : Dev, exec .planishLoadDone s = .next (s.withDev (t.complete l.cmd St.fault Rsp.checkFail (enc 4 k ++ enc 4 (l.first + k)))) ∧
      t = { s.dev with pm := t.pm } ∧ (t.copy l.copy).state = 2 ∧
      (∀ i < k, amGet (t.copy l.copy).entries (l.first + i) 0 = srcEntry (o.read l.offset l.bytes) i) ∧
      ∀ j v, j < l.first ∨ l.first + k ≤ j → amGet (t.copy l.copy).entries j v = amGet (s.dev.copy l.copy).entries j v)

/-- DECODE_STREAM_SET on an OFF slot whose interfaces exist and whose groups no other slot uses stores the configuration; on a slot not OFF it is BAD_STATE. DECODE_STREAM_ENABLE of an unconfigured slot is BAD_STATE, SLOT_EMPTY, beyond admission NO_RESOURCE, else it starts the slot and is ACCEPTED; the transition done, a slot that was starting is ON and its commands complete DONE. DECODE_PRIORITY replies the previous priority and sets the new one. DECODE_ASSIGN of all 0xFF removes the table, of a legal table for the next start stores it. DECODE_STATUS and DECODE_EVENTS report. VIEW_REPLACE with no view on a failed die changes nothing. (What the hearth side does, it does while it is neither held in reset nor shut down.) (R55, R119, R121, R122, R129, R130, R131, R132, R133, R134, R135, R136) -/
def Obligations.DecodeSlots : Prop :=
  (∀ h p, Ends (.decodeStreamSet h p)
    (fun _ d => d.decSt (u8 p 0) = .off ∧ (∀ z ∈ (streamCfgOf p).sources, d.pairExists z.pair = true) ∧
      d.sourceInUse (u8 p 0) (streamCfgOf p).sources = false)
    (fun _ d => (d.setStream (u8 p 0) fun x => { x with cfg := some (streamCfgOf p), prio := u8 p 2, views := [], load := 0, lost := 0 }).sourceCheck)
    (fun _ _ => .done)) ∧
  (∀ h p, Ends (.decodeStreamSet h p) (fun _ d => d.decSt (u8 p 0) ≠ .off)
    (fun _ d => d) (fun _ _ => .bad St.badState 0x40)) ∧
  (∀ h p, Ends (.decodeStreamEnable h p) (fun _ d => (d.stream (u8 p 0)).cfg = none) (fun _ d => d) (fun _ _ => .bad St.badState 0x45)) ∧
  (∀ h p, Ends (.decodeStreamEnable h p)
    (fun _ d => (d.stream (u8 p 0)).cfg ≠ none ∧ u8 p 1 = 1 ∧ d.decSt (u8 p 0) = .off ∧ d.admits (u8 p 0) = false)
    (fun _ d => d) (fun _ _ => .bad St.noResource 0x41)) ∧
  (∀ h p, Ends (.decodeStreamEnable h p)
    (fun _ d => (d.stream (u8 p 0)).cfg ≠ none ∧ u8 p 1 = 1 ∧ d.decSt (u8 p 0) = .off ∧ d.admits (u8 p 0) = true)
    (fun c d => (d.setFn (FnId.decode (u8 p 0)) { st := .starting, stored := none, running := [c] }).streamStart (u8 p 0)) (fun _ _ => .accepted)) ∧
  (∀ k f, k ≤ 7 → Occurs (.decodeTransitionDone k)
    (fun d => d.hearthOff = false ∧ d.fn (FnId.decode k) = f ∧ f.st = .starting ∧ f.stored = none)
    (fun d => (d.setFn (FnId.decode k) { st := .on }).completeAll f.running St.done 0)) ∧
  (∀ h p, Ends (.decodePriority h p) (fun _ d => (d.stream (u8 p 0)).cfg ≠ none ∧ (u8 p 1 < 6 ∨ 6 ≤ (d.stream (u8 p 0)).prio ∨ d.decSt (u8 p 0) = .off ∨
      d.admitLive (u8 p 0) = true))
    (fun _ d => d.setStream (u8 p 0) fun x => { x with prio := u8 p 1 }) (fun _ d => .done (enc 1 (d.stream (u8 p 0)).prio))) ∧
  (∀ h p, Ends (.decodeAssign h p) (fun _ _ => ∀ i < 16, u8 p (4 + i) = 0xFF)
    (fun _ d => d.setStream (u8 p 0) fun x => { x with assign := none }) (fun _ _ => .done)) ∧
  (∀ h p z, Ends (.decodeAssign h p)
    (fun _ d => u8 p 1 = 0 ∧ (d.stream (u8 p 0)).cfg = some z ∧ 1 ≤ z.views ∧ z.views ≤ 16 ∧ (∀ i < z.views, u8 p (4 + i) ≤ 3) ∧
      (∀ i, z.views ≤ i → i < 16 → u8 p (4 + i) = 0) ∧ d.tableBad (u8 p 0) (((List.range 16).map fun i => u8 p (4 + i)).take z.views) = false)
    (fun _ d => d.setStream (u8 p 0) fun x => { x with assign := some (((List.range 16).map fun i => u8 p (4 + i)).take z.views) }) (fun _ _ => .done)) ∧
  (∀ h p s, mayBegin (.decodeStatus h p) s = true →
    let d := begunDev (.decodeStatus h p) s; let c := begunCmd (.decodeStatus h p) s
    ∃ data, exec (.decodeStatus h p) s = .next (s.withDev (d.finalReply c St.done 0 data)) ∧
    data.length = 140 ∧ u8 data 0 = (d.decSt (u8 p 0)).num ∧ u8 data 1 = (d.stream (u8 p 0)).prio % 256) ∧
  (∀ h p, Reports (.decodeEvents h p) (fun _ d => d.dec.ring = []) (fun _ d => enc 4 d.dec.next ++ enc 4 d.dec.next)) ∧
  (∀ h p e r, Reports (.decodeEvents h p) (fun _ d => d.dec.ring = e :: r)
    (fun _ d => enc 4 e.1 ++ enc 4 d.dec.next ++ ((((e :: r).filter fun x => u32 p 0 ≤ x.1).take (u16 p 4)).map (·.2)).flatten)) ∧
  Occurs .viewReplace (fun d => d.hearthOff = false ∧ ∀ e ∈ d.placed, ∀ i, e.2.2 = some i → d.fab.failed.getD i false = false) id

/-- A slice of a layer the stream does not declare is discarded and counted as it is received. An entropy engine takes its die's first slice in the order of R116; with none it does nothing. One that finds the entropy-output buffer too full stays and is counted as a stall; else it leaves the slot: a RASL picture's is discarded and not counted, one without parameter sets at the die is not decoded, one whose parameter sets fail a check rejects its component with the code, any other is parsed. A pixel engine makes the next ready CTU row; the last row of a closed picture completes it. An access unit of a slot that is not ON closes nothing; the oldest one of a source whose slices are all parsed closes. A kind 3 picture received whole is complete; one that is not is complete with its component concealed. The oldest picture that is not yet late becomes late at its due time, is counted and recorded. (What the hearth side does, it does while it is neither held in reset nor shut down.) (R105, R108, R110, R113, R114, R116, R117, R123, R127, R128, R129, R356) -/
def Obligations.PicturesAreParsedAndClosed : Prop :=
  (∀ (d : Dev) k src t nal c z, (d.stream k).cfg = some c → d.source? k src = some z → ¬(32 ≤ u8 nal 0 / 2 % 64 ∧ u8 nal 0 / 2 % 64 ≤ 34) →
    layerComp c z (d.rxOf k src).vps (u8 nal 0 % 2 * 32 + u8 nal 1 / 8) = none → d.nalIn k src t nal = d.bump (d.srcDie k src) R.DEC_LAYER_DISCARD) ∧
  (∀ i e x, Occurs (.sliceSegmentParse i e x) (fun d => d.hearthOff = false ∧ d.nextSlice i = none) id) ∧
  (∀ i e x w n c, i ≤ 3 → e ≤ 1 → Occurs (.sliceSegmentParse i e x)
    (fun d => d.hearthOff = false ∧ d.nextSlice i = some (w, n) ∧ (d.stream w.slot).cfg = some c ∧ d.stalls i (d.stream w.slot).live x.bytes = true)
    (fun d => d.bump (i + 1) R.DEC_EOB_STALL)) ∧
  (∀ i e x w n c, i ≤ 3 → e ≤ 1 → Occurs (.sliceSegmentParse i e x)
    (fun d => d.hearthOff = false ∧ d.nextSlice i = some (w, n) ∧ (d.stream w.slot).cfg = some c ∧ d.stalls i (d.stream w.slot).live x.bytes = false)
    (fun d => ((d.setStream w.slot fun y => { y with nals := y.nals.erase n }).takeWork i e (d.stream w.slot).live).slice i c w n x)) ∧
  (∀ (d : Dev) i c w n x, (u8 n.data 0 / 2 % 64 = 8 ∨ u8 n.data 0 / 2 % 64 = 9) → (d.comp w.slot w.view w.depth).noRasl = true →
    d.slice i c w n x = d.setComp w.slot w.view w.depth fun m => { m with skipped := (n.time :: m.skipped.filter (· ≠ n.time)).take 16 }) ∧
  (∀ (d : Dev) i c w n x, (d.comp w.slot w.view w.depth).noRasl = false → d.hasSets w.slot i n.src = false → d.slice i c w n x = d) ∧
  (∀ (d : Dev) i c w n x t, (d.comp w.slot w.view w.depth).noRasl = false → d.hasSets w.slot i n.src = true → c.toolCode w.depth x.ps = some t →
    (d.comp w.slot w.view w.depth).tool = none → (d.comp w.slot w.view w.depth).trial = none →
    d.slice i c w n x = (((d.setComp w.slot w.view w.depth fun m => { m with tool := some t, cycles := [] }).bump (d.viewDie w.slot w.view)
      R.DEC_REJECT).decRecord 3 w.slot w.view w.depth t x.poc 0)) ∧
  (∀ (d : Dev) i c w n x, (d.comp w.slot w.view w.depth).noRasl = false → d.hasSets w.slot i n.src = true → c.toolCode w.depth x.ps = none →
    (d.comp w.slot w.view w.depth).tool = none → d.slice i c w n x = d.takeSlice i w.slot w.view w.depth x n.time (u8 n.data 0 / 2 % 64)) ∧
  (∀ i e, Occurs (.ctuRowReconstruct i e) (fun d => d.hearthOff = false ∧ d.nextRow i = none) id) ∧
  (∀ i e w o, i ≤ 3 → e ≤ 5 → ¬(o.made + 1 = o.rows ∧ o.closed = true) → Occurs (.ctuRowReconstruct i e)
    (fun d => d.hearthOff = false ∧ d.nextRow i = some (w, o))
    (fun d => ((d.takeWork i (2 + e) (d.stream w.slot).live).setComp w.slot w.view w.depth fun c => { c with opened := c.opened.map fun q =>
      if q = o then { o with made := o.made + 1, bytes := o.bytes - o.bytes / (o.rows - o.made) } else q }).eobSync i)) ∧
  (∀ i e w o, i ≤ 3 → e ≤ 5 → o.made + 1 = o.rows → o.closed = true → Occurs (.ctuRowReconstruct i e)
    (fun d => d.hearthOff = false ∧ d.nextRow i = some (w, o))
    (fun d => (((d.takeWork i (2 + e) (d.stream w.slot).live).setComp w.slot w.view w.depth fun c => { c with opened := c.opened.map fun q =>
      if q = o then { o with made := o.made + 1, bytes := o.bytes - o.bytes / (o.rows - o.made) } else q }).eobSync i).picDone w.slot w.view w.depth
        { o with made := o.made + 1, bytes := o.bytes - o.bytes / (o.rows - o.made) })) ∧
  (∀ k src poc n r, Occurs (.accessUnitClose k src poc n r) (fun d => d.hearthOff = false ∧ d.decSt k ≠ .on) id) ∧
  (∀ k src poc n r c a, Occurs (.accessUnitClose k src poc n r) (fun d => d.hearthOff = false ∧ (d.stream k).cfg = some c ∧
      ((d.stream k).ended.find? fun e => e.src = src && !e.done) = some a ∧ d.decSt k = .on ∧ c.kind ≠ 3 ∧
      ((d.stream k).nals.any fun n => n.src = src && n.time = a.time) = false)
    (fun d => (d.setStream k fun x => { x with ended := x.ended.map fun e => if e = a then { e with done := true } else e }).closeAu k src c
      a.time poc n r)) ∧
  (∀ k src c z o, Occurs (.uncompressedPictureClose k src)
    (fun d => d.hearthOff = false ∧ (d.stream k).cfg = some c ∧ d.source? k src = some z ∧ (d.comp k z.view z.depth).opened.find? (·.closed) = some o ∧ c.kind = 3 ∧
      d.decSt k = .on)
    (fun d => (((d.setStream k fun x => { x with ended := x.ended.map fun e => if e.src = src && e.time = o.time then { e with done := true } else e }).setComp
      k z.view z.depth fun m => { m with hidden := if o.whole then m.hidden else some o.serial,
                                         opened := m.opened.map fun q => if q = o then { o with irap := o.whole, subst := !o.whole } else q }).picDone
        k z.view z.depth { o with irap := o.whole, subst := !o.whole }))) ∧
  (∀ k v dep o, Occurs (.pictureLate k v dep) (fun d => d.hearthOff = false ∧ ((d.comp k v dep).opened.find? fun o => !o.late) = some o ∧
      ((d.dueFrame k o.time).all fun f => decide (d.nextPick ≤ f)) = true) id) ∧
  (∀ k v dep o, Occurs (.pictureLate k v dep) (fun d => d.hearthOff = false ∧ ((d.comp k v dep).opened.find? fun o => !o.late) = some o ∧
      ((d.dueFrame k o.time).all fun f => decide (d.nextPick ≤ f)) = false)
    (fun d => ((d.setComp k v dep fun c => { c with opened := c.opened.map fun q => if q = o then { q with late := true } else q }).bump
      (d.viewDie k v) R.DEC_LATE).decRecord 4 k v dep 0 o.poc 0))

/-- SYN_SOURCE_SET for a configured slot with as many cameras as views, all in range, writes slot and cameras into the shadow registers of every hob die in service. SYN_SOURCE_GET reports the values in effect or the shadow. SYN_CONFIG writes the shadow registers and the throttle floor at once. SYN_STATUS reports 36 bytes. SYN_GRATE_SET on a failed die is BAD_STATE, on a faulted grate BAD_STATE, for a grate already so DONE, below nine grates NO_RESOURCE, and otherwise its reply waits for the list to change. (R162, R163, R164, R165, R166, R167, R168) -/
def Obligations.SynthesisCommands : Prop :=
  (∀ h p z, Ends (.synSourceSet h p)
    (fun _ d => (∀ i < u8 p 1, u32 p (44 + 40 * i) = 0 ∧ cameraBad p (8 + 40 * i) = false) ∧
      (d.stream (u8 p 0)).cfg = some z ∧ z.views = u8 p 1)
    (fun _ d => let e := d.hobsUp.foldl (fun d k => ((R.SYN_SOURCE_SLOT, u8 p 0) ::
        ((List.range (u8 p 1)).map fun i => (camFields i).map fun e => (e.1, u32 p (8 + 40 * i + e.2))).flatten).foldl (fun d w => d.wrS k w.1 w.2) d) d
      { e with syn := { d.syn with camNext := u8 p 1 } }) (fun _ _ => .done)) ∧
  (∀ h p, Reports (.synSourceGet h p) (fun _ _ => u8 p 0 = 0) (fun _ d =>
    enc 1 (d.rdB (d.hobsUp.headD 1) R.SYN_SOURCE_SLOT) ++ enc 1 d.syn.camNow ++ zeros 6 ++ ((List.range d.syn.camNow).map fun i =>
      ((camFields i).map fun e => enc 4 (d.rdB (d.hobsUp.headD 1) e.1)).flatten ++ zeros 4).flatten)) ∧
  (∀ h p, Reports (.synSourceGet h p) (fun _ _ => u8 p 0 = 1) (fun _ d =>
    enc 1 (d.rdS (d.hobsUp.headD 1) R.SYN_SOURCE_SLOT) ++ enc 1 d.syn.camNext ++ zeros 6 ++ ((List.range d.syn.camNext).map fun i =>
      ((camFields i).map fun e => enc 4 (d.rdS (d.hobsUp.headD 1) e.1)).flatten ++ zeros 4).flatten)) ∧
  (∀ h p s, mayBegin (.synConfig h p) s = true →
    let d := begunDev (.synConfig h p) s; let c := begunCmd (.synConfig h p) s
    ∃ t : Dev, exec (.synConfig h p) s = .next (s.withDev (t.finalReply c St.done 0 [])) ∧
    t = { d with regs := t.regs, shadow := t.shadow } ∧ ∀ k ∈ d.hobsUp, t.rd k R.SYN_THROTTLE_FLOOR = u8 p 3 ∧ t.rdS k R.SYN_LEAD = u16 p 0 ∧
      t.rdS k R.SYN_PRES_DELAY = u32 p 4 ∧ t.rdS k R.SYN_OCC_TOL = u32 p 8 ∧ t.rdS k R.SYN_EPS = u32 p 12 ∧ t.rdS k R.SYN_TAPS_MAX = u8 p 2) ∧
  (∀ h p s, mayBegin (.synStatus h p) s = true →
    let d := begunDev (.synStatus h p) s; let c := begunCmd (.synStatus h p) s
    ∃ data, exec (.synStatus h p) s = .next (s.withDev (d.finalReply c St.done 0 data)) ∧
    data.length = 36 ∧ slice data 0 4 = enc 1 (d.rd (d.hobsUp.headD 1) R.SYN_THROTTLE_EFFECTIVE) ++ enc 1 (d.rd (d.hobsUp.headD 1) R.SYN_THROTTLE_THERMAL) ++
      enc 1 (d.rd (d.hobsUp.headD 1) R.SYN_THROTTLE_FLOOR) ++ enc 1 d.syn.list.length) ∧
  (∀ h p, Ends (.synGrateSet h p) (fun _ d => d.hobUp (u8 p 0 + 1) = false) (fun _ d => d) (fun _ _ => .bad St.badState 0x43)) ∧
  (∀ h p, Ends (.synGrateSet h p) (fun _ d => d.hobUp (u8 p 0 + 1) = true ∧ d.syn.faulted.contains (u8 p 0 + 1, u8 p 1) = true)
    (fun _ d => d) (fun _ _ => .bad St.badState 0x44)) ∧
  (∀ h p, Ends (.synGrateSet h p) (fun _ d => d.hobUp (u8 p 0 + 1) = true ∧ d.syn.faulted.contains (u8 p 0 + 1, u8 p 1) = false ∧ d.syn.moving = [] ∧
      (u8 p 2 = 1 ↔ d.syn.hostOff.contains (u8 p 0 + 1, u8 p 1) = false))
    (fun _ d => d) (fun _ _ => .done)) ∧
  (∀ h p, Ends (.synGrateSet h p) (fun _ d => d.hobUp (u8 p 0 + 1) = true ∧ d.syn.faulted.contains (u8 p 0 + 1, u8 p 1) = false ∧ d.syn.moving = [] ∧
      u8 p 2 = 1 ∧ d.syn.hostOff.contains (u8 p 0 + 1, u8 p 1) = true)
    (fun c d => { d with syn := { d.syn with moving := [(c, (u8 p 0 + 1, u8 p 1), true)] } }) (fun _ _ => .later)) ∧
  (∀ h p, Ends (.synGrateSet h p) (fun _ d => d.hobUp (u8 p 0 + 1) = true ∧ d.syn.faulted.contains (u8 p 0 + 1, u8 p 1) = false ∧ d.syn.moving = [] ∧
      u8 p 2 = 0 ∧ d.syn.hostOff.contains (u8 p 0 + 1, u8 p 1) = false ∧ (d.gratesOn.filter (· ≠ (u8 p 0 + 1, u8 p 1))).length < 9)
    (fun _ d => d) (fun _ _ => .bad St.noResource 0x42))

/-- PICK_TIME of a frame not after one picked, or before the release of its first strip, changes nothing; of a new one it keeps what the frame is computed from in at most four picks. STRIP_DEAL, at its release time, of the next strip of the deal sequence, with a pick and no grate request pending, gives it to the next grate of the list, the list moves on and the view cache of the grate is filled for it. A dealt strip whose grate runs none, has a free buffer and no earlier one to begin, begins. A strip not begun two strip times before its deadline is split over the list and counted as rescued. A complete strip is not completed again, nor one that was never begun; one that was begun is complete with the codes of its rays. The first lost strip is redone over the list and counted as redealt. (What the hearth side does, it does while it is neither held in reset nor shut down.) (R139, R141, R142, R143, R144, R145, R146, R148, R154, R156, R160, R551) -/
def Obligations.StripsAreDealtBegunAndComplete : Prop :=
  (∀ f, Occurs (.pickTime f) (fun d => d.hearthOff = false ∧ (d.syn.picks.any fun k => decide (k.frame ≥ f)) = true) id) ∧
  (∀ f, Occurs (.pickTime f) (fun d => d.hearthOff = false ∧ d.reached (d.releaseTime 0 0 0 f) = false) id) ∧
  (∀ f s, s.dev.hearthOff = false → s.dev.mode ≠ 0 → (s.dev.syn.picks.any fun k => decide (k.frame ≥ f)) = false → s.dev.reached (s.dev.releaseTime 0 0 0 f) = true →
    ∃ t : Dev, exec (.pickTime f) s = .next (s.withDev t) ∧
    t.syn.picks.length ≤ 4 ∧ ∃ k rest, t.syn.picks = k :: rest ∧ k.frame = f ∧ k.level = ((s.dev.pmSwap f).moveGrates true).levelNow ∧
      k.layers = ((s.dev.pmSwap f).moveGrates true).lay.bound) ∧
  (∀ r v i f k e, Occurs (.stripDeal r v i f)
    (fun d => d.hearthOff = false ∧ d.syn.moving = [] ∧ (d.syn.picks.find? fun k => k.frame = f) = some k ∧ d.stripExists r v i = true ∧
      d.syn.dead.contains (r, f) = false ∧ d.dealNext r v i f = true ∧ d.reached (d.releaseTime r v i f) = true ∧
      d.syn.list[(d.syn.next - d.syn.first) % d.syn.list.length]? = some e)
    (fun d => (d.hobsUp.foldl (fun (d : Dev) j => d.wr j R.SYN_THROTTLE_EFFECTIVE k.level) ({ d with syn := { d.syn with
      next := d.syn.next + 1, lastDie := some e.1, strips := d.syn.strips ++ [{ region := r, view := v, idx := i, frame := f, die := e.1, grate := e.2 }]
      dealt := kvPut d.syn.dealt (r, f) (d.dealtOf r f + 1) } } : Dev)).cacheFill k
        { region := r, view := v, idx := i, frame := f, die := e.1, grate := e.2 })) ∧
  (∀ r v i f, Occurs (.stripDeal r v i f) (fun d => d.hearthOff = false ∧ (d.dealNext r v i f = false ∨ d.reached (d.releaseTime r v i f) = false)) id) ∧
  (∀ r v i f t, t.phase = 0 → t.redone = false → t.rescued = false → Occurs (.stripBegin r v i f)
    (fun d => d.hearthOff = false ∧ d.strip? r v i f = some t ∧ d.mayBegin t = true) (fun d => d.setStrip { t with phase := 1 })) ∧
  (∀ r v i f t, t.phase = 0 → t.redone = false → t.rescued = false → Occurs (.stripRescue r v i f)
    (fun d => d.hearthOff = false ∧ d.strip? r v i f = some t ∧ d.syn.list ≠ [] ∧ d.reached (earlier (d.deadline r v i f) (2 * d.stripTime r)) = true)
    (fun d => (d.bump (d.countDie t.die) R.SYN_RESCUE).setStrip (d.split { t with rescued := true }))) ∧
  (∀ r v i f a b t, 2 ≤ t.phase ∨ (t.phase = 0 ∧ t.rescued = false) → Occurs (.stripComplete r v i f a b) (fun d => d.hearthOff = false ∧ d.strip? r v i f = some t) id) ∧
  (∀ r v i f a b t s, s.dev.hearthOff = false → t.phase = 1 ∨ (t.phase = 0 ∧ t.rescued = true) → t.redone = false → s.dev.strip? r v i f = some t →
    (s.dev.syn.picks.any fun k => k.frame = f) = true → exec (.stripComplete r v i f a b) s = .next (s.withDev
      (let d := s.dev.stripDone s.heap t a b
       d.wr (s.dev.countDie t.die) R.SYN_SLACK_MIN (min (d.slackNow r v i f) (d.rd (s.dev.countDie t.die) R.SYN_SLACK_MIN))))) ∧
  (∀ (d : Dev) hp r v i f t k, d.strip? r v i f = some t → (d.syn.picks.find? fun k => k.frame = f) = some k →
    (d.stripDone hp t [] []).strip? r v i f = some { t with phase := 2, lines := (d.computeStrip hp k t).1, cuts := [] }) ∧
  (∀ t s a b, s.dev.hearthOff = false → s.dev.redoing = some t → t.parts ≠ [] → (s.dev.syn.picks.any fun k => k.frame = t.frame) = true →
    exec (.redoneStripComplete a b) s = .next (s.withDev
      (((s.dev.stripDone s.heap t a b).bump (s.dev.countDie t.die) R.SYN_REDEALT).failoverFlag)))

/-- A line of a complete strip leaves once it is due and every link has the credits for its share: each reachable link is sent its PIXEL_RUN messages, a share for an unreachable die is dropped and counted, and after the sixteenth line the strip is gone. A line of an excused strip leaves as runs without data; a lost strip not complete 2 µs before its need time is excused and counted. A strip complete at its deadline causes nothing; one dealt and not complete there underruns its region: its strips of the frame are discarded, no more are dealt for it, and all other strips stay. An uncorrectable check of a cell takes it offline at once; a first corrected one is a cell-level descriptor. (What the hearth side does, it does while it is neither held in reset nor shut down.) (R22, R31, R139, R141, R157, R158, R159, R161, R551) -/
def Obligations.StripsAreSentOrUnderrun : Prop :=
  (∀ r v i f t, t.phase = 2 → Occurs (.stripLineSend r v i f)
    (fun d => d.hearthOff = false ∧ d.strip? r v i f = some t ∧ (∀ e ∈ d.lineRunsOf t, d.credited e = true) ∧ d.lineDue t = true)
    (fun d => ((d.lineRunsOf t).foldl Dev.sendRuns d).lineLeft t)) ∧
  (∀ r v i f t, Occurs (.stripLineSend r v i f)
    (fun d => d.hearthOff = false ∧ (d.strip? r v i f = some t ∧ ((∃ e ∈ d.lineRunsOf t, d.credited e = false) ∨ d.lineDue t = false))) id) ∧
  (∀ (d : Dev) e, d.flueUp (linkDie e.1) = false → d.sendRuns e = d.bump 0 (R.DMP_RAY_DROP (linkDie e.1 - 8)) e.2.1) ∧
  (∀ r v i f t, t.redone = true → t.excused = true → t.phase < 2 → Occurs (.excusedLineSend r v i f) (fun d => d.hearthOff = false ∧ d.strip? r v i f = some t)
    (fun d => ((((d.lineRunsOf t).map fun e => (e.1, e.2.1,
      if d.carriedLine e.1 t.frame ((if d.mode = 2 then 1600 * t.view else 0) + 16 * t.idx + t.sent)
      then [[e.1 * 2 ^ 56 + ((if d.mode = 2 then 1600 * t.view else 0) + 16 * t.idx + t.sent) * 2 ^ 40 + t.frame % 2 ^ 24]] else [])).foldl
        Dev.sendRuns d).lineLeft t).failoverFlag)) ∧
  (∀ r v i f t s, s.dev.hearthOff = false → t.redone = true → t.excused = false → t.phase < 2 → s.dev.strip? r v i f = some t →
    s.dev.reached (earlier (s.dev.needTime r v i f) 2000) = true →
    ((s.dev.excuse t).strip? r v i f = some { t with excused := true } ∧
      exec (.excusedLineSend r v i f) s = exec (.excusedLineSend r v i f) (s.withDev (s.dev.excuse t)))) ∧
  (∀ r v i f t, 2 ≤ t.phase → Occurs (.stripDeadlineMiss r v i f) (fun d => d.hearthOff = false ∧ d.strip? r v i f = some t) id) ∧
  (∀ r v i f t s, t.phase < 2 → t.redone = false → s.dev.hearthOff = false → s.dev.strip? r v i f = some t →
    s.dev.reached (s.dev.deadline r v i f) = true →
    exec (.stripDeadlineMiss r v i f) s = .next (s.withDev (s.dev.underrun s.heap r v i f (s.dev.countDie t.die) t.grate))) ∧
  (∀ (d : Dev) hp r v i f k g, (d.underrun hp r v i f k g).syn.dead.contains (r, f) = true ∧
    (∀ t ∈ (d.underrun hp r v i f k g).syn.strips, ¬(t.region = r ∧ t.frame = f)) ∧
    ∀ t ∈ d.syn.strips, ¬(t.region = r ∧ t.frame = f) → t ∈ (d.underrun hp r v i f k g).syn.strips) ∧
  (∀ die g c s, s.dev.hearthOff = false → g ≤ 2 → c ≤ 7 → s.dev.hobsUp.contains die = true → bit (s.dev.rd die R.SYN_CELL_OFFLINE) (8 * g + c) = false →
    s.dev.syn.faulted.contains (die, g) = false → s.dev.syn.cellErr = [] →
    exec (.cellCheckFail die g c Cause.eccCorrected) s = .next (s.withDev
      (({ s.dev with syn := { s.dev.syn with cellErr := [((die, 8 * g + c), [s.dev.stamp])] } } : Dev).descriptor 0 die 0x12 (8 * g + c) Cause.eccCorrected 0 0))) ∧
  (∀ die g c s, s.dev.hearthOff = false → g ≤ 2 → c ≤ 7 → s.dev.hobsUp.contains die = true → bit (s.dev.rd die R.SYN_CELL_OFFLINE) (8 * g + c) = false →
    s.dev.syn.faulted.contains (die, g) = false → s.dev.syn.cellErr = [] →
    exec (.cellCheckFail die g c Cause.eccUncorrectable) s = .next (s.withDev (s.dev.cellOffline s.heap die g c Cause.eccUncorrectable)))

/-- RASTER_SET in panel mode of a legal raster for the region, OFF, on reachable flue dies whose writes are all answered, writes rate and blanking into both dies' shadow registers by messages to them, holds the raster for the region alone and is DONE; where a flue die is not reachable it is FAULT. RASTER_ENABLE of a region without a raster is BAD_STATE, NO_RASTER; with a damper half of one of its links down BAD_STATE; enabling with a timing that another region contradicts is TIMING_MISMATCH; disabling a region ON is ACCEPTED and begins to stop it, and where a flue die is not reachable it is ACCEPTED and completes FAULT. GENLOCK_SET with an offset within half a frame writes the settings on flue die 0. RASTER_STATUS reports 48 bytes; SIGNATURE_READ the oldest frame held and the signatures from the frame asked for; both are FAULT where a flue die they read cannot be reached. (R36, R55, R205, R213, R220, R221, R222, R224, R225, R226, R550) -/
def Obligations.RasterCommands : Prop :=
  (∀ h p s, mayBegin (.rasterSet h p) s = true →
    let d := begunDev (.rasterSet h p) s; let c := begunCmd (.rasterSet h p) s
    let x : Raster := ⟨u8 p 1, u16 p 4, u32 p 8, u16 p 12, u16 p 14⟩
    d.mode = 1 → u8 p 0 = 0 → x.slotLines = 0 → rasterBad 1 x = none → (d.fn (FnId.region 0)).st = .off → d.timingAgrees 0 x = true →
    (∀ k ∈ flueDies, d.flueUp k = true ∧ d.canAnswer k = true) → h.answered = none → 0 < d.ras.rasters.length →
    ∃ t : Dev, exec (.rasterSet h p) s = .next (s.withDev (t.finalReply c St.done 0 [])) ∧
      t = { d with shadow := t.shadow, ras := t.ras, dmp := t.dmp, out := t.out } ∧
      t.ras.rasters.getD 0 none = some x ∧ (∀ k, k ≠ 0 → t.ras.rasters.getD k none = d.ras.rasters.getD k none) ∧
      ∀ k ∈ flueDies, t.rdS k R.SCN_RATE = x.rate ∧ t.rdS k R.SCN_VBLANK = x.vblank ∧ t.rdS k R.SCN_WIDTH = x.width ∧ t.rdS k R.SCN_ACTIVE = x.active) ∧
  (∀ h p, Ends (.rasterSet h p) (fun _ d =>
      let x : Raster := ⟨u8 p 1, u16 p 4, u32 p 8, u16 p 12, u16 p 14⟩
      d.mode = 1 ∧ u8 p 0 = 0 ∧ x.slotLines = 0 ∧ rasterBad 1 x = none ∧ (d.fn (FnId.region 0)).st = .off ∧ d.timingAgrees 0 x = true ∧ d.flueUp 9 = false)
    (fun _ d => d) (fun _ _ => .bad St.fault 0)) ∧
  (∀ h p, Ends (.rasterEnable h p) (fun _ d => (d.mode = 1 → u8 p 0 = 0) ∧ (u8 p 1 = 1 → d.regionExists (u8 p 0) = true) ∧
      d.ras.rasters.getD (u8 p 0) none = none) (fun _ d => d) (fun _ _ => .bad St.badState Rsr.noRaster)) ∧
  (∀ h p x k, Ends (.rasterEnable h p) (fun _ d => (d.mode = 1 → u8 p 0 = 0) ∧ (u8 p 1 = 1 → d.regionExists (u8 p 0) = true) ∧
      d.ras.rasters.getD (u8 p 0) none = some x ∧ k ∈ (d.linksUsed x.width (u8 p 0)).map linkDie ∧
      d.rd 0 (R.DMP_HALF_ON (k - 8)) = 0) (fun _ d => d) (fun _ _ => .bad St.badState Rsr.dieDown)) ∧
  (∀ h p x, Ends (.rasterEnable h p) (fun _ d => (d.mode = 1 → u8 p 0 = 0) ∧ d.regionExists (u8 p 0) = true ∧
      d.ras.rasters.getD (u8 p 0) none = some x ∧ u8 p 1 = 1 ∧ (∀ k ∈ (d.linksUsed x.width (u8 p 0)).map linkDie, d.rd 0 (R.DMP_HALF_ON (k - 8)) ≠ 0) ∧
      d.timingAgrees (u8 p 0) x = false) (fun _ d => d) (fun _ _ => .bad St.badState Rsr.timingMismatch)) ∧
  (∀ h p x, Ends (.rasterEnable h p) (fun _ d => (d.mode = 1 → u8 p 0 = 0) ∧ d.ras.rasters.getD (u8 p 0) none = some x ∧
      u8 p 1 ≠ 1 ∧ (∀ k ∈ (d.linksUsed x.width (u8 p 0)).map linkDie, d.flueUp k = true ∧ d.canAnswer k = true) ∧ h.answered = none ∧
      (d.fn (FnId.region (u8 p 0))).st = .on)
    (fun c d => ((d.setFn (FnId.region (u8 p 0)) { st := .stopping, stored := none, running := [c] }).stopAsked (u8 p 0) d.frame).filmWithRegion)
    (fun _ _ => .accepted)) ∧
  (∀ h p x k, Ends (.rasterEnable h p) (fun _ d => (d.mode = 1 → u8 p 0 = 0) ∧ d.ras.rasters.getD (u8 p 0) none = some x ∧
      u8 p 1 ≠ 1 ∧ (∀ k ∈ (d.linksUsed x.width (u8 p 0)).map linkDie, d.rd 0 (R.DMP_HALF_ON (k - 8)) ≠ 0) ∧
      k ∈ (d.linksUsed x.width (u8 p 0)).map linkDie ∧ d.flueUp k = false ∧ (d.fn (FnId.region (u8 p 0))).st = .on)
    (fun c d => (d.finalReply c St.accepted 0 []).complete c St.fault 0) (fun _ _ => .later)) ∧
  (∀ h p s, mayBegin (.genlockSet h p) s = true →
    let d := begunDev (.genlockSet h p) s; let c := begunCmd (.genlockSet h p) s
    2 * (s32 p 4).natAbs * 65536 * (periodOf d.rate).2 ≤ (periodOf d.rate).1 → d.flueUp 8 = true → d.canAnswer 8 = true → h.answered = none →
    ∃ t : Dev, exec (.genlockSet h p) s = .next (s.withDev (t.finalReply c St.done 0 [])) ∧
      t = { d with regs := t.regs, dmp := t.dmp, out := t.out } ∧ t.rd 8 R.SCN_GL_CTRL_FIRST = u8 p 0 ∧
      t.rd 8 R.SCN_GL_CTRL_SECOND = u8 p 1 ∧ t.rd 8 R.SCN_GL_CTRL_FLAGS = u8 p 2 ∧ t.rd 8 R.SCN_GL_OFFSET = u32 p 4) ∧
  (∀ h p s, mayBegin (.rasterStatus h p) s = true →
    let d := begunDev (.rasterStatus h p) s; let c := begunCmd (.rasterStatus h p) s
    (∀ k ∈ flueDies, d.flueUp k = true) → h.answered = none →
    ∃ data, exec (.rasterStatus h p) s = .next (s.withDev (d.finalReply c St.done 0 data)) ∧
    data.length = 48 ∧ u8 data 0 = (d.fn (FnId.region 0)).st.num ∧ u8 data 4 = d.ras.source % 256 ∧ be 8 data 8 = d.frame % 2 ^ 64) ∧
  (∀ h p, Ends (.rasterStatus h p) (fun _ d => d.flueUp 9 = false) (fun _ d => d) (fun _ _ => .bad St.fault 0)) ∧
  (∀ h p, Reports (.signatureRead h p) (fun _ d => d.flueUp (linkDie (u8 p 0)) = true ∧ h.answered = none ∧ d.ras.sigs.getD (u8 p 0) [] = [])
    (fun _ _ => enc 8 0)) ∧
  (∀ h p g r, Reports (.signatureRead h p) (fun _ d => d.flueUp (linkDie (u8 p 0)) = true ∧ h.answered = none ∧ d.ras.sigs.getD (u8 p 0) [] = g :: r)
    (fun _ _ => enc 8 g.frame ++ ((((g :: r).filter fun x => u64 p 4 ≤ x.frame).take (u8 p 1)).map fun x =>
      enc 6 x.frame ++ enc 2 x.flags ++ enc 4 x.crc).flatten)) ∧
  (∀ h p, Ends (.signatureRead h p) (fun _ d => d.flueUp (linkDie (u8 p 0)) = false) (fun _ d => d) (fun _ _ => .bad St.fault 0))

/-- COMMIT MODE 0 waits for its capture, numbered as it was accepted; when the hob dies have acknowledged it, it is answered with the next frame that can be bound and its binding time, and its flue part is sent. MODE 1 for a frame not yet bound and not more than 1,048,576 frames ahead, with fewer than 16 scheduled, is captured for that frame at once; an earlier frame is BAD_STATE, TOO_LATE, with the earliest frame left. The binding point with nothing waiting advances the bound frame; a commit that is due and not scheduled is applied to the hearth there and no longer waits. A capture marks no layer or swap as changed any more. Commits that wait stay in the order of their numbers. (What the hearth side does, it does while it is neither held in reset nor shut down.) (R184, R204, R209, R210, R211, R212, R223) -/
def Obligations.CommitsAreCapturedAndBound : Prop :=
  (∀ h p, Ends (.commit h p) (fun _ _ => u8 p 0 = 0)
    (fun c d => { d with ras := { d.ras with commitNo := d.ras.commitNo + 1, capture := d.ras.capture ++ [(d.ras.commitNo, c)] } }) (fun _ _ => .later)) ∧
  (∀ h p, Ends (.commit h p) (fun _ d => u8 p 0 = 1 ∧ u64 p 8 < d.nextBind) (fun _ d => d)
    (fun _ d => .reply St.badState Rsr.tooLate (enc 8 d.nextBind))) ∧
  (∀ h p, Ends (.commit h p) (fun _ d => u8 p 0 = 1 ∧ d.nextBind ≤ u64 p 8 ∧ u64 p 8 ≤ d.nextBind + 1048576 ∧ d.scheduled.length < 16)
    (fun _ d => let e := d.takeCommitNo.2.capture false
      (e.2.addCommit ⟨d.ras.commitNo, none, some (u64 p 8), 0, true, e.1⟩).pmFrame e.1.map (u64 p 8))
    (fun _ d => .done ((d.takeCommitNo.2.capture false).2.bindReply (u64 p 8)))) ∧
  (∀ h p, Ends (.commit h p) (fun _ d => u8 p 0 = 1 ∧ d.nextBind ≤ u64 p 8 ∧ u64 p 8 ≤ d.nextBind + 1048576 ∧ 16 ≤ d.scheduled.length)
    (fun _ d => d) (fun _ _ => .bad St.noResource Rsr.commitFull)) ∧
  (∀ no c rest, Occurs .commitCaptureComplete (fun d => d.hearthOff = false ∧ d.ras.capture = (no, c) :: rest)
    (fun d => let e : Dev := { d with ras := { d.ras with capture := rest } }
      let x := e.capture true
      let t := ((x.2.pmFrame x.1.map d.nextBind).sendFlue no d.nextBind x.1 none).addCommit ⟨no, none, some d.nextBind, 0, false, x.1⟩
      t.finalReply c St.done 0 (t.bindReply d.nextBind))) ∧
  (∀ (d : Dev) late, (d.capture late).2.blw.staged = [] ∧ ∀ n, n < d.lay.changed.length → (d.capture late).2.lay.changed.getD n true = false) ∧
  (∀ (d : Dev) (c : Commit), d.ras.commits.Pairwise (fun a b => a.no < b.no) → (∀ a ∈ d.ras.commits, a.no ≠ c.no) →
    (d.addCommit c).ras.commits.Pairwise (fun a b => a.no < b.no) ∧ ∀ a, a ∈ (d.addCommit c).ras.commits ↔ a = c ∨ a ∈ d.ras.commits) ∧
  Occurs .bindingPoint (fun d => d.hearthOff = false ∧ d.mode ≠ 0 ∧ d.ras.commits = [] ∧ d.lay.held.any Option.isSome = false)
    (fun d => let t := d.frameStart (d.ras.bound + 1)
      { d with ras := { d.ras with bound := d.numberAt d.ras.bound (roundFree t.1 t.2) }, syn := { d.syn with lead := d.rdB (d.hobsUp.headD 1) R.SYN_LEAD } }) ∧
  (∀ c, c.sched = false → Occurs .bindingPoint
    (fun d => d.hearthOff = false ∧ d.mode ≠ 0 ∧ d.ras.commits = [c] ∧ c.due (d.numberAt d.ras.bound (roundFree (d.frameStart (d.ras.bound + 1)).1 (d.frameStart (d.ras.bound + 1)).2))
      (d.frameStart (d.ras.bound + 1)) = true)
    (fun d => let t := d.frameStart (d.ras.bound + 1)
      let f := d.numberAt d.ras.bound (roundFree t.1 t.2)
      let e := ((({ d with ras := { d.ras with bound := f, commits := [] } } : Dev).bindHearth c.snap f).heldLayers f (c.snap.layers.map (·.1))).countHeld
      { e with syn := { e.syn with lead := e.rdB (e.hobsUp.headD 1) R.SYN_LEAD } }))

/-- With a mode set, FRAME_START makes the announced number the frame's, stamps its start on MEDIA and starts the slots again; with none it changes nothing. A latch line of a die applies, at the frame it announces, a sequence that is held whole for a frame not past that number: its registers take their values, and SCN_BIND the frame; a sequence sent for such a frame and not held whole is dropped, and counted. A line of an ACTIVE link whose region is OFF leaves as an empty line; whose region is ON, with its data. An FSYNC edge of the other polarity changes nothing, one within half a percent of a frame of the last counts as good and the eighth makes the source valid, any other is counted as rejected; the loss of FSYNC makes it invalid. ABANDON marks the link's frame as black and its underrun, and no other frame of the link. (What the hearth side does, it does while it is neither held in reset nor shut down.) (R29, R206, R208, R211, R212, R213, R218, R230, R264, R333, R552) -/
def Obligations.FramesLinesAndGenlock : Prop :=
  Occurs .frameStart (fun d => d.mode = 0) id ∧
  (∀ s, s.dev.mode ≠ 0 → ∃ t : Dev, exec .frameStart s = .next (s.withDev t) ∧ t.frame = s.dev.nextNumber ∧ t.ras.startAt = s.dev.media ∧
    t.ras.started = true ∧ t.lamp.slot = 0) ∧
  (∀ f, f ≤ 1 → Occurs (.latchLine f) (fun d => d.mode = 1 ∧ (d.filmDie f).dark ≠ 2) (fun d => d.latchSequences f d.nextNumber)) ∧
  (∀ f, f ≤ 1 → Occurs (.latchLine f) (fun d => d.mode = 2 ∧ (d.filmDie f).dark ≠ 2)
    (fun d => (d.latchSequences f d.nextNumber).mirrorLatch f d.nextNumber)) ∧
  (∀ (d : Dev) f g id n parts vals, f ≤ 1 → d.dmp.ends.length = 2 → (d.flueEnd f).parts = [⟨g, id, parts⟩] → (d.flueEnd f).due = [⟨g, id, vals⟩] →
    partsWhole parts = true → g ≤ n → d.film.carried = [] → d.blw.carried = [] →
    (d.latchSequences f n).bound = ((parts.map (·.values)).flatten).foldl (fun (b : RegFile) (e : Nat × Nat) => rfSet b e.1 (BitVec.ofNat 32 e.2)) d.bound ∧
      (d.latchSequences f n).rdLoHi (8 + f) R.SCN_BIND_LO R.SCN_BIND_HI = n % 2 ^ 48 ∧ ((d.latchSequences f n).flueEnd f).parts = [] ∧
      ((d.latchSequences f n).flueEnd f).due = [] ∧ ((d.latchSequences f n).flueEnd f).passed = some n ∧
      ((d.latchSequences f n).flueEnd f).applied.contains (g, id) = true) ∧
  (∀ (d : Dev) f g id n vals, f ≤ 1 → d.dmp.ends.length = 2 → (d.flueEnd f).parts = [] → (d.flueEnd f).due = [⟨g, id, vals⟩] →
    (d.flueEnd f).late = [] → g ≤ n → d.film.carried = [] → d.blw.carried = [] →
    (d.latchSequences f n).bound = d.bound ∧
      (d.latchSequences f n).rd (8 + f) R.SCN_COMMIT_LATE = min (2 ^ 32 - 1) (d.rd (8 + f) R.SCN_COMMIT_LATE + 1) ∧
      ((d.latchSequences f n).flueEnd f).due = [] ∧ ((d.latchSequences f n).flueEnd f).late = [(g, id)]) ∧
  (∀ n line, n ≤ 7 → Occurs (.lineSend n line)
    (fun d => d.mode = 1 ∧ d.linkActive n = true ∧ line < d.active + d.ras.vnow ∧ d.pwr.twinStop.getD (n / 4) false = false ∧
      (d.fn (FnId.region 0)).st = .off)
    (fun d => (d.pairBegins n line).send (.line n line ((d.pairBegins n line).offLine n line)))) ∧
  (∀ n line, n ≤ 7 → Occurs (.lineSend n line)
    (fun d => d.mode = 1 ∧ d.linkActive n = true ∧ line < d.active + d.ras.vnow ∧ d.pwr.twinStop.getD (n / 4) false = false ∧
      (d.fn (FnId.region 0)).st = .on ∧ d.ras.live.getD n false = true) (fun d => (d.pairBegins n line).onLine n line)) ∧
  (∀ e, Occurs (.fsyncInEdge e) (fun d => e ≠ bit d.ras.glFlags 1) id) ∧
  (∀ e, Occurs (.fsyncInEdge e) (fun d => e = bit d.ras.glFlags 1 ∧ d.ras.fsLast = none)
    (fun d => { d with ras := { d.ras with fsLast := some d.media, fsGood := d.ras.fsGood + 1, fsValid := d.ras.fsValid || decide (8 ≤ d.ras.fsGood + 1) } })) ∧
  (∀ e l, Occurs (.fsyncInEdge e) (fun d => e = bit d.ras.glFlags 1 ∧ d.ras.fsLast = some l ∧ d.ras.fsValid = true ∧
      (periodOf d.rate).1 < 200 * (((d.media : Int) - l) * (periodOf d.rate).2 - (periodOf d.rate).1).natAbs)
    (fun d => d.bump 8 R.SCN_FSYNC_REJECT)) ∧
  (∀ s, ∃ t : Dev, exec .fsyncLost s = .next (s.withDev t) ∧ t.ras.fsValid = false ∧ t.ras.fsGood = 0 ∧ t.ras.fsLast = none) ∧
  (∀ n f s, s.dev.hearthOff = false → n ≤ 7 → s.dev.mode ≠ 0 → n < s.dev.ras.black.length → ∃ t : Dev, exec (.abandon n f) s = .next (s.withDev t) ∧
    t = { s.dev with regs := t.regs, ras := t.ras } ∧ (t.ras.black.getD n []).any (·.1 = f) = true ∧
    (t.ras.black.getD n []).filter (·.1 ≠ f) = (s.dev.ras.black.getD n []).filter (·.1 ≠ f) ∧ t.rd (linkDie n) (R.SCN_LINK_UNDERRUN (linkOn n)) = 1)

/-- A BELLOWS_SETPOINT that begins has a COUNT of 1 to 48, zero reserved bytes, and exactly COUNT entries of 4 bytes, each a LOOP of 0 to 47, a reserved zero byte and an SP of at most 0x7FFF. Where the flue dies of its loops can be reached and every access is answered, each loop named holds the SP of the last entry that names it, and the reply is DONE with no data; only registers change, and the messages that carry the writes leave. (R313) -/
def Obligations.SetpointsAreWritten : Prop :=
  (∀ h p s, mayBegin (.bellowsSetpoint h p) s = true →
    1 ≤ u8 p 0 ∧ u8 p 0 ≤ 48 ∧ zero? p 1 3 = true ∧ p.length = 4 + 4 * u8 p 0 ∧
    ∀ i < u8 p 0, u8 p (4 + 4 * i) ≤ 47 ∧ zero? p (5 + 4 * i) 1 = true ∧ u16 p (6 + 4 * i) ≤ 0x7FFF) ∧
  (∀ h p s, mayBegin (.bellowsSetpoint h p) s = true →
    let d := begunDev (.bellowsSetpoint h p) s; let c := begunCmd (.bellowsSetpoint h p) s
    h.answered = none →
    (∀ i < u8 p 0, d.flueUp (loopDie (u8 p (4 + 4 * i))) = true ∧ d.canAnswer (loopDie (u8 p (4 + 4 * i))) = true) →
    ∃ t : Dev, exec (.bellowsSetpoint h p) s = .next (s.withDev (t.finalReply c St.done 0 [])) ∧ t = { d with regs := t.regs, dmp := t.dmp, out := t.out } ∧
      ∀ i < u8 p 0, (∀ j, i < j → j < u8 p 0 → u8 p (4 + 4 * j) ≠ u8 p (4 + 4 * i)) →
        t.rd (loopDie (u8 p (4 + 4 * i))) (R.BLW_L_SETPOINT (loopLocal (u8 p (4 + 4 * i)))) = u16 p (6 + 4 * i))

/-- BELLOWS_LOOP_SET that nothing refuses, on a reachable die, writes the loop's registers; a loop in use with other settings is BAD_STATE, LOOP_ON. BELLOWS_COEFF_SET writes the bank the loop does not run and no swap waits for, and refuses the bank it runs. BELLOWS_SWAP for the next tick is ACCEPTED and asked of every loop named, applying at once on loops that are OFF; one staged for the next commit is DONE. BELLOWS_ENABLE of a loop that is OFF is ACCEPTED and STARTING, a disable there DONE; where the loop's die cannot be reached it is ACCEPTED and completes FAULT. BELLOWS_STATUS of two reachable dies reports both, 52 bytes each. (R303, R306, R307, R308, R310, R311, R312, R314, R315, R550) -/
def Obligations.BellowsCommands : Prop :=
  (∀ h p s, mayBegin (.bellowsLoopSet h p) s = true →
    let d := begunDev (.bellowsLoopSet h p) s; let c := begunCmd (.bellowsLoopSet h p) s
    d.cfgRefused (u8 p 0) (u8 p 1) (u8 p 2) (if u8 p 3 = 0xFF then none else some (u8 p 3)) (u16 p 6) = none →
    d.flueUp (loopDie (u8 p 0)) = true → d.canAnswer (loopDie (u8 p 0)) = true → h.answered = none →
    ∃ t : Dev, exec (.bellowsLoopSet h p) s = .next (s.withDev (t.finalReply c St.done 0 [])) ∧ t = { d with regs := t.regs, dmp := t.dmp, out := t.out } ∧
      t.rd (loopDie (u8 p 0)) (R.BLW_L_CFG_ADC (loopLocal (u8 p 0))) = u8 p 1 ∧ t.rd (loopDie (u8 p 0)) (R.BLW_L_CFG_RATE (loopLocal (u8 p 0))) = u8 p 2 ∧
      t.rd (loopDie (u8 p 0)) (R.BLW_L_CFG_FILTER (loopLocal (u8 p 0))) = u16 p 6 ∧ t.rd (loopDie (u8 p 0)) (R.BLW_L_INIT (loopLocal (u8 p 0))) = u16 p 16) ∧
  (∀ h p st rs, Ends (.bellowsLoopSet h p)
    (fun _ d => d.cfgRefused (u8 p 0) (u8 p 1) (u8 p 2) (if u8 p 3 = 0xFF then none else some (u8 p 3)) (u16 p 6) = some (st, rs))
    (fun _ d => d) (fun _ _ => .bad st rs)) ∧
  (∀ h p s, mayBegin (.bellowsCoeffSet h p) s = true →
    let d := begunDev (.bellowsCoeffSet h p) s; let c := begunCmd (.bellowsCoeffSet h p) s
    d.coeffRefused (u8 p 0) (u8 p 1) = none → d.flueUp (loopDie (u8 p 0)) = true →
    d.canAnswer (loopDie (u8 p 0)) = true → h.answered = none →
    ∃ t : Dev, exec (.bellowsCoeffSet h p) s = .next (s.withDev (t.finalReply c St.done 0 [])) ∧ t = { d with regs := t.regs, dmp := t.dmp, out := t.out } ∧
      ∀ i < 8, t.rd (loopDie (u8 p 0)) ((coeffs (loopLocal (u8 p 0)) (u8 p 1)).getD i R.BLW_CLEAR) = u16 p (4 + 2 * i)) ∧
  (∀ h p, Ends (.bellowsCoeffSet h p) (fun _ d => d.bankOf (u8 p 0) = u8 p 1) (fun _ d => d) (fun _ _ => .bad St.badState Rsw.bankActive)) ∧
  (∀ h p, Ends (.bellowsSwap h p)
    (fun _ d => u8 p 9 = 1 ∧ h.answered = none ∧ ∀ L ∈ maskLoops (u48 p 2), d.flueUp (loopDie L) = true ∧ d.canAnswer (loopDie L) = true)
    (fun _ d => (flueDies.filter fun k => (maskLoops (u48 p 2)).any fun L => loopDie L = k).foldl (fun d k =>
      ((maskLoops (u48 p 2)).filter fun L => loopDie L = k).foldl (fun d L => d.swapAsk L (u8 p 8) none false) d) d) (fun _ _ => .done)) ∧
  (∀ h p, Ends (.bellowsSwap h p)
    (fun _ d => u8 p 9 = 0 ∧ h.answered = none ∧ ∀ L ∈ maskLoops (u48 p 2), d.flueUp (loopDie L) = true ∧ d.canAnswer (loopDie L) = true)
    (fun c d => (((flueDies.filter fun k => (maskLoops (u48 p 2)).any fun L => loopDie L = k).foldl (fun d k =>
      ((maskLoops (u48 p 2)).filter fun L => loopDie L = k).foldl (fun d L => d.swapAsk L (u8 p 8) (some c) true) d) d).finalReply c St.accepted 0 []).swapOff)
    (fun _ _ => .later)) ∧
  (∀ h p, Ends (.bellowsEnable h p)
    (fun _ d => d.flueUp (loopDie (u8 p 0)) = true ∧ d.canAnswer (loopDie (u8 p 0)) = true ∧ h.answered = none ∧ u8 p 1 = 1 ∧ (d.fn (loopFn (u8 p 0))).st = .off)
    (fun c d => d.setFn (loopFn (u8 p 0)) { st := .starting, stored := none, running := [c] }) (fun _ _ => .accepted)) ∧
  (∀ h p, Ends (.bellowsEnable h p) (fun _ d => u8 p 1 ≠ 1 ∧ (d.fn (loopFn (u8 p 0))).st = .off) (fun _ d => d) (fun _ _ => .done)) ∧
  (∀ h p, Ends (.bellowsEnable h p) (fun _ d => d.flueUp (loopDie (u8 p 0)) = false ∧ u8 p 1 = 1 ∧ (d.fn (loopFn (u8 p 0))).st = .off)
    (fun c d => (d.finalReply c St.accepted 0 []).complete c St.fault 0) (fun _ _ => .later)) ∧
  (∀ h p, Reports (.bellowsStatus h p) (fun _ d => d.flueUp 8 = true ∧ d.flueUp 9 = true ∧ h.answered = none) (fun _ d => d.bellowsBlock 0 ++ d.bellowsBlock 1)) ∧
  (∀ (d : Dev) f, (d.bellowsBlock f).length = 52)

/-- A tick with no sample and no loop due only counts, a FRAME tick not at all. A loop that is ON, ungrouped, alone due, with samples in its window and no swap waiting computes: its OUT register shows the clamped result and it takes the new integrator; a loop with no sample since its last tick is skipped and counted. Whatever it computes, a loop's output lies within its output limits and its integrator within the integrator limits. (R300, R301, R302, R304, R305) -/
def Obligations.BellowsTicks : Prop :=
  (∀ f fr, f ≤ 1 → Occurs (.bellowsTick f fr []) (fun d => ∀ l < 24, d.loopDue f l fr (d.rd (8 + f) R.BLW_TICK + b2n (!fr)) = false)
    (fun d => d.wr (8 + f) R.BLW_TICK (d.rd (8 + f) R.BLW_TICK + b2n (!fr)))) ∧
  (∀ f l fr s, f ≤ 1 → l < 24 → s.dev.blw.loops.length = 48 → s.dev.blw.swaps = [] → (s.dev.fn (loopFn (24 * f + l))).st = .on →
    s.dev.rd (8 + f) (R.BLW_L_CFG_GROUPED l) = 0 → 0 < (s.dev.loop (24 * f + l)).count →
    (∀ k < 24, s.dev.loopDue f k fr (s.dev.rd (8 + f) R.BLW_TICK + b2n (!fr)) = decide (k = l)) →
    let rd (r : Fld) : Int := signed 16 (s.dev.rd (8 + f) r)
    let x := s.dev.loop (24 * f + l)
    let o := loopCompute { x with sum := 0, count := 0 } (((roundDiv x.sum (256 * x.count)).toNat / 2 : Nat) : Int) (rd (R.BLW_L_SETPOINT l)) (rd (R.BLW_L_ILIM_I_LO l))
      (rd (R.BLW_L_ILIM_I_HI l)) (rd (R.BLW_L_OLIM_OUT_LO l)) (rd (R.BLW_L_OLIM_OUT_HI l)) ((coeffs l (s.dev.bankOf (24 * f + l))).map rd)
      (bit (s.dev.rd (8 + f) (R.BLW_L_CFG_FILTER l)) 7)
    ∃ t : Dev, exec (.bellowsTick f fr []) s = .next (s.withDev t) ∧ t = { s.dev with regs := t.regs, blw := t.blw } ∧
      t.rd (8 + f) (R.BLW_L_OUT l) = twos 16 o.out ∧ t.loop (24 * f + l) = { o.loop with integ := o.ic } ∧
      ∀ k, k ≠ 24 * f + l → t.loop k = s.dev.loop k) ∧
  (∀ f l fr s, f ≤ 1 → l < 24 → s.dev.blw.loops.length = 48 → s.dev.blw.swaps = [] → (s.dev.fn (loopFn (24 * f + l))).st = .on →
    s.dev.rd (8 + f) (R.BLW_L_CFG_GROUPED l) = 0 → (s.dev.loop (24 * f + l)).count = 0 →
    (∀ k < 24, s.dev.loopDue f k fr (s.dev.rd (8 + f) R.BLW_TICK + b2n (!fr)) = decide (k = l)) →
    ∃ t : Dev, exec (.bellowsTick f fr []) s = .next (s.withDev t) ∧ t.rd (8 + f) R.BLW_SKIP = min (s.dev.rd (8 + f) R.BLW_SKIP + 1) (2 ^ 32 - 1) ∧
      t.rd (8 + f) (R.BLW_L_OUT l) = s.dev.rd (8 + f) (R.BLW_L_OUT l)) ∧
  (∀ (x : Loop) (m sp iLo iHi oLo oHi : Int) (k : List Int) (pre : Bool), iLo ≤ iHi → oLo ≤ oHi →
    oLo ≤ (loopCompute x m sp iLo iHi oLo oHi k pre).out ∧ (loopCompute x m sp iLo iHi oLo oHi k pre).out ≤ oHi ∧
    iLo * 32768 ≤ (loopCompute x m sp iLo iHi oLo oHi k pre).ic ∧ (loopCompute x m sp iLo iHi oLo oHi k pre).ic ≤ iHi * 32768)

/-- PANEL_CURVE_SET from a buffer not LOST, whose curves all rise and stay within 4,095, makes them the shadow curves of the colours named; from one LOST it is FAULT. FILM_TABLE_SET while the film is OFF is ACCEPTED and waits, or where a flue die cannot be reached completes FAULT; the load done writes a good image to both flue dies, and completes a bad one FAULT. FILM_CONFIG with a pulse that fits the raster, on reachable dies that refuse no write, writes the shadow settings of both. FILM_ENABLE without a table is BAD_STATE, with the panel region not ON BAD_STATE, with power out of range BAD_STATE; else the film starts. FILM_UPDATE of a rectangle within the raster is BAD_STATE while the film is OFF; with a free slot and a buffer not LOST it holds the targets and is ACCEPTED. FILM_STATUS reports 20 bytes. PANEL_RETAIN without the film ON is BAD_STATE, whichever its ACTION; with it the retained mode starts. (What the hearth side does, it does while it is neither held in reset nor shut down.) (R232, R237, R241, R243, R246, R251, R252, R253, R254, R255, R256, R257) -/
def Obligations.FilmCommands : Prop :=
  (∀ h p o, EndsOn (.panelCurveSet h p)
    (fun _ hp _ => hp.buf (u16 p 8) = some o ∧ o.lost = false ∧ u8 p 0 = 1 ∧ curveOk 4095 (curvePoints o (u32 p 12)) = true)
    (fun _ hp d => (hp, { d with curves := { d.curves with shadow := d.curves.shadow.set 0 (some ⟨u32 p 4, curvePoints o (u32 p 12)⟩) } })) (fun _ _ _ => .done)) ∧
  (∀ h p o, EndsOn (.panelCurveSet h p) (fun _ hp _ => hp.buf (u16 p 8) = some o ∧ o.lost = true)
    (fun _ hp d => (hp, d)) (fun _ _ _ => .bad St.fault Rs.bufferLost)) ∧
  (∀ h p o, EndsOn (.filmTableSet h p) (fun _ hp d => d.filmSt = .off ∧ hp.buf (u16 p 2) = some o ∧ o.lost = false ∧ d.flueUp 8 = true ∧ d.flueUp 9 = true)
    (fun c hp d => (hp, { d with film := { d.film with load := d.film.load ++ [⟨c, u8 p 0, u16 p 2, u32 p 4, u32 p 8⟩] } })) (fun _ _ _ => .accepted)) ∧
  (∀ h p o, EndsOn (.filmTableSet h p)
    (fun _ hp d => d.filmSt = .off ∧ hp.buf (u16 p 2) = some o ∧ o.lost = false ∧ (d.flueUp 8 = false ∨ d.flueUp 9 = false))
    (fun c hp d => (hp, (d.finalReply c St.accepted 0 []).complete c St.fault 0)) (fun _ _ _ => .later)) ∧
  (∀ s l rest img, s.dev.hearthOff = false → s.dev.film.load = l :: rest → (l.format = 0 ∨ s.dev.ing.running = none) → tableImage l (s.heap.buf l.buffer) = .ok img →
    (∀ k ∈ flueDies, s.dev.flueUp k = true ∧ s.dev.canAnswer k = true) → l.cmd.h.answered = none →
    ∃ t : Dev, exec .filmTableLoadDone s = .next (s.withDev (t.complete l.cmd St.done 0)) ∧ t = { s.dev with regs := t.regs, film := t.film } ∧
      t.film = { s.dev.film with load := rest, table := img } ∧ t.rd 8 R.CHS_STATE_TABLE_VALID = 1 ∧ t.rd 9 R.CHS_STATE_TABLE_VALID = 1) ∧
  (∀ s l rest r, s.dev.hearthOff = false → s.dev.film.load = l :: rest → (l.format = 0 ∨ s.dev.ing.running = none) → tableImage l (s.heap.buf l.buffer) = .error r →
    exec .filmTableLoadDone s = .next (s.withDev (({ s.dev with film := { s.dev.film with load := rest } } : Dev).complete l.cmd St.fault r))) ∧
  (∀ h p s, mayBegin (.filmConfig h p) s = true →
    let d := begunDev (.filmConfig h p) s; let c := begunCmd (.filmConfig h p) s
    d.pulseFits (u16 p 0) = true → (∀ k ∈ flueDies, d.flueUp k = true ∧ d.canAnswer k = true) →
    (∀ f, d.pwr.refuse.getD f false = false) → h.answered = none →
    ∃ t : Dev, exec (.filmConfig h p) s = .next (s.withDev (t.finalReply c St.done 0 [])) ∧ t = { d with shadow := t.shadow, dmp := t.dmp, out := t.out } ∧
      ∀ k ∈ flueDies, t.rdS k R.CHS_PULSE = u16 p 0 ∧ t.rdS k R.CHS_CFG_FILM_BLANK = u8 p 2) ∧
  (∀ h p, Ends (.filmEnable h p) (fun _ d => u8 p 0 = 1 ∧ d.film.table = []) (fun _ d => d) (fun _ _ => .bad St.badState Rsf.tableInvalid)) ∧
  (∀ h p, Ends (.filmEnable h p) (fun _ d => u8 p 0 = 1 ∧ d.film.table ≠ [] ∧ (d.fn (FnId.region 0)).st ≠ .on)
    (fun _ d => d) (fun _ _ => .bad St.badState Rsf.regionOff)) ∧
  (∀ h p, Ends (.filmEnable h p)
    (fun _ d => u8 p 0 = 1 ∧ d.film.table ≠ [] ∧ (d.fn (FnId.region 0)).st = .on ∧ d.powerOk 0 = true ∧ d.powerOk 1 = true ∧
      (∀ k ∈ flueDies, d.flueUp k = true ∧ d.canAnswer k = true) ∧ h.answered = none ∧ d.filmSt = .off)
    (fun c d => (d.setFn FnId.film { st := .starting, stored := none, running := [c] }).filmStart) (fun _ _ => .accepted)) ∧
  (∀ h p, Ends (.filmUpdate h p) (fun _ d => d.rectOk p = true ∧ d.filmSt = .off) (fun _ d => d) (fun _ _ => .bad St.badState Rsf.filmOff)) ∧
  (∀ h p o s, mayBegin (.filmUpdate h p) s = true →
    let d := begunDev (.filmUpdate h p) s; let c := begunCmd (.filmUpdate h p) s
    d.rectOk p = true → d.filmSt = .on → d.retainSt = .off → s.heap.buf (u16 p 2) = some o → o.lost = false → d.film.slots = [] →
    (∀ k ∈ flueDies, d.flueUp k = true ∧ d.canAnswer k = true) → h.answered = none →
    ∃ sl : FilmSlot, exec (.filmUpdate h p) s = .next (s.withDev (({ d with film := { d.film with slots := [(0, sl)] } } : Dev).finalReply c St.accepted 0 [])) ∧
      sl.id = u16 p 0 ∧ sl.phase = 0 ∧ sl.cmd = c ∧ sl.targets.length = u16 p 12 * u16 p 14) ∧
  (∀ h p s, mayBegin (.filmStatus h p) s = true →
    let d := begunDev (.filmStatus h p) s; let c := begunCmd (.filmStatus h p) s
    d.flueUp 8 = true → d.flueUp 9 = true → h.answered = none → ∃ data, exec (.filmStatus h p) s = .next (s.withDev (d.finalReply c St.done 0 data)) ∧
    data.length = 20 ∧ u8 data 0 = d.filmSt.num ∧ u8 data 1 = d.retainSt.num) ∧
  (∀ h p, Ends (.panelRetain h p) (fun _ d => d.filmSt ≠ .on) (fun _ d => d) (fun _ _ => .bad St.badState Rsf.filmOff)) ∧
  (∀ h p, Ends (.panelRetain h p)
    (fun _ d => u8 p 0 = 1 ∧ d.filmSt = .on ∧ d.retainSt = .off ∧ (∀ k ∈ flueDies, d.flueUp k = true ∧ d.canAnswer k = true) ∧ h.answered = none)
    (fun c d => d.setFn FnId.retain { st := .starting, stored := none, running := [c] }) (fun _ _ => .accepted))

/-- A film frame beyond those of its frame, or with no die that starts them, changes nothing; else the film frame count advances and the next one is due. The end of a pulse ends it on both dies and every running waveform moves one step. The first power failure of a die makes it refuse power and film registers, latches the status and begins a park if the film is not OFF and its map is known. A park step waits for the pulse; each of the first seven sends the park rows and FILM_GO on every active link and counts the step; the eighth ends the park with every cell at rest and the park registers written. Returned power ends the refusal of a die that does not park. A flue die's power-fail message, received, completes every update FAULT, PARKED; one that fails its check only counts. (R27, R33, R235, R239, R242, R247, R248, R249) -/
def Obligations.FilmFramesAndPowerLoss : Prop :=
  Occurs .filmFrameStart (fun d => d.mode = 1 ∧ fpfOf d.rate ≤ d.film.next) id ∧
  (∀ s, s.dev.mode = 1 → s.dev.film.next < fpfOf s.dev.rate → s.dev.filmGoes 0 = true → ∃ t : Dev, exec .filmFrameStart s = .next (s.withDev t) ∧
    t.film.count = (s.dev.film.count + 1) % 2 ^ 32 ∧ t.film.next = s.dev.film.next + 1 ∧ t.frame = s.dev.frame) ∧
  Occurs .filmPulseEnd (fun d => (d.filmDie 0).pulse = false ∧ (d.filmDie 1).pulse = false) id ∧
  (∀ (d : Dev) f, f ≤ 1 → d.film.dies.length = 2 → (d.filmDie f).pulse = true → ((d.pulseEnd f).filmDie f).pulse = false ∧
    ∀ k, ((d.pulseEnd f).filmDie f).cell k = ((d.filmDie f).cell k).advance d.film.table) ∧
  (∀ s, (s.dev.filmDie 0).pulse = true → s.dev.film.slots = [] → (s.dev.filmDie 0).park.isSome = true → s.dev.film.dies.length = 2 →
    (s.dev.filmDie 0).resetDue = false → (s.dev.filmDie 1).resetDue = false →
    exec .filmPulseEnd s = .next (s.withDev ((s.dev.pulseEnd 0).pulseEnd 1))) ∧
  (∀ f c s, f ≤ 1 → c % 4 ≠ 0 → s.dev.pwr.pfailN.getD f true = true → s.dev.pwr.hvLow.getD f false = false → s.dev.thm.fluHalt.getD f false = false →
    s.dev.filmSt = .off → f < s.dev.pwr.refuse.length → ∃ t : Dev, exec (.powerFail f c) s = .next (s.withDev t) ∧ t.pwr.refuse.getD f false = true ∧
      t.rd (8 + f) R.PWR_PFAIL_STATUS_LATCHED = 1 ∧ (f < s.dev.film.dies.length → (t.filmDie f).dark = 1 ∧ (t.filmDie f).park = (s.dev.filmDie f).park)) ∧
  (∀ f k plan s, f ≤ 1 → (s.dev.filmDie f).park = some k → 1 ≤ k → k + 1 < 8 → (s.dev.filmDie f).pulse = false → (s.dev.filmDie f).parkSet = plan →
    s.dev.film.dies.length = 2 → let ffs := (s.dev.rd (8 + f) R.CHS_FFS + 1) % 2 ^ 32; let e := s.dev.wr (8 + f) R.CHS_FFS ffs
    ∃ t : Dev, exec (.parkStep f) s = .next (s.withDev t) ∧ (t.filmDie f).park = some (k + 1) ∧ t.rd (8 + f) R.CHS_FFS = ffs ∧
      ∀ n ∈ fromN (4 * f) 4, e.linkActive n = true → Output.park n (e.parkBlocks n k ffs plan) ∈ t.out) ∧
  (∀ f s, (s.dev.filmDie f).pulse = true → exec (.parkStep f) s = .next s) ∧
  (∀ (d : Dev) f, f ≤ 1 → d.film.dies.length = 2 → ∀ k, ((d.parkEnd f).filmDie f).park = none ∧
    ((d.parkEnd f).filmDie f).cell k = ((d.filmDie f).cell k).parkedAt d.film.table ∧ (((d.filmDie f).cell k).wave.isSome = true →
      (((d.parkEnd f).filmDie f).cell k).atRest = true)) ∧
  (∀ f s, f ≤ 1 → (s.dev.filmDie f).park = none → f < s.dev.pwr.refuse.length → f < s.dev.pwr.pfailN.length → f < s.dev.pwr.hvLow.length → f < s.dev.pwr.hvHigh.length →
    f < s.dev.film.dies.length → ∃ t : Dev, exec (.powerReturn f) s = .next (s.withDev t) ∧ t.pwr.refuse.getD f true = false ∧ t.powerOk f = true ∧
      (t.filmDie f).dark ≠ 1) ∧
  (∀ f c n s e, s.dev.hearthOff = false → s.dev.retTake f ⟨0x85, [c * 2 ^ 56 + n]⟩ = some e →
    exec (.pfail f c n .good) s = .next (s.withDev (e.slotsEnd (fun _ => true) St.fault Rsf.parked)) ∧
    exec (.pfail f c n .crc) s = .next (s.withDev (e.bump 0 R.DMP_CRC_ERR))) ∧
  (∀ f c n k s, s.dev.hearthOff = true ∨ s.dev.retTake f ⟨0x85, [c * 2 ^ 56 + n]⟩ = none → exec (.pfail f c n k) s = .next s)

/-- QUENCH_CONFIG that leaves enough light time is BAD_STATE, LAMP_ON, with a lamp segment not OFF; with both OFF and the flue dies reachable it writes the blanking and guard times. PROJ_CURVE_SET writes curves of codes up to 1,023 as PANEL_CURVE_SET does. QUENCH_STATUS reports 16 bytes for each of the four arrays. In projector mode a slot start below 768 shows its number on both dies and the next slot is due; otherwise it changes nothing. (R261, R264, R268, R269, R270, R284, R285, R286) -/
def Obligations.QuenchAndSlots : Prop :=
  (∀ h p, Ends (.quenchConfig h p) (fun _ d => d.litBad (u16 p 0) (u16 p 2) = false ∧ d.segSt 0 ≠ .off) (fun _ d => d) (fun _ _ => .bad St.badState Rsq.lampOn)) ∧
  (∀ h p s, mayBegin (.quenchConfig h p) s = true →
    let d := begunDev (.quenchConfig h p) s; let c := begunCmd (.quenchConfig h p) s
    d.litBad (u16 p 0) (u16 p 2) = false → d.segSt 0 = .off → d.segSt 1 = .off → (∀ k ∈ flueDies, d.flueUp k = true ∧ d.canAnswer k = true) → h.answered = none →
    ∃ t : Dev, exec (.quenchConfig h p) s = .next (s.withDev (t.finalReply c St.done 0 [])) ∧ t = { d with regs := t.regs, shadow := t.shadow, dmp := t.dmp, out := t.out } ∧
      ∀ k ∈ flueDies, t.rd k R.QNC_BLANK = u16 p 0 ∧ t.rd k R.QNC_GUARD = u16 p 2 ∧ t.rdS k R.QNC_CFG_DITHER = u8 p 4) ∧
  (∀ h p o, EndsOn (.projCurveSet h p)
    (fun _ hp _ => hp.buf (u16 p 8) = some o ∧ o.lost = false ∧ u8 p 0 = 1 ∧ curveOk 1023 (curvePoints o (u32 p 12)) = true)
    (fun _ hp d => (hp, { d with curves := { d.curves with shadow := d.curves.shadow.set 3 (some ⟨u32 p 4, curvePoints o (u32 p 12)⟩) } })) (fun _ _ _ => .done)) ∧
  (∀ h p o, EndsOn (.projCurveSet h p)
    (fun _ hp _ => hp.buf (u16 p 8) = some o ∧ o.lost = false ∧ u8 p 0 = 1 ∧ curveOk 1023 (curvePoints o (u32 p 12)) = false)
    (fun _ hp d => (hp, d)) (fun _ _ _ => .bad St.badParam Rsq.curveInvalid)) ∧
  (∀ h p s, mayBegin (.quenchStatus h p) s = true →
    let d := begunDev (.quenchStatus h p) s; let c := begunCmd (.quenchStatus h p) s
    d.flueUp 8 = true → d.flueUp 9 = true → h.answered = none → ∃ data, exec (.quenchStatus h p) s = .next (s.withDev (d.finalReply c St.done 0 data)) ∧
    data.length = 64 ∧ u8 data 0 = (d.fn (FnId.region 0)).st.num) ∧
  Occurs .slotStart (fun d => d.mode ≠ 2 ∨ 768 ≤ d.lamp.slot) id ∧
  (∀ s, s.dev.mode = 2 → s.dev.lamp.slot < 768 → ∃ t : Dev, exec .slotStart s = .next (s.withDev t) ∧ t.lamp = { s.dev.lamp with slot := s.dev.lamp.slot + 1 } ∧
    (∀ k ∈ flueDies, t.rd k R.QNC_SLOT_NOW = s.dev.lamp.slot) ∧ t.frame = s.dev.frame ∧ t.fns = s.dev.fns)

/-- LAMP_ENABLE of an OFF segment before enumeration is BAD_STATE, NOT_ENUMERATED; of an OFF segment whose enabled channels have nodes it starts it. With the segment OFF LAMP_CHANNEL_SET writes the six fields of a channel. A rising LAMP_TABLE_SET curve, from a buffer not LOST, becomes the channel's; one that does not rise is TABLE_INVALID. LAMP_SETPOINT writes the host brightnesses and enters the next snapshot. LAMP_CLEAR of a present node queues a write of CONTROL, and is answered later; LAMP_NODE_ACCESS queues its access; of an absent node both are BAD_STATE, NO_NODE. LAMP_NODES lists the nodes, or with the segment OFF begins an enumeration. A cycle's reply answers an access DONE with its value; one with bad status FAULT, NODE_REFUSED; a temperature poll writes the temperature. A failed transaction waits again, with its tries counted; at the third the node is LOST. A silent LOST node counts NOREPLY, a reply with a bad CRC counts CRC; one that answers comes back. An enumeration writes PRESENT by the nodes found, clears LOST and sets ENUM_DONE. A start whose enables are written ends in ON; writes finished on both segments let the next frame start latch. (R273, R275, R276, R277, R280, R288, R289, R290, R291, R292, R293, R294) -/
def Obligations.LampCommandsAndBus : Prop :=
  (∀ h p, Ends (.lampEnable h p) (fun _ d => u8 p 1 = 1 ∧ d.segSt (u8 p 0) = .off ∧ d.rd (8 + u8 p 0) R.LMP_STATE_ENUM_DONE = 0)
    (fun _ d => d) (fun _ _ => .bad St.badState Rsl.notEnumerated)) ∧
  (∀ h p, Ends (.lampEnable h p)
    (fun _ d => u8 p 1 = 1 ∧ d.rd (8 + u8 p 0) R.LMP_STATE_ENUM_DONE = 1 ∧ (∀ n < 128, d.chEnabled (u8 p 0) n = true → d.nodePresent (u8 p 0) (n / 4) = true) ∧
      d.flueUp (8 + u8 p 0) = true ∧ d.canAnswer (8 + u8 p 0) = true ∧ h.answered = none ∧ d.segSt (u8 p 0) = .off)
    (fun c d => (d.setFn (FnId.lamp (u8 p 0)) { st := .starting, stored := none, running := [c] }).lampStart (u8 p 0)) (fun _ _ => .accepted)) ∧
  (∀ k r s, k ≤ 1 → s.dev.lamp.segs.length = 2 → s.dev.fn (FnId.lamp k) = { st := .starting, stored := none, running := r } →
    (s.dev.seg k).failed = none → (s.dev.seg k).stage = 3 → (∀ t ∈ (s.dev.seg k).queue, t.why ≠ .enable true) →
    ∃ t : Dev, exec (.lampTransitionDone k) s = .next (s.withDev t) ∧ t.segSt k = .on ∧ (t.seg k).stage = 0 ∧ t.regs = s.dev.regs) ∧
  (∀ h p s, mayBegin (.lampChannelSet h p) s = true →
    let d := begunDev (.lampChannelSet h p) s; let c := begunCmd (.lampChannelSet h p) s
    d.segSt (u8 p 0) = .off → d.flueUp (8 + u8 p 0) = true → d.canAnswer (8 + u8 p 0) = true → h.answered = none →
    ∃ t : Dev, exec (.lampChannelSet h p) s = .next (s.withDev (t.finalReply c St.done 0 [])) ∧ t = { d with regs := t.regs, dmp := t.dmp, out := t.out } ∧
      let die := 8 + u8 p 0
      let n := u8 p 1
      t.rd die (R.LMP_CH_ENABLE n) = bits (u8 p 2) 0 0 ∧ t.rd die (R.LMP_CH_COLOUR n) = bits (u8 p 2) 2 1 ∧ t.rd die (R.LMP_CH_ARRAY n) = bits (u8 p 2) 3 3 ∧
      t.rd die (R.LMP_CH_REF n) = bits (u8 p 2) 4 4 ∧ t.rd die (R.LMP_CH_TCOMP n) = bits (u8 p 2) 5 5 ∧ t.rd die (R.LMP_CH_SOURCE n) = u8 p 3) ∧
  (∀ h p o s, mayBegin (.lampTableSet h p) s = true →
    let d := begunDev (.lampTableSet h p) s; let c := begunCmd (.lampTableSet h p) s
    s.heap.buf (u16 p 4) = some o → o.lost = false → u8 p 1 = 0 →
    let pts := (List.range 1024).map fun j => le 2 (o.read (u32 p 8 + 2 * j) 2) 0
    let x := d.seg (u8 p 0)
    (curveOk 65535 pts = false → exec (.lampTableSet h p) s = .next (s.withDev (d.finalReply c St.badParam Rsl.tableInvalid []))) ∧
    (curveOk 65535 pts = true → d.flueUp (8 + u8 p 0) = true → d.canAnswer (8 + u8 p 0) = true → h.answered = none →
      exec (.lampTableSet h p) s = .next (s.withDev ((d.setSeg (u8 p 0) { x with curves := amPut x.curves (u8 p 2) pts }).finalReply c St.done 0 [])))) ∧
  (∀ h p s, mayBegin (.lampSetpoint h p) s = true →
    let d := begunDev (.lampSetpoint h p) s; let c := begunCmd (.lampSetpoint h p) s
    d.flueUp (8 + u8 p 0) = true → d.canAnswer (8 + u8 p 0) = true → h.answered = none → d.lamp.segs.length = 2 →
    ∃ t : Dev, exec (.lampSetpoint h p) s = .next (s.withDev (t.finalReply c St.accepted 0 [])) ∧ t = { d with regs := t.regs, lamp := t.lamp, dmp := t.dmp, out := t.out } ∧
      (t.seg (u8 p 0)).fresh = (d.seg (u8 p 0)).fresh ++ [c] ∧
      ∀ i < u8 p 1, (∀ j < u8 p 1, i < j → u8 p (4 + 4 * j) ≠ u8 p (4 + 4 * i)) → t.rd (8 + u8 p 0) (R.LMP_HOST_B (u8 p (4 + 4 * i))) = u16 p (6 + 4 * i)) ∧
  (∀ h p, Ends (.lampClear h p) (fun _ d => d.nodeBad (u8 p 0) (u8 p 1 / 4) = none ∧ d.flueUp (8 + u8 p 0) = true ∧ d.canAnswer (8 + u8 p 0) = true ∧ h.answered = none ∧ d.segSt (u8 p 0) = .off)
    (fun c d => d.lampQueue (u8 p 0) [tx (u8 p 1 / 4) 0x05 true (2 ^ (4 + u8 p 1 % 4)) (.clear c (u8 p 1))]) (fun _ _ => .later)) ∧
  (∀ h p, Ends (.lampClear h p) (fun _ d => d.rd (8 + u8 p 0) R.LMP_STATE_ENUM_DONE = 1 ∧ d.nodePresent (u8 p 0) (u8 p 1 / 4) = false)
    (fun _ d => d) (fun _ _ => .bad St.badState Rsl.noNode)) ∧
  (∀ h p, Reports (.lampNodes h p) (fun _ d => u8 p 1 = 0 ∧ d.rd (8 + u8 p 0) R.LMP_STATE_ENUM_DONE = 1 ∧ d.flueUp (8 + u8 p 0) = true ∧ h.answered = none) (fun _ d => d.nodeList (u8 p 0))) ∧
  (∀ h p s, mayBegin (.lampNodes h p) s = true →
    let d := begunDev (.lampNodes h p) s; let c := begunCmd (.lampNodes h p) s
    u8 p 1 = 1 → d.segSt (u8 p 0) = .off → d.rd (8 + u8 p 0) R.LMP_STATE_ENUM_DONE = 1 →
    d.flueUp (8 + u8 p 0) = true → d.canAnswer (8 + u8 p 0) = true → h.answered = none → d.lamp.segs.length = 2 →
    ∃ t : Dev, exec (.lampNodes h p) s = .next (s.withDev (t.finalReply c St.accepted 0 [])) ∧ t = { d with regs := t.regs, lamp := t.lamp } ∧
      t.rd (8 + u8 p 0) R.LMP_STATE_ENUM_DONE = 0 ∧ (t.seg (u8 p 0)).enumCmd = some c) ∧
  (∀ h p, Ends (.lampNodeAccess h p) (fun _ d => d.nodeBad (u8 p 0) (u8 p 1) = none ∧ d.flueUp (8 + u8 p 0) = true ∧ d.canAnswer (8 + u8 p 0) = true ∧ h.answered = none)
    (fun c d => d.lampQueue (u8 p 0) [tx (u8 p 1) (u8 p 2) (u8 p 3 = 1) (u16 p 4) (.access c)]) (fun _ _ => .later)) ∧
  (∀ h p, Ends (.lampNodeAccess h p) (fun _ d => d.rd (8 + u8 p 0) R.LMP_STATE_ENUM_DONE = 1 ∧ d.nodePresent (u8 p 0) (u8 p 1) = false)
    (fun _ d => d) (fun _ _ => .bad St.badState Rsl.noNode)) ∧
  (∀ k st v t w c s, k ≤ 1 → s.dev.lampPick k = some (t, w) → t.why = .access c →
    exec (.lampTransaction k st v) s = .next (s.withDev (((s.dev.lampCycle k t w).bump (8 + k) R.LMP_TX).finalReply c
      (if st % 256 = 0 then St.done else St.fault) (if st % 256 = 0 then 0 else Rsl.nodeRefused)
      (enc 2 (if t.write then t.value else v % 65536) ++ enc 1 (st % 256))))) ∧
  (∀ k st v t w n s, k ≤ 1 → s.dev.lampPick k = some (t, w) → t.why = .temp n → st % 256 = 0 →
    ∃ e : Dev, exec (.lampTransaction k st v) s = .next (s.withDev e) ∧ e.rd (8 + k) (R.LMP_CH_TEMP n) = v % 65536 ∧ e.out = .lamp k t.frame :: s.dev.out) ∧
  (∀ k crc t w s, k ≤ 1 → s.dev.lampPick k = some (t, w) → t.tries + 1 < 3 → exec (.lampReplyTimeout k crc) s =
    .next (s.withDev (((s.dev.lampCycle k t w).bump (8 + k) (if crc then R.LMP_CRC else R.LMP_NOREPLY)).lampQueue k [{ t with tries := t.tries + 1 }]))) ∧
  (∀ k crc t w s, k ≤ 1 → s.dev.lamp.segs.length = 2 → s.dev.lampPick k = some (t, w) → t.tries = 2 → t.addr < 32 →
    ∃ e : Dev, exec (.lampReplyTimeout k crc) s = .next (s.withDev e) ∧ e.nodeLost k t.addr = true ∧ e.nodePresent k t.addr = false ∧
      ∀ u ∈ (e.seg k).queue, u.addr ≠ t.addr) ∧
  (∀ k a s, k ≤ 1 → s.dev.nodeLost k a = true → (s.dev.seg k).back.contains a = false →
    exec (.lostNodePoll k a .silent) s = .next (s.withDev ((s.dev.send (.lamp k (lampFrame 2 a (enc 1 0x04)))).bump (8 + k) R.LMP_NOREPLY)) ∧
    exec (.lostNodePoll k a .badCrc) s = .next (s.withDev ((s.dev.send (.lamp k (lampFrame 2 a (enc 1 0x04)))).bump (8 + k) R.LMP_CRC))) ∧
  (∀ k a v s, k ≤ 1 → s.dev.lamp.segs.length = 2 → s.dev.nodeLost k a = true → (s.dev.seg k).back.contains a = false →
    ∃ t : Dev, exec (.lostNodePoll k a (.reply 0 v)) s = .next (s.withDev t) ∧ (t.seg k).back = (s.dev.seg k).back ++ [a] ∧ (t.seg k).writing = true) ∧
  (∀ k found s, k ≤ 1 → s.dev.lamp.segs.length = 2 → s.dev.segSt k = .off → s.dev.rd (8 + k) R.LMP_STATE_ENUM_DONE = 0 →
    ∃ t : Dev, exec (.lampEnumerate k found) s = .next (s.withDev t) ∧ t.rd (8 + k) R.LMP_STATE_ENUM_DONE = 1 ∧ t.rd (8 + k) R.LMP_LOST = 0 ∧
      t.rd (8 + k) R.LMP_PRESENT = (2 ^ (t.seg k).nodes.length - 1) % 2 ^ 32 ∧ (t.seg k).queue = [] ∧ (t.seg k).enumCmd = none) ∧
  Occurs .lampWritesDone (fun d => (∀ x ∈ d.lamp.segs, x.idle = true) ∧ ∃ x ∈ d.lamp.segs, x.writing = true)
    (fun d => { d with lamp := { d.lamp with latch := true } })

/-- HELLO stores the partner's ID, marks the back channel and the link heard, and brings a link that listens (and is not tap-tested) to DETECT. STATUS of a link not OFF stores lock, block lock, deskew and the eye, and counts header errors; on an ON link the lanes it shows unlocked are lost. In EQUALISE a request to raise a main tap with room for it raises that tap by one and TRAIN says so. The exit conditions of DETECT, EQUALISE, DESKEW and CHECK lead to LOCK, DESKEW, CHECK and ON; ON has four lanes, or three and DEGRADED. A phase that times out enters LISTEN and counts it (a link with no stored request); a LISTEN retry begins DETECT. LINK_ENABLE of an OFF link begins its training, or where its die cannot be reached completes FAULT; a disable of a link whose region is not OFF is BAD_STATE, LINK_IN_USE. A link in phase ON ends its start with the data of R342; a stop ends with phase, power and N at 0. LINK_STATUS reports 32 bytes. At start-up each link whose damper half is ON is started in turn. (R324, R326, R327, R328, R329, R342, R343, R347) -/
def Obligations.LinksTrainAndStart : Prop :=
  (∀ l id caps s, l ≤ 7 → s.dev.lnk.links.length = 8 → ∃ t : Dev, exec (.hello l id caps) s = .next (s.withDev t) ∧
    t = { s.dev with regs := t.regs, lnk := t.lnk, out := t.out } ∧ t.lget l R.LNK_FL_PARTNER_LO = id % 2 ^ 32 ∧ t.lget l R.LNK_FL_PARTNER_HI_ID = id / 2 ^ 32 % 65536 ∧
    t.lget l R.LNK_FL_PARTNER_HI_CAPS = caps % 256 ∧ t.lget l R.LNK_FL_STATE_BACK = 1 ∧ (t.core l).heard = true ∧
    (s.dev.lget l R.LNK_FL_STATE_PHASE = 7 → s.dev.lnk.taps = [] → t.lget l R.LNK_FL_STATE_PHASE = 1)) ∧
  (∀ l lk bl dk sh eh ev bd s, l ≤ 7 → s.dev.lnk.links.length = 8 → s.dev.linkSt l ≠ .off → ∃ t : Dev, exec (.backStatus l lk bl dk sh eh ev bd) s = .next (s.withDev t) ∧
    (s.dev.lget l R.LNK_FL_STATE_PHASE ≤ 3 → t = { s.dev with regs := t.regs, lnk := t.lnk }) ∧
    (s.dev.lget l R.LNK_FL_STATE_PHASE = 6 → t.lget l R.LNK_FL_MAP_FAILED = s.dev.lget l R.LNK_FL_MAP_FAILED ||| (31 - lk % 32)) ∧ (t.core l).locked = lk % 32 ∧ (t.core l).blocks = bl % 32 ∧ (t.core l).deskewed = dk ∧
    t.lget l R.LNK_FL_EYE = eh % 256 * 256 + ev % 256 ∧ t.lget l R.LNK_FL_SH_ERR = min (s.dev.lget l R.LNK_FL_SH_ERR + sh % 65536) (2 ^ 32 - 1)) ∧
  (∀ l p done a b c s, l ≤ 7 → p ≤ 4 → s.dev.lget l R.LNK_FL_STATE_PHASE = 3 → s.dev.lget l (fun k => R.LNK_FL_EQ k p) = a + 256 * b + 65536 * c →
    a < 16 → b < 63 → c < 32 → a + b + c < 63 → ∃ t : Dev, exec (.eqReq l p done 0 1 0) s = .next (s.withDev t) ∧
      t.lget l (fun k => R.LNK_FL_EQ k p) = a + 256 * (b + 1) + 65536 * c ∧ t.out = .lane l p (trainWord l p 3 0 1 0) :: s.dev.out) ∧
  (∀ l s, l ≤ 7 → s.dev.phaseDone l = false → exec (.trainPhaseAdvance l) s = .next s) ∧
  (∀ l s, l ≤ 7 → s.dev.phaseDone l = true → s.dev.lget l R.LNK_FL_STATE_PHASE = 1 ∨ s.dev.lget l R.LNK_FL_STATE_PHASE = 3 ∨ s.dev.lget l R.LNK_FL_STATE_PHASE = 4 →
    ∃ t : Dev, exec (.trainPhaseAdvance l) s = .next (s.withDev t) ∧ t.lget l R.LNK_FL_STATE_PHASE = s.dev.lget l R.LNK_FL_STATE_PHASE + 1) ∧
  (∀ l s, l ≤ 7 → s.dev.phaseDone l = true → s.dev.lget l R.LNK_FL_STATE_PHASE = 5 → ∃ t : Dev, exec (.trainPhaseAdvance l) s = .next (s.withDev t) ∧
    let lanes := (List.range 5).filter fun p => bit ((s.dev.core l).locked &&& (s.dev.core l).blocks) p
    t.lget l R.LNK_FL_STATE_PHASE = 6 ∧ t.lget l R.LNK_FL_STATE_N = min 4 lanes.length ∧ t.lget l R.LNK_FL_STATE_DEGRADED = b2n (decide (lanes.length < 4)) ∧
      t.lget l R.LNK_FL_BACKOFF = 10) ∧
  (∀ l s, l ≤ 7 → 1 ≤ s.dev.lget l R.LNK_FL_STATE_PHASE → s.dev.lget l R.LNK_FL_STATE_PHASE ≤ 5 → (s.dev.fn (FnId.link l)).stored = none →
    ∃ t : Dev, exec (.linkPhaseTimeout l) s = .next (s.withDev t) ∧ t.lget l R.LNK_FL_STATE_PHASE = 7 ∧
      t.lget l R.LNK_FL_LISTENS = min (s.dev.lget l R.LNK_FL_LISTENS + 1) (2 ^ 32 - 1)) ∧
  (∀ l s, l ≤ 7 → s.dev.lget l R.LNK_FL_STATE_PHASE = 7 → s.dev.lnk.taps = [] → s.dev.lnk.links.length = 8 →
    ∃ t : Dev, exec (.listenRetry l) s = .next (s.withDev t) ∧ t.lget l R.LNK_FL_STATE_PHASE = 1 ∧ (t.core l).heard = false) ∧
  (∀ h p, Ends (.linkEnable h p) (fun _ d => u8 p 1 = 1 ∧ d.flueUp (linkDie (u8 p 0)) = true ∧ d.canAnswer (linkDie (u8 p 0)) = true ∧ h.answered = none ∧ d.linkSt (u8 p 0) = .off)
    (fun c d => (d.setFn (FnId.link (u8 p 0)) { st := .starting, stored := none, running := [c] }).beginLink (u8 p 0)) (fun _ _ => .accepted)) ∧
  (∀ h p, Ends (.linkEnable h p) (fun _ d => u8 p 1 = 1 ∧ d.flueUp (linkDie (u8 p 0)) = false ∧ d.linkSt (u8 p 0) = .off)
    (fun c d => (d.finalReply c St.accepted 0 []).complete c St.fault 0) (fun _ _ => .later)) ∧
  (∀ h p, Ends (.linkEnable h p) (fun _ d => u8 p 1 = 0 ∧ d.linkRegionState (u8 p 0) ≠ .off) (fun _ d => d) (fun _ _ => .bad St.badState Rsk.inUse)) ∧
  (∀ l r s, l ≤ 7 → s.dev.fn (FnId.link l) = { st := .starting, stored := none, running := r } → s.dev.lget l R.LNK_FL_STATE_PHASE = 6 →
    exec (.linkTransitionDone l) s = .next (s.withDev ((s.dev.setFn (FnId.link l) { st := .on }).completeAll r St.done 0 (s.dev.linkData l)))) ∧
  (∀ l r s, l ≤ 7 → s.dev.fn (FnId.link l) = { st := .stopping, stored := none, running := r } → ∃ t : Dev,
    exec (.linkTransitionDone l) s = .next (s.withDev t) ∧ t.linkSt l = .off ∧ t.lget l R.LNK_FL_STATE_PHASE = 0 ∧ t.lget l R.LNK_FL_STATE_POWER = 0 ∧
      t.lget l R.LNK_FL_STATE_N = 0) ∧
  (∀ h p s, mayBegin (.linkStatus h p) s = true →
    let d := begunDev (.linkStatus h p) s; let c := begunCmd (.linkStatus h p) s
    d.flueUp (linkDie (u8 p 0)) = true → h.answered = none → ∃ data, exec (.linkStatus h p) s = .next (s.withDev (d.finalReply c St.done 0 data)) ∧ data.length = 32 ∧
    u8 data 0 = d.lget (u8 p 0) R.LNK_FL_STATE_PHASE ∧ u8 data 1 = (d.linkSt (u8 p 0)).num) ∧
  (∀ l s, l ≤ 7 → s.dev.lnk.startup = l + 1 → s.dev.linkSt l = .off → s.dev.rd 0 (R.DMP_HALF_ON (l / 4)) = 1 → ∃ t : Dev,
    exec .linkStartupSequence s = .next (s.withDev t) ∧ t.lnk.startup = l + 2 ∧ t.linkSt l = .starting ∧ t.lget l R.LNK_FL_STATE_PHASE = 1)

/-- The marker round of an active link with four good lanes changes no register; with one lane lost and a good spare it maps that logical lane to the spare: N stays 4, no spare is left, GEN advances and a switch is counted. Each round advances the link's round number and sends a marker on five lanes. A lost lane that retrains becomes the spare where there is none. LANE_POWER of a link not ON is BAD_STATE; of one that may rest, with no request pending, the request is ACCEPTED and waits; one that may not is BAD_STATE, LINK_IN_USE. The state reached is shown and the command completes. A sleeping link's burst is a marker round. EYE_SCAN and TAP_TEST of a lane whose sampler is busy are BAD_STATE, SAMPLER_BUSY, TAP_TEST of a lane not idle NOT_IDLE; with the flue die of the lane not reachable both complete FAULT; else they wait. A finished scan completes with its four margins, in MAP mode after writing its counts; a finished tap-test without a buffer with at most 8 findings of 8 bytes. (What the hearth side does, it does while it is neither held in reset nor shut down.) (R36, R321, R330, R332, R337, R338, R339, R340, R344, R345, R346) -/
def Obligations.LinksSwitchSpareRestAndAreTested : Prop :=
  (∀ l s, l ≤ 7 → s.dev.linkActive l = true → s.dev.lget l R.LNK_FL_STATE_N = 4 →
    (∀ k < 4, bit (s.dev.lget l R.LNK_FL_MAP_FAILED) (s.dev.mapOf l k) = false) → ∃ t : Dev, exec (.markerRound l) s = .next (s.withDev t) ∧
      t = { s.dev with lnk := t.lnk, out := t.out } ∧ t.lnk.rounds = s.dev.lnk.rounds.set l ((s.dev.lnk.rounds.getD l 0 + 1) % 4096) ∧
      t.out.length = s.dev.out.length + 5) ∧
  (∀ l k s, l ≤ 7 → k < 4 → s.dev.linkActive l = true → s.dev.lget l R.LNK_FL_STATE_N = 4 →
    bit (s.dev.lget l R.LNK_FL_MAP_FAILED) (s.dev.mapOf l k) = true → (∀ j < 4, j ≠ k → bit (s.dev.lget l R.LNK_FL_MAP_FAILED) (s.dev.mapOf l j) = false) →
    s.dev.lget l R.LNK_FL_MAP_SPARE < 5 → bit (s.dev.lget l R.LNK_FL_MAP_FAILED) (s.dev.lget l R.LNK_FL_MAP_SPARE) = false → 3 ≤ (s.dev.goodLanes l).length →
    ∃ t : Dev, exec (.markerRound l) s = .next (s.withDev t) ∧ t.lget l R.LNK_FL_STATE_N = 4 ∧ t.mapOf l k = s.dev.lget l R.LNK_FL_MAP_SPARE ∧
      t.lget l R.LNK_FL_MAP_SPARE = 7 ∧ t.lget l R.LNK_FL_STATE_GEN = (s.dev.lget l R.LNK_FL_STATE_GEN + 1) % 16 ∧
      t.lget l R.LNK_FL_SWITCHES = min (s.dev.lget l R.LNK_FL_SWITCHES + 1) (2 ^ 32 - 1)) ∧
  (∀ l p s, l ≤ 7 → p ≤ 4 → s.dev.linkIsOn l = true → bit (s.dev.lget l R.LNK_FL_MAP_FAILED) p = true → s.dev.lget l R.LNK_FL_MAP_SPARE = 7 →
    ∃ t : Dev, exec (.laneRetrain l p true) s = .next (s.withDev t) ∧ t = { s.dev with regs := t.regs } ∧
      t.lget l R.LNK_FL_MAP_FAILED = s.dev.lget l R.LNK_FL_MAP_FAILED - 2 ^ p ∧ t.lget l R.LNK_FL_MAP_SPARE = p ∧ t.lget l R.LNK_FL_STATE_NO_SPARE = 0) ∧
  (∀ h p, Ends (.lanePower h p) (fun _ d => d.linkSt (u8 p 0) ≠ .on) (fun _ d => d) (fun _ _ => .bad St.badState 0)) ∧
  (∀ h p, Ends (.lanePower h p) (fun _ d => d.linkSt (u8 p 0) = .on ∧ u8 p 1 ≠ 0 ∧ d.mayRest (u8 p 0) = false)
    (fun _ d => d) (fun _ _ => .bad St.badState Rsk.inUse)) ∧
  (∀ h p, Ends (.lanePower h p)
    (fun _ d => d.linkSt (u8 p 0) = .on ∧ (u8 p 1 = 0 ∨ d.mayRest (u8 p 0) = true) ∧ d.flueUp (linkDie (u8 p 0)) = true ∧ d.canAnswer (linkDie (u8 p 0)) = true ∧ h.answered = none ∧
      d.lnk.power.find? (·.1 = u8 p 0) = none)
    (fun c d => d.powerAsk (u8 p 0) (u8 p 1) (some c)) (fun _ _ => .accepted)) ∧
  (∀ l target c s, s.dev.lnk.power.find? (·.1 = l) = some (l, target, some c) → s.dev.lget l R.LNK_FL_STATE_POWER ≠ 2 → ∃ t : Dev,
    exec (.lanePowerDone l) s = .next (s.withDev (t.complete c St.done 0)) ∧ t = { s.dev with regs := t.regs, lnk := t.lnk } ∧
      t.lget l R.LNK_FL_STATE_POWER = target % 4 ∧ t.lnk.power = amDel s.dev.lnk.power l) ∧
  (∀ l s, l < 8 → s.dev.linkIsOn l = true → s.dev.lget l R.LNK_FL_STATE_POWER = 1 → ∃ t : Dev, exec (.sleepBurst l) s = .next (s.withDev t) ∧
    t.regs = s.dev.regs ∧ t.lnk.rounds = s.dev.lnk.rounds.set l ((s.dev.lnk.rounds.getD l 0 + 1) % 4096) ∧ t.out.length = s.dev.out.length + 5) ∧
  (∀ h p, Ends (.eyeScan h p) (fun _ d => (d.laneDies (u16 p 0)).all d.flueUp = true ∧ d.samplerBusy (u16 p 0) = true)
    (fun _ d => d) (fun _ _ => .bad St.badState Rsk.samplerBusy)) ∧
  (∀ h p, Ends (.eyeScan h p) (fun _ d => (d.laneDies (u16 p 0)).all d.flueUp = false)
    (fun c d => (d.finalReply c St.accepted 0 []).complete c St.fault 0) (fun _ _ => .later)) ∧
  (∀ h p, Ends (.eyeScan h p) (fun _ d => (d.laneDies (u16 p 0)).all d.flueUp = true ∧ d.samplerBusy (u16 p 0) = false)
    (fun c d => { d with lnk := { d.lnk with scans := d.lnk.scans ++ [⟨c, u16 p 0, u8 p 2 = 1, u16 p 4, u32 p 8⟩] } }) (fun _ _ => .accepted)) ∧
  (∀ lane l r t b cnt x s, s.dev.hearthOff = false → s.dev.lnk.scans.find? (·.lane = lane) = some x → x.map = false → exec (.eyeScanDone lane l r t b cnt) s =
    .next (s.withDev (({ s.dev with lnk := { s.dev.lnk with scans := s.dev.lnk.scans.filter (·.lane ≠ lane) } } : Dev).complete x.cmd St.done 0
      (enc 1 l ++ enc 1 r ++ enc 1 t ++ enc 1 b)))) ∧
  (∀ lane l r t b cnt x o s, s.dev.hearthOff = false → s.dev.lnk.scans.find? (·.lane = lane) = some x → x.map = true → s.heap.buf x.buffer = some o → o.lost = false →
    ∃ e : Dev, exec (.eyeScanDone lane l r t b cnt) s =
      .next (s.withBoth (s.heap.write x.buffer x.offset ((List.range 16320).map fun i => encLe 4 (cnt.getD i 0)).flatten, e)) ∧
      e.lnk.scans = s.dev.lnk.scans.filter (·.lane ≠ lane)) ∧
  (∀ h p, Ends (.tapTest h p) (fun _ d => (d.laneDies (u16 p 0)).all d.flueUp = true ∧ d.laneIdle (u16 p 0) = false) (fun _ d => d) (fun _ _ => .bad St.badState Rsk.notIdle)) ∧
  (∀ h p, Ends (.tapTest h p) (fun _ d => (d.laneDies (u16 p 0)).all d.flueUp = false)
    (fun c d => (d.finalReply c St.accepted 0 []).complete c St.fault 0) (fun _ _ => .later)) ∧
  (∀ h p, Ends (.tapTest h p) (fun _ d => (d.laneDies (u16 p 0)).all d.flueUp = true ∧ d.laneIdle (u16 p 0) = true ∧ d.samplerBusy (u16 p 0) = false)
    (fun c d => { d with lnk := { d.lnk with taps := d.lnk.taps ++ [⟨c, u16 p 0, u16 p 2, u16 p 4, u16 p 6, u32 p 8⟩] } }) (fun _ _ => .accepted)) ∧
  (∀ lane rho x s, s.dev.hearthOff = false → s.dev.lnk.taps.find? (·.lane = lane) = some x → x.buffer = 0 → lane / 256 = 0 → ∃ data,
    exec (.tapTestDone lane rho) s =
      .next (s.withDev (({ s.dev with lnk := { s.dev.lnk with taps := s.dev.lnk.taps.filter (·.lane ≠ lane) } } : Dev).complete x.cmd St.done 0 data)) ∧
      data.length = 10 + 8 * u8 data 0 ∧ u8 data 0 ≤ 8)

/-- NET_PORT_SET keeps MODE and FLAGS; a change of MODE while the port is not OFF is BAD_STATE, PORT_ON. NET_PORT_ENABLE starts an OFF port; the transition done brings it ON and completes its commands. NET_IF_SET stores the interface's setting (SAVE also in flash) and reports its groups. NET_PAIR_SET writes the window of a pair no stream uses; one in use is BAD_STATE, PAIR_IN_USE. NET_ANVIL_SET stores the group and reports it on every interface that carries commands. NET_STATUS and NET_PAIR_STATUS report the bytes of R376 and R377. An interface's link that goes up or down is shown in its register; a loss raises the level of the interface's source. (What the hearth side does, it does while it is neither held in reset nor shut down.) (R350, R351, R353, R373, R374, R375, R376, R377) -/
def Obligations.NetworkCommands : Prop :=
  (∀ h p, Ends (.netPortSet h p) (fun _ d => (d.portCfg (u8 p 0)).mode = u8 p 1 ∨ (d.fn (FnId.port (u8 p 0))).st = .off)
    (fun _ d => { d with net := { d.net with ports := d.net.ports.set (u8 p 0) ⟨u8 p 1, u8 p 2⟩ } }) (fun _ _ => .done)) ∧
  (∀ h p, Ends (.netPortSet h p) (fun _ d => (d.portCfg (u8 p 0)).mode ≠ u8 p 1 ∧ (d.fn (FnId.port (u8 p 0))).st ≠ .off)
    (fun _ d => d) (fun _ _ => .bad St.badState 0x40)) ∧
  (∀ h p, Ends (.netPortEnable h p) (fun _ d => u8 p 1 = 1 ∧ (d.fn (FnId.port (u8 p 0))).st = .off)
    (fun c d => d.setFn (FnId.port (u8 p 0)) { st := .starting, stored := none, running := [c] }) (fun _ _ => .accepted)) ∧
  (∀ k r s, s.dev.hearthOff = false → k ≤ 4 → s.dev.fn (FnId.port k) = { st := .starting, stored := none, running := r } →
    exec (.portTransitionDone k) s = .next (s.withDev ((s.dev.setFn (FnId.port k) { st := .on }).completeAll r St.done 0))) ∧
  (∀ h p, Ends (.netIfSet h p) (fun _ _ => u8 p 1 = 0)
    (fun _ d => ({ d with net := { d.net with ifs := amPut d.net.ifs (u8 p 0) (ifOf p) } } : Dev).igmpReport (u8 p 0)) (fun _ _ => .done)) ∧
  (∀ h p, Ends (.netIfSet h p) (fun _ _ => u8 p 1 = 1)
    (fun _ d => (({ d with net := { d.net with ifs := amPut d.net.ifs (u8 p 0) (ifOf p) } } : Dev).bootSave fun b => { b with if16 := p }).igmpReport (u8 p 0))
    (fun _ _ => .done)) ∧
  (∀ h p, Ends (.netPairSet h p) (fun _ d => d.pairUsed (u8 p 0) = true) (fun _ d => d) (fun _ _ => .bad St.badState 0x43)) ∧
  (∀ h p s, mayBegin (.netPairSet h p) s = true →
    let d := begunDev (.netPairSet h p) s; let c := begunCmd (.netPairSet h p) s
    d.pairUsed (u8 p 0) = false → ∃ t : Dev,
    exec (.netPairSet h p) s = .next (s.withDev (t.finalReply c St.done 0 [])) ∧ t = { d with regs := t.regs } ∧ t.rd 0 (R.NET_PAIR_WINDOW (u8 p 0)) = u16 p 2) ∧
  (∀ h p s, mayBegin (.netAnvilSet h p) s = true →
    let d := begunDev (.netAnvilSet h p) s; let c := begunCmd (.netAnvilSet h p) s
    ∃ t : Dev, exec (.netAnvilSet h p) s = .next (s.withDev (t.finalReply c St.done 0 [])) ∧
    t = { d with net := { d.net with group := u32 p 0 }, out := t.out } ∧
    t.out.length = d.out.length + ((List.range 17).filter fun i => i = 16 || (d.ifCfg i).mgmtVlan ≠ 0).length) ∧
  (∀ h p, Reports (.netStatus h p) (fun _ _ => True) (fun _ d =>
    let i := u8 p 0
    enc 1 (d.rd 0 (R.NET_IF_LINK i) + 2 * b2n (d.ifFec i)) ++ zeros 3 ++ enc 4 (d.rd 0 (R.NET_FEC_CORR i)) ++ enc 4 (d.rd 0 (R.NET_FEC_UNCORR i)) ++
      enc 4 (amGet d.net.frames i 0) ++ enc 4 (d.rd 0 (R.NET_IF_DROP i)) ++ enc 4 (d.rd 0 (R.NET_IF_EARLY i)))) ∧
  (∀ h p, Reports (.netPairStatus h p) (fun _ _ => True) (fun _ d =>
    let n := u8 p 0
    let c := d.net.pairs.getD n {}
    enc 1 (d.rd 0 (R.NET_PAIR_A_DOWN n) + 2 * d.rd 0 (R.NET_PAIR_B_DOWN n)) ++ zeros 3 ++ enc 4 c.firstA ++ enc 4 c.firstB ++ enc 4 (d.rd 0 (R.NET_PAIR_LOST n)) ++
      enc 4 c.mismatch ++ enc 4 (d.rd 0 (R.NET_PAIR_SKEW n)))) ∧
  (∀ i s, s.dev.hearthOff = false → s.dev.ifExists i = true → (s.dev.fn (FnId.port (ifPort i))).st = .on → s.dev.rd 0 (R.NET_IF_LINK i) = 0 →
    ∃ t : Dev, exec (.portLinkChange i true) s = .next (s.withDev t) ∧ t.rd 0 (R.NET_IF_LINK i) = 1 ∧ (t.src (128 + i)).level = false) ∧
  (∀ i s, s.dev.hearthOff = false → s.dev.ifExists i = true → s.dev.rd 0 (R.NET_IF_LINK i) = 1 →
    ∃ t : Dev, exec (.portLinkChange i false) s = .next (s.withDev t) ∧ t.rd 0 (R.NET_IF_LINK i) = 0 ∧ (t.src (128 + i)).level = true)

/-- A good untagged ARP request for an interface's address is answered on that interface and its sender held; with FEC on, its corrected codewords are counted. A slice NAL unit in a packet of its own joins the NAL units of its source's component with its presentation time; a marker bit ends the access unit. The first packet of a compressed source of an ON stream on path A locks its SSRC and is delivered: the next number is due and none is held. A sweep that finds a packet held longer than the window delivers it: the packets missing before it are counted lost. A path of a two-path source that has delivered nothing for 20 ms while the other has is DOWN and marked; path A's also in the pair's register. An SSRC silent for 1 s is unlocked. (What the hearth side does, it does while it is neither held in reset nor shut down.) (R110, R352, R357, R358, R360, R361) -/
def Obligations.PacketsAreMergedAndDepacketised : Prop :=
  (∀ i cor bad (b : Bytes) s, s.dev.hearthOff = false → s.dev.ifExists i = true → s.dev.rd 0 (R.NET_IF_LINK i) = 1 → s.dev.pwr.hearthHeld = false → 60 ≤ b.length → b.length ≤ 9212 →
    (parseFrame b).tag = none → (parseFrame b).kind = 0x0806 → (s.dev.ifCfg i).vlan = 0 → (s.dev.ifCfg i).addr ≠ 0 →
    u32 (b.drop (parseFrame b).off) 24 = (s.dev.ifCfg i).addr → u16 (b.drop (parseFrame b).off) 6 = 1 →
    ∃ t : Dev, exec (.ethFrameRx i true cor bad b) s = .next (s.withDev t) ∧ t = { s.dev with regs := t.regs, net := t.net, out := t.out } ∧
      (s.dev.ifFec i = true → t.rd 0 (R.NET_FEC_CORR i) = min (s.dev.rd 0 (R.NET_FEC_CORR i) + cor) (2 ^ 32 - 1)) ∧
      (s.dev.ifFec i = false → t.regs = s.dev.regs) ∧
      t.out = .eth i (arpReply i (s.dev.ifCfg i).addr (parseFrame b) (b.drop (parseFrame b).off)) :: s.dev.out ∧
      t.net.arp = amPut s.dev.net.arp (i * 2 ^ 32 + u32 (b.drop (parseFrame b).off) 14) (u48 (b.drop (parseFrame b).off) 8)) ∧
  (∀ k i ts gap mark (b : Bytes) cfg z s, s.dev.hearthOff = false → k < 8 → k < s.dev.dec.slots.length → (s.dev.stream k).cfg = some cfg → cfg.kind ≠ 3 →
    s.dev.source? k i = some z → z.all = false → (s.dev.view k z.view).owner ≠ none → 3 ≤ b.length → u8 b 0 / 2 % 64 < 32 →
    u8 b 0 % 2 * 32 + u8 b 1 / 8 = 0 →
    ∃ t : Dev, exec (.rtpPacketRx k i ts gap mark false b) s = .next (s.withDev t) ∧
      (t.stream k).nals = (s.dev.stream k).nals ++ [⟨z.view, z.depth, i, s.dev.rtpTime ts, b⟩] ∧ (t.rxOf k i).frag = none ∧
      (t.rxOf k i).openTs = (if mark then none else some ts) ∧
      (mark = true → ∃ r, (t.stream k).ended = r ++ [{ src := i, time := s.dev.rtpTime ts, due := s.dev.nextPick }])) ∧
  (∀ k i ssrc q ts mark donl (b : Bytes) z cfg s, s.dev.hearthOff = false → (s.dev.stream k).cfg = some cfg → cfg.kind ≠ 3 → s.dev.source? k i = some z → (s.dev.fn (FnId.decode k)).st = .on →
    s.dev.rxOf k i = {} → ∃ t : Dev, exec (.pathPacketRx k i 0 z.pt ssrc q ts mark donl b) s = .next (s.withDev t) ∧ (t.rxOf k i).ssrc = some ssrc ∧
      (t.rxOf k i).next = some ((q % 65536 + 1) % 2 ^ 32) ∧ (t.rxOf k i).held = []) ∧
  (∀ k z pk n s, s.dev.hearthOff = false → k < 8 → k < s.dev.dec.slots.length → s.dev.rxSlots = [k] → s.dev.sources k = [z] → (s.dev.rxOf k 0).held = [pk] → (s.dev.rxOf k 0).next = some n →
    pk.seq < 2 ^ 32 → n < 2 ^ 32 → s.dev.mergeWindow z ≤ s.dev.now 3 - pk.at_ → ∃ t : Dev, exec .mergeWindowSweep s = .next (s.withDev t) ∧
      (t.rxOf k 0).held = [] ∧ (t.rxOf k 0).next = some ((pk.seq + 1) % 2 ^ 32) ∧
      (t.stream k).lost = min ((s.dev.stream k).lost + (pk.seq + 2 ^ 32 - n) % 2 ^ 32) (2 ^ 32 - 1)) ∧
  (∀ k i path z s, s.dev.hearthOff = false → k < 8 → path ≤ 1 → s.dev.source? k i = some z → z.groupB ≠ 0 → (s.dev.rxOf k i).down.length = 2 → (s.dev.rxOf k i).down.getD path false = false →
    (s.dev.rxOf k i).pathSilent (s.dev.now 3) path = true → ∃ t : Dev, exec (.pathDown k i path) s = .next (s.withDev t) ∧ (t.rxOf k i).down.getD path false = true ∧
      (path = 0 → t.rd 0 (R.NET_PAIR_A_DOWN z.pair) = 1)) ∧
  (∀ k i, Occurs (.ssrcTimeout k i) (fun d => d.hearthOff = false ∧ k < 8 ∧ (d.source? k i).isSome = true ∧ 10 ^ 9 * 2 ^ 32 ≤ d.now 3 - (d.rxOf k i).ssrcAt) (fun d => d.setRx k i { d.rxOf k i with ssrc := none }))

/-- TIME_READ reports the four bases at one instant with MEDIA's state. TIME_SET sets a base that the servo does not own to the VALUE given and counts a step; INCR is taken; LOCK needs the host servo, and a base the servo owns refuses with SERVO_OWNED. GO adds the signed nanoseconds and fraction; a refused GO or INCR is counted; an INCR in range is taken. A read of SEC_LO latches a base's words. TPO_SET keeps a setting (a one-shot less than 1 µs ahead is BAD_STATE, PAST); a one-shot fires once and says so. TCI_SET keeps a setting and empties the records; TCI_READ removes the oldest; an edge selected by an input without a window is recorded with the four stamps. (What the hearth side does, it does while it is neither held in reset nor shut down.) (R362, R363, R364, R369, R370, R379, R380, R384, R385, R387) -/
def Obligations.TimeBasesPulsesAndCaptures : Prop :=
  (∀ h p, Reports (.timeRead h p) (fun _ _ => True) (fun _ d => ((List.range 4).map fun b =>
    fullForm (d.now b) ++ enc 1 (if b = 0 then d.rd 0 R.PTP_STATE_MEDIA else 0) ++ zeros 3).flatten)) ∧
  (∀ h p s, mayBegin (.timeSet h p) s = true →
    let d := begunDev (.timeSet h p) s; let c := begunCmd (.timeSet h p) s
    u8 p 1 = 0 → d.servoOwned (u8 p 0) = false → (u8 p 0 = 0 → d.time.ptp.usesPps = false) → d.time.t.length = 4 →
    ∃ t : Dev, exec (.timeSet h p) s = .next (s.withDev (t.finalReply c St.done 0 (fullForm (t.now (u8 p 0))))) ∧ t.now (u8 p 0) = ofFull p 4 % baseWrap ∧
      t.rd 0 (R.PTP_STEPS (u8 p 0)) = min (d.rd 0 (R.PTP_STEPS (u8 p 0)) + 1) (2 ^ 32 - 1)) ∧
  (∀ h p, Ends (.timeSet h p) (fun _ d => u8 p 1 = 2 ∧ d.servoOwned (u8 p 0) = false)
    (fun _ d => d.setIncr (u8 p 0) (u64 p 4)) (fun _ d => .done (fullForm (d.now (u8 p 0))))) ∧
  (∀ h p, Ends (.timeSet h p) (fun _ d => (u8 p 1 = 1 ∨ u8 p 1 = 2) ∧ d.servoOwned (u8 p 0) = true ∨ u8 p 1 = 3 ∧ d.time.ptp.servoHost = false)
    (fun _ d => d) (fun _ _ => .bad St.badState 0x41)) ∧
  (∀ b fr s, s.dev.hearthOff = false → b < 3 → s.dev.servoOwned b = false → s.dev.time.t.length = 4 → ∃ t : Dev, exec (.ptpAdjGo b fr) s = .next (s.withDev t) ∧
    (t.now b : Int) = ((s.dev.now b : Int) + s.dev.rdI 0 (R.PTP_ADJ_NS b) * 2 ^ 32 + (fr % 65536 : Nat) * 2 ^ 16) % (baseWrap : Int) ∧
    t.rd 0 (R.PTP_STEPS b) = min (s.dev.rd 0 (R.PTP_STEPS b) + 1) (2 ^ 32 - 1)) ∧
  (∀ b fr, Occurs (.ptpAdjGo b fr) (fun d => d.hearthOff = false ∧ (b = 3 ∨ b = 0 ∧ d.servoOwned b = true)) (fun d => d.bump 0 R.PTP_REFUSED)) ∧
  (∀ b ns, Occurs (.ptpIncrWrite b ns) (fun d => d.hearthOff = false ∧ b < 3 ∧ d.servoOwned b = false ∧ incrMin ≤ ns % 256 * 2 ^ 32 + d.rd 0 (R.PTP_INCR_FRAC b) ∧
    ns % 256 * 2 ^ 32 + d.rd 0 (R.PTP_INCR_FRAC b) ≤ incrMax) (fun d => d.setIncr b (ns % 256 * 2 ^ 32 + d.rd 0 (R.PTP_INCR_FRAC b)))) ∧
  (∀ b ns, Occurs (.ptpIncrWrite b ns) (fun d => d.hearthOff = false ∧ (b = 3 ∨ b = 0 ∧ d.servoOwned b = true)) (fun d => d.bump 0 R.PTP_REFUSED)) ∧
  (∀ b s, s.dev.hearthOff = false → b ≤ 3 → ∃ t : Dev, exec (.ptpTimeLatchRead b) s = .next (s.withDev t) ∧ t = { s.dev with regs := t.regs } ∧
    t.rd 0 (R.PTP_T_SEC_LO b) = s.dev.now b / secTicks % 2 ^ 32 ∧ t.rd 0 (R.PTP_T_SEC_HI b) = s.dev.now b / secTicks / 2 ^ 32 % 65536 ∧
    t.rd 0 (R.PTP_T_NS b) = s.dev.now b % secTicks / 2 ^ 32 ∧ t.rd 0 (R.PTP_T_FRAC b) = s.dev.now b % 2 ^ 32 / 2 ^ 16) ∧
  (∀ h p, Ends (.tpoSet h p) (fun _ d => u8 p 2 = 1 ∧ shortDiff (u64 p 4) (d.short (u8 p 1)) < 1000 * 65536) (fun _ d => d) (fun _ _ => .bad St.badState 0x42)) ∧
  (∀ h p s, mayBegin (.tpoSet h p) s = true →
    let d := begunDev (.tpoSet h p) s; let c := begunCmd (.tpoSet h p) s
    (u8 p 2 = 1 → 1000 * 65536 ≤ shortDiff (u64 p 4) (d.short (u8 p 1))) → d.time.tpo.length = 8 → ∃ t : Dev,
    exec (.tpoSet h p) s = .next (s.withDev (t.finalReply c St.done 0 [])) ∧ (let x := t.time.tpo.getD (u8 p 0) {}
      x.mode = u8 p 2 ∧ x.base = u8 p 1 ∧ x.flags = u8 p 3 ∧ x.start = u64 p 4 ∧ x.period = u64 p 12 ∧ x.width = u32 p 20 ∧ x.fired = false ∧
        x.since = d.now 3 + 1000 * 2 ^ 32) ∧
      t.rd 0 (R.PTP_TPO_MODE (u8 p 0)) = u8 p 2 ∧ t.rd 0 (R.PTP_TPO_BASE (u8 p 0)) = u8 p 1) ∧
  (∀ n s, s.dev.hearthOff = false → n < s.dev.time.tpo.length → (s.dev.time.tpo.getD n {}).mode = 1 → (s.dev.time.tpo.getD n {}).fired = false → ∃ t : Dev,
    exec (.tpoFire n) s = .next (s.withDev t) ∧ (t.time.tpo.getD n {}).fired = true ∧ t.rd 0 (R.PTP_TPO_FIRED n) = 1) ∧
  (∀ h p s, mayBegin (.tciSet h p) s = true →
    let d := begunDev (.tciSet h p) s; let c := begunCmd (.tciSet h p) s
    d.time.tci.length = 5 → ∃ t : Dev, exec (.tciSet h p) s = .next (s.withDev (t.finalReply c St.done 0 [])) ∧
    (t.time.tci.getD (u8 p 0) {}).edge = u8 p 1 ∧ (t.time.tci.getD (u8 p 0) {}).fifo = [] ∧ (t.time.tci.getD (u8 p 0) {}).opens = u64 p 4 ∧
    (t.time.tci.getD (u8 p 0) {}).closes = u64 p 12 ∧ t.rd 0 (R.PTP_TCI_FILL (u8 p 0)) = 0) ∧
  (∀ h p s, mayBegin (.tciRead h p) s = true →
    let d := begunDev (.tciRead h p) s; let c := begunCmd (.tciRead h p) s
    d.time.tci.length = 5 → (d.time.tci.getD (u8 p 0) {}).fifo.length ≤ 32 → ∃ (t : Dev) (data : Bytes),
    exec (.tciRead h p) s = .next (s.withDev (t.finalReply c St.done 0 data)) ∧
      u8 data 0 = min (u8 p 1) (d.time.tci.getD (u8 p 0) {}).fifo.length ∧ (t.time.tci.getD (u8 p 0) {}).fifo = (d.time.tci.getD (u8 p 0) {}).fifo.drop (u8 p 1)) ∧
  (∀ n s, s.dev.hearthOff = false → n ≤ 4 → s.dev.time.tci.length = 5 → (s.dev.time.tci.getD n {}).edge = 1 → (s.dev.time.tci.getD n {}).window = false →
    (s.dev.time.tci.getD n {}).last = none → (s.dev.time.tci.getD n {}).fifo.length < 32 →
    (n = 4 → s.dev.time.ptp.usesPps = false) → ∃ t : Dev, exec (.captureEdge n true) s = .next (s.withDev t) ∧
      (t.time.tci.getD n {}).fifo = (s.dev.time.tci.getD n {}).fifo ++ [⟨(s.dev.time.tci.getD n {}).seq, 1, (List.range 4).map s.dev.short⟩] ∧
      t.rd 0 (R.PTP_TCI_FILL n) = (s.dev.time.tci.getD n {}).fifo.length + 1)

/-- PTP_SET takes its settings and MEDIA reacquires; PTP_STATUS reports 28 bytes and PTP_SAMPLES the newest records. The first master heard is followed and MEDIA acquires; an Announce out of range is counted. A two-step Sync of the master followed waits for its Follow_Up, whose origin time plus correction makes the exchange; a Delay_Req is sent, in hybrid mode to the master alone, and time-stamped; its Delay_Resp forms a sample record and a path delay; one unanswered is counted. A master whose Announces stop is dropped and the best of the rest followed. HOLDOVER at its limit stops reporting lock. With PPS_IN the seconds given apply at the edge, and a missing edge enters HOLDOVER. TIME_FWD leaves on both halves that are ON, each copy with its SEQ; a good one counts towards the flue die's lock, a bad one ends the run; without any the synthesizer holds over and counts it. (What the hearth side does, it does while it is neither held in reset nor shut down.) (R27, R32, R365, R366, R367, R368, R381, R382, R383, R421) -/
def Obligations.PtpFollowsMastersAndFlueClocksFollow : Prop :=
  (∀ h p s, mayBegin (.ptpSet h p) s = true →
    let c := begunCmd (.ptpSet h p) s
    ∃ t : Dev, exec (.ptpSet h p) s = .next (s.withDev (t.finalReply c St.done 0 [])) ∧
    t.time.ptp.domain = u8 p 0 ∧ t.time.ptp.ifA = u8 p 1 ∧ t.time.ptp.ifB = u8 p 2 ∧ t.time.ptp.flags = u8 p 3 ∧ t.time.ptp.lockNs = u16 p 4 ∧
    t.time.ptp.hold = u16 p 6 ∧ t.time.ptp.annT = u8 p 8 ∧ t.rd 0 R.PTP_STATE_MEDIA = if t.time.ptp.master.isSome || bit (u8 p 3) 1 then 1 else 0) ∧
  (∀ h p s, mayBegin (.ptpStatus h p) s = true →
    let d := begunDev (.ptpStatus h p) s; let c := begunCmd (.ptpStatus h p) s
    ∃ data, exec (.ptpStatus h p) s = .next (s.withDev (d.finalReply c St.done 0 data)) ∧ data.length = 28 ∧
    u8 data 0 = d.rd 0 R.PTP_STATE_MEDIA) ∧
  (∀ h p, Reports (.ptpSamples h p) (fun _ _ => True) (fun _ d =>
    let l := d.time.ptp.samples.drop (d.time.ptp.samples.length - u8 p 0)
    enc 1 l.length ++ zeros 3 ++ (l.map fun r => enc 4 r.seq ++ enc 8 r.t1 ++ enc 8 r.t2 ++ enc 8 r.t3 ++ enc 8 r.t4).flatten)) ∧
  (∀ i port a b c v e g n dom (lg : Int) tlv ad s, s.dev.hearthOff = false → s.dev.isPtpIf i = true → dom = s.dev.time.ptp.domain → -3 ≤ lg → lg ≤ 1 → s.dev.time.ptp.masters = [] →
    s.dev.time.ptp.master = none → s.dev.time.ptp.usesPps = false → s.dev.time.ptp.servoHost = false → ∃ t : Dev,
      exec (.ptpAnnounceRx i port a b c v e g n dom lg tlv ad) s = .next (s.withDev t) ∧ t.time.ptp.masters = [⟨i, port, a, b, c, v, e, g, n, ad⟩] ∧
      t.time.ptp.master = some ⟨i, port, a, b, c, v, e, g, n, ad⟩ ∧ t.rd 0 R.PTP_STATE_MEDIA = 1) ∧
  (∀ i port a b c v e g n dom (lg : Int) tlv ad, Occurs (.ptpAnnounceRx i port a b c v e g n dom lg tlv ad)
    (fun d => d.hearthOff = false ∧ (d.isPtpIf i = true ∧ (dom ≠ d.time.ptp.domain ∨ lg < -3 ∨ 1 < lg))) Dev.ptpDiscard) ∧
  (∀ i port dom (lg : Int) q t1 m, Occurs (.ptpSyncRx i port dom lg true q t1)
    (fun d => d.hearthOff = false ∧ d.isPtpIf i = true ∧ dom = d.time.ptp.domain ∧ -7 ≤ lg ∧ lg ≤ -1 ∧ d.time.ptp.master = some m ∧ m.iface = i ∧ m.port = port)
    (fun d => d.setPtp fun x => { x with twoStep := some (q, t1, d.media) })) ∧
  (∀ i port dom q t1 m cr t2 s, s.dev.hearthOff = false → s.dev.isPtpIf i = true → dom = s.dev.time.ptp.domain → s.dev.time.ptp.master = some m → m.iface = i → m.port = port →
    s.dev.time.ptp.twoStep = some (q, cr, t2) → ∃ t : Dev, exec (.ptpFollowUpRx i port dom q t1) s = .next (s.withDev t) ∧
      t.time.ptp.sync = some (t1 + cr, t2) ∧ t.time.ptp.twoStep = none) ∧
  (∀ m, Occurs .delayReqSend (fun d => d.hearthOff = false ∧ d.time.ptp.master = some m) (fun d =>
    let dst := if d.time.ptp.hybrid then m.addr else ptpGroup
    (d.setPtp fun x => { x with req := some (x.reqSeq, d.media), reqSeq := (x.reqSeq + 1) % 65536 }).send
      (.udp m.iface (d.nextHop m.iface false dst) dst 319 319 (d.delayReq m.iface d.time.ptp.reqSeq)))) ∧
  (∀ (i port dom q t4 : Nat) (m : Master) (t1 t2 t3 : Nat) (s : State), s.dev.hearthOff = false → s.dev.isPtpIf i = true → dom = s.dev.time.ptp.domain → s.dev.time.ptp.master = some m → m.iface = i → m.port = port →
    s.dev.time.ptp.req = some (q, t3) → s.dev.time.ptp.sync = some (t1, t2) → s.dev.time.ptp.samples.length < 64 → ∃ t : Dev,
      exec (.delayRespRx i port dom q t4) s = .next (s.withDev t) ∧ t.time.ptp.req = none ∧ t.time.ptp.noAnswer = 0 ∧
      t.time.ptp.samples = s.dev.time.ptp.samples ++ [⟨s.dev.time.ptp.next, t1 % 2 ^ 64, t2 % 2 ^ 64, t3 % 2 ^ 64, t4 % 2 ^ 64⟩] ∧
      t.time.ptp.delays.headD 0 = roundFree (((t2 : Int) - t1) + ((t4 : Int) - t3)) 2) ∧
  Occurs .delayReqTimeout (fun d => d.hearthOff = false ∧ d.time.ptp.req ≠ none) (fun d => d.setPtp fun x => { x with req := none, noAnswer := x.noAnswer + 1 }) ∧
  (∀ i port s, s.dev.hearthOff = false → ∃ t : Dev, exec (.announceTimeout i port) s = .next (s.withDev t) ∧
    t.time.ptp.masters = (s.dev.time.ptp.masters.filter fun m => ¬(m.iface = i ∧ m.port = port)) ∧ t.time.ptp.master = t.time.ptp.best) ∧
  (∀ s, s.dev.hearthOff = false → s.dev.rd 0 R.PTP_STATE_MEDIA = 3 → ∃ t : Dev, exec .holdLimitExpire s = .next (s.withDev t) ∧ t.rd 0 R.PTP_STATE_MEDIA = 3 ∧
    t.rd 0 R.PTP_STATE_REPORTS_LOCK = 0) ∧
  (∀ k s, s.dev.hearthOff = false → s.dev.time.ptp.usesPps = true → s.dev.time.ptp.ppsSec = some k → s.dev.time.t.length = 4 → ∃ t : Dev, exec .ppsInEdge s = .next (s.withDev t) ∧
    t.now 0 = k * secTicks % baseWrap ∧ t.time.ptp.ppsSec = none) ∧
  (∀ s, s.dev.hearthOff = false → s.dev.time.ptp.usesPps = true → s.dev.rd 0 R.PTP_STATE_MEDIA = 2 → ∃ t : Dev, exec .ppsMissing s = .next (s.withDev t) ∧
    t.rd 0 R.PTP_STATE_MEDIA = 3 ∧ t.time.ptp.heldAt = some (s.dev.now 3)) ∧
  (∀ s, s.dev.hearthOff = false → s.dev.rd 0 (R.DMP_HALF_ON 0) = 1 → s.dev.rd 0 (R.DMP_HALF_ON 1) = 1 → ∃ t : Dev, exec .timeFwdSend s = .next (s.withDev t) ∧
    let ws := [s.dev.media / (10 ^ 9 * 65536) * 65536, s.dev.media % (10 ^ 9 * 65536) / 65536 * 2 ^ 32 + s.dev.media % 65536 * 65536]
    let w (k : Nat) : Output := .damper (k - 8) (damperBlocks 15 0 0x04 (seqOf s.dev.dmp.fwdSeq k 0x04) ws)
    t.out = w 9 :: w 8 :: s.dev.out) ∧
  (∀ die w0 w1 s, s.dev.takesForward die = true → s.dev.clk.synth.length = 2 → ∃ t : Dev, exec (.timeFwd die w0 w1 .good) s = .next (s.withDev t) ∧
    (t.clk.synth.getD (die - 8) {}).valid = (s.dev.clk.synth.getD (die - 8) {}).valid + 1 ∧
    (7 ≤ (s.dev.clk.synth.getD (die - 8) {}).valid → t.rd die R.CLK_FR_STATE = 1)) ∧
  (∀ die w0 w1 s, s.dev.takesForward die = true → s.dev.clk.synth.length = 2 → ∃ t : Dev, exec (.timeFwd die w0 w1 .crc) s = .next (s.withDev t) ∧
    (t.clk.synth.getD (die - 8) {}).valid = 0 ∧ t.rd die R.DMP_CRC_ERR = min (s.dev.rd die R.DMP_CRC_ERR + 1) (2 ^ 32 - 1)) ∧
  (∀ die s, die = 8 ∨ die = 9 → s.dev.rd die R.CLK_FR_STATE ≠ 2 → s.dev.clk.synth.length = 2 → ∃ t : Dev, exec (.flueSynthHoldover die) s = .next (s.withDev t) ∧
    t.rd die R.CLK_FR_STATE = 2 ∧ t.rd die R.CLK_FR_HOLDOVERS = min (s.dev.rd die R.CLK_FR_HOLDOVERS + 1) (2 ^ 32 - 1) ∧
    (t.clk.synth.getD (die - 8) {}).valid = 0)

/-- Where MEM_NBR_SET begins, THRESHOLD is 256–16,384, DIST 1–2 and UE_LIMIT 1–255 in a LENGTH of 4. It is DONE with no data; every hob die in service holds the three values, and its next window start writes them to its registers. (That the values wait in the device until a channel's window starts is how the model says "from the next window".) (What the hearth side does, it does while it is neither held in reset nor shut down.) (R410) -/
def Obligations.NeighbourRefreshIsSet : Prop :=
  (∀ h p s, mayBegin (.memNbrSet h p) s = true →
    p.length = 4 ∧ 256 ≤ u16 p 0 ∧ u16 p 0 ≤ 16384 ∧ 1 ≤ u8 p 2 ∧ u8 p 2 ≤ 2 ∧ 1 ≤ u8 p 3) ∧
  (∀ h p, Ends (.memNbrSet h p) (fun _ _ => True)
    (fun _ d => { d with mem := { d.mem with nbrNext := d.hobsUp.map fun k => (k, u16 p 0, u8 p 2, u8 p 3) } }) (fun _ _ => .done)) ∧
  (∀ n th dist lim s, s.dev.hearthOff = false → n ≤ 15 → s.dev.mem.nbrNext.find? (fun e => e.1 = chDie n) = some (chDie n, th, dist, lim) → th ≤ 16384 → dist ≤ 2 → lim ≤ 255 →
    ∃ t : Dev, exec (.actWindowStart n) s = .next (s.withDev t) ∧ (t.memCh n).act = [] ∧ t.rd (chDie n) R.MEM_NBR_CFG_THRESHOLD = th ∧
      t.rd (chDie n) R.MEM_NBR_CFG_DIST = dist ∧ t.rd (chDie n) R.MEM_UE_LIMIT = lim ∧
      t.mem.nbrNext = s.dev.mem.nbrNext.filter fun e => e.1 ≠ chDie n)

/-- MEM_STATUS of a die in service reports 36 bytes per channel. MEM_TIMING_SET of one channel writes the inactive set; the active one is BAD_STATE, SET_ACTIVE. MEM_FREQ begins a change unless one is in progress or a recovery runs; each channel's turn, in order, switches its set; when all have, the change completes with the channels on the set. MEM_TEST of an ON channel waits; its end completes it with what was found. A whole-line write stores the line and clears its error; a good read sends it; a corrected one counts and loads the error. A scrub pass counts. A refresh changes nothing; MR4 is shown. A channel that fails, times out or loses lock is FAILED and the objects with their only copy in it are LOST. A die's recovery replaces buffers and re-creates the map mirror. (What the hearth side does, it does while it is neither held in reset nor shut down.) (R391, R392, R393, R395, R399, R401, R403, R404, R406, R407, R408, R409) -/
def Obligations.MemoryChannelsServeChangeAndFail : Prop :=
  (∀ h p s, mayBegin (.memStatus h p) s = true →
    let d := begunDev (.memStatus h p) s; let c := begunCmd (.memStatus h p) s
    d.hobUp (u8 p 0 + 1) = true → ∃ data, exec (.memStatus h p) s = .next (s.withDev (d.finalReply c St.done 0 data)) ∧
    data.length = 144 ∧ u8 data 0 = d.mget (4 * u8 p 0) R.MEM_CH_STATE_STATE) ∧
  (∀ h p, Ends (.memStatus h p) (fun _ d => d.hobUp (u8 p 0 + 1) = false) (fun _ d => d) (fun _ _ => .bad St.fault 0)) ∧
  (∀ h p s, mayBegin (.memTimingSet h p) s = true →
    let d := begunDev (.memTimingSet h p) s; let c := begunCmd (.memTimingSet h p) s
    u8 p 0 ≠ 0xFF → u8 p 1 ≠ 0xFF → d.hobUp (u8 p 0 + 1) = true →
    let n := 4 * u8 p 0 + u8 p 1
    (d.mget n R.MEM_CH_STATE_SET = u8 p 2 → exec (.memTimingSet h p) s = .next (s.withDev (d.finalReply c St.badState 0x43 []))) ∧
    (d.mget n R.MEM_CH_STATE_SET ≠ u8 p 2 → ∃ t : Dev, exec (.memTimingSet h p) s = .next (s.withDev (t.finalReply c St.done 0 [])) ∧ t = { d with regs := t.regs } ∧
      t.rd (chDie n) (R.MEM_TIM0_RATE (chNum n) (u8 p 2)) = u32 p 4 % 16384 ∧ t.rd (chDie n) (R.MEM_TIM1 (chNum n) (u8 p 2)) = u32 p 8 ∧
      t.rd (chDie n) (R.MEM_TIM2 (chNum n) (u8 p 2)) = u32 p 12 ∧ t.rd (chDie n) (R.MEM_TIM3 (chNum n) (u8 p 2)) = u32 p 16 ∧
      t.rd (chDie n) (R.MEM_TIM4 (chNum n) (u8 p 2)) = u32 p 20)) ∧
  (∀ h p, Ends (.memFreq h p) (fun _ d => d.mode ≠ 2 ∧ d.mem.change = none ∧ d.mem.recover = [])
    (fun c d => { d with mem := { d.mem with change := some { cmd := c, set_ := u8 p 0, left := (List.range 16).filter fun n => d.hobUp (chDie n) && d.chUp n } } })
    (fun _ _ => .accepted)) ∧
  (∀ h p, Ends (.memFreq h p) (fun _ d => d.mode ≠ 2 ∧ d.mem.change ≠ none) (fun _ d => d) (fun _ _ => .bad St.badState 0x41)) ∧
  (∀ n f s, s.dev.hearthOff = false → s.dev.mem.change = some f → f.over_ = false → f.left.head? = some n → ∃ t : Dev, exec (.memChannelFreqChange n) s = .next (s.withDev t) ∧
    t.mem.change = some { f with left := f.left.tail } ∧ t.mget n R.MEM_CH_STATE_SET = f.set_ % 2) ∧
  (∀ f, Occurs .memFreqDone (fun d => d.hearthOff = false ∧ d.mem.change = some f ∧ f.left = [] ∧ f.over_ = false) (fun d =>
    ({ d with mem := { d.mem with change := none } } : Dev).complete f.cmd St.done 0
      (enc 2 (((List.range 16).filter fun n => d.chUp n && d.mget n R.MEM_CH_STATE_SET = f.set_).map fun n => 2 ^ n).sum))) ∧
  (∀ h p, Ends (.memTest h p) (fun _ d => d.hobUp (u8 p 0 + 1) = true ∧ d.chUp (4 * u8 p 0 + u8 p 1) = true ∧ (d.memCh (4 * u8 p 0 + u8 p 1)).test = none)
    (fun c d => d.setMemCh (4 * u8 p 0 + u8 p 1) fun x => { x with test := some ⟨c, u8 p 2, u8 p 3, u8 p 4, u64 p 8⟩ }) (fun _ _ => .accepted)) ∧
  (∀ h p, Ends (.memTest h p) (fun _ d => d.hobUp (u8 p 0 + 1) = true ∧ d.chUp (4 * u8 p 0 + u8 p 1) = false) (fun _ d => d) (fun _ _ => .bad St.badState 0x40)) ∧
  (∀ n e f q k m s, s.dev.hearthOff = false → (s.dev.memCh n).test = some m → s.dev.chUp n = true → ∃ t : Dev,
    exec (.memTestDone n e f q k) s = .next (s.withDev (t.complete m.cmd St.done 0 (enc 4 e ++ enc 8 f ++ enc 2 q ++ enc 4 k))) ∧
      t = { s.dev with mem := t.mem } ∧ (t.memCh n).test = none ∧ (bit m.flags 0 = false → (t.memCh n).lines = (s.dev.memCh n).lines)) ∧
  (∀ n l v e y i s, s.dev.hearthOff = false → n ≤ 15 → s.dev.chUp n = true → ∃ t : Dev, exec (.memRequest n l (some (2 ^ 64 - 1, v)) none e y i) s = .next (s.withDev t) ∧
    (t.memCh n).lines = amPut (s.dev.memCh n).lines l (mergeLine (s.dev.lineValue n l) (2 ^ 64 - 1) v) ∧ (t.memCh n).bad = (s.dev.memCh n).bad.filter (· ≠ l) ∧
    t.mget n R.MEM_CH_INFLIGHT_NOW = i % 1024) ∧
  (∀ n l y i s, s.dev.hearthOff = false → n ≤ 15 → s.dev.chUp n = true → (s.dev.memCh n).bad.contains l = false → ∃ t : Dev, exec (.memRequest n l none none 0 y i) s = .next (s.withDev t) ∧
    t.out = .memLine (chDie n) (chNum n) l false (s.dev.lineValue n l) :: s.dev.out ∧ t.mem = s.dev.mem) ∧
  (∀ n l y i s, s.dev.hearthOff = false → n ≤ 15 → s.dev.chUp n = true → (s.dev.memCh n).bad.contains l = false → ∃ t : Dev, exec (.memRequest n l none none 1 y i) s = .next (s.withDev t) ∧
    t.mget n R.MEM_CH_CE = min (s.dev.mget n R.MEM_CH_CE + 1) (2 ^ 32 - 1) ∧ t.mget n R.MEM_CH_ERR_INFO_SYNDROME = y % 256 ∧ t.mget n R.MEM_CH_ERR_INFO_UE = 0) ∧
  (∀ n l y s, s.dev.hearthOff = false → n ≤ 15 → s.dev.chUp n = true → (s.dev.memCh n).bad.contains l = false → ∃ t : Dev, exec (.scrubRead n l 0 y true) s = .next (s.withDev t) ∧
    t = { s.dev with regs := t.regs } ∧ t.mget n R.MEM_CH_SCRUB_PASSES = min (s.dev.mget n R.MEM_CH_SCRUB_PASSES + 1) (2 ^ 32 - 1)) ∧
  (∀ n s, exec (.memRefresh n) s = .next s) ∧
  (∀ n v s, s.dev.hearthOff = false → n ≤ 15 → s.dev.chUp n = true → ∃ t : Dev, exec (.mr4Poll n v false) s = .next (s.withDev t) ∧ t = { s.dev with regs := t.regs } ∧
    t.mget n R.MEM_CH_STATE_MR4 = v % 16) ∧
  (∀ n s, s.dev.hearthOff = false → exec (.dqsRetrack n true) s = .next s) ∧
  (∀ n i s, i = .dqsRetrack n false ∨ i = .memRequestTimeout n ∨ (∃ cause, i = .channelFail n cause) → n ≤ 15 → s.dev.hearthOff = false → s.dev.hobUp (chDie n) = true →
    s.dev.mget n R.MEM_CH_STATE_STATE ≠ 3 →
    ∃ t : Dev, exec i s = .next (s.withBoth (s.heap.chanLost n, t)) ∧ t.mget n R.MEM_CH_STATE_STATE = 3) ∧
  (∀ n s, s.dev.hearthOff = false → n ≤ 15 → s.dev.hobUp (chDie n) = true → s.dev.mget n R.MEM_CH_STATE_STATE = 3 → ∃ t : Dev, exec (.bufferReplace n) s = .next (s.withDev t) ∧ t.regs = s.dev.regs ∧
    amGet t.mem.recover (n / 4) 0 = amGet s.dev.mem.recover (n / 4) 0 &&& 2) ∧
  (∀ i s, s.dev.hearthOff = false → i ≤ 3 → s.dev.hobUp (i + 1) = true → s.dev.mem.maps.length = 4 → (s.dev.mem.maps.getD i []).length < 2 →
    (∃ c < 4, s.dev.chUp (4 * i + c) = true ∧ (s.dev.mem.maps.getD i []).contains c = false) → ∃ t : Dev, exec (.mapMirrorRecreate i) s = .next (s.withDev t) ∧
      (t.mem.maps.getD i []).length = (s.dev.mem.maps.getD i []).length + 1 ∧ amGet t.mem.recover i 0 = amGet s.dev.mem.recover i 0 &&& 1)

/-- CLK_STATUS of a die that can be reached reports 28 bytes beginning with CLK_STATE. CLK_CONFIG writes WIN and N, and a seed that is not 0, on the die named or on every die in service. CLK_SELECT during a return is BAD_STATE, SWITCH_BUSY; ACTION 1 on MAIN with SPARE locked switches over; ACTION 2 without MAIN locked completes BAD_STATE, MAIN_NOT_LOCKED. A lost reference clears both locks of its dies and counts; SPARE that was locked is in holdover. A die on MAIN that loses lock runs on SPARE if that is locked, and without it has no clock. A PLL that locks says so. A return begun ends on MAIN and completes the commands that wait. A SPARE that loses lock while MAIN runs is only reported. (What the hearth side does, it does while it is neither held in reset nor shut down.) (R412, R415, R416, R417, R418, R419, R424, R425, R426) -/
def Obligations.ClocksSwitchAndReturn : Prop :=
  (∀ h p s, mayBegin (.clkStatus h p) s = true →
    let d := begunDev (.clkStatus h p) s; let c := begunCmd (.clkStatus h p) s
    d.clkFault (u8 p 0) = none → h.answered = none → ∃ data, exec (.clkStatus h p) s = .next (s.withDev (d.finalReply c St.done 0 data)) ∧
    data.length = 28 ∧ u32 data 0 = (rfGet d.regs (regAddr (u8 p 0) R.CLK_STATE_SRC.off)).toNat) ∧
  (∀ h p r, Ends (.clkStatus h p) (fun _ d => d.clkFault (u8 p 0) = some r) (fun _ d => d) (fun _ _ => r)) ∧
  (∀ h p s, mayBegin (.clkConfig h p) s = true →
    let d := begunDev (.clkConfig h p) s; let c := begunCmd (.clkConfig h p) s
    u8 p 0 ≠ 0xFF → d.clkFault (u8 p 0) = none → h.answered = none →
    (8 ≤ u8 p 0 → d.canAnswer (u8 p 0) = true) → ∃ t : Dev,
    exec (.clkConfig h p) s = .next (s.withDev (t.finalReply c St.done 0 [])) ∧ t = { d with regs := t.regs, dmp := t.dmp, out := t.out } ∧
      t.rd (u8 p 0) R.CLK_LOCK_CFG_WIN = u16 p 2 ∧ t.rd (u8 p 0) R.CLK_LOCK_CFG_N = u16 p 4 ∧
      t.rd (u8 p 0) R.CLK_SEED = if u16 p 6 = 0 then d.rd (u8 p 0) R.CLK_SEED else u16 p 6) ∧
  (∀ h p s, mayBegin (.clkConfig h p) s = true →
    let d := begunDev (.clkConfig h p) s; let c := begunCmd (.clkConfig h p) s
    u8 p 0 = 0xFF → d.flueUp 8 = true → d.flueUp 9 = true → d.canAnswer 8 = true → d.canAnswer 9 = true → h.answered = none → ∃ t : Dev,
    exec (.clkConfig h p) s = .next (s.withDev (t.finalReply c St.done 0 [])) ∧ t = { d with regs := t.regs, dmp := t.dmp, out := t.out } ∧
      ∀ k ∈ [0] ++ d.hobsUp ++ flueDies, t.rd k R.CLK_LOCK_CFG_WIN = u16 p 2 ∧ t.rd k R.CLK_LOCK_CFG_N = u16 p 4) ∧
  (∀ h p, Ends (.clkSelect h p) (fun _ d => d.clkFault (u8 p 0) = none ∧ (d.clkDie (u8 p 0)).returning = true) (fun _ d => d) (fun _ _ => .bad St.badState 0x41)) ∧
  (∀ h p, Ends (.clkSelect h p) (fun _ d => d.clkFault (u8 p 0) = none ∧ (d.clkDie (u8 p 0)).returning = false ∧ u8 p 1 = 2 ∧ d.rd (u8 p 0) R.CLK_STATE_MAIN_LOCKED = 0)
    (fun c d => (d.finalReply c St.accepted 0 []).complete c St.badState 0x40) (fun _ _ => .later)) ∧
  (∀ h p s, mayBegin (.clkSelect h p) s = true →
    let d := begunDev (.clkSelect h p) s; let c := begunCmd (.clkSelect h p) s
    d.clkFault (u8 p 0) = none → (d.clkDie (u8 p 0)).returning = false → u8 p 1 = 1 →
    d.rd (u8 p 0) R.CLK_STATE_SRC = 0 → d.rd (u8 p 0) R.CLK_STATE_SPARE_LOCKED = 1 → ∃ t : Dev, exec (.clkSelect h p) s = .next (s.withDev (t.complete c St.done 0)) ∧
      t.rd (u8 p 0) R.CLK_STATE_SRC = 1 ∧ (t.clkDie (u8 p 0)).forced = true ∧ t.rd (u8 p 0) R.CLK_SWITCHES = min (d.rd (u8 p 0) R.CLK_SWITCHES + 1) (2 ^ 32 - 1)) ∧
  (∀ ref k s, s.dev.hearthOff = false → k ∈ refDies ref → s.dev.dieUp k = true → s.dev.rd k R.CLK_STATE_REF_OK = 1 →
    (∀ j ∈ refDies ref, s.dev.rd j R.CLK_STATE_SRC = 0 → s.dev.rd j R.CLK_STATE_SPARE_LOCKED = 1) → ∃ t : Dev, exec (.refLoss ref) s = .next (s.withDev t) ∧ t.rd k R.CLK_STATE_REF_OK = 0 ∧
    t.rd k R.CLK_STATE_MAIN_LOCKED = 0 ∧ t.rd k R.CLK_STATE_SPARE_LOCKED = 0 ∧ t.rd k R.CLK_STATE_HOLDOVER = s.dev.rd k R.CLK_STATE_SPARE_LOCKED ∧
    t.rd k R.CLK_REF_LOSS = min (s.dev.rd k R.CLK_REF_LOSS + 1) (2 ^ 32 - 1)) ∧
  (∀ ref s, s.dev.hearthOff = false → ∃ t : Dev, exec (.refValid ref) s = .next (s.withDev t) ∧ t = { s.dev with regs := t.regs } ∧ ∀ k ∈ refDies ref, t.rd k R.CLK_STATE_REF_OK = 1) ∧
  (∀ die s, s.dev.hearthOff = false → dieKind die ≠ 0 → s.dev.dieUp die = true → s.dev.rd die R.CLK_STATE_MAIN_LOCKED = 1 →
    (s.dev.rd die R.CLK_STATE_SRC = 0 → s.dev.rd die R.CLK_STATE_SPARE_LOCKED = 1) → ∃ t : Dev, exec (.mainLockLoss die) s = .next (s.withDev t) ∧
    t.rd die R.CLK_STATE_MAIN_LOCKED = 0 ∧ t.rd die R.CLK_MAIN_LOSS = min (s.dev.rd die R.CLK_MAIN_LOSS + 1) (2 ^ 32 - 1) ∧
    (s.dev.rd die R.CLK_STATE_SRC = 0 → t.rd die R.CLK_STATE_SRC = 1)) ∧
  (∀ die s, s.dev.hearthOff = false → dieKind die ≠ 0 → s.dev.dieUp die = true → s.dev.rd die R.CLK_STATE_MAIN_LOCKED = 1 → s.dev.rd die R.CLK_STATE_SRC = 0 →
    s.dev.rd die R.CLK_STATE_SPARE_LOCKED = 0 → (s.dev.clkDie die).losses = [] → exec (.mainLockLoss die) s = .next (s.withDev
      ((((s.dev.wr die R.CLK_STATE_MAIN_LOCKED 0).bump die R.CLK_MAIN_LOSS).setClkDie die fun x => { x with losses := [s.dev.stamp], returning := false }).noClock die))) ∧
  (∀ die s, s.dev.hearthOff = false → dieKind die ≠ 0 → s.dev.dieUp die = true → s.dev.rd die R.CLK_STATE_REF_OK = 1 → ∃ t : Dev, exec (.pllLockAcquire die 0) s = .next (s.withDev t) ∧
    t.rd die R.CLK_STATE_MAIN_LOCKED = 1) ∧
  (∀ die s, s.dev.hearthOff = false → dieKind die ≠ 0 → s.dev.dieUp die = true → s.dev.rd die R.CLK_STATE_REF_OK = 1 → ∃ t : Dev, exec (.pllLockAcquire die 1) s = .next (s.withDev t) ∧
    t.rd die R.CLK_STATE_SPARE_LOCKED = 1 ∧ t.rd die R.CLK_STATE_HOLDOVER = 0 ∧ (t.clkDie die).seed = some (s.dev.rd die R.CLK_SEED)) ∧
  (∀ die s, s.dev.hearthOff = false → (s.dev.clkDie die).returning = true → ∃ t : Dev, exec (.mainReturn die) s = .next (s.withDev (t.completeAll (s.dev.clkDie die).waiting St.done 0)) ∧
    t.rd die R.CLK_STATE_SRC = 0 ∧ (t.clkDie die).returning = false ∧ (t.clkDie die).waiting = []) ∧
  (∀ die s, s.dev.hearthOff = false → dieKind die ≠ 0 → s.dev.dieUp die = true → s.dev.rd die R.CLK_STATE_SPARE_LOCKED = 1 → s.dev.rd die R.CLK_STATE_SRC = 0 →
    exec (.spareLockLoss die) s = .next (s.withDev ((s.dev.wr die R.CLK_STATE_SPARE_LOCKED 0).clockFault die 1 0)))

/-- CAM_SET with the port OFF takes the configuration, else it is BAD_STATE, PORT_ON. CAM_ENABLE without a ring is NO_STATS; with one large enough it starts the port, which is ON at its first frame. CAM_PIPE_SET writes the shadow settings; CAM_STATS_SET a ring with NEXT 0; CAM_STATUS reports eleven registers. FS opens the next frame; a good line of the port's channel and type waits; one that finds eight waiting drops the frame; FE with none waiting closes it and writes its record; no FE truncates it. A camera with no FS is LOST. The pipeline takes a line. Sensor writes go out one by one; one not acknowledged twice, or a list too late, fails the generation. TRIM_RUN runs or queues a job; results that agree set the element to their rounded mean, others change nothing and report it. TRIM_READ reports values, TRIM_WRITE sets those no job measures. (What the hearth side does, it does while it is neither held in reset nor shut down.) (R429, R430, R433, R434, R437, R438, R440, R441, R444, R445, R446, R447) -/
def Obligations.CamerasAndTrim : Prop :=
  (∀ h p, Ends (.camSet h p) (fun _ d => d.camOn (u8 p 0) = true) (fun _ d => d) (fun _ _ => .bad St.badState Rsc.portOn)) ∧
  (∀ h p, Ends (.camSet h p) (fun _ d => d.camOn (u8 p 0) = false)
    (fun _ d => d.setCam (u8 p 0) { d.cam (u8 p 0) with cfg := {
      lanes := u8 p 1, dtype := u8 p 2, vc := u8 p 3, width := u16 p 4, height := u16 p 6, cfa := u8 p 8, latency := u8 p 9, addr := u8 p 10
      flags := u8 p 11, period := u32 p 12, lineNs := u32 p 16 } }) (fun _ _ => .done)) ∧
  (∀ h p, EndsOn (.camEnable h p) (fun _ _ d => u8 p 1 = 1 ∧ (d.cam (u8 p 0)).ring = none) (fun _ hp d => (hp, d)) (fun _ _ _ => .bad St.badState Rsc.noStats)) ∧
  (∀ h p r, EndsOn (.camEnable h p)
    (fun _ _ d => u8 p 1 = 1 ∧ (d.cam (u8 p 0)).ring = some r ∧ (d.cam (u8 p 0)).pend = none ∧ recordBytes (d.cam (u8 p 0)).applied.2 ≤ 4 * r.stride ∧
      gridOutside (d.cam (u8 p 0)).cfg (d.cam (u8 p 0)).applied.2 = false ∧
      d.camOn (u8 p 0) = false)
    (fun c hp d => (hp, (d.setFn (FnId.cam (u8 p 0)) { st := .starting, stored := none, running := [c] }).camStart (u8 p 0))) (fun _ _ _ => .accepted)) ∧
  (∀ c r s, s.dev.hearthOff = false → c < 2 → s.dev.fn (FnId.cam c) = { st := .starting, stored := none, running := r } → (s.dev.cam c).frame.isSome = true →
    exec (.camTransitionDone c) s = .next (s.withDev ((s.dev.setFn (FnId.cam c) { st := .on }).completeAll r St.done 0))) ∧
  (∀ h p, Ends (.camPipeSet h p) (fun _ _ => True) (fun _ d => d.setCam (u8 p 0) { d.cam (u8 p 0) with shadow := p }) (fun _ _ => .done)) ∧
  (∀ h p o, EndsOn (.camStatsSet h p) (fun _ hp d => d.camOn (u8 p 0) = false ∧ hp.buf (u16 p 2) = some o ∧ o.lost = false)
    (fun _ hp d => (hp, (d.setCam (u8 p 0) { d.cam (u8 p 0) with ring := some ⟨u16 p 2, u16 p 4, u16 p 6, u32 p 8⟩, next := 0 }).wr 0 (R.CAM_NEXT (u8 p 0)) 0))
    (fun _ _ _ => .done)) ∧
  (∀ h p s, mayBegin (.camStatus h p) s = true →
    let d := begunDev (.camStatus h p) s; let c := begunCmd (.camStatus h p) s
    ∃ data, exec (.camStatus h p) s = .next (s.withDev (d.finalReply c St.done 0 data)) ∧ data.length = 44 ∧
    u32 data 4 = d.rd 0 (R.CAM_FRAME (u8 p 0))) ∧
  (∀ c s, s.dev.hearthOff = false → c < 2 → s.dev.trm.cams.length = 2 → (s.dev.fn (FnId.cam c)).st = .on → (s.dev.cam c).frame = none → (s.dev.cam c).pend = none →
    ∃ (t : Dev) (f : CamFrame), exec (.camFrameStart c) s = .next (s.withDev t) ∧ (t.cam c).frame = some f ∧ f.num = s.dev.rd 0 (R.CAM_FRAME c) + 1 ∧
      f.sof = s.dev.short 0 ∧ f.gen = (s.dev.cam c).applied.1 ∧ f.lines = [] ∧ (t.cam c).ignore = false ∧ t.rd 0 (R.CAM_STATE_LOST c) = 0) ∧
  (∀ c line f s, s.dev.hearthOff = false → c < 2 → s.dev.trm.cams.length = 2 → s.dev.camOn c = true → (s.dev.cam c).cfg.dtype ≠ 0x12 → (s.dev.cam c).ignore = false →
    (s.dev.cam c).frame = some f → (s.dev.cam c).fifo.length < 8 → ∃ t : Dev,
      exec (.camLineRx c (s.dev.cam c).cfg.vc (s.dev.cam c).cfg.dtype 0 true line) s = .next (s.withDev t) ∧
      (t.cam c).fifo = (s.dev.cam c).fifo ++ [line.take (s.dev.cam c).cfg.width] ∧ t.regs = s.dev.regs) ∧
  (∀ c line f r s, s.dev.hearthOff = false → c < 2 → s.dev.trm.cams.length = 2 → s.dev.camOn c = true → (s.dev.cam c).cfg.dtype ≠ 0x12 → (s.dev.cam c).ignore = false →
    (s.dev.cam c).frame = some f → (s.dev.cam c).ring = some r → 8 ≤ (s.dev.cam c).fifo.length → ∃ (hp : Heap) (t : Dev),
      exec (.camLineRx c (s.dev.cam c).cfg.vc (s.dev.cam c).cfg.dtype 0 true line) s = .next (s.withBoth (hp, t)) ∧ (t.cam c).frame = none ∧
      (t.cam c).ignore = true ∧ t.rd 0 (R.CAM_DROPS c) = min (s.dev.rd 0 (R.CAM_DROPS c) + 1) (2 ^ 32 - 1)) ∧
  (∀ c f r o s, s.dev.hearthOff = false → c < 2 → s.dev.trm.cams.length = 2 → s.dev.camOn c = true → (s.dev.cam c).frame = some f → f.eof = none → (s.dev.cam c).fifo = [] →
    (s.dev.cam c).ring = some r → s.heap.buf r.buffer = some o → o.lost = false → ∃ (rec_ : Bytes) (t : Dev),
      exec (.camFrameEnd c) s = .next (s.withBoth (s.heap.write r.buffer (r.offset + (s.dev.cam c).next * (4 * r.stride)) rec_, t)) ∧ (t.cam c).frame = none ∧
      (t.cam c).next = ((s.dev.cam c).next + 1) % r.count ∧ t.rd 0 (R.CAM_FRAMES c) = min (s.dev.rd 0 (R.CAM_FRAMES c) + 1) (2 ^ 32 - 1)) ∧
  (∀ c f r s, s.dev.hearthOff = false → c < 2 → s.dev.trm.cams.length = 2 → s.dev.camOn c = true → (s.dev.cam c).frame = some f → f.eof = none → (s.dev.cam c).ring = some r →
    ∃ (hp : Heap) (t : Dev), exec (.camFrameTimeout c) s = .next (s.withBoth (hp, t)) ∧ (t.cam c).frame = none ∧ (t.cam c).ignore = true ∧
      t.rd 0 (R.CAM_TRUNC c) = min (s.dev.rd 0 (R.CAM_TRUNC c) + 1) (2 ^ 32 - 1)) ∧
  (∀ c s, s.dev.hearthOff = false → c < 2 → (s.dev.fn (FnId.cam c)).st = .on → s.dev.rd 0 (R.CAM_STATE_LOST c) = 0 → ∃ t : Dev, exec (.camLost c) s = .next (s.withDev t) ∧
    t.rd 0 (R.CAM_STATE_LOST c) = 1) ∧
  (∀ c f l r s, s.dev.hearthOff = false → s.dev.trm.cams.length = 2 → s.dev.nextLine = some c → (s.dev.cam c).frame = some f → f.eof = none → (s.dev.cam c).fifo = l :: r →
    ∃ t : Dev, exec .pipeLineTake s = .next (s.withDev t) ∧ (t.cam c).fifo = r ∧ (t.cam c).frame = some { f with lines := f.lines ++ [l] } ∧ t.trm.last = c) ∧
  (∀ c g i again s, s.dev.hearthOff = false → c < s.dev.trm.cams.length → (s.dev.cam c).writing = some (g, i, again) → i < u8 (s.dev.cam c).applied.2 1 → ∃ t : Dev,
    exec (.cciWrite c true) s = .next (s.withDev t) ∧
      t.out = .cci c (s.dev.cam c).cfg.addr (u16 (s.dev.cam c).applied.2 (56 + 4 * i)) (u8 (s.dev.cam c).applied.2 (58 + 4 * i)) :: s.dev.out ∧
      (t.cam c).writing = if i + 1 = u8 (s.dev.cam c).applied.2 1 then none else some (g, i + 1, false)) ∧
  (∀ c g i again s, s.dev.hearthOff = false → c < 2 → s.dev.trm.cams.length = 2 → (s.dev.cam c).writing = some (g, i, again) → ∃ t : Dev, exec (.cciListTimeout c) s = .next (s.withDev t) ∧
    (t.cam c).writing = none ∧ (t.cam c).failed = g :: (s.dev.cam c).failed ∧ t.rd 0 (R.CAM_CCI_FAIL c) = min (s.dev.rd 0 (R.CAM_CCI_FAIL c) + 1) (2 ^ 32 - 1)) ∧
  (∀ h p, Ends (.trimRun h p) (fun c d => (u8 p 0 ≠ 2 ∨ d.mode = 2) ∧ d.trm.running = none ∧ d.trimBlocked ⟨c, u8 p 0, u64 p 4⟩ = false)
    (fun c d => { d with trm := { d.trm with running := some ⟨c, u8 p 0, u64 p 4⟩ } }) (fun _ _ => .accepted)) ∧
  (∀ h p, Ends (.trimRun h p) (fun _ d => (u8 p 0 ≠ 2 ∨ d.mode = 2) ∧ d.trm.running ≠ none ∧ d.trm.queue.length < 4)
    (fun c d => { d with trm := { d.trm with queue := d.trm.queue ++ [⟨c, u8 p 0, u64 p 4⟩] } }) (fun _ _ => .accepted)) ∧
  (∀ h p, Ends (.trimRun h p) (fun _ d => (u8 p 0 ≠ 2 ∨ d.mode = 2) ∧ d.trm.running ≠ none ∧ 4 ≤ d.trm.queue.length)
    (fun _ d => d) (fun _ _ => .bad St.noResource Rst.queueFull)) ∧
  (∀ c e x y s, s.dev.hearthOff = false → e < 61 → s.dev.trm.running = some ⟨c, 3, 2 ^ e⟩ → s.dev.trm.queue = [] → s.dev.trimLocked e = true → (x - y : Int).natAbs ≤ 2 → ∃ t : Dev,
    exec (.trimJobDone [[x]] [[y]] 0 []) s = .next (s.withDev (t.complete c St.done 0 (enc 8 0 ++ enc 8 (2 ^ e)))) ∧
      amGet t.trm.lanes e 0 = clampI (-63) 63 (roundDiv (x + y) 2) ∧ t.trm.running = none ∧ t.rd 0 R.TRM_RUNS = min (s.dev.rd 0 R.TRM_RUNS + 1) (2 ^ 32 - 1)) ∧
  (∀ c e x y s, s.dev.hearthOff = false → e < 61 → s.dev.trm.running = some ⟨c, 3, 2 ^ e⟩ → s.dev.trm.queue = [] → s.dev.trimLocked e = true → 2 < (x - y : Int).natAbs → ∃ t : Dev,
    exec (.trimJobDone [[x]] [[y]] 0 []) s = .next (s.withDev (t.complete c St.fault Rst.disagree (enc 8 (2 ^ e) ++ enc 8 0))) ∧
      t.trm = { s.dev.trm with running := none } ∧ t.rd 0 R.TRM_DISAGREE = min (s.dev.rd 0 R.TRM_DISAGREE + 1) (2 ^ 32 - 1)) ∧
  (∀ h p, Reports (.trimRead h p) (fun _ d => (trimDies (u8 p 0) (u8 p 1) (u8 p 2)).all d.flueUp = true ∧ h.answered = none)
    (fun _ d => ((fromN (u8 p 1) (u8 p 2)).map (d.trimBytes (u8 p 0))).flatten)) ∧
  (∀ h p s, mayBegin (.trimWrite h p) s = true →
    let d := begunDev (.trimWrite h p) s; let c := begunCmd (.trimWrite h p) s
    u8 p 0 = 3 → d.trm.running = none → d.trm.queue = [] → ∃ t : Dev,
    exec (.trimWrite h p) s = .next (s.withDev (t.finalReply c St.done 0 [])) ∧ t = { d with trm := t.trm } ∧
      ∀ i < u8 p 2, amGet t.trm.lanes (u8 p 1 + i) 0 = s8 p (4 + i)) ∧
  (∀ h p s, mayBegin (.trimWrite h p) s = true →
    let d := begunDev (.trimWrite h p) s; let c := begunCmd (.trimWrite h p) s
    u8 p 0 = 1 → d.trm.running = none → d.trm.queue = [] → d.flueUp 8 = true →
    d.flueUp 9 = true → d.canAnswer 8 = true → d.canAnswer 9 = true → h.answered = none → ∃ t : Dev, exec (.trimWrite h p) s = .next (s.withDev (t.finalReply c St.done 0 [])) ∧ t = { d with regs := t.regs, dmp := t.dmp, out := t.out } ∧
      ∀ i < u8 p 2, t.rd (8 + (u8 p 1 + i) / 16) (R.BLW_ADC_OFFSET ((u8 p 1 + i) % 16)) = u16 p (4 + 2 * i))

/-- THM_STATUS begins with the thermal level; THM_ACK acknowledges a failed sensor and refuses one that is not; THM_SET writes T1_AT and each trim, or is FAULT where a flue die does not answer; HK_READ has 204 bytes. A Mantel channel's reading is stored at once, a flue die's when its TELEMETRY arrives. A round that shuts nothing down leaves the rail source at the level of PWR_RAIL_FAULT. A flue die at its limit, or ordered by the code, halts dark. PWR_SAFE takes its code only. ASH_READ refuses records no longer held, ASH_NOTE queues a HOST record or is NO_RESOURCE, ASH_CLEAR is for the control port and empties both copies when it ends. Records are appended to both copies, and stay queued where neither write holds; the scan makes the copies equal; corrected faults make a SUMMARY. BOOTCFG_SET becomes the configuration in use, or is FAULT. AGE_SET and AGE_SAMPLE keep what they are given, one re-plan runs at a time; it waits while the device is unsettled and else completes the waiting commands with its count. (What the hearth side does, it does while it is neither held in reset nor shut down.) (R451, R452, R455, R458, R459, R460, R461, R462, R468, R469, R513, R525) -/
def Obligations.ThermalJournalAndAgeing : Prop :=
  (∀ h p s, mayBegin (.thmStatus h p) s = true →
    let d := begunDev (.thmStatus h p) s; let c := begunCmd (.thmStatus h p) s
    ∃ data, exec (.thmStatus h p) s = .next (s.withDev (d.finalReply c St.done 0 data)) ∧ data.length = 196 ∧
    u8 data 0 = d.rd 0 R.THM_STATE_LEVEL % 256) ∧
  (∀ h p s, mayBegin (.thmAck h p) s = true →
    let d := begunDev (.thmAck h p) s; let c := begunCmd (.thmAck h p) s
    (d.sensor (u8 p 0)).state = 1 ∨ (d.sensor (u8 p 0)).state = 2 → ∃ t : Dev,
    exec (.thmAck h p) s = .next (s.withDev (t.finalReply c St.done 0 [])) ∧ (t.sensor (u8 p 0)).state = 2 ∧
      t.rd (sensorDie (u8 p 0)) (R.THM_SENSOR_STATE (sensorIdx (u8 p 0))) = 2 ∧ ∀ n, n ≠ u8 p 0 → t.sensor n = d.sensor n) ∧
  (∀ h p, Ends (.thmAck h p) (fun _ d => (d.sensor (u8 p 0)).state = 0 ∨ (d.sensor (u8 p 0)).state = 3) (fun _ d => d) (fun _ _ => .bad St.badState Rsm.sensorOk)) ∧
  (∀ h p s, mayBegin (.thmSet h p) s = true →
    let d := begunDev (.thmSet h p) s; let c := begunCmd (.thmSet h p) s
    flueDies.all d.flueUp = true → d.canAnswer 8 = true → d.canAnswer 9 = true → h.answered = none → ∃ t : Dev,
    exec (.thmSet h p) s = .next (s.withDev (t.finalReply c St.done 0 [])) ∧ t = { d with regs := t.regs, dmp := t.dmp, out := t.out } ∧ t.rd 0 R.THM_T1_AT = u16 p 0 ∧
      ∀ n < 48, t.rd (sensorDie n) (R.THM_SENSOR_TRIM (sensorIdx n)) = twos 9 (roundDiv (s16 p (4 + 2 * n)) 16)) ∧
  (∀ h p, Ends (.thmSet h p) (fun _ d => flueDies.all d.flueUp = false) (fun _ d => d) (fun _ _ => .bad St.fault 0)) ∧
  (∀ h p s, mayBegin (.hkRead h p) s = true →
    let d := begunDev (.hkRead h p) s; let c := begunCmd (.hkRead h p) s
    ∃ data, exec (.hkRead h p) s = .next (s.withDev (d.finalReply c St.done 0 data)) ∧ data.length = 204) ∧
  (∀ ch raw, 48 ≤ ch → ch ≤ 64 → Occurs (.housekeepingSample ch raw) (fun d => d.pwr.hearthHeld = false ∧ d.thm.shutdown = false)
    (fun d => d.hkRead ch (raw % 65536))) ∧
  (∀ f w s e, s.dev.hearthOff = false → s.dev.retTake f ⟨0x83, [w]⟩ = some e → 48 ≤ w / 2 ^ 56 % 256 → w / 2 ^ 56 % 256 ≤ 95 →
    exec (.telemetry f [w] .good) s = .next (s.withDev (e.hkRead (w / 2 ^ 56 % 256) (w / 2 ^ 32 % 65536)))) ∧
  (∀ s, s.dev.pwr.hearthHeld = false → s.dev.thm.shutdown = false → ∃ t : Dev, exec .hkRoundEnd s = .next (s.withDev t) ∧
    (t.thm.shutdown = true ∨ (t.src 33).level = decide (t.rd 0 R.PWR_RAIL_FAULT_LO ≠ 0))) ∧
  (∀ f s, f ≤ 1 → s.dev.thm.fluHalt.length = 2 → s.dev.thm.fluHalt.getD f true = false → ∃ t : Dev,
    exec (.flueThermalShutdown f) s = .next (s.withDev t) ∧ t.thm.fluHalt.getD f false = true ∧ t.segSt f = .off ∧ t.flueUp (8 + f) = false ∧
      ∀ n, n / 4 = f → t.linkSt n = .off) ∧
  (∀ f, f ≤ 1 → Occurs (.pwrShutdownWrite f 0x53485554) (fun d => d.pwr.refuse.getD f false = false) (fun d => d.flueHalt f)) ∧
  (∀ f v s, v % 2 ^ 32 ≠ 0x53485554 → exec (.pwrShutdownWrite f v) s = .next s) ∧
  (∀ s, s.dev.hearthOff = false → s.dev.pwr.safe = false → ∃ t : Dev, exec (.pwrSafeWrite 0x5AFE) s = .next (s.withDev t) ∧ t.pwr.safe = true ∧ t.rd 0 R.PWR_STATE_SAFE = 1 ∧
    t.rd 0 R.PWR_STATE_SAFE_CAUSE = 3) ∧
  (∀ v s, s.dev.hearthOff = false → v % 2 ^ 32 ≠ 0x5AFE → exec (.pwrSafeWrite v) s = .next s) ∧
  (∀ h p s, mayBegin (.ashStatus h p) s = true →
    let d := begunDev (.ashStatus h p) s; let c := begunCmd (.ashStatus h p) s
    ∃ data, exec (.ashStatus h p) s = .next (s.withDev (d.finalReply c St.done 0 data)) ∧ data.length = 20 ∧
    u32 data 4 = d.rd 0 R.ASH_NEXT) ∧
  (∀ h p, Ends (.ashRead h p) (fun _ d => u32 p 0 < d.rd 0 R.ASH_OLDEST) (fun _ d => d)
    (fun _ d => .reply St.badParam Rsm.notHeld (enc 4 (d.rd 0 R.ASH_OLDEST)))) ∧
  (∀ h p, Reports (.ashRead h p) (fun _ d => d.rd 0 R.ASH_OLDEST ≤ u32 p 0)
    (fun _ d => (((fromN (u32 p 0) (u8 p 4)).filterMap d.ash.held).map AshRec.bytes).flatten)) ∧
  (∀ h p s, mayBegin (.ashNote h p) s = true →
    let d := begunDev (.ashNote h p) s; let c := begunCmd (.ashNote h p) s
    d.ash.queue.length < 255 → ∃ (t : Dev) (r : AshRec),
    exec (.ashNote h p) s = .next (s.withDev (t.finalReply c St.done 0 (enc 4 (d.rd 0 R.ASH_NEXT)))) ∧ t.ash = { d.ash with queue := d.ash.queue ++ [r] } ∧
      r.ty = 0x000B ∧ r.seq = d.rd 0 R.ASH_NEXT ∧ r.data = slice p 0 24) ∧
  (∀ h p, Ends (.ashNote h p) (fun _ d => 255 ≤ d.ash.queue.length) (fun _ d => d.bump 0 R.ASH_LOST) (fun _ _ => .bad St.noResource 0)) ∧
  (∀ h p s, Arrives s h p → s.dev.pwr.ready = true → h.route ≠ .cp → h.noSession = false → s.dev.whoSends h 0x5103 = some h.session →
    s.dev.macOk h.session h 0x5103 p = true →
    exec (.ashClear h p) s = .next (s.withDev (((heardDev (.ashClear h p) s).replyRaw h 0x5103 St.authFail Rs.localOnly [] none).countAuth
      h.session St.authFail))) ∧
  (∀ h p, Ends (.ashClear h p) (fun _ _ => h.route = .cp)
    (fun c d => { d with ash := { d.ash with clearing := d.ash.clearing ++ [c] } }) (fun _ _ => .accepted)) ∧
  (∀ c s, s.dev.ash.clearing = [c] → s.dev.thm.shutdown = false → s.dev.pwr.hearthHeld = false → ∃ t : Dev,
    exec (.ashClearDone true) s = .next (s.withDev (t.complete c St.done 0)) ∧ t.ash = { s.dev.ash with clearing := [], copyA := [], copyB := [] }) ∧
  (∀ r rest s, s.dev.ash.queue = r :: rest → s.dev.pwr.hearthHeld = false → s.dev.thm.shutdown = false → s.dev.rd 0 R.ASH_STATE_READY ≠ 0 →
    s.dev.ash.clearing = [] → s.dev.ash.copyA.length < journalMax → s.dev.ash.copyB.length < journalMax → ∃ t : Dev,
      exec (.ashAppend true true) s = .next (s.withDev t) ∧
      t.ash = { s.dev.ash with queue := rest, copyA := s.dev.ash.copyA ++ [r], copyB := s.dev.ash.copyB ++ [r] }) ∧
  (∀ s, ∃ t : Dev, exec (.ashAppend false false) s = .next (s.withDev t) ∧ t.ash = s.dev.ash) ∧
  (∀ s, s.dev.pwr.hearthHeld = false → s.dev.thm.shutdown = false → s.dev.rd 0 R.ASH_STATE_READY ≠ 1 → ∃ t : Dev,
    exec .ashScan s = .next (s.withDev t) ∧ t.rd 0 R.ASH_STATE_READY = 1 ∧ t.ash.copyA = s.dev.ash.merged ∧ t.ash.copyB = s.dev.ash.merged) ∧
  (∀ die blk n s, s.dev.ash.corr = [((die, blk), n)] → s.dev.ash.queue.length < 255 → s.dev.pwr.hearthHeld = false → s.dev.thm.shutdown = false →
    s.dev.tnk.noManage = false → ∃ (t : Dev) (r : AshRec), exec .ashSummary s = .next (s.withDev t) ∧
      t.ash = { s.dev.ash with corr := [], queue := s.dev.ash.queue ++ [r] } ∧ r.ty = 0x0002 ∧
      r.data = slice (encLe 1 die ++ encLe 1 blk ++ encLe 4 n) 0 24) ∧
  (∀ h p s, mayBegin (.bootcfgSet h p) s = true →
    let d := begunDev (.bootcfgSet h p) s; let c := begunCmd (.bootcfgSet h p) s
    h.answered = none → d.ash.boot.length = 2 → ∃ (t : Dev) (b : BootCfg),
    exec (.bootcfgSet h p) s = .next (s.withDev (t.finalReply c St.done 0 [])) ∧ t.bootCfg = some b ∧ b.rate0 = u16 p 0 ∧ b.rate1 = u16 p 2) ∧
  (∀ h p n s, mayBegin (.bootcfgSet h p) s = true →
    let d := begunDev (.bootcfgSet h p) s; let c := begunCmd (.bootcfgSet h p) s
    h.answered = some n → ∃ t : Dev,
    exec (.bootcfgSet h p) s = .next (s.withDev (t.finalReply c St.fault 0x43 [])) ∧ t.ash = d.ash ∧ t.rd 0 R.ASH_STATE_FLASH_FAULT = 1) ∧
  (∀ h p, Ends (.ageSet h p) (fun _ _ => True)
    (fun _ d => { d with age := { d.age with
      advise := bit (u8 p 0) 0, rebase := d.age.rebase || bit (u8 p 0) 1, planAt := u32 p 2, mask := u64 p 6, ceiling := u16 p 14
      loops := (List.range 256).map fun i => u8 p (16 + i) } }) (fun _ _ => .done)) ∧
  (∀ h p s, mayBegin (.ageSample h p) s = true →
    let d := begunDev (.ageSample h p) s; let c := begunCmd (.ageSample h p) s
    p.length = 6 → ∃ t : Dev, exec (.ageSample h p) s = .next (s.withDev (t.finalReply c St.done 0 [])) ∧
    t = { d with age := { d.age with samples := t.age.samples } } ∧ amGet t.age.samples (u32 p 0) 0 = u16 p 4) ∧
  (∀ h p, Ends (.ageReplan h p) (fun _ d => d.age.running = [] ∧ d.age.postponed = false)
    (fun c d => { d with age := { d.age with running := [c] } }) (fun _ _ => .accepted)) ∧
  (∀ h p, Ends (.ageReplan h p) (fun _ d => d.age.running ≠ []) (fun _ d => d) (fun _ _ => .bad St.badState Rsm.replanBusy)) ∧
  (∀ v s, s.dev.pwr.hearthHeld = false → s.dev.thm.shutdown = false → s.dev.tnk.noManage = false → kvGet s.dev.age.today (0, 0) = none → ∃ t : Dev,
    exec (.ageSampleTick [v] none false) s = .next (s.withDev t) ∧ kvGet t.age.today (0, 0) = some (v, 1) ∧ t.age.daily = s.dev.age.daily) ∧
  (∀ nack, Occurs (.replanRun nack)
    (fun d => d.pwr.ready = true ∧ d.pwr.hearthHeld = false ∧ d.thm.shutdown = false ∧ d.tnk.noManage = false ∧ d.replanWaits = true)
    (fun d => { d with age := { d.age with postponed := true } })) ∧
  (∀ nack s, s.dev.pwr.ready = true → s.dev.pwr.hearthHeld = false → s.dev.thm.shutdown = false → s.dev.tnk.noManage = false → s.dev.replanWaits = false →
    ∃ (n : Nat) (t : Dev), exec (.replanRun nack) s = .next (s.withDev (t.completeAll s.dev.age.running St.done 0 (enc 2 n))) ∧
      t.age.running = [] ∧ t.age.postponed = false ∧ t.age.applied = [])

/-- TINKER_SWITCH needs a standby and replies at the exchange. UPDATE_STAGE refuses the active slot and queues; its end leaves the slot verified, or invalid with the image's reason. UPDATE_ACTIVATE runs through the standby's patch, the swap and the old core's load, and the boot configuration then names the slot. A core switch exchanges the cores, fails the old one, and gives its claims back; a passed self-test makes a standby, a failed check removes it. RESET_RELEASE begins start-up; a stage is ticked off, and the last makes the device READY; a late half brings its die in. VDD_AON low holds the hearth in reset; a hob core rail meets a condition of R17. The soft reset of a flue die needs its code, waits for running waveforms and keeps CHS_PARK_. RESET_ASSERT empties the heap and keeps the journal; flue resets darken both dies. A heartbeat of a FAILED partner, or three missing, makes a STANDBY device ACTIVE; eight in step set TRACKING. (What the hearth side does, it does while it is neither held in reset nor shut down.) (R450, R464, R466, R468, R470, R477, R514, R516, R520, R521, R523, R529) -/
def Obligations.CoresUpdatesResetsAndTwins : Prop :=
  (∀ h p, Ends (.tinkerSwitch h p) (fun _ d => d.tnk.standbyOk = false) (fun _ d => d) (fun _ _ => .bad St.badState Rsm.noStandby)) ∧
  (∀ h p, Ends (.tinkerSwitch h p) (fun _ d => d.tnk.standbyOk = true ∧ d.upd.act = none)
    (fun c d => { d with tnk := { d.tnk with switchReq := d.tnk.switchReq ++ [c] } }) (fun _ _ => .later)) ∧
  (∀ h p, EndsOn (.updateStage h p) (fun _ _ d => d.tnk.slotOf.getD d.tnk.active 0 = u8 p 0) (fun _ hp d => (hp, d))
    (fun _ _ _ => .bad St.badState Rsm.slotActive)) ∧
  (∀ h p o, EndsOn (.updateStage h p) (fun _ hp d => d.tnk.slotOf.getD d.tnk.active 0 ≠ u8 p 0 ∧ hp.buf (u16 p 2) = some o ∧ o.lost = false)
    (fun c hp d => (hp, { d with upd := { d.upd with staging := d.upd.staging ++ [c] } })) (fun _ _ _ => .accepted)) ∧
  (∀ c o s, s.dev.hearthOff = false → s.dev.upd.staging = [c] → u8 c.p 1 = 0 → c.h.answered = none → s.heap.buf (u16 c.p 2) = some o → o.lost = false → s.dev.ash.slots.length = 2 →
    u8 c.p 0 = 1 ∨ u8 c.p 0 = 2 → imageBad (s.dev.rd 0 R.TNK_FLOOR) (o.read (u32 c.p 4) (u32 c.p 8)) = none → ∃ t : Dev,
      exec .updateStageDone s = .next (s.withDev (t.complete c St.done 0)) ∧ t.upd.staging = [] ∧ (t.slot (u8 c.p 0)).state = 1 ∧
      (t.slot (u8 c.p 0)).image = o.read (u32 c.p 4) (u32 c.p 8)) ∧
  (∀ c o r s, s.dev.hearthOff = false → s.dev.upd.staging = [c] → u8 c.p 1 = 0 → c.h.answered = none → s.heap.buf (u16 c.p 2) = some o → o.lost = false → s.dev.ash.slots.length = 2 →
    u8 c.p 0 = 1 ∨ u8 c.p 0 = 2 → imageBad (s.dev.rd 0 R.TNK_FLOOR) (o.read (u32 c.p 4) (u32 c.p 8)) = some r → ∃ t : Dev,
      exec .updateStageDone s = .next (s.withDev (t.complete c St.fault r)) ∧ t.upd.staging = [] ∧ (t.slot (u8 c.p 0)).state = 2) ∧
  (∀ h p, Ends (.updateActivate h p) (fun _ d => d.tnk.standbyOk = false) (fun _ d => d) (fun _ _ => .bad St.badState Rsm.noStandby)) ∧
  (∀ h p, Ends (.updateActivate h p)
    (fun _ d => d.tnk.standbyOk = true ∧ d.upd.act = none ∧ d.tnk.switchReq = [] ∧ u8 p 0 ≠ 0 ∧ (d.slot (u8 p 0)).state ≠ 1)
    (fun _ d => d) (fun _ _ => .bad St.badState Rsm.notStaged)) ∧
  (∀ h p, Ends (.updateActivate h p)
    (fun _ d => d.tnk.standbyOk = true ∧ d.upd.act = none ∧ d.tnk.switchReq = [] ∧ (u8 p 0 = 0 ∨ (d.slot (u8 p 0)).state = 1))
    (fun c d => { d with upd := { d.upd with act := some (c, u8 p 0), phase := 1 } }) (fun _ _ => .accepted)) ∧
  (∀ c s, s.dev.hearthOff = false → s.dev.upd.act = some (c, 0) → s.dev.upd.phase = 1 → s.dev.tnk.standbyOk = true → ∃ t : Dev,
    exec (.standbyPatchReady true) s = .next (s.withDev t) ∧ t.upd.phase = 2 ∧ t.upd.readyAt = s.dev.media ∧ t.tnk.active = s.dev.tnk.active) ∧
  (∀ c s, s.dev.hearthOff = false → s.dev.upd.act = some (c, 0) → s.dev.upd.phase = 1 → ∃ t : Dev,
    exec (.standbyPatchReady false) s = .next (s.withDev (t.complete c St.fault 0)) ∧ t.upd.act = none ∧ t.tnk = s.dev.tnk) ∧
  (∀ s, s.dev.hearthOff = false → s.dev.tnk.standbyOk = true → s.dev.upd.phase = 2 → s.dev.swapDue = true → s.dev.tnk.switchReq = [] → ∃ t : Dev, exec .updateSwap s = .next (s.withDev t) ∧
    t.tnk.active = 1 - s.dev.tnk.active ∧ t.beginsHeld = false ∧ t.upd.phase = 3) ∧
  (∀ c s, s.dev.hearthOff = false → s.dev.tnk.standbyOk = true → s.dev.upd.phase = 0 → s.dev.tnk.switchReq = [c] → ∃ t : Dev,
    exec .updateSwap s = .next (s.withDev (t.finalReply c St.done 0 [])) ∧ t.tnk.active = 1 - s.dev.tnk.active ∧ t.tnk.switchReq = []) ∧
  (∀ c k s, s.dev.hearthOff = false → s.dev.upd.act = some (c, k) → s.dev.upd.phase = 3 → c.h.answered = none → s.dev.ash.boot.length = 2 → ∃ (t : Dev) (b : BootCfg),
    exec .updateActivateDone s = .next (s.withDev (t.complete c St.done 0)) ∧ t.upd.act = none ∧ t.upd.phase = 0 ∧ t.bootCfg = some b ∧ b.slot = k) ∧
  (∀ h p s, mayBegin (.updateStatus h p) s = true →
    let d := begunDev (.updateStatus h p) s; let c := begunCmd (.updateStatus h p) s
    ∃ data, exec (.updateStatus h p) s = .next (s.withDev (d.finalReply c St.done 0 data)) ∧ data.length = 22 ∧
    u8 data 0 = d.tnk.slotOf.getD d.tnk.active 0 % 256) ∧
  (∀ cause k v s, s.dev.pwr.hearthHeld = false → s.dev.thm.shutdown = false → s.dev.tnk.noManage = false → s.dev.tnk.standbyOk = true →
    s.dev.tnk.active < s.dev.tnk.failed.length → s.dev.ev.srcs = [(k, v)] → v.st = 2 → 32 ≤ k → ∃ t : Dev,
      exec (.tinkerCoreSwitch cause) s = .next (s.withDev t) ∧ t.tnk.active = 1 - s.dev.tnk.active ∧ t.tnk.standbyOk = false ∧
      t.tnk.failed.getD s.dev.tnk.active false = true ∧ (t.src k).st = 1 ∧ (t.src k).count = min 65535 (v.count + v.cCount) ∧ (t.src k).first = v.cFirst) ∧
  (∀ cause s, s.dev.pwr.hearthHeld = false → s.dev.thm.shutdown = false → s.dev.tnk.noManage = false → s.dev.tnk.standbyOk = false → ∃ t : Dev,
    exec (.tinkerCoreSwitch cause) s = .next (s.withDev t) ∧ t.tnk.noManage = true ∧ t.tnk.active = s.dev.tnk.active) ∧
  (∀ s, s.dev.hearthOff = false → s.dev.tnk.failed.getD (1 - s.dev.tnk.active) false = true → s.dev.tnk.noManage = false → ∃ t : Dev,
    exec (.coreSelftestDone true) s = .next (s.withDev t) ∧ t.tnk.standbyOk = true ∧ t.tnk.failed.getD (1 - s.dev.tnk.active) false = false) ∧
  (∀ s, s.dev.hearthOff = false → s.dev.tnk.standbyOk = true → s.dev.tnk.failed.length = 2 → ∃ t : Dev, exec (.stateTableCheck false) s = .next (s.withDev t) ∧
    t.tnk.standbyOk = false ∧ t.tnk.failed.getD (1 - s.dev.tnk.active) false = true) ∧
  (Occurs .resetRelease (fun d => d.pwr.ready = false ∧ d.pwr.done = [] ∧ d.bootCfg = none)
    (fun d => { d with pwr := { d.pwr with hearthHeld := false, resetAt := d.stamp } }.wr 0 R.TNK_BOOTCFG_LOST 1)) ∧
  (∀ k s, k = 1 ∨ k = 4 → s.dev.pwr.ready = false → s.dev.pwr.hearthHeld = false → s.dev.pwr.done = [] → ∃ t : Dev,
    exec (.startupStageComplete k [] []) s = .next (s.withDev t) ∧ t.pwr.done = [k] ∧ t.pwr.ready = false ∧ t.pwr.stage = (if k = 1 then 2 else 1)) ∧
  (∀ s, s.dev.pwr.ready = false → s.dev.pwr.hearthHeld = false → s.dev.pwr.done = [5, 3, 2, 1] → ∃ t : Dev,
    exec (.startupStageComplete 4 [] []) s = .next (s.withDev t) ∧ t.pwr.ready = true ∧ t.pwr.stage = 0 ∧ t.tnk.standbyOk = true) ∧
  (∀ f s, s.dev.hearthOff = false → f ≤ 1 → s.dev.pwr.lateHalf.length = 2 → s.dev.pwr.flueUp.length = 2 → s.dev.pwr.lateHalf.getD f false = true →
    s.dev.rd 0 (R.DMP_HALF_ON f) = 1 → s.dev.pwr.ready = true → ∃ t : Dev, exec (.damperHalfJoin f) s = .next (s.withDev t) ∧
      t.pwr.flueUp.getD f false = true ∧ t.pwr.lateHalf.getD f true = false) ∧
  (∀ s, ∃ t : Dev, exec (.railComparatorTrip 7 false) s = .next (s.withBoth ({}, t)) ∧ t.pwr.hearthHeld = true ∧ t.pwr.ready = false) ∧
  (∀ i high s, i < 4 → s.dev.fab.cond.length = 4 → s.dev.fab.cond.getD i none = none → ∃ t : Dev,
    exec (.railComparatorTrip (i + 1) high) s = .next (s.withDev t) ∧ t.fab.cond.getD i none = some Cause.supplyRange ∧ t.fab.failed = s.dev.fab.failed) ∧
  (∀ f s, f ≤ 1 → s.dev.film.dies.length = 2 → s.dev.pwr.refuse.getD f false = false → s.dev.countCells f (·.wave.isSome) ≠ 0 → ∃ t : Dev,
    exec (.pwrFlueResetWrite f 0x52535420) s = .next (s.withDev t) ∧ (t.filmDie f).resetDue = true ∧ t.regs = s.dev.regs) ∧
  (∀ f s, f ≤ 1 → s.dev.pwr.refuse.getD f false = false → s.dev.countCells f (·.wave.isSome) = 0 → ∃ t : Dev, exec (.pwrFlueResetWrite f 0x52535420) s = .next (s.withDev t) ∧
    t.segSt f = .off ∧ (∀ n, n / 4 = f → t.linkSt n = .off) ∧ t.rd (8 + f) R.CHS_PARK_T = s.dev.rd (8 + f) R.CHS_PARK_T) ∧
  (∀ f v s, v % 2 ^ 32 ≠ 0x52535420 → exec (.pwrFlueResetWrite f v) s = .next s) ∧
  (∀ s, ∃ t : Dev, exec .resetAssert s = .next (s.withBoth ({}, t)) ∧ t.pwr.hearthHeld = true ∧ t.pwr.ready = false ∧ t.ash.copyA = s.dev.ash.copyA ∧
    t.ash.copyB = s.dev.ash.copyB ∧ t.rd 0 R.TNK_FLOOR = s.dev.rd 0 R.TNK_FLOOR ∧ (t.sess 0).isOpen = false) ∧
  (∀ on s, s.dev.pwr.flueUp.length = 2 → ∃ t : Dev, exec (.flueResetAssert on) s = .next (s.withDev t) ∧ t.pwr.flueHeld = true ∧ t.segSt 0 = .off ∧
    t.segSt 1 = .off ∧ t.pwr.flueUp = [false, false]) ∧
  (Occurs .flueResetRelease (fun d => d.pwr.flueHeld = true ∧ d.lnk.startup = 0)
    (fun d => { d with pwr := { d.pwr with flueHeld := false, ownReset := [true, true] } })) ∧
  (∀ i s, i < 36 → s.dev.pwr.flueHeld = true → s.dev.lnk.startup ≠ 0 → ∃ t : Dev, exec .flueResetRelease s = .next (s.withDev t) ∧
    t.pwr.flueHeld = false ∧ t.rd 0 (R.DMP_LANE_PHASE i) = 1) ∧
  (∀ stack frame start sigs s, s.dev.hearthOff = false → s.dev.twinRole = 2 → ∃ t : Dev,
    exec (.twinHeartbeatRx (s.dev.rd 0 R.PWR_TWIN_PARTNER) 3 stack frame start sigs) s = .next (s.withDev t) ∧ t.twinRole = 1 ∧
      t.rd 0 R.PWR_TWIN_STATE_HEARD = 1 ∧ t.pwr.twinMiss = 0) ∧
  (∀ src role stack frame start sigs s, s.dev.hearthOff = false → src ≠ s.dev.rd 0 R.PWR_TWIN_PARTNER → exec (.twinHeartbeatRx src role stack frame start sigs) s = .next s) ∧
  (∀ stack sigs s, s.dev.hearthOff = false → s.dev.twinRole ≠ 0 → 7 ≤ s.dev.pwr.twinRun → ∃ t : Dev,
    exec (.twinHeartbeatRx (s.dev.rd 0 R.PWR_TWIN_PARTNER) 1 stack s.dev.frame (s.dev.ras.startAt % 2 ^ 64) sigs) s = .next (s.withDev t) ∧
      t.rd 0 R.PWR_TWIN_STATE_TRACKING = 1 ∧ t.twinRole = s.dev.twinRole) ∧
  (∀ s, s.dev.hearthOff = false → s.dev.twinRole = 2 → 2 ≤ s.dev.pwr.twinMiss → ∃ t : Dev, exec .twinHeartbeatMissing s = .next (s.withDev t) ∧ t.twinRole = 1 ∧
    t.rd 0 R.PWR_TWIN_STATE_HEARD = 0 ∧ t.rd 0 R.PWR_TWIN_STATE_TRACKING = 0) ∧
  (∀ s, s.dev.hearthOff = false → s.dev.twinRole = 1 → ∃ t : Dev, exec .twinHeartbeatMissing s = .next (s.withDev t) ∧ t.twinRole = 1 ∧
    t.rd 0 R.PWR_TWIN_MISSED = min (s.dev.rd 0 R.PWR_TWIN_MISSED + 1) (2 ^ 32 - 1) ∧ t.pwr.twinMiss = s.dev.pwr.twinMiss + 1)

/-- ENC_STREAM_SET that the rate in effect allows replaces the configuration of a slot that is OFF only; ENC_STREAM_ENABLE starts an admissible configured slot with a full bucket, and refuses one that is not configured, or beyond capacity; ENC_VIEW_SET writes the shadow view; ENC_KEY asks for a key picture; ENC_STATUS has 32 bytes. A picture time adds the stream's next picture: I if first, a repeat if the source has nothing new. A strip of a monitor picture is computed by an idle grate. A row that fits the budget is spent, its vectors searched, and the next follows; one that does not starves the picture. The last slice leaves as RTP with the marker and closes the picture. A start ends at a picture time, a stop when nothing is left to send. INGOT_JOB runs or queues a job, up to 16 waiting; a run writes its output, frees the engine and reports; a lost buffer is FAULT. INGOT_FREE frees a context no job names; INGOT_STATUS reports queue, busy and contexts. (What the hearth side does, it does while it is neither held in reset nor shut down.) (R483, R484, R488, R492, R494, R496, R498, R499, R501, R503, R509, R510) -/
def Obligations.EncoderStreamsAndIngot : Prop :=
  (∀ h p, Ends (.encStreamSet h p) (fun _ d => d.encRateBad p = none ∧ d.encSt (u8 p 0) ≠ .off) (fun _ d => d) (fun _ _ => .bad St.badState Rse.streamNotOff)) ∧
  (∀ h p s, mayBegin (.encStreamSet h p) s = true →
    let d := begunDev (.encStreamSet h p) s; let c := begunCmd (.encStreamSet h p) s
    d.encRateBad p = none → d.encSt (u8 p 0) = .off → d.conf.slots.length = 4 → ∃ t : Dev,
    exec (.encStreamSet h p) s = .next (s.withDev (t.finalReply c St.done 0 [])) ∧ t = { d with conf := { d.conf with slots := t.conf.slots } } ∧
      t.encSlot (u8 p 0) = { d.encSlot (u8 p 0) with cfg := p } ∧ ∀ k, k ≠ u8 p 0 → t.encSlot k = d.encSlot k) ∧
  (∀ h p, Ends (.encStreamEnable h p) (fun _ d => u8 p 1 = 1 ∧ d.mode ≠ 0 ∧ (d.encSlot (u8 p 0)).cfg = []) (fun _ d => d) (fun _ _ => .bad St.badState 0)) ∧
  (∀ h p q, Ends (.encStreamEnable h p)
    (fun _ d => u8 p 1 = 1 ∧ d.mode ≠ 0 ∧ (d.encSlot (u8 p 0)).cfg = q ∧ q ≠ [] ∧ d.encSt (u8 p 0) = .off ∧ encRate d.rate q ≤ 60 ∧
      intraReserve q ≤ encA d.rate q ∧ 4 * encA d.rate q ≤ u32 q 20 ∧
      d.encSt (u8 p 0) = .off ∧ d.encAdmit (u8 p 0) = false)
    (fun _ d => d) (fun _ _ => .bad St.noResource Rse.capacity)) ∧
  (∀ h p q s, mayBegin (.encStreamEnable h p) s = true →
    let d := begunDev (.encStreamEnable h p) s; let c := begunCmd (.encStreamEnable h p) s
    u8 p 1 = 1 → d.mode ≠ 0 → (d.encSlot (u8 p 0)).cfg = q → q ≠ [] → d.fn (FnId.enc (u8 p 0)) = {} →
    encRate d.rate q ≤ 60 → intraReserve q ≤ encA d.rate q → 4 * encA d.rate q ≤ u32 q 20 → d.encAdmit (u8 p 0) = true → d.conf.slots.length = 4 →
    ∃ t : Dev, exec (.encStreamEnable h p) s = .next (s.withDev (t.finalReply c St.accepted 0 [])) ∧
      t.fn (FnId.enc (u8 p 0)) = { st := .starting, running := [c] } ∧ (t.encSlot (u8 p 0)).cfg = q ∧ (t.encSlot (u8 p 0)).b = u32 q 20 ∧
      (t.encSlot (u8 p 0)).count = 0 ∧ (t.encSlot (u8 p 0)).pics = []) ∧
  (∀ h p s, mayBegin (.encViewSet h p) s = true →
    let d := begunDev (.encViewSet h p) s; let c := begunCmd (.encViewSet h p) s
    d.conf.slots.length = 4 → ∃ t : Dev,
    exec (.encViewSet h p) s = .next (s.withDev (t.finalReply c St.done 0 [])) ∧ t.encSlot (u8 p 0) = { d.encSlot (u8 p 0) with view := p } ∧
      amGet t.conf.views (u8 p 0) [] = p ∧ t.regs = d.regs) ∧
  (∀ h p s, mayBegin (.encKey h p) s = true →
    let d := begunDev (.encKey h p) s; let c := begunCmd (.encKey h p) s
    d.conf.slots.length = 4 → ∃ t : Dev, exec (.encKey h p) s = .next (s.withDev (t.finalReply c St.done 0 [])) ∧
    t.encSlot (u8 p 0) = { d.encSlot (u8 p 0) with key := true } ∧ ∀ k, k ≠ u8 p 0 → t.encSlot k = d.encSlot k) ∧
  (∀ h p s, mayBegin (.encStatus h p) s = true →
    let d := begunDev (.encStatus h p) s; let c := begunCmd (.encStatus h p) s
    ∃ data, exec (.encStatus h p) s = .next (s.withDev (d.finalReply c St.done 0 data)) ∧ data.length = 32 ∧
    u8 data 0 = (d.encSt (u8 p 0)).num % 256 ∧ u32 data 4 = d.rd 0 (R.ENC_PICTURES (u8 p 0))) ∧
  (∀ k s, s.dev.hearthOff = false → k < 4 → s.dev.conf.slots.length = 4 → (∀ j < 4, j ≠ k → s.dev.encSt j = .off) → s.dev.encSt k = .on → (s.dev.encSlot k).cfg ≠ [] →
    s.dev.frame % encDiv (s.dev.encSlot k).cfg = 0 → (s.dev.encSlot k).pics = [] → ∃ (t : Dev) (q : EncPic),
      exec .encPictureTime s = .next (s.withDev t) ∧ (t.encSlot k).pics = [q] ∧ (t.encSlot k).count = (s.dev.encSlot k).count + 1 ∧
      q.frame = s.dev.frame ∧ q.time = s.dev.ras.startAt ∧ q.num = (s.dev.encSlot k).count ∧ q.row = 0 ∧
      ((s.dev.encSlot k).count = 0 → q.intra = true ∧ q.rep = false) ∧
      ((s.dev.encSlot k).count ≠ 0 → q.rep = (s.dev.encSourceNow s.heap (s.dev.encSlot k)).isNone)) ∧
  (∀ k idx die g q pk s, s.dev.hearthOff = false → k < 4 → s.dev.conf.slots.length = 4 → (s.dev.encSlot k).pics = [q] → q.waits = true → q.rep = false →
    (q.rows.any fun e => e.1 = idx) = false → q.pick = some pk → encSource (s.dev.encSlot k).cfg = 0 → idx < encStrips (s.dev.encSlot k).cfg →
    s.dev.grateIdle die g = true → ∃ (t : Dev) (r : EncRows), exec (.monitorStrip k idx die g [] []) s = .next (s.withDev t) ∧
      (t.encSlot k).pics = [{ q with rows := amPut q.rows idx r }]) ∧
  (∀ k size cheap blocks q s, s.dev.hearthOff = false → k < 4 → s.dev.conf.slots.length = 4 → (s.dev.encSlot k).pics = [q] → q.ready (s.dev.encSlot k).cfg = true →
    s.dev.encTurn k = true → q.row ≠ 0 → q.row + 1 < encCtuRows (s.dev.encSlot k).cfg →
    q.spent + size + q.reserve (s.dev.encSlot k).cfg (q.row + 1) ≤ q.budget → ∃ t : Dev, exec (.encRowCode k size cheap blocks) s = .next (s.withDev t) ∧
      (t.encSlot k).pics = [{ q with spent := q.spent + size, row := q.row + 1, mvs := q.mvs ++ (s.dev.encSlot k).rowVectors q blocks }] ∧ (t.encSlot k).b = (s.dev.encSlot k).b ∧ t.regs = s.dev.regs) ∧
  (∀ k size cheap blocks q s, s.dev.hearthOff = false → k < 4 → s.dev.conf.slots.length = 4 → (s.dev.encSlot k).pics = [q] → q.ready (s.dev.encSlot k).cfg = true →
    s.dev.encTurn k = true → q.row ≠ 0 → q.row < encCtuRows (s.dev.encSlot k).cfg →
    q.budget < q.spent + size + q.reserve (s.dev.encSlot k).cfg (q.row + 1) → ∃ (t : Dev) (z : EncPic), exec (.encRowCode k size cheap blocks) s = .next (s.withDev t) ∧
      (t.encSlot k).pics = [z] ∧ z.starved = some q.row ∧ z.row = encCtuRows (s.dev.encSlot k).cfg ∧ (t.encSlot k).starved = true ∧
      t.rd 0 (R.ENC_STARVED k) = min (s.dev.rd 0 (R.ENC_STARVED k) + 1) (2 ^ 32 - 1)) ∧
  (∀ k nal q rest s, s.dev.hearthOff = false → k < 4 → s.dev.conf.slots.length = 4 → (s.dev.encSlot k).pics = q :: rest → encCtuRows (s.dev.encSlot k).cfg ≤ q.row →
    encSlices (s.dev.encSlot k).cfg ≤ q.sent + 1 → nal.length ≤ 1400 → (q.sent = 0 → (s.dev.encSlot k).ahead s.dev.rate q = []) → s.dev.rd 0 (R.NET_IF_LINK (u8 (s.dev.encSlot k).cfg 24)) = 1 → ∃ t : Dev,
      exec (.encSliceSend k [nal]) s = .next (s.withDev t) ∧ (t.encSlot k).pics = rest ∧ (t.encSlot k).rtpSeq = ((s.dev.encSlot k).rtpSeq + 1) % 65536 ∧
      t.out = .rtp (u8 (s.dev.encSlot k).cfg 24) (s.dev.nextHop (u8 (s.dev.encSlot k).cfg 24) false (u32 (s.dev.encSlot k).cfg 28)) (u32 (s.dev.encSlot k).cfg 28)
        (s.dev.encSlot k).sport (u16 (s.dev.encSlot k).cfg 26)
        (u8 (s.dev.encSlot k).cfg 15) ([0x80] ++ enc 1 (128 + u8 (s.dev.encSlot k).cfg 25) ++ enc 2 (s.dev.encSlot k).rtpSeq ++ enc 4 (rtpStamp q.time)
          ++ enc 4 (s.dev.encSlot k).ssrc ++ nal) :: s.dev.out ∧
      t.rd 0 (R.ENC_PICTURES k) = min (s.dev.rd 0 (R.ENC_PICTURES k) + 1) (2 ^ 32 - 1)) ∧
  (∀ k r s, s.dev.hearthOff = false → k < 4 → s.dev.fn (FnId.enc k) = { st := .starting, running := r } → s.dev.frame % encDiv (s.dev.encSlot k).cfg = 0 →
    exec (.encTransitionDone k) s = .next (s.withDev ((s.dev.setFn (FnId.enc k) { st := .on }).completeAll r St.done 0))) ∧
  (∀ k r s, s.dev.hearthOff = false → k < 4 → s.dev.fn (FnId.enc k) = { st := .stopping, running := r } → (s.dev.encSlot k).pics = [] →
    exec (.encTransitionDone k) s = .next (s.withDev ((s.dev.setFn (FnId.enc k) {}).completeAll r St.done 0))) ∧
  (∀ h p a b s, mayBegin (.ingotJob h p) s = true →
    let d := begunDev (.ingotJob h p) s; let c := begunCmd (.ingotJob h p) s
    s.heap.buf (u16 p 4) = some a → a.lost = false → s.heap.buf (u16 p 6) = some b → b.lost = false →
    bit (u8 p 3) 1 = false → d.ing.ctxs.length < 64 → d.ing.queue = [] → d.ing.running = none → d.ownLoad = false → ∃ (t : Dev) (j : IngJob),
      exec (.ingotJob h p) s = .next (s.withDev (t.finalReply c St.accepted 0 [])) ∧ t = { d with ing := { d.ing with running := some j } } ∧ j.cmd = c ∧
      j.op = u8 p 0 ∧ j.src = u16 p 4 ∧ j.dst = u16 p 6 ∧ j.srcLen = u32 p 12) ∧
  (∀ h p a b j s, mayBegin (.ingotJob h p) s = true →
    let d := begunDev (.ingotJob h p) s; let c := begunCmd (.ingotJob h p) s
    s.heap.buf (u16 p 4) = some a → a.lost = false → s.heap.buf (u16 p 6) = some b → b.lost = false →
    bit (u8 p 3) 1 = false → d.ing.ctxs.length < 64 → d.ing.running = some j →
    exec (.ingotJob h p) s = if d.ing.queue.length < 16 then .next (s.withDev (({ d with ing := { d.ing with queue := d.ing.queue ++ [{
        cmd := c, op := u8 p 0, wrap := u8 p 1, level := u8 p 2, final := bit (u8 p 3) 0, resume := false, src := u16 p 4
        dst := u16 p 6, srcOff := u32 p 8, srcLen := u32 p 12, dstOff := u32 p 16, ctx := u8 p 20 }] } } : Dev).finalReply c St.accepted 0 []))
      else .next (s.withDev (d.finalReply c St.noResource 0x42 []))) ∧
  (∀ j a b s, s.dev.hearthOff = false → s.dev.ing = { running := some j } → s.dev.ownLoad = false → j.resume = false → s.heap.buf j.src = some a → a.lost = false →
    s.heap.buf j.dst = some b → b.lost = false → ∃ (t : Dev) (out data : Bytes) (st rs : Nat),
      exec .ingotJobRun s = .next (s.withBoth (s.heap.write j.dst j.dstOff out, t.complete j.cmd st rs data)) ∧ (st = St.done ∨ st = St.fault) ∧
      data.length = 18 ∧ t.ing.running = none ∧ (∀ e ∈ t.ing.ctxs, e.1 = 1) ∧ t.rd 0 R.ING_JOBS = min (s.dev.rd 0 R.ING_JOBS + 1) (2 ^ 32 - 1)) ∧
  (∀ j s, s.dev.hearthOff = false → s.dev.ing = { running := some j } → s.dev.ownLoad = false → s.heap.buf j.src = none → ∃ t : Dev,
    exec .ingotJobRun s = .next (s.withDev (t.complete j.cmd St.fault Rs.bufferLost (zeros 18))) ∧ t.ing = {}) ∧
  (∀ h p, Ends (.ingotFree h p) (fun _ d => d.ing.ctxBusy (u8 p 0) = true) (fun _ d => d) (fun _ _ => .bad St.badState 0x41)) ∧
  (∀ h p s, mayBegin (.ingotFree h p) s = true →
    let d := begunDev (.ingotFree h p) s; let c := begunCmd (.ingotFree h p) s
    d.ing.ctxBusy (u8 p 0) = false → ∃ t : Dev,
    exec (.ingotFree h p) s = .next (s.withDev (t.finalReply c St.done 0 [])) ∧ t = { d with ing := { d.ing with ctxs := t.ing.ctxs } } ∧
      ∀ e, e ∈ t.ing.ctxs ↔ e ∈ d.ing.ctxs ∧ e.1 ≠ u8 p 0) ∧
  (∀ h p s, mayBegin (.ingotStatus h p) s = true →
    let d := begunDev (.ingotStatus h p) s; let c := begunCmd (.ingotStatus h p) s
    ∃ data, exec (.ingotStatus h p) s = .next (s.withDev (d.finalReply c St.done 0 data)) ∧ data.length = 12 ∧
    u8 data 0 = d.ing.queue.length % 256 ∧ u8 data 1 = (if d.ing.running.isSome then 1 else 0) ∧
    ∀ k, 1 ≤ k → k ≤ 64 → bit (u64 data 4) (k - 1) = d.ing.ctxs.any fun e => e.1 = k)
end

