-- ==== Sys2Proof/Laws/Exec.lean ====
section
/-! SUPPORT. exec on each command is that command's meaning: one equation per constructor, so that no proof unfolds the dispatcher. -/

namespace Sys2Proof.Machine

variable (s : State)

@[simp] theorem exec_identity (h : Hdr) (p : Bytes) : exec (.identity h p) s = execIdentity h p s := rfl
@[simp] theorem exec_status (h : Hdr) (p : Bytes) : exec (.status h p) s = execStatus h p s := rfl
@[simp] theorem exec_abort (h : Hdr) (p : Bytes) : exec (.abort h p) s = execAbort h p s := rfl
@[simp] theorem exec_sessionOpen (h : Hdr) (p : Bytes) : exec (.sessionOpen h p) s = execSessionOpen h p s := rfl
@[simp] theorem exec_sessionClose (h : Hdr) (p : Bytes) : exec (.sessionClose h p) s = execSessionClose h p s := rfl
@[simp] theorem exec_keySet (h : Hdr) (p : Bytes) : exec (.keySet h p) s = execKeySet h p s := rfl
@[simp] theorem exec_stackSet (h : Hdr) (p : Bytes) : exec (.stackSet h p) s = execStackSet h p s := rfl
@[simp] theorem exec_modeSet (h : Hdr) (p : Bytes) : exec (.modeSet h p) s = execModeSet h p s := rfl
@[simp] theorem exec_eventSelect (h : Hdr) (p : Bytes) : exec (.eventSelect h p) s = execEventSelect h p s := rfl
@[simp] theorem exec_eventReplay (h : Hdr) (p : Bytes) : exec (.eventReplay h p) s = execEventReplay h p s := rfl
@[simp] theorem exec_regRead (h : Hdr) (p : Bytes) : exec (.regRead h p) s = execRegRead h p s := rfl
@[simp] theorem exec_regWrite (h : Hdr) (p : Bytes) : exec (.regWrite h p) s = execRegWrite h p s := rfl
@[simp] theorem exec_regModify (h : Hdr) (p : Bytes) : exec (.regModify h p) s = execRegModify h p s := rfl
@[simp] theorem exec_bufCreate (h : Hdr) (p : Bytes) : exec (.bufCreate h p) s = execBufCreate h p s := rfl
@[simp] theorem exec_bufWrite (h : Hdr) (p : Bytes) : exec (.bufWrite h p) s = execBufWrite h p s := rfl
@[simp] theorem exec_bufRead (h : Hdr) (p : Bytes) : exec (.bufRead h p) s = execBufRead h p s := rfl
@[simp] theorem exec_bufFree (h : Hdr) (p : Bytes) : exec (.bufFree h p) s = execBufFree h p s := rfl
@[simp] theorem exec_surfUpload (h : Hdr) (p : Bytes) : exec (.surfUpload h p) s = execSurfUpload h p s := rfl
@[simp] theorem exec_surfUploadDone : exec .surfUploadDone s = execSurfUploadDone s := rfl
@[simp] theorem exec_raymodelSet (h : Hdr) (p : Bytes) : exec (.raymodelSet h p) s = execRaymodelSet h p s := rfl
@[simp] theorem exec_raymodelGet (h : Hdr) (p : Bytes) : exec (.raymodelGet h p) s = execRaymodelGet h p s := rfl
@[simp] theorem exec_aimSet (h : Hdr) (p : Bytes) : exec (.aimSet h p) s = execAimSet h p s := rfl
@[simp] theorem exec_planishLoad (h : Hdr) (p : Bytes) : exec (.planishLoad h p) s = execPlanishLoad h p s := rfl
@[simp] theorem exec_planishLoadDone : exec .planishLoadDone s = execPlanishLoadDone s := rfl
@[simp] theorem exec_planishClone (h : Hdr) (p : Bytes) : exec (.planishClone h p) s = execPlanishClone h p s := rfl
@[simp] theorem exec_planishCloneDone : exec .planishCloneDone s = execPlanishCloneDone s := rfl
@[simp] theorem exec_planishSelect (h : Hdr) (p : Bytes) : exec (.planishSelect h p) s = execPlanishSelect h p s := rfl
@[simp] theorem exec_planishRead (h : Hdr) (p : Bytes) : exec (.planishRead h p) s = execPlanishRead h p s := rfl
@[simp] theorem exec_planishStatus (h : Hdr) (p : Bytes) : exec (.planishStatus h p) s = execPlanishStatus h p s := rfl
@[simp] theorem exec_planishRetireDone : exec .planishRetireDone s = execPlanishRetireDone s := rfl
@[simp] theorem exec_decodeStreamSet (h : Hdr) (p : Bytes) : exec (.decodeStreamSet h p) s = execDecodeStreamSet h p s := rfl
@[simp] theorem exec_decodeStreamEnable (h : Hdr) (p : Bytes) : exec (.decodeStreamEnable h p) s = execDecodeStreamEnable h p s := rfl
@[simp] theorem exec_decodeTransitionDone (slot : Nat) : exec (.decodeTransitionDone slot) s = execDecodeTransitionDone slot s := rfl
@[simp] theorem exec_decodePriority (h : Hdr) (p : Bytes) : exec (.decodePriority h p) s = execDecodePriority h p s := rfl
@[simp] theorem exec_decodeAssign (h : Hdr) (p : Bytes) : exec (.decodeAssign h p) s = execDecodeAssign h p s := rfl
@[simp] theorem exec_decodeStatus (h : Hdr) (p : Bytes) : exec (.decodeStatus h p) s = execDecodeStatus h p s := rfl
@[simp] theorem exec_decodeEvents (h : Hdr) (p : Bytes) : exec (.decodeEvents h p) s = execDecodeEvents h p s := rfl
@[simp] theorem exec_synSourceSet (h : Hdr) (p : Bytes) : exec (.synSourceSet h p) s = execSynSourceSet h p s := rfl
@[simp] theorem exec_synSourceGet (h : Hdr) (p : Bytes) : exec (.synSourceGet h p) s = execSynSourceGet h p s := rfl
@[simp] theorem exec_synConfig (h : Hdr) (p : Bytes) : exec (.synConfig h p) s = execSynConfig h p s := rfl
@[simp] theorem exec_synStatus (h : Hdr) (p : Bytes) : exec (.synStatus h p) s = execSynStatus h p s := rfl
@[simp] theorem exec_synGrateSet (h : Hdr) (p : Bytes) : exec (.synGrateSet h p) s = execSynGrateSet h p s := rfl
@[simp] theorem exec_surfaceCreate (h : Hdr) (p : Bytes) : exec (.surfaceCreate h p) s = execSurfaceCreate h p s := rfl
@[simp] theorem exec_surfaceFree (h : Hdr) (p : Bytes) : exec (.surfaceFree h p) s = execSurfaceFree h p s := rfl
@[simp] theorem exec_surfaceFreeComplete (handle : Nat) : exec (.surfaceFreeComplete handle) s = execSurfaceFreeComplete handle s := rfl
@[simp] theorem exec_layerSet (h : Hdr) (p : Bytes) : exec (.layerSet h p) s = execLayerSet h p s := rfl
@[simp] theorem exec_layerStatus (h : Hdr) (p : Bytes) : exec (.layerStatus h p) s = execLayerStatus h p s := rfl
@[simp] theorem exec_fenceOp (h : Hdr) (p : Bytes) : exec (.fenceOp h p) s = execFenceOp h p s := rfl
@[simp] theorem exec_blit (h : Hdr) (p : Bytes) : exec (.blit h p) s = execBlit h p s := rfl
@[simp] theorem exec_bltFillStart : exec .bltFillStart s = execBltFillStart s := rfl
@[simp] theorem exec_bltCopyStart : exec .bltCopyStart s = execBltCopyStart s := rfl
@[simp] theorem exec_bltConvertStart : exec .bltConvertStart s = execBltConvertStart s := rfl
@[simp] theorem exec_blitComplete (bad : Bool) : exec (.blitComplete bad) s = execBlitComplete bad s := rfl
@[simp] theorem exec_rasterSet (h : Hdr) (p : Bytes) : exec (.rasterSet h p) s = execRasterSet h p s := rfl
@[simp] theorem exec_rasterEnable (h : Hdr) (p : Bytes) : exec (.rasterEnable h p) s = execRasterEnable h p s := rfl
@[simp] theorem exec_commit (h : Hdr) (p : Bytes) : exec (.commit h p) s = execCommit h p s := rfl
@[simp] theorem exec_commitCaptureComplete : exec .commitCaptureComplete s = execCommitCaptureComplete s := rfl
@[simp] theorem exec_genlockSet (h : Hdr) (p : Bytes) : exec (.genlockSet h p) s = execGenlockSet h p s := rfl
@[simp] theorem exec_rasterStatus (h : Hdr) (p : Bytes) : exec (.rasterStatus h p) s = execRasterStatus h p s := rfl
@[simp] theorem exec_signatureRead (h : Hdr) (p : Bytes) : exec (.signatureRead h p) s = execSignatureRead h p s := rfl
@[simp] theorem exec_panelCurveSet (h : Hdr) (p : Bytes) : exec (.panelCurveSet h p) s = execPanelCurveSet h p s := rfl
@[simp] theorem exec_filmTableSet (h : Hdr) (p : Bytes) : exec (.filmTableSet h p) s = execFilmTableSet h p s := rfl
@[simp] theorem exec_filmTableLoadDone : exec .filmTableLoadDone s = execFilmTableLoadDone s := rfl
@[simp] theorem exec_filmConfig (h : Hdr) (p : Bytes) : exec (.filmConfig h p) s = execFilmConfig h p s := rfl
@[simp] theorem exec_filmEnable (h : Hdr) (p : Bytes) : exec (.filmEnable h p) s = execFilmEnable h p s := rfl
@[simp] theorem exec_filmUpdate (h : Hdr) (p : Bytes) : exec (.filmUpdate h p) s = execFilmUpdate h p s := rfl
@[simp] theorem exec_filmStatus (h : Hdr) (p : Bytes) : exec (.filmStatus h p) s = execFilmStatus h p s := rfl
@[simp] theorem exec_panelRetain (h : Hdr) (p : Bytes) : exec (.panelRetain h p) s = execPanelRetain h p s := rfl
@[simp] theorem exec_quenchConfig (h : Hdr) (p : Bytes) : exec (.quenchConfig h p) s = execQuenchConfig h p s := rfl
@[simp] theorem exec_projCurveSet (h : Hdr) (p : Bytes) : exec (.projCurveSet h p) s = execProjCurveSet h p s := rfl
@[simp] theorem exec_quenchStatus (h : Hdr) (p : Bytes) : exec (.quenchStatus h p) s = execQuenchStatus h p s := rfl
@[simp] theorem exec_lampEnable (h : Hdr) (p : Bytes) : exec (.lampEnable h p) s = execLampEnable h p s := rfl
@[simp] theorem exec_lampTransitionDone (seg : Nat) : exec (.lampTransitionDone seg) s = execLampTransitionDone seg s := rfl
@[simp] theorem exec_lampChannelSet (h : Hdr) (p : Bytes) : exec (.lampChannelSet h p) s = execLampChannelSet h p s := rfl
@[simp] theorem exec_lampTableSet (h : Hdr) (p : Bytes) : exec (.lampTableSet h p) s = execLampTableSet h p s := rfl
@[simp] theorem exec_lampSetpoint (h : Hdr) (p : Bytes) : exec (.lampSetpoint h p) s = execLampSetpoint h p s := rfl
@[simp] theorem exec_lampClear (h : Hdr) (p : Bytes) : exec (.lampClear h p) s = execLampClear h p s := rfl
@[simp] theorem exec_lampNodes (h : Hdr) (p : Bytes) : exec (.lampNodes h p) s = execLampNodes h p s := rfl
@[simp] theorem exec_lampNodeAccess (h : Hdr) (p : Bytes) : exec (.lampNodeAccess h p) s = execLampNodeAccess h p s := rfl
@[simp] theorem exec_bellowsLoopSet (h : Hdr) (p : Bytes) : exec (.bellowsLoopSet h p) s = execBellowsLoopSet h p s := rfl
@[simp] theorem exec_bellowsCoeffSet (h : Hdr) (p : Bytes) : exec (.bellowsCoeffSet h p) s = execBellowsCoeffSet h p s := rfl
@[simp] theorem exec_bellowsSwap (h : Hdr) (p : Bytes) : exec (.bellowsSwap h p) s = execBellowsSwap h p s := rfl
@[simp] theorem exec_bellowsSetpoint (h : Hdr) (p : Bytes) : exec (.bellowsSetpoint h p) s = execBellowsSetpoint h p s := rfl
@[simp] theorem exec_bellowsEnable (h : Hdr) (p : Bytes) : exec (.bellowsEnable h p) s = execBellowsEnable h p s := rfl
@[simp] theorem exec_bellowsStatus (h : Hdr) (p : Bytes) : exec (.bellowsStatus h p) s = execBellowsStatus h p s := rfl
@[simp] theorem exec_linkEnable (h : Hdr) (p : Bytes) : exec (.linkEnable h p) s = execLinkEnable h p s := rfl
@[simp] theorem exec_linkStatus (h : Hdr) (p : Bytes) : exec (.linkStatus h p) s = execLinkStatus h p s := rfl
@[simp] theorem exec_lanePower (h : Hdr) (p : Bytes) : exec (.lanePower h p) s = execLanePower h p s := rfl
@[simp] theorem exec_lanePowerDone (link : Nat) : exec (.lanePowerDone link) s = execLanePowerDone link s := rfl
@[simp] theorem exec_eyeScan (h : Hdr) (p : Bytes) : exec (.eyeScan h p) s = execEyeScan h p s := rfl
@[simp] theorem exec_eyeScanDone (lane left right top bottom : Nat) (counts : List Nat) : exec (.eyeScanDone lane left right top bottom counts) s = execEyeScanDone lane left right top bottom counts s := rfl
@[simp] theorem exec_tapTest (h : Hdr) (p : Bytes) : exec (.tapTest h p) s = execTapTest h p s := rfl
@[simp] theorem exec_tapTestDone (lane : Nat) (rho : List Int) : exec (.tapTestDone lane rho) s = execTapTestDone lane rho s := rfl
@[simp] theorem exec_netPortSet (h : Hdr) (p : Bytes) : exec (.netPortSet h p) s = execNetPortSet h p s := rfl
@[simp] theorem exec_netPortEnable (h : Hdr) (p : Bytes) : exec (.netPortEnable h p) s = execNetPortEnable h p s := rfl
@[simp] theorem exec_portTransitionDone (port : Nat) : exec (.portTransitionDone port) s = execPortTransitionDone port s := rfl
@[simp] theorem exec_netIfSet (h : Hdr) (p : Bytes) : exec (.netIfSet h p) s = execNetIfSet h p s := rfl
@[simp] theorem exec_netPairSet (h : Hdr) (p : Bytes) : exec (.netPairSet h p) s = execNetPairSet h p s := rfl
@[simp] theorem exec_netAnvilSet (h : Hdr) (p : Bytes) : exec (.netAnvilSet h p) s = execNetAnvilSet h p s := rfl
@[simp] theorem exec_netStatus (h : Hdr) (p : Bytes) : exec (.netStatus h p) s = execNetStatus h p s := rfl
@[simp] theorem exec_netPairStatus (h : Hdr) (p : Bytes) : exec (.netPairStatus h p) s = execNetPairStatus h p s := rfl
@[simp] theorem exec_timeSet (h : Hdr) (p : Bytes) : exec (.timeSet h p) s = execTimeSet h p s := rfl
@[simp] theorem exec_timeRead (h : Hdr) (p : Bytes) : exec (.timeRead h p) s = execTimeRead h p s := rfl
@[simp] theorem exec_ptpSet (h : Hdr) (p : Bytes) : exec (.ptpSet h p) s = execPtpSet h p s := rfl
@[simp] theorem exec_ptpStatus (h : Hdr) (p : Bytes) : exec (.ptpStatus h p) s = execPtpStatus h p s := rfl
@[simp] theorem exec_ptpSamples (h : Hdr) (p : Bytes) : exec (.ptpSamples h p) s = execPtpSamples h p s := rfl
@[simp] theorem exec_tpoSet (h : Hdr) (p : Bytes) : exec (.tpoSet h p) s = execTpoSet h p s := rfl
@[simp] theorem exec_tciSet (h : Hdr) (p : Bytes) : exec (.tciSet h p) s = execTciSet h p s := rfl
@[simp] theorem exec_tciRead (h : Hdr) (p : Bytes) : exec (.tciRead h p) s = execTciRead h p s := rfl
@[simp] theorem exec_memStatus (h : Hdr) (p : Bytes) : exec (.memStatus h p) s = execMemStatus h p s := rfl
@[simp] theorem exec_memTimingSet (h : Hdr) (p : Bytes) : exec (.memTimingSet h p) s = execMemTimingSet h p s := rfl
@[simp] theorem exec_memFreq (h : Hdr) (p : Bytes) : exec (.memFreq h p) s = execMemFreq h p s := rfl
@[simp] theorem exec_memFreqDone : exec .memFreqDone s = execMemFreqDone s := rfl
@[simp] theorem exec_memTest (h : Hdr) (p : Bytes) : exec (.memTest h p) s = execMemTest h p s := rfl
@[simp] theorem exec_memTestDone (n errors first dq corrected : Nat) : exec (.memTestDone n errors first dq corrected) s = execMemTestDone n errors first dq corrected s := rfl
@[simp] theorem exec_memNbrSet (h : Hdr) (p : Bytes) : exec (.memNbrSet h p) s = execMemNbrSet h p s := rfl
@[simp] theorem exec_clkStatus (h : Hdr) (p : Bytes) : exec (.clkStatus h p) s = execClkStatus h p s := rfl
@[simp] theorem exec_clkConfig (h : Hdr) (p : Bytes) : exec (.clkConfig h p) s = execClkConfig h p s := rfl
@[simp] theorem exec_clkSelect (h : Hdr) (p : Bytes) : exec (.clkSelect h p) s = execClkSelect h p s := rfl
@[simp] theorem exec_camSet (h : Hdr) (p : Bytes) : exec (.camSet h p) s = execCamSet h p s := rfl
@[simp] theorem exec_camEnable (h : Hdr) (p : Bytes) : exec (.camEnable h p) s = execCamEnable h p s := rfl
@[simp] theorem exec_camTransitionDone (c : Nat) : exec (.camTransitionDone c) s = execCamTransitionDone c s := rfl
@[simp] theorem exec_camPipeSet (h : Hdr) (p : Bytes) : exec (.camPipeSet h p) s = execCamPipeSet h p s := rfl
@[simp] theorem exec_camStatsSet (h : Hdr) (p : Bytes) : exec (.camStatsSet h p) s = execCamStatsSet h p s := rfl
@[simp] theorem exec_camStatus (h : Hdr) (p : Bytes) : exec (.camStatus h p) s = execCamStatus h p s := rfl
@[simp] theorem exec_trimRun (h : Hdr) (p : Bytes) : exec (.trimRun h p) s = execTrimRun h p s := rfl
@[simp] theorem exec_trimJobDone (a b : List (List Int)) (cond : Nat) (failed : List Nat) : exec (.trimJobDone a b cond failed) s = execTrimJobDone a b cond failed s := rfl
@[simp] theorem exec_trimRead (h : Hdr) (p : Bytes) : exec (.trimRead h p) s = execTrimRead h p s := rfl
@[simp] theorem exec_trimWrite (h : Hdr) (p : Bytes) : exec (.trimWrite h p) s = execTrimWrite h p s := rfl
@[simp] theorem exec_thmStatus (h : Hdr) (p : Bytes) : exec (.thmStatus h p) s = execThmStatus h p s := rfl
@[simp] theorem exec_thmAck (h : Hdr) (p : Bytes) : exec (.thmAck h p) s = execThmAck h p s := rfl
@[simp] theorem exec_thmSet (h : Hdr) (p : Bytes) : exec (.thmSet h p) s = execThmSet h p s := rfl
@[simp] theorem exec_hkRead (h : Hdr) (p : Bytes) : exec (.hkRead h p) s = execHkRead h p s := rfl
@[simp] theorem exec_tinkerSwitch (h : Hdr) (p : Bytes) : exec (.tinkerSwitch h p) s = execTinkerSwitch h p s := rfl
@[simp] theorem exec_bootcfgSet (h : Hdr) (p : Bytes) : exec (.bootcfgSet h p) s = execBootcfgSet h p s := rfl
@[simp] theorem exec_ageSet (h : Hdr) (p : Bytes) : exec (.ageSet h p) s = execAgeSet h p s := rfl
@[simp] theorem exec_ageReplan (h : Hdr) (p : Bytes) : exec (.ageReplan h p) s = execAgeReplan h p s := rfl
@[simp] theorem exec_ageSample (h : Hdr) (p : Bytes) : exec (.ageSample h p) s = execAgeSample h p s := rfl
@[simp] theorem exec_ashStatus (h : Hdr) (p : Bytes) : exec (.ashStatus h p) s = execAshStatus h p s := rfl
@[simp] theorem exec_ashRead (h : Hdr) (p : Bytes) : exec (.ashRead h p) s = execAshRead h p s := rfl
@[simp] theorem exec_ashNote (h : Hdr) (p : Bytes) : exec (.ashNote h p) s = execAshNote h p s := rfl
@[simp] theorem exec_ashClear (h : Hdr) (p : Bytes) : exec (.ashClear h p) s = execAshClear h p s := rfl
@[simp] theorem exec_updateStage (h : Hdr) (p : Bytes) : exec (.updateStage h p) s = execUpdateStage h p s := rfl
@[simp] theorem exec_updateActivate (h : Hdr) (p : Bytes) : exec (.updateActivate h p) s = execUpdateActivate h p s := rfl
@[simp] theorem exec_updateStatus (h : Hdr) (p : Bytes) : exec (.updateStatus h p) s = execUpdateStatus h p s := rfl
@[simp] theorem exec_encStreamSet (h : Hdr) (p : Bytes) : exec (.encStreamSet h p) s = execEncStreamSet h p s := rfl
@[simp] theorem exec_encStreamEnable (h : Hdr) (p : Bytes) : exec (.encStreamEnable h p) s = execEncStreamEnable h p s := rfl
@[simp] theorem exec_encViewSet (h : Hdr) (p : Bytes) : exec (.encViewSet h p) s = execEncViewSet h p s := rfl
@[simp] theorem exec_encKey (h : Hdr) (p : Bytes) : exec (.encKey h p) s = execEncKey h p s := rfl
@[simp] theorem exec_encStatus (h : Hdr) (p : Bytes) : exec (.encStatus h p) s = execEncStatus h p s := rfl
@[simp] theorem exec_ingotJob (h : Hdr) (p : Bytes) : exec (.ingotJob h p) s = execIngotJob h p s := rfl
@[simp] theorem exec_ingotJobRun : exec .ingotJobRun s = execIngotJobRun s := rfl
@[simp] theorem exec_ingotFree (h : Hdr) (p : Bytes) : exec (.ingotFree h p) s = execIngotFree h p s := rfl
@[simp] theorem exec_ingotStatus (h : Hdr) (p : Bytes) : exec (.ingotStatus h p) s = execIngotStatus h p s := rfl
@[simp] theorem exec_cpWrite (first : Nat) (data : Bytes) : exec (.cpWrite first data) s = execCpWrite first data s := rfl
@[simp] theorem exec_cpRead (first clocked : Nat) : exec (.cpRead first clocked) s = execCpRead first clocked s := rfl
@[simp] theorem exec_cpStatus (first : Nat) : exec (.cpStatus first) s = execCpStatus first s := rfl
@[simp] theorem exec_cpAbandon (first : Nat) (data : Bytes) : exec (.cpAbandon first data) s = execCpAbandon first data s := rfl
@[simp] theorem exec_heldReplyEnqueue : exec .heldReplyEnqueue s = execHeldReplyEnqueue s := rfl
@[simp] theorem exec_fragmentTimeout (src ident : Nat) : exec (.fragmentTimeout src ident) s = execFragmentTimeout src ident s := rfl
@[simp] theorem exec_sessionIdleTimeout (session : Nat) : exec (.sessionIdleTimeout session) s = execSessionIdleTimeout session s := rfl
@[simp] theorem exec_authOpenTimeout (session : Nat) : exec (.authOpenTimeout session) s = execAuthOpenTimeout session s := rfl
@[simp] theorem exec_flitGroupReplay (link : Nat) (again : Bool) : exec (.flitGroupReplay link again) s = execFlitGroupReplay link again s := rfl
@[simp] theorem exec_fabricHeartbeat (link : Nat) : exec (.fabricHeartbeat link) s = execFabricHeartbeat link s := rfl
@[simp] theorem exec_fabricLinkDown (link : Nat) : exec (.fabricLinkDown link) s = execFabricLinkDown link s := rfl
@[simp] theorem exec_fabricLinkRestore (link : Nat) : exec (.fabricLinkRestore link) s = execFabricLinkRestore link s := rfl
@[simp] theorem exec_hobWatchdogTimeout (hob : Nat) : exec (.hobWatchdogTimeout hob) s = execHobWatchdogTimeout hob s := rfl
@[simp] theorem exec_hobDieFail (hob : Nat) : exec (.hobDieFail hob) s = execHobDieFail hob s := rfl
@[simp] theorem exec_viewReplace : exec .viewReplace s = execViewReplace s := rfl
@[simp] theorem exec_cellCheckFail (die g c cause : Nat) : exec (.cellCheckFail die g c cause) s = execCellCheckFail die g c cause s := rfl
@[simp] theorem exec_ashSummary : exec .ashSummary s = execAshSummary s := rfl
@[simp] theorem exec_damperFwdLoss (f : Nat) : exec (.damperFwdLoss f) s = execDamperFwdLoss f s := rfl
@[simp] theorem exec_damperFwdRestore (f : Nat) : exec (.damperFwdRestore f) s = execDamperFwdRestore f s := rfl
@[simp] theorem exec_damperLaneLoss (lane : Nat) : exec (.damperLaneLoss lane) s = execDamperLaneLoss lane s := rfl
@[simp] theorem exec_laneReverseDone : exec .laneReverseDone s = execLaneReverseDone s := rfl
@[simp] theorem exec_creditRegrant (f : Nat) : exec (.creditRegrant f) s = execCreditRegrant f s := rfl
@[simp] theorem exec_timeFwdSend : exec .timeFwdSend s = execTimeFwdSend s := rfl
@[simp] theorem exec_timeFwd (die w0 w1 : Nat) (chk : MsgCheck) : exec (.timeFwd die w0 w1 chk) s = execTimeFwd die w0 w1 chk s := rfl
@[simp] theorem exec_flueSynthHoldover (die : Nat) : exec (.flueSynthHoldover die) s = execFlueSynthHoldover die s := rfl
@[simp] theorem exec_abandon (link frame : Nat) : exec (.abandon link frame) s = execAbandon link frame s := rfl
@[simp] theorem exec_damperCommitPart (die : Nat) (words : List Nat) (seq : Nat) (chk : MsgCheck) : exec (.damperCommitPart die words seq chk) s = execDamperCommitPart die words seq chk s := rfl
@[simp] theorem exec_damperRegWrite (die addr value seq : Nat) (chk : MsgCheck) : exec (.damperRegWrite die addr value seq chk) s = execDamperRegWrite die addr value seq chk s := rfl
@[simp] theorem exec_damperRegRead (die addr seq : Nat) (chk : MsgCheck) : exec (.damperRegRead die addr seq chk) s = execDamperRegRead die addr seq chk s := rfl
@[simp] theorem exec_pixelRun (die : Nat) (words : List Nat) (chk : MsgCheck) : exec (.pixelRun die words chk) s = execPixelRun die words chk s := rfl
@[simp] theorem exec_bulkWrite (die addr count : Nat) (words : List Nat) (seq : Nat) (chk : MsgCheck) : exec (.bulkWrite die addr count words seq chk) s = execBulkWrite die addr count words seq chk s := rfl
@[simp] theorem exec_pfail (f cause frame : Nat) (chk : MsgCheck) : exec (.pfail f cause frame chk) s = execPfail f cause frame chk s := rfl
@[simp] theorem exec_credit (f : Nat) (words : List Nat) (chk : MsgCheck) : exec (.credit f words chk) s = execCredit f words chk s := rfl
@[simp] theorem exec_frameReport (f : Nat) (words : List Nat) (chk : MsgCheck) : exec (.frameReport f words chk) s = execFrameReport f words chk s := rfl
@[simp] theorem exec_event (f source : Nat) (chk : MsgCheck) : exec (.event f source chk) s = execEvent f source chk s := rfl
@[simp] theorem exec_regReply (f word : Nat) (chk : MsgCheck) : exec (.regReply f word chk) s = execRegReply f word chk s := rfl
@[simp] theorem exec_telemetry (f : Nat) (words : List Nat) (chk : MsgCheck) : exec (.telemetry f words chk) s = execTelemetry f words chk s := rfl
@[simp] theorem exec_returnHeartbeatSend : exec .returnHeartbeatSend s = execReturnHeartbeatSend s := rfl
@[simp] theorem exec_damperReplyTimeout (die ty seq : Nat) : exec (.damperReplyTimeout die ty seq) s = execDamperReplyTimeout die ty seq s := rfl
@[simp] theorem exec_rtpPacketRx (slot src ts : Nat) (gap mark donl : Bool) (data : Bytes) : exec (.rtpPacketRx slot src ts gap mark donl data) s = execRtpPacketRx slot src ts gap mark donl data s := rfl
@[simp] theorem exec_pathPacketRx (slot src path pt ssrc seq ts : Nat) (mark donl : Bool) (data : Bytes) : exec (.pathPacketRx slot src path pt ssrc seq ts mark donl data) s = execPathPacketRx slot src path pt ssrc seq ts mark donl data s := rfl
@[simp] theorem exec_mergeWindowSweep : exec .mergeWindowSweep s = execMergeWindowSweep s := rfl
@[simp] theorem exec_pathDown (slot src path : Nat) : exec (.pathDown slot src path) s = execPathDown slot src path s := rfl
@[simp] theorem exec_ssrcTimeout (slot src : Nat) : exec (.ssrcTimeout slot src) s = execSsrcTimeout slot src s := rfl
@[simp] theorem exec_sliceSegmentParse (hob engine : Nat) (x : SliceInfo) : exec (.sliceSegmentParse hob engine x) s = execSliceSegmentParse hob engine x s := rfl
@[simp] theorem exec_ctuRowReconstruct (hob engine : Nat) : exec (.ctuRowReconstruct hob engine) s = execCtuRowReconstruct hob engine s := rfl
@[simp] theorem exec_accessUnitClose (slot src : Nat) (poc : Int) (total rows : Nat) : exec (.accessUnitClose slot src poc total rows) s = execAccessUnitClose slot src poc total rows s := rfl
@[simp] theorem exec_uncompressedPictureClose (slot src : Nat) : exec (.uncompressedPictureClose slot src) s = execUncompressedPictureClose slot src s := rfl
@[simp] theorem exec_pictureLate (slot view : Nat) (depth : Bool) : exec (.pictureLate slot view depth) s = execPictureLate slot view depth s := rfl
@[simp] theorem exec_pickTime (frame : Nat) : exec (.pickTime frame) s = execPickTime frame s := rfl
@[simp] theorem exec_stripDeal (region view idx frame : Nat) : exec (.stripDeal region view idx frame) s = execStripDeal region view idx frame s := rfl
@[simp] theorem exec_stripBegin (region view idx frame : Nat) : exec (.stripBegin region view idx frame) s = execStripBegin region view idx frame s := rfl
@[simp] theorem exec_stripComplete (region view idx frame : Nat) (badViews badLayers : List Nat) : exec (.stripComplete region view idx frame badViews badLayers) s = execStripComplete region view idx frame badViews badLayers s := rfl
@[simp] theorem exec_stripLineSend (region view idx frame : Nat) : exec (.stripLineSend region view idx frame) s = execStripLineSend region view idx frame s := rfl
@[simp] theorem exec_stripRescue (region view idx frame : Nat) : exec (.stripRescue region view idx frame) s = execStripRescue region view idx frame s := rfl
@[simp] theorem exec_stripDeadlineMiss (region view idx frame : Nat) : exec (.stripDeadlineMiss region view idx frame) s = execStripDeadlineMiss region view idx frame s := rfl
@[simp] theorem exec_redoneStripComplete (badViews badLayers : List Nat) : exec (.redoneStripComplete badViews badLayers) s = execRedoneStripComplete badViews badLayers s := rfl
@[simp] theorem exec_excusedLineSend (region view idx frame : Nat) : exec (.excusedLineSend region view idx frame) s = execExcusedLineSend region view idx frame s := rfl
@[simp] theorem exec_monitorStrip (slot idx die grate : Nat) (badViews badLayers : List Nat) : exec (.monitorStrip slot idx die grate badViews badLayers) s = execMonitorStrip slot idx die grate badViews badLayers s := rfl
@[simp] theorem exec_layerRelease (layer : Nat) : exec (.layerRelease layer) s = execLayerRelease layer s := rfl
@[simp] theorem exec_bindingPoint : exec .bindingPoint s = execBindingPoint s := rfl
@[simp] theorem exec_frameStart : exec .frameStart s = execFrameStart s := rfl
@[simp] theorem exec_latchLine (f : Nat) : exec (.latchLine f) s = execLatchLine f s := rfl
@[simp] theorem exec_lineSend (link line : Nat) : exec (.lineSend link line) s = execLineSend link line s := rfl
@[simp] theorem exec_fsyncInEdge (falling : Bool) : exec (.fsyncInEdge falling) s = execFsyncInEdge falling s := rfl
@[simp] theorem exec_fsyncLost : exec .fsyncLost s = execFsyncLost s := rfl
@[simp] theorem exec_filmFrameStart : exec .filmFrameStart s = execFilmFrameStart s := rfl
@[simp] theorem exec_filmPulseEnd : exec .filmPulseEnd s = execFilmPulseEnd s := rfl
@[simp] theorem exec_powerFail (f cause : Nat) : exec (.powerFail f cause) s = execPowerFail f cause s := rfl
@[simp] theorem exec_parkStep (f : Nat) : exec (.parkStep f) s = execParkStep f s := rfl
@[simp] theorem exec_powerReturn (f : Nat) : exec (.powerReturn f) s = execPowerReturn f s := rfl
@[simp] theorem exec_slotStart : exec .slotStart s = execSlotStart s := rfl
@[simp] theorem exec_lampTransaction (seg status value : Nat) : exec (.lampTransaction seg status value) s = execLampTransaction seg status value s := rfl
@[simp] theorem exec_lampReplyTimeout (seg : Nat) (crc : Bool) : exec (.lampReplyTimeout seg crc) s = execLampReplyTimeout seg crc s := rfl
@[simp] theorem exec_lostNodePoll (seg addr : Nat) (reply : BusReply) : exec (.lostNodePoll seg addr reply) s = execLostNodePoll seg addr reply s := rfl
@[simp] theorem exec_lampEnumerate (seg : Nat) (found : List (Nat × Nat × Nat)) : exec (.lampEnumerate seg found) s = execLampEnumerate seg found s := rfl
@[simp] theorem exec_lampWritesDone : exec .lampWritesDone s = execLampWritesDone s := rfl
@[simp] theorem exec_bellowsTick (f : Nat) (frame : Bool) (samples : List AdcSample) : exec (.bellowsTick f frame samples) s = execBellowsTick f frame samples s := rfl
@[simp] theorem exec_markerRound (link : Nat) : exec (.markerRound link) s = execMarkerRound link s := rfl
@[simp] theorem exec_laneLoss (lane : Nat) : exec (.laneLoss lane) s = execLaneLoss lane s := rfl
@[simp] theorem exec_hello (link id caps : Nat) : exec (.hello link id caps) s = execHello link id caps s := rfl
@[simp] theorem exec_backStatus (link locked blocks : Nat) (deskewed : Bool) (shErr eyeH eyeV bad : Nat) : exec (.backStatus link locked blocks deskewed shErr eyeH eyeV bad) s = execBackStatus link locked blocks deskewed shErr eyeH eyeV bad s := rfl
@[simp] theorem exec_eqReq (link lane : Nat) (done : Bool) (pre main post : Nat) : exec (.eqReq link lane done pre main post) s = execEqReq link lane done pre main post s := rfl
@[simp] theorem exec_lstat (die : Nat) (locked : Nat) (order : Option Nat) : exec (.lstat die locked order) s = execLstat die locked order s := rfl
@[simp] theorem exec_trainPhaseAdvance (link : Nat) : exec (.trainPhaseAdvance link) s = execTrainPhaseAdvance link s := rfl
@[simp] theorem exec_linkPhaseTimeout (link : Nat) : exec (.linkPhaseTimeout link) s = execLinkPhaseTimeout link s := rfl
@[simp] theorem exec_listenRetry (link : Nat) : exec (.listenRetry link) s = execListenRetry link s := rfl
@[simp] theorem exec_linkTransitionDone (link : Nat) : exec (.linkTransitionDone link) s = execLinkTransitionDone link s := rfl
@[simp] theorem exec_laneRetrain (link lane : Nat) (pass : Bool) : exec (.laneRetrain link lane pass) s = execLaneRetrain link lane pass s := rfl
@[simp] theorem exec_linkStartupSequence : exec .linkStartupSequence s = execLinkStartupSequence s := rfl
@[simp] theorem exec_sleepBurst (link : Nat) : exec (.sleepBurst link) s = execSleepBurst link s := rfl
@[simp] theorem exec_ethFrameRx (iface : Nat) (fcs : Bool) (corrected failed : Nat) (frame : Bytes) : exec (.ethFrameRx iface fcs corrected failed frame) s = execEthFrameRx iface fcs corrected failed frame s := rfl
@[simp] theorem exec_portLinkChange (iface : Nat) (up : Bool) : exec (.portLinkChange iface up) s = execPortLinkChange iface up s := rfl
@[simp] theorem exec_ptpAnnounceRx (iface port pri1 cls acc var pri2 gm steps domain : Nat) (logInt : Int) (tlv : Bool) (addr : Nat) : exec (.ptpAnnounceRx iface port pri1 cls acc var pri2 gm steps domain logInt tlv addr) s = execPtpAnnounceRx iface port pri1 cls acc var pri2 gm steps domain logInt tlv addr s := rfl
@[simp] theorem exec_ptpSyncRx (iface port domain : Nat) (logInt : Int) (two : Bool) (seq t1 : Nat) : exec (.ptpSyncRx iface port domain logInt two seq t1) s = execPtpSyncRx iface port domain logInt two seq t1 s := rfl
@[simp] theorem exec_delayRespRx (iface port domain seq t4 : Nat) : exec (.delayRespRx iface port domain seq t4) s = execDelayRespRx iface port domain seq t4 s := rfl
@[simp] theorem exec_delayReqTimeout : exec .delayReqTimeout s = execDelayReqTimeout s := rfl
@[simp] theorem exec_announceTimeout (iface port : Nat) : exec (.announceTimeout iface port) s = execAnnounceTimeout iface port s := rfl
@[simp] theorem exec_holdLimitExpire : exec .holdLimitExpire s = execHoldLimitExpire s := rfl
@[simp] theorem exec_ppsInEdge : exec .ppsInEdge s = execPpsInEdge s := rfl
@[simp] theorem exec_ppsMissing : exec .ppsMissing s = execPpsMissing s := rfl
@[simp] theorem exec_captureEdge (pin : Nat) (rising : Bool) : exec (.captureEdge pin rising) s = execCaptureEdge pin rising s := rfl
@[simp] theorem exec_tpoFire (pin : Nat) : exec (.tpoFire pin) s = execTpoFire pin s := rfl
@[simp] theorem exec_ptpAdjGo (base frac : Nat) : exec (.ptpAdjGo base frac) s = execPtpAdjGo base frac s := rfl
@[simp] theorem exec_ptpIncrWrite (base ns : Nat) : exec (.ptpIncrWrite base ns) s = execPtpIncrWrite base ns s := rfl
@[simp] theorem exec_ptpTimeLatchRead (base : Nat) : exec (.ptpTimeLatchRead base) s = execPtpTimeLatchRead base s := rfl
@[simp] theorem exec_twinHeartbeatRx (src role stack frame start : Nat) (sigs : List Nat) : exec (.twinHeartbeatRx src role stack frame start sigs) s = execTwinHeartbeatRx src role stack frame start sigs s := rfl
@[simp] theorem exec_twinHeartbeatMissing : exec .twinHeartbeatMissing s = execTwinHeartbeatMissing s := rfl
@[simp] theorem exec_memRequest (n line : Nat) (write : Option (Nat × Nat)) (row : Option Nat) (err synd inflight : Nat) : exec (.memRequest n line write row err synd inflight) s = execMemRequest n line write row err synd inflight s := rfl
@[simp] theorem exec_scrubRead (n line err synd : Nat) (last : Bool) : exec (.scrubRead n line err synd last) s = execScrubRead n line err synd last s := rfl
@[simp] theorem exec_memRefresh (n : Nat) : exec (.memRefresh n) s = execMemRefresh n s := rfl
@[simp] theorem exec_mr4Poll (n mr4 : Nat) (hot : Bool) : exec (.mr4Poll n mr4 hot) s = execMr4Poll n mr4 hot s := rfl
@[simp] theorem exec_actWindowStart (n : Nat) : exec (.actWindowStart n) s = execActWindowStart n s := rfl
@[simp] theorem exec_memChannelFreqChange (n : Nat) : exec (.memChannelFreqChange n) s = execMemChannelFreqChange n s := rfl
@[simp] theorem exec_dqsRetrack (n : Nat) (ok : Bool) : exec (.dqsRetrack n ok) s = execDqsRetrack n ok s := rfl
@[simp] theorem exec_memRequestTimeout (n : Nat) : exec (.memRequestTimeout n) s = execMemRequestTimeout n s := rfl
@[simp] theorem exec_channelFail (n cause : Nat) : exec (.channelFail n cause) s = execChannelFail n cause s := rfl
@[simp] theorem exec_bufferReplace (n : Nat) : exec (.bufferReplace n) s = execBufferReplace n s := rfl
@[simp] theorem exec_mapMirrorRecreate (hob : Nat) : exec (.mapMirrorRecreate hob) s = execMapMirrorRecreate hob s := rfl
@[simp] theorem exec_refLoss (ref : Nat) : exec (.refLoss ref) s = execRefLoss ref s := rfl
@[simp] theorem exec_refValid (ref : Nat) : exec (.refValid ref) s = execRefValid ref s := rfl
@[simp] theorem exec_mainLockLoss (die : Nat) : exec (.mainLockLoss die) s = execMainLockLoss die s := rfl
@[simp] theorem exec_pllLockAcquire (die pll : Nat) : exec (.pllLockAcquire die pll) s = execPllLockAcquire die pll s := rfl
@[simp] theorem exec_mainReturn (die : Nat) : exec (.mainReturn die) s = execMainReturn die s := rfl
@[simp] theorem exec_spareLockLoss (die : Nat) : exec (.spareLockLoss die) s = execSpareLockLoss die s := rfl
@[simp] theorem exec_camFrameStart (c : Nat) : exec (.camFrameStart c) s = execCamFrameStart c s := rfl
@[simp] theorem exec_camLineRx (c vc dtype hdr : Nat) (crcOk : Bool) (line : List Nat) : exec (.camLineRx c vc dtype hdr crcOk line) s = execCamLineRx c vc dtype hdr crcOk line s := rfl
@[simp] theorem exec_camFrameEnd (c : Nat) : exec (.camFrameEnd c) s = execCamFrameEnd c s := rfl
@[simp] theorem exec_camFrameTimeout (c : Nat) : exec (.camFrameTimeout c) s = execCamFrameTimeout c s := rfl
@[simp] theorem exec_camLost (c : Nat) : exec (.camLost c) s = execCamLost c s := rfl
@[simp] theorem exec_pipeLineTake : exec .pipeLineTake s = execPipeLineTake s := rfl
@[simp] theorem exec_cciWrite (c : Nat) (ack : Bool) : exec (.cciWrite c ack) s = execCciWrite c ack s := rfl
@[simp] theorem exec_cciListTimeout (c : Nat) : exec (.cciListTimeout c) s = execCciListTimeout c s := rfl
@[simp] theorem exec_tinkerCoreSwitch (cause : Nat) : exec (.tinkerCoreSwitch cause) s = execTinkerCoreSwitch cause s := rfl
@[simp] theorem exec_coreSelftestDone (pass : Bool) : exec (.coreSelftestDone pass) s = execCoreSelftestDone pass s := rfl
@[simp] theorem exec_stateTableCheck (ok : Bool) : exec (.stateTableCheck ok) s = execStateTableCheck ok s := rfl
@[simp] theorem exec_hkRoundEnd : exec .hkRoundEnd s = execHkRoundEnd s := rfl
@[simp] theorem exec_flueThermalShutdown (f : Nat) : exec (.flueThermalShutdown f) s = execFlueThermalShutdown f s := rfl
@[simp] theorem exec_ashAppend (a b : Bool) : exec (.ashAppend a b) s = execAshAppend a b s := rfl
@[simp] theorem exec_ashScan : exec .ashScan s = execAshScan s := rfl
@[simp] theorem exec_ageSampleTick (pairs : List Nat) (scan : Option (Nat × Nat)) (day : Bool) : exec (.ageSampleTick pairs scan day) s = execAgeSampleTick pairs scan day s := rfl
@[simp] theorem exec_replanRun (nack : List Nat) : exec (.replanRun nack) s = execReplanRun nack s := rfl
@[simp] theorem exec_updateSwap : exec .updateSwap s = execUpdateSwap s := rfl
@[simp] theorem exec_updateActivateDone : exec .updateActivateDone s = execUpdateActivateDone s := rfl
@[simp] theorem exec_irqDoorbell (source : Nat) : exec (.irqDoorbell source) s = execIrqDoorbell source s := rfl
@[simp] theorem exec_irqClaim : exec .irqClaim s = execIrqClaim s := rfl
@[simp] theorem exec_irqComplete (source : Nat) (nocause : Bool) : exec (.irqComplete source nocause) s = execIrqComplete source nocause s := rfl
@[simp] theorem exec_groupHoldoffEnd (group : Nat) : exec (.groupHoldoffEnd group) s = execGroupHoldoffEnd group s := rfl
@[simp] theorem exec_irqWake : exec .irqWake s = execIrqWake s := rfl
@[simp] theorem exec_encPictureTime : exec .encPictureTime s = execEncPictureTime s := rfl
@[simp] theorem exec_encRowCode (slot size : Nat) (cheap : List Nat) (blocks : List PredBlock) : exec (.encRowCode slot size cheap blocks) s = execEncRowCode slot size cheap blocks s := rfl
@[simp] theorem exec_encSliceSend (slot : Nat) (nals : List Bytes) : exec (.encSliceSend slot nals) s = execEncSliceSend slot nals s := rfl
@[simp] theorem exec_encTransitionDone (slot : Nat) : exec (.encTransitionDone slot) s = execEncTransitionDone slot s := rfl
@[simp] theorem exec_resetRelease : exec .resetRelease s = execResetRelease s := rfl
@[simp] theorem exec_flueResetRelease : exec .flueResetRelease s = execFlueResetRelease s := rfl
@[simp] theorem exec_startupStageComplete (stage : Nat) (chans vout : List (Nat × Nat)) : exec (.startupStageComplete stage chans vout) s = execStartupStageComplete stage chans vout s := rfl
@[simp] theorem exec_damperHalfJoin (f : Nat) : exec (.damperHalfJoin f) s = execDamperHalfJoin f s := rfl
@[simp] theorem exec_railComparatorTrip (rail : Nat) (high : Bool) : exec (.railComparatorTrip rail high) s = execRailComparatorTrip rail high s := rfl
@[simp] theorem exec_pwrSafeWrite (value : Nat) : exec (.pwrSafeWrite value) s = execPwrSafeWrite value s := rfl
@[simp] theorem exec_pwrShutdownWrite (f value : Nat) : exec (.pwrShutdownWrite f value) s = execPwrShutdownWrite f value s := rfl
@[simp] theorem exec_pwrFlueResetWrite (f value : Nat) : exec (.pwrFlueResetWrite f value) s = execPwrFlueResetWrite f value s := rfl
@[simp] theorem exec_registerWrite (addr value : Nat) : exec (.registerWrite addr value) s = execRegisterWrite addr value s := rfl
@[simp] theorem exec_resetAssert : exec .resetAssert s = execResetAssert s := rfl
@[simp] theorem exec_flueResetAssert (powerOn : Bool) : exec (.flueResetAssert powerOn) s = execFlueResetAssert powerOn s := rfl
@[simp] theorem exec_housekeepingSample (ch raw : Nat) : exec (.housekeepingSample ch raw) s = execHousekeepingSample ch raw s := rfl
@[simp] theorem exec_ptpFollowUpRx (iface port domain seq t1 : Nat) : exec (.ptpFollowUpRx iface port domain seq t1) s = execPtpFollowUpRx iface port domain seq t1 s := rfl
@[simp] theorem exec_delayReqSend : exec .delayReqSend s = execDelayReqSend s := rfl
@[simp] theorem exec_ashClearDone (ok : Bool) : exec (.ashClearDone ok) s = execAshClearDone ok s := rfl
@[simp] theorem exec_updateStageDone : exec .updateStageDone s = execUpdateStageDone s := rfl
@[simp] theorem exec_standbyPatchReady (ok : Bool) : exec (.standbyPatchReady ok) s = execStandbyPatchReady ok s := rfl
@[simp] theorem exec_tinkerDomainStop : exec .tinkerDomainStop s = execTinkerDomainStop s := rfl

end Sys2Proof.Machine
end

