-- ==== Sys2Proof/Laws/Gate.lean ====
section
/-! SUPPORT. What the shared shapes of a command and of an event can do: each answers a next state, and what it leaves as it is. -/

namespace Sys2Proof.Machine

/-- An Anvil command that begins ends with its reply. -/
theorem anvil_of_begins {sp : OpSpec} {h : Hdr} {p : Bytes} {i : Instr} {body : Cmd → Dev → Dev × Rep} {s : State} {d : Dev} {c : Cmd}
    (hg : gate sp h p i s = (d, some c)) :
    anvil sp h p i body s = .next (s.withDev (finish c (body c d).1 (body c d).2)) := by
  simp [anvil, hg, State.withDev]

/-- An Anvil command that does not begin leaves what the gate answered. -/
theorem anvil_of_refused {sp : OpSpec} {h : Hdr} {p : Bytes} {i : Instr} {body : Cmd → Dev → Dev × Rep} {s : State} {d : Dev}
    (hg : gate sp h p i s = (d, none)) : anvil sp h p i body s = .next (s.withDev d) := by
  simp [anvil, hg, State.withDev]

theorem anvilH_of_begins {sp : OpSpec} {h : Hdr} {p : Bytes} {i : Instr} {body : Cmd → Heap → Dev → Heap × Dev × Rep} {s : State}
    {d : Dev} {c : Cmd} (hg : gate sp h p i s = (d, some c)) :
    anvilH sp h p i body s = .next (s.withBoth ((body c s.heap d).1, finish c (body c s.heap d).2.1 (body c s.heap d).2.2)) := by
  simp [anvilH, hg, State.withBoth]

theorem anvilH_of_refused {sp : OpSpec} {h : Hdr} {p : Bytes} {i : Instr} {body : Cmd → Heap → Dev → Heap × Dev × Rep} {s : State}
    {d : Dev} (hg : gate sp h p i s = (d, none)) : anvilH sp h p i body s = .next (s.withDev d) := by
  simp [anvilH, hg, State.withDev]

/-- A command that may begin passes the gate, as `begunCmd` on `begunDev`. -/
theorem gate_of_mayBegin {i : Instr} {sp : OpSpec} {h : Hdr} {s : State} (hs : opSpec i = some sp) (hh : i.hdr? = some h)
    (hm : mayBegin i s = true) : gate sp h i.params i s = (begunDev i s, some (begunCmd i s)) := by
  have e : hdrOf i = h := by simp [hdrOf, hh]
  have o : opOf i = sp.op := by simp [opOf, hs]
  simp only [mayBegin, hs, e, Bool.and_eq_true, Bool.not_eq_true', decide_eq_true_eq, Bool.or_eq_true, Option.isNone_iff_eq_none] at hm
  obtain ⟨⟨⟨⟨⟨⟨⟨⟨⟨⟨⟨⟨⟨⟨⟨⟨⟨h1, h2⟩, h3⟩, h4⟩, h5⟩, h6⟩, h7⟩, h8⟩, h9⟩, ha⟩, hb⟩, hc⟩, hd⟩, he⟩, hf⟩, hg⟩, hi⟩, hj⟩ := hm
  have h7' : ¬(¬s.dev.pwr.ready = true ∧ ¬(sp.op = 1 ∨ sp.op = 2 ∨ sp.op = 3)) := by
    rcases h7 with ((h | h) | h) | h <;> simp [h]
  have body : (takenDev i s).begin s sp i (begunCmd i s) = (begunDev i s, some (begunCmd i s)) := by
    have w : (begunCmd i s).who = senderOf h := by simp [begunCmd, e]
    have w' : (begunCmd i s).h = h := by simp [begunCmd, e]
    have hp : (begunDev i s).pwr = s.dev.pwr := by simp only [begunDev, takenDev, heardDev]; split <;> rfl
    have hm : (begunDev i s).mode = s.dev.mode := by simp only [begunDev, takenDev, heardDev]; split <;> rfl
    have hl : ¬(senderOf h < 5 ∧ ((takenDev i s).inFlightOf (senderOf h)).length ≥ if senderOf h = 4 then 16 else 256) := by
      intro ⟨x, y⟩; rcases hc with hc | hc <;> omega
    have hb' : { takenDev i s with anvil := { (takenDev i s).anvil with inFlight := (takenDev i s).anvil.inFlight ++ [begunCmd i s] } }
        = begunDev i s := rfl
    have hq : (begunCmd i s).p = i.params := rfl
    unfold Dev.begin
    simp only [w, w', hl, if_false, hb', hd, he, Bool.and_false, Bool.false_eq_true]
    simp only [Dev.checks, hd, w', hq, hf, hg, hp, hm, hi, hj, not_true_eq_false, if_false, Bool.false_eq_true]
  have hw : gate sp h i.params i s = (heardDev i s).seqStep s sp i (begunCmd i s) := by
    have hc' : begunCmd i s = { who := senderOf h, epoch := (s.dev.sess (senderOf h)).epoch, h := h, op := sp.op, p := i.params } := by
      simp only [begunCmd, e, o]
    have hh' : heardDev i s = (if senderOf h < 4 then s.dev.setSess (senderOf h) { s.dev.sess (senderOf h) with lastValid := s.dev.stamp, usable := true } else s.dev) := by
      simp only [heardDev, e]
    have he' : ((heardDev i s).sess (senderOf h)).epoch = (s.dev.sess (senderOf h)).epoch := by
      rw [hh']; split
      · simp only [Dev.sess, Dev.setSess, List.getD_eq_getElem?_getD, List.getElem?_set, if_true]
        by_cases hx : senderOf h < s.dev.anvil.sess.length <;> simp [hx]
      · rfl
    unfold gate
    simp only [h1, h2, h4, h5, h6, h7', h8, h9, gt_iff_lt, Nat.not_lt.mpr h3, if_false, not_true_eq_false, ne_eq, Bool.false_eq_true, ← hh', ha, he', ← hc']
  rw [hw]
  unfold Dev.seqStep
  have w : (begunCmd i s).who = senderOf h := by simp [begunCmd, e]
  have w' : (begunCmd i s).h = h := by simp [begunCmd, e]
  simp only [w, w']
  by_cases hx : senderOf h > 3
  · simp only [hx, if_true]
    have : heardDev i s = takenDev i s := by simp [takenDev, e, Nat.not_lt.mpr hx]
    rw [this]; exact body
  · have lt : senderOf h < 4 := by omega
    simp only [hx, if_false]
    rcases hb with (hb | hb) | hb
    · exact absurd hb hx
    · have hb' := hb
      simp only [seqNew, e, decide_eq_true_eq] at hb'
      rw [hb']
      have : takenDev i s = (heardDev i s).setSess (senderOf h) (((heardDev i s).sess (senderOf h)).accept h.seq true) := by
        simp only [takenDev, e, lt, if_true, hb]
      rw [this] at body; exact body
    · have hb' := hb
      simp only [seqLate, e, decide_eq_true_eq] at hb'
      have hn : seqNew i s = false := by simp [seqNew, e, hb']
      rw [hb']
      have : takenDev i s = (heardDev i s).setSess (senderOf h) (((heardDev i s).sess (senderOf h)).accept h.seq false) := by
        simp only [takenDev, e, lt, if_true, hn]
      rw [this] at body; exact body

/-- An event answers the device changed. -/
theorem event_next (f : Dev → Dev) (s : State) : event f s = .next (s.withDev (f s.dev)) := rfl

theorem eventH_next (f : Heap → Dev → Heap × Dev) (s : State) : eventH f s = .next (s.withBoth (f s.heap s.dev)) := rfl

/-- An Anvil command answers a next state with heap and queue as they were. -/
theorem anvil_total (sp : OpSpec) (h : Hdr) (p : Bytes) (i : Instr) (body : Cmd → Dev → Dev × Rep) (s : State) :
    ∃ t, anvil sp h p i body s = .next t ∧ t.pending = s.pending ∧ t.heap = s.heap := by
  unfold anvil; split <;> exact ⟨_, rfl, rfl, rfl⟩

theorem anvilH_total (sp : OpSpec) (h : Hdr) (p : Bytes) (i : Instr) (body : Cmd → Heap → Dev → Heap × Dev × Rep) (s : State) :
    ∃ t, anvilH sp h p i body s = .next t ∧ t.pending = s.pending := by
  unfold anvilH; split <;> exact ⟨_, rfl, rfl⟩

/-- The heap after an Anvil command that changes it: as it was, or as its effect leaves it. -/
theorem anvilH_heap {sp : OpSpec} {h : Hdr} {p : Bytes} {i : Instr} {body : Cmd → Heap → Dev → Heap × Dev × Rep} {s t : State}
    (he : anvilH sp h p i body s = .next t) : t.heap = s.heap ∨ ∃ c d, t.heap = (body c s.heap d).1 := by
  unfold anvilH at he
  split at he
  · cases he; exact .inl rfl
  · cases he; exact .inr ⟨_, _, rfl⟩

end Sys2Proof.Machine
end

