-- ==== Sys2Proof/Laws/Heap.lean ====
section
/-! SUPPORT. The laws of the object heap's bytes: a byte written reads back, every other byte is as it was, and every operation
keeps the canonical form. -/

namespace Sys2Proof.Machine

/-- Every address listed is at least `k`. -/
def cellsFrom (l : List Host.Cell) (k : Nat) : Prop := ∀ e ∈ l, k ≤ e.1

theorem cellsWf_tail {a : Nat} {v : Byte} {r : List Host.Cell} (h : cellsWf ((a, v) :: r) = true) : cellsWf r = true := by
  simp only [cellsWf, Bool.and_eq_true] at h; exact h.2

theorem cellsWf_head {a : Nat} {v : Byte} {r : List Host.Cell} (h : cellsWf ((a, v) :: r) = true) : v ≠ 0 := by
  simp only [cellsWf, Bool.and_eq_true, decide_eq_true_eq] at h; exact h.1.1

/-- In canonical form the addresses after the first are above it. -/
theorem cellsWf_above {a : Nat} {v : Byte} {r : List Host.Cell} (h : cellsWf ((a, v) :: r) = true) : cellsFrom r (a + 1) := by
  induction r generalizing a v with
  | nil => intro e he; cases he
  | cons x r ih =>
    obtain ⟨b, w⟩ := x
    have hb : a < b := by simp only [cellsWf, Bool.and_eq_true, decide_eq_true_eq] at h; exact h.1.2
    intro e he
    rcases List.mem_cons.mp he with rfl | he
    · exact hb
    · have := ih (cellsWf_tail h) e he; omega

theorem cellsWf_cons {a : Nat} {v : Byte} {r : List Host.Cell} (hv : v ≠ 0) (hf : cellsFrom r (a + 1)) (hr : cellsWf r = true) :
    cellsWf ((a, v) :: r) = true := by
  cases r with
  | nil => simpa [cellsWf] using hv
  | cons x r =>
    obtain ⟨b, w⟩ := x
    have hb : a < b := hf (b, w) (List.mem_cons_self ..)
    simp only [cellsWf, Bool.and_eq_true, decide_eq_true_eq]
    simp only [cellsWf, Bool.and_eq_true, decide_eq_true_eq] at hr
    exact ⟨⟨hv, hb⟩, hr⟩

/-- The addresses after a write are those before it and the one written. -/
theorem cellSet_mem {l : List Host.Cell} {k : Nat} {v : Byte} {e : Host.Cell} (h : e ∈ cellSet l k v) : e ∈ l ∨ e.1 = k := by
  induction l with
  | nil =>
    simp only [cellSet] at h
    split at h
    · cases h
    · rcases List.mem_singleton.mp h with rfl; exact .inr rfl
  | cons x r ih =>
    obtain ⟨a, w⟩ := x
    simp only [cellSet] at h
    split at h
    · split at h
      · exact .inl h
      · rcases List.mem_cons.mp h with rfl | h
        · exact .inr rfl
        · exact .inl h
    · split at h
      · split at h
        · exact .inl (List.mem_cons_of_mem _ h)
        · rcases List.mem_cons.mp h with rfl | h
          · exact .inr rfl
          · exact .inl (List.mem_cons_of_mem _ h)
      · rcases List.mem_cons.mp h with rfl | h
        · exact .inl (List.mem_cons_self ..)
        · rcases ih h with h | h
          · exact .inl (List.mem_cons_of_mem _ h)
          · exact .inr h

/-- A write keeps the canonical form. -/
theorem cellSet_wf {l : List Host.Cell} (k : Nat) (v : Byte) (h : cellsWf l = true) : cellsWf (cellSet l k v) = true := by
  induction l with
  | nil =>
    simp only [cellSet]
    split
    · rfl
    · next hv => simpa [cellsWf] using hv
  | cons x r ih =>
    obtain ⟨a, w⟩ := x
    simp only [cellSet]
    split
    · next hk =>
      split
      · exact h
      · next hv =>
        refine cellsWf_cons hv ?_ h
        intro e he
        rcases List.mem_cons.mp he with rfl | he
        · exact hk
        · have := cellsWf_above h e he; omega
    · split
      · next hk =>
        split
        · exact cellsWf_tail h
        · next hv =>
          refine cellsWf_cons hv ?_ (cellsWf_tail h)
          intro e he
          have := cellsWf_above h e he; omega
      · next h1 h2 =>
        refine cellsWf_cons (cellsWf_head h) ?_ (ih (cellsWf_tail h))
        intro e he
        rcases cellSet_mem he with he | he
        · exact cellsWf_above h e he
        · omega

/-- A byte below the object's size keeps every address below it. -/
theorem cellSet_below {l : List Host.Cell} {k n : Nat} (v : Byte) (hk : k < n) (h : cellsBelow l n = true) :
    cellsBelow (cellSet l k v) n = true := by
  simp only [cellsBelow, List.all_eq_true, decide_eq_true_eq] at *
  intro e he
  rcases cellSet_mem he with he | he
  · exact h e he
  · omega

/-- The byte written reads back. -/
theorem cellGet_cellSet_self {l : List Host.Cell} (k : Nat) (v : Byte) (h : cellsWf l = true) : cellGet (cellSet l k v) k = v := by
  have above : ∀ (r : List Host.Cell), cellsFrom r (k + 1) → cellGet r k = 0 := by
    intro r hr
    induction r with
    | nil => rfl
    | cons x r ih =>
      obtain ⟨a, w⟩ := x
      have ha := hr (a, w) (List.mem_cons_self ..)
      have : a ≠ k := by simp at ha; omega
      simp only [cellGet, if_neg this]
      exact ih fun e he => hr e (List.mem_cons_of_mem _ he)
  induction l with
  | nil =>
    simp only [cellSet]
    split
    · next hv => simp [cellGet, hv]
    · simp [cellGet]
  | cons x r ih =>
    obtain ⟨a, w⟩ := x
    simp only [cellSet]
    split
    · next hk =>
      split
      · next hv =>
        rw [hv]
        refine above _ ?_
        intro e he
        rcases List.mem_cons.mp he with rfl | he
        · exact hk
        · have := cellsWf_above h e he; omega
      · simp [cellGet]
    · split
      · next hk =>
        subst hk
        split
        · next hv => rw [hv]; exact above r (cellsWf_above h)
        · simp [cellGet]
      · next h1 h2 =>
        have : a ≠ k := fun e => h2 e.symm
        simp only [cellGet, if_neg this]
        exact ih (cellsWf_tail h)

/-- Every other byte is as it was. -/
theorem cellGet_cellSet_other {l : List Host.Cell} {k j : Nat} (v : Byte) (hj : j ≠ k) : cellGet (cellSet l k v) j = cellGet l j := by
  induction l with
  | nil =>
    simp only [cellSet]
    split
    · rfl
    · simp [cellGet, Ne.symm hj]
  | cons x r ih =>
    obtain ⟨a, w⟩ := x
    simp only [cellSet]
    split
    · split
      · rfl
      · simp [cellGet, Ne.symm hj]
    · split
      · next hk =>
        subst hk
        split <;> simp [cellGet, Ne.symm hj]
      · simp only [cellGet]
        split
        · rfl
        · exact ih

/-- Bytes written below the object's size keep the canonical form and stay inside it. -/
theorem cellsWrite_wf {l : List Host.Cell} {n : Nat} (a : Nat) (b : Bytes) (hn : a + b.length ≤ n ∨ b = [])
    (h : cellsWf l = true ∧ cellsBelow l n = true) : cellsWf (cellsWrite l a b) = true ∧ cellsBelow (cellsWrite l a b) n = true := by
  induction b generalizing l a with
  | nil => exact h
  | cons x r ih =>
    have hn : a + (r.length + 1) ≤ n := by rcases hn with h | h; exacts [h, absurd h (by simp)]
    exact ih (a + 1) (.inl (by omega)) ⟨cellSet_wf a x h.1, cellSet_below x (by omega) h.2⟩

/-- A byte outside those written is as it was. -/
theorem cellGet_cellsWrite_other {l : List Host.Cell} {a j : Nat} (b : Bytes) (hj : j < a ∨ a + b.length ≤ j) :
    cellGet (cellsWrite l a b) j = cellGet l j := by
  induction b generalizing l a with
  | nil => rfl
  | cons x r ih =>
    have hj' : j < a ∨ a + (r.length + 1) ≤ j := hj
    simp only [cellsWrite]
    rw [ih (by omega), cellGet_cellSet_other x (by omega)]

/-- A byte written reads back. -/
theorem cellGet_cellsWrite {l : List Host.Cell} {a i : Nat} {b : Bytes} (hi : i < b.length) (h : cellsWf l = true) :
    cellGet (cellsWrite l a b) (a + i) = b.getD i 0 := by
  induction b generalizing l a i with
  | nil => simp at hi
  | cons x r ih =>
    simp only [cellsWrite]
    cases i with
    | zero =>
      rw [cellGet_cellsWrite_other r (.inl (by omega))]
      exact cellGet_cellSet_self a x h
    | succ j =>
      have := ih (l := cellSet l a x) (a := a + 1) (i := j) (by simpa using hi) (cellSet_wf a x h)
      rw [show a + (j + 1) = a + 1 + j by omega, this]
      simp

/-! Objects. -/

theorem Obj.wf_write {o : Obj} (a : Nat) (b : Bytes) (h : o.wf = true) : (o.write a b).wf = true := by
  simp only [Obj.wf, Bool.and_eq_true, Obj.write] at *
  refine cellsWrite_wf a _ ?_ h
  by_cases hs : a ≤ o.size
  · left; simp only [List.length_take]; omega
  · right; simp [show o.size - a = 0 by omega]

/-- What is written into an object reads back. -/
theorem Obj.read_write {o : Obj} {a : Nat} {b : Bytes} (hb : a + b.length ≤ o.size) (h : cellsWf o.cells = true) : (o.write a b).read a b.length = b := by
  have e : b.take (o.size - a) = b := List.take_of_length_le (by omega)
  simp only [Obj.read, Obj.write, e, cellsRead]
  refine List.ext_getElem (by simp) fun i h1 h2 => ?_
  simp only [List.getElem_map, List.getElem_range]
  rw [cellGet_cellsWrite h2 h, List.getD_eq_getElem _ _ h2]

/-- A read outside the bytes written is as before. -/
theorem Obj.read_write_other {o : Obj} {a n c : Nat} {b : Bytes} (hd : c + n ≤ a ∨ a + b.length ≤ c) : (o.write a b).read c n = o.read c n := by
  simp only [Obj.read, Obj.write, cellsRead]
  refine List.map_congr_left fun i hi => ?_
  have hi := List.mem_range.mp hi
  exact cellGet_cellsWrite_other _ (by simp only [List.length_take]; omega)

theorem Obj.write_size (o : Obj) (a : Nat) (b : Bytes) : (o.write a b).size = o.size := rfl

theorem Obj.wf_setPixel {o : Obj} (x y v : Nat) (h : o.wf = true) : (o.setPixel x y v).wf = true := Obj.wf_write _ _ h

/-- A fold of changes each of which keeps an object's form keeps it. -/
theorem Obj.wf_foldl {α : Type} (f : Obj → α → Obj) (hf : ∀ o x, o.wf = true → (f o x).wf = true) (l : List α) {o : Obj}
    (h : o.wf = true) : (l.foldl f o).wf = true := by
  induction l generalizing o with
  | nil => exact h
  | cons x r ih => exact ih (hf o x h)

/-! The heap. -/

theorem Heap.wf_map {hp : Heap} (f : Obj → Obj) (hf : ∀ o, o.wf = true → (f o).wf = true) (h : hp.wf = true) :
    ({ hp with objs := hp.objs.map f } : Heap).wf = true := by
  simp only [Heap.wf, List.all_map, List.all_eq_true] at *
  exact fun o ho => hf o (h o ho)

theorem Heap.wf_upd {hp : Heap} (k : Nat) (f : Obj → Obj) (hf : ∀ o, o.wf = true → (f o).wf = true) (h : hp.wf = true) :
    (hp.upd k f).wf = true := by
  refine Heap.wf_map _ ?_ h
  intro o ho
  split
  · exact hf o ho
  · exact ho

theorem Heap.wf_write {hp : Heap} (k a : Nat) (b : Bytes) (h : hp.wf = true) : (hp.write k a b).wf = true :=
  Heap.wf_upd k _ (fun _ ho => Obj.wf_write a b ho) h

theorem Heap.wf_release {hp : Heap} (k : Nat) (h : hp.wf = true) : (hp.release k).wf = true := by
  simp only [Heap.wf, Heap.release, List.all_eq_true] at *
  exact fun o ho => h o (List.mem_filter.mp ho).1

/-- A new object is empty, so the heap with it is in canonical form. -/
theorem Heap.wf_alloc {hp hp' : Heap} {o : Obj} {dies : List Nat} {kind : ObjKind} {size : Nat} {m : Bool}
    (ha : hp.alloc dies kind size m = .ok (hp', o)) (h : hp.wf = true) : hp'.wf = true := by
  let n := nextHandle (hp.objs.map (·.handle)) 16385 hp.last
  have hz : ∀ die mir, (Heap.mk (⟨n, kind, size, die, mir, false, []⟩ :: hp.objs) n).wf = true := by
    intro die mir
    simp only [Heap.wf, List.all_cons, Bool.and_eq_true] at *
    exact ⟨by simp [Obj.wf, cellsWf, cellsBelow], h⟩
  unfold Heap.alloc at ha
  split at ha
  · cases ha
  · split at ha
    · cases ha
    · next die _ =>
      split at ha
      · cases ha
      · dsimp only at ha
        generalize (if m = true then hp.mirrorDie dies die size else none) = mir at ha
        split at ha
        · cases ha
        · obtain ⟨rfl, rfl⟩ := Prod.mk.inj (Except.ok.inj ha)
          exact hz _ _

theorem Heap.wf_dieLost {hp : Heap} (die : Nat) (h : hp.wf = true) : (hp.dieLost die).wf = true := by
  refine Heap.wf_map _ ?_ h
  intro o ho
  repeat' split
  all_goals exact ho

end Sys2Proof.Machine
end

