-- ==== Sys2Proof/Laws/State.lean ====
section
/-! SUPPORT. What each shared update leaves as it is: one equation per field per update, so that no proof unfolds a record update. -/

namespace Sys2Proof.Machine

section
variable (s : State) (d : Dev) (hp : Heap) (x : Heap × Dev)

@[simp] theorem withDev_dev : (s.withDev d).dev = d := rfl
@[simp] theorem withDev_heap : (s.withDev d).heap = s.heap := rfl
@[simp] theorem withDev_pending : (s.withDev d).pending = s.pending := rfl
@[simp] theorem withBoth_dev : (s.withBoth x).dev = x.2 := rfl
@[simp] theorem withBoth_heap : (s.withBoth x).heap = x.1 := rfl
@[simp] theorem withBoth_pending : (s.withBoth x).pending = s.pending := rfl
end

section
variable (d : Dev) (die : Nat) (f : Fld) (v : Nat)

@[simp] theorem wr_shadow : (d.wr die f v).shadow = d.shadow := rfl
@[simp] theorem wr_bound : (d.wr die f v).bound = d.bound := rfl
@[simp] theorem wr_anvil : (d.wr die f v).anvil = d.anvil := rfl
@[simp] theorem wr_cp : (d.wr die f v).cp = d.cp := rfl
@[simp] theorem wr_ev : (d.wr die f v).ev = d.ev := rfl
@[simp] theorem wr_fab : (d.wr die f v).fab = d.fab := rfl
@[simp] theorem wr_dmp : (d.wr die f v).dmp = d.dmp := rfl
@[simp] theorem wr_tnk : (d.wr die f v).tnk = d.tnk := rfl
@[simp] theorem wr_thm : (d.wr die f v).thm = d.thm := rfl
@[simp] theorem wr_ash : (d.wr die f v).ash = d.ash := rfl
@[simp] theorem wr_age : (d.wr die f v).age = d.age := rfl
@[simp] theorem wr_upd : (d.wr die f v).upd = d.upd := rfl
@[simp] theorem wr_pwr : (d.wr die f v).pwr = d.pwr := rfl
@[simp] theorem wr_time : (d.wr die f v).time = d.time := rfl
@[simp] theorem wr_net : (d.wr die f v).net = d.net := rfl
@[simp] theorem wr_mem : (d.wr die f v).mem = d.mem := rfl
@[simp] theorem wr_clk : (d.wr die f v).clk = d.clk := rfl
@[simp] theorem wr_dec : (d.wr die f v).dec = d.dec := rfl
@[simp] theorem wr_lay : (d.wr die f v).lay = d.lay := rfl
@[simp] theorem wr_pm : (d.wr die f v).pm = d.pm := rfl
@[simp] theorem wr_syn : (d.wr die f v).syn = d.syn := rfl
@[simp] theorem wr_ras : (d.wr die f v).ras = d.ras := rfl
@[simp] theorem wr_trm : (d.wr die f v).trm = d.trm := rfl
@[simp] theorem wr_flu : (d.wr die f v).flu = d.flu := rfl
@[simp] theorem wr_film : (d.wr die f v).film = d.film := rfl
@[simp] theorem wr_curves : (d.wr die f v).curves = d.curves := rfl
@[simp] theorem wr_lamp : (d.wr die f v).lamp = d.lamp := rfl
@[simp] theorem wr_lnk : (d.wr die f v).lnk = d.lnk := rfl
@[simp] theorem wr_ing : (d.wr die f v).ing = d.ing := rfl
@[simp] theorem wr_blw : (d.wr die f v).blw = d.blw := rfl
@[simp] theorem wr_conf : (d.wr die f v).conf = d.conf := rfl
@[simp] theorem wr_mode : (d.wr die f v).mode = d.mode := rfl
@[simp] theorem wr_frame : (d.wr die f v).frame = d.frame := rfl
@[simp] theorem wr_fns : (d.wr die f v).fns = d.fns := rfl
@[simp] theorem wr_out : (d.wr die f v).out = d.out := rfl
@[simp] theorem wr_free : (d.wr die f v).free = d.free := rfl
end

section
variable (d : Dev) (die : Nat) (f : Fld) (v : Nat)

@[simp] theorem wrS_regs : (d.wrS die f v).regs = d.regs := rfl
@[simp] theorem wrS_bound : (d.wrS die f v).bound = d.bound := rfl
@[simp] theorem wrS_anvil : (d.wrS die f v).anvil = d.anvil := rfl
@[simp] theorem wrS_cp : (d.wrS die f v).cp = d.cp := rfl
@[simp] theorem wrS_ev : (d.wrS die f v).ev = d.ev := rfl
@[simp] theorem wrS_fab : (d.wrS die f v).fab = d.fab := rfl
@[simp] theorem wrS_dmp : (d.wrS die f v).dmp = d.dmp := rfl
@[simp] theorem wrS_tnk : (d.wrS die f v).tnk = d.tnk := rfl
@[simp] theorem wrS_thm : (d.wrS die f v).thm = d.thm := rfl
@[simp] theorem wrS_ash : (d.wrS die f v).ash = d.ash := rfl
@[simp] theorem wrS_age : (d.wrS die f v).age = d.age := rfl
@[simp] theorem wrS_upd : (d.wrS die f v).upd = d.upd := rfl
@[simp] theorem wrS_pwr : (d.wrS die f v).pwr = d.pwr := rfl
@[simp] theorem wrS_time : (d.wrS die f v).time = d.time := rfl
@[simp] theorem wrS_net : (d.wrS die f v).net = d.net := rfl
@[simp] theorem wrS_mem : (d.wrS die f v).mem = d.mem := rfl
@[simp] theorem wrS_clk : (d.wrS die f v).clk = d.clk := rfl
@[simp] theorem wrS_dec : (d.wrS die f v).dec = d.dec := rfl
@[simp] theorem wrS_lay : (d.wrS die f v).lay = d.lay := rfl
@[simp] theorem wrS_pm : (d.wrS die f v).pm = d.pm := rfl
@[simp] theorem wrS_syn : (d.wrS die f v).syn = d.syn := rfl
@[simp] theorem wrS_ras : (d.wrS die f v).ras = d.ras := rfl
@[simp] theorem wrS_trm : (d.wrS die f v).trm = d.trm := rfl
@[simp] theorem wrS_flu : (d.wrS die f v).flu = d.flu := rfl
@[simp] theorem wrS_film : (d.wrS die f v).film = d.film := rfl
@[simp] theorem wrS_curves : (d.wrS die f v).curves = d.curves := rfl
@[simp] theorem wrS_lamp : (d.wrS die f v).lamp = d.lamp := rfl
@[simp] theorem wrS_lnk : (d.wrS die f v).lnk = d.lnk := rfl
@[simp] theorem wrS_ing : (d.wrS die f v).ing = d.ing := rfl
@[simp] theorem wrS_blw : (d.wrS die f v).blw = d.blw := rfl
@[simp] theorem wrS_conf : (d.wrS die f v).conf = d.conf := rfl
@[simp] theorem wrS_mode : (d.wrS die f v).mode = d.mode := rfl
@[simp] theorem wrS_frame : (d.wrS die f v).frame = d.frame := rfl
@[simp] theorem wrS_fns : (d.wrS die f v).fns = d.fns := rfl
@[simp] theorem wrS_out : (d.wrS die f v).out = d.out := rfl
@[simp] theorem wrS_free : (d.wrS die f v).free = d.free := rfl
end

section
variable (d : Dev) (die : Nat) (f : Fld) (v : Nat)

@[simp] theorem wrB_regs : (d.wrB die f v).regs = d.regs := rfl
@[simp] theorem wrB_shadow : (d.wrB die f v).shadow = d.shadow := rfl
@[simp] theorem wrB_anvil : (d.wrB die f v).anvil = d.anvil := rfl
@[simp] theorem wrB_cp : (d.wrB die f v).cp = d.cp := rfl
@[simp] theorem wrB_ev : (d.wrB die f v).ev = d.ev := rfl
@[simp] theorem wrB_fab : (d.wrB die f v).fab = d.fab := rfl
@[simp] theorem wrB_dmp : (d.wrB die f v).dmp = d.dmp := rfl
@[simp] theorem wrB_tnk : (d.wrB die f v).tnk = d.tnk := rfl
@[simp] theorem wrB_thm : (d.wrB die f v).thm = d.thm := rfl
@[simp] theorem wrB_ash : (d.wrB die f v).ash = d.ash := rfl
@[simp] theorem wrB_age : (d.wrB die f v).age = d.age := rfl
@[simp] theorem wrB_upd : (d.wrB die f v).upd = d.upd := rfl
@[simp] theorem wrB_pwr : (d.wrB die f v).pwr = d.pwr := rfl
@[simp] theorem wrB_time : (d.wrB die f v).time = d.time := rfl
@[simp] theorem wrB_net : (d.wrB die f v).net = d.net := rfl
@[simp] theorem wrB_mem : (d.wrB die f v).mem = d.mem := rfl
@[simp] theorem wrB_clk : (d.wrB die f v).clk = d.clk := rfl
@[simp] theorem wrB_dec : (d.wrB die f v).dec = d.dec := rfl
@[simp] theorem wrB_lay : (d.wrB die f v).lay = d.lay := rfl
@[simp] theorem wrB_pm : (d.wrB die f v).pm = d.pm := rfl
@[simp] theorem wrB_syn : (d.wrB die f v).syn = d.syn := rfl
@[simp] theorem wrB_ras : (d.wrB die f v).ras = d.ras := rfl
@[simp] theorem wrB_trm : (d.wrB die f v).trm = d.trm := rfl
@[simp] theorem wrB_flu : (d.wrB die f v).flu = d.flu := rfl
@[simp] theorem wrB_film : (d.wrB die f v).film = d.film := rfl
@[simp] theorem wrB_curves : (d.wrB die f v).curves = d.curves := rfl
@[simp] theorem wrB_lamp : (d.wrB die f v).lamp = d.lamp := rfl
@[simp] theorem wrB_lnk : (d.wrB die f v).lnk = d.lnk := rfl
@[simp] theorem wrB_ing : (d.wrB die f v).ing = d.ing := rfl
@[simp] theorem wrB_blw : (d.wrB die f v).blw = d.blw := rfl
@[simp] theorem wrB_conf : (d.wrB die f v).conf = d.conf := rfl
@[simp] theorem wrB_mode : (d.wrB die f v).mode = d.mode := rfl
@[simp] theorem wrB_frame : (d.wrB die f v).frame = d.frame := rfl
@[simp] theorem wrB_fns : (d.wrB die f v).fns = d.fns := rfl
@[simp] theorem wrB_out : (d.wrB die f v).out = d.out := rfl
@[simp] theorem wrB_free : (d.wrB die f v).free = d.free := rfl
end

section
variable (d : Dev) (die : Nat) (f : Fld) (n : Nat)

@[simp] theorem bump_shadow : (d.bump die f n).shadow = d.shadow := rfl
@[simp] theorem bump_bound : (d.bump die f n).bound = d.bound := rfl
@[simp] theorem bump_anvil : (d.bump die f n).anvil = d.anvil := rfl
@[simp] theorem bump_cp : (d.bump die f n).cp = d.cp := rfl
@[simp] theorem bump_ev : (d.bump die f n).ev = d.ev := rfl
@[simp] theorem bump_fab : (d.bump die f n).fab = d.fab := rfl
@[simp] theorem bump_dmp : (d.bump die f n).dmp = d.dmp := rfl
@[simp] theorem bump_tnk : (d.bump die f n).tnk = d.tnk := rfl
@[simp] theorem bump_thm : (d.bump die f n).thm = d.thm := rfl
@[simp] theorem bump_ash : (d.bump die f n).ash = d.ash := rfl
@[simp] theorem bump_age : (d.bump die f n).age = d.age := rfl
@[simp] theorem bump_upd : (d.bump die f n).upd = d.upd := rfl
@[simp] theorem bump_pwr : (d.bump die f n).pwr = d.pwr := rfl
@[simp] theorem bump_time : (d.bump die f n).time = d.time := rfl
@[simp] theorem bump_net : (d.bump die f n).net = d.net := rfl
@[simp] theorem bump_mem : (d.bump die f n).mem = d.mem := rfl
@[simp] theorem bump_clk : (d.bump die f n).clk = d.clk := rfl
@[simp] theorem bump_dec : (d.bump die f n).dec = d.dec := rfl
@[simp] theorem bump_lay : (d.bump die f n).lay = d.lay := rfl
@[simp] theorem bump_pm : (d.bump die f n).pm = d.pm := rfl
@[simp] theorem bump_syn : (d.bump die f n).syn = d.syn := rfl
@[simp] theorem bump_ras : (d.bump die f n).ras = d.ras := rfl
@[simp] theorem bump_trm : (d.bump die f n).trm = d.trm := rfl
@[simp] theorem bump_flu : (d.bump die f n).flu = d.flu := rfl
@[simp] theorem bump_film : (d.bump die f n).film = d.film := rfl
@[simp] theorem bump_curves : (d.bump die f n).curves = d.curves := rfl
@[simp] theorem bump_lamp : (d.bump die f n).lamp = d.lamp := rfl
@[simp] theorem bump_lnk : (d.bump die f n).lnk = d.lnk := rfl
@[simp] theorem bump_ing : (d.bump die f n).ing = d.ing := rfl
@[simp] theorem bump_blw : (d.bump die f n).blw = d.blw := rfl
@[simp] theorem bump_conf : (d.bump die f n).conf = d.conf := rfl
@[simp] theorem bump_mode : (d.bump die f n).mode = d.mode := rfl
@[simp] theorem bump_frame : (d.bump die f n).frame = d.frame := rfl
@[simp] theorem bump_fns : (d.bump die f n).fns = d.fns := rfl
@[simp] theorem bump_out : (d.bump die f n).out = d.out := rfl
@[simp] theorem bump_free : (d.bump die f n).free = d.free := rfl
end

section
variable (d : Dev) (die : Nat) (f : Fld) (v : Nat)

@[simp] theorem hwm_shadow : (d.hwm die f v).shadow = d.shadow := rfl
@[simp] theorem hwm_bound : (d.hwm die f v).bound = d.bound := rfl
@[simp] theorem hwm_anvil : (d.hwm die f v).anvil = d.anvil := rfl
@[simp] theorem hwm_cp : (d.hwm die f v).cp = d.cp := rfl
@[simp] theorem hwm_ev : (d.hwm die f v).ev = d.ev := rfl
@[simp] theorem hwm_fab : (d.hwm die f v).fab = d.fab := rfl
@[simp] theorem hwm_dmp : (d.hwm die f v).dmp = d.dmp := rfl
@[simp] theorem hwm_tnk : (d.hwm die f v).tnk = d.tnk := rfl
@[simp] theorem hwm_thm : (d.hwm die f v).thm = d.thm := rfl
@[simp] theorem hwm_ash : (d.hwm die f v).ash = d.ash := rfl
@[simp] theorem hwm_age : (d.hwm die f v).age = d.age := rfl
@[simp] theorem hwm_upd : (d.hwm die f v).upd = d.upd := rfl
@[simp] theorem hwm_pwr : (d.hwm die f v).pwr = d.pwr := rfl
@[simp] theorem hwm_time : (d.hwm die f v).time = d.time := rfl
@[simp] theorem hwm_net : (d.hwm die f v).net = d.net := rfl
@[simp] theorem hwm_mem : (d.hwm die f v).mem = d.mem := rfl
@[simp] theorem hwm_clk : (d.hwm die f v).clk = d.clk := rfl
@[simp] theorem hwm_dec : (d.hwm die f v).dec = d.dec := rfl
@[simp] theorem hwm_lay : (d.hwm die f v).lay = d.lay := rfl
@[simp] theorem hwm_pm : (d.hwm die f v).pm = d.pm := rfl
@[simp] theorem hwm_syn : (d.hwm die f v).syn = d.syn := rfl
@[simp] theorem hwm_ras : (d.hwm die f v).ras = d.ras := rfl
@[simp] theorem hwm_trm : (d.hwm die f v).trm = d.trm := rfl
@[simp] theorem hwm_flu : (d.hwm die f v).flu = d.flu := rfl
@[simp] theorem hwm_film : (d.hwm die f v).film = d.film := rfl
@[simp] theorem hwm_curves : (d.hwm die f v).curves = d.curves := rfl
@[simp] theorem hwm_lamp : (d.hwm die f v).lamp = d.lamp := rfl
@[simp] theorem hwm_lnk : (d.hwm die f v).lnk = d.lnk := rfl
@[simp] theorem hwm_ing : (d.hwm die f v).ing = d.ing := rfl
@[simp] theorem hwm_blw : (d.hwm die f v).blw = d.blw := rfl
@[simp] theorem hwm_conf : (d.hwm die f v).conf = d.conf := rfl
@[simp] theorem hwm_mode : (d.hwm die f v).mode = d.mode := rfl
@[simp] theorem hwm_frame : (d.hwm die f v).frame = d.frame := rfl
@[simp] theorem hwm_fns : (d.hwm die f v).fns = d.fns := rfl
@[simp] theorem hwm_out : (d.hwm die f v).out = d.out := rfl
@[simp] theorem hwm_free : (d.hwm die f v).free = d.free := rfl
end

section
variable (d : Dev) (die : Nat) (lo hi : Fld) (v : Nat)

@[simp] theorem wrLoHi_shadow : (d.wrLoHi die lo hi v).shadow = d.shadow := rfl
@[simp] theorem wrLoHi_bound : (d.wrLoHi die lo hi v).bound = d.bound := rfl
@[simp] theorem wrLoHi_anvil : (d.wrLoHi die lo hi v).anvil = d.anvil := rfl
@[simp] theorem wrLoHi_cp : (d.wrLoHi die lo hi v).cp = d.cp := rfl
@[simp] theorem wrLoHi_ev : (d.wrLoHi die lo hi v).ev = d.ev := rfl
@[simp] theorem wrLoHi_fab : (d.wrLoHi die lo hi v).fab = d.fab := rfl
@[simp] theorem wrLoHi_dmp : (d.wrLoHi die lo hi v).dmp = d.dmp := rfl
@[simp] theorem wrLoHi_tnk : (d.wrLoHi die lo hi v).tnk = d.tnk := rfl
@[simp] theorem wrLoHi_thm : (d.wrLoHi die lo hi v).thm = d.thm := rfl
@[simp] theorem wrLoHi_ash : (d.wrLoHi die lo hi v).ash = d.ash := rfl
@[simp] theorem wrLoHi_age : (d.wrLoHi die lo hi v).age = d.age := rfl
@[simp] theorem wrLoHi_upd : (d.wrLoHi die lo hi v).upd = d.upd := rfl
@[simp] theorem wrLoHi_pwr : (d.wrLoHi die lo hi v).pwr = d.pwr := rfl
@[simp] theorem wrLoHi_time : (d.wrLoHi die lo hi v).time = d.time := rfl
@[simp] theorem wrLoHi_net : (d.wrLoHi die lo hi v).net = d.net := rfl
@[simp] theorem wrLoHi_mem : (d.wrLoHi die lo hi v).mem = d.mem := rfl
@[simp] theorem wrLoHi_clk : (d.wrLoHi die lo hi v).clk = d.clk := rfl
@[simp] theorem wrLoHi_dec : (d.wrLoHi die lo hi v).dec = d.dec := rfl
@[simp] theorem wrLoHi_lay : (d.wrLoHi die lo hi v).lay = d.lay := rfl
@[simp] theorem wrLoHi_pm : (d.wrLoHi die lo hi v).pm = d.pm := rfl
@[simp] theorem wrLoHi_syn : (d.wrLoHi die lo hi v).syn = d.syn := rfl
@[simp] theorem wrLoHi_ras : (d.wrLoHi die lo hi v).ras = d.ras := rfl
@[simp] theorem wrLoHi_trm : (d.wrLoHi die lo hi v).trm = d.trm := rfl
@[simp] theorem wrLoHi_flu : (d.wrLoHi die lo hi v).flu = d.flu := rfl
@[simp] theorem wrLoHi_film : (d.wrLoHi die lo hi v).film = d.film := rfl
@[simp] theorem wrLoHi_curves : (d.wrLoHi die lo hi v).curves = d.curves := rfl
@[simp] theorem wrLoHi_lamp : (d.wrLoHi die lo hi v).lamp = d.lamp := rfl
@[simp] theorem wrLoHi_lnk : (d.wrLoHi die lo hi v).lnk = d.lnk := rfl
@[simp] theorem wrLoHi_ing : (d.wrLoHi die lo hi v).ing = d.ing := rfl
@[simp] theorem wrLoHi_blw : (d.wrLoHi die lo hi v).blw = d.blw := rfl
@[simp] theorem wrLoHi_conf : (d.wrLoHi die lo hi v).conf = d.conf := rfl
@[simp] theorem wrLoHi_mode : (d.wrLoHi die lo hi v).mode = d.mode := rfl
@[simp] theorem wrLoHi_frame : (d.wrLoHi die lo hi v).frame = d.frame := rfl
@[simp] theorem wrLoHi_fns : (d.wrLoHi die lo hi v).fns = d.fns := rfl
@[simp] theorem wrLoHi_out : (d.wrLoHi die lo hi v).out = d.out := rfl
@[simp] theorem wrLoHi_free : (d.wrLoHi die lo hi v).free = d.free := rfl
end

section
variable (d : Dev) (o : Output)

@[simp] theorem send_regs : (d.send o).regs = d.regs := rfl
@[simp] theorem send_shadow : (d.send o).shadow = d.shadow := rfl
@[simp] theorem send_bound : (d.send o).bound = d.bound := rfl
@[simp] theorem send_anvil : (d.send o).anvil = d.anvil := rfl
@[simp] theorem send_cp : (d.send o).cp = d.cp := rfl
@[simp] theorem send_ev : (d.send o).ev = d.ev := rfl
@[simp] theorem send_fab : (d.send o).fab = d.fab := rfl
@[simp] theorem send_dmp : (d.send o).dmp = d.dmp := rfl
@[simp] theorem send_tnk : (d.send o).tnk = d.tnk := rfl
@[simp] theorem send_thm : (d.send o).thm = d.thm := rfl
@[simp] theorem send_ash : (d.send o).ash = d.ash := rfl
@[simp] theorem send_age : (d.send o).age = d.age := rfl
@[simp] theorem send_upd : (d.send o).upd = d.upd := rfl
@[simp] theorem send_pwr : (d.send o).pwr = d.pwr := rfl
@[simp] theorem send_time : (d.send o).time = d.time := rfl
@[simp] theorem send_net : (d.send o).net = d.net := rfl
@[simp] theorem send_mem : (d.send o).mem = d.mem := rfl
@[simp] theorem send_clk : (d.send o).clk = d.clk := rfl
@[simp] theorem send_dec : (d.send o).dec = d.dec := rfl
@[simp] theorem send_lay : (d.send o).lay = d.lay := rfl
@[simp] theorem send_pm : (d.send o).pm = d.pm := rfl
@[simp] theorem send_syn : (d.send o).syn = d.syn := rfl
@[simp] theorem send_ras : (d.send o).ras = d.ras := rfl
@[simp] theorem send_trm : (d.send o).trm = d.trm := rfl
@[simp] theorem send_flu : (d.send o).flu = d.flu := rfl
@[simp] theorem send_film : (d.send o).film = d.film := rfl
@[simp] theorem send_curves : (d.send o).curves = d.curves := rfl
@[simp] theorem send_lamp : (d.send o).lamp = d.lamp := rfl
@[simp] theorem send_lnk : (d.send o).lnk = d.lnk := rfl
@[simp] theorem send_ing : (d.send o).ing = d.ing := rfl
@[simp] theorem send_blw : (d.send o).blw = d.blw := rfl
@[simp] theorem send_conf : (d.send o).conf = d.conf := rfl
@[simp] theorem send_mode : (d.send o).mode = d.mode := rfl
@[simp] theorem send_frame : (d.send o).frame = d.frame := rfl
@[simp] theorem send_fns : (d.send o).fns = d.fns := rfl
@[simp] theorem send_free : (d.send o).free = d.free := rfl
end

section
variable (d : Dev) (k : Nat) (f : Fn)

@[simp] theorem setFn_regs : (d.setFn k f).regs = d.regs := rfl
@[simp] theorem setFn_shadow : (d.setFn k f).shadow = d.shadow := rfl
@[simp] theorem setFn_bound : (d.setFn k f).bound = d.bound := rfl
@[simp] theorem setFn_anvil : (d.setFn k f).anvil = d.anvil := rfl
@[simp] theorem setFn_cp : (d.setFn k f).cp = d.cp := rfl
@[simp] theorem setFn_ev : (d.setFn k f).ev = d.ev := rfl
@[simp] theorem setFn_fab : (d.setFn k f).fab = d.fab := rfl
@[simp] theorem setFn_dmp : (d.setFn k f).dmp = d.dmp := rfl
@[simp] theorem setFn_tnk : (d.setFn k f).tnk = d.tnk := rfl
@[simp] theorem setFn_thm : (d.setFn k f).thm = d.thm := rfl
@[simp] theorem setFn_ash : (d.setFn k f).ash = d.ash := rfl
@[simp] theorem setFn_age : (d.setFn k f).age = d.age := rfl
@[simp] theorem setFn_upd : (d.setFn k f).upd = d.upd := rfl
@[simp] theorem setFn_pwr : (d.setFn k f).pwr = d.pwr := rfl
@[simp] theorem setFn_time : (d.setFn k f).time = d.time := rfl
@[simp] theorem setFn_net : (d.setFn k f).net = d.net := rfl
@[simp] theorem setFn_mem : (d.setFn k f).mem = d.mem := rfl
@[simp] theorem setFn_clk : (d.setFn k f).clk = d.clk := rfl
@[simp] theorem setFn_dec : (d.setFn k f).dec = d.dec := rfl
@[simp] theorem setFn_lay : (d.setFn k f).lay = d.lay := rfl
@[simp] theorem setFn_pm : (d.setFn k f).pm = d.pm := rfl
@[simp] theorem setFn_syn : (d.setFn k f).syn = d.syn := rfl
@[simp] theorem setFn_ras : (d.setFn k f).ras = d.ras := rfl
@[simp] theorem setFn_trm : (d.setFn k f).trm = d.trm := rfl
@[simp] theorem setFn_flu : (d.setFn k f).flu = d.flu := rfl
@[simp] theorem setFn_film : (d.setFn k f).film = d.film := rfl
@[simp] theorem setFn_curves : (d.setFn k f).curves = d.curves := rfl
@[simp] theorem setFn_lamp : (d.setFn k f).lamp = d.lamp := rfl
@[simp] theorem setFn_lnk : (d.setFn k f).lnk = d.lnk := rfl
@[simp] theorem setFn_ing : (d.setFn k f).ing = d.ing := rfl
@[simp] theorem setFn_blw : (d.setFn k f).blw = d.blw := rfl
@[simp] theorem setFn_conf : (d.setFn k f).conf = d.conf := rfl
@[simp] theorem setFn_mode : (d.setFn k f).mode = d.mode := rfl
@[simp] theorem setFn_frame : (d.setFn k f).frame = d.frame := rfl
@[simp] theorem setFn_out : (d.setFn k f).out = d.out := rfl
@[simp] theorem setFn_free : (d.setFn k f).free = d.free := rfl
end

section
variable (d : Dev) (n : Nat) (x : Session)

@[simp] theorem setSess_regs : (d.setSess n x).regs = d.regs := rfl
@[simp] theorem setSess_shadow : (d.setSess n x).shadow = d.shadow := rfl
@[simp] theorem setSess_bound : (d.setSess n x).bound = d.bound := rfl
@[simp] theorem setSess_cp : (d.setSess n x).cp = d.cp := rfl
@[simp] theorem setSess_ev : (d.setSess n x).ev = d.ev := rfl
@[simp] theorem setSess_fab : (d.setSess n x).fab = d.fab := rfl
@[simp] theorem setSess_dmp : (d.setSess n x).dmp = d.dmp := rfl
@[simp] theorem setSess_tnk : (d.setSess n x).tnk = d.tnk := rfl
@[simp] theorem setSess_thm : (d.setSess n x).thm = d.thm := rfl
@[simp] theorem setSess_ash : (d.setSess n x).ash = d.ash := rfl
@[simp] theorem setSess_age : (d.setSess n x).age = d.age := rfl
@[simp] theorem setSess_upd : (d.setSess n x).upd = d.upd := rfl
@[simp] theorem setSess_pwr : (d.setSess n x).pwr = d.pwr := rfl
@[simp] theorem setSess_time : (d.setSess n x).time = d.time := rfl
@[simp] theorem setSess_net : (d.setSess n x).net = d.net := rfl
@[simp] theorem setSess_mem : (d.setSess n x).mem = d.mem := rfl
@[simp] theorem setSess_clk : (d.setSess n x).clk = d.clk := rfl
@[simp] theorem setSess_dec : (d.setSess n x).dec = d.dec := rfl
@[simp] theorem setSess_lay : (d.setSess n x).lay = d.lay := rfl
@[simp] theorem setSess_pm : (d.setSess n x).pm = d.pm := rfl
@[simp] theorem setSess_syn : (d.setSess n x).syn = d.syn := rfl
@[simp] theorem setSess_ras : (d.setSess n x).ras = d.ras := rfl
@[simp] theorem setSess_trm : (d.setSess n x).trm = d.trm := rfl
@[simp] theorem setSess_flu : (d.setSess n x).flu = d.flu := rfl
@[simp] theorem setSess_film : (d.setSess n x).film = d.film := rfl
@[simp] theorem setSess_curves : (d.setSess n x).curves = d.curves := rfl
@[simp] theorem setSess_lamp : (d.setSess n x).lamp = d.lamp := rfl
@[simp] theorem setSess_lnk : (d.setSess n x).lnk = d.lnk := rfl
@[simp] theorem setSess_ing : (d.setSess n x).ing = d.ing := rfl
@[simp] theorem setSess_blw : (d.setSess n x).blw = d.blw := rfl
@[simp] theorem setSess_conf : (d.setSess n x).conf = d.conf := rfl
@[simp] theorem setSess_mode : (d.setSess n x).mode = d.mode := rfl
@[simp] theorem setSess_frame : (d.setSess n x).frame = d.frame := rfl
@[simp] theorem setSess_fns : (d.setSess n x).fns = d.fns := rfl
@[simp] theorem setSess_out : (d.setSess n x).out = d.out := rfl
@[simp] theorem setSess_free : (d.setSess n x).free = d.free := rfl
end

section
variable (d : Dev) (n : Nat) (x : Src)

@[simp] theorem setSrc_regs : (d.setSrc n x).regs = d.regs := rfl
@[simp] theorem setSrc_shadow : (d.setSrc n x).shadow = d.shadow := rfl
@[simp] theorem setSrc_bound : (d.setSrc n x).bound = d.bound := rfl
@[simp] theorem setSrc_anvil : (d.setSrc n x).anvil = d.anvil := rfl
@[simp] theorem setSrc_cp : (d.setSrc n x).cp = d.cp := rfl
@[simp] theorem setSrc_fab : (d.setSrc n x).fab = d.fab := rfl
@[simp] theorem setSrc_dmp : (d.setSrc n x).dmp = d.dmp := rfl
@[simp] theorem setSrc_tnk : (d.setSrc n x).tnk = d.tnk := rfl
@[simp] theorem setSrc_thm : (d.setSrc n x).thm = d.thm := rfl
@[simp] theorem setSrc_ash : (d.setSrc n x).ash = d.ash := rfl
@[simp] theorem setSrc_age : (d.setSrc n x).age = d.age := rfl
@[simp] theorem setSrc_upd : (d.setSrc n x).upd = d.upd := rfl
@[simp] theorem setSrc_pwr : (d.setSrc n x).pwr = d.pwr := rfl
@[simp] theorem setSrc_time : (d.setSrc n x).time = d.time := rfl
@[simp] theorem setSrc_net : (d.setSrc n x).net = d.net := rfl
@[simp] theorem setSrc_mem : (d.setSrc n x).mem = d.mem := rfl
@[simp] theorem setSrc_clk : (d.setSrc n x).clk = d.clk := rfl
@[simp] theorem setSrc_dec : (d.setSrc n x).dec = d.dec := rfl
@[simp] theorem setSrc_lay : (d.setSrc n x).lay = d.lay := rfl
@[simp] theorem setSrc_pm : (d.setSrc n x).pm = d.pm := rfl
@[simp] theorem setSrc_syn : (d.setSrc n x).syn = d.syn := rfl
@[simp] theorem setSrc_ras : (d.setSrc n x).ras = d.ras := rfl
@[simp] theorem setSrc_trm : (d.setSrc n x).trm = d.trm := rfl
@[simp] theorem setSrc_flu : (d.setSrc n x).flu = d.flu := rfl
@[simp] theorem setSrc_film : (d.setSrc n x).film = d.film := rfl
@[simp] theorem setSrc_curves : (d.setSrc n x).curves = d.curves := rfl
@[simp] theorem setSrc_lamp : (d.setSrc n x).lamp = d.lamp := rfl
@[simp] theorem setSrc_lnk : (d.setSrc n x).lnk = d.lnk := rfl
@[simp] theorem setSrc_ing : (d.setSrc n x).ing = d.ing := rfl
@[simp] theorem setSrc_blw : (d.setSrc n x).blw = d.blw := rfl
@[simp] theorem setSrc_conf : (d.setSrc n x).conf = d.conf := rfl
@[simp] theorem setSrc_mode : (d.setSrc n x).mode = d.mode := rfl
@[simp] theorem setSrc_frame : (d.setSrc n x).frame = d.frame := rfl
@[simp] theorem setSrc_fns : (d.setSrc n x).fns = d.fns := rfl
@[simp] theorem setSrc_out : (d.setSrc n x).out = d.out := rfl
@[simp] theorem setSrc_free : (d.setSrc n x).free = d.free := rfl
end

section
variable (d : Dev) (n : Nat) (x : Grp)

@[simp] theorem setGrp_regs : (d.setGrp n x).regs = d.regs := rfl
@[simp] theorem setGrp_shadow : (d.setGrp n x).shadow = d.shadow := rfl
@[simp] theorem setGrp_bound : (d.setGrp n x).bound = d.bound := rfl
@[simp] theorem setGrp_anvil : (d.setGrp n x).anvil = d.anvil := rfl
@[simp] theorem setGrp_cp : (d.setGrp n x).cp = d.cp := rfl
@[simp] theorem setGrp_fab : (d.setGrp n x).fab = d.fab := rfl
@[simp] theorem setGrp_dmp : (d.setGrp n x).dmp = d.dmp := rfl
@[simp] theorem setGrp_tnk : (d.setGrp n x).tnk = d.tnk := rfl
@[simp] theorem setGrp_thm : (d.setGrp n x).thm = d.thm := rfl
@[simp] theorem setGrp_ash : (d.setGrp n x).ash = d.ash := rfl
@[simp] theorem setGrp_age : (d.setGrp n x).age = d.age := rfl
@[simp] theorem setGrp_upd : (d.setGrp n x).upd = d.upd := rfl
@[simp] theorem setGrp_pwr : (d.setGrp n x).pwr = d.pwr := rfl
@[simp] theorem setGrp_time : (d.setGrp n x).time = d.time := rfl
@[simp] theorem setGrp_net : (d.setGrp n x).net = d.net := rfl
@[simp] theorem setGrp_mem : (d.setGrp n x).mem = d.mem := rfl
@[simp] theorem setGrp_clk : (d.setGrp n x).clk = d.clk := rfl
@[simp] theorem setGrp_dec : (d.setGrp n x).dec = d.dec := rfl
@[simp] theorem setGrp_lay : (d.setGrp n x).lay = d.lay := rfl
@[simp] theorem setGrp_pm : (d.setGrp n x).pm = d.pm := rfl
@[simp] theorem setGrp_syn : (d.setGrp n x).syn = d.syn := rfl
@[simp] theorem setGrp_ras : (d.setGrp n x).ras = d.ras := rfl
@[simp] theorem setGrp_trm : (d.setGrp n x).trm = d.trm := rfl
@[simp] theorem setGrp_flu : (d.setGrp n x).flu = d.flu := rfl
@[simp] theorem setGrp_film : (d.setGrp n x).film = d.film := rfl
@[simp] theorem setGrp_curves : (d.setGrp n x).curves = d.curves := rfl
@[simp] theorem setGrp_lamp : (d.setGrp n x).lamp = d.lamp := rfl
@[simp] theorem setGrp_lnk : (d.setGrp n x).lnk = d.lnk := rfl
@[simp] theorem setGrp_ing : (d.setGrp n x).ing = d.ing := rfl
@[simp] theorem setGrp_blw : (d.setGrp n x).blw = d.blw := rfl
@[simp] theorem setGrp_conf : (d.setGrp n x).conf = d.conf := rfl
@[simp] theorem setGrp_mode : (d.setGrp n x).mode = d.mode := rfl
@[simp] theorem setGrp_frame : (d.setGrp n x).frame = d.frame := rfl
@[simp] theorem setGrp_fns : (d.setGrp n x).fns = d.fns := rfl
@[simp] theorem setGrp_out : (d.setGrp n x).out = d.out := rfl
@[simp] theorem setGrp_free : (d.setGrp n x).free = d.free := rfl
end

end Sys2Proof.Machine
end

