-- ==== Sys2Proof/Laws/Ops.lean ====
section
/-! SUPPORT. The laws of the register store (what is written reads back, and nothing else moves), and for each shared operation what it
can change at most, as an equation of the device with itself but for the parts named. -/

namespace Sys2Proof.Machine

/-! Sorted maps. These hold of every list. -/

@[simp] theorem amGet_amPut_self {α : Type} (m : List (Nat × α)) (k : Nat) (v d : α) : amGet (amPut m k v) k d = v := by
  induction m with
  | nil => simp [amPut, amGet]
  | cons e r ih =>
    obtain ⟨j, w⟩ := e
    unfold amPut
    split
    · simp [amGet]
    · split
      · simp [amGet]
      · next h => simp [amGet, Ne.symm h, ih]

theorem amGet_amPut_other {α : Type} (m : List (Nat × α)) {k j : Nat} (v d : α) (h : j ≠ k) : amGet (amPut m k v) j d = amGet m j d := by
  induction m with
  | nil => simp [amPut, amGet, Ne.symm h]
  | cons e r ih =>
    obtain ⟨i, w⟩ := e
    unfold amPut
    split
    · simp [amGet, Ne.symm h]
    · split
      · next e => subst e; simp [amGet, Ne.symm h]
      · simp [amGet, ih]

theorem amGet_amDel_self {α : Type} (m : List (Nat × α)) (k : Nat) (d : α) : amGet (amDel m k) k d = d := by
  induction m with
  | nil => rfl
  | cons e r ih =>
    obtain ⟨i, w⟩ := e
    by_cases hi : i = k
    · simpa [amDel, hi] using ih
    · have : amDel ((i, w) :: r) k = (i, w) :: amDel r k := by simp [amDel, hi]
      rw [this]; simp [amGet, hi, ih]

theorem amGet_amDel_other {α : Type} (m : List (Nat × α)) {k j : Nat} (d : α) (h : j ≠ k) : amGet (amDel m k) j d = amGet m j d := by
  induction m with
  | nil => rfl
  | cons e r ih =>
    obtain ⟨i, w⟩ := e
    by_cases hi : i = k
    · have : amDel ((i, w) :: r) k = amDel r k := by simp [amDel, hi]
      rw [this, ih]; simp [amGet, hi, Ne.symm h]
    · have : amDel ((i, w) :: r) k = (i, w) :: amDel r k := by simp [amDel, hi]
      rw [this]; simp [amGet, ih]

/-! Register files. -/

@[simp] theorem rfGet_rfSet_self (f : RegFile) (a : Nat) (v : Word) : rfGet (rfSet f a v) a = v := by
  unfold rfGet rfSet
  split
  · next h => rw [amGet_amDel_self, h]
  · exact amGet_amPut_self _ _ _ _

theorem rfGet_rfSet_other (f : RegFile) {a b : Nat} (v : Word) (h : b ≠ a) : rfGet (rfSet f a v) b = rfGet f b := by
  unfold rfGet rfSet
  split
  · exact amGet_amDel_other _ _ h
  · exact amGet_amPut_other _ _ _ h

theorem bits_testBit (v hi lo i : Nat) : (bits v hi lo).testBit i = (decide (i < hi + 1 - lo) && v.testBit (lo + i)) := by
  rw [bits, Nat.testBit_mod_two_pow, Nat.testBit_div_two_pow, Nat.add_comm i lo]

/-- The bits of a word with a field replaced. -/
theorem setBits_testBit (w : Word) {hi lo : Nat} (v i : Nat) (hi' : i < 32) :
    (setBits w hi lo v).toNat.testBit i = if lo ≤ i ∧ i ≤ hi then v.testBit (i - lo) else w.toNat.testBit i := by
  have m : (BitVec.ofNat 32 ((2 ^ (hi + 1 - lo) - 1) * 2 ^ lo)).getLsbD i = decide (lo ≤ i ∧ i ≤ hi) := by
    rw [BitVec.getLsbD_ofNat, Nat.testBit_mul_two_pow, Nat.testBit_two_pow_sub_one]
    simp only [hi', decide_true, Bool.true_and]
    by_cases h : lo ≤ i <;> by_cases h2 : i ≤ hi <;> simp [h, h2] <;> omega
  have b : (BitVec.ofNat 32 (v % 2 ^ (hi + 1 - lo) * 2 ^ lo)).getLsbD i = (decide (lo ≤ i ∧ i ≤ hi) && v.testBit (i - lo)) := by
    rw [BitVec.getLsbD_ofNat, Nat.testBit_mul_two_pow, Nat.testBit_mod_two_pow]
    simp only [hi', decide_true, Bool.true_and]
    by_cases h : lo ≤ i
    · by_cases h2 : i ≤ hi
      · have : i - lo < hi + 1 - lo := by omega
        simp [h, h2, this]
      · have : ¬ (i - lo < hi + 1 - lo) := by omega
        simp [h2, this]
    · simp [h]
  rw [BitVec.testBit_toNat]
  simp only [setBits, BitVec.getLsbD_or, BitVec.getLsbD_and, BitVec.getLsbD_not, m, b, hi', decide_true, Bool.true_and]
  by_cases h : lo ≤ i ∧ i ≤ hi <;> simp [h, BitVec.testBit_toNat]

/-- A field reads back what was put into it, cut to its width. -/
theorem bits_setBits_self (w : Word) {hi lo : Nat} (v : Nat) (h : lo ≤ hi) (hh : hi < 32) :
    bits (setBits w hi lo v).toNat hi lo = v % 2 ^ (hi + 1 - lo) := by
  refine Nat.eq_of_testBit_eq fun i => ?_
  rw [bits_testBit, Nat.testBit_mod_two_pow]
  by_cases hi' : i < hi + 1 - lo
  · rw [setBits_testBit w v (lo + i) (by omega), if_pos (by omega), Nat.add_sub_cancel_left]
  · simp [hi']

/-- A field that shares no bit with the one replaced is as before. -/
theorem bits_setBits_other (w : Word) {hi lo hi' lo' : Nat} (v : Nat) (hh : hi' < 32) (hd : hi' < lo ∨ hi < lo') :
    bits (setBits w hi lo v).toNat hi' lo' = bits w.toNat hi' lo' := by
  refine Nat.eq_of_testBit_eq fun i => ?_
  rw [bits_testBit, bits_testBit]
  by_cases hi'' : i < hi' + 1 - lo'
  · rw [setBits_testBit w v (lo' + i) (by omega), if_neg (by omega)]
  · simp [hi'']

/-! Fields of registers. -/

variable (d : Dev)

theorem rd_wr_self (die : Nat) (f : Fld) (v : Nat) (h : f.lo ≤ f.hi) (hh : f.hi < 32) : (d.wr die f v).rd die f = v % 2 ^ (f.hi + 1 - f.lo) := by
  simp only [Dev.rd, Dev.wr, rfGet_rfSet_self]
  exact bits_setBits_self _ _ h hh

/-- A field of another register is as before. -/
theorem rd_wr_addr {die k : Nat} {f g : Fld} (v : Nat) (h : regAddr k g.off ≠ regAddr die f.off) : (d.wr die f v).rd k g = d.rd k g := by
  simp only [Dev.rd, Dev.wr, rfGet_rfSet_other _ _ h]

/-- Another field of the same register is as before. -/
theorem rd_wr_field {die : Nat} {f g : Fld} (v : Nat) (ho : g.off = f.off) (hg : g.hi < 32) (hd : g.hi < f.lo ∨ f.hi < g.lo) :
    (d.wr die f v).rd die g = d.rd die g := by
  simp only [Dev.rd, Dev.wr, ho, rfGet_rfSet_self]
  exact bits_setBits_other _ _ hg hd

/-- Registers of different dies lie at different addresses. -/
theorem regAddr_die {j k o p : Nat} (ho : o < 2 ^ 28) (hp : p < 2 ^ 28) (h : j ≠ k) : regAddr j o ≠ regAddr k p := by
  simp only [regAddr]; omega

theorem regAddr_off {k o p : Nat} (h : o ≠ p) : regAddr k o ≠ regAddr k p := by
  simp only [regAddr]; omega

theorem rd_lt (die : Nat) (f : Fld) : d.rd die f < 2 ^ (f.hi + 1 - f.lo) := Nat.mod_lt _ (Nat.two_pow_pos _)

/-- A counter advances, and saturates at its width. -/
theorem rd_bump_self (die : Nat) (f : Fld) (n : Nat) (h : f.lo ≤ f.hi) (hh : f.hi < 32) :
    (d.bump die f n).rd die f = min (d.rd die f + n) (2 ^ (f.hi + 1 - f.lo) - 1) := by
  have p := Nat.two_pow_pos (f.hi + 1 - f.lo)
  rw [Dev.bump, rd_wr_self _ _ _ _ h hh, Nat.mod_eq_of_lt (by omega)]

theorem rd_bump_addr {die k : Nat} {f g : Fld} (n : Nat) (h : regAddr k g.off ≠ regAddr die f.off) : (d.bump die f n).rd k g = d.rd k g :=
  rd_wr_addr d _ h

/-! What the shared operations change at most. -/

theorem openGroup_frame (g : Nat) : d.openGroup g = { d with ev := (d.openGroup g).ev } := by
  unfold Dev.openGroup; dsimp only; split <;> rfl

theorem raiseAt_frame (k m : Nat) : d.raiseAt k m = { d with ev := (d.raiseAt k m).ev } := by
  unfold Dev.raiseAt; rw [openGroup_frame]; rfl

theorem raise_frame (k : Nat) : d.raise k = { d with regs := (d.raise k).regs, ev := (d.raise k).ev } := by
  unfold Dev.raise
  split
  · rfl
  · split
    · rfl
    · rw [raiseAt_frame]

theorem setLevel_frame (k : Nat) (h : Bool) : d.setLevel k h = { d with regs := (d.setLevel k h).regs, ev := (d.setLevel k h).ev } := by
  unfold Dev.setLevel; dsimp only
  split
  · split
    · rw [raise_frame]
    · rw [raise_frame]; rfl
  · split <;> rfl

theorem ashPut_frame (ty l : Nat) (b : Bytes) : d.ashPut ty l b = { d with regs := (d.ashPut ty l b).regs, ash := (d.ashPut ty l b).ash } := by
  unfold Dev.ashPut
  extract_lets lim
  split <;> rfl

/-- A chain of a send, a queued record, a count and a raise touches what each of them touches. -/
theorem frame_chain {d d1 d2 d3 d4 : Dev} (h1 : d1 = { d with out := d1.out })
    (h2 : d2 = { d1 with regs := d2.regs, ash := d2.ash }) (h3 : d3 = { d2 with pwr := d3.pwr })
    (h4 : d4 = { d3 with regs := d4.regs, ev := d4.ev }) :
    d4 = { d with regs := d4.regs, ev := d4.ev, ash := d4.ash, pwr := d4.pwr, out := d4.out } := by
  have e1 := congrArg Dev.pwr h4
  have a1 := congrArg Dev.ash h4
  have a2 := congrArg Dev.ash h3
  have b1 := congrArg Dev.out h4
  have b2 := congrArg Dev.out h3
  have b3 := congrArg Dev.out h2
  have e2 : d4.ash = d2.ash := a1.trans a2
  have e3 : d4.out = d1.out := b1.trans (b2.trans b3)
  rw [show d4.pwr = d3.pwr from e1, e2, e3]
  exact h4.trans ((congrArg (fun x : Dev => { x with regs := d4.regs, ev := d4.ev }) h3).trans
    ((congrArg (fun x : Dev => { x with pwr := d3.pwr, regs := d4.regs, ev := d4.ev }) h2).trans
      (congrArg (fun x : Dev => { x with ash := d2.ash, pwr := d3.pwr, regs := d4.regs, ev := d4.ev }) h1)))

/-- A fault descriptor leaves the device, is counted or logged, and may raise its die's source. -/
theorem descriptor_frame (l die blk u c a x : Nat) (b : Bytes) :
    let t := d.descriptor l die blk u c a x b
    t = { d with regs := t.regs, ev := t.ev, ash := t.ash, pwr := t.pwr, out := t.out } := by
  intro t
  by_cases h0 : l = 0
  · subst h0; rfl
  · have ht : t = d.descriptor l die blk u c a x b := rfl
    unfold Dev.descriptor at ht
    simp only [h0, if_false] at ht
    rw [ht]
    exact frame_chain rfl (ashPut_frame _ _ _ _) (by split <;> rfl) (raise_frame _ _)

theorem sendPkt_frame (r : Route) (p : Pkt) (u : Nat) : d.sendPkt r p u = { d with cp := (d.sendPkt r p u).cp, out := (d.sendPkt r p u).out } := by
  unfold Dev.sendPkt
  split
  · rfl
  · split <;> rfl

theorem replyRaw_frame (h : Hdr) (op st rs : Nat) (b : Bytes) (k : Option Bytes) :
    let t := d.replyRaw h op st rs b k
    t = { d with regs := t.regs, cp := t.cp, out := t.out } := by
  intro t
  have ht : t = d.replyRaw h op st rs b k := rfl
  clear_value t
  unfold Dev.replyRaw at ht
  dsimp only at ht
  rw [sendPkt_frame] at ht
  subst ht
  split <;> split <;> rfl

/-- Closing a session cancels what it has that has not begun. -/
theorem closeSession_frame (n : Nat) :
    let t := d.closeSession n
    t = { d with anvil := t.anvil, fns := t.fns, lay := t.lay, trm := t.trm } := rfl

theorem countAuth_frame (n st : Nat) :
    let t := d.countAuth n st
    t = { d with anvil := t.anvil, fns := t.fns, lay := t.lay, trm := t.trm } := by
  intro t
  have ht : t = d.countAuth n st := rfl
  clear_value t
  unfold Dev.countAuth at ht
  dsimp only at ht
  split at ht
  · subst ht; rfl
  · split at ht
    · split at ht <;> (subst ht; rfl)
    · subst ht; rfl

/-- Two steps that change at most what a final reply changes. -/
theorem reply_trans {d t u : Dev}
    (h : t = { d with regs := t.regs, anvil := t.anvil, cp := t.cp, out := t.out, fns := t.fns, lay := t.lay, trm := t.trm })
    (k : u = { t with regs := u.regs, anvil := u.anvil, cp := u.cp, out := u.out, fns := u.fns, lay := u.lay, trm := u.trm }) :
    u = { d with regs := u.regs, anvil := u.anvil, cp := u.cp, out := u.out, fns := u.fns, lay := u.lay, trm := u.trm } := by
  rw [h] at k
  exact k

/-- A final reply that goes out changes what sessions hold, what leaves the device and the count of failed authentications; the sixteenth
AUTH_FAIL in a row closes the session, which cancels what it has that has not begun. -/
theorem replyNow_frame (c : Cmd) (st rs : Nat) (b : Bytes) :
    let t := d.replyNow c st rs b
    t = { d with regs := t.regs, anvil := t.anvil, cp := t.cp, out := t.out, fns := t.fns, lay := t.lay, trm := t.trm } := by
  intro t
  have ht : t = d.replyNow c st rs b := rfl
  clear_value t
  unfold Dev.replyNow at ht
  dsimp only at ht
  split at ht
  · rw [replyRaw_frame] at ht; subst ht; rfl
  · split at ht
    · subst ht; rfl
    · split at ht
      · rw [replyRaw_frame] at ht
        split at ht <;> (subst ht; rfl)
      · rw [countAuth_frame, replyRaw_frame] at ht
        split at ht <;> (subst ht; rfl)

theorem replyDue_frame :
    let t := d.replyDue
    t = { d with regs := t.regs, anvil := t.anvil, cp := t.cp, out := t.out, fns := t.fns, lay := t.lay, trm := t.trm } := by
  intro t
  have ht : t = d.replyDue := rfl
  clear_value t
  unfold Dev.replyDue at ht
  split at ht
  · subst ht; rfl
  · rw [replyNow_frame] at ht; subst ht; rfl

theorem repliesDue_frame (n : Nat) :
    let t := Nat.repeat Dev.replyDue n d
    t = { d with regs := t.regs, anvil := t.anvil, cp := t.cp, out := t.out, fns := t.fns, lay := t.lay, trm := t.trm } := by
  induction n with
  | zero => rfl
  | succ n ih => exact reply_trans ih (replyDue_frame _)

/-- A final reply, with those that waited for it, changes what one reply changes. -/
theorem finalReply_frame (c : Cmd) (st rs : Nat) (b : Bytes) :
    let t := d.finalReply c st rs b
    t = { d with regs := t.regs, anvil := t.anvil, cp := t.cp, out := t.out, fns := t.fns, lay := t.lay, trm := t.trm } := by
  intro t
  have ht : t = d.finalReply c st rs b := rfl
  clear_value t
  unfold Dev.finalReply at ht
  split at ht
  · subst ht; rfl
  · subst ht
    exact reply_trans (replyNow_frame d c st rs b) (repliesDue_frame _ _)

theorem sendEvent_frame (n op tag : Nat) (b : Bytes) :
    let t := d.sendEvent n op tag b
    t = { d with anvil := t.anvil, cp := t.cp, out := t.out } := by
  intro t
  have ht : t = d.sendEvent n op tag b := rfl
  clear_value t
  unfold Dev.sendEvent at ht
  dsimp only at ht
  split at ht
  · subst ht; rfl
  · rw [sendPkt_frame] at ht; subst ht; rfl

/-- A completion event changes what its session holds and what leaves the device. -/
theorem complete_frame (c : Cmd) (st rs : Nat) (b : Bytes) :
    let t := d.complete c st rs b
    t = { d with anvil := t.anvil, cp := t.cp, out := t.out } := by
  intro t
  have ht : t = d.complete c st rs b := rfl
  clear_value t
  unfold Dev.complete at ht
  split at ht
  · subst ht; rfl
  · rw [sendEvent_frame] at ht; subst ht; rfl

theorem completeAll_frame (cs : List Cmd) (st rs : Nat) (b : Bytes) :
    let t := d.completeAll cs st rs b
    t = { d with anvil := t.anvil, cp := t.cp, out := t.out } := by
  show d.completeAll cs st rs b = _
  induction cs generalizing d with
  | nil => rfl
  | cons c r ih =>
    have e : d.completeAll (c :: r) st rs b = (d.complete c st rs b).completeAll r st rs b := rfl
    rw [e, ih, complete_frame]

@[simp] theorem completeAll_nil (st rs : Nat) (b : Bytes) : d.completeAll [] st rs b = d := rfl

/-- A function request changes the function, what sessions hold and what leaves the device (R55). -/
theorem request_frame (k : Nat) (on same : Bool) (c : Cmd) :
    let t := (d.request k on same c).1
    t = { d with anvil := t.anvil, cp := t.cp, out := t.out, fns := t.fns } := by
  show (d.request k on same c).1 = _
  simp only [Dev.request, Dev.superseded]
  rw [completeAll_frame]; rfl

theorem fnDone_frame (k : Nat) (b : Bytes) :
    let t := (d.fnDone k b).1
    t = { d with anvil := t.anvil, cp := t.cp, out := t.out, fns := t.fns } := by
  show (d.fnDone k b).1 = _
  simp only [Dev.fnDone]
  rw [completeAll_frame]; rfl

theorem fnFailed_frame (k rs : Nat) :
    let t := (d.fnFailed k rs).1
    t = { d with anvil := t.anvil, cp := t.cp, out := t.out, fns := t.fns } := by
  show (d.fnFailed k rs).1 = _
  simp only [Dev.fnFailed]
  rw [completeAll_frame, completeAll_frame]; rfl

theorem fnOff_frame (k rs : Nat) (b : Bytes) :
    let t := d.fnOff k rs b
    t = { d with anvil := t.anvil, cp := t.cp, out := t.out, fns := t.fns } := by
  show d.fnOff k rs b = _
  simp only [Dev.fnOff]
  split <;> rw [completeAll_frame, completeAll_frame] <;> rfl

/-- A function set reads as set; the others are as before. -/
@[simp] theorem fn_setFn_self (k : Nat) (f : Fn) : (d.setFn k f).fn k = f := amGet_amPut_self _ _ _ _

theorem fn_setFn_other {j k : Nat} (f : Fn) (h : j ≠ k) : (d.setFn k f).fn j = d.fn j := amGet_amPut_other _ _ _ h

@[simp] theorem src_setSrc_self (k : Nat) (x : Src) : (d.setSrc k x).src k = x := amGet_amPut_self _ _ _ _

theorem src_setSrc_other {j k : Nat} (x : Src) (h : j ≠ k) : (d.setSrc k x).src j = d.src j := amGet_amPut_other _ _ _ h

theorem sess_setSess_self {k : Nat} (x : Session) (h : k < d.anvil.sess.length) : (d.setSess k x).sess k = x := by
  simp [Dev.sess, Dev.setSess, List.getD, h]

theorem sess_setSess_other {j k : Nat} (x : Session) (h : j ≠ k) : (d.setSess k x).sess j = d.sess j := by
  simp [Dev.sess, Dev.setSess, List.getD, Ne.symm h]

/-- A write of a flue die that is answered and not refused: it is made, and the writes after it follow (R36, R550). -/
theorem flueRun_done {α : Type} (regOf : α → Nat × Option Fld) (w : Dev → α → Dev) (k : Nat) (x : α) (xs : List α)
    (hr : ((regOf x).2.isSome && d.writeRefused (regAddr (regOf x).1 (((regOf x).2.map Fld.off).getD 0))) = false)
    (ha : d.canAnswer (regOf x).1 = true) :
    flueRun regOf w none k (x :: xs) d = flueRun regOf w none (k + 1) xs (if (regOf x).2.isSome then
      (w d x).exchange (regOf x).1 0x05 (regAddr (regOf x).1 (((regOf x).2.map Fld.off).getD 0) * 2 ^ 32
        + (w d x).heldWord (regAddr (regOf x).1 (((regOf x).2.map Fld.off).getD 0)))
        ((w d x).heldWord (regAddr (regOf x).1 (((regOf x).2.map Fld.off).getD 0))) 0
      else w d x) := by
  rw [flueRun]
  simp only [hr, ha]
  rfl

/-- Where a die is not reachable nothing is written (R550). -/
theorem flueWrites_unreachable {α : Type} (h : Hdr) (dies : List Nat) (ws : List α) (regOf : α → Nat × Option Fld) (w : Dev → α → Dev)
    (hu : dies.all d.flueUp = false) : d.flueWrites h dies ws regOf w = (0, d, some (.bad St.fault 0)) := by
  simp [Dev.flueWrites, hu]

/-- Where the dies are reachable the writes run (R550). -/
theorem flueWrites_reachable {α : Type} (h : Hdr) (dies : List Nat) (ws : List α) (regOf : α → Nat × Option Fld) (w : Dev → α → Dev)
    (hu : dies.all d.flueUp = true) : d.flueWrites h dies ws regOf w = flueRun regOf w h.answered 0 ws d := by
  simp [Dev.flueWrites, hu]

end Sys2Proof.Machine
end

