-- ==== Sys2Proof/Tests/Slice0.lean ====
section
/-! SUPPORT. Small tests: an ill-formed term for each check of WellFormed.lean, worked values of the spec, and for each obligation a
theorem `test_meets_<its name>` that evaluates the hypotheses of its clauses, one conjunct a clause that has any, at a concrete state and
concrete operands that meet them, at the end of a range where the clause has a range. -/

namespace Sys2Proof.Tests

open Sys2Proof.Machine

set_option Elab.async false
set_option linter.unusedVariables false

/-- A header of the local channel. -/
def hd : Hdr := {
  route := .cp, version := 1, noSession := true, ordered := false, quiet := false, session := 0, seq := 1, tmode := 0, tid := 0
  tag := 7, mac := none, answered := none }

/-- The device 10 ms after reset, READY, changed by `f`. -/
def on (f : Dev → Dev) (hp : Heap := {}) : State :=
  { State.reset with heap := hp, dev := f {
      pwr := { ready := true }, time := { ({} : TimeSt) with t := [0, 0, 0, 10 ^ 7 * 2 ^ 32] } } }
def rdy (f : Dev → Dev) : State := on f

/-- The command begins, and `k` holds of it and of the device then. -/
def goes (i : Instr) (s : State) (k : Cmd → Dev → Bool) : Bool := mayBegin i s && k (begunCmd i s) (begunDev i s)

/-- A command of the local channel that is in progress. -/
def cm (op : Nat := 0) (p : Bytes := []) : Cmd := { who := 4, epoch := 0, h := hd, op := op, p := p }

/-- A header of session 1, on a management peer. -/
def sh : Hdr := { hd with route := .mgmt 1 1, noSession := false, session := 1, seq := 100 }

/-- Session 1 is open on that route, not authenticated, with highest SEQ `n`, whose command is held. -/
def inSess (n : Nat := 100) : State := on fun d => ({ d with anvil := { d.anvil with sess := d.anvil.sess.set 1 {
  isOpen := true, usable := true, route := .mgmt 1 1, high := n, recent := [⟨n, none⟩] } } }).wr 0 (R.NET_IF_LINK 16) 1

/-- A buffer whose first byte is 1; one of 64 bytes. -/
def buf (n : Nat) (size : Nat) : Obj := { handle := n, kind := .buffer, size := size, die := 1, mirror := none, lost := false, cells := [(0, 1)] }
def oneBuf : Heap := { objs := [buf 1 64], last := 1 }

/-- A packet of the control port. -/
def pk (n : Nat) : Pkt := { reply := true, event := false, noSession := true, session := 0, op := 1, seq := 1, tid := 0, tag := 7, body := zeros n, key := none }

/-- A surface of format 0. -/
def surfO (n w h : Nat) : Obj := {
  handle := n, kind := .surface 0 0 0 w h 0, size := imageBytes 0 0 w h, die := 1, mirror := none, lost := false, cells := [] }

/-- Two surfaces of 8 × 8, 2 and 3, and buffer 1 of 4096 bytes. -/
def twoSurf : Heap := { objs := [buf 1 4096, surfO 2 8 8, surfO 3 8 8], last := 3 }

/-- Both damper halves and the return channel are ON. -/
def damperOn (d : Dev) : Dev := ({ d with dmp := { d.dmp with ret := some 32 } }.wr 0 (R.DMP_HALF_ON 0) 1).wr 0 (R.DMP_HALF_ON 1) 1

/-- A stream of one 64 × 64 colour view without depth, kind 0, at 60 Hz. -/
def cfg0 : StreamCfg := ⟨0, 1, 4, 0, 64, 64, 0, 0, 0, [⟨0, false, false, 0, 96, 0xE8000001, 5000, 0⟩]⟩

/-- Slot 7 is configured so and ON, its view on hob die 3. -/
def streamOn (d : Dev) : Dev :=
  (d.setStream 7 fun x => { x with cfg := some cfg0, views := [{ owner := some 3 }] }).setFn (FnId.decode 7) { st := .on }

/-- A strip of region 0 dealt to grate 2 of die 4 for frame 5; a choice for that frame. -/
def str (phase : Nat) (redone : Bool := false) : Strip := { region := 0, view := 0, idx := 3, frame := 5, die := 4, grate := 2, phase := phase, redone := redone }
def pick5 : Pick := ⟨5, 0, 0, 7, [], [], [], [], (0, []), true⟩
def withStrip (t : Strip) (d : Dev) : Dev := { d with mode := 1, syn := { d.syn with strips := [t], picks := [pick5] } }

/-- A raster of panel mode. -/
def ras0 : Raster := ⟨4, 1920, 1088, 45, 0⟩

/-- Panel mode with region 0, all links and both flue dies ON. -/
def panelOn (d : Dev) : Dev :=
  (List.range 8).foldl (fun d n => d.setFn (FnId.link n) { st := .on }) ((damperOn { d with mode := 1, ras := { d.ras with
    rasters := [some ras0, none, none, none], live := List.replicate 8 true } }).setFn (FnId.region 0) { st := .on })

/-- The film is ON too, with a table. -/
def filmOn (d : Dev) : Dev := ({ panelOn d with film := { d.film with table := [1] } } : Dev).setFn FnId.film { st := .on }


/-- A device whose clocks have run for 1,000 s. -/
def late (d : Dev) : Dev := { d with time := { d.time with t := [10 ^ 12 * 2 ^ 32, 0, 0, 10 ^ 12 * 2 ^ 32] } }

/-- Parameter sets of a colour view of 64 × 64 in the Main profile, and a slice of it. -/
def ps0 : ParamSet := ⟨.main, 60, 1, 8, 8, 64, 64, 1001, 4, 1, false, [], 0, 0, false, 0, 64⟩
def slice0 (bytes : Nat) : SliceInfo := ⟨ps0, false, 0, 0, 1, 1, 1, none, [], [], bytes, true⟩

/-- Slot 7 is ON with a slice waiting and its parameter sets at hob die 3. -/
def sliceOn (d : Dev) : Dev :=
  (streamOn d).setStream 7 fun x => { x with nals := [⟨0, false, 0, 9, [2, 1]⟩], sets := [(3, 0, [66, 1]), (3, 0, [68, 1])] }

/-- A flue link has trained. -/
def trained (n : Nat) (d : Dev) : Dev := d.wr (linkDie n) (R.LNK_FL_STATE_PHASE (linkOn n)) 6

/-! Ill-formed terms, one for each check, and each event with every checked operand at its greatest value. -/

theorem test_ill_formed_1 : (([
    .decodeTransitionDone 8, .surfaceFreeComplete 65536, .lampTransitionDone 2, .lanePowerDone 8, .portTransitionDone 5, .memTestDone 16 0
    0 0 0, .memTestDone 0 0 18446744073709551616 0 0, .memTestDone 0 0 0 65536 0, .camTransitionDone 2, .cpWrite 256 [], .cpRead 256 0,
    .cpStatus 256, .cpAbandon 256 [], .fragmentTimeout 4294967296 0, .fragmentTimeout 0 65536, .sessionIdleTimeout 4, .authOpenTimeout 4,
    .flitGroupReplay 11 false, .fabricHeartbeat 11, .fabricLinkDown 11, .fabricLinkRestore 11, .hobWatchdogTimeout 4, .hobDieFail 4,
    .cellCheckFail 5 0 0 0, .cellCheckFail 0 3 0 0, .cellCheckFail 0 0 8 0, .cellCheckFail 0 0 0 4, .damperFwdLoss 2, .damperFwdRestore 2,
    .damperLaneLoss 36, .creditRegrant 2, .timeFwd 10 0 0 .good, .timeFwd 0 18446744073709551616 0 .good, .timeFwd 0 0
    18446744073709551616 .good, .flueSynthHoldover 10, .abandon 8 0, .abandon 0 281474976710656, .damperCommitPart 10 [] 0 .good,
    .damperCommitPart 0 [] 65536 .good, .damperRegWrite 10 0 0 0 .good, .damperRegWrite 0 4294967296 0 0 .good, .damperRegWrite 0 0
    4294967296 0 .good, .damperRegWrite 0 0 0 65536 .good, .damperRegRead 10 0 0 .good, .damperRegRead 0 4294967296 0 .good,
    .damperRegRead 0 0 65536 .good, .pixelRun 10 [] .good, .bulkWrite 10 0 0 [] 0 .good] : List Instr).all fun i => !i.wf) = true := by decide +kernel

theorem test_ill_formed_2 : (([
    .bulkWrite 0 4294967296 0 [] 0 .good, .bulkWrite 0 0 65536 [] 0 .good, .bulkWrite 0 0 0 [] 65536 .good, .pfail 2 0 0 .good, .pfail 0 4
    0 .good, .pfail 0 0 281474976710656 .good, .credit 2 [] .good, .frameReport 2 [] .good, .event 2 0 .good, .event 0 1024 .good,
    .regReply 2 0 .good, .regReply 0 18446744073709551616 .good, .telemetry 2 [] .good, .damperReplyTimeout 10 0 0, .damperReplyTimeout 0
    256 0, .damperReplyTimeout 0 0 65536, .rtpPacketRx 8 0 0 false false false [], .rtpPacketRx 0 32 0 false false false [], .rtpPacketRx
    0 0 4294967296 false false false [], .pathPacketRx 8 0 0 0 0 0 0 false false [], .pathPacketRx 0 32 0 0 0 0 0 false false [],
    .pathPacketRx 0 0 2 0 0 0 0 false false [], .pathPacketRx 0 0 0 128 0 0 0 false false [], .pathPacketRx 0 0 0 0 4294967296 0 0 false
    false [], .pathPacketRx 0 0 0 0 0 65536 0 false false [], .pathPacketRx 0 0 0 0 0 0 4294967296 false false [], .pathDown 8 0 0,
    .pathDown 0 32 0, .pathDown 0 0 2, .ssrcTimeout 8 0, .ssrcTimeout 0 32, .sliceSegmentParse 4 0 (slice0 9), .sliceSegmentParse 0 2
    (slice0 9), .ctuRowReconstruct 4 0, .ctuRowReconstruct 0 6, .accessUnitClose 8 0 0 0 0, .accessUnitClose 0 32 0 0 0,
    .uncompressedPictureClose 8 0, .uncompressedPictureClose 0 32, .pictureLate 8 0 false, .pictureLate 0 16 false, .pickTime
    281474976710656, .stripDeal 4 0 0 0, .stripDeal 0 32 0 0, .stripDeal 0 0 1024 0, .stripDeal 0 0 0 281474976710656, .stripBegin 4 0 0
    0, .stripBegin 0 32 0 0] : List Instr).all fun i => !i.wf) = true := by decide +kernel

theorem test_ill_formed_3 : (([
    .stripBegin 0 0 1024 0, .stripBegin 0 0 0 281474976710656, .stripComplete 4 0 0 0 [] [], .stripComplete 0 32 0 0 [] [], .stripComplete
    0 0 1024 0 [] [], .stripComplete 0 0 0 281474976710656 [] [], .stripLineSend 4 0 0 0, .stripLineSend 0 32 0 0, .stripLineSend 0 0 1024
    0, .stripLineSend 0 0 0 281474976710656, .stripRescue 4 0 0 0, .stripRescue 0 32 0 0, .stripRescue 0 0 1024 0, .stripRescue 0 0 0
    281474976710656, .stripDeadlineMiss 4 0 0 0, .stripDeadlineMiss 0 32 0 0, .stripDeadlineMiss 0 0 1024 0, .stripDeadlineMiss 0 0 0
    281474976710656, .excusedLineSend 4 0 0 0, .excusedLineSend 0 32 0 0, .excusedLineSend 0 0 1024 0, .excusedLineSend 0 0 0
    281474976710656, .monitorStrip 4 0 0 0 [] [], .monitorStrip 0 1024 0 0 [] [], .monitorStrip 0 0 10 0 [] [], .monitorStrip 0 0 0 3 []
    [], .layerRelease 8, .latchLine 2, .lineSend 8 0, .powerFail 2 0, .powerFail 0 4, .parkStep 2, .powerReturn 2, .lampTransaction 2 0 0,
    .lampTransaction 0 256 0, .lampTransaction 0 0 65536, .lampReplyTimeout 2 false, .lostNodePoll 2 0 .silent, .lostNodePoll 0 32
    .silent, .lampEnumerate 2 [], .bellowsTick 2 false [], .markerRound 11, .hello 8 0 0, .hello 0 281474976710656 0, .hello 0 0 256,
    .backStatus 8 0 0 false 0 0 0 0, .backStatus 0 32 0 false 0 0 0 0, .backStatus 0 0 32 false 0 0 0 0] : List Instr).all fun i => !i.wf) = true := by decide +kernel

theorem test_ill_formed_4 : (([
    .backStatus 0 0 0 false 65536 0 0 0, .backStatus 0 0 0 false 0 256 0 0, .backStatus 0 0 0 false 0 0 256 0, .backStatus 0 0 0 false 0 0
    0 65536, .eqReq 8 0 false 0 0 0, .eqReq 0 5 false 0 0 0, .eqReq 0 0 false 4 0 0, .eqReq 0 0 false 0 4 0, .eqReq 0 0 false 0 0 4,
    .lstat 10 0 none, .lstat 0 68719476736 none, .trainPhaseAdvance 11, .linkPhaseTimeout 8, .listenRetry 8, .linkTransitionDone 8,
    .laneRetrain 11 0 false, .laneRetrain 0 36 false, .sleepBurst 8, .ethFrameRx 17 false 0 0 [], .portLinkChange 17 false, .ptpAnnounceRx
    17 0 0 0 0 0 0 0 0 0 0 false 0, .ptpAnnounceRx 0 1208925819614629174706176 0 0 0 0 0 0 0 0 0 false 0, .ptpAnnounceRx 0 0 0 0 0 0 0 0 0
    256 0 false 0, .ptpAnnounceRx 0 0 0 0 0 0 0 0 0 0 0 false 4294967296, .ptpSyncRx 17 0 0 0 false 0 0, .ptpSyncRx 0 0 256 0 false 0 0,
    .ptpSyncRx 0 0 0 0 false 65536 0, .delayRespRx 17 0 0 0 0, .delayRespRx 0 0 256 0 0, .delayRespRx 0 0 0 65536 0, .announceTimeout 17
    0, .captureEdge 5 false, .tpoFire 8, .ptpAdjGo 4 0, .ptpAdjGo 0 65536, .ptpIncrWrite 4 0, .ptpIncrWrite 0 256, .ptpTimeLatchRead 4,
    .twinHeartbeatRx 4294967296 0 0 0 0 [], .twinHeartbeatRx 0 256 0 0 0 [], .twinHeartbeatRx 0 0 65536 0 0 [], .twinHeartbeatRx 0 0 0
    281474976710656 0 [], .twinHeartbeatRx 0 0 0 0 18446744073709551616 [], .memRequest 16 0 none none 0 0 0, .memRequest 0 0 none none 0
    256 0, .scrubRead 16 0 0 0 false, .scrubRead 0 0 0 256 false, .memRefresh 16] : List Instr).all fun i => !i.wf) = true := by decide +kernel

theorem test_ill_formed_5 : (([
    .mr4Poll 16 0 false, .mr4Poll 0 32 false, .actWindowStart 16, .memChannelFreqChange 16, .dqsRetrack 16 false, .memRequestTimeout 16,
    .channelFail 16 0, .channelFail 0 256, .bufferReplace 16, .mapMirrorRecreate 4, .refLoss 2, .refValid 2, .mainLockLoss 10,
    .pllLockAcquire 10 0, .pllLockAcquire 0 2, .mainReturn 10, .spareLockLoss 10, .camFrameStart 2, .camLineRx 2 0 0 0 false [],
    .camLineRx 0 4 0 0 false [], .camLineRx 0 0 64 0 false [], .camFrameEnd 2, .camFrameTimeout 2, .camLost 2, .cciWrite 2 false,
    .cciListTimeout 2, .tinkerCoreSwitch 256, .flueThermalShutdown 2, .irqDoorbell 1024, .irqComplete 1024 false, .groupHoldoffEnd 32,
    .encRowCode 4 0 [] [], .encSliceSend 4 [], .encTransitionDone 4, .startupStageComplete 6 [] [], .damperHalfJoin 2, .railComparatorTrip
    16 false, .pwrSafeWrite 4294967296, .pwrShutdownWrite 2 0, .pwrShutdownWrite 0 4294967296, .pwrFlueResetWrite 2 0, .pwrFlueResetWrite
    0 4294967296, .registerWrite 4294967296 0, .registerWrite 0 4294967296, .housekeepingSample 96 0, .housekeepingSample 0 4294967296,
    .ptpFollowUpRx 17 0 0 0 0, .ptpFollowUpRx 0 0 256 0 0] : List Instr).all fun i => !i.wf) = true := by decide +kernel

theorem test_ill_formed_6 : (([
    .ptpFollowUpRx 0 0 0 65536 0] : List Instr).all fun i => !i.wf) = true := by decide +kernel

theorem test_well_formed_1 : (([
    .decodeTransitionDone 7, .surfaceFreeComplete 65535, .lampTransitionDone 1, .lanePowerDone 7, .portTransitionDone 4, .memTestDone 15 0
    18446744073709551615 65535 0, .camTransitionDone 1, .cpWrite 255 [], .cpRead 255 0, .cpStatus 255, .cpAbandon 255 [], .fragmentTimeout
    4294967295 65535, .sessionIdleTimeout 3, .authOpenTimeout 3, .flitGroupReplay 10 false, .fabricHeartbeat 10, .fabricLinkDown 10,
    .fabricLinkRestore 10, .hobWatchdogTimeout 3, .hobDieFail 3, .cellCheckFail 4 2 7 3, .damperFwdLoss 1, .damperFwdRestore 1,
    .damperLaneLoss 35, .creditRegrant 1, .timeFwd 9 18446744073709551615 18446744073709551615 .good, .flueSynthHoldover 9, .abandon 7
    281474976710655, .damperCommitPart 9 [] 65535 .good, .damperRegWrite 9 4294967295 4294967295 65535 .good, .damperRegRead 9 4294967295
    65535 .good, .pixelRun 9 [] .good, .bulkWrite 9 4294967295 65535 [] 65535 .good, .pfail 1 3 281474976710655 .good, .credit 1 [] .good,
    .frameReport 1 [] .good, .event 1 1023 .good, .regReply 1 18446744073709551615 .good, .telemetry 1 [] .good, .damperReplyTimeout 9 255
    65535, .rtpPacketRx 7 31 4294967295 false false false [], .pathPacketRx 7 31 1 127 4294967295 65535 4294967295 false false [],
    .pathDown 7 31 1, .ssrcTimeout 7 31, .sliceSegmentParse 3 1 (slice0 9), .ctuRowReconstruct 3 5, .accessUnitClose 7 31 0 0 0,
    .uncompressedPictureClose 7 31, .pictureLate 7 15 false, .pickTime 281474976710655, .stripDeal 3 31 1023 281474976710655, .stripBegin
    3 31 1023 281474976710655, .stripComplete 3 31 1023 281474976710655 [] [], .stripLineSend 3 31 1023 281474976710655, .stripRescue 3 31
    1023 281474976710655, .stripDeadlineMiss 3 31 1023 281474976710655, .excusedLineSend 3 31 1023 281474976710655, .monitorStrip 3 1023 9
    2 [] [], .layerRelease 7, .latchLine 1, .lineSend 7 0, .powerFail 1 3, .parkStep 1, .powerReturn 1, .lampTransaction 1 255 65535,
    .lampReplyTimeout 1 false, .lostNodePoll 1 31 .silent, .lampEnumerate 1 [], .bellowsTick 1 false [], .markerRound 10, .hello 7
    281474976710655 255, .backStatus 7 31 31 false 65535 255 255 65535, .eqReq 7 4 false 3 3 3, .lstat 9 68719476735 none,
    .trainPhaseAdvance 10, .linkPhaseTimeout 7, .listenRetry 7, .linkTransitionDone 7, .laneRetrain 10 35 false, .sleepBurst 7] : List Instr).all Instr.wf) = true := by decide +kernel

theorem test_well_formed_2 : (([
    .ethFrameRx 16 false 0 0 [], .portLinkChange 16 false, .ptpAnnounceRx 16 1208925819614629174706175 0 0 0 0 0 0 0 255 0 false
    4294967295, .ptpSyncRx 16 0 255 0 false 65535 0, .delayRespRx 16 0 255 65535 0, .announceTimeout 16 0, .captureEdge 4 false, .tpoFire
    7, .ptpAdjGo 3 65535, .ptpIncrWrite 3 255, .ptpTimeLatchRead 3, .twinHeartbeatRx 4294967295 255 65535 281474976710655
    18446744073709551615 [], .memRequest 15 0 none none 0 255 0, .scrubRead 15 0 0 255 false, .memRefresh 15, .mr4Poll 15 31 false,
    .actWindowStart 15, .memChannelFreqChange 15, .dqsRetrack 15 false, .memRequestTimeout 15, .channelFail 15 255, .bufferReplace 15,
    .mapMirrorRecreate 3, .refLoss 1, .refValid 1, .mainLockLoss 9, .pllLockAcquire 9 1, .mainReturn 9, .spareLockLoss 9, .camFrameStart
    1, .camLineRx 1 3 63 0 false [], .camFrameEnd 1, .camFrameTimeout 1, .camLost 1, .cciWrite 1 false, .cciListTimeout 1,
    .tinkerCoreSwitch 255, .flueThermalShutdown 1, .irqDoorbell 1023, .irqComplete 1023 false, .groupHoldoffEnd 31, .encRowCode 3 0 [] [],
    .encSliceSend 3 [], .encTransitionDone 3, .startupStageComplete 5 [] [], .damperHalfJoin 1, .railComparatorTrip 15 false,
    .pwrSafeWrite 4294967295, .pwrShutdownWrite 1 4294967295, .pwrFlueResetWrite 1 4294967295, .registerWrite 4294967295 4294967295,
    .housekeepingSample 95 4294967295, .ptpFollowUpRx 16 0 255 65535 0] : List Instr).all Instr.wf) = true := by decide +kernel

theorem test_ill_formed_headers : (([{ hd with version := 256 }, { hd with session := 4 }, { hd with seq := 65536 }, { hd with tmode := 4 },
    { hd with tid := 16384 }, { hd with tag := 2 ^ 32 }, { hd with mac := some (zeros 31) }] : List Hdr).all fun h => !(Instr.identity h []).wf) = true := by
  decide +kernel

theorem test_ill_formed_length (p : Bytes) (h : p.length = 65536) : (Instr.identity hd p).wf = false := by
  have e : (Instr.identity hd p).wf = (hd.wf && decide (p.length < 2 ^ 16)) := rfl
  rw [e, h]
  rfl

theorem test_well_formed_command : (Instr.identity { hd with session := 3, mac := some (zeros 32) } (zeros 4096)).wf = true := by decide +kernel

/-! Worked values of the spec. -/

/-- The check value of CRC-32C (R39). -/
theorem test_crc32c_check_value : crc32c [49, 50, 51, 52, 53, 54, 55, 56, 57] = 0xE3069283 := by decide +kernel

/-- R7's example: offset 0x0_0140 in block 0x12 of hob die 2. -/
theorem test_register_address : (3 * 2 ^ 28 + 0x12 * 2 ^ 20 + 0x140 = 0x31200140) ∧ regAddr 3 0x1200140 = 0x31200140 := by decide +kernel

/-- The example after R36: a register write to flue die 1 is answered with the payload word 0x0000_4000_0005_01A7. -/
theorem test_flue_register_reply :
    (match exec (.damperRegWrite 9 0x92300210 0x4000 0x1A7 .good) (on damperOn) with
      | .next t => (t.dev.flueEnd 1).queue == [⟨0x81, [0x00004000000501A7]⟩]
      | _ => false) = true := by decide +kernel

/-- The stream of R495: 1,920 × 1,080, SLICE_ROWS 1, BITRATE 20 Mb/s, VBV 1,000,000, PRIORITY 6. -/
def encWorked : Bytes := [0, 0, 0, 6] ++ enc 2 1920 ++ enc 2 1080 ++ [1, 0, 1, 0] ++ enc 2 60 ++ [0, 0] ++ enc 4 20000000 ++ enc 4 1000000
  ++ [0, 96] ++ enc 2 5004 ++ enc 4 0xE8000001 ++ zeros 8

/-- R495: A at 60 Hz, and the reserve of an I picture. -/
theorem test_encoder_reserve : encA 7 encWorked = 333333 ∧ intraReserve encWorked = 54400 := by decide +kernel

/-- The case after R495: row 12 is discarded, the picture is 393,860 bits and the bucket becomes 339,473. -/
theorem test_encoder_starved_picture :
    (match exec (.encRowCode 0 9800 (List.replicate 5 352) []) (on fun d => ({ d with conf := { d.conf with slots := d.conf.slots.set 0 {
        cfg := encWorked, b := 400000, pics := [{ frame := 9, time := 0, num := 3, intra := false, waits := false, budget := 400000, spent := 392100, row := 12 }] } } } : Dev).wrB 8 R.SCN_RATE 7) with
      | .next t => decide ((t.dev.encSlot 0).b = 339473) && (t.dev.encSlot 0).pics.map (fun q => (q.spent, q.row, q.starved)) == [(393860, 17, some 12)]
      | _ => false) = true := by decide +kernel

/-- A step on a waiting command is exec on the queue's rest. -/
theorem test_step_takes_the_front :
    (match step { dev := {}, heap := {}, pending := [.memRefresh 0, .resetAssert] } with
      | .next t => decide (t.pending = [.resetAssert])
      | _ => false) = true := by decide +kernel

/-- The case "From emitter to ray" of the ray model's chapter: its four entries, its layout, angles and aim, and its record. -/
theorem test_ray_of_an_emitter :
    (let entry (dx gain : Nat) : Nat := dx + 0xFEB8 * 2 ^ 32 + gain * 2 ^ 64 + 2 ^ 80
     let d : Dev := ((({} : Dev).wr 1 R.SYN_RM_GRID_LAYOUT 2).wr 1 R.SYN_RM_FAN_HALF_H 0x1400).wr 1 R.SYN_RM_FAN_HALF_V 0x0C00
     let d := d.wrB 1 (R.SYN_RM_AIM_AIM_T 1) 0x2000
     let d : Dev := { d with pm := { d.pm with copies := [⟨5, true,
       [(11853, entry 0x0400 0x4000), (11854, entry 0x0800 0x4000), (12109, entry 0 0x399A), (12110, entry 0x0400 0x399A)]⟩] } }
     d.rayPanel 1 0 16384 8192 5000 3000 1 == ⟨0x01388500, 0x00BB8000, 0x03F8, -214, 0x3D8D, 136, false, false, false⟩) = true := by decide +kernel

/-- The table of 1,744 bytes before its CRC; the CRC is computed in sixteen parts. -/
def waveform : Bytes := zeros 1536 ++ List.replicate 128 24 ++ zeros 80
theorem waveform_crc_0 : ((waveform.drop 0).take 109).foldl crc32cByte 4294967295 = 1751114799 := by decide +kernel
theorem waveform_crc_1 : ((waveform.drop 109).take 109).foldl crc32cByte 1751114799 = 1719311270 := by decide +kernel
theorem waveform_crc_2 : ((waveform.drop 218).take 109).foldl crc32cByte 1719311270 = 936545247 := by decide +kernel
theorem waveform_crc_3 : ((waveform.drop 327).take 109).foldl crc32cByte 936545247 = 904600026 := by decide +kernel
theorem waveform_crc_4 : ((waveform.drop 436).take 109).foldl crc32cByte 904600026 = 3900582994 := by decide +kernel
theorem waveform_crc_5 : ((waveform.drop 545).take 109).foldl crc32cByte 3900582994 = 3529850193 := by decide +kernel
theorem waveform_crc_6 : ((waveform.drop 654).take 109).foldl crc32cByte 3529850193 = 3139390704 := by decide +kernel
theorem waveform_crc_7 : ((waveform.drop 763).take 109).foldl crc32cByte 3139390704 = 461940307 := by decide +kernel
theorem waveform_crc_8 : ((waveform.drop 872).take 109).foldl crc32cByte 461940307 = 3706973189 := by decide +kernel
theorem waveform_crc_9 : ((waveform.drop 981).take 109).foldl crc32cByte 3706973189 = 3718110622 := by decide +kernel
theorem waveform_crc_10 : ((waveform.drop 1090).take 109).foldl crc32cByte 3718110622 = 2809210388 := by decide +kernel
theorem waveform_crc_11 : ((waveform.drop 1199).take 109).foldl crc32cByte 2809210388 = 3396436519 := by decide +kernel
theorem waveform_crc_12 : ((waveform.drop 1308).take 109).foldl crc32cByte 3396436519 = 2591266326 := by decide +kernel
theorem waveform_crc_13 : ((waveform.drop 1417).take 109).foldl crc32cByte 2591266326 = 518841382 := by decide +kernel
theorem waveform_crc_14 : ((waveform.drop 1526).take 109).foldl crc32cByte 518841382 = 436539736 := by decide +kernel
theorem waveform_crc_15 : ((waveform.drop 1635).take 109).foldl crc32cByte 436539736 = 1253171983 := by decide +kernel
/-- A waveform table: every drive code 0, every sequence 24 steps, no thresholds. -/
def waveformFile : Bytes := waveform ++ encLe 4 3041795312
def waveformObj : Obj := Obj.write { handle := 1, kind := .buffer, size := 1748, die := 1, mirror := none, lost := false, cells := [] } 0 waveformFile

theorem waveform_crc : crc32c waveform = 3041795312 := by
  have split (k c d : Nat) (h : ((waveform.drop (109 * k)).take 109).foldl crc32cByte c = d) :
      (waveform.drop (109 * k)).foldl crc32cByte c = (waveform.drop (109 * (k + 1))).foldl crc32cByte d := by
    conv_lhs => rw [← List.take_append_drop 109 (waveform.drop (109 * k))]
    rw [List.foldl_append, h, List.drop_drop, Nat.mul_succ]
  have h0 := split 0 _ _ waveform_crc_0
  have h1 := h0.trans (split 1 _ _ waveform_crc_1)
  have h2 := h1.trans (split 2 _ _ waveform_crc_2)
  have h3 := h2.trans (split 3 _ _ waveform_crc_3)
  have h4 := h3.trans (split 4 _ _ waveform_crc_4)
  have h5 := h4.trans (split 5 _ _ waveform_crc_5)
  have h6 := h5.trans (split 6 _ _ waveform_crc_6)
  have h7 := h6.trans (split 7 _ _ waveform_crc_7)
  have h8 := h7.trans (split 8 _ _ waveform_crc_8)
  have h9 := h8.trans (split 9 _ _ waveform_crc_9)
  have h10 := h9.trans (split 10 _ _ waveform_crc_10)
  have h11 := h10.trans (split 11 _ _ waveform_crc_11)
  have h12 := h11.trans (split 12 _ _ waveform_crc_12)
  have h13 := h12.trans (split 13 _ _ waveform_crc_13)
  have h14 := h13.trans (split 14 _ _ waveform_crc_14)
  have h15 := h14.trans (split 15 _ _ waveform_crc_15)
  have e : waveform.drop (109 * 16) = [] := List.drop_eq_nil_of_le (by decide +kernel)
  have h : waveform.foldl crc32cByte 0xFFFFFFFF = 1253171983 := by
    rw [e, Nat.mul_zero, List.drop_zero, List.foldl_nil] at h15
    exact h15
  rw [crc32c, h]; decide +kernel

theorem waveform_zero (k : Nat) (h : k < 1536) : u8 waveformFile k = 0 := by
  simp only [u8, waveformFile, waveform, zeros, List.append_assoc]
  rw [List.getD_append _ _ _ _ (by rw [List.length_replicate]; exact h), List.getD_replicate _ (by exact h)]
  rfl

theorem waveform_steps (k : Nat) (h : k < 128) : u8 waveformFile (1536 + k) = 24 := by
  simp only [u8, waveformFile, waveform, zeros, List.append_assoc]
  rw [List.getD_append_right _ _ _ _ (by rw [List.length_replicate]; omega), List.length_replicate, Nat.add_sub_cancel_left,
    List.getD_append _ _ _ _ (by rw [List.length_replicate]; exact h), List.getD_replicate _ h]
  rfl

theorem waveform_drive (band old new s : Nat) (h : ((band * 4 + old) * 4 + new) * 48 + s < 6144) : tblDrive waveformFile band old new s = 0 := by
  simp only [tblDrive, code2]
  rw [Nat.zero_add, waveform_zero _ (by omega)]
  simp

theorem waveform_ok : tableOk waveformFile = true := by
  have t : waveformFile.take 1744 = waveform := by
    rw [waveformFile, List.take_append_of_le_length (by decide +kernel), List.take_of_length_le (by decide +kernel)]
  have a : waveformFile.length = 1748 := by decide +kernel
  have b : le 4 waveformFile 1744 = 3041795312 := by decide +kernel
  have z : zero? waveformFile 1742 2 = true := by decide +kernel
  have th : ((List.range 6).all fun i => decide (tblThr waveformFile (i + 1) ≤ tblThr waveformFile (i + 2))) = true := by decide +kernel
  simp only [List.all_eq_true, List.mem_range, decide_eq_true_eq] at th
  simp only [tableOk, t, waveform_crc, b, a, z, Bool.and_eq_true, List.all_eq_true, List.mem_range, decide_eq_true_eq]
  refine ⟨⟨⟨⟨trivial, trivial⟩, trivial⟩, th⟩, fun e he => ?_⟩
  rw [waveform_steps e he]
  refine ⟨by split <;> simp, fun s hs => ?_⟩
  simp only [fromN, List.mem_map, List.mem_range] at hs
  obtain ⟨x, hx, rfl⟩ := hs
  exact waveform_drive _ _ _ _ (by omega)

/-- A load whose buffer holds the table answers it (clause of FilmCommands). -/
theorem test_waveform_table_loads (c : Cmd) : tableImage ⟨c, 0, 1, 0, 1748⟩ (some waveformObj) = .ok waveformFile := by
  have h : waveformObj.read 0 1748 = waveformFile := by
    have e : waveformFile.length = 1748 := by decide +kernel
    have r : waveformObj.read 0 waveformFile.length = waveformFile := Obj.read_write (by rw [e]) rfl
    rwa [e] at r
  have hl : waveformObj.lost = false := by rw [waveformObj, Obj.write]
  simp only [tableImage, h, waveform_ok, hl, Bool.false_eq_true, if_false, if_true]

/-- An image that UPDATE_STAGE accepts, if its signature is good: the clause of CoresUpdatesResetsAndTwins whose premise names the signature. -/
theorem test_image_accepted (h : Config.signatureOk (encLe 4 0x48435450 ++ encLe 2 1 ++ encLe 2 1 ++ [0xB0, 2, 4, 1] ++ zeros 4 ++ encLe 4 1 ++ zeros 141) = true) :
    imageBad 1 (encLe 4 0x48435450 ++ encLe 2 1 ++ encLe 2 1 ++ [0xB0, 2, 4, 1] ++ zeros 4 ++ encLe 4 1 ++ zeros 141) = none := by
  simp only [imageBad, h]
  decide +kernel

/-- A slice of a layer that is discarded, if the base set maps layer 1 to none: the clause of PicturesAreParsedAndClosed whose premise names
the map. -/
theorem test_discarded_layer (h : bit (Config.layerOf [] 1).toNat 6 = true) :
    (let z : Source := ⟨0, false, true, 0, 96, 0xE8000001, 5000, 0⟩
     let c := { cfg0 with sources := [z] }
     let d := (on fun d => d.setStream 7 fun x => { x with cfg := some c }).dev
     let nal : Bytes := [2, 9]
     (d.stream 7).cfg = some c ∧ d.source? 7 0 = some z ∧ ¬ (32 ≤ u8 nal 0 / 2 % 64 ∧ u8 nal 0 / 2 % 64 ≤ 34)
       ∧ layerComp c z (d.rxOf 7 0).vps (u8 nal 0 % 2 * 32 + u8 nal 1 / 8) = none) := by
  refine ⟨by decide +kernel, by decide +kernel, by decide +kernel, ?_⟩
  have e : ((on fun d => d.setStream 7 fun x => { x with cfg := some { cfg0 with sources := [⟨0, false, true, 0, 96, 0xE8000001, 5000, 0⟩] } }).dev.rxOf 7
    0).vps = [] := by decide +kernel
  dsimp only
  have l : u8 ([2, 9] : Bytes) 0 % 2 * 32 + u8 ([2, 9] : Bytes) 1 / 8 = 1 := by decide +kernel
  rw [e, l]
  exact if_pos (Or.inl h)

/-! Hypotheses of the obligations met. -/

theorem test_meets_IdleStepTicksTheClock : (
    (let s : State := rdy id; decide (s.pending = []) && decide (s.dev.resumable = none) && decide (s.dev.cp.inbound = []) && decide (s.dev.anvil.inbound = [])) &&
    decide ((on id).dev.time.t.length = 4 ∧ (on id).dev.time.incr.length = 4)) = true := by decide +kernel

theorem test_meets_OnlyHeapCommandsChangeTheHeap : (
    (changesHeap .hkRoundEnd == false)) = true := by decide +kernel

theorem test_meets_StepKeepsHeapForm : (
    oneBuf.wf) = true := by decide +kernel

theorem test_meets_PacketReadsBack : (
    ((opSpec (.rasterStatus hd [])).isSome && decide ((Instr.rasterStatus hd []).hdr? = some hd)) &&
    (let i : Instr := .thmAck hd [3, 0, 0, 0]; decide ((opSpec i).map OpSpec.op = some 0x5001 ∧ i.hdr? = some hd ∧ i.wf = true ∧ hd.answered = none ∧ i.params.length ≤ 4096))) = true := by decide +kernel

theorem test_meets_InterfaceWorkTouchesOnlyTheInterface : (
    goes (.status hd []) (on id) fun _ _ => true &&
    (let d := (on id).dev; decide (St.done ≠ St.authFail ∧ (∀ r ∈ d.anvil.due, r.st ≠ St.authFail) ∧ d.replyBlocked (cm) = false ∧ d.anvil.due = []))) = true := by decide +kernel

theorem test_meets_LocalChannelBegins : (
    (let i : Instr := .thmAck hd [3, 0, 0, 0]; let s := on id; match opSpec i with | some sp => decide (i.hdr? = some hd ∧ LocalEntry s hd i.params ∧ LocalGoes s hd sp.op ∧ sp.lenOk i.params = true ∧ sp.check s hd i.params = none ∧ ClassAllowed s.dev sp.cls) | none => false)) = true := by decide +kernel

theorem test_meets_SessionWindowMoves : (
    (let i : Instr := .thmAck sh [3, 0, 0, 0]; let h := sh; let s := inSess 32869; (match opSpec i with | some sp => sp.lenOk i.params && decide (sp.check s h i.params = none ∧ sp.auth (heardDev i s) h i.params = none ∧ (modeRefuses s.dev.mode sp.cls = false)) | none => false) && decide (s.dev.silent h = false ∧ s.dev.anvil.resuming = false ∧ targetOk h = true ∧ s.dev.targeted h = true ∧ h.version = 1 ∧ s.dev.pwr.ready = true ∧ h.route ≠ .cp ∧ h.noSession = false ∧ h.session < 4 ∧ (s.dev.sess h.session).isOpen = true ∧ (s.dev.sess h.session).route = h.route ∧ s.dev.macOk h.session h 0x5001 i.params = true ∧ (h.seq + 65536 - (s.dev.sess h.session).high) % 65536 = 32767 ∧ (s.dev.inFlightOf h.session).length < 256 ∧ s.dev.beginsHeld = false ∧ s.dev.waitingOf h = [] ∧ s.dev.pwr.safe = false))) = true := by decide +kernel

theorem test_meets_ResendIsNotPerformedAgain : (
    (let i : Instr := .thmAck sh [3, 0, 0, 0]; let h := sh; let s := inSess; decide (s.dev.silent h = false ∧ s.dev.pwr.ready = true ∧ s.dev.targeted h = true ∧ s.dev.macOk h.session h 0x5001 i.params = true ∧ ¬(1 ≤ (h.seq + 65536 - (s.dev.sess h.session).high) % 65536 ∧ (h.seq + 65536 - (s.dev.sess h.session).high) % 65536 ≤ 32767) ∧ ((s.dev.sess h.session).recent.find? (·.seq = h.seq)).isSome))) = true := by decide +kernel

theorem test_meets_RefusalsOfTheGate : (
    (let s := on id; decide (s.dev.silent hd = false ∧ targetOk { hd with tmode := 3 } = false ∧ targetOk { hd with tid := 5 } = true ∧ s.dev.targeted { hd with tid := 5 } = false ∧ s.dev.targeted hd = true ∧ s.dev.whoSends { sh with session := 2 } 0x5001 = none ∧ inSess.dev.whoSends sh 0x5001 = some 1 ∧ ({ on id with dev := { (on id).dev with pwr := { ready := false } } }.dev.silent hd) = false ∧ (let a := { inSess with dev := inSess.dev.setSess 1 { inSess.dev.sess 1 with auth := true } }; a.dev.macOk 1 sh 0x5001 [3, 0, 0, 0]) = false)) &&
    (let s := on fun d => { d with anvil := { d.anvil with inFlight := (List.range 16).map fun k => { cm with op := k } } }; decide (16 ≤ (s.dev.inFlightOf 4).length ∧ (specThmAck.lenOk [0, 0, 0, 0] = true ∧ specThmAck.lenOk [0, 0, 0, 0, 0] = false) ∧ (specThmAck.check (on id) hd [48, 0, 0, 0] = some 0) ∧ specThmAck.check (on id) hd [47, 0, 0, 0] = none ∧ specThmAck.cls = 0x50 ∧ specQuenchConfig.cls ∉ [0x00, 0x01, 0x50, 0x51, 0x52] ∧ specQuenchConfig.cls ∈ [0x15, 0x20, 0x21]))) = true := by decide +kernel

theorem test_meets_FunctionRequestTable : (
    (decide (({} : Fn).st = .off ∧ ({ st := .starting, stored := some (cm 1) } : Fn).st = .starting ∧ ({ st := .stopping, stored := none } : Fn).st = .stopping)) &&
    (let f : Fn := { st := .starting, stored := some (cm), running := [cm] }; decide (f.st = .starting)) &&
    (let f : Fn := { st := .on, stored := some (cm), running := [cm] }; decide (f.st = .on)) &&
    (let f : Fn := { st := .stopping, stored := some (cm), running := [cm] }; decide (f.st = .stopping)) &&
    (let f : Fn := { st := .starting, stored := some (cm), running := [cm] }; decide (f.st = .starting)) &&
    (let f : Fn := { st := .stopping, stored := some (cm), running := [cm] }; decide (f.st = .stopping)) &&
    (let f : Fn := { st := .starting, stored := some (cm), running := [cm] }; decide (f.st = .starting))) = true := by decide +kernel

theorem test_meets_DeviceReports : (
    (let h : Hdr := hd; let s : State := rdy id; let p : Bytes := []; goes (.identity h p) s fun _ _ => true) &&
    (let h : Hdr := hd; let s : State := rdy id; let p : Bytes := []; goes (.status h p) s fun _ _ => true)) = true := by decide +kernel

theorem test_meets_EventSelectAndReplay : (
    (let h : Hdr := hd; let s : State := rdy id; let p : Bytes := [1, 0, 0, 0]; goes (.eventSelect h p) s fun _ _ => true) &&
    (let h : Hdr := hd; let s : State := rdy id; let p : Bytes := [0, 0]; goes (.eventReplay h p) s fun _ _ => true) &&
    (let h : Hdr := hd; let s : State := rdy id; let p : Bytes := [255, 255, 255, 255]; goes (.eventSelect h p) s fun _ _ => true) &&
    (let d := (on fun d => d.setSess 3 { d.sess 3 with mask := 2 ^ 31 }).dev; (List.range 5).all fun m => bit (d.sess m).mask (1023 / 32) == decide (m = 3)) &&
    (let h : Hdr := hd; let s : State := on fun d => d.setSess 4 { d.sess 4 with evSeq := 1, events := [pk 1] }; let p : Bytes := [0, 0]; goes (.eventReplay h p) s fun c d => decide ((u16 p 0 + 65536 - ((d.sess c.who).evSeq + 65536 - (d.sess c.who).events.length) % 65536) % 65536 ≤ (d.sess c.who).events.length)) &&
    (let h : Hdr := hd; let s : State := on fun d => d.setSess 4 { d.sess 4 with evSeq := 1, events := [pk 1] }; let p : Bytes := [0, 2]; goes (.eventReplay h p) s fun c d => decide ((d.sess c.who).events.length < (u16 p 0 + 65536 - ((d.sess c.who).evSeq + 65536 - (d.sess c.who).events.length) % 65536) % 65536))) = true := by decide +kernel

theorem test_meets_SessionsOpenAndClose : (
    (let h : Hdr := hd; let s : State := rdy id; let n : Nat := 3; let p : Bytes := [3, 0, 0, 0, 2, 88, 0, 0] ++ zeros 16; goes (.sessionOpen h p) s fun _ d => decide (u8 p 1 = 0 ∧ d.pickSession (u8 p 0) = .ok n)) &&
    (let h : Hdr := hd; let n : Nat := 0; let s : State := on fun d => { d with anvil := { d.anvil with slots := d.anvil.slots.set 3 { key := some (zeros 32), policy := 0 } } }; let p : Bytes := [255, 1, 3, 0, 0, 1, 0, 0] ++ zeros 16; goes (.sessionOpen h p) s fun _ d => decide (u8 p 1 = 1) && decide (d.pickSession (u8 p 0) = .ok n) && decide (n < d.anvil.sess.length)) &&
    (let h : Hdr := hd; let r := Rs.sessionInUse; let s : State := on fun d => d.setSess 2 { d.sess 2 with isOpen := true }; let p : Bytes := [2, 0, 0, 0, 0, 1, 0, 0] ++ zeros 16; goes (.sessionOpen h p) s fun _ d => decide (d.pickSession (u8 p 0) = .error r)) &&
    (let d : Dev := ({} : Dev); let q : Nat := 3; decide (q ≠ 0xFF)) &&
    (let d : Dev := (List.range 4).foldl (fun (d : Dev) n => d.setSess n { d.sess n with isOpen := true }) {}; ((List.range 4).all fun n => decide ((d.sess n).isOpen = true))) &&
    (let h : Hdr := { sh with seq := 101 }; let s : State := inSess; let p : Bytes := []; goes (.sessionClose h p) s fun c _ => decide (c.who ≤ 3)) &&
    (let h : Hdr := { sh with seq := 101 }; let s : State := inSess; let p : Bytes := [0, 0, 0, 0] ++ zeros 32; decide (Arrives s h p) && decide (s.dev.pwr.ready = true) && decide (h.route ≠ .cp) && decide (h.noSession = false) && decide (s.dev.whoSends h 0x0006 = some h.session) && decide (s.dev.macOk h.session h 0x0006 p = true)) &&
    (let h : Hdr := { sh with noSession := true, session := 0 }; let s : State := { inSess with dev := { inSess.dev with anvil := { inSess.dev.anvil with slots := inSess.dev.anvil.slots.set 3 { key := some (zeros 32), policy := 1 } } } }; let p : Bytes := [0, 0, 0, 0, 0, 1, 0, 0] ++ zeros 16; decide (Arrives s h p) && decide (s.dev.pwr.ready = true) && decide (h.route ≠ .cp) && decide (h.noSession = true) && decide (2 ≤ p.length) && decide (u8 p 1 = 0) && decide ((s.dev.anvil.slots.any fun k => k.policy % 2 = 1) = true)) &&
    (let h : Hdr := hd; let s : State := rdy id; let p : Bytes := [3, 1, 0, 0] ++ (zeros 31 ++ [1]); goes (.keySet h p) s fun _ d => decide (h.route = .cp) && decide (u8 p 0 < d.anvil.slots.length))) = true := by decide +kernel

theorem test_meets_StackAbortAndTimeouts : (
    (let h : Hdr := hd; let s : State := rdy id; let p : Bytes := [0, 5, 0, 0] ++ zeros 128; goes (.stackSet h p) s fun _ _ => true) &&
    (let h : Hdr := hd; let s : State := rdy id; let p : Bytes := [0, 0, 0, 0]; goes (.abort h p) s fun _ _ => true) &&
    (let s : State := on fun d => { d with cp := { d.cp with held := [pk 4080] } }; let r := pk 4080; decide (s.dev.hearthOff = false) && decide (s.dev.cp.held = [r]) && decide (outFill s.dev.cp.outbound + r.size ≤ cpOutCap)) &&
    (let s : State := rdy id; let src : Nat := 1; let ident : Nat := 1; true) &&
    (let n : Nat := 3; let s : State := on fun d => d.setSess 3 { d.sess 3 with isOpen := true }; decide (s.dev.hearthOff = false) && decide (n < 4) && decide ((s.dev.sess n).isOpen = true)) &&
    (let n : Nat := 0; let s : State := on fun d => d.setSess 0 { d.sess 0 with isOpen := true, usable := false }; decide (s.dev.hearthOff = false) && decide (n < 4) && decide ((s.dev.sess n).isOpen = true) && decide ((s.dev.sess n).usable = false)) &&
    (let n : Nat := 1; let s : State := inSess; decide (s.dev.hearthOff = false) && decide ((s.dev.sess n).usable = true))) = true := by decide +kernel

theorem test_meets_ControlPortTransactions : (
    (let s : State := rdy id; let b := macInput hd 1 []; let d := s.dev; decide (d.cpSilent = false ∧ d.cp.inFill + b.length ≤ 16384 ∧ (parsePkt .cp b).isSome)) &&
    (let s : State := rdy id; let b := zeros 16385; let d := s.dev; decide (d.cpSilent = false ∧ 16384 < d.cp.inFill + b.length)) &&
    (let s : State := rdy id; let b := [1]; let d := s.dev; decide (d.cpSilent = false ∧ d.cp.inFill + b.length ≤ 16384 ∧ (parsePkt .cp b) = none)) &&
    (let s : State := rdy id; let n : Nat := 4; let d := s.dev; decide (d.cpSilent = false ∧ d.cp.outbound = [])) &&
    (let s : State := on fun d => { d with cp := { d.cp with outbound := [pk 1] } }; let q := pk 1; let rest := []; let n : Nat := 2; let d := s.dev; decide (d.cpSilent = false ∧ d.cp.outbound = q :: rest ∧ n < 2 + q.bytes.length)) &&
    (let s : State := on fun d => { d with cp := { d.cp with outbound := [pk 1] } }; let q := pk 1; let rest := []; let n : Nat := 40; decide (s.dev.cpSilent = false) && decide (s.dev.cp.outbound = q :: rest) && decide (s.dev.cp.held = []) && decide (2 + q.bytes.length ≤ n)) &&
    (let s : State := rdy id; decide (s.dev.cpSilent = false)) &&
    (let s : State := rdy id; let first : Nat := 0; let b := ([] : Bytes); decide (first ∉ [2, 3, 5]) && (let d := s.dev; decide (d.cpSilent = false))) &&
    (let s : State := rdy id; let first : Nat := 5; let b := ([] : Bytes); decide (first ∉ [2, 3]) && (let d := s.dev; decide (d.cpSilent = false))) &&
    (let s : State := rdy id; let b := [1]; let d := s.dev; decide (d.cpSilent = false)) &&
    (let first : Nat := 2; let b := [1]; let s : State := on fun d => { d with pwr := { d.pwr with hearthHeld := true } }; let d := s.dev; decide (d.cpSilent = true))) = true := by decide +kernel

theorem test_meets_PlainRegisterReadsAndWrites : (
    (decide ((rowAt 0x05000104).isSome ∧ 0xFFFFFFFF < 2 ^ 32)) &&
    (let d : Dev := ({} : Dev); let a : Nat := 0; let b : Nat := 4; let v : Nat := 1; decide (a ≠ b)) &&
    (let d : Dev := ({} : Dev); let a : Nat := 3; let v : Nat := 0; decide (rowAt a = none))) = true := by decide +kernel

theorem test_meets_RegistersThroughCommandsCoresAndTheDamper : (
    (let h : Hdr := hd; let p : Bytes := enc 4 0x83000000 ++ enc 4 0x01000000; let s : State := on damperOn; goes (.regRead h p) s fun _ d => decide (d.unreachable (u32 p 0 / 2 ^ 28) = false ∧ u16 p 4 ≤ d.answeredOf h (u32 p 0 / 2 ^ 28) (u16 p 4))) &&
    (let h : Hdr := hd; let s : State := rdy id; let p : Bytes := enc 4 0x93000000 ++ enc 4 0x00010000; goes (.regRead h p) s fun _ d => decide (d.unreachable (u32 p 0 / 2 ^ 28) = true)) &&
    (let h : Hdr := hd; let s : State := rdy id; let p : Bytes := enc 4 0x05000104 ++ enc 4 0x00010000 ++ enc 4 5; goes (.regWrite h p) s fun _ _ => decide (dieKind (u32 p 0 / 2 ^ 28) = 1)) &&
    (let h : Hdr := hd; let s : State := on damperOn; let p : Bytes := enc 4 0x92300210 ++ [0, 1, 0, 0] ++ enc 4 0x4000; goes (.regWrite h p) s fun _ d => decide (u16 p 4 = 1 ∧ dieKind (u32 p 0 / 2 ^ 28) = 4 ∧ d.unreachable (u32 p 0 / 2 ^ 28) = false ∧ 1 ≤ d.answeredOf h (u32 p 0 / 2 ^ 28) 1 ∧ d.writeRefused (u32 p 0) = false)) &&
    (let h : Hdr := hd; let s : State := rdy id; let p : Bytes := enc 4 0x93000000 ++ enc 4 0x00020000 ++ enc 8 5; goes (.regWrite h p) s fun _ d => decide (1 ≤ u16 p 4 ∧ d.unreachable (u32 p 0 / 2 ^ 28) = true)) &&
    (let h : Hdr := hd; let s : State := rdy id; let p : Bytes := enc 4 0x05000104 ++ enc 4 0xFFFFFFFF ++ enc 4 5; goes (.regModify h p) s fun _ _ => decide (dieKind (u32 p 0 / 2 ^ 28) = 1)) &&
    (let h : Hdr := hd; let s : State := rdy id; let p : Bytes := enc 4 0x93000000 ++ enc 4 0xFFFFFFFF ++ enc 4 5; goes (.regModify h p) s fun _ d => decide (d.unreachable (u32 p 0 / 2 ^ 28) = true)) &&
    (let s : State := rdy id; let a : Nat := 0x05000104; let v : Nat := 5; let d := s.dev; decide (d.hearthOff = false ∧ implemented (a / 2 ^ 28 % 16) a = true ∧ d.unreachable (a / 2 ^ 28 % 16) = false ∧ dieKind (a / 2 ^ 28 % 16) ≠ 4)) &&
    (let s : State := on damperOn; let a : Nat := 0x92300210; let v : Nat := 0x4000; let d := s.dev; decide (d.hearthOff = false ∧ implemented (a / 2 ^ 28 % 16) a = true ∧ d.unreachable (a / 2 ^ 28 % 16) = false ∧ dieKind (a / 2 ^ 28 % 16) = 4)) &&
    (let s : State := rdy id; let a : Nat := 0xA0000000; let v : Nat := 5; let d := s.dev; decide (d.hearthOff = false ∧ implemented (a / 2 ^ 28 % 16) a = false)) &&
    (let s : State := on damperOn; let die : Nat := 8; let a : Nat := 0x83000000; let v : Nat := 1; let q : Nat := 65535; let d := s.dev; decide (d.takesForward die = true ∧ d.canAnswer die = true ∧ implemented die a = true ∧ d.writeRefused a = false)) &&
    (let s : State := on fun d => { damperOn d with pwr := { d.pwr with refuse := [true, false] } }; let die : Nat := 8; let a : Nat := 0x82000000; let v : Nat := 1; let q : Nat := 0; let d := s.dev; decide (d.takesForward die = true ∧ d.canAnswer die = true ∧ implemented die a = true ∧ d.writeRefused a = true)) &&
    (let s : State := on damperOn; let die : Nat := 9; let a : Nat := 0x80300000; let v : Nat := 1; let q : Nat := 0; let d := s.dev; decide (d.takesForward die = true ∧ d.canAnswer die = true ∧ implemented die a = false)) &&
    (let s : State := on damperOn; let die : Nat := 9; let a : Nat := 0; let v : Nat := 1; let q : Nat := 0; let d := s.dev; decide (d.takesForward die = true)) &&
    (let s : State := on damperOn; let die : Nat := 9; let a : Nat := 0x93000000; let q : Nat := 0; let d := s.dev; decide (d.takesForward die = true ∧ d.canAnswer die = true ∧ implemented die a = true)) &&
    (let s : State := on damperOn; let die : Nat := 8; let a : Nat := 0; let q : Nat := 0; let d := s.dev; decide (d.takesForward die = true)) &&
    (let value : Nat := 0xFFFFFFFF; let status : Nat := 255; let ty : Nat := 255; let q : Nat := 65535; decide (status < 256) && decide (ty < 256) && decide (q < 65536) && decide (value < 2 ^ 32))) = true := by decide +kernel

theorem test_meets_EventControllerActions : (
    (let s : State := rdy id; let k : Nat := 1023; decide (s.dev.hearthOff = false) && decide (k < 1024) && decide (srcAssigned k = false)) &&
    (let s : State := rdy id; let k : Nat := 16; decide (s.dev.hearthOff = false) && decide (k < 1024) && decide (srcAssigned k = true) && decide (s.dev.ev.asleep = false)) &&
    (let k : Nat := 33; let s : State := on fun d => { d with ev := { d.ev with asleep := true, wake := [(0, 0, 0)] } }; decide (s.dev.hearthOff = false) && decide (k < 1024) && decide (srcAssigned k = true) && decide (s.dev.ev.asleep = true)) &&
    (let s := on fun d => ({ d with ev := { d.ev with srcs := [(5, { st := 1, count := 2 })], grps := [(0, { batch := [5] })] } }).wr 0 (R.IRQ_GROUP_ENABLE 0) 1; decide (s.dev.ev.asleep = false ∧ s.dev.claimable 5 = true ∧ srcIsLevel 5 = false)) &&
    (let s : State := rdy id; let k : Nat := 5; let n := true; decide (s.dev.hearthOff = false) && decide (k < 1024) && decide ((s.dev.src k).st ≠ 2)) &&
    (let k : Nat := 1023; let s : State := on fun d => d.setSrc 1023 { st := 2, rep := true }; decide (s.dev.hearthOff = false) && decide (k < 1024) && decide ((s.dev.src k).st = 2) && decide (srcIsLevel k = false)) &&
    (let g : Nat := 31; let s : State := on fun d => d.setGrp 31 { until_ := some 9 }; decide (s.dev.hearthOff = false) && decide ((s.dev.grp g).until_ ≠ none) && decide (s.dev.ev.asleep = false)) &&
    (let s : State := rdy id; let d := s.dev; decide (d.hearthOff = false)) &&
    (let s : State := on fun d => { d with ev := { d.ev with asleep := true, wake := [(0, 0, 0)] } }; decide (s.dev.hearthOff = false) && decide (s.dev.ev.asleep = true) && decide (s.dev.ev.wake ≠ []))) = true := by decide +kernel

theorem test_meets_FabricLinksFailAndReturn : (
    (let n : Nat := 10; let again := true; let s : State := on fun d => d.setFabLink 10 { fails := 3, down := false }; decide (s.dev.hearthOff = false) && decide (n ≤ 10) && decide ((s.dev.fabLink n).down = false) && decide (s.dev.fenced n = false) && decide ((if again then (s.dev.fabLink n).fails + 1 else 1) < 5)) &&
    (let n : Nat := 4; let again := false; let s : State := on fun d => { d with fab := { d.fab with failed := [true, false, false, false] } }; decide (s.dev.hearthOff = false) && decide (n ≤ 10) && decide ((s.dev.fabLink n).down = false) && decide (s.dev.fenced n = true)) &&
    (let n : Nat := 0; let s : State := on fun d => d.setFabLink 0 { fails := 4, down := false }; decide (s.dev.hearthOff = false) && decide (n ≤ 10) && decide ((s.dev.fabLink n).down = false) && decide (s.dev.fenced n = false) && decide (4 ≤ (s.dev.fabLink n).fails)) &&
    (let s : State := rdy id; let n : Nat := 10; decide (s.dev.hearthOff = false) && decide (n ≤ 10) && decide (s.dev.fenced n = false)) &&
    (let s : State := rdy id; let n : Nat := 3; decide (s.dev.hearthOff = false) && decide (n ≤ 3) && decide ((s.dev.fabLink n).down = false) && decide (s.dev.fenced n = false)) &&
    (let n : Nat := 3; let s : State := on fun d => d.setFabLink 3 { fails := 0, down := true }; decide (s.dev.hearthOff = false) && decide ((s.dev.fabLink n).down = true ∨ s.dev.fenced n = true)) &&
    (let n : Nat := 10; let s : State := on fun d => d.setFabLink 10 { d.fabLink 10 with down := true }; decide (s.dev.hearthOff = false) && decide (n ≤ 10) && decide ((s.dev.fabLink n).down = true) && decide (s.dev.fenced n = false)) &&
    (let s : State := rdy id; let i : Nat := 3; decide (s.dev.hearthOff = false) && decide (s.dev.fab.cond.getD i none = none)) &&
    (let i : Nat := 0; let c : Nat := 3; let s : State := on fun d => { d with fab := { d.fab with cond := [some 3, none, none, none] } }; decide (s.dev.hearthOff = false) && decide (s.dev.fab.cond.getD i none = some c)) &&
    (let i : Nat := 0; let c : Nat := 3; let s : State := on fun d => { d with fab := { d.fab with cond := [some 3, none, none, none] } }; decide (s.dev.hearthOff = false) && decide (s.dev.fab.cond.getD i none = some c) && decide (s.dev.fab.failed.getD i true = false)) &&
    (let i : Nat := 1; let s : State := on fun d => { d with fab := { d.fab with cond := [some 3, none, none, none] } }; decide (s.dev.hearthOff = false) && decide (s.dev.fab.cond.getD i none = none))) = true := by decide +kernel

theorem test_meets_ForwardPathAndLanes : (
    (let s : State := rdy id; let f : Nat := 1; decide (f ≤ 1) && (let d := s.dev; decide (d.twinRole ≠ 1))) &&
    (let f : Nat := 1; let s : State := on fun d => d.wr 0 (R.DMP_HALF_N 1) 12; decide (f ≤ 1) && (let d := s.dev; decide (12 ≤ d.rd 0 (R.DMP_HALF_N f)))) &&
    (let f : Nat := 1; let s : State := on fun d => d.wr 0 (R.DMP_HALF_N 1) 11; decide (f ≤ 1) && (let d := s.dev; decide (d.rd 0 (R.DMP_HALF_N f) < 12))) &&
    (let i : Nat := 35; let s : State := on fun d => d.wr 9 (R.DMP_LANE_ROLE 35) 3; decide (i ≤ 35) && (let d := s.dev; decide (d.rd (8 + laneHalf i) (R.DMP_LANE_ROLE i) = 3))) &&
    (let s : State := rdy id; let i : Nat := 0; decide (i ≤ 35) && (let d := s.dev; decide (d.rd (8 + laneHalf i) (R.DMP_LANE_ROLE i) ≠ 3 ∧ d.dmp.ret = none ∧ d.dmp.moving ≠ some i))) &&
    (let i : Nat := 33; let s : State := on fun d => d.wr 8 (R.DMP_LANE_ROLE 33) 3; decide (i ≤ 35) && (let d := s.dev; decide (d.rd (8 + laneHalf i) (R.DMP_LANE_ROLE i) = 3))) &&
    (let s : State := rdy id; let i : Nat := 16; decide (i ≤ 16) && (true)) &&
    (let r : Nat := 33; let s : State := on fun d => { d with dmp := { d.dmp with moving := some 33 } }; let d := s.dev; decide (d.dmp.moving = some r ∧ d.dmp.ret = none)) &&
    (let s : State := rdy id; let k : Nat := 0; let i : Nat := 35; decide (32 ≤ i) && decide (i ≤ 35) && (true)) &&
    (let f : Nat := 1; let s : State := on damperOn; decide (s.dev.hearthOff = false) && decide (f ≤ 1) && decide (s.dev.dmp.ret.isSome = true))) = true := by decide +kernel

theorem test_meets_ReturnMessagesAtTheHearthEnd : (
    (let s : State := rdy id; let f : Nat := 1; let w := ([1] : List Nat); let c := MsgCheck.good; let d := s.dev; decide (d.retTake f ⟨0x84, w⟩ = none)) &&
    ((on fun d => (damperOn d).setFlueEnd 0 { queue := [⟨0x84, [1]⟩] }).dev.retTake 0 ⟨0x84, [1]⟩).isSome &&
    ((on fun d => (damperOn d).setFlueEnd 0 { queue := [⟨0x84, [1]⟩] }).dev.retTake 0 ⟨0x84, [1]⟩).isSome &&
    ((on fun d => (damperOn d).setFlueEnd 1 { queue := [⟨0x82, [5]⟩] }).dev.retTake 1 ⟨0x82, [5]⟩).isSome &&
    (let s : State := rdy id; let f : Nat := 0; let k : Nat := 5; let c := MsgCheck.crc; let d := s.dev; decide (d.retTake f ⟨0x82, [k]⟩ = none)) &&
    ((on fun d => (damperOn d).setFlueEnd 0 { queue := [⟨0x82, [1023]⟩] }).dev.retTake 0 ⟨0x82, [1023]⟩).isSome &&
    ((on fun d => (damperOn d).setFlueEnd 0 { queue := [⟨0x86, [1]⟩] }).dev.retTake 0 ⟨0x86, [1]⟩).isSome &&
    (match (on fun d => (damperOn d).setFlueEnd 0 { queue := [⟨0x81, [1]⟩] }).dev.retTake 0 ⟨0x81, [1]⟩ with | some e => e.dmp.waiting = [] | none => false) &&
    (let d : Dev := (damperOn {}).setFlueEnd 0 { queue := [⟨0x81, [replyWord 9 0 0x06 65535]⟩] }; let a : Access := ⟨8, 0x06, [], 65535, 0, .plain⟩; let w := replyWord 9 0 0x06 65535; (match ({ d with dmp := { d.dmp with waiting := [a] } }.retTake 0 ⟨0x81, [w]⟩) with | some e => decide (e.dmp.waiting = [a] ∧ a.die = 8 ∧ a.ty = w / 2 ^ 16 % 256 ∧ a.seq = w % 65536) | none => false)) &&
    (let l : Nat := 32; let s : State := on damperOn; let d := s.dev; decide (d.dmp.ret = some l ∧ (d.flueEnd 0).queue = [] ∧ (d.flueEnd 1).queue = [] ∧ d.dmp.moving = none)) &&
    (let s : State := on fun d => { d with dmp := { d.dmp with waiting := [⟨8, 6, [], 0, 2, .plain⟩] } }; let a := ⟨8, 6, [], 0, 2, .plain⟩; let rest := []; decide (s.dev.hearthOff = false) && decide (s.dev.dmp.waiting = a :: rest) && decide (a.resends < 3)) &&
    (let s : State := on fun d => { d with dmp := { d.dmp with waiting := [⟨8, 6, [], 0, 3, .plain⟩] } }; let a := ⟨8, 6, [], 0, 3, .plain⟩; let rest := []; decide (s.dev.hearthOff = false) && decide (s.dev.dmp.waiting = a :: rest) && decide (3 ≤ a.resends) && decide (a.why = .plain))) = true := by decide +kernel

theorem test_meets_FlueDieTakesPixelAndBulkData : (
    (let s : State := rdy id; let die : Nat := 8; let w := ([] : List Nat); let c := MsgCheck.good; let d := s.dev; decide (d.takesForward die = false)) &&
    (let s : State := on damperOn; let die : Nat := 9; let w := ([] : List Nat); let d := s.dev; decide (d.takesForward die = true)) &&
    (let s : State := on fun d => { damperOn d with mode := 1 }; let die : Nat := 9; let x := 7 * 2 ^ 56; let w := ([] : List Nat); decide (x < 2 ^ 64) && (let d := s.dev; decide (d.takesForward die = true ∧ d.mode = 1 ∧ x / 2 ^ 56 ≤ 7 ∧ linkDie (x / 2 ^ 56) = die))) &&
    (let s : State := on damperOn; let die : Nat := 8; let a := planeSize - 8; let n : Nat := 8; let w := ([1] : List Nat); let q : Nat := 0; let d := s.dev; decide (d.takesForward die = true ∧ d.canAnswer die = true ∧ a + n ≤ planeSize ∧ n ≤ 8 * w.length)) &&
    (let s : State := on damperOn; let die : Nat := 8; let a := planeSize; let n : Nat := 1; let w := ([1] : List Nat); let q : Nat := 0; let d := s.dev; decide (d.takesForward die = true ∧ d.canAnswer die = true ∧ planeSize < a + n)) &&
    (let s : State := on damperOn; let die : Nat := 8; let a : Nat := 0; let n : Nat := 1; let w := ([] : List Nat); let q : Nat := 0; let d := s.dev; decide (d.takesForward die = true)) &&
    (let s : State := on damperOn; let die : Nat := 8; let w : Nat := 5; let v := ([0x83000000 * 2 ^ 32] : List Nat); let q : Nat := 0; let d := s.dev; decide (d.takesForward die = true ∧ d.canAnswer die = true ∧ (∀ x ∈ v, implemented die (x / 2 ^ 32 % 2 ^ 32) = true) ∧ d.pwr.refuse.getD (die - 8) false = false ∧ (d.flueEnd (die - 8)).applied.contains (w % 2 ^ 48, d.commitOf die q) = false ∧ (d.flueEnd (die - 8)).passed = none)) &&
    (let s : State := on damperOn; let die : Nat := 8; let w : Nat := 5; let v := ([0] : List Nat); let x : Nat := 0; let q : Nat := 0; decide (x ∈ v) && (let d := s.dev; decide (d.takesForward die = true ∧ d.canAnswer die = true ∧ implemented die (x / 2 ^ 32 % 2 ^ 32) = false))) &&
    (let s : State := on fun d => { damperOn d with pwr := { d.pwr with refuse := [true, false] } }; let die : Nat := 8; let w : Nat := 5; let v := ([0x82000000 * 2 ^ 32] : List Nat); let x := 0x82000000 * 2 ^ 32; let q : Nat := 0; decide (x ∈ v) && decide (powerBlock (x / 2 ^ 32 % 2 ^ 32) = true) && (let d := s.dev; decide (d.takesForward die = true ∧ d.canAnswer die = true ∧ (∀ y ∈ v, implemented die (y / 2 ^ 32 % 2 ^ 32) = true) ∧ d.pwr.refuse.getD (die - 8) false = true))) &&
    (let s : State := on fun d => (damperOn d).setFlueEnd 0 { passed := some 5 }; let die : Nat := 8; let w : Nat := 5; let v := ([] : List Nat); let q : Nat := 0; let p : Nat := 5; decide (w % 2 ^ 48 ≤ p) && (let d := s.dev; decide (d.takesForward die = true ∧ d.canAnswer die = true ∧ (∀ y ∈ v, implemented die (y / 2 ^ 32 % 2 ^ 32) = true) ∧ d.pwr.refuse.getD (die - 8) false = false ∧ (d.flueEnd (die - 8)).applied.contains (w % 2 ^ 48, d.commitOf die q) = false ∧ (d.flueEnd (die - 8)).passed = some p)))) = true := by decide +kernel

theorem test_meets_BuffersHoldWhatIsWritten : (
    goes (.bufCreate hd (enc 4 67108864 ++ [0, 0, 0, 0])) (rdy id) fun _ d => (Heap.alloc {} d.hobsUp .buffer 67108864 false).isOk &&
    goes (.bufCreate hd (enc 4 1 ++ [0, 0, 0, 0])) (on fun d => { d with fab := { d.fab with failed := [true, true, true, true] } }) fun _ d => !(Heap.alloc {} d.hobsUp .buffer 1 false).isOk &&
    (Heap.alloc {} [1, 2] .buffer 1 true).isOk &&
    (let h : Hdr := hd; let s : State := on id oneBuf; let p : Bytes := [0, 1, 0, 0, 0, 0, 0, 63, 9]; let o := buf 1 64; goes (.bufWrite h p) s fun _ d => let hp := s.heap; decide (hp.buf (u16 p 0) = some o ∧ d.freeing (u16 p 0) = false ∧ d.bufBusy (u16 p 0) = false ∧ o.lost = false)) &&
    (let hp : Heap := oneBuf; let o : Obj := buf 1 64; let k : Nat := 1; let a : Nat := 0; let b : Bytes := zeros 64; decide (hp.wf = true) && decide (hp.find k = some o) && decide (a + b.length ≤ o.size)) &&
    (let h : Hdr := hd; let s : State := on id oneBuf; let p : Bytes := [0, 1, 0, 64, 0, 0, 0, 0]; let o := buf 1 64; goes (.bufRead h p) s fun _ _ => let hp := s.heap; decide (hp.buf (u16 p 0) = some o ∧ o.lost = false)) &&
    (let h : Hdr := hd; let s : State := on id oneBuf; let p : Bytes := [0, 1, 0, 0]; let o := buf 1 64; goes (.bufFree h p) s fun _ d => let hp := s.heap; decide (hp.buf (u16 p 0) = some o ∧ d.freeing (u16 p 0) = false ∧ d.bufBusy (u16 p 0) = false)) &&
    (let h : Hdr := hd; let s : State := on (fun d => { d with lay := { d.lay with queue := [{ cmd := none, up := true, src := 1 }] } }) oneBuf; let p : Bytes := [0, 1, 0, 0]; let o := buf 1 64; goes (.bufFree h p) s fun _ d => let hp := s.heap; decide (hp.buf (u16 p 0) = some o ∧ d.freeing (u16 p 0) = false ∧ d.bufBusy (u16 p 0) = true))) = true := by decide +kernel

theorem test_meets_SurfacesAreCreatedAndFreed : (
    goes (.surfaceCreate hd [0, 0, 0, 0, 0, 8, 0, 8, 0, 0, 0, 0]) (rdy id) fun _ d => (Heap.alloc {} d.hobsUp (.surface 0 0 0 8 8 0) (imageBytes 0 0 8 8) false).isOk &&
    (let h : Hdr := hd; let s : State := on id twoSurf; let p : Bytes := [0, 2, 0, 0]; let o := surfO 2 8 8; goes (.surfaceFree h p) s fun _ d => let hp := s.heap; decide (hp.surf (u16 p 0) = some o ∧ d.freeing (u16 p 0) = false ∧ d.staged (u16 p 0) = false ∧ d.latched (u16 p 0) = false ∧ d.reading (u16 p 0) = false ∧ d.surfBusy (u16 p 0) = false)) &&
    (let h : Hdr := hd; let s : State := on (fun d => { d with lay := { d.lay with frees := [(2, cm)] } }) twoSurf; let p : Bytes := [0, 2, 0, 0]; let o := surfO 2 8 8; goes (.surfaceFree h p) s fun _ d => let hp := s.heap; decide (hp.surf (u16 p 0) = some o ∧ d.freeing (u16 p 0) = true)) &&
    (let h : Hdr := hd; let s : State := on (fun d => { d with lay := { d.lay with shadow := d.lay.shadow.set 0 { enable := true, surface := 2 }, changed := d.lay.changed.set 0 true } }) twoSurf; let p : Bytes := [0, 2, 0, 0]; let o := surfO 2 8 8; goes (.surfaceFree h p) s fun _ d => let hp := s.heap; decide (hp.surf (u16 p 0) = some o ∧ d.freeing (u16 p 0) = false ∧ d.staged (u16 p 0) = true)) &&
    (let h : Hdr := hd; let s : State := on (fun d => { d with lay := { d.lay with bound := d.lay.bound.set 0 { enable := true, surface := 2 } } }) twoSurf; let p : Bytes := [0, 2, 0, 0]; let o := surfO 2 8 8; goes (.surfaceFree h p) s fun _ d => let hp := s.heap; decide (hp.surf (u16 p 0) = some o ∧ d.freeing (u16 p 0) = false ∧ d.staged (u16 p 0) = false ∧ (d.latched (u16 p 0) || d.reading (u16 p 0) || d.surfBusy (u16 p 0)) = true)) &&
    (let s : State := on (fun d => { d with lay := { d.lay with frees := [(2, cm)] } }) twoSurf; let k : Nat := 2; let c := cm; let rest := []; let d := s.dev; decide (d.hearthOff = false ∧ d.lay.frees = (k, c) :: rest ∧ (∀ e ∈ rest, e.1 ≠ k) ∧ d.latched k = false ∧ d.reading k = false ∧ d.surfBusy k = false ∧ d.bufBusy k = false)) &&
    (let k : Nat := 2; let c := cm; let rest := []; let s : State := on (fun d => { d with lay := { d.lay with frees := [(2, cm)], bound := d.lay.bound.set 0 { enable := true, surface := 2 } } }) twoSurf; let d := s.dev; decide (d.hearthOff = false ∧ d.lay.frees = (k, c) :: rest ∧ d.latched k = true)) &&
    (let h : Hdr := hd; let s : State := on id twoSurf; let p : Bytes := [0, 2, 0, 1, 0, 0, 0, 0, 0, 0, 0, 0, 0, 0, 0, 0, 0, 1, 0, 1] ++ enc 4 8 ++ zeros 12; let o := surfO 2 8 8; let b := buf 1 4096; goes (.surfUpload h p) s fun _ d => let hp := s.heap; decide (hp.surf (u16 p 0) = some o ∧ hp.buf (u16 p 2) = some b ∧ d.freeing (u16 p 0) = false ∧ d.freeing (u16 p 2) = false ∧ o.lost = false ∧ b.lost = false)) &&
    (let op := { cmd := some cm, up := true, src := 1, dst := 2 }; let c := cm; let rest := []; let o := surfO 2 8 8; let b := buf 1 4096; let s : State := on (fun d => { d with lay := { d.lay with queue := [{ cmd := some cm, up := true, src := 1, dst := 2 }] } }) twoSurf; decide (op.up = true) && decide (op.cmd = some c) && (let hp := s.heap; let d := s.dev; decide (d.hearthOff = false ∧ d.lay.running = none ∧ d.lay.queue = op :: rest ∧ hp.find op.dst = some o ∧ hp.find op.src = some b ∧ o.lost = false ∧ b.lost = false)))) = true := by decide +kernel

theorem test_meets_LayersAndFences : (
    (let h : Hdr := hd; let s : State := rdy id; let p : Bytes := [7, 0] ++ zeros 54; goes (.layerSet h p) s fun _ d => let hp := s.heap; decide (u8 p 1 ≠ 1 ∨ (d.freeing (u16 p 4) = false ∧ ∀ o, hp.surf (u16 p 4) = some o → o.lost = false))) &&
    (let h : Hdr := hd; let s : State := on (fun d => { d with lay := { d.lay with frees := [(2, cm)] } }) twoSurf; let p : Bytes := [7, 1, 0, 0, 0, 2, 0, 0, 0, 0, 0, 0, 0, 8, 0, 8] ++ zeros 8 ++ enc 4 0x8000 ++ enc 4 0x8000 ++ zeros 24; goes (.layerSet h p) s fun _ d => decide (u8 p 1 = 1 ∧ d.freeing (u16 p 4) = true)) &&
    (let h : Hdr := hd; let s : State := rdy id; let p : Bytes := []; goes (.layerStatus h p) s fun _ _ => true) &&
    (let h : Hdr := hd; let s : State := rdy id; let p : Bytes := [3, 255, 0, 0] ++ zeros 8; goes (.fenceOp h p) s fun _ _ => decide (u8 p 2 = 0)) &&
    (let h : Hdr := hd; let s : State := rdy id; let p : Bytes := [0, 1, 1, 0] ++ enc 8 (2 ^ 54 - 1); goes (.fenceOp h p) s fun _ _ => decide (u8 p 2 = 1 ∧ u16 p 0 ≤ 1023 ∧ u64 p 4 < 2 ^ 54)) &&
    (let h : Hdr := hd; let s : State := rdy id; let p : Bytes := [3, 255, 2, 0] ++ zeros 8; goes (.fenceOp h p) s fun _ d => decide (u8 p 2 = 2 ∧ d.fenceWaited (u16 p 0) = false)) &&
    (let h : Hdr := hd; let s : State := on fun d => { d with lay := { d.lay with queue := [{ cmd := none, fence := 1023 * 2 ^ 54 + 1 }] } }; let p : Bytes := [3, 255, 2, 0] ++ zeros 8; goes (.fenceOp h p) s fun _ d => decide (u8 p 2 = 2 ∧ d.fenceWaited (u16 p 0) = true)) &&
    (let d : Dev := ({} : Dev); let k : Nat := 1023; let j : Nat := 0; let v := 2 ^ 54 - 1; decide (1 ≤ k) && decide (k ≤ 1023) && decide (j ≤ 1023) && decide (v < 2 ^ 54)) &&
    (let n : Nat := 7; let r := ⟨7, 2, 0, 0⟩; let s : State := on fun d => { d with lay := { d.lay with reading := [⟨7, 2, 0, 0⟩] } }; let d := s.dev; decide (d.hearthOff = false ∧ d.lay.reading.find? (fun x => x.layer = n && d.composed x.frame) = some r))) = true := by decide +kernel

theorem test_meets_BlitterQueuesAndMovesPixels : (
    (let h : Hdr := hd; let s : State := on id twoSurf; let p : Bytes := [1, 0, 0, 0, 0, 3, 0, 2] ++ zeros 8 ++ [0, 8, 0, 8] ++ zeros 12; goes (.blit h p) s fun c d => let hp := s.heap; decide (bltCheck hp d (blitOf c p) = none)) &&
    (let h : Hdr := hd; let s : State := on id twoSurf; let p : Bytes := [1, 0, 0, 0, 0, 9, 0, 9] ++ zeros 24; let k : Nat := 1; goes (.blit h p) s fun c d => let hp := s.heap; decide (bltCheck hp d (blitOf c p) = some k)) &&
    (let o := { cmd := none, op := 0, src := 3, dst := 2, w := 8, h := 8 }; let s : State := on (fun d => { d with lay := { d.lay with running := some { cmd := none, op := 0, src := 3, dst := 2, w := 8, h := 8 } } }) twoSurf; let d := s.dev; decide (d.hearthOff = false ∧ d.lay.running = some o)) &&
    (let o := { cmd := none, op := 0, src := 3, dst := 2, w := 8, h := 8 }; let s : State := on (fun d => { d with lay := { d.lay with running := some { cmd := none, op := 0, src := 3, dst := 2, w := 8, h := 8 } } }) twoSurf; let d := s.dev; decide (d.hearthOff = false ∧ d.lay.running = some o)) &&
    (let o := { cmd := none, op := 0, src := 3, dst := 2, w := 8, h := 8 }; let s : State := on (fun d => { d with lay := { d.lay with running := some { cmd := none, op := 0, src := 3, dst := 2, w := 8, h := 8 } } }) twoSurf; let d := s.dev; decide (d.hearthOff = false ∧ d.lay.running = some o)) &&
    (let o := { cmd := none, op := 0, src := 3, dst := 2, w := 8, h := 8 }; let rest := []; let s : State := on (fun d => { d with lay := { d.lay with queue := [{ cmd := none, op := 0, src := 3, dst := 2, w := 8, h := 8 }] } }) twoSurf; decide (o.up = false) && decide (o.op = 0) && (let d := s.dev; decide (d.hearthOff = false ∧ d.lay.running = none ∧ d.lay.queue = o :: rest))) &&
    (let o := { cmd := none, op := 1, src := 3, dst := 2, w := 8, h := 8 }; let rest := []; let s : State := on (fun d => { d with lay := { d.lay with queue := [{ cmd := none, op := 1, src := 3, dst := 2, w := 8, h := 8 }] } }) twoSurf; decide (o.up = false) && decide (o.op = 1) && (let d := s.dev; decide (d.hearthOff = false ∧ d.lay.running = none ∧ d.lay.queue = o :: rest))) &&
    (let o := { cmd := none, op := 2, src := 3, dst := 2, w := 8, h := 8 }; let rest := []; let s : State := on (fun d => { d with lay := { d.lay with queue := [{ cmd := none, op := 2, src := 3, dst := 2, w := 8, h := 8 }] } }) twoSurf; decide (o.up = false) && decide (o.op = 2) && (let d := s.dev; decide (d.hearthOff = false ∧ d.lay.running = none ∧ d.lay.queue = o :: rest))) &&
    (let s : State := rdy id; let d := s.dev; decide (d.hearthOff = false ∧ d.lay.running = none ∧ d.lay.queue = [])) &&
    (let o : BltOp := { cmd := none, op := 1, src := 3, dst := 2, w := 8, h := 8 }; let hp : Heap := twoSurf; let d : Dev := ({} : Dev); decide (bltCheck hp (((d.wr 0 R.BLT_STATUS_DONE 0).wr 0 R.BLT_STATUS_ERROR 0).wr 0 R.BLT_STATUS_DIR 0) o = none)) &&
    (let bad := true; let o := { cmd := none, op := 0, src := 3, dst := 2, w := 8, h := 8 }; let b := surfO 2 8 8; let s : State := on (fun d => { d with lay := { d.lay with running := some { cmd := none, op := 0, src := 3, dst := 2, w := 8, h := 8 } } }) twoSurf; let hp := s.heap; let d := s.dev; decide (d.hearthOff = false ∧ d.lay.running = some o ∧ o.op = 0 ∧ hp.find o.dst = some b ∧ b.lost = false)) &&
    (let bad := false; let o := { cmd := none, op := 0, src := 3, dst := 2, w := 8, h := 8 }; let b := { surfO 2 8 8 with lost := true }; let s : State := on (fun d => { d with lay := { d.lay with running := some { cmd := none, op := 0, src := 3, dst := 2, w := 8, h := 8 } } }) { objs := [{ surfO 2 8 8 with lost := true }] }; let hp := s.heap; let d := s.dev; decide (d.hearthOff = false ∧ d.lay.running = some o ∧ hp.find o.dst = some b ∧ b.lost = true)) &&
    (let dst := surfO 2 8 8; let o : BltOp := { cmd := none, op := 1, src := 3, dst := 2, w := 8, h := 8 }; decide (dst.kind = .surface 0 0 0 8 8 0 ∧ dst.wf = true ∧ dst.size = imageBytes 0 0 8 8 ∧ o.dstX + o.w ≤ 8 ∧ o.dstY + o.h ≤ 8 ∧ o.src ≠ o.dst ∧ (surfO 3 8 8).fmt = 0))) = true := by decide +kernel

theorem test_meets_ConvertChangesChannels : (
    (let v : Nat := 0; let m : Nat := 1; let n : Nat := 0; decide (1 ≤ m)) &&
    (let g : Nat := 4; let v : Nat := 0; decide (g ≤ 4)) &&
    decide (1 ≤ 4) &&
    decide (2 ≤ 4) &&
    decide (4 ≤ 4) &&
    decide (0 ≤ 4)) = true := by decide +kernel

theorem test_meets_ModeRayModelAndMap : (
    (let h : Hdr := hd; let s : State := on fun d => { d with mode := 1 }; let p : Bytes := [1, 0, 0, 0]; goes (.modeSet h p) s fun _ d => decide (d.mode = u8 p 0)) &&
    (let h : Hdr := hd; let s : State := on fun d => d.setFn (FnId.region 3) { st := .on }; let p : Bytes := [2, 0, 0, 0]; goes (.modeSet h p) s fun _ d => decide (d.mode ≠ u8 p 0 ∧ d.regionsOff = false)) &&
    (let h : Hdr := hd; let s : State := rdy id; let p : Bytes := [2, 0, 0, 0]; goes (.modeSet h p) s fun _ d => decide (d.mode ≠ u8 p 0 ∧ d.regionsOff = true)) &&
    (let h : Hdr := hd; let s : State := on fun d => { d with mode := 1 }; let p : Bytes := [0, 0, 0, 0, 10, 0, 10, 0] ++ zeros 48; goes (.raymodelSet h p) s fun _ d => decide (d.mode ≠ 0 ∧ rayModeOk d.mode p = true ∧ d.regionsOff = true)) &&
    (let h : Hdr := hd; let s : State := on fun d => ({ d with mode := 1 } : Dev).setFn (FnId.region 3) { st := .on }; let p : Bytes := [0, 0, 0, 0, 10, 0, 10, 0] ++ zeros 48; goes (.raymodelSet h p) s fun _ d => decide (d.mode ≠ 0 ∧ rayModeOk d.mode p = true ∧ d.regionsOff = false)) &&
    (let h : Hdr := hd; let s : State := rdy id; let p : Bytes := []; goes (.raymodelGet h p) s fun _ _ => true) &&
    (let h : Hdr := hd; let s : State := rdy id; let p : Bytes := zeros 12; goes (.aimSet h p) s fun _ d => decide (d.mode ≠ 1)) &&
    (let h : Hdr := hd; let s : State := on fun d => { d with mode := 1 }; let p : Bytes := zeros 12; goes (.aimSet h p) s fun _ d => decide (d.mode = 1)) &&
    (let h : Hdr := hd; let s : State := on id { objs := [buf 1 2000000] }; let p : Bytes := [1, 0, 0, 0] ++ enc 4 0 ++ enc 4 65536 ++ [0, 1, 0, 0] ++ enc 4 0 ++ enc 4 1048576; let o := buf 1 2000000; goes (.planishLoad h p) s fun _ d => let hp := s.heap; decide (loadRefusal (d.copy (u8 p 0)).state = none ∧ ((d.copy (u8 p 0)).state = 3 ∨ (u32 p 4 = 0 ∧ u32 p 8 = 65536)) ∧ hp.buf (u16 p 12) = some o ∧ o.lost = false ∧ (d.copy (u8 p 0)).state ≤ 7)) &&
    (let h : Hdr := hd; let s : State := on id oneBuf; let p : Bytes := [0, 0, 0, 0] ++ enc 4 65535 ++ enc 4 1 ++ [0, 1, 0, 0] ++ enc 4 0 ++ enc 4 16; let r := Rsp.copyActive; goes (.planishLoad h p) s fun _ d => decide (loadRefusal (d.copy (u8 p 0)).state = some r)) &&
    (let h : Hdr := hd; let s : State := rdy id; let p : Bytes := []; goes (.planishClone h p) s fun _ d => decide (loadRefusal (d.copy (1 - d.activeCopy)).state = none)) &&
    (let s : State := on fun d => { d with pm := { d.pm with clone := some cm } }; let c := cm; let d := s.dev; decide (d.hearthOff = false ∧ d.pm.clone = some c)) &&
    (let h : Hdr := hd; let s : State := on fun d => d.copyState 1 3; let p : Bytes := [1, 0, 0, 0]; goes (.planishSelect h p) s fun _ d => decide ((d.copy (u8 p 0)).state = 3)) &&
    (let h : Hdr := hd; let s : State := on fun d => d.copyState 1 6; let p : Bytes := [1, 0, 0, 0]; goes (.planishSelect h p) s fun _ d => decide ((d.copy (u8 p 0)).state = 6)) &&
    (let h : Hdr := hd; let s : State := rdy id; let p : Bytes := [0, 0, 0, 1] ++ enc 4 65535; goes (.planishRead h p) s fun _ d => decide ((d.copy (u8 p 0)).state ≠ 0 ∧ (d.copy (u8 p 0)).state ≠ 1)) &&
    (let h : Hdr := hd; let s : State := rdy id; let p : Bytes := []; goes (.planishStatus h p) s fun _ _ => true) &&
    (let s : State := on fun d => d.copyState 0 6; let d := s.dev; decide (d.hearthOff = false ∧ (d.copy 0).state = 6 ∧ (d.syn.strips.any fun t => t.frame < d.pm.swapFrame && t.phase < 3) = false))) = true := by decide +kernel

theorem test_meets_PlanishEntriesAreChecked : (
    (let s : State := on (fun d => { d with pm := { d.pm with load := some ⟨cm, 1, 0, 5, 1, 1, 0, 16⟩ } }) { objs := [({ buf 1 64 with cells := cellsWrite [] 0 (encLe 14 0 ++ encLe 2 (crc16 (encLe 14 0))) } : Obj)] }; let l := ⟨cm, 1, 0, 5, 1, 1, 0, 16⟩; let o := ({ buf 1 64 with cells := cellsWrite [] 0 (encLe 14 0 ++ encLe 2 (crc16 (encLe 14 0))) } : Obj); decide (s.dev.hearthOff = false) && decide (s.dev.pm.load = some l) && decide (l.format = 0) && decide (s.heap.buf l.buffer = some o) && decide (o.lost = false) && decide (l.bytes = 16 * l.count) && decide (l.copy < s.dev.pm.copies.length) && decide ((∀ i < l.count, entryOk (srcEntry (o.read l.offset l.bytes) i) = true))) &&
    (let s : State := on (fun d => { d with pm := { d.pm with load := some ⟨cm, 1, 0, 5, 1, 1, 0, 16⟩ } }) oneBuf; let l := ⟨cm, 1, 0, 5, 1, 1, 0, 16⟩; let o := buf 1 64; let k : Nat := 0; decide (s.dev.hearthOff = false) && decide (s.dev.pm.load = some l) && decide (l.format = 0) && decide (s.heap.buf l.buffer = some o) && decide (o.lost = false) && decide (l.bytes = 16 * l.count) && decide (k < l.count) && decide (l.copy < s.dev.pm.copies.length) && ((List.range k).all fun i => decide (entryOk (srcEntry (o.read l.offset l.bytes) i) = true)) && decide (entryOk (srcEntry (o.read l.offset l.bytes) k) = false))) = true := by decide +kernel

theorem test_meets_DecodeSlots : (
    (let h : Hdr := hd; let s : State := rdy id; let p : Bytes := [7, 0, 4, 1, 1, 4, 0, 0, 0, 64, 0, 64, 0, 0, 0, 0] ++ zeros 8 ++ [0, 0, 96, 0] ++ enc 4 0xE8000001 ++ [19, 136, 0, 0, 0, 0, 0, 0]; goes (.decodeStreamSet h p) s fun _ d => decide (d.decSt (u8 p 0) = .off ∧ (∀ z ∈ (streamCfgOf p).sources, d.pairExists z.pair = true) ∧ d.sourceInUse (u8 p 0) (streamCfgOf p).sources = false)) &&
    (let h : Hdr := hd; let s : State := on streamOn; let p : Bytes := [7, 0, 4, 1, 1, 4, 0, 0, 0, 64, 0, 64, 0, 0, 0, 0] ++ zeros 8 ++ [0, 0, 96, 0] ++ enc 4 0xE8000001 ++ [19, 136, 0, 0, 0, 0, 0, 0]; goes (.decodeStreamSet h p) s fun _ d => decide (d.decSt (u8 p 0) ≠ .off)) &&
    (let h : Hdr := hd; let s : State := rdy id; let p : Bytes := [7, 1, 0, 0]; goes (.decodeStreamEnable h p) s fun _ d => decide ((d.stream (u8 p 0)).cfg = none)) &&
    (let h : Hdr := hd; let s : State := on fun d => ({ d with fab := { d.fab with failed := [true, true, true, true] } } : Dev).setStream 7 fun x => { x with cfg := some cfg0 }; let p : Bytes := [7, 1, 0, 0]; goes (.decodeStreamEnable h p) s fun _ d => decide ((d.stream (u8 p 0)).cfg ≠ none ∧ u8 p 1 = 1 ∧ d.decSt (u8 p 0) = .off ∧ d.admits (u8 p 0) = false)) &&
    (let h : Hdr := hd; let s : State := on fun d => d.setStream 7 fun x => { x with cfg := some cfg0 }; let p : Bytes := [7, 1, 0, 0]; goes (.decodeStreamEnable h p) s fun _ d => decide ((d.stream (u8 p 0)).cfg ≠ none ∧ u8 p 1 = 1 ∧ d.decSt (u8 p 0) = .off ∧ d.admits (u8 p 0) = true)) &&
    (let k : Nat := 7; let f := { st := .starting }; let s : State := on fun d => d.setFn (FnId.decode 7) { st := .starting }; decide (k ≤ 7) && (let d := s.dev; decide (d.hearthOff = false ∧ d.fn (FnId.decode k) = f ∧ f.st = .starting ∧ f.stored = none))) &&
    (let h : Hdr := hd; let s : State := on streamOn; let p : Bytes := [7, 7, 0, 0]; goes (.decodePriority h p) s fun _ d => decide ((d.stream (u8 p 0)).cfg ≠ none ∧ (u8 p 1 < 6 ∨ 6 ≤ (d.stream (u8 p 0)).prio ∨ d.decSt (u8 p 0) = .off ∨ d.admitLive (u8 p 0) = true))) &&
    (let h : Hdr := hd; let s : State := rdy id; let p : Bytes := [7, 0, 0, 0] ++ List.replicate 16 255; goes (.decodeAssign h p) s fun _ _ => ((List.range 16).all fun i => decide (u8 p (4 + i) = 0xFF))) &&
    (let h : Hdr := hd; let s : State := on fun d => d.setStream 7 fun x => { x with cfg := some cfg0 }; let p : Bytes := [7, 0, 0, 0, 3] ++ zeros 15; let z := cfg0; goes (.decodeAssign h p) s fun _ d => decide (u8 p 1 = 0 ∧ (d.stream (u8 p 0)).cfg = some z ∧ 1 ≤ z.views ∧ z.views ≤ 16 ∧ (∀ i < z.views, u8 p (4 + i) ≤ 3) ∧ (∀ i, z.views ≤ i → i < 16 → u8 p (4 + i) = 0) ∧ d.tableBad (u8 p 0) (((List.range 16).map fun i => u8 p (4 + i)).take z.views) = false)) &&
    (let h : Hdr := hd; let s : State := rdy id; let p : Bytes := [7, 0, 0, 0]; goes (.decodeStatus h p) s fun _ _ => true) &&
    (let h : Hdr := hd; let s : State := rdy id; let p : Bytes := [0, 0, 0, 0, 0, 64, 0, 0]; goes (.decodeEvents h p) s fun _ d => decide (d.dec.ring = [])) &&
    (let h : Hdr := hd; let s : State := on fun d => { d with dec := { d.dec with ring := [(0, zeros 16)] } }; let p : Bytes := [0, 0, 0, 0, 0, 1, 0, 0]; let e := (0, zeros 16); let r := []; goes (.decodeEvents h p) s fun _ d => decide (d.dec.ring = e :: r)) &&
    decide ((on id).dev.placed = [])) = true := by decide +kernel

theorem test_meets_PicturesAreParsedAndClosed : (
    (let s : State := on streamOn; let i : Nat := 3; let e : Nat := 1; let x := slice0 9; let d := s.dev; decide (d.hearthOff = false ∧ d.nextSlice i = none)) &&
    (let s := on sliceOn; match s.dev.nextSlice 3 with | some (w, n) => decide (s.dev.hearthOff = false ∧ (s.dev.stream w.slot).cfg = some cfg0 ∧ s.dev.stalls 3 (s.dev.stream w.slot).live 16777217 = true) | none => false) &&
    (let s := on sliceOn; match s.dev.nextSlice 3 with | some (w, n) => decide (s.dev.hearthOff = false ∧ (s.dev.stream w.slot).cfg = some cfg0 ∧ s.dev.stalls 3 (s.dev.stream w.slot).live 9 = false) | none => false) &&
    (let d := (on fun d => (sliceOn d).setView 7 0 fun x => { x with tex := { x.tex with noRasl := true } }).dev; let w : Work := ⟨7, 0, false, 9⟩; let n : Nal := ⟨0, false, 0, 9, [16, 1]⟩; let x := slice0 9; let c := cfg0; decide ((u8 n.data 0 / 2 % 64 = 8 ∨ u8 n.data 0 / 2 % 64 = 9) ∧ (d.comp w.slot w.view w.depth).noRasl = true)) &&
    (let d := (on fun d => (sliceOn d)).dev; let w : Work := ⟨7, 0, false, 9⟩; let n : Nal := ⟨0, false, 0, 9, [16, 1]⟩; let x := slice0 9; let c := cfg0; decide ((d.comp w.slot w.view w.depth).noRasl = false ∧ d.hasSets w.slot 2 n.src = false)) &&
    (let d := (on fun d => (sliceOn d)).dev; let w : Work := ⟨7, 0, false, 9⟩; let n : Nal := ⟨0, false, 0, 9, [2, 1]⟩; let x := { slice0 9 with ps := { ps0 with level := 62 } }; let c := cfg0; decide ((d.comp w.slot w.view w.depth).noRasl = false ∧ d.hasSets w.slot 3 n.src = true ∧ c.toolCode w.depth x.ps = some 0x21 ∧ (d.comp w.slot w.view w.depth).tool = none ∧ (d.comp w.slot w.view w.depth).trial = none)) &&
    (let d := (on fun d => (sliceOn d)).dev; let w : Work := ⟨7, 0, false, 9⟩; let n : Nal := ⟨0, false, 0, 9, [2, 1]⟩; let x := slice0 9; let c := cfg0; decide ((d.comp w.slot w.view w.depth).noRasl = false ∧ d.hasSets w.slot 3 n.src = true ∧ c.toolCode w.depth x.ps = none ∧ (d.comp w.slot w.view w.depth).tool = none)) &&
    (let s : State := on streamOn; let i : Nat := 3; let e : Nat := 5; let d := s.dev; decide (d.hearthOff = false ∧ d.nextRow i = none)) &&
    (let s := on fun d => (streamOn d).setView 7 0 fun x => { x with tex := { x.tex with opened := [{ serial := 1, poc := 0, time := 0, desc := ⟨1, 64, 64, 8, 0, false, false⟩, total := 1, rows := 2, got := [(0, 1)], last := 1, closed := true }] } }; match s.dev.nextRow 3 with | some (_, o) => decide (s.dev.hearthOff = false ∧ ¬(o.made + 1 = o.rows ∧ o.closed = true)) | none => false) &&
    (let s := on fun d => (streamOn d).setView 7 0 fun x => { x with tex := { x.tex with opened := [{ serial := 1, poc := 0, time := 0, desc := ⟨1, 64, 64, 8, 0, false, false⟩, total := 1, rows := 1, got := [(0, 1)], last := 1, closed := true }] } }; match s.dev.nextRow 3 with | some (_, o) => decide (s.dev.hearthOff = false ∧ o.made + 1 = o.rows ∧ o.closed = true) | none => false) &&
    (let s : State := rdy id; let k : Nat := 7; let src : Nat := 31; let poc := (0 : Int); let n : Nat := 0; let r : Nat := 0; let d := s.dev; decide (d.hearthOff = false ∧ d.decSt k ≠ .on)) &&
    (let s : State := on fun d => (streamOn d).setStream 7 fun x => { x with ended := [⟨0, 9, 3, false⟩] }; let k : Nat := 7; let src : Nat := 0; let poc := (0 : Int); let n : Nat := 0; let r : Nat := 0; let c := cfg0; let a := (⟨0, 9, 3, false⟩ : EndedAu); let d := s.dev; decide (d.hearthOff = false ∧ (d.stream k).cfg = some c ∧ ((d.stream k).ended.find? fun e => e.src = src && !e.done) = some a ∧ d.decSt k = .on ∧ c.kind ≠ 3 ∧ ((d.stream k).nals.any fun n => n.src = src && n.time = a.time) = false)) &&
    (let s := on fun d => (((streamOn d).setStream 7 fun x => { x with cfg := some { cfg0 with kind := 3 } }).setView 7 0 fun x => { x with tex := { x.tex with opened := [{ serial := 1, poc := 0, time := 9, desc := ⟨1, 64, 64, 8, 0, false, false⟩, total := 1, rows := 1, closed := true }] } }); let d := s.dev; match d.source? 7 0 with | some z => decide (d.hearthOff = false ∧ (d.stream 7).cfg = some { cfg0 with kind := 3 } ∧ ((d.comp 7 z.view z.depth).opened.find? (·.closed)).isSome ∧ d.decSt 7 = .on) | none => false) &&
    (let k : Nat := 7; let v : Nat := 0; let dep := false; let o := ({ serial := 1, poc := 0, time := 9, desc := ⟨1, 64, 64, 8, 0, false, false⟩, total := 1, rows := 1 } : OpenPic); let s : State := on fun d => (streamOn d).setView 7 0 fun x => { x with tex := { x.tex with opened := [{ serial := 1, poc := 0, time := 9, desc := ⟨1, 64, 64, 8, 0, false, false⟩, total := 1, rows := 1 }] } }; let d := s.dev; decide (d.hearthOff = false ∧ ((d.comp k v dep).opened.find? fun o => !o.late) = some o ∧ ((d.dueFrame k o.time).all fun f => decide (d.nextPick ≤ f)) = true)) &&
    (let k : Nat := 7; let v : Nat := 0; let dep := false; let o := ({ serial := 1, poc := 0, time := 9, desc := ⟨1, 64, 64, 8, 0, false, false⟩, total := 1, rows := 1 } : OpenPic); let s : State := on fun d => ((late ((streamOn { d with mode := 1, frame := 600, ras := { d.ras with started := true, startAt := 10 ^ 12 * 65536, bound := 600 } }).setView 7 0 fun x => { x with tex := { x.tex with opened := [{ serial := 1, poc := 0, time := 9, desc := ⟨1, 64, 64, 8, 0, false, false⟩, total := 1, rows := 1 }] } })).wrB 1 R.SYN_SOURCE_SLOT 7).setStream 7 fun x => { x with ended := [⟨0, 9, 600, false⟩] }; let d := s.dev; decide (d.hearthOff = false ∧ ((d.comp k v dep).opened.find? fun o => !o.late) = some o ∧ ((d.dueFrame k o.time).all fun f => decide (d.nextPick ≤ f)) = false))) = true := by decide +kernel

theorem test_meets_SynthesisCommands : (
    (let h : Hdr := hd; let s : State := on fun d => d.setStream 7 fun x => { x with cfg := some cfg0 }; let p : Bytes := [7, 1, 0, 0, 0, 0, 0, 0] ++ (zeros 8 ++ enc 4 0x1000 ++ enc 4 0x10000 ++ enc 4 0x10000 ++ zeros 8 ++ enc 4 0x1000 ++ enc 4 0x1001 ++ zeros 4); let z := cfg0; goes (.synSourceSet h p) s fun _ d => decide ((∀ i < u8 p 1, u32 p (44 + 40 * i) = 0 ∧ cameraBad p (8 + 40 * i) = false) ∧ (d.stream (u8 p 0)).cfg = some z ∧ z.views = u8 p 1)) &&
    (let h : Hdr := hd; let s : State := rdy id; let p : Bytes := [0, 0, 0, 0]; goes (.synSourceGet h p) s fun _ _ => decide (u8 p 0 = 0)) &&
    (let h : Hdr := hd; let s : State := rdy id; let p : Bytes := [1, 0, 0, 0]; goes (.synSourceGet h p) s fun _ _ => decide (u8 p 0 = 1)) &&
    (let h : Hdr := hd; let s : State := rdy id; let p : Bytes := [1, 144, 2, 0] ++ enc 4 1000000 ++ enc 4 0x100 ++ enc 4 1; goes (.synConfig h p) s fun _ _ => true) &&
    (let h : Hdr := hd; let s : State := rdy id; let p : Bytes := []; goes (.synStatus h p) s fun _ _ => true) &&
    (let h : Hdr := hd; let s : State := on fun d => { d with fab := { d.fab with failed := [false, false, false, true] } }; let p : Bytes := [3, 2, 1, 0]; goes (.synGrateSet h p) s fun _ d => decide (d.hobUp (u8 p 0 + 1) = false)) &&
    (let h : Hdr := hd; let s : State := on fun d => { d with syn := { d.syn with faulted := [(4, 2)] } }; let p : Bytes := [3, 2, 1, 0]; goes (.synGrateSet h p) s fun _ d => decide (d.hobUp (u8 p 0 + 1) = true ∧ d.syn.faulted.contains (u8 p 0 + 1, u8 p 1) = true)) &&
    (let h : Hdr := hd; let s : State := rdy id; let p : Bytes := [3, 2, 1, 0]; goes (.synGrateSet h p) s fun _ d => decide (d.hobUp (u8 p 0 + 1) = true ∧ d.syn.faulted.contains (u8 p 0 + 1, u8 p 1) = false ∧ d.syn.moving = [] ∧ (u8 p 2 = 1 ↔ d.syn.hostOff.contains (u8 p 0 + 1, u8 p 1) = false))) &&
    (let h : Hdr := hd; let s : State := on fun d => { d with syn := { d.syn with hostOff := [(4, 2)] } }; let p : Bytes := [3, 2, 1, 0]; goes (.synGrateSet h p) s fun _ d => decide (d.hobUp (u8 p 0 + 1) = true ∧ d.syn.faulted.contains (u8 p 0 + 1, u8 p 1) = false ∧ d.syn.moving = [] ∧ u8 p 2 = 1 ∧ d.syn.hostOff.contains (u8 p 0 + 1, u8 p 1) = true)) &&
    (let h : Hdr := hd; let s : State := on fun d => { d with mode := 1, syn := { d.syn with list := d.syn.list.take 9, faulted := [(2, 1), (3, 1), (4, 1)] } }; let p : Bytes := [0, 0, 0, 0]; goes (.synGrateSet h p) s fun _ d => decide (d.hobUp (u8 p 0 + 1) = true ∧ d.syn.faulted.contains (u8 p 0 + 1, u8 p 1) = false ∧ d.syn.moving = [] ∧ u8 p 2 = 0 ∧ d.syn.hostOff.contains (u8 p 0 + 1, u8 p 1) = false ∧ (d.gratesOn.filter (· ≠ (u8 p 0 + 1, u8 p 1))).length < 9))) = true := by decide +kernel

theorem test_meets_StripsAreDealtBegunAndComplete : (
    (let s : State := on fun d => { d with syn := { d.syn with picks := [pick5] } }; let f : Nat := 5; let d := s.dev; decide (d.hearthOff = false ∧ (d.syn.picks.any fun k => decide (k.frame ≥ f)) = true)) &&
    (let f : Nat := 5; let s : State := on fun d => { d with mode := 1 }; let d := s.dev; decide (d.hearthOff = false ∧ d.reached (d.releaseTime 0 0 0 f) = false)) &&
    (let s : State := on fun d => late { d with mode := 1 }; let f : Nat := 5; decide (s.dev.hearthOff = false) && decide (s.dev.mode ≠ 0) && decide ((s.dev.syn.picks.any fun k => decide (k.frame ≥ f)) = false) && decide (s.dev.reached (s.dev.releaseTime 0 0 0 f) = true)) &&
    (let s : State := on fun d => late (({ d with mode := 1, syn := { d.syn with picks := [pick5] } } : Dev).setFn (FnId.region 0) { st := .on }); let r : Nat := 0; let v : Nat := 0; let i : Nat := 0; let f : Nat := 5; let k := pick5; let e := (1, 0); let d := s.dev; decide (d.hearthOff = false ∧ d.syn.moving = [] ∧ (d.syn.picks.find? fun k => k.frame = f) = some k ∧ d.stripExists r v i = true ∧ d.syn.dead.contains (r, f) = false ∧ d.dealNext r v i f = true ∧ d.reached (d.releaseTime r v i f) = true ∧ d.syn.list[(d.syn.next - d.syn.first) % d.syn.list.length]? = some e)) &&
    (let r : Nat := 0; let v : Nat := 0; let i : Nat := 1; let f : Nat := 5; let s : State := on id; let d := s.dev; decide (d.hearthOff = false ∧ (d.dealNext r v i f = false ∨ d.reached (d.releaseTime r v i f) = false))) &&
    (let s : State := on (withStrip (str 0)); let r : Nat := 0; let v : Nat := 0; let i : Nat := 3; let f : Nat := 5; let t := str 0; decide (t.phase = 0) && decide (t.redone = false) && decide (t.rescued = false) && (let d := s.dev; decide (d.hearthOff = false ∧ d.strip? r v i f = some t ∧ d.mayBegin t = true))) &&
    (let s : State := on fun d => late (withStrip (str 0) d); let r : Nat := 0; let v : Nat := 0; let i : Nat := 3; let f : Nat := 5; let t := str 0; decide (t.phase = 0) && decide (t.redone = false) && decide (t.rescued = false) && (let d := s.dev; decide (d.hearthOff = false ∧ d.strip? r v i f = some t ∧ d.syn.list ≠ [] ∧ d.reached (earlier (d.deadline r v i f) (2 * d.stripTime r)) = true))) &&
    (let s : State := on (withStrip (str 2)); let r : Nat := 0; let v : Nat := 0; let i : Nat := 3; let f : Nat := 5; let a := ([] : List Nat); let b := ([] : List Nat); let t := str 2; decide (2 ≤ t.phase ∨ (t.phase = 0 ∧ t.rescued = false)) && (let d := s.dev; decide (d.hearthOff = false ∧ d.strip? r v i f = some t))) &&
    (let s : State := on (withStrip (str 1)); let r : Nat := 0; let v : Nat := 0; let i : Nat := 3; let f : Nat := 5; let t := str 1; let a := ([] : List Nat); let b := ([] : List Nat); decide (s.dev.hearthOff = false) && decide (t.phase = 1 ∨ (t.phase = 0 ∧ t.rescued = true)) && decide (t.redone = false) && decide (s.dev.strip? r v i f = some t) && decide ((s.dev.syn.picks.any fun k => k.frame = f) = true)) &&
    (let d := (on (withStrip (str 1))).dev; decide (d.strip? 0 0 3 5 = some (str 1) ∧ d.syn.picks.find? (fun k => k.frame = 5) = some pick5)) &&
    (let t := { str 1 true with parts := [(4, 2)] }; let a := ([] : List Nat); let b := ([] : List Nat); let s : State := on (withStrip { str 1 true with parts := [(4, 2)] }); decide (s.dev.hearthOff = false) && decide (s.dev.redoing = some t) && decide (t.parts ≠ []) && decide ((s.dev.syn.picks.any fun k => k.frame = t.frame) = true))) = true := by decide +kernel

theorem test_meets_StripsAreSentOrUnderrun : (
    (let s : State := on fun d => late (withStrip (str 2) d); let r : Nat := 0; let v : Nat := 0; let i : Nat := 3; let f : Nat := 5; let t := str 2; decide (t.phase = 2) && (let d := s.dev; decide (d.hearthOff = false ∧ d.strip? r v i f = some t ∧ (∀ e ∈ d.lineRunsOf t, d.credited e = true) ∧ d.lineDue t = true))) &&
    (let s := on (fun d => damperOn (withStrip { str 2 with lines := [List.replicate 7680 0] } d)); (s.dev.lineRunsOf { str 2 with lines := [List.replicate 7680 0] }).any fun e => !s.dev.credited e) &&
    (let d : Dev := ({} : Dev); let e := ((7, 0, []) : Nat × Nat × List (List Nat)); decide (d.flueUp (linkDie e.1) = false)) &&
    (let s : State := on (withStrip { str 0 true with excused := true }); let r : Nat := 0; let v : Nat := 0; let i : Nat := 3; let f : Nat := 5; let t := ({ str 0 true with excused := true } : Strip); decide (t.redone = true) && decide (t.excused = true) && decide (t.phase < 2) && (let d := s.dev; decide (d.hearthOff = false ∧ d.strip? r v i f = some t))) &&
    (let s : State := on fun d => late (withStrip (str 0 true) d); let t := str 0 true; let r : Nat := 0; let v : Nat := 0; let i : Nat := 3; let f : Nat := 5; decide (s.dev.hearthOff = false) && decide (t.redone = true) && decide (t.excused = false) && decide (t.phase < 2) && decide (s.dev.strip? r v i f = some t) && decide (s.dev.reached (earlier (s.dev.needTime r v i f) 2000) = true)) &&
    (let s : State := on (withStrip (str 2)); let r : Nat := 0; let v : Nat := 0; let i : Nat := 3; let f : Nat := 5; let t := str 2; decide (2 ≤ t.phase) && (let d := s.dev; decide (d.hearthOff = false ∧ d.strip? r v i f = some t))) &&
    (let s : State := on fun d => late (withStrip (str 1) d); let r : Nat := 0; let v : Nat := 0; let i : Nat := 3; let f : Nat := 5; let t := str 1; decide (t.phase < 2) && decide (t.redone = false) && decide (s.dev.hearthOff = false) && decide (s.dev.strip? r v i f = some t) && decide (s.dev.reached (s.dev.deadline r v i f) = true)) &&
    (let d := (on (withStrip (str 1))).dev; decide (str 1 ∈ d.syn.strips ∧ ¬((str 1).region = 1 ∧ (str 1).frame = 5))) &&
    (let s : State := rdy id; let die : Nat := 4; let g : Nat := 2; let c : Nat := 7; decide (s.dev.hearthOff = false) && decide (g ≤ 2) && decide (c ≤ 7) && decide (s.dev.hobsUp.contains die = true) && decide (bit (s.dev.rd die R.SYN_CELL_OFFLINE) (8 * g + c) = false) && decide (s.dev.syn.faulted.contains (die, g) = false) && decide (s.dev.syn.cellErr = [])) &&
    (let s : State := rdy id; let die : Nat := 1; let g : Nat := 0; let c : Nat := 0; decide (s.dev.hearthOff = false) && decide (g ≤ 2) && decide (c ≤ 7) && decide (s.dev.hobsUp.contains die = true) && decide (bit (s.dev.rd die R.SYN_CELL_OFFLINE) (8 * g + c) = false) && decide (s.dev.syn.faulted.contains (die, g) = false) && decide (s.dev.syn.cellErr = []))) = true := by decide +kernel

theorem test_meets_RasterCommands : (
    (let s := on fun d => damperOn { d with mode := 1 }; let p : Bytes := [0, 4, 0, 0, 7, 128, 0, 0] ++ enc 4 1088 ++ [0, 45, 0, 0]; goes (.rasterSet hd p) s fun _ d => decide (rasterBad 1 ras0 = none ∧ ras0 = ⟨u8 p 1, u16 p 4, u32 p 8, u16 p 12, u16 p 14⟩ ∧ (d.fn (FnId.region 0)).st = .off ∧ d.timingAgrees 0 ras0 = true ∧ d.flueUp 8 = true ∧ d.flueUp 9 = true ∧ 0 < d.ras.rasters.length)) &&
    (let s := on fun d => { d with mode := 1 }; goes (.rasterSet hd ([0, 4, 0, 0, 7, 128, 0, 0] ++ enc 4 1088 ++ [0, 45, 0, 0])) s fun _ d => decide (d.timingAgrees 0 ras0 = true ∧ d.flueUp 9 = false)) &&
    (let h : Hdr := hd; let s : State := on fun d => { d with mode := 1 }; let p : Bytes := [0, 1, 0, 0]; goes (.rasterEnable h p) s fun _ d => decide ((d.mode = 1 → u8 p 0 = 0) ∧ (u8 p 1 = 1 → d.regionExists (u8 p 0) = true) ∧ d.ras.rasters.getD (u8 p 0) none = none)) &&
    (let h : Hdr := hd; let s : State := on fun d => { d with mode := 1, ras := { d.ras with rasters := [some ras0, none, none, none] } }; let p : Bytes := [0, 1, 0, 0]; let x := ras0; let k : Nat := 9; goes (.rasterEnable h p) s fun _ d => decide ((d.mode = 1 → u8 p 0 = 0) ∧ (u8 p 1 = 1 → d.regionExists (u8 p 0) = true) ∧ d.ras.rasters.getD (u8 p 0) none = some x ∧ k ∈ (d.linksUsed x.width (u8 p 0)).map linkDie ∧ d.rd 0 (R.DMP_HALF_ON (k - 8)) = 0)) &&
    (let h : Hdr := hd; let s : State := on fun d => { damperOn d with mode := 1, ras := { d.ras with rasters := [some ras0, some { ras0 with rate := 2 }, none, none] }, fns := amPut d.fns (FnId.region 1) { st := .on } }; let p : Bytes := [0, 1, 0, 0]; let x := ras0; goes (.rasterEnable h p) s fun _ d => decide ((d.mode = 1 → u8 p 0 = 0) ∧ d.regionExists (u8 p 0) = true ∧ d.ras.rasters.getD (u8 p 0) none = some x ∧ u8 p 1 = 1 ∧ (∀ k ∈ (d.linksUsed x.width (u8 p 0)).map linkDie, d.rd 0 (R.DMP_HALF_ON (k - 8)) ≠ 0) ∧ d.timingAgrees (u8 p 0) x = false)) &&
    (let h : Hdr := hd; let s : State := on panelOn; let p : Bytes := [0, 0, 0, 0]; let x := ras0; goes (.rasterEnable h p) s fun _ d => decide ((d.mode = 1 → u8 p 0 = 0) ∧ d.ras.rasters.getD (u8 p 0) none = some x ∧ u8 p 1 ≠ 1 ∧ (∀ k ∈ (d.linksUsed x.width (u8 p 0)).map linkDie, d.flueUp k = true ∧ d.canAnswer k = true) ∧ h.answered = none ∧ (d.fn (FnId.region (u8 p 0))).st = .on)) &&
    (let h : Hdr := hd; let s : State := on fun d => { panelOn d with dmp := { d.dmp with ret := none } }; let p : Bytes := [0, 0, 0, 0]; let x := ras0; let k : Nat := 8; goes (.rasterEnable h p) s fun _ d => decide ((d.mode = 1 → u8 p 0 = 0) ∧ d.ras.rasters.getD (u8 p 0) none = some x ∧ u8 p 1 ≠ 1 ∧ (∀ k ∈ (d.linksUsed x.width (u8 p 0)).map linkDie, d.rd 0 (R.DMP_HALF_ON (k - 8)) ≠ 0) ∧ k ∈ (d.linksUsed x.width (u8 p 0)).map linkDie ∧ d.flueUp k = false ∧ (d.fn (FnId.region (u8 p 0))).st = .on)) &&
    (let h : Hdr := hd; let s : State := on panelOn; let p : Bytes := [1, 2, 0, 0] ++ enc 4 100; goes (.genlockSet h p) s fun _ d => decide (2 * (s32 p 4).natAbs * 65536 * (periodOf d.rate).2 ≤ (periodOf d.rate).1) && decide (d.flueUp 8 = true) && decide (d.canAnswer 8 = true) && decide (h.answered = none)) &&
    (let h : Hdr := hd; let s : State := on panelOn; let p : Bytes := []; goes (.rasterStatus h p) s fun _ d => decide ((∀ k ∈ flueDies, d.flueUp k = true)) && decide (h.answered = none)) &&
    (let h : Hdr := hd; let s : State := on fun d => { d with mode := 1 }; let p : Bytes := []; goes (.rasterStatus h p) s fun _ d => decide (d.flueUp 9 = false)) &&
    (let h : Hdr := hd; let s : State := on panelOn; let p : Bytes := [7, 64, 0, 0] ++ zeros 8; goes (.signatureRead h p) s fun _ d => decide (d.flueUp (linkDie (u8 p 0)) = true ∧ h.answered = none ∧ d.ras.sigs.getD (u8 p 0) [] = [])) &&
    (let h : Hdr := hd; let s : State := on fun d => { panelOn d with ras := { d.ras with sigs := d.ras.sigs.set 7 [⟨1, 0, 2⟩] } }; let p : Bytes := [7, 1, 0, 0] ++ zeros 8; let g := ⟨1, 0, 2⟩; let r := []; goes (.signatureRead h p) s fun _ d => decide (d.flueUp (linkDie (u8 p 0)) = true ∧ h.answered = none ∧ d.ras.sigs.getD (u8 p 0) [] = g :: r)) &&
    (let h : Hdr := hd; let s : State := on fun d => { d with mode := 1 }; let p : Bytes := [7, 1, 0, 0] ++ zeros 8; goes (.signatureRead h p) s fun _ d => decide (d.flueUp (linkDie (u8 p 0)) = false))) = true := by decide +kernel

theorem test_meets_CommitsAreCapturedAndBound : (
    (let h : Hdr := hd; let s : State := on panelOn; let p : Bytes := zeros 16; goes (.commit h p) s fun _ _ => decide (u8 p 0 = 0)) &&
    (let h : Hdr := hd; let s : State := on panelOn; let p : Bytes := [1, 0, 0, 0, 0, 0, 0, 0] ++ enc 8 0; goes (.commit h p) s fun _ d => decide (u8 p 0 = 1 ∧ u64 p 8 < d.nextBind)) &&
    (let h : Hdr := hd; let s : State := on panelOn; let p : Bytes := [1, 0, 0, 0, 0, 0, 0, 0] ++ enc 8 1048577; goes (.commit h p) s fun _ d => decide (u8 p 0 = 1 ∧ d.nextBind ≤ u64 p 8 ∧ u64 p 8 ≤ d.nextBind + 1048576 ∧ d.scheduled.length < 16)) &&
    (let h : Hdr := hd; let s : State := on fun d => { panelOn d with ras := { (panelOn d).ras with commits := List.replicate 16 { no := 0, cmd := none, frame := none, time := 0, sched := true, snap := ⟨[], false, [], none, [], [], [], [], [], 0⟩ } } }; let p : Bytes := [1, 0, 0, 0, 0, 0, 0, 0] ++ enc 8 1; goes (.commit h p) s fun _ d => decide (u8 p 0 = 1 ∧ d.nextBind ≤ u64 p 8 ∧ u64 p 8 ≤ d.nextBind + 1048576 ∧ 16 ≤ d.scheduled.length)) &&
    (let s : State := on fun d => { d with ras := { d.ras with capture := [(3, cm)] } }; let no : Nat := 3; let c := cm; let rest := ([] : List (Nat × Cmd)); let d := s.dev; decide (d.hearthOff = false ∧ d.ras.capture = (no, c) :: rest)) &&
    decide (0 < (on id).dev.lay.changed.length) &&
    (let d : Dev := { ({} : Dev) with ras := { ({} : Dev).ras with commits := [{ no := 1, cmd := none, frame := none, time := 0, sched := true, snap := ⟨[], false, [], none, [], [], [], [], [], 0⟩ }] } }; decide (d.ras.commits.map (·.no) = [1])) &&
    (let s := on panelOn; decide (s.dev.mode ≠ 0 ∧ s.dev.ras.commits = []) && (List.range 8).all fun n => (s.dev.lay.held.getD n none).isNone) &&
    (let s : State := on fun d => { panelOn d with ras := { (panelOn d).ras with commits := [{ no := 1, cmd := none, frame := none, time := 0, sched := false, snap := ⟨[], false, [], none, [], [], [], [], [], 0⟩ }] } }; let c := ({ no := 1, cmd := none, frame := none, time := 0, sched := false, snap := ⟨[], false, [], none, [], [], [], [], [], 0⟩ } : Commit); decide (c.sched = false) && (let d := s.dev; decide (d.hearthOff = false ∧ d.mode ≠ 0 ∧ d.ras.commits = [c] ∧ c.due (d.numberAt d.ras.bound (roundFree (d.frameStart (d.ras.bound + 1)).1 (d.frameStart (d.ras.bound + 1)).2)) (d.frameStart (d.ras.bound + 1)) = true)))) = true := by decide +kernel

theorem test_meets_FramesLinesAndGenlock : (
    (let s : State := rdy id; let d := s.dev; decide (d.mode = 0)) &&
    (let s : State := on panelOn; decide (s.dev.mode ≠ 0)) &&
    (let s : State := on panelOn; let f : Nat := 1; decide (f ≤ 1) && (let d := s.dev; decide (d.mode = 1 ∧ (d.filmDie f).dark ≠ 2))) &&
    (let f : Nat := 1; let s : State := on fun d => { d with mode := 2 }; decide (f ≤ 1) && (let d := s.dev; decide (d.mode = 2 ∧ (d.filmDie f).dark ≠ 2))) &&
    (let d : Dev := ({} : Dev).setFlueEnd 1 { parts := [⟨6, 2, [⟨0, true, [(0, 1)]⟩]⟩], due := [⟨6, 2, []⟩] }; decide (d.dmp.ends.length = 2 ∧ (d.flueEnd 1).parts = [⟨6, 2, [⟨0, true, [(0, 1)]⟩]⟩] ∧ (d.flueEnd 1).due = [⟨6, 2, []⟩] ∧ partsWhole [⟨0, true, [(0, 1)]⟩] = true ∧ d.film.carried = [] ∧ d.blw.carried = [])) &&
    (let d : Dev := ({} : Dev).setFlueEnd 1 { due := [⟨6, 2, []⟩] }; decide (d.dmp.ends.length = 2 ∧ (d.flueEnd 1).parts = [] ∧ (d.flueEnd 1).due = [⟨6, 2, []⟩] ∧ (d.flueEnd 1).late = [] ∧ d.film.carried = [] ∧ d.blw.carried = [])) &&
    (let s : State := on fun d => trained 7 ((panelOn d).setFn (FnId.region 0) {}); let n : Nat := 7; let line : Nat := 0; decide (n ≤ 7) && (let d := s.dev; decide (d.mode = 1 ∧ d.linkActive n = true ∧ line < d.active + d.ras.vnow ∧ d.pwr.twinStop.getD (n / 4) false = false ∧ (d.fn (FnId.region 0)).st = .off))) &&
    (let s : State := on fun d => trained 0 (panelOn d); let n : Nat := 0; let line : Nat := 3; decide (n ≤ 7) && (let d := s.dev; decide (d.mode = 1 ∧ d.linkActive n = true ∧ line < d.active + d.ras.vnow ∧ d.pwr.twinStop.getD (n / 4) false = false ∧ (d.fn (FnId.region 0)).st = .on ∧ d.ras.live.getD n false = true))) &&
    (let s : State := rdy id; let e := true; let d := s.dev; decide (e ≠ bit d.ras.glFlags 1)) &&
    (let s : State := rdy id; let e := false; let d := s.dev; decide (e = bit d.ras.glFlags 1 ∧ d.ras.fsLast = none)) &&
    (let s : State := on fun d => { d with ras := { d.ras with fsLast := some 0, fsValid := true } }; let e := false; let l : Nat := 0; let d := s.dev; decide (e = bit d.ras.glFlags 1 ∧ d.ras.fsLast = some l ∧ d.ras.fsValid = true ∧ (periodOf d.rate).1 < 200 * (((d.media : Int) - l) * (periodOf d.rate).2 - (periodOf d.rate).1).natAbs)) &&
    (let s : State := on panelOn; let n : Nat := 7; let f : Nat := 5; decide (s.dev.hearthOff = false) && decide (n ≤ 7) && decide (s.dev.mode ≠ 0) && decide (n < s.dev.ras.black.length))) = true := by decide +kernel

theorem test_meets_SetpointsAreWritten : (
    (let h : Hdr := hd; let s : State := on panelOn; let p : Bytes := [1, 0, 0, 0, 47, 0, 0, 5]; goes (.bellowsSetpoint h p) s fun _ _ => true) &&
    (let h : Hdr := hd; let s : State := on panelOn; let p : Bytes := [2, 0, 0, 0, 47, 0, 0, 5, 0, 0, 0, 9]; goes (.bellowsSetpoint h p) s fun _ d => decide (h.answered = none) && decide ((∀ i < u8 p 0, d.flueUp (loopDie (u8 p (4 + 4 * i))) = true ∧ d.canAnswer (loopDie (u8 p (4 + 4 * i))) = true)))) = true := by decide +kernel

theorem test_meets_BellowsCommands : (
    (let h : Hdr := hd; let s : State := on panelOn; let p : Bytes := [47, 3, 8, 255, 0, 0, 1, 0, 0, 0, 1, 0, 0, 0, 1, 0, 0, 5, 0, 0]; goes (.bellowsLoopSet h p) s fun _ d => decide (d.cfgRefused (u8 p 0) (u8 p 1) (u8 p 2) (if u8 p 3 = 0xFF then none else some (u8 p 3)) (u16 p 6) = none) && decide (d.flueUp (loopDie (u8 p 0)) = true) && decide (d.canAnswer (loopDie (u8 p 0)) = true) && decide (h.answered = none)) &&
    (let h : Hdr := hd; let s : State := on fun d => (panelOn d).setFn (loopFn 47) { st := .on }; let p : Bytes := [47, 3, 8, 255, 0, 0, 1, 0, 0, 0, 1, 0, 0, 0, 1, 0, 0, 5, 0, 0]; let st := St.badState; let rs := Rsw.loopOn; goes (.bellowsLoopSet h p) s fun _ d => decide (d.cfgRefused (u8 p 0) (u8 p 1) (u8 p 2) (if u8 p 3 = 0xFF then none else some (u8 p 3)) (u16 p 6) = some (st, rs))) &&
    (let h : Hdr := hd; let s : State := on panelOn; let p : Bytes := [47, 1, 0, 0] ++ zeros 16; goes (.bellowsCoeffSet h p) s fun _ d => decide (d.coeffRefused (u8 p 0) (u8 p 1) = none) && decide (d.flueUp (loopDie (u8 p 0)) = true) && decide (d.canAnswer (loopDie (u8 p 0)) = true) && decide (h.answered = none)) &&
    (let h : Hdr := hd; let s : State := on panelOn; let p : Bytes := [47, 0, 0, 0] ++ zeros 16; goes (.bellowsCoeffSet h p) s fun _ d => decide (d.bankOf (u8 p 0) = u8 p 1)) &&
    (let h : Hdr := hd; let s : State := on panelOn; let p : Bytes := enc 8 (2 ^ 47) ++ [1, 1, 0, 0, 0, 0, 0, 0]; goes (.bellowsSwap h p) s fun _ d => decide (u8 p 9 = 1 ∧ h.answered = none ∧ ∀ L ∈ maskLoops (u48 p 2), d.flueUp (loopDie L) = true ∧ d.canAnswer (loopDie L) = true)) &&
    (let h : Hdr := hd; let s : State := on panelOn; let p : Bytes := enc 8 (2 ^ 47 + 1) ++ [0, 0, 0, 0, 0, 0, 0, 0]; goes (.bellowsSwap h p) s fun _ d => decide (u8 p 9 = 0 ∧ h.answered = none ∧ ∀ L ∈ maskLoops (u48 p 2), d.flueUp (loopDie L) = true ∧ d.canAnswer (loopDie L) = true)) &&
    (let h : Hdr := hd; let s : State := on panelOn; let p : Bytes := [47, 1, 0, 0]; goes (.bellowsEnable h p) s fun _ d => decide (d.flueUp (loopDie (u8 p 0)) = true ∧ d.canAnswer (loopDie (u8 p 0)) = true ∧ h.answered = none ∧ u8 p 1 = 1 ∧ (d.fn (loopFn (u8 p 0))).st = .off)) &&
    (let h : Hdr := hd; let s : State := rdy id; let p : Bytes := [0, 0, 0, 0]; goes (.bellowsEnable h p) s fun _ d => decide (u8 p 1 ≠ 1 ∧ (d.fn (loopFn (u8 p 0))).st = .off)) &&
    (let h : Hdr := hd; let s : State := on id; let p : Bytes := [0, 1, 0, 0]; goes (.bellowsEnable h p) s fun _ d => decide (d.flueUp (loopDie (u8 p 0)) = false ∧ u8 p 1 = 1 ∧ (d.fn (loopFn (u8 p 0))).st = .off)) &&
    (let h : Hdr := hd; let p : Bytes := []; let s : State := on damperOn; goes (.bellowsStatus h p) s fun _ d => decide (d.flueUp 8 = true ∧ d.flueUp 9 = true ∧ h.answered = none))) = true := by decide +kernel

theorem test_meets_BellowsTicks : (
    (let s : State := rdy id; let f : Nat := 1; let fr := false; decide (f ≤ 1) && (let d := s.dev; ((List.range 24).all fun l => decide (d.loopDue f l fr (d.rd (8 + f) R.BLW_TICK + b2n (!fr)) = false)))) &&
    (let s := on fun d => ((panelOn d).setFn (loopFn 47) { st := .on }).setLoop 47 { sum := 256, count := 1 }; let t := s.dev.wr 9 (R.BLW_L_CFG_RATE 23) 0; decide (t.blw.loops.length = 48 ∧ t.blw.swaps = [] ∧ (t.fn (loopFn (24 * 1 + 23))).st = .on ∧ t.rd 9 (R.BLW_L_CFG_GROUPED 23) = 0 ∧ 0 < (t.loop 47).count) && (List.range 24).all fun k => t.loopDue 1 k false (t.rd 9 R.BLW_TICK + 1) == decide (k = 23)) &&
    (let t : Dev := ((panelOn {}).setFn (loopFn 0) { st := .on }).wr 8 (R.BLW_L_CFG_RATE 0) 0; decide ((t.loop 0).count = 0 ∧ (t.fn (loopFn 0)).st = .on) && (List.range 24).all fun k => t.loopDue 0 k false (t.rd 8 R.BLW_TICK + 1) == decide (k = 0)) &&
    (let x : Loop := ({} : Loop); let m : Int := 0; let sp : Int := 0; let iLo : Int := -1; let iHi : Int := 1; let oLo : Int := 0; let oHi : Int := 0; let k : List Int := []; let pre : Bool := true; decide (iLo ≤ iHi) && decide (oLo ≤ oHi))) = true := by decide +kernel

theorem test_meets_FilmCommands : (
    (let h : Hdr := hd; let s : State := on panelOn { objs := [{ buf 1 2050 with cells := [] }] }; let p : Bytes := [1, 0, 0, 0] ++ enc 4 0xFFFFF ++ [0, 1, 0, 0] ++ zeros 4; let o := { buf 1 2050 with cells := [] }; goes (.panelCurveSet h p) s fun _ _ => let hp := s.heap; decide (hp.buf (u16 p 8) = some o ∧ o.lost = false ∧ u8 p 0 = 1 ∧ curveOk 4095 (curvePoints o (u32 p 12)) = true)) &&
    (let h : Hdr := hd; let s : State := on panelOn { objs := [{ buf 1 6150 with lost := true }] }; let p : Bytes := [7, 0, 0, 0] ++ enc 4 0x1000 ++ [0, 1, 0, 0] ++ zeros 4; let o := { buf 1 6150 with lost := true }; goes (.panelCurveSet h p) s fun _ _ => let hp := s.heap; decide (hp.buf (u16 p 8) = some o ∧ o.lost = true)) &&
    (let h : Hdr := hd; let s : State := on panelOn { objs := [{ buf 1 2050 with cells := [] }] }; let p : Bytes := [0, 0, 0, 1] ++ enc 4 0 ++ enc 4 1748; let o := { buf 1 2050 with cells := [] }; goes (.filmTableSet h p) s fun _ d => let hp := s.heap; decide (d.filmSt = .off ∧ hp.buf (u16 p 2) = some o ∧ o.lost = false ∧ d.flueUp 8 = true ∧ d.flueUp 9 = true)) &&
    (let h : Hdr := hd; let s : State := on (fun d => { d with mode := 1 }) twoSurf; let p : Bytes := [0, 0, 0, 1] ++ enc 4 0 ++ enc 4 1748; let o := (buf 1 4096); goes (.filmTableSet h p) s fun _ d => let hp := s.heap; decide (d.filmSt = .off ∧ hp.buf (u16 p 2) = some o ∧ o.lost = false ∧ (d.flueUp 8 = false ∨ d.flueUp 9 = false))) &&
    (let s := on fun d => damperOn { d with film := { d.film with load := [⟨cm, 0, 1, 0, 1748⟩] } }; decide (s.dev.hearthOff = false ∧ s.dev.film.load = [⟨cm, 0, 1, 0, 1748⟩] ∧ s.dev.ing.running = none ∧ (∀ k ∈ flueDies, s.dev.flueUp k = true ∧ s.dev.canAnswer k = true))) &&
    (let s : State := on fun d => { panelOn d with film := { d.film with load := [⟨cm, 0, 1, 0, 1748⟩] } }; let l := ⟨cm, 0, 1, 0, 1748⟩; let rest := []; let r := Rs.bufferLost; decide (s.dev.hearthOff = false) && decide (s.dev.film.load = l :: rest) && decide ((l.format = 0 ∨ s.dev.ing.running = none)) && decide (tableImage l (s.heap.buf l.buffer) = .error r)) &&
    (let h : Hdr := hd; let s : State := on panelOn; let p : Bytes := [0, 1, 1, 255, 0, 0, 0, 0]; goes (.filmConfig h p) s fun _ d => decide (d.pulseFits (u16 p 0) = true) && decide ((∀ k ∈ flueDies, d.flueUp k = true ∧ d.canAnswer k = true)) && decide ((∀ k ∈ flueDies, d.pwr.refuse.getD (k - 8) false = false)) && decide (h.answered = none)) &&
    (let h : Hdr := hd; let s : State := on panelOn; let p : Bytes := [1, 0, 0, 0]; goes (.filmEnable h p) s fun _ d => decide (u8 p 0 = 1 ∧ d.film.table = [])) &&
    (let h : Hdr := hd; let s : State := on fun d => (filmOn d).setFn (FnId.region 0) {}; let p : Bytes := [1, 0, 0, 0]; goes (.filmEnable h p) s fun _ d => decide (u8 p 0 = 1 ∧ d.film.table ≠ [] ∧ (d.fn (FnId.region 0)).st ≠ .on)) &&
    (let h : Hdr := hd; let s : State := on fun d => (filmOn d).setFn FnId.film {}; let p : Bytes := [1, 0, 0, 0]; goes (.filmEnable h p) s fun _ d => decide (u8 p 0 = 1 ∧ d.film.table ≠ [] ∧ (d.fn (FnId.region 0)).st = .on ∧ d.powerOk 0 = true ∧ d.powerOk 1 = true ∧ (∀ k ∈ flueDies, d.flueUp k = true ∧ d.canAnswer k = true) ∧ h.answered = none ∧ d.filmSt = .off)) &&
    (let h : Hdr := hd; let s : State := on panelOn { objs := [{ buf 1 2050 with cells := [] }] }; let p : Bytes := [255, 255, 0, 1] ++ zeros 4 ++ [0, 0, 0, 0, 0, 8, 0, 1]; goes (.filmUpdate h p) s fun _ d => decide (d.rectOk p = true ∧ d.filmSt = .off)) &&
    (let h : Hdr := hd; let s : State := on filmOn { objs := [{ buf 1 2050 with cells := [] }] }; let p : Bytes := [255, 255, 0, 1] ++ zeros 4 ++ [0, 0, 0, 0, 0, 8, 0, 1]; let o := { buf 1 2050 with cells := [] }; goes (.filmUpdate h p) s fun _ d => decide (d.rectOk p = true) && decide (d.filmSt = .on) && decide (d.retainSt = .off) && decide (s.heap.buf (u16 p 2) = some o) && decide (o.lost = false) && decide (d.film.slots = []) && decide ((∀ k ∈ flueDies, d.flueUp k = true ∧ d.canAnswer k = true)) && decide (h.answered = none)) &&
    (let h : Hdr := hd; let p : Bytes := []; let s : State := on panelOn; goes (.filmStatus h p) s fun _ d => decide (d.flueUp 8 = true) && decide (d.flueUp 9 = true) && decide (h.answered = none)) &&
    (let h : Hdr := hd; let s : State := on panelOn; let p : Bytes := [1, 0, 0, 0]; goes (.panelRetain h p) s fun _ d => decide (d.filmSt ≠ .on)) &&
    (let h : Hdr := hd; let s : State := on filmOn; let p : Bytes := [1, 0, 0, 0]; goes (.panelRetain h p) s fun _ d => decide (u8 p 0 = 1 ∧ d.filmSt = .on ∧ d.retainSt = .off ∧ (∀ k ∈ flueDies, d.flueUp k = true ∧ d.canAnswer k = true) ∧ h.answered = none))) = true := by decide +kernel

theorem test_meets_FilmFramesAndPowerLoss : (
    (let s : State := on fun d => { panelOn d with film := { d.film with next := 99 } }; let d := s.dev; decide (d.mode = 1 ∧ fpfOf d.rate ≤ d.film.next)) &&
    (let s : State := on filmOn; decide (s.dev.mode = 1) && decide (s.dev.film.next < fpfOf s.dev.rate) && decide (s.dev.filmGoes 0 = true)) &&
    (let s : State := rdy id; let d := s.dev; decide ((d.filmDie 0).pulse = false ∧ (d.filmDie 1).pulse = false)) &&
    (let d : Dev := ({ ({} : Dev) with film := { dies := [{}, { pulse := true }] } } : Dev); let f : Nat := 1; decide (f ≤ 1) && decide (d.film.dies.length = 2) && decide ((d.filmDie f).pulse = true)) &&
    (let s : State := on fun d => { d with film := { dies := [{ pulse := true, park := some 0 }, {}] } }; decide ((s.dev.filmDie 0).pulse = true) && decide (s.dev.film.slots = []) && decide ((s.dev.filmDie 0).park.isSome = true) && decide (s.dev.film.dies.length = 2) && decide ((s.dev.filmDie 0).resetDue = false) && decide ((s.dev.filmDie 1).resetDue = false)) &&
    (let s : State := on panelOn; let f : Nat := 1; let c : Nat := 1; decide (f ≤ 1) && decide (c % 4 ≠ 0) && decide (s.dev.pwr.pfailN.getD f true = true) && decide (s.dev.pwr.hvLow.getD f false = false) && decide (s.dev.thm.fluHalt.getD f false = false) && decide (s.dev.filmSt = .off) && decide (f < s.dev.pwr.refuse.length)) &&
    (let s := on fun d => { d with film := { dies := [{}, { park := some 6 }] } }; decide ((s.dev.filmDie 1).park = some 6 ∧ (s.dev.filmDie 1).pulse = false ∧ (s.dev.filmDie 1).parkSet = [] ∧ s.dev.film.dies.length = 2)) &&
    (let s : State := on fun d => { d with film := { dies := [{}, { pulse := true }] } }; let f : Nat := 1; decide ((s.dev.filmDie f).pulse = true)) &&
    (let d : Dev := ({} : Dev); let f : Nat := 0; let k : Nat := 0; decide (f ≤ 1) && decide (d.film.dies.length = 2)) &&
    (let s : State := rdy id; let f : Nat := 1; decide (f ≤ 1) && decide ((s.dev.filmDie f).park = none) && decide (f < s.dev.pwr.refuse.length) && decide (f < s.dev.pwr.pfailN.length) && decide (f < s.dev.pwr.hvLow.length) && decide (f < s.dev.pwr.hvHigh.length) && decide (f < s.dev.film.dies.length)) &&
    ((on fun d => (damperOn d).setFlueEnd 1 { queue := [⟨0x85, [3 * 2 ^ 56 + 9]⟩] }).dev.retTake 1 ⟨0x85, [3 * 2 ^ 56 + 9]⟩).isSome &&
    (let f : Nat := 1; let c : Nat := 1; let n : Nat := 0; let k := MsgCheck.good; let s : State := on id; decide (s.dev.hearthOff = true ∨ s.dev.retTake f ⟨0x85, [c * 2 ^ 56 + n]⟩ = none))) = true := by decide +kernel

theorem test_meets_QuenchAndSlots : (
    (let h : Hdr := hd; let s : State := on fun d => ({ d with mode := 2 } : Dev).setFn (FnId.lamp 0) { st := .on }; let p : Bytes := enc 2 1000 ++ enc 2 200 ++ [1, 0, 0, 0]; goes (.quenchConfig h p) s fun _ d => decide (d.litBad (u16 p 0) (u16 p 2) = false ∧ d.segSt 0 ≠ .off)) &&
    (let h : Hdr := hd; let s : State := on fun d => damperOn { d with mode := 2 }; let p : Bytes := enc 2 1000 ++ enc 2 200 ++ [1, 0, 0, 0]; goes (.quenchConfig h p) s fun _ d => decide (d.litBad (u16 p 0) (u16 p 2) = false) && decide (d.segSt 0 = .off) && decide (d.segSt 1 = .off) && decide ((∀ k ∈ flueDies, d.flueUp k = true ∧ d.canAnswer k = true)) && decide (h.answered = none)) &&
    (let h : Hdr := hd; let s : State := on (fun d => { d with mode := 2 }) { objs := [{ buf 1 2050 with cells := [] }] }; let p : Bytes := [1, 0, 0, 0] ++ enc 4 0x1000 ++ [0, 1, 0, 0] ++ zeros 4; let o := { buf 1 2050 with cells := [] }; goes (.projCurveSet h p) s fun _ _ => let hp := s.heap; decide (hp.buf (u16 p 8) = some o ∧ o.lost = false ∧ u8 p 0 = 1 ∧ curveOk 1023 (curvePoints o (u32 p 12)) = true)) &&
    (let h : Hdr := hd; let s : State := on (fun d => { d with mode := 2 }) { objs := [buf 1 2050] }; let p : Bytes := [1, 0, 0, 0] ++ enc 4 0x1000 ++ [0, 1, 0, 0] ++ zeros 4; let o := buf 1 2050; goes (.projCurveSet h p) s fun _ _ => let hp := s.heap; decide (hp.buf (u16 p 8) = some o ∧ o.lost = false ∧ u8 p 0 = 1 ∧ curveOk 1023 (curvePoints o (u32 p 12)) = false)) &&
    (let h : Hdr := hd; let p : Bytes := []; let s : State := on fun d => damperOn { d with mode := 2 }; goes (.quenchStatus h p) s fun _ d => decide (d.flueUp 8 = true) && decide (d.flueUp 9 = true) && decide (h.answered = none)) &&
    (let s : State := on fun d => { d with mode := 2, lamp := { d.lamp with slot := 768 } }; let d := s.dev; decide (d.mode ≠ 2 ∨ 768 ≤ d.lamp.slot)) &&
    (let s : State := on fun d => { d with mode := 2, lamp := { d.lamp with slot := 767 } }; decide (s.dev.mode = 2) && decide (s.dev.lamp.slot < 768))) = true := by decide +kernel

theorem test_meets_LampCommandsAndBus : (
    (let h : Hdr := hd; let s : State := on damperOn; let p : Bytes := [1, 1, 0, 0]; goes (.lampEnable h p) s fun _ d => decide (u8 p 1 = 1 ∧ d.segSt (u8 p 0) = .off ∧ d.rd (8 + u8 p 0) R.LMP_STATE_ENUM_DONE = 0)) &&
    (let s := on fun d => ((((damperOn d).wr 9 R.LMP_STATE_ENUM_DONE 1).markNode 1 31 true false).wr 9 (R.LMP_CH_ENABLE 127) 1); goes (.lampEnable hd [1, 1, 0, 0]) s fun _ d => decide (d.rd 9 R.LMP_STATE_ENUM_DONE = 1 ∧ d.flueUp 9 = true ∧ d.segSt 1 = .off) && (List.range 128).all fun n => !d.chEnabled 1 n || d.nodePresent 1 (n / 4)) &&
    (let s : State := on fun d => let d := damperOn d; ({ d with lamp := { d.lamp with segs := d.lamp.segs.set 1 { stage := 3 } } } : Dev).setFn (FnId.lamp 1) { st := .starting, stored := none, running := [cm] }; let k : Nat := 1; let r := [cm]; decide (k ≤ 1) && decide (s.dev.lamp.segs.length = 2) && decide (s.dev.fn (FnId.lamp k) = { st := .starting, stored := none, running := r }) && decide ((s.dev.seg k).failed = none) && decide ((s.dev.seg k).stage = 3) && decide ((∀ t ∈ (s.dev.seg k).queue, t.why ≠ .enable true))) &&
    (let h : Hdr := hd; let s : State := on damperOn; let p : Bytes := [1, 127, 63, 255]; goes (.lampChannelSet h p) s fun _ d => decide (d.segSt (u8 p 0) = .off) && decide (d.flueUp (8 + u8 p 0) = true) && decide (d.canAnswer (8 + u8 p 0) = true) && decide (h.answered = none)) &&
    (let h : Hdr := hd; let s : State := on damperOn { objs := [buf 1 2048] }; let p : Bytes := [1, 0, 127, 0] ++ enc 2 1 ++ zeros 10; let o := (buf 1 2048 : Obj); goes (.lampTableSet h p) s fun _ _ => decide (s.heap.buf (u16 p 4) = some o) && decide (o.lost = false) && decide (u8 p 1 = 0)) &&
    (let h : Hdr := hd; let s : State := on damperOn; let p : Bytes := [1, 2, 0, 0, 127, 0, 255, 255, 0, 0, 0, 1]; goes (.lampSetpoint h p) s fun _ d => decide (d.flueUp (8 + u8 p 0) = true) && decide (d.canAnswer (8 + u8 p 0) = true) && decide (h.answered = none) && decide (d.lamp.segs.length = 2)) &&
    (let h : Hdr := hd; let s : State := on fun d => (((damperOn d).wr 9 R.LMP_STATE_ENUM_DONE 1).markNode 1 31 true false); let p : Bytes := [1, 127, 0, 0]; goes (.lampClear h p) s fun _ d => decide (d.nodeBad (u8 p 0) (u8 p 1 / 4) = none ∧ d.flueUp (8 + u8 p 0) = true ∧ d.canAnswer (8 + u8 p 0) = true ∧ h.answered = none ∧ d.segSt (u8 p 0) = .off)) &&
    (let h : Hdr := hd; let s : State := on fun d => (damperOn d).wr 9 R.LMP_STATE_ENUM_DONE 1; let p : Bytes := [1, 127, 0, 0]; goes (.lampClear h p) s fun _ d => decide (d.rd (8 + u8 p 0) R.LMP_STATE_ENUM_DONE = 1 ∧ d.nodePresent (u8 p 0) (u8 p 1 / 4) = false)) &&
    (let h : Hdr := hd; let s : State := on fun d => (((damperOn d).wr 9 R.LMP_STATE_ENUM_DONE 1).markNode 1 31 true false); let p : Bytes := [1, 0, 0, 0]; goes (.lampNodes h p) s fun _ d => decide (u8 p 1 = 0 ∧ d.rd (8 + u8 p 0) R.LMP_STATE_ENUM_DONE = 1 ∧ d.flueUp (8 + u8 p 0) = true ∧ h.answered = none)) &&
    (let h : Hdr := hd; let s : State := on fun d => (((damperOn d).wr 9 R.LMP_STATE_ENUM_DONE 1).markNode 1 31 true false); let p : Bytes := [1, 1, 0, 0]; goes (.lampNodes h p) s fun _ d => decide (u8 p 1 = 1) && decide (d.segSt (u8 p 0) = .off) && decide (d.rd (8 + u8 p 0) R.LMP_STATE_ENUM_DONE = 1) && decide (d.flueUp (8 + u8 p 0) = true) && decide (d.canAnswer (8 + u8 p 0) = true) && decide (h.answered = none) && decide (d.lamp.segs.length = 2)) &&
    (let h : Hdr := hd; let s : State := on fun d => (((damperOn d).wr 9 R.LMP_STATE_ENUM_DONE 1).markNode 1 31 true false); let p : Bytes := [1, 31, 255, 1] ++ enc 2 9 ++ zeros 2; goes (.lampNodeAccess h p) s fun _ d => decide (d.nodeBad (u8 p 0) (u8 p 1) = none ∧ d.flueUp (8 + u8 p 0) = true ∧ d.canAnswer (8 + u8 p 0) = true ∧ h.answered = none)) &&
    (let h : Hdr := hd; let s : State := on fun d => (damperOn d).wr 9 R.LMP_STATE_ENUM_DONE 1; let p : Bytes := [1, 31, 255, 1] ++ enc 2 9 ++ zeros 2; goes (.lampNodeAccess h p) s fun _ d => decide (d.rd (8 + u8 p 0) R.LMP_STATE_ENUM_DONE = 1 ∧ d.nodePresent (u8 p 0) (u8 p 1) = false)) &&
    (let s : State := on fun d => let d := damperOn d; ({ d with lamp := { d.lamp with segs := d.lamp.segs.set 1 { queue := [(tx 31 0x13 true 7 (.access cm) : Tx)], cycle := 3 } } } : Dev); let k : Nat := 1; let st : Nat := 256; let v : Nat := 65536; let t := (tx 31 0x13 true 7 (.access cm) : Tx); let w := true; let c := cm; decide (k ≤ 1) && decide (s.dev.lampPick k = some (t, w)) && decide (t.why = .access c)) &&
    (let s : State := on fun d => let d := damperOn d; ((({ d with lamp := { d.lamp with segs := d.lamp.segs.set 1 { cycle := 1 } } } : Dev).markNode 1 31 true false)).wr 9 (R.LMP_CH_ENABLE 127) 1; let k : Nat := 1; let st : Nat := 0; let v : Nat := 65535; let n : Nat := 127; let t := tx 31 0x23 false 0 (.temp 127); let w := false; decide (k ≤ 1) && decide (s.dev.lampPick k = some (t, w)) && decide (t.why = .temp n) && decide (st % 256 = 0)) &&
    (let s : State := on fun d => let d := damperOn d; ({ d with lamp := { d.lamp with segs := d.lamp.segs.set 1 { queue := [{ (tx 31 0x13 true 7 (.access cm) : Tx) with tries := 1 }], cycle := 3 } } } : Dev); let k : Nat := 1; let crc := true; let t := ({ (tx 31 0x13 true 7 (.access cm) : Tx) with tries := 1 } : Tx); let w := true; decide (k ≤ 1) && decide (s.dev.lampPick k = some (t, w)) && decide (t.tries + 1 < 3)) &&
    (let k : Nat := 1; let crc := true; let t := (⟨31, 4, false, 0, 2, .status⟩ : Tx); let w := true; let s : State := on fun d => { d with lamp := { d.lamp with segs := [{}, { queue := [⟨31, 4, false, 0, 2, .status⟩] }] } }; decide (k ≤ 1) && decide (s.dev.lamp.segs.length = 2) && decide (s.dev.lampPick k = some (t, w)) && decide (t.tries = 2) && decide (t.addr < 32)) &&
    (let s : State := on fun d => (damperOn d).markNode 1 31 false true; let k : Nat := 1; let a : Nat := 31; decide (k ≤ 1) && decide (s.dev.nodeLost k a = true) && decide ((s.dev.seg k).back.contains a = false)) &&
    (let s : State := on fun d => (damperOn d).markNode 1 31 false true; let k : Nat := 1; let a : Nat := 31; let v : Nat := 0; decide (k ≤ 1) && decide (s.dev.lamp.segs.length = 2) && decide (s.dev.nodeLost k a = true) && decide ((s.dev.seg k).back.contains a = false)) &&
    (let s : State := on damperOn; let k : Nat := 1; let found := [(5, 1, 4)]; decide (k ≤ 1) && decide (s.dev.lamp.segs.length = 2) && decide (s.dev.segSt k = .off) && decide (s.dev.rd (8 + k) R.LMP_STATE_ENUM_DONE = 0)) &&
    (let s : State := on fun d => let d := damperOn d; ({ d with lamp := { d.lamp with segs := d.lamp.segs.set 1 { writing := true } } } : Dev); let d := s.dev; decide ((∀ x ∈ d.lamp.segs, x.idle = true) ∧ ∃ x ∈ d.lamp.segs, x.writing = true))) = true := by decide +kernel

theorem test_meets_LinksTrainAndStart : (
    (let s : State := on fun d => ((damperOn (d)).lset 7 R.LNK_FL_STATE_PHASE 7); let l : Nat := 7; let id : Nat := 0xFFFFFFFFFFFF; let caps : Nat := 255; decide (l ≤ 7) && decide (s.dev.lnk.links.length = 8)) &&
    (let s : State := on fun d => (damperOn (d.setFn (FnId.link 7) { st := .on })); let l : Nat := 7; let lk : Nat := 31; let bl : Nat := 31; let dk := true; let sh : Nat := 65535; let eh : Nat := 255; let ev : Nat := 255; let bd := false; decide (l ≤ 7) && decide (s.dev.lnk.links.length = 8) && decide (s.dev.linkSt l ≠ .off)) &&
    (let s : State := on fun d => (((damperOn (d.setFn (FnId.link 7) { st := .starting })).lset 7 R.LNK_FL_STATE_PHASE 3).lset 7 (fun k => R.LNK_FL_EQ k 4) (15 + 256 * 41 + 65536 * 6)); let l : Nat := 7; let p : Nat := 4; let done := true; let a : Nat := 15; let b : Nat := 41; let c : Nat := 6; decide (l ≤ 7) && decide (p ≤ 4) && decide (s.dev.lget l R.LNK_FL_STATE_PHASE = 3) && decide (s.dev.lget l (fun k => R.LNK_FL_EQ k p) = a + 256 * b + 65536 * c) && decide (a < 16) && decide (b < 63) && decide (c < 32) && decide (a + b + c < 63)) &&
    (let s : State := on fun d => ((damperOn (d.setFn (FnId.link 7) { st := .starting })).lset 7 R.LNK_FL_STATE_PHASE 1); let l : Nat := 7; decide (l ≤ 7) && decide (s.dev.phaseDone l = false)) &&
    (let s : State := on fun d => ((((damperOn (d.setFn (FnId.link 7) { st := .starting })).lset 7 R.LNK_FL_STATE_PHASE 4)).setCore 7 { deskewed := true }); let l : Nat := 7; decide (l ≤ 7) && decide (s.dev.phaseDone l = true) && decide (s.dev.lget l R.LNK_FL_STATE_PHASE = 1 ∨ s.dev.lget l R.LNK_FL_STATE_PHASE = 3 ∨ s.dev.lget l R.LNK_FL_STATE_PHASE = 4)) &&
    (let s : State := on fun d => ((((damperOn (d.setFn (FnId.link 7) { st := .starting })).lset 7 R.LNK_FL_STATE_PHASE 5)).setCore 7 { locked := 7, blocks := 31 }); let l : Nat := 7; decide (l ≤ 7) && decide (s.dev.phaseDone l = true) && decide (s.dev.lget l R.LNK_FL_STATE_PHASE = 5)) &&
    (let s : State := on fun d => ((damperOn (d.setFn (FnId.link 7) { st := .starting })).lset 7 R.LNK_FL_STATE_PHASE 5); let l : Nat := 7; decide (l ≤ 7) && decide (1 ≤ s.dev.lget l R.LNK_FL_STATE_PHASE) && decide (s.dev.lget l R.LNK_FL_STATE_PHASE ≤ 5) && decide ((s.dev.fn (FnId.link l)).stored = none)) &&
    (let s : State := on fun d => ((damperOn (d.setFn (FnId.link 7) { st := .starting })).lset 7 R.LNK_FL_STATE_PHASE 7); let l : Nat := 7; decide (l ≤ 7) && decide (s.dev.lget l R.LNK_FL_STATE_PHASE = 7) && decide (s.dev.lnk.taps = []) && decide (s.dev.lnk.links.length = 8)) &&
    (let h : Hdr := hd; let s : State := on damperOn; let p : Bytes := [7, 1, 0, 0]; goes (.linkEnable h p) s fun _ d => decide (u8 p 1 = 1 ∧ d.flueUp (linkDie (u8 p 0)) = true ∧ d.canAnswer (linkDie (u8 p 0)) = true ∧ h.answered = none ∧ d.linkSt (u8 p 0) = .off)) &&
    (let h : Hdr := hd; let s : State := on fun d => { d with mode := 1 }; let p : Bytes := [7, 1, 0, 0]; goes (.linkEnable h p) s fun _ d => decide (u8 p 1 = 1 ∧ d.flueUp (linkDie (u8 p 0)) = false ∧ d.linkSt (u8 p 0) = .off)) &&
    (let h : Hdr := hd; let s : State := on panelOn; let p : Bytes := [0, 0, 0, 0]; goes (.linkEnable h p) s fun _ d => decide (u8 p 1 = 0 ∧ d.linkRegionState (u8 p 0) ≠ .off)) &&
    (let s : State := on fun d => (damperOn (d.setFn (FnId.link 7) { st := .starting, stored := none, running := [cm] })).lset 7 R.LNK_FL_STATE_PHASE 6; let l : Nat := 7; let r := [cm]; decide (l ≤ 7) && decide (s.dev.fn (FnId.link l) = { st := .starting, stored := none, running := r }) && decide (s.dev.lget l R.LNK_FL_STATE_PHASE = 6)) &&
    (let s : State := on fun d => (damperOn (d.setFn (FnId.link 7) { st := .stopping, stored := none, running := [cm] })).lset 7 R.LNK_FL_STATE_PHASE 6; let l : Nat := 7; let r := [cm]; decide (l ≤ 7) && decide (s.dev.fn (FnId.link l) = { st := .stopping, stored := none, running := r })) &&
    (let h : Hdr := hd; let s : State := on damperOn; let p : Bytes := [7, 0, 0, 0]; goes (.linkStatus h p) s fun _ d => decide (d.flueUp (linkDie (u8 p 0)) = true) && decide (h.answered = none)) &&
    (let s : State := on fun d => let d := damperOn d; { d with lnk := { d.lnk with startup := 8 } }; let l : Nat := 7; decide (l ≤ 7) && decide (s.dev.lnk.startup = l + 1) && decide (s.dev.linkSt l = .off) && decide (s.dev.rd 0 (R.DMP_HALF_ON (l / 4)) = 1))) = true := by decide +kernel

theorem test_meets_LinksSwitchSpareRestAndAreTested : (
    (let s : State := on fun d => ((((((damperOn (d.setFn (FnId.link 7) { st := .on })).lset 7 R.LNK_FL_STATE_PHASE 6).lset 7 R.LNK_FL_MAP_LOGICAL 0x3210).lset 7 R.LNK_FL_STATE_N 4).lset 7 R.LNK_FL_MAP_FAILED 16).lset 7 R.LNK_FL_MAP_SPARE 7); let l : Nat := 7; decide (l ≤ 7) && decide (s.dev.linkActive l = true) && decide (s.dev.lget l R.LNK_FL_STATE_N = 4) && ((List.range 4).all fun k => decide (bit (s.dev.lget l R.LNK_FL_MAP_FAILED) (s.dev.mapOf l k) = false))) &&
    (let s : State := on fun d => ((((((damperOn (d.setFn (FnId.link 7) { st := .on })).lset 7 R.LNK_FL_STATE_PHASE 6).lset 7 R.LNK_FL_MAP_LOGICAL 0x3210).lset 7 R.LNK_FL_STATE_N 4).lset 7 R.LNK_FL_MAP_FAILED 8).lset 7 R.LNK_FL_MAP_SPARE 4); let l : Nat := 7; let k : Nat := 3; decide (l ≤ 7) && decide (k < 4) && decide (s.dev.linkActive l = true) && decide (s.dev.lget l R.LNK_FL_STATE_N = 4) && decide (bit (s.dev.lget l R.LNK_FL_MAP_FAILED) (s.dev.mapOf l k) = true) && ((List.range 4).all fun j => !decide (j ≠ k) || decide (bit (s.dev.lget l R.LNK_FL_MAP_FAILED) (s.dev.mapOf l j) = false)) && decide (s.dev.lget l R.LNK_FL_MAP_SPARE < 5) && decide (bit (s.dev.lget l R.LNK_FL_MAP_FAILED) (s.dev.lget l R.LNK_FL_MAP_SPARE) = false) && decide (3 ≤ (s.dev.goodLanes l).length)) &&
    (let s : State := on fun d => ((((((damperOn (d.setFn (FnId.link 7) { st := .on })).lset 7 R.LNK_FL_STATE_PHASE 6).lset 7 R.LNK_FL_MAP_LOGICAL 0x3210).lset 7 R.LNK_FL_STATE_N 4).lset 7 R.LNK_FL_MAP_FAILED 16).lset 7 R.LNK_FL_MAP_SPARE 7); let l : Nat := 7; let p : Nat := 4; decide (l ≤ 7) && decide (p ≤ 4) && decide (s.dev.linkIsOn l = true) && decide (bit (s.dev.lget l R.LNK_FL_MAP_FAILED) p = true) && decide (s.dev.lget l R.LNK_FL_MAP_SPARE = 7)) &&
    (let h : Hdr := hd; let s : State := rdy id; let p : Bytes := [7, 2, 0, 0]; goes (.lanePower h p) s fun _ d => decide (d.linkSt (u8 p 0) ≠ .on)) &&
    (let h : Hdr := hd; let s : State := on panelOn; let p : Bytes := [0, 1, 0, 0]; goes (.lanePower h p) s fun _ d => decide (d.linkSt (u8 p 0) = .on ∧ u8 p 1 ≠ 0 ∧ d.mayRest (u8 p 0) = false)) &&
    (let h : Hdr := hd; let s : State := on fun d => ((damperOn (d.setFn (FnId.link 7) { st := .on })).lset 7 R.LNK_FL_STATE_PHASE 6); let p : Bytes := [7, 2, 0, 0]; goes (.lanePower h p) s fun _ d => decide (d.linkSt (u8 p 0) = .on ∧ (u8 p 1 = 0 ∨ d.mayRest (u8 p 0) = true) ∧ d.flueUp (linkDie (u8 p 0)) = true ∧ d.canAnswer (linkDie (u8 p 0)) = true ∧ h.answered = none ∧ d.lnk.power.find? (·.1 = u8 p 0) = none)) &&
    (let s : State := on fun d => let d := ((damperOn (d.setFn (FnId.link 7) { st := .on })).lset 7 R.LNK_FL_STATE_PHASE 6); { d with lnk := { d.lnk with power := [(7, (2, some cm))] } }; let l : Nat := 7; let target : Nat := 2; let c := cm; decide (s.dev.lnk.power.find? (·.1 = l) = some (l, target, some c)) && decide (s.dev.lget l R.LNK_FL_STATE_POWER ≠ 2)) &&
    (let s : State := on fun d => (((damperOn (d.setFn (FnId.link 7) { st := .on })).lset 7 R.LNK_FL_STATE_PHASE 6).lset 7 R.LNK_FL_STATE_POWER 1); let l : Nat := 7; decide (l < 8) && decide (s.dev.linkIsOn l = true) && decide (s.dev.lget l R.LNK_FL_STATE_POWER = 1)) &&
    (let h : Hdr := hd; let s : State := on fun d => { d with lnk := { d.lnk with scans := [⟨cm, 16, false, 0, 0⟩] } }; let p : Bytes := [0, 16, 0, 16] ++ zeros 8; goes (.eyeScan h p) s fun _ d => decide ((d.laneDies (u16 p 0)).all d.flueUp = true ∧ d.samplerBusy (u16 p 0) = true)) &&
    (let h : Hdr := hd; let s : State := on id; let p : Bytes := [2, 0, 0, 16] ++ zeros 8; goes (.eyeScan h p) s fun _ d => decide ((d.laneDies (u16 p 0)).all d.flueUp = false)) &&
    (let h : Hdr := hd; let s : State := rdy id; let p : Bytes := [0, 16, 0, 30] ++ zeros 8; goes (.eyeScan h p) s fun _ d => decide ((d.laneDies (u16 p 0)).all d.flueUp = true ∧ d.samplerBusy (u16 p 0) = false)) &&
    (let s : State := on fun d => { d with lnk := { d.lnk with scans := [⟨cm, 16, false, 0, 0⟩] } }; let lane : Nat := 16; let l : Nat := 0; let r : Nat := 255; let t : Nat := 0; let b : Nat := 255; let cnt := ([] : List Nat); let x := (⟨cm, 16, false, 0, 0⟩ : Scan); decide (s.dev.hearthOff = false) && decide (s.dev.lnk.scans.find? (·.lane = lane) = some x) && decide (x.map = false)) &&
    (let s : State := on (fun d => { d with lnk := { d.lnk with scans := [⟨cm, 16, true, 1, 0⟩] } }) { objs := [buf 1 65280] }; let lane : Nat := 16; let l : Nat := 0; let r : Nat := 255; let t : Nat := 0; let b : Nat := 255; let cnt := ([] : List Nat); let x := (⟨cm, 16, true, 1, 0⟩ : Scan); let o := buf 1 65280; decide (s.dev.hearthOff = false) && decide (s.dev.lnk.scans.find? (·.lane = lane) = some x) && decide (x.map = true) && decide (s.heap.buf x.buffer = some o) && decide (o.lost = false)) &&
    (let h : Hdr := hd; let s : State := on fun d => ((damperOn (d.setFn (FnId.link 7) { st := .on })).lset 7 R.LNK_FL_STATE_PHASE 6); let p : Bytes := [1, 39] ++ enc 2 0x8000 ++ [0, 0] ++ enc 2 0x200 ++ zeros 4; goes (.tapTest h p) s fun _ d => decide ((d.laneDies (u16 p 0)).all d.flueUp = true ∧ d.laneIdle (u16 p 0) = false)) &&
    (let h : Hdr := hd; let s : State := on id; let p : Bytes := [1, 0, 0x80, 0, 0, 0, 2, 0, 0, 0, 0, 0]; goes (.tapTest h p) s fun _ d => decide ((d.laneDies (u16 p 0)).all d.flueUp = false)) &&
    (let h : Hdr := hd; let s : State := on damperOn; let p : Bytes := [1, 39] ++ enc 2 0x8000 ++ [0, 0] ++ enc 2 0x200 ++ zeros 4; goes (.tapTest h p) s fun _ d => decide ((d.laneDies (u16 p 0)).all d.flueUp = true ∧ d.laneIdle (u16 p 0) = true ∧ d.samplerBusy (u16 p 0) = false)) &&
    (let s : State := on fun d => { d with lnk := { d.lnk with taps := [⟨cm, 15, 32768, 0, 512, 0⟩] } }; let lane : Nat := 15; let rho := ([] : List Int); let x := (⟨cm, 15, 32768, 0, 512, 0⟩ : Tap); decide (s.dev.hearthOff = false) && decide (s.dev.lnk.taps.find? (·.lane = lane) = some x) && decide (x.buffer = 0) && decide (lane / 256 = 0))) = true := by decide +kernel

theorem test_meets_NetworkCommands : (
    (let h : Hdr := hd; let s : State := rdy id; let p : Bytes := [4, 0, 3, 0]; goes (.netPortSet h p) s fun _ d => decide ((d.portCfg (u8 p 0)).mode = u8 p 1 ∨ (d.fn (FnId.port (u8 p 0))).st = .off)) &&
    (let h : Hdr := hd; let s : State := on fun d => d.setFn (FnId.port 3) { st := .on }; let p : Bytes := [3, 1, 3, 0]; goes (.netPortSet h p) s fun _ d => decide ((d.portCfg (u8 p 0)).mode ≠ u8 p 1 ∧ (d.fn (FnId.port (u8 p 0))).st ≠ .off)) &&
    (let h : Hdr := hd; let s : State := on fun d => d.setFn (FnId.port 4) { st := .off }; let p : Bytes := [4, 1, 0, 0]; goes (.netPortEnable h p) s fun _ d => decide (u8 p 1 = 1 ∧ (d.fn (FnId.port (u8 p 0))).st = .off)) &&
    (let s : State := on fun d => d.setFn (FnId.port 4) { st := .starting, stored := none, running := [cm] }; let k : Nat := 4; let r := [cm]; decide (s.dev.hearthOff = false) && decide (k ≤ 4) && decide (s.dev.fn (FnId.port k) = { st := .starting, stored := none, running := r })) &&
    (let h : Hdr := hd; let s : State := on fun d => { d with net := { d.net with ifs := [(16, { addr := 0x0A000001, pfx := 8, mgmtPfx := 8 })] } }; let p : Bytes := [16, 0, 0, 0, 223, 0, 0, 1, 30] ++ zeros 3 ++ zeros 12 ++ [8, 0, 0, 0]; goes (.netIfSet h p) s fun _ _ => decide (u8 p 1 = 0)) &&
    (let h : Hdr := hd; let s : State := on fun d => { d with net := { d.net with ifs := [(16, { addr := 0x0A000001, pfx := 8, mgmtPfx := 8 })] } }; let p : Bytes := [16, 1, 0, 0, 223, 0, 0, 1, 30] ++ zeros 3 ++ zeros 12 ++ [8, 0, 0, 0]; goes (.netIfSet h p) s fun _ _ => decide (u8 p 1 = 1)) &&
    (let h : Hdr := hd; let s : State := on streamOn; let p : Bytes := [0, 0, 0, 150]; goes (.netPairSet h p) s fun _ d => decide (d.pairUsed (u8 p 0) = true)) &&
    (let h : Hdr := hd; let s : State := rdy id; let p : Bytes := [4, 0, 0, 150]; goes (.netPairSet h p) s fun _ d => decide (d.pairUsed (u8 p 0) = false)) &&
    (let h : Hdr := hd; let s : State := rdy id; let p : Bytes := [239, 255, 255, 255]; goes (.netAnvilSet h p) s fun _ _ => true) &&
    (let h : Hdr := hd; let s : State := rdy id; let p : Bytes := [16, 0, 0, 0]; goes (.netStatus h p) s fun _ _ => true) &&
    (let h : Hdr := hd; let s : State := rdy id; let p : Bytes := [4, 0, 0, 0]; goes (.netPairStatus h p) s fun _ _ => true) &&
    (let s : State := on fun d => d.setFn (FnId.port 4) { st := .on }; let i : Nat := 16; decide (s.dev.hearthOff = false) && decide (s.dev.ifExists i = true) && decide ((s.dev.fn (FnId.port (ifPort i))).st = .on) && decide (s.dev.rd 0 (R.NET_IF_LINK i) = 0)) &&
    (let s : State := on fun d => d.wr 0 (R.NET_IF_LINK 16) 1; let i : Nat := 16; decide (s.dev.hearthOff = false) && decide (s.dev.ifExists i = true) && decide (s.dev.rd 0 (R.NET_IF_LINK i) = 1))) = true := by decide +kernel

theorem test_meets_PacketsAreMergedAndDepacketised : (
    (let s : State := on fun d => ({ d with net := { d.net with ifs := [(0, { addr := 0x0A000001, pfx := 8 })] } } : Dev).wr 0 (R.NET_IF_LINK 0) 1; let i : Nat := 0; let b : Bytes := (zeros 12 ++ [8, 6, 0, 1, 8, 0, 6, 4, 0, 1] ++ zeros 16 ++ [10, 0, 0, 1] ++ zeros 18 : Bytes); let cor : Nat := 3; let bad : Nat := 0; decide (s.dev.hearthOff = false) && decide (s.dev.ifExists i = true) && decide (s.dev.rd 0 (R.NET_IF_LINK i) = 1) && decide (s.dev.pwr.hearthHeld = false) && decide (60 ≤ b.length) && decide (b.length ≤ 9212) && decide ((parseFrame b).tag = none) && decide ((parseFrame b).kind = 0x0806) && decide ((s.dev.ifCfg i).vlan = 0) && decide ((s.dev.ifCfg i).addr ≠ 0) && decide (u32 (b.drop (parseFrame b).off) 24 = (s.dev.ifCfg i).addr) && decide (u16 (b.drop (parseFrame b).off) 6 = 1)) &&
    (let s : State := on streamOn; let k : Nat := 7; let i : Nat := 0; let ts : Nat := 5; let gap : Nat := 0; let mark := true; let b : Bytes := [2, 1, 7]; let cfg := cfg0; let z := (⟨0, false, false, 0, 96, 0xE8000001, 5000, 0⟩ : Source); decide (s.dev.hearthOff = false) && decide (k < 8) && decide (k < s.dev.dec.slots.length) && decide ((s.dev.stream k).cfg = some cfg) && decide (cfg.kind ≠ 3) && decide (s.dev.source? k i = some z) && decide (z.all = false) && decide ((s.dev.view k z.view).owner ≠ none) && decide (3 ≤ b.length) && decide (u8 b 0 / 2 % 64 < 32) && decide (u8 b 0 % 2 * 32 + u8 b 1 / 8 = 0)) &&
    (let s : State := on streamOn; let k : Nat := 7; let i : Nat := 0; let ssrc : Nat := 9; let q : Nat := 65535; let ts : Nat := 5; let mark := true; let b : Bytes := ([2, 1, 7] : Bytes); let z := (⟨0, false, false, 0, 96, 0xE8000001, 5000, 0⟩ : Source); let cfg := cfg0; let donl := false; decide (s.dev.hearthOff = false) && decide ((s.dev.stream k).cfg = some cfg) && decide (cfg.kind ≠ 3) && decide (s.dev.source? k i = some z) && decide ((s.dev.fn (FnId.decode k)).st = .on) && decide (s.dev.rxOf k i = {})) &&
    (let s : State := let pk : HeldPkt := ⟨9, 0, 0, false, false, []⟩; on fun d => late ((streamOn d).setRx 7 0 { held := [pk], next := some 7 }); let k : Nat := 7; let z := (⟨0, false, false, 0, 96, 0xE8000001, 5000, 0⟩ : Source); let pk := (⟨9, 0, 0, false, false, []⟩ : HeldPkt); let n : Nat := 7; decide (s.dev.hearthOff = false) && decide (k < 8) && decide (k < s.dev.dec.slots.length) && decide (s.dev.rxSlots = [k]) && decide (s.dev.sources k = [z]) && decide ((s.dev.rxOf k 0).held = [pk]) && decide ((s.dev.rxOf k 0).next = some n) && decide (pk.seq < 2 ^ 32) && decide (n < 2 ^ 32) && decide (s.dev.mergeWindow z ≤ s.dev.now 3 - pk.at_)) &&
    (let s : State := on fun d => (((streamOn d).setStream 7 fun x => { x with cfg := some { cfg0 with sources := [(⟨0, false, false, 0, 96, 0xE8000001, 5000, 0xE8000002⟩ : Source)] } }).setRx 7 0 { last := [some (10 ^ 7 * 2 ^ 32), none] }); let k : Nat := 7; let i : Nat := 0; let path : Nat := 1; let z := (⟨0, false, false, 0, 96, 0xE8000001, 5000, 0xE8000002⟩ : Source); decide (s.dev.hearthOff = false) && decide (k < 8) && decide (path ≤ 1) && decide (s.dev.source? k i = some z) && decide (z.groupB ≠ 0) && decide ((s.dev.rxOf k i).down.length = 2) && decide ((s.dev.rxOf k i).down.getD path false = false) && decide ((s.dev.rxOf k i).pathSilent (s.dev.now 3) path = true)) &&
    (let s : State := on fun d => late (streamOn d); let k : Nat := 7; let i : Nat := 0; let d := s.dev; decide (d.hearthOff = false ∧ k < 8 ∧ (d.source? k i).isSome = true ∧ 10 ^ 9 * 2 ^ 32 ≤ d.now 3 - (d.rxOf k i).ssrcAt))) = true := by decide +kernel

theorem test_meets_TimeBasesPulsesAndCaptures : (
    (let h : Hdr := hd; let s : State := rdy id; let p : Bytes := []; goes (.timeRead h p) s fun _ _ => true) &&
    (let h : Hdr := hd; let s : State := rdy id; let p : Bytes := [2, 0, 0, 0] ++ zeros 6 ++ enc 4 999999999 ++ [255, 255]; goes (.timeSet h p) s fun _ d => decide (u8 p 1 = 0) && decide (d.servoOwned (u8 p 0) = false) && decide ((u8 p 0 = 0 → d.time.ptp.usesPps = false)) && decide (d.time.t.length = 4)) &&
    (let h : Hdr := hd; let s : State := rdy id; let p : Bytes := [2, 2, 0, 0] ++ enc 8 incrMax ++ zeros 4; goes (.timeSet h p) s fun _ d => decide (u8 p 1 = 2 ∧ d.servoOwned (u8 p 0) = false)) &&
    (let h : Hdr := hd; let s : State := rdy id; let p : Bytes := [0, 2, 0, 0] ++ enc 8 incrMin ++ zeros 4; goes (.timeSet h p) s fun _ d => decide ((u8 p 1 = 1 ∨ u8 p 1 = 2) ∧ d.servoOwned (u8 p 0) = true ∨ u8 p 1 = 3 ∧ d.time.ptp.servoHost = false)) &&
    (let s : State := rdy id; let b : Nat := 2; let fr : Nat := 65535; decide (s.dev.hearthOff = false) && decide (b < 3) && decide (s.dev.servoOwned b = false) && decide (s.dev.time.t.length = 4)) &&
    (let s : State := rdy id; let b : Nat := 3; let fr : Nat := 1; let d := s.dev; decide (d.hearthOff = false ∧ (b = 3 ∨ b = 0 ∧ d.servoOwned b = true))) &&
    (let s : State := on fun d => d.wr 0 (R.PTP_INCR_FRAC 2) 0x6809D494; let b : Nat := 2; let ns : Nat := 262; let d := s.dev; decide (d.hearthOff = false ∧ b < 3 ∧ d.servoOwned b = false ∧ incrMin ≤ ns % 256 * 2 ^ 32 + d.rd 0 (R.PTP_INCR_FRAC b) ∧ ns % 256 * 2 ^ 32 + d.rd 0 (R.PTP_INCR_FRAC b) ≤ incrMax)) &&
    (let s : State := rdy id; let b : Nat := 0; let ns : Nat := 6; let d := s.dev; decide (d.hearthOff = false ∧ (b = 3 ∨ b = 0 ∧ d.servoOwned b = true))) &&
    (let s : State := rdy id; let b : Nat := 3; decide (s.dev.hearthOff = false) && decide (b ≤ 3)) &&
    (let h : Hdr := hd; let s : State := rdy id; let p : Bytes := [7, 3, 1, 1] ++ enc 8 (10 ^ 7 * 65536 + 999 * 65536) ++ zeros 8 ++ enc 4 10; goes (.tpoSet h p) s fun _ d => decide (u8 p 2 = 1 ∧ shortDiff (u64 p 4) (d.short (u8 p 1)) < 1000 * 65536)) &&
    (let h : Hdr := hd; let s : State := rdy id; let p : Bytes := [7, 3, 1, 1] ++ enc 8 (10 ^ 7 * 65536 + 1000 * 65536) ++ zeros 8 ++ enc 4 10; goes (.tpoSet h p) s fun _ d => decide ((u8 p 2 = 1 → 1000 * 65536 ≤ shortDiff (u64 p 4) (d.short (u8 p 1)))) && decide (d.time.tpo.length = 8)) &&
    (let s : State := on fun d => d.setTpo 7 fun x => { x with mode := 1 }; let n : Nat := 7; decide (s.dev.hearthOff = false) && decide (n < s.dev.time.tpo.length) && decide ((s.dev.time.tpo.getD n {}).mode = 1) && decide ((s.dev.time.tpo.getD n {}).fired = false)) &&
    (let h : Hdr := hd; let s : State := rdy id; let p : Bytes := [4, 3, 3, 1] ++ enc 8 1 ++ enc 8 2; goes (.tciSet h p) s fun _ d => decide (d.time.tci.length = 5)) &&
    (let h : Hdr := hd; let s : State := on fun d => { d with time := { d.time with tci := d.time.tci.set 4 { fifo := [⟨0, 1, [1, 2, 3, 4]⟩] } } }; let p : Bytes := [4, 32, 0, 0]; goes (.tciRead h p) s fun _ d => decide (d.time.tci.length = 5) && decide ((d.time.tci.getD (u8 p 0) {}).fifo.length ≤ 32)) &&
    (let s : State := on fun d => { d with time := { d.time with tci := d.time.tci.set 4 { edge := 1, fifo := List.replicate 31 ⟨0, 1, [1, 2, 3, 4]⟩ } } }; let n : Nat := 4; decide (s.dev.hearthOff = false) && decide (n ≤ 4) && decide (s.dev.time.tci.length = 5) && decide ((s.dev.time.tci.getD n {}).edge = 1) && decide ((s.dev.time.tci.getD n {}).window = false) && decide ((s.dev.time.tci.getD n {}).last = none) && decide ((s.dev.time.tci.getD n {}).fifo.length < 32) && decide ((n = 4 → s.dev.time.ptp.usesPps = false)))) = true := by decide +kernel

theorem test_meets_PtpFollowsMastersAndFlueClocksFollow : (
    (let h : Hdr := hd; let s : State := rdy id; let p : Bytes := [127, 16, 255, 7] ++ enc 2 10000 ++ enc 2 3600 ++ [10, 0, 0, 0]; goes (.ptpSet h p) s fun _ _ => true) &&
    (let h : Hdr := hd; let s : State := rdy id; let p : Bytes := []; goes (.ptpStatus h p) s fun _ _ => true) &&
    (let h : Hdr := hd; let s : State := rdy id; let p : Bytes := [64, 0, 0, 0]; goes (.ptpSamples h p) s fun _ _ => true) &&
    (let s : State := rdy id; let i : Nat := 16; let port : Nat := 5; let a : Nat := 1; let b : Nat := 2; let c : Nat := 3; let v : Nat := 4; let e : Nat := 5; let g : Nat := 6; let n : Nat := 7; let dom : Nat := 127; let lg : Int := 1; let tlv := true; let ad : Nat := 9; decide (s.dev.hearthOff = false) && decide (s.dev.isPtpIf i = true) && decide (dom = s.dev.time.ptp.domain) && decide (-3 ≤ lg) && decide (lg ≤ 1) && decide (s.dev.time.ptp.masters = []) && decide (s.dev.time.ptp.master = none) && decide (s.dev.time.ptp.usesPps = false) && decide (s.dev.time.ptp.servoHost = false)) &&
    (let s : State := rdy id; let i : Nat := 16; let port : Nat := 5; let a : Nat := 1; let b : Nat := 2; let c : Nat := 3; let v : Nat := 4; let e : Nat := 5; let g : Nat := 6; let n : Nat := 7; let dom : Nat := 127; let lg : Int := 2; let tlv := true; let ad : Nat := 9; let d := s.dev; decide (d.hearthOff = false ∧ (d.isPtpIf i = true ∧ (dom ≠ d.time.ptp.domain ∨ lg < -3 ∨ 1 < lg)))) &&
    (let s : State := on fun d => d.setPtp fun x => { x with master := some (⟨16, 5, 1, 2, 3, 4, 5, 6, 7, 9⟩ : Master) }; let i : Nat := 16; let port : Nat := 5; let dom : Nat := 127; let lg : Int := -7; let q : Nat := 9; let t1 : Nat := 3; let m := (⟨16, 5, 1, 2, 3, 4, 5, 6, 7, 9⟩ : Master); let d := s.dev; decide (d.hearthOff = false ∧ d.isPtpIf i = true ∧ dom = d.time.ptp.domain ∧ -7 ≤ lg ∧ lg ≤ -1 ∧ d.time.ptp.master = some m ∧ m.iface = i ∧ m.port = port)) &&
    (let s : State := on fun d => d.setPtp fun x => { x with master := some (⟨16, 5, 1, 2, 3, 4, 5, 6, 7, 9⟩ : Master), twoStep := some (9, 3, 4) }; let i : Nat := 16; let port : Nat := 5; let dom : Nat := 127; let q : Nat := 9; let t1 : Nat := 3; let m := (⟨16, 5, 1, 2, 3, 4, 5, 6, 7, 9⟩ : Master); let cr : Nat := 3; let t2 : Nat := 4; decide (s.dev.hearthOff = false) && decide (s.dev.isPtpIf i = true) && decide (dom = s.dev.time.ptp.domain) && decide (s.dev.time.ptp.master = some m) && decide (m.iface = i) && decide (m.port = port) && decide (s.dev.time.ptp.twoStep = some (q, cr, t2))) &&
    (let s : State := on fun d => d.setPtp fun x => { x with master := some (⟨16, 5, 1, 2, 3, 4, 5, 6, 7, 9⟩ : Master) }; let m := (⟨16, 5, 1, 2, 3, 4, 5, 6, 7, 9⟩ : Master); let d := s.dev; decide (d.hearthOff = false ∧ d.time.ptp.master = some m)) &&
    (let s : State := on fun d => d.setPtp fun x => { x with master := some (⟨16, 5, 1, 2, 3, 4, 5, 6, 7, 9⟩ : Master), req := some (9, 3), sync := some (1, 2) }; let i : Nat := 16; let port : Nat := 5; let dom : Nat := 127; let q : Nat := 9; let t4 : Nat := 3; let m : Master := (⟨16, 5, 1, 2, 3, 4, 5, 6, 7, 9⟩ : Master); let t1 : Nat := 1; let t2 : Nat := 2; let t3 : Nat := 3; decide (s.dev.hearthOff = false) && decide (s.dev.isPtpIf i = true) && decide (dom = s.dev.time.ptp.domain) && decide (s.dev.time.ptp.master = some m) && decide (m.iface = i) && decide (m.port = port) && decide (s.dev.time.ptp.req = some (q, t3)) && decide (s.dev.time.ptp.sync = some (t1, t2)) && decide (s.dev.time.ptp.samples.length < 64)) &&
    (let s : State := on fun d => d.setPtp fun x => { x with req := some (9, 3) }; let d := s.dev; decide (d.hearthOff = false ∧ d.time.ptp.req ≠ none)) &&
    decide ((on id).dev.hearthOff = false) &&
    (let s : State := on fun d => d.wr 0 R.PTP_STATE_MEDIA 3; decide (s.dev.hearthOff = false) && decide (s.dev.rd 0 R.PTP_STATE_MEDIA = 3)) &&
    (let s : State := on fun d => d.setPtp fun x => { x with flags := 2, ppsSec := some 5 }; let k : Nat := 5; decide (s.dev.hearthOff = false) && decide (s.dev.time.ptp.usesPps = true) && decide (s.dev.time.ptp.ppsSec = some k) && decide (s.dev.time.t.length = 4)) &&
    (let s : State := on fun d => (d.setPtp fun x => { x with flags := 2 }).wr 0 R.PTP_STATE_MEDIA 2; decide (s.dev.hearthOff = false) && decide (s.dev.time.ptp.usesPps = true) && decide (s.dev.rd 0 R.PTP_STATE_MEDIA = 2)) &&
    (let s : State := on damperOn; decide (s.dev.hearthOff = false) && decide (s.dev.rd 0 (R.DMP_HALF_ON 0) = 1) && decide (s.dev.rd 0 (R.DMP_HALF_ON 1) = 1)) &&
    (let s : State := on damperOn; let die : Nat := 9; let w0 : Nat := 1; let w1 : Nat := 2; decide (s.dev.takesForward die = true) && decide (s.dev.clk.synth.length = 2)) &&
    (let s : State := on damperOn; let die : Nat := 9; let w0 : Nat := 1; let w1 : Nat := 2; decide (s.dev.takesForward die = true) && decide (s.dev.clk.synth.length = 2)) &&
    (let s : State := on damperOn; let die : Nat := 9; decide (die = 8 ∨ die = 9) && decide (s.dev.rd die R.CLK_FR_STATE ≠ 2) && decide (s.dev.clk.synth.length = 2))) = true := by decide +kernel

theorem test_meets_NeighbourRefreshIsSet : (
    (let h : Hdr := hd; let s : State := rdy id; let p : Bytes := enc 2 16384 ++ [2, 255]; goes (.memNbrSet h p) s fun _ _ => true) &&
    (let h : Hdr := hd; let s : State := rdy id; let p : Bytes := enc 2 256 ++ [1, 1]; goes (.memNbrSet h p) s fun _ _ => true) &&
    (let s : State := on fun d => { d with mem := { d.mem with nbrNext := [(4, 16384, 2, 255)] } }; let n : Nat := 15; let th : Nat := 16384; let dist : Nat := 2; let lim : Nat := 255; decide (s.dev.hearthOff = false) && decide (n ≤ 15) && decide (s.dev.mem.nbrNext.find? (fun e => e.1 = chDie n) = some (chDie n, th, dist, lim)) && decide (th ≤ 16384) && decide (dist ≤ 2) && decide (lim ≤ 255))) = true := by decide +kernel

theorem test_meets_MemoryChannelsServeChangeAndFail : (
    (let h : Hdr := hd; let s : State := rdy id; let p : Bytes := [3, 0, 0, 0]; goes (.memStatus h p) s fun _ d => decide (d.hobUp (u8 p 0 + 1) = true)) &&
    (let h : Hdr := hd; let s : State := on fun d => { d with fab := { d.fab with failed := [false, false, false, true] } }; let p : Bytes := [3, 0, 0, 0]; goes (.memStatus h p) s fun _ d => decide (d.hobUp (u8 p 0 + 1) = false)) &&
    (let h : Hdr := hd; let s : State := rdy id; let p : Bytes := [3, 3, 1, 0] ++ enc 4 8533 ++ zeros 16; goes (.memTimingSet h p) s fun _ d => decide (u8 p 0 ≠ 0xFF) && decide (u8 p 1 ≠ 0xFF) && decide (d.hobUp (u8 p 0 + 1) = true)) &&
    (let h : Hdr := hd; let s : State := rdy id; let p : Bytes := [1, 0, 0, 0]; goes (.memFreq h p) s fun _ d => decide (d.mode ≠ 2 ∧ d.mem.change = none ∧ d.mem.recover = [])) &&
    (let h : Hdr := hd; let s : State := on fun d => { d with mem := { d.mem with change := some (⟨cm, 1, [15], false⟩ : FreqChange) } }; let p : Bytes := [1, 0, 0, 0]; goes (.memFreq h p) s fun _ d => decide (d.mode ≠ 2 ∧ d.mem.change ≠ none)) &&
    (let s : State := on fun d => { d with mem := { d.mem with change := some (⟨cm, 1, [15], false⟩ : FreqChange) } }; let n : Nat := 15; let f := (⟨cm, 1, [15], false⟩ : FreqChange); decide (s.dev.hearthOff = false) && decide (s.dev.mem.change = some f) && decide (f.over_ = false) && decide (f.left.head? = some n)) &&
    (decide ((on fun d => { d with mem := { d.mem with change := some ⟨cm, 1, [], false⟩ } }).dev.mem.change = some ⟨cm, 1, [], false⟩)) &&
    (let h : Hdr := hd; let s : State := on fun d => d.mset 15 R.MEM_CH_STATE_STATE 2; let p : Bytes := [3, 3, 6, 7, 255] ++ zeros 11; goes (.memTest h p) s fun _ d => decide (d.hobUp (u8 p 0 + 1) = true ∧ d.chUp (4 * u8 p 0 + u8 p 1) = true ∧ (d.memCh (4 * u8 p 0 + u8 p 1)).test = none)) &&
    (let h : Hdr := hd; let s : State := on fun d => d.mset 15 R.MEM_CH_STATE_STATE 3; let p : Bytes := [3, 3, 6, 7, 255] ++ zeros 11; goes (.memTest h p) s fun _ d => decide (d.hobUp (u8 p 0 + 1) = true ∧ d.chUp (4 * u8 p 0 + u8 p 1) = false)) &&
    (let s : State := on fun d => (d.mset 15 R.MEM_CH_STATE_STATE 2).setMemCh 15 fun x => { x with test := some (⟨cm, 0, 2, 1, 5⟩ : MemTest) }; let n : Nat := 15; let e : Nat := 1; let f : Nat := 2; let q : Nat := 3; let k : Nat := 4; let m := (⟨cm, 0, 2, 1, 5⟩ : MemTest); decide (s.dev.hearthOff = false) && decide ((s.dev.memCh n).test = some m) && decide (s.dev.chUp n = true)) &&
    (let s : State := on fun d => d.mset 15 R.MEM_CH_STATE_STATE 2; let n : Nat := 15; let l : Nat := 5; let v : Nat := 6; let e : Nat := 1; let y : Nat := 2; let i : Nat := 1024; decide (s.dev.hearthOff = false) && decide (n ≤ 15) && decide (s.dev.chUp n = true)) &&
    (let s : State := on fun d => d.mset 15 R.MEM_CH_STATE_STATE 2; let n : Nat := 15; let l : Nat := 5; let y : Nat := 2; let i : Nat := 1024; decide (s.dev.hearthOff = false) && decide (n ≤ 15) && decide (s.dev.chUp n = true) && decide ((s.dev.memCh n).bad.contains l = false)) &&
    (let s : State := on fun d => d.mset 15 R.MEM_CH_STATE_STATE 2; let n : Nat := 15; let l : Nat := 5; let y : Nat := 2; let i : Nat := 1024; decide (s.dev.hearthOff = false) && decide (n ≤ 15) && decide (s.dev.chUp n = true) && decide ((s.dev.memCh n).bad.contains l = false)) &&
    (let s : State := on fun d => d.mset 15 R.MEM_CH_STATE_STATE 2; let n : Nat := 15; let l : Nat := 5; let y : Nat := 256; decide (s.dev.hearthOff = false) && decide (n ≤ 15) && decide (s.dev.chUp n = true) && decide ((s.dev.memCh n).bad.contains l = false)) &&
    (let s : State := on fun d => d.mset 15 R.MEM_CH_STATE_STATE 2; let n : Nat := 15; let v : Nat := 16; decide (s.dev.hearthOff = false) && decide (n ≤ 15) && decide (s.dev.chUp n = true)) &&
    decide ((on id).dev.hearthOff = false) &&
    (decide ((on fun d => d.mset 15 R.MEM_CH_STATE_STATE 2).dev.mget 15 R.MEM_CH_STATE_STATE ≠ 3)) &&
    (let s : State := on fun d => d.mset 15 R.MEM_CH_STATE_STATE 3; let n : Nat := 15; decide (s.dev.hearthOff = false) && decide (n ≤ 15) && decide (s.dev.hobUp (chDie n) = true) && decide (s.dev.mget n R.MEM_CH_STATE_STATE = 3)) &&
    (let d : Dev := ({ (({} : Dev).mset 15 R.MEM_CH_STATE_STATE 2) with mem := { maps := [[0, 1], [0, 1], [0, 1], [0]] } }); decide (d.mem.maps.length = 4 ∧ (d.mem.maps.getD 3 []).length < 2 ∧ d.chUp (4 * 3 + 3) = true ∧ (d.mem.maps.getD 3 []).contains 3 = false))) = true := by decide +kernel

theorem test_meets_ClocksSwitchAndReturn : (
    (let h : Hdr := hd; let s : State := on damperOn; let p : Bytes := [9, 0, 0, 0]; goes (.clkStatus h p) s fun _ d => decide (d.clkFault (u8 p 0) = none) && decide (h.answered = none)) &&
    (let h : Hdr := hd; let s : State := on fun d => { d with fab := { d.fab with failed := [false, false, false, true] } }; let p : Bytes := [4, 0, 0, 0]; let r := Rep.bad St.fault 0x42; goes (.clkStatus h p) s fun _ d => decide (d.clkFault (u8 p 0) = some r)) &&
    (let h : Hdr := hd; let s : State := on damperOn; let p : Bytes := [9, 0] ++ enc 2 500 ++ enc 2 65535 ++ enc 2 7; goes (.clkConfig h p) s fun _ d => decide (u8 p 0 ≠ 0xFF) && decide (d.clkFault (u8 p 0) = none) && decide (h.answered = none) && decide ((8 ≤ u8 p 0 → d.canAnswer (u8 p 0) = true))) &&
    (let h : Hdr := hd; let s : State := on damperOn; let p : Bytes := [255, 0] ++ enc 2 10 ++ enc 2 64 ++ enc 2 0; goes (.clkConfig h p) s fun _ d => decide (u8 p 0 = 0xFF) && decide (d.flueUp 8 = true) && decide (d.flueUp 9 = true) && decide (d.canAnswer 8 = true) && decide (d.canAnswer 9 = true) && decide (h.answered = none)) &&
    (let h : Hdr := hd; let s : State := on fun d => (damperOn d).setClkDie 9 fun x => { x with returning := true, waiting := [cm] }; let p : Bytes := [9, 1, 0, 0]; goes (.clkSelect h p) s fun _ d => decide (d.clkFault (u8 p 0) = none ∧ (d.clkDie (u8 p 0)).returning = true)) &&
    (let h : Hdr := hd; let s : State := on fun d => ((damperOn d).wr 9 R.CLK_STATE_MAIN_LOCKED 0); let p : Bytes := [9, 2, 0, 0]; goes (.clkSelect h p) s fun _ d => decide (d.clkFault (u8 p 0) = none ∧ (d.clkDie (u8 p 0)).returning = false ∧ u8 p 1 = 2 ∧ d.rd (u8 p 0) R.CLK_STATE_MAIN_LOCKED = 0)) &&
    (let h : Hdr := hd; let s : State := on fun d => (((damperOn d).wr 9 R.CLK_STATE_SRC 0).wr 9 R.CLK_STATE_SPARE_LOCKED 1); let p : Bytes := [9, 1, 0, 0]; goes (.clkSelect h p) s fun _ d => decide (d.clkFault (u8 p 0) = none) && decide ((d.clkDie (u8 p 0)).returning = false) && decide (u8 p 1 = 1) && decide (d.rd (u8 p 0) R.CLK_STATE_SRC = 0) && decide (d.rd (u8 p 0) R.CLK_STATE_SPARE_LOCKED = 1)) &&
    (let s : State := on fun d => ((d.wr 9 R.CLK_STATE_REF_OK 1).wr 9 R.CLK_STATE_SPARE_LOCKED 1); let ref : Nat := 2; let k : Nat := 9; decide (s.dev.hearthOff = false) && decide (k ∈ refDies ref) && decide (s.dev.dieUp k = true) && decide (s.dev.rd k R.CLK_STATE_REF_OK = 1) && decide ((∀ j ∈ refDies ref, s.dev.rd j R.CLK_STATE_SRC = 0 → s.dev.rd j R.CLK_STATE_SPARE_LOCKED = 1))) &&
    decide ((on id).dev.hearthOff = false) &&
    (let s : State := on fun d => ((d.wr 9 R.CLK_STATE_MAIN_LOCKED 1).wr 9 R.CLK_STATE_SPARE_LOCKED 1); let die : Nat := 9; decide (s.dev.hearthOff = false) && decide (dieKind die ≠ 0) && decide (s.dev.dieUp die = true) && decide (s.dev.rd die R.CLK_STATE_MAIN_LOCKED = 1) && decide ((s.dev.rd die R.CLK_STATE_SRC = 0 → s.dev.rd die R.CLK_STATE_SPARE_LOCKED = 1))) &&
    (let s : State := on fun d => d.wr 1 R.CLK_STATE_MAIN_LOCKED 1; let die : Nat := 1; decide (s.dev.hearthOff = false) && decide (dieKind die ≠ 0) && decide (s.dev.dieUp die = true) && decide (s.dev.rd die R.CLK_STATE_MAIN_LOCKED = 1) && decide (s.dev.rd die R.CLK_STATE_SRC = 0) && decide (s.dev.rd die R.CLK_STATE_SPARE_LOCKED = 0) && decide ((s.dev.clkDie die).losses = [])) &&
    (let s : State := on fun d => ((damperOn d).wr 9 R.CLK_STATE_REF_OK 1); let die : Nat := 9; decide (s.dev.hearthOff = false) && decide (dieKind die ≠ 0) && decide (s.dev.dieUp die = true) && decide (s.dev.rd die R.CLK_STATE_REF_OK = 1)) &&
    (let s : State := on fun d => ((damperOn d).wr 9 R.CLK_STATE_REF_OK 1); let die : Nat := 9; decide (s.dev.hearthOff = false) && decide (dieKind die ≠ 0) && decide (s.dev.dieUp die = true) && decide (s.dev.rd die R.CLK_STATE_REF_OK = 1)) &&
    (let s : State := on fun d => (damperOn d).setClkDie 9 fun x => { x with returning := true, waiting := [cm] }; let die : Nat := 9; decide (s.dev.hearthOff = false) && decide ((s.dev.clkDie die).returning = true)) &&
    (let s : State := on fun d => (((damperOn d).wr 9 R.CLK_STATE_SRC 0).wr 9 R.CLK_STATE_SPARE_LOCKED 1); let die : Nat := 9; decide (s.dev.hearthOff = false) && decide (dieKind die ≠ 0) && decide (s.dev.dieUp die = true) && decide (s.dev.rd die R.CLK_STATE_SPARE_LOCKED = 1) && decide (s.dev.rd die R.CLK_STATE_SRC = 0))) = true := by decide +kernel

theorem test_meets_CamerasAndTrim : (
    (let h : Hdr := hd; let s : State := on fun d => d.setFn (FnId.cam 1) { st := .on }; let p : Bytes := [1, 4, 0x2C, 3] ++ enc 2 8192 ++ enc 2 64 ++ [4, 3, 0x77, 1] ++ enc 4 1000000 ++ enc 4 100; goes (.camSet h p) s fun _ d => decide (d.camOn (u8 p 0) = true)) &&
    (let h : Hdr := hd; let s : State := rdy id; let p : Bytes := [1, 4, 0x2C, 3] ++ enc 2 8192 ++ enc 2 64 ++ [4, 3, 0x77, 1] ++ enc 4 1000000 ++ enc 4 100; goes (.camSet h p) s fun _ d => decide (d.camOn (u8 p 0) = false)) &&
    (let h : Hdr := hd; let s : State := rdy id; let p : Bytes := [1, 1, 0, 0]; goes (.camEnable h p) s fun _ d => decide (u8 p 1 = 1 ∧ (d.cam (u8 p 0)).ring = none)) &&
    (let h : Hdr := hd; let s : State := on (fun d => (d.setFn (FnId.cam 1) { st := .off }).setCam 1 { (d.cam 1) with ring := some ⟨1, 2, 64, 0⟩ }); let p : Bytes := [1, 1, 0, 0]; let r := (⟨1, 2, 64, 0⟩ : CamRing); goes (.camEnable h p) s fun _ d => decide (u8 p 1 = 1 ∧ (d.cam (u8 p 0)).ring = some r ∧ (d.cam (u8 p 0)).pend = none ∧ recordBytes (d.cam (u8 p 0)).applied.2 ≤ 4 * r.stride ∧ gridOutside (d.cam (u8 p 0)).cfg (d.cam (u8 p 0)).applied.2 = false ∧ d.camOn (u8 p 0) = false)) &&
    (let s := on fun d => (d.setFn (FnId.cam 1) { st := .starting, stored := none, running := [cm] }).setCam 1 { (d.cam 1) with frame := some (⟨1, 2, 3, 4, 5, [], 0, none⟩ : CamFrame) }; decide (s.dev.fn (FnId.cam 1) = { st := .starting, stored := none, running := [cm] } ∧ (s.dev.cam 1).frame.isSome = true)) &&
    (let h : Hdr := hd; let s : State := on (fun d => (d.setFn (FnId.cam 1) { st := .off }).setCam 1 { (d.cam 1) with cfg := { width := 64, height := 64 } }); let p : Bytes := [1, 0] ++ zeros 42 ++ [1, 1] ++ zeros 10; goes (.camPipeSet h p) s fun _ _ => true) &&
    (let h : Hdr := hd; let s : State := on id { objs := [buf 1 512] }; let p : Bytes := [1, 0] ++ enc 2 1 ++ enc 2 2 ++ enc 2 64 ++ zeros 4; let o := buf 1 512; goes (.camStatsSet h p) s fun _ d => let hp := s.heap; decide (d.camOn (u8 p 0) = false ∧ hp.buf (u16 p 2) = some o ∧ o.lost = false)) &&
    (let h : Hdr := hd; let s : State := rdy id; let p : Bytes := [1, 0, 0, 0]; goes (.camStatus h p) s fun _ _ => true) &&
    (let s : State := on fun d => d.setFn (FnId.cam 1) { st := .on }; let c : Nat := 1; decide (s.dev.hearthOff = false) && decide (c < 2) && decide (s.dev.trm.cams.length = 2) && decide ((s.dev.fn (FnId.cam c)).st = .on) && decide ((s.dev.cam c).frame = none) && decide ((s.dev.cam c).pend = none)) &&
    (let s : State := on (fun d => (d.setFn (FnId.cam 1) { st := .on }).setCam 1 { (d.cam 1) with frame := some (⟨1, 2, 3, 4, 5, [], 0, none⟩ : CamFrame), ignore := false, fifo := List.replicate 7 [1] }); let c : Nat := 1; let line := [1]; let f := (⟨1, 2, 3, 4, 5, [], 0, none⟩ : CamFrame); decide (s.dev.hearthOff = false) && decide (c < 2) && decide (s.dev.trm.cams.length = 2) && decide (s.dev.camOn c = true) && decide ((s.dev.cam c).cfg.dtype ≠ 0x12) && decide ((s.dev.cam c).ignore = false) && decide ((s.dev.cam c).frame = some f) && decide ((s.dev.cam c).fifo.length < 8)) &&
    (let s : State := on (fun d => (d.setFn (FnId.cam 1) { st := .on }).setCam 1 { (d.cam 1) with frame := some (⟨1, 2, 3, 4, 5, [], 0, none⟩ : CamFrame), ignore := false, fifo := List.replicate 8 [1], ring := some ⟨1, 2, 64, 0⟩ }); let c : Nat := 1; let line := [1]; let f := (⟨1, 2, 3, 4, 5, [], 0, none⟩ : CamFrame); let r := (⟨1, 2, 64, 0⟩ : CamRing); decide (s.dev.hearthOff = false) && decide (c < 2) && decide (s.dev.trm.cams.length = 2) && decide (s.dev.camOn c = true) && decide ((s.dev.cam c).cfg.dtype ≠ 0x12) && decide ((s.dev.cam c).ignore = false) && decide ((s.dev.cam c).frame = some f) && decide ((s.dev.cam c).ring = some r) && decide (8 ≤ (s.dev.cam c).fifo.length)) &&
    (let s : State := on (fun d => (d.setFn (FnId.cam 1) { st := .on }).setCam 1 { (d.cam 1) with frame := some (⟨1, 2, 3, 4, 5, [], 0, none⟩ : CamFrame), ring := some ⟨1, 2, 64, 0⟩ }) { objs := [buf 1 512] }; let c : Nat := 1; let f := (⟨1, 2, 3, 4, 5, [], 0, none⟩ : CamFrame); let r := (⟨1, 2, 64, 0⟩ : CamRing); let o := buf 1 512; decide (s.dev.hearthOff = false) && decide (c < 2) && decide (s.dev.trm.cams.length = 2) && decide (s.dev.camOn c = true) && decide ((s.dev.cam c).frame = some f) && decide (f.eof = none) && decide ((s.dev.cam c).fifo = []) && decide ((s.dev.cam c).ring = some r) && decide (s.heap.buf r.buffer = some o) && decide (o.lost = false)) &&
    (let s : State := on (fun d => (d.setFn (FnId.cam 1) { st := .on }).setCam 1 { (d.cam 1) with frame := some (⟨1, 2, 3, 4, 5, [], 0, none⟩ : CamFrame), ring := some ⟨1, 2, 64, 0⟩ }); let c : Nat := 1; let f := (⟨1, 2, 3, 4, 5, [], 0, none⟩ : CamFrame); let r := (⟨1, 2, 64, 0⟩ : CamRing); decide (s.dev.hearthOff = false) && decide (c < 2) && decide (s.dev.trm.cams.length = 2) && decide (s.dev.camOn c = true) && decide ((s.dev.cam c).frame = some f) && decide (f.eof = none) && decide ((s.dev.cam c).ring = some r)) &&
    (let s : State := on fun d => d.setFn (FnId.cam 1) { st := .on }; let c : Nat := 1; decide (s.dev.hearthOff = false) && decide (c < 2) && decide ((s.dev.fn (FnId.cam c)).st = .on) && decide (s.dev.rd 0 (R.CAM_STATE_LOST c) = 0)) &&
    (let s : State := on (fun d => (d.setFn (FnId.cam 1) { st := .on }).setCam 1 { (d.cam 1) with frame := some (⟨1, 2, 3, 4, 5, [], 0, none⟩ : CamFrame), fifo := [[1], [2]] }); let c : Nat := 1; let f := (⟨1, 2, 3, 4, 5, [], 0, none⟩ : CamFrame); let l := ([1] : List Nat); let r := ([[2]] : List (List Nat)); decide (s.dev.hearthOff = false) && decide (s.dev.trm.cams.length = 2) && decide (s.dev.nextLine = some c) && decide ((s.dev.cam c).frame = some f) && decide (f.eof = none) && decide ((s.dev.cam c).fifo = l :: r)) &&
    (let s : State := on (fun d => (d.setFn (FnId.cam 1) { st := .on }).setCam 1 { (d.cam 1) with writing := some (3, 0, false), applied := (3, [1, 1]) }); let c : Nat := 1; let g : Nat := 3; let i : Nat := 0; let again := false; decide (s.dev.hearthOff = false) && decide (c < s.dev.trm.cams.length) && decide ((s.dev.cam c).writing = some (g, i, again)) && decide (i < u8 (s.dev.cam c).applied.2 1)) &&
    (let s : State := on (fun d => (d.setFn (FnId.cam 1) { st := .on }).setCam 1 { (d.cam 1) with writing := some (3, 0, false) }); let c : Nat := 1; let g : Nat := 3; let i : Nat := 0; let again := false; decide (s.dev.hearthOff = false) && decide (c < 2) && decide (s.dev.trm.cams.length = 2) && decide ((s.dev.cam c).writing = some (g, i, again))) &&
    (let h : Hdr := hd; let s : State := rdy id; let p : Bytes := [4, 0, 0, 0] ++ enc 8 1; goes (.trimRun h p) s fun c d => decide ((u8 p 0 ≠ 2 ∨ d.mode = 2) ∧ d.trm.running = none ∧ d.trimBlocked ⟨c, u8 p 0, u64 p 4⟩ = false)) &&
    (let h : Hdr := hd; let s : State := on fun d => { d with trm := { d.trm with running := some ({ cmd := cm, q := 3, mask := 2 ^ 60 } : TrimJob), queue := List.replicate 3 ({ cmd := cm, q := 3, mask := 2 ^ 60 } : TrimJob) } }; let p : Bytes := [3, 0, 0, 0] ++ enc 8 (2 ^ 61 - 1); goes (.trimRun h p) s fun _ d => decide ((u8 p 0 ≠ 2 ∨ d.mode = 2) ∧ d.trm.running ≠ none ∧ d.trm.queue.length < 4)) &&
    (let h : Hdr := hd; let s : State := on fun d => { d with trm := { d.trm with running := some ({ cmd := cm, q := 3, mask := 2 ^ 60 } : TrimJob), queue := List.replicate 4 ({ cmd := cm, q := 3, mask := 2 ^ 60 } : TrimJob) } }; let p : Bytes := [3, 0, 0, 0] ++ enc 8 (2 ^ 61 - 1); goes (.trimRun h p) s fun _ d => decide ((u8 p 0 ≠ 2 ∨ d.mode = 2) ∧ d.trm.running ≠ none ∧ 4 ≤ d.trm.queue.length)) &&
    (let s : State := on fun d => ({ d with dmp := { d.dmp with ret := some 35 }, trm := { d.trm with running := some ({ cmd := cm, q := 3, mask := 2 ^ 60 } : TrimJob), queue := [] } } : Dev).wr 0 (R.DMP_LANE_LOCKED 35) 1; let c := cm; let e : Nat := 60; let x := (-2 : Int); let y := (0 : Int); decide (s.dev.hearthOff = false) && decide (e < 61) && decide (s.dev.trm.running = some ⟨c, 3, 2 ^ e⟩) && decide (s.dev.trm.queue = []) && decide (s.dev.trimLocked e = true) && decide ((x - y : Int).natAbs ≤ 2)) &&
    (let s : State := on fun d => ({ d with dmp := { d.dmp with ret := some 35 }, trm := { d.trm with running := some ({ cmd := cm, q := 3, mask := 2 ^ 60 } : TrimJob), queue := [] } } : Dev).wr 0 (R.DMP_LANE_LOCKED 35) 1; let c := cm; let e : Nat := 60; let x := (-3 : Int); let y := (0 : Int); decide (s.dev.hearthOff = false) && decide (e < 61) && decide (s.dev.trm.running = some ⟨c, 3, 2 ^ e⟩) && decide (s.dev.trm.queue = []) && decide (s.dev.trimLocked e = true) && decide (2 < (x - y : Int).natAbs)) &&
    (let h : Hdr := hd; let s : State := on damperOn; let p : Bytes := [1, 15, 2, 0]; goes (.trimRead h p) s fun _ d => decide ((trimDies (u8 p 0) (u8 p 1) (u8 p 2)).all d.flueUp = true ∧ h.answered = none)) &&
    (let h : Hdr := hd; let s : State := rdy id; let p : Bytes := [3, 60, 1, 0, 193]; goes (.trimWrite h p) s fun _ d => decide (u8 p 0 = 3) && decide (d.trm.running = none) && decide (d.trm.queue = [])) &&
    (let h : Hdr := hd; let s : State := on damperOn; let p : Bytes := [1, 15, 2, 0, 255, 255, 0, 1]; goes (.trimWrite h p) s fun _ d => decide (u8 p 0 = 1) && decide (d.trm.running = none) && decide (d.trm.queue = []) && decide (d.flueUp 8 = true) && decide (d.flueUp 9 = true) && decide (d.canAnswer 8 = true) && decide (d.canAnswer 9 = true) && decide (h.answered = none))) = true := by decide +kernel

theorem test_meets_ThermalJournalAndAgeing : (
    (let h : Hdr := hd; let s : State := rdy id; let p : Bytes := []; goes (.thmStatus h p) s fun _ _ => true) &&
    (let h : Hdr := hd; let s : State := on fun d => { d with thm := { d.thm with sensors := [(47, { state := 1 })] } }; let p : Bytes := [47, 0, 0, 0]; goes (.thmAck h p) s fun _ d => decide ((d.sensor (u8 p 0)).state = 1 ∨ (d.sensor (u8 p 0)).state = 2)) &&
    (let h : Hdr := hd; let s : State := rdy id; let p : Bytes := [47, 0, 0, 0]; goes (.thmAck h p) s fun _ d => decide ((d.sensor (u8 p 0)).state = 0 ∨ (d.sensor (u8 p 0)).state = 3)) &&
    (let h : Hdr := hd; let s : State := on damperOn; let p : Bytes := enc 2 0x6900 ++ [0, 0] ++ enc 2 0xF800 ++ zeros 92 ++ enc 2 2048; goes (.thmSet h p) s fun _ d => decide (flueDies.all d.flueUp = true) && decide (d.canAnswer 8 = true) && decide (d.canAnswer 9 = true) && decide (h.answered = none)) &&
    (let h : Hdr := hd; let s : State := rdy id; let p : Bytes := enc 2 0x5A00 ++ zeros 98; goes (.thmSet h p) s fun _ d => decide (flueDies.all d.flueUp = false)) &&
    (let h : Hdr := hd; let s : State := rdy id; let p : Bytes := []; goes (.hkRead h p) s fun _ _ => true) &&
    (let s := rdy id; decide (s.dev.pwr.hearthHeld = false ∧ s.dev.thm.shutdown = false ∧ 48 ≤ 64)) &&
    (let w : Nat := 95 * 2 ^ 56; let s := on fun d => (damperOn d).setFlueEnd 1 { queue := [⟨0x83, [w]⟩] }; decide (48 ≤ w / 2 ^ 56 % 256 ∧ w / 2 ^ 56 % 256 ≤ 95) && (s.dev.retTake 1 ⟨0x83, [w]⟩).isSome) &&
    (let s : State := rdy id; decide (s.dev.pwr.hearthHeld = false) && decide (s.dev.thm.shutdown = false)) &&
    (let s : State := rdy id; let f : Nat := 1; decide (f ≤ 1) && decide (s.dev.thm.fluHalt.length = 2) && decide (s.dev.thm.fluHalt.getD f true = false)) &&
    (let s : State := rdy id; let f : Nat := 1; decide (f ≤ 1) && (let d := s.dev; decide (d.pwr.refuse.getD f false = false))) &&
    (let s : State := rdy id; let f : Nat := 1; let v : Nat := 0x53485555; decide (v % 2 ^ 32 ≠ 0x53485554)) &&
    (let s : State := rdy id; decide (s.dev.hearthOff = false) && decide (s.dev.pwr.safe = false)) &&
    (let s : State := rdy id; let v : Nat := 0x5AFF; decide (s.dev.hearthOff = false) && decide (v % 2 ^ 32 ≠ 0x5AFE)) &&
    (let h : Hdr := hd; let s : State := rdy id; let p : Bytes := []; goes (.ashStatus h p) s fun _ _ => true) &&
    (let h : Hdr := hd; let s : State := on fun d => d.wr 0 R.ASH_OLDEST 5; let p : Bytes := enc 4 4 ++ [63, 0, 0, 0]; goes (.ashRead h p) s fun _ d => decide (u32 p 0 < d.rd 0 R.ASH_OLDEST)) &&
    (let h : Hdr := hd; let s : State := on fun d => d.wr 0 R.ASH_OLDEST 5; let p : Bytes := enc 4 5 ++ [1, 0, 0, 0]; goes (.ashRead h p) s fun _ d => decide (d.rd 0 R.ASH_OLDEST ≤ u32 p 0)) &&
    (let h : Hdr := hd; let s : State := rdy id; let p : Bytes := zeros 24; goes (.ashNote h p) s fun _ d => decide (d.ash.queue.length < 255)) &&
    (let h : Hdr := hd; let s : State := on fun d => { d with ash := { d.ash with queue := List.replicate 255 ⟨11, 0, 0, 0, 0, 0, 0, 0, []⟩ } }; let p : Bytes := zeros 24; goes (.ashNote h p) s fun _ d => decide (255 ≤ d.ash.queue.length)) &&
    (let h : Hdr := { sh with seq := 101 }; let s : State := inSess; let p : Bytes := []; decide (Arrives s h p) && decide (s.dev.pwr.ready = true) && decide (h.route ≠ .cp) && decide (h.noSession = false) && decide (s.dev.whoSends h 0x5103 = some h.session) && decide (s.dev.macOk h.session h 0x5103 p = true)) &&
    (let h : Hdr := hd; let s : State := rdy id; let p : Bytes := []; goes (.ashClear h p) s fun _ _ => decide (h.route = .cp)) &&
    (let s : State := on fun d => { d with ash := { d.ash with clearing := [cm] } }; let c := cm; decide (s.dev.ash.clearing = [c]) && decide (s.dev.thm.shutdown = false) && decide (s.dev.pwr.hearthHeld = false)) &&
    (let s : State := on fun d => ({ d with ash := { d.ash with queue := [⟨11, 0, 0, 0, 0, 0, 0, 0, []⟩] } } : Dev).wr 0 R.ASH_STATE_READY 1; let r := (⟨11, 0, 0, 0, 0, 0, 0, 0, []⟩ : AshRec); let rest := ([] : List AshRec); decide (s.dev.ash.queue = r :: rest) && decide (s.dev.pwr.hearthHeld = false) && decide (s.dev.thm.shutdown = false) && decide (s.dev.rd 0 R.ASH_STATE_READY ≠ 0) && decide (s.dev.ash.clearing = []) && decide (s.dev.ash.copyA.length < journalMax) && decide (s.dev.ash.copyB.length < journalMax)) &&
    (let s : State := rdy id; decide (s.dev.pwr.hearthHeld = false) && decide (s.dev.thm.shutdown = false) && decide (s.dev.rd 0 R.ASH_STATE_READY ≠ 1)) &&
    (let s : State := on fun d => { d with ash := { d.ash with corr := [((4, 51), 3)] } }; let die : Nat := 4; let blk : Nat := 51; let n : Nat := 3; decide (s.dev.ash.corr = [((die, blk), n)]) && decide (s.dev.ash.queue.length < 255) && decide (s.dev.pwr.hearthHeld = false) && decide (s.dev.thm.shutdown = false) && decide (s.dev.tnk.noManage = false)) &&
    (let h : Hdr := hd; let s : State := rdy id; let p : Bytes := enc 2 8533 ++ enc 2 0; goes (.bootcfgSet h p) s fun _ d => decide (h.answered = none) && decide (d.ash.boot.length = 2)) &&
    (let s : State := rdy id; let h : Hdr := ({ hd with answered := some 3 } : Hdr); let p : Bytes := enc 2 8533 ++ enc 2 3200; let n : Nat := 3; goes (.bootcfgSet h p) s fun _ _ => decide (h.answered = some n)) &&
    (let h : Hdr := hd; let s : State := rdy id; let p : Bytes := [3, 0] ++ enc 4 86399 ++ [0, 0] ++ zeros 6 ++ enc 2 0x7FFF ++ List.replicate 256 255; goes (.ageSet h p) s fun _ _ => true) &&
    (let h : Hdr := hd; let s : State := rdy id; let p : Bytes := enc 4 65535 ++ enc 2 65535; goes (.ageSample h p) s fun _ _ => decide (p.length = 6)) &&
    (let h : Hdr := hd; let s : State := rdy id; let p : Bytes := []; goes (.ageReplan h p) s fun _ d => decide (d.age.running = [] ∧ d.age.postponed = false)) &&
    (let h : Hdr := hd; let s : State := on fun d => { d with age := { d.age with running := [cm] } }; let p : Bytes := []; goes (.ageReplan h p) s fun _ d => decide (d.age.running ≠ [])) &&
    (let s : State := rdy id; let v : Nat := 5; decide (s.dev.pwr.hearthHeld = false) && decide (s.dev.thm.shutdown = false) && decide (s.dev.tnk.noManage = false) && decide (kvGet s.dev.age.today (0, 0) = none)) &&
    (let s : State := on fun d => d.wr 0 R.THM_STATE_LEVEL 2; let nack := ([] : List Nat); let d := s.dev; decide (d.pwr.ready = true ∧ d.pwr.hearthHeld = false ∧ d.thm.shutdown = false ∧ d.tnk.noManage = false ∧ d.replanWaits = true)) &&
    (let s : State := rdy id; let nack := ([] : List Nat); decide (s.dev.pwr.ready = true) && decide (s.dev.pwr.hearthHeld = false) && decide (s.dev.thm.shutdown = false) && decide (s.dev.tnk.noManage = false) && decide (s.dev.replanWaits = false))) = true := by decide +kernel

theorem test_meets_CoresUpdatesResetsAndTwins : (
    (let h : Hdr := hd; let s : State := rdy id; let p : Bytes := []; goes (.tinkerSwitch h p) s fun _ d => decide (d.tnk.standbyOk = false)) &&
    (let h : Hdr := hd; let s : State := on fun d => { d with tnk := { d.tnk with standbyOk := true } }; let p : Bytes := []; goes (.tinkerSwitch h p) s fun _ d => decide (d.tnk.standbyOk = true ∧ d.upd.act = none)) &&
    (let h : Hdr := hd; let s : State := on (fun d => { d with tnk := { d.tnk with slotOf := [2, 0] } }) oneBuf; let p : Bytes := [2, 0, 0, 1] ++ enc 4 0 ++ enc 4 64; goes (.updateStage h p) s fun _ d => decide (d.tnk.slotOf.getD d.tnk.active 0 = u8 p 0)) &&
    (let h : Hdr := hd; let s : State := on id oneBuf; let p : Bytes := [2, 3, 0, 1] ++ enc 4 0 ++ enc 4 64; let o := buf 1 64; goes (.updateStage h p) s fun _ d => let hp := s.heap; decide (d.tnk.slotOf.getD d.tnk.active 0 ≠ u8 p 0 ∧ hp.buf (u16 p 2) = some o ∧ o.lost = false)) &&
    (let s : State := on (fun d => { d with upd := { d.upd with staging := [{ cm with p := [2, 0] ++ enc 2 1 ++ enc 4 0 ++ enc 4 64 }] } }) oneBuf; let c := ({ cm with p := [2, 0] ++ enc 2 1 ++ enc 4 0 ++ enc 4 64 } : Cmd); let o := buf 1 64; let r := Rsm.badSignature; decide (s.dev.hearthOff = false) && decide (s.dev.upd.staging = [c]) && decide (u8 c.p 1 = 0) && decide (c.h.answered = none) && decide (s.heap.buf (u16 c.p 2) = some o) && decide (o.lost = false) && decide (s.dev.ash.slots.length = 2) && decide (u8 c.p 0 = 1 ∨ u8 c.p 0 = 2) && decide (imageBad (s.dev.rd 0 R.TNK_FLOOR) (o.read (u32 c.p 4) (u32 c.p 8)) = some r)) &&
    (let h : Hdr := hd; let s : State := rdy id; let p : Bytes := [2, 0, 0, 0]; goes (.updateActivate h p) s fun _ d => decide (d.tnk.standbyOk = false)) &&
    (let h : Hdr := hd; let s : State := on fun d => { d with tnk := { d.tnk with standbyOk := true } }; let p : Bytes := [2, 0, 0, 0]; goes (.updateActivate h p) s fun _ d => decide (d.tnk.standbyOk = true ∧ d.upd.act = none ∧ d.tnk.switchReq = [] ∧ u8 p 0 ≠ 0 ∧ (d.slot (u8 p 0)).state ≠ 1)) &&
    (let h : Hdr := hd; let s : State := on fun d => { d with tnk := { d.tnk with standbyOk := true } }; let p : Bytes := [0, 0, 0, 0]; goes (.updateActivate h p) s fun _ d => decide (d.tnk.standbyOk = true ∧ d.upd.act = none ∧ d.tnk.switchReq = [] ∧ (u8 p 0 = 0 ∨ (d.slot (u8 p 0)).state = 1))) &&
    (let s : State := on fun d => { d with tnk := { d.tnk with standbyOk := true }, upd := { d.upd with act := some (cm, 0), phase := 1 } }; let c := cm; decide (s.dev.hearthOff = false) && decide (s.dev.upd.act = some (c, 0)) && decide (s.dev.upd.phase = 1) && decide (s.dev.tnk.standbyOk = true)) &&
    (let s : State := on fun d => { d with upd := { d.upd with act := some (cm, 0), phase := 1 } }; let c := cm; decide (s.dev.hearthOff = false) && decide (s.dev.upd.act = some (c, 0)) && decide (s.dev.upd.phase = 1)) &&
    (let s : State := on fun d => { d with tnk := { d.tnk with standbyOk := true }, upd := { d.upd with act := some (cm, 0), phase := 2 } }; decide (s.dev.hearthOff = false) && decide (s.dev.tnk.standbyOk = true) && decide (s.dev.upd.phase = 2) && decide (s.dev.swapDue = true) && decide (s.dev.tnk.switchReq = [])) &&
    (let s : State := on fun d => { d with tnk := { d.tnk with standbyOk := true, switchReq := [cm] } }; let c := cm; decide (s.dev.hearthOff = false) && decide (s.dev.tnk.standbyOk = true) && decide (s.dev.upd.phase = 0) && decide (s.dev.tnk.switchReq = [c])) &&
    (let s : State := on fun d => { d with upd := { d.upd with act := some (cm, 2), phase := 3 } }; let c := cm; let k : Nat := 2; decide (s.dev.hearthOff = false) && decide (s.dev.upd.act = some (c, k)) && decide (s.dev.upd.phase = 3) && decide (c.h.answered = none) && decide (s.dev.ash.boot.length = 2)) &&
    (let h : Hdr := hd; let s : State := rdy id; let p : Bytes := []; goes (.updateStatus h p) s fun _ _ => true) &&
    (let s : State := on fun d => { d with tnk := { d.tnk with standbyOk := true }, ev := { d.ev with srcs := [(32, { st := 2 })] } }; let cause : Nat := 1; let k : Nat := 32; let v := ({ st := 2 } : Src); decide (s.dev.pwr.hearthHeld = false) && decide (s.dev.thm.shutdown = false) && decide (s.dev.tnk.noManage = false) && decide (s.dev.tnk.standbyOk = true) && decide (s.dev.tnk.active < s.dev.tnk.failed.length) && decide (s.dev.ev.srcs = [(k, v)]) && decide (v.st = 2) && decide (32 ≤ k)) &&
    (let s : State := rdy id; let cause : Nat := 1; decide (s.dev.pwr.hearthHeld = false) && decide (s.dev.thm.shutdown = false) && decide (s.dev.tnk.noManage = false) && decide (s.dev.tnk.standbyOk = false)) &&
    (let s : State := on fun d => { d with tnk := { d.tnk with failed := [false, true] } }; decide (s.dev.hearthOff = false) && decide (s.dev.tnk.failed.getD (1 - s.dev.tnk.active) false = true) && decide (s.dev.tnk.noManage = false)) &&
    (let s : State := on fun d => { d with tnk := { d.tnk with standbyOk := true } }; decide (s.dev.hearthOff = false) && decide (s.dev.tnk.standbyOk = true) && decide (s.dev.tnk.failed.length = 2)) &&
    (let d : Dev := { ({} : Dev) with pwr := { hearthHeld := true } }; decide (d.pwr.ready = false ∧ d.pwr.done = [] ∧ d.bootCfg = none)) &&
    (let s : State := State.reset; let k : Nat := 4; decide (k = 1 ∨ k = 4) && decide (s.dev.pwr.ready = false) && decide (s.dev.pwr.hearthHeld = false) && decide (s.dev.pwr.done = [])) &&
    (let s : State := on fun d => { d with pwr := { d.pwr with ready := false, done := [5, 3, 2, 1] } }; decide (s.dev.pwr.ready = false) && decide (s.dev.pwr.hearthHeld = false) && decide (s.dev.pwr.done = [5, 3, 2, 1])) &&
    (let s : State := on fun d => damperOn { d with pwr := { d.pwr with lateHalf := [false, true] } }; let f : Nat := 1; decide (s.dev.hearthOff = false) && decide (f ≤ 1) && decide (s.dev.pwr.lateHalf.length = 2) && decide (s.dev.pwr.flueUp.length = 2) && decide (s.dev.pwr.lateHalf.getD f false = true) && decide (s.dev.rd 0 (R.DMP_HALF_ON f) = 1) && decide (s.dev.pwr.ready = true)) &&
    (let s : State := rdy id; let i : Nat := 3; let high := true; decide (i < 4) && decide (s.dev.fab.cond.length = 4) && decide (s.dev.fab.cond.getD i none = none)) &&
    (let f : Nat := 0; let s : State := on fun d => { panelOn d with film := { d.film with dies := [{ cells := [(0, { wave := some ⟨1, 0, 0⟩ })] }, {}] } }; decide (f ≤ 1) && decide (s.dev.film.dies.length = 2) && decide (s.dev.pwr.refuse.getD f false = false) && decide (s.dev.countCells f (·.wave.isSome) ≠ 0)) &&
    (let s : State := rdy id; let f : Nat := 1; decide (f ≤ 1) && decide (s.dev.pwr.refuse.getD f false = false) && decide (s.dev.countCells f (·.wave.isSome) = 0)) &&
    (let s : State := rdy id; let f : Nat := 1; let v : Nat := 0x52535421; decide (v % 2 ^ 32 ≠ 0x52535420)) &&
    (let s : State := rdy id; let on := true; decide (s.dev.pwr.flueUp.length = 2)) &&
    (let s : State := on fun d => { d with pwr := { d.pwr with flueHeld := true } }; let d := s.dev; decide (d.pwr.flueHeld = true ∧ d.lnk.startup = 0)) &&
    (let s : State := on fun d => { d with pwr := { d.pwr with flueHeld := true }, lnk := { d.lnk with startup := 1 } }; let i : Nat := 35; decide (i < 36) && decide (s.dev.pwr.flueHeld = true) && decide (s.dev.lnk.startup ≠ 0)) &&
    (let s : State := on fun d => d.wr 0 R.PWR_TWIN_STATE_ROLE 2; let stack : Nat := 1; let frame : Nat := 1; let start : Nat := 1; let sigs := ([] : List Nat); decide (s.dev.hearthOff = false) && decide (s.dev.twinRole = 2)) &&
    (let s : State := rdy id; let src : Nat := 1; let role : Nat := 1; let stack : Nat := 1; let frame : Nat := 1; let start : Nat := 1; let sigs := ([] : List Nat); decide (s.dev.hearthOff = false) && decide (src ≠ s.dev.rd 0 R.PWR_TWIN_PARTNER)) &&
    (let s : State := on fun d => ({ d with pwr := { d.pwr with twinRun := 7 } } : Dev).wr 0 R.PWR_TWIN_STATE_ROLE 2; let stack : Nat := 1; let sigs := ([] : List Nat); decide (s.dev.hearthOff = false) && decide (s.dev.twinRole ≠ 0) && decide (7 ≤ s.dev.pwr.twinRun)) &&
    (let s : State := on fun d => ({ d with pwr := { d.pwr with twinMiss := 2 } } : Dev).wr 0 R.PWR_TWIN_STATE_ROLE 2; decide (s.dev.hearthOff = false) && decide (s.dev.twinRole = 2) && decide (2 ≤ s.dev.pwr.twinMiss)) &&
    (let s : State := on fun d => d.wr 0 R.PWR_TWIN_STATE_ROLE 1; decide (s.dev.hearthOff = false) && decide (s.dev.twinRole = 1))) = true := by decide +kernel

theorem test_meets_EncoderStreamsAndIngot : (
    (let h : Hdr := hd; let s : State := on (fun d => let d : Dev := { d with mode := 1, conf := { d.conf with slots := d.conf.slots.set 3 { cfg := ([3, 0, 0, 7] ++ enc 2 128 ++ enc 2 136 ++ [8, 0, 1, 0] ++ enc 2 1 ++ [0, 63] ++ enc 4 1000000 ++ enc 4 16777215 ++ [16, 127] ++ enc 2 65535 ++ enc 4 0xE8000001 ++ zeros 8 : Bytes) } } }; d.setFn (FnId.enc 3) { st := .on }); let p : Bytes := ([3, 0, 0, 7] ++ enc 2 128 ++ enc 2 136 ++ [8, 0, 1, 0] ++ enc 2 1 ++ [0, 63] ++ enc 4 1000000 ++ enc 4 16777215 ++ [16, 127] ++ enc 2 65535 ++ enc 4 0xE8000001 ++ zeros 8 : Bytes); goes (.encStreamSet h p) s fun _ d => decide (d.encRateBad p = none ∧ d.encSt (u8 p 0) ≠ .off)) &&
    (let h : Hdr := hd; let s : State := rdy id; let p : Bytes := ([3, 0, 0, 7] ++ enc 2 128 ++ enc 2 136 ++ [8, 0, 1, 0] ++ enc 2 1 ++ [0, 63] ++ enc 4 1000000 ++ enc 4 16777215 ++ [16, 127] ++ enc 2 65535 ++ enc 4 0xE8000001 ++ zeros 8 : Bytes); goes (.encStreamSet h p) s fun _ d => decide (d.encRateBad p = none) && decide (d.encSt (u8 p 0) = .off) && decide (d.conf.slots.length = 4)) &&
    (let h : Hdr := hd; let s : State := on fun d => { d with mode := 1 }; let p : Bytes := [3, 1, 0, 0]; goes (.encStreamEnable h p) s fun _ d => decide (u8 p 1 = 1 ∧ d.mode ≠ 0 ∧ (d.encSlot (u8 p 0)).cfg = [])) &&
    (let h : Hdr := hd; let s : State := on fun d => let d : Dev := { d with mode := 1, conf := { d.conf with slots := [{ cfg := ([3, 2, 0, 7] ++ enc 2 3840 ++ enc 2 2160 ++ [1, 0, 1, 0] ++ enc 2 1 ++ [0, 63] ++ enc 4 20000000 ++ enc 4 16777215 ++ [16, 127] ++ enc 2 65535 ++ enc 4 0xE8000001 ++ zeros 8 : Bytes) }, { cfg := ([3, 2, 0, 7] ++ enc 2 3840 ++ enc 2 2160 ++ [1, 0, 1, 0] ++ enc 2 1 ++ [0, 63] ++ enc 4 20000000 ++ enc 4 16777215 ++ [16, 127] ++ enc 2 65535 ++ enc 4 0xE8000001 ++ zeros 8 : Bytes) }, { cfg := ([3, 2, 0, 7] ++ enc 2 3840 ++ enc 2 2160 ++ [1, 0, 1, 0] ++ enc 2 1 ++ [0, 63] ++ enc 4 20000000 ++ enc 4 16777215 ++ [16, 127] ++ enc 2 65535 ++ enc 4 0xE8000001 ++ zeros 8 : Bytes) }, { cfg := ([3, 2, 0, 7] ++ enc 2 3840 ++ enc 2 2160 ++ [1, 0, 1, 0] ++ enc 2 1 ++ [0, 63] ++ enc 4 20000000 ++ enc 4 16777215 ++ [16, 127] ++ enc 2 65535 ++ enc 4 0xE8000001 ++ zeros 8 : Bytes) }] } }; ([0, 1, 2].foldl (fun d k => d.setFn (FnId.enc k) { st := .on }) d).wrB 8 R.SCN_RATE 7; let p : Bytes := [3, 1, 0, 0]; let q := ([3, 2, 0, 7] ++ enc 2 3840 ++ enc 2 2160 ++ [1, 0, 1, 0] ++ enc 2 1 ++ [0, 63] ++ enc 4 20000000 ++ enc 4 16777215 ++ [16, 127] ++ enc 2 65535 ++ enc 4 0xE8000001 ++ zeros 8 : Bytes); goes (.encStreamEnable h p) s fun _ d => decide (u8 p 1 = 1 ∧ d.mode ≠ 0 ∧ (d.encSlot (u8 p 0)).cfg = q ∧ q ≠ [] ∧ d.encSt (u8 p 0) = .off ∧ encRate d.rate q ≤ 60 ∧ intraReserve q ≤ encA d.rate q ∧ 4 * encA d.rate q ≤ u32 q 20 ∧ d.encSt (u8 p 0) = .off ∧ d.encAdmit (u8 p 0) = false)) &&
    (let h : Hdr := hd; let s : State := on (fun d => let d : Dev := { d with mode := 1, conf := { d.conf with slots := d.conf.slots.set 3 { cfg := ([3, 0, 0, 7] ++ enc 2 128 ++ enc 2 136 ++ [8, 0, 1, 0] ++ enc 2 1 ++ [0, 63] ++ enc 4 1000000 ++ enc 4 16777215 ++ [16, 127] ++ enc 2 65535 ++ enc 4 0xE8000001 ++ zeros 8 : Bytes) } } }; d.setFn (FnId.enc 3) { st := .off }); let p : Bytes := [3, 1, 0, 0]; let q := ([3, 0, 0, 7] ++ enc 2 128 ++ enc 2 136 ++ [8, 0, 1, 0] ++ enc 2 1 ++ [0, 63] ++ enc 4 1000000 ++ enc 4 16777215 ++ [16, 127] ++ enc 2 65535 ++ enc 4 0xE8000001 ++ zeros 8 : Bytes); goes (.encStreamEnable h p) s fun _ d => decide (u8 p 1 = 1) && decide (d.mode ≠ 0) && decide ((d.encSlot (u8 p 0)).cfg = q) && decide (q ≠ []) && decide (d.fn (FnId.enc (u8 p 0)) = {}) && decide (encRate d.rate q ≤ 60) && decide (intraReserve q ≤ encA d.rate q) && decide (4 * encA d.rate q ≤ u32 q 20) && decide (d.encAdmit (u8 p 0) = true) && decide (d.conf.slots.length = 4)) &&
    (let h : Hdr := hd; let s : State := rdy id; let p : Bytes := [3, 0, 0, 0] ++ zeros 8 ++ [0, 0, 0, 1] ++ zeros 16; goes (.encViewSet h p) s fun _ d => decide (d.conf.slots.length = 4)) &&
    (let h : Hdr := hd; let s : State := rdy id; let p : Bytes := [3, 0, 0, 0]; goes (.encKey h p) s fun _ d => decide (d.conf.slots.length = 4)) &&
    (let h : Hdr := hd; let s : State := rdy id; let p : Bytes := [3, 0, 0, 0]; goes (.encStatus h p) s fun _ _ => true) &&
    (let s : State := on (fun d => let d : Dev := { d with mode := 1, conf := { d.conf with slots := d.conf.slots.set 3 { cfg := ([3, 0, 0, 7] ++ enc 2 128 ++ enc 2 136 ++ [8, 0, 1, 0] ++ enc 2 1 ++ [0, 63] ++ enc 4 1000000 ++ enc 4 16777215 ++ [16, 127] ++ enc 2 65535 ++ enc 4 0xE8000001 ++ zeros 8 : Bytes) } } }; d.setFn (FnId.enc 3) { st := .on }); let k : Nat := 3; decide (s.dev.hearthOff = false) && decide (k < 4) && decide (s.dev.conf.slots.length = 4) && ((List.range 4).all fun j => !decide (j ≠ k) || decide (s.dev.encSt j = .off)) && decide (s.dev.encSt k = .on) && decide ((s.dev.encSlot k).cfg ≠ []) && decide (s.dev.frame % encDiv (s.dev.encSlot k).cfg = 0) && decide ((s.dev.encSlot k).pics = [])) &&
    (let s : State := on (fun d => let d : Dev := { d with mode := 1, conf := { d.conf with slots := d.conf.slots.set 3 { cfg := ([3, 0, 0, 7] ++ enc 2 128 ++ enc 2 136 ++ [8, 0, 1, 0] ++ enc 2 1 ++ [0, 63] ++ enc 4 1000000 ++ enc 4 16777215 ++ [16, 127] ++ enc 2 65535 ++ enc 4 0xE8000001 ++ zeros 8 : Bytes), pics := [{ frame := 5, time := 7, num := 1, intra := false, pick := some ⟨5, 0, 0, 7, [], [], [], [], (0, []), true⟩ }] } } }; d.setFn (FnId.enc 3) { st := .on }); let k : Nat := 3; let idx : Nat := 8; let die : Nat := 4; let g : Nat := 2; let q := ({ frame := 5, time := 7, num := 1, intra := false, pick := some (⟨5, 0, 0, 7, [], [], [], [], (0, []), true⟩ : Pick) } : EncPic); let pk := (⟨5, 0, 0, 7, [], [], [], [], (0, []), true⟩ : Pick); decide (s.dev.hearthOff = false) && decide (k < 4) && decide (s.dev.conf.slots.length = 4) && decide ((s.dev.encSlot k).pics = [q]) && decide (q.waits = true) && decide (q.rep = false) && decide ((q.rows.any fun e => e.1 = idx) = false) && decide (q.pick = some pk) && decide (encSource (s.dev.encSlot k).cfg = 0) && decide (idx < encStrips (s.dev.encSlot k).cfg) && decide (s.dev.grateIdle die g = true)) &&
    (let s : State := on (fun d => let d : Dev := { d with mode := 1, conf := { d.conf with slots := d.conf.slots.set 3 { cfg := ([3, 0, 0, 7] ++ enc 2 128 ++ enc 2 192 ++ [8, 0, 1, 0] ++ enc 2 1 ++ [0, 63] ++ enc 4 1000000 ++ enc 4 16777215 ++ [16, 127] ++ enc 2 65535 ++ enc 4 0xE8000001 ++ zeros 8 : Bytes), pics := [{ frame := 5, time := 7, num := 1, intra := false, waits := false, row := 1, budget := 1000 }] } } }; d.setFn (FnId.enc 3) { st := .on }); let k : Nat := 3; let size : Nat := 672; let cheap := ([] : List Nat); let q := ({ frame := 5, time := 7, num := 1, intra := false, waits := false, row := 1, budget := 1000 } : EncPic); let blocks := ([⟨0, 64, 64, 64⟩] : List PredBlock); decide (s.dev.hearthOff = false) && decide (k < 4) && decide (s.dev.conf.slots.length = 4) && decide ((s.dev.encSlot k).pics = [q]) && decide (q.ready (s.dev.encSlot k).cfg = true) && decide (s.dev.encTurn k = true) && decide (q.row ≠ 0) && decide (q.row + 1 < encCtuRows (s.dev.encSlot k).cfg) && decide (q.spent + size + q.reserve (s.dev.encSlot k).cfg (q.row + 1) ≤ q.budget)) &&
    (let s : State := on (fun d => let d : Dev := { d with mode := 1, conf := { d.conf with slots := d.conf.slots.set 3 { cfg := ([3, 0, 0, 7] ++ enc 2 128 ++ enc 2 192 ++ [8, 0, 1, 0] ++ enc 2 1 ++ [0, 63] ++ enc 4 1000000 ++ enc 4 16777215 ++ [16, 127] ++ enc 2 65535 ++ enc 4 0xE8000001 ++ zeros 8 : Bytes), pics := [{ frame := 5, time := 7, num := 1, intra := false, waits := false, row := 2, budget := 1000 }] } } }; d.setFn (FnId.enc 3) { st := .on }); let k : Nat := 3; let size : Nat := 1001; let cheap := [1]; let q := ({ frame := 5, time := 7, num := 1, intra := false, waits := false, row := 2, budget := 1000 } : EncPic); let blocks := ([] : List PredBlock); decide (s.dev.hearthOff = false) && decide (k < 4) && decide (s.dev.conf.slots.length = 4) && decide ((s.dev.encSlot k).pics = [q]) && decide (q.ready (s.dev.encSlot k).cfg = true) && decide (s.dev.encTurn k = true) && decide (q.row ≠ 0) && decide (q.row < encCtuRows (s.dev.encSlot k).cfg) && decide (q.budget < q.spent + size + q.reserve (s.dev.encSlot k).cfg (q.row + 1))) &&
    (let s : State := on fun d => let d : Dev := { d with conf := { d.conf with slots := d.conf.slots.set 3 { cfg := ([3, 0, 0, 7] ++ enc 2 128 ++ enc 2 136 ++ [8, 0, 1, 0] ++ enc 2 1 ++ [0, 63] ++ enc 4 1000000 ++ enc 4 16777215 ++ [16, 127] ++ enc 2 65535 ++ enc 4 0xE8000001 ++ zeros 8 : Bytes), pics := [{ frame := 5, time := 7, num := 1, intra := false, row := 3, sent := 2 }] } } }; d.wr 0 (R.NET_IF_LINK 16) 1; let k : Nat := 3; let nal := (List.replicate 1400 0 : Bytes); let q := ({ frame := 5, time := 7, num := 1, intra := false, row := 3, sent := 2 } : EncPic); let rest := ([] : List EncPic); decide (s.dev.hearthOff = false) && decide (k < 4) && decide (s.dev.conf.slots.length = 4) && decide ((s.dev.encSlot k).pics = q :: rest) && decide (encCtuRows (s.dev.encSlot k).cfg ≤ q.row) && decide (encSlices (s.dev.encSlot k).cfg ≤ q.sent + 1) && decide (nal.length ≤ 1400) && decide ((q.sent = 0 → (s.dev.encSlot k).ahead s.dev.rate q = [])) && decide (s.dev.rd 0 (R.NET_IF_LINK (u8 (s.dev.encSlot k).cfg 24)) = 1)) &&
    (let d : Dev := ({} : Dev).setFn (FnId.enc 3) { st := .starting, running := [cm] }; decide (d.fn (FnId.enc 3) = { st := .starting, running := [cm] } ∧ d.frame % encDiv (d.encSlot 3).cfg = 0)) &&
    (let d : Dev := ({} : Dev).setFn (FnId.enc 3) { st := .stopping, running := [cm] }; decide (d.fn (FnId.enc 3) = { st := .stopping, running := [cm] } ∧ (d.encSlot 3).pics = [])) &&
    (let h : Hdr := hd; let s : State := on id oneBuf; let p : Bytes := [1, 0, 0, 1] ++ enc 2 1 ++ enc 2 1 ++ enc 4 0 ++ enc 4 64 ++ enc 4 8 ++ zeros 4; let a := buf 1 64; let b := buf 1 64; goes (.ingotJob h p) s fun _ d => decide (s.heap.buf (u16 p 4) = some a) && decide (a.lost = false) && decide (s.heap.buf (u16 p 6) = some b) && decide (b.lost = false) && decide (bit (u8 p 3) 1 = false) && decide (d.ing.ctxs.length < 64) && decide (d.ing.queue = []) && decide (d.ing.running = none) && decide (d.ownLoad = false)) &&
    (let h : Hdr := hd; let s : State := on (fun d => { d with ing := { running := some ({ cmd := cm, op := 1, wrap := 0, level := 0, final := true, resume := false, src := 1, dst := 1, srcOff := 0, srcLen := 8, dstOff := 8, ctx := 0 } : IngJob), queue := List.replicate 16 ({ cmd := cm, op := 1, wrap := 0, level := 0, final := true, resume := false, src := 1, dst := 1, srcOff := 0, srcLen := 8, dstOff := 8, ctx := 0 } : IngJob) } }) oneBuf; let p : Bytes := [1, 0, 0, 1] ++ enc 2 1 ++ enc 2 1 ++ enc 4 0 ++ enc 4 64 ++ enc 4 8 ++ zeros 4; let a := buf 1 64; let b := buf 1 64; let j := ({ cmd := cm, op := 1, wrap := 0, level := 0, final := true, resume := false, src := 1, dst := 1, srcOff := 0, srcLen := 8, dstOff := 8, ctx := 0 } : IngJob); goes (.ingotJob h p) s fun _ d => decide (s.heap.buf (u16 p 4) = some a) && decide (a.lost = false) && decide (s.heap.buf (u16 p 6) = some b) && decide (b.lost = false) && decide (bit (u8 p 3) 1 = false) && decide (d.ing.ctxs.length < 64) && decide (d.ing.running = some j)) &&
    (let s : State := on (fun d => { d with ing := { running := some ({ cmd := cm, op := 1, wrap := 0, level := 0, final := true, resume := false, src := 1, dst := 1, srcOff := 0, srcLen := 8, dstOff := 8, ctx := 0 } : IngJob) } }) oneBuf; let j := ({ cmd := cm, op := 1, wrap := 0, level := 0, final := true, resume := false, src := 1, dst := 1, srcOff := 0, srcLen := 8, dstOff := 8, ctx := 0 } : IngJob); let a := buf 1 64; let b := buf 1 64; decide (s.dev.hearthOff = false) && decide (s.dev.ing = { running := some j }) && decide (s.dev.ownLoad = false) && decide (j.resume = false) && decide (s.heap.buf j.src = some a) && decide (a.lost = false) && decide (s.heap.buf j.dst = some b) && decide (b.lost = false)) &&
    (let s : State := on fun d => { d with ing := { running := some ({ cmd := cm, op := 1, wrap := 0, level := 0, final := true, resume := false, src := 1, dst := 1, srcOff := 0, srcLen := 8, dstOff := 8, ctx := 0 } : IngJob) } }; let j := ({ cmd := cm, op := 1, wrap := 0, level := 0, final := true, resume := false, src := 1, dst := 1, srcOff := 0, srcLen := 8, dstOff := 8, ctx := 0 } : IngJob); decide (s.dev.hearthOff = false) && decide (s.dev.ing = { running := some j }) && decide (s.dev.ownLoad = false) && decide (s.heap.buf j.src = none)) &&
    (let h : Hdr := hd; let s : State := on (fun d => { d with ing := { running := some ({ cmd := cm, op := 1, wrap := 0, level := 0, final := true, resume := true, src := 1, dst := 1, srcOff := 0, srcLen := 8, dstOff := 8, ctx := 64 } : IngJob) } }) oneBuf; let p : Bytes := [64, 0, 0, 0]; goes (.ingotFree h p) s fun _ d => decide (d.ing.ctxBusy (u8 p 0) = true)) &&
    (let h : Hdr := hd; let s : State := rdy id; let p : Bytes := [64, 0, 0, 0]; goes (.ingotFree h p) s fun _ d => decide (d.ing.ctxBusy (u8 p 0) = false)) &&
    (let h : Hdr := hd; let s : State := rdy id; let p : Bytes := []; goes (.ingotStatus h p) s fun _ _ => true)) = true := by decide +kernel

end Sys2Proof.Tests
end

section
/-!
Plain register access (R7, R10, R35): what `Dev.writePlain` leaves at the address written and at the others, and what `Dev.peek` returns
of a register that no field outside the store shows through.
-/

namespace Sys2Proof.Machine

variable (d : Dev)

/-! A write to a register (R10). -/

/-- RW bits take the value and W1C bits written 1 clear; the other bits stay. -/
theorem regs_writePlain_self {a : Nat} {r : RegRow} (v : Nat) (hr : rowAt a = some r) :
    rfGet (d.writePlain a v).regs a =
      ((rfGet d.regs a &&& ~~~(BitVec.ofNat 32 r.rw)) ||| (BitVec.ofNat 32 v &&& BitVec.ofNat 32 r.rw)) &&&
        ~~~(BitVec.ofNat 32 v &&& BitVec.ofNat 32 r.w1c) := by
  simp only [Dev.writePlain, hr]
  split <;> exact rfGet_rfSet_self _ _ _

/-- The shadow copy takes the RS bits of a register that has any. -/
theorem shadow_writePlain_self {a : Nat} {r : RegRow} (v : Nat) (hr : rowAt a = some r) :
    rfGet (d.writePlain a v).shadow a =
      if r.rs = 0 then rfGet d.shadow a else BitVec.ofNat 32 v &&& BitVec.ofNat 32 r.rs := by
  simp only [Dev.writePlain, hr]
  split
  · rfl
  · exact rfGet_rfSet_self _ _ _

/-- A write to an address that names no register is ignored (R7, R35). -/
theorem writePlain_of_rowAt_none {a : Nat} (v : Nat) (hr : rowAt a = none) : d.writePlain a v = d := by
  simp only [Dev.writePlain, hr]

theorem regs_writePlain_other {a b : Nat} (v : Nat) (h : b ≠ a) : rfGet (d.writePlain a v).regs b = rfGet d.regs b := by
  cases hr : rowAt a with
  | none => rw [writePlain_of_rowAt_none d v hr]
  | some r =>
    simp only [Dev.writePlain, hr]
    split <;> exact rfGet_rfSet_other _ _ h

theorem shadow_writePlain_other {a b : Nat} (v : Nat) (h : b ≠ a) : rfGet (d.writePlain a v).shadow b = rfGet d.shadow b := by
  cases hr : rowAt a with
  | none => rw [writePlain_of_rowAt_none d v hr]
  | some r =>
    simp only [Dev.writePlain, hr]
    split
    · rfl
    · exact rfGet_rfSet_other _ _ h

/-! A read of a register (R7, R10). -/

theorem peek_of_rowAt_none {a : Nat} (hr : rowAt a = none) : d.peek a = 0 := by
  simp only [Dev.peek, hr]

/-- A register of the store alone reads its stored bits and its shadow copy's RS bits; WO and reserved bits read 0. -/
theorem peek_of_live_nil {a : Nat} {r : RegRow} (hr : rowAt a = some r) (hl : d.live (a / 2 ^ 28 % 16) (a % 2 ^ 28) = []) :
    d.peek a = ((rfGet d.regs a &&& BitVec.ofNat 32 (r.ro ||| r.rw ||| r.w1c)) |||
      (rfGet d.shadow a &&& BitVec.ofNat 32 r.rs)).toNat := by
  simp only [Dev.peek, hr, hl, List.foldl_nil]

end Sys2Proof.Machine

namespace Sys2Proof.Proofs

open Sys2Proof.Machine

/-- Settles O19: the read equation applied to the registers and the shadow copies that the write leaves. -/
theorem plainRegisterReadsAndWrites : Obligations.PlainRegisterReadsAndWrites := by
  unfold Obligations.PlainRegisterReadsAndWrites
  refine ⟨?written, ?others, ?reserved⟩
  case written =>
    intro d a v r hr _ hl
    rw [peek_of_live_nil _ hr (hl _), regs_writePlain_self d v hr, shadow_writePlain_self d v hr]
  case others =>
    intro d a b v h
    exact ⟨regs_writePlain_other d v h.symm, shadow_writePlain_other d v h.symm⟩
  case reserved =>
    intro d a v hr
    exact ⟨peek_of_rowAt_none d hr, writePlain_of_rowAt_none d v hr⟩

end Sys2Proof.Proofs
end

section
/-!
Every row answers a next state (O3), and a step runs the front of the queue (O1). Each meaning is one of six shapes: an Anvil command on the
device or on the heap, or an event on the device or on the heap, of the hearth side or not. Each shape answers once for all its rows.
-/

namespace Sys2Proof.Machine

/-- An outcome goes on from `s`: it is a next state, with the queue as it was. -/
def Answers (s : State) (o : Host.Outcome State Fault Refusal) : Prop := ∃ t, o = .next t ∧ t.pending = s.pending

theorem anvil_answers (sp : OpSpec) (h : Hdr) (p : Bytes) (i : Instr) (body : Cmd → Dev → Dev × Rep) (s : State) :
    Answers s (anvil sp h p i body s) :=
  let ⟨t, ht, hq, _⟩ := anvil_total sp h p i body s
  ⟨t, ht, hq⟩

theorem anvilH_answers (sp : OpSpec) (h : Hdr) (p : Bytes) (i : Instr) (body : Cmd → Heap → Dev → Heap × Dev × Rep) (s : State) :
    Answers s (anvilH sp h p i body s) := anvilH_total sp h p i body s

theorem event_answers (f : Dev → Dev) (s : State) : Answers s (event f s) := ⟨_, event_next f s, rfl⟩

theorem eventH_answers (f : Heap → Dev → Heap × Dev) (s : State) : Answers s (eventH f s) := ⟨_, eventH_next f s, rfl⟩

theorem hearthEvent_answers (f : Dev → Dev) (s : State) : Answers s (hearthEvent f s) := event_answers _ s

theorem hearthEventH_answers (f : Heap → Dev → Heap × Dev) (s : State) : Answers s (hearthEventH f s) := eventH_answers _ s

/-- Each row of the table, by the shape of its meaning. -/
theorem exec_answers (i : Instr) (s : State) : Answers s (exec i s) := by
  unfold exec
  cases i
  case bellowsSetpoint | commit | filmUpdate | eyeScan | tapTest | thmSet =>
    dsimp only [execBellowsSetpoint, execCommit, execFilmUpdate, execEyeScan, execTapTest, execThmSet]
    exact anvil_answers ..
  case identity | status | abort | sessionOpen | sessionClose | keySet | stackSet | modeSet | eventSelect | eventReplay | regRead |
      bufRead | raymodelSet | raymodelGet | aimSet | planishLoad | planishClone | planishSelect | planishRead | planishStatus |
      decodeStreamSet | decodeStreamEnable | decodePriority | decodeAssign | decodeStatus | decodeEvents | synSourceSet |
      synSourceGet | synConfig | synStatus | synGrateSet | layerSet | layerStatus | fenceOp | blit | rasterSet | rasterEnable |
      genlockSet | rasterStatus | signatureRead | panelCurveSet | filmTableSet | filmConfig | filmEnable | filmStatus |
      panelRetain | quenchConfig | projCurveSet | quenchStatus | lampEnable | lampChannelSet | lampTableSet | lampSetpoint |
      lampClear | lampNodes | lampNodeAccess | bellowsLoopSet | bellowsCoeffSet | bellowsSwap | bellowsEnable | bellowsStatus |
      linkEnable | linkStatus | lanePower | netPortSet | netPortEnable | netIfSet | netPairSet | netAnvilSet | netStatus |
      netPairStatus | timeSet | timeRead | ptpSet | ptpStatus | ptpSamples | tpoSet | tciSet | tciRead | memStatus | memTimingSet |
      memFreq | memTest | memNbrSet | clkStatus | clkConfig | clkSelect | camSet | camPipeSet | camStatsSet | camStatus | trimRun |
      trimRead | trimWrite | thmStatus | thmAck | hkRead | tinkerSwitch | bootcfgSet | ageSet | ageReplan | ageSample | ashStatus |
      ashRead | ashNote | ashClear | updateStage | updateActivate | updateStatus | encStreamSet | encStreamEnable | encViewSet |
      encKey | encStatus | ingotJob | ingotFree | ingotStatus =>
    exact anvil_answers ..
  case regWrite | regModify | bufCreate | bufWrite | bufFree | surfUpload | surfaceCreate | surfaceFree | camEnable =>
    exact anvilH_answers ..
  case lampTransitionDone | lanePowerDone | cpWrite | cpRead | cpStatus | cpAbandon | fragmentTimeout | ashSummary |
      damperFwdLoss | damperFwdRestore | damperLaneLoss | laneReverseDone | timeFwd | flueSynthHoldover | damperCommitPart |
      damperRegRead | pixelRun | bulkWrite | pfail | credit | frameReport | event | regReply | telemetry | returnHeartbeatSend |
      frameStart | latchLine | lineSend | fsyncInEdge | fsyncLost | filmFrameStart | filmPulseEnd | powerFail | parkStep |
      powerReturn | slotStart | lampTransaction | lampReplyTimeout | lostNodePoll | lampEnumerate | lampWritesDone | bellowsTick |
      markerRound | laneLoss | hello | backStatus | eqReq | lstat | trainPhaseAdvance | linkPhaseTimeout | listenRetry |
      linkTransitionDone | laneRetrain | linkStartupSequence | sleepBurst | memRefresh | tinkerCoreSwitch | hkRoundEnd |
      flueThermalShutdown | ashAppend | ashScan | ageSampleTick | replanRun | resetRelease | flueResetRelease | pwrShutdownWrite |
      pwrFlueResetWrite | flueResetAssert | housekeepingSample | ashClearDone =>
    exact event_answers ..
  case damperRegWrite | startupStageComplete | railComparatorTrip | resetAssert =>
    exact eventH_answers ..
  case planishLoadDone | planishCloneDone | planishRetireDone | decodeTransitionDone | commitCaptureComplete | filmTableLoadDone |
      portTransitionDone | memFreqDone | memTestDone | trimJobDone | heldReplyEnqueue | sessionIdleTimeout | authOpenTimeout |
      flitGroupReplay | fabricHeartbeat | fabricLinkDown | fabricLinkRestore | hobWatchdogTimeout | viewReplace | cellCheckFail |
      creditRegrant | timeFwdSend | abandon | damperReplyTimeout | rtpPacketRx | pathPacketRx | mergeWindowSweep | pathDown |
      ssrcTimeout | sliceSegmentParse | ctuRowReconstruct | accessUnitClose | uncompressedPictureClose | pictureLate | pickTime |
      stripDeal | stripBegin | stripComplete | stripLineSend | stripRescue | stripDeadlineMiss | redoneStripComplete |
      excusedLineSend | monitorStrip | layerRelease | bindingPoint | ethFrameRx | portLinkChange | ptpAnnounceRx | ptpSyncRx |
      delayRespRx | delayReqTimeout | announceTimeout | holdLimitExpire | ppsInEdge | ppsMissing | captureEdge | tpoFire |
      ptpAdjGo | ptpIncrWrite | ptpTimeLatchRead | twinHeartbeatRx | twinHeartbeatMissing | mr4Poll | actWindowStart |
      memChannelFreqChange | bufferReplace | mapMirrorRecreate | refLoss | refValid | mainLockLoss | pllLockAcquire | mainReturn |
      spareLockLoss | camLost | cciWrite | cciListTimeout | coreSelftestDone | stateTableCheck | updateSwap | updateActivateDone |
      irqDoorbell | irqClaim | irqComplete | groupHoldoffEnd | irqWake | encPictureTime | encRowCode | encSliceSend |
      encTransitionDone | damperHalfJoin | pwrSafeWrite | ptpFollowUpRx | delayReqSend | updateStageDone | standbyPatchReady |
      tinkerDomainStop =>
    exact hearthEvent_answers ..
  case surfUploadDone | surfaceFreeComplete | bltFillStart | bltCopyStart | bltConvertStart | blitComplete | eyeScanDone |
      tapTestDone | camTransitionDone | ingotJobRun | hobDieFail | memRequest | scrubRead | dqsRetrack | memRequestTimeout |
      channelFail | camFrameStart | camLineRx | camFrameEnd | camFrameTimeout | pipeLineTake | registerWrite =>
    exact hearthEventH_answers ..

end Sys2Proof.Machine

namespace Sys2Proof.Proofs

open Sys2Proof.Machine

/-- Settles O3: each row's meaning has one of the six shapes, and each shape answers a next state. -/
theorem everyCommandAnswers : Obligations.EveryCommandAnswers := exec_answers

/-- Settles O1: with a command in front, the step's own case split is decided. -/
theorem stepRunsFront : Obligations.StepRunsFront := by
  intro c rest d hp
  rfl

end Sys2Proof.Proofs
end

section
/-!
From `exec` to a claim's own words: what an Anvil command that may begin answers, and what an event does, given the equation of the row's
meaning. The claims are then about the body alone.
-/

namespace Sys2Proof.Machine

/-! Anvil commands that may begin. -/

section
variable {i : Instr} {sp : OpSpec} {h : Hdr} {p : Bytes}

theorem anvil_of_mayBegin {body : Cmd → Dev → Dev × Rep} {s : State} (hs : opSpec i = some sp) (hh : i.hdr? = some h) (hp : i.params = p)
    (hm : mayBegin i s = true) : anvil sp h p i body s =
      .next (s.withDev (finish (begunCmd i s) (body (begunCmd i s) (begunDev i s)).1 (body (begunCmd i s) (begunDev i s)).2)) :=
  hp ▸ anvil_of_begins (gate_of_mayBegin hs hh hm)

/-- The claim of a command whose body does `eff` and answers `rep` where `cond` holds. -/
theorem ends_of_anvil {body : Cmd → Dev → Dev × Rep} {cond : Cmd → Dev → Prop} {eff : Cmd → Dev → Dev} {rep : Cmd → Dev → Rep}
    (hs : opSpec i = some sp) (hh : i.hdr? = some h) (he : ∀ s, exec i s = anvil sp h i.params i body s)
    (hb : ∀ c d, cond c d → body c d = (eff c d, rep c d)) : Ends i cond eff rep := by
  intro s hm hc
  rw [he, anvil_of_mayBegin hs hh rfl hm, hb _ _ hc]

theorem endsOn_of_anvilH {body : Cmd → Heap → Dev → Heap × Dev × Rep} {cond : Cmd → Heap → Dev → Prop} {eff : Cmd → Heap → Dev → Heap × Dev}
    {rep : Cmd → Heap → Dev → Rep} (hs : opSpec i = some sp) (hh : i.hdr? = some h) (he : ∀ s, exec i s = anvilH sp h i.params i body s)
    (hb : ∀ c hp d, cond c hp d → body c hp d = ((eff c hp d).1, (eff c hp d).2, rep c hp d)) : EndsOn i cond eff rep := by
  intro s hm hc
  rw [he, anvilH_of_begins (gate_of_mayBegin hs hh hm), hb _ _ _ hc]

end

/-! Events. -/

section
variable {i : Instr}

theorem occurs_of_event {f : Dev → Dev} {cond : Dev → Prop} {eff : Dev → Dev} (he : ∀ s, exec i s = event f s)
    (hf : ∀ d, cond d → f d = eff d) : Occurs i cond eff := by
  intro s hc
  rw [he, event_next, hf _ hc]

/-- The hearth side acts while it is neither held in reset nor shut down (R455, R516). -/
theorem hearthEvent_on {f : Dev → Dev} {s : State} (h : s.dev.hearthOff = false) : hearthEvent f s = .next (s.withDev (f s.dev)) := by
  simp [hearthEvent, event_next, h]

theorem hearthEventH_on {f : Heap → Dev → Heap × Dev} {s : State} (h : s.dev.hearthOff = false) :
    hearthEventH f s = .next (s.withBoth (f s.heap s.dev)) := by
  simp [hearthEventH, eventH_next, h]

theorem occurs_of_hearthEvent {f : Dev → Dev} {cond : Dev → Prop} {eff : Dev → Dev} (he : ∀ s, exec i s = hearthEvent f s)
    (hf : ∀ d, cond d → d.hearthOff = false ∧ f d = eff d) : Occurs i cond eff := by
  intro s hc
  obtain ⟨hon, hd⟩ := hf _ hc
  rw [he, hearthEvent_on hon, hd]

theorem occursOn_of_eventH {f : Heap → Dev → Heap × Dev} {cond : Heap → Dev → Prop} {eff : Heap → Dev → Heap × Dev}
    (he : ∀ s, exec i s = eventH f s) (hf : ∀ hp d, cond hp d → f hp d = eff hp d) : OccursOn i cond eff := by
  intro s hc
  rw [he, eventH_next, hf _ _ hc]

theorem occursOn_of_hearthEventH {f : Heap → Dev → Heap × Dev} {cond : Heap → Dev → Prop} {eff : Heap → Dev → Heap × Dev}
    (he : ∀ s, exec i s = hearthEventH f s) (hf : ∀ hp d, cond hp d → d.hearthOff = false ∧ f hp d = eff hp d) : OccursOn i cond eff := by
  intro s hc
  obtain ⟨hon, hd⟩ := hf _ _ hc
  rw [he, hearthEventH_on hon, hd]

end

end Sys2Proof.Machine
end

section
/-!
The damper's messages (R25, R27, R30): what a message that is sent, queued or taken changes at most, and which registers it leaves.
-/

namespace Sys2Proof.Machine

variable (d : Dev)

/-! Reads of registers. -/

theorem rd_congr {d e : Dev} (h : d.regs = e.regs) (k : Nat) (g : Fld) : d.rd k g = e.rd k g := by
  simp only [Dev.rd, h]

theorem rd_hwm_addr {die k : Nat} {f g : Fld} (v : Nat) (h : regAddr k g.off ≠ regAddr die f.off) : (d.hwm die f v).rd k g = d.rd k g :=
  rd_wr_addr d _ h

@[simp] theorem rd_setFlueEnd (f : Nat) (e : FlueEnd) (k : Nat) (g : Fld) : (d.setFlueEnd f e).rd k g = d.rd k g := rfl

/-! Forward messages. -/

theorem fwdPut_frame (die field ty : Nat) (w : List Nat) :
    let t := d.fwdPut die field ty w
    t = { d with dmp := t.dmp, out := t.out } := by
  simp only [Dev.fwdPut]
  split <;> rfl

@[simp] theorem fwdPut_regs (die field ty : Nat) (w : List Nat) : (d.fwdPut die field ty w).regs = d.regs := by rw [fwdPut_frame]

theorem fwdSend_frame (die ty : Nat) (w : List Nat) (why : Option AccessFor) (n : Nat) :
    let t := d.fwdSend die ty w why n
    t = { d with dmp := t.dmp, out := t.out } := by
  simp only [Dev.fwdSend]
  rw [fwdPut_frame]
  cases why <;> rfl

/-- A message leaves on a half that is ON with the next SEQ of its TYPE there (R27). -/
theorem fwdPut_out {die : Nat} (field ty : Nat) (w : List Nat) (h : d.rd 0 (R.DMP_HALF_ON (die - 8)) = 1) :
    (d.fwdPut die field ty w).out = .damper (die - 8) (damperBlocks field 0 ty (seqOf d.dmp.fwdSeq die ty) w) :: d.out := by
  simp only [Dev.fwdPut]
  exact congrArg Dev.out (if_pos h)

theorem fwdPut_dmp (die field ty : Nat) (w : List Nat) : (d.fwdPut die field ty w).dmp = { d.dmp with
    fwdSeq := amPut d.dmp.fwdSeq (die * 256 + ty) ((seqOf d.dmp.fwdSeq die ty + 1) % 65536) } := by
  simp only [Dev.fwdPut]
  split <;> rfl

/-- The SEQ of another half or TYPE is as before. -/
theorem seqOf_fwdPut_other {die ty k u : Nat} (field : Nat) (w : List Nat) (h : k * 256 + u ≠ die * 256 + ty) :
    seqOf (d.fwdPut die field ty w).dmp.fwdSeq k u = seqOf d.dmp.fwdSeq k u := by
  rw [fwdPut_dmp]
  exact amGet_amPut_other _ _ _ h

/-! Return messages. -/

theorem backPut_frame (f : Nat) (m : RetMsg) :
    let t := d.backPut f m
    t = { d with dmp := t.dmp, out := t.out } := rfl

/-- A message queued on a flue die's return queue changes the queue and that die's counters (R25). -/
theorem retPut_frame (f : Nat) (m : RetMsg) :
    let t := d.retPut f m
    t = { d with regs := t.regs, dmp := t.dmp } := by
  intro t
  have ht : t = d.retPut f m := rfl
  clear_value t
  unfold Dev.retPut at ht
  dsimp only at ht
  repeat' split at ht
  all_goals subst ht; rfl

/-- The registers of another die are as before. -/
theorem rd_retPut {f k : Nat} {g : Fld} (m : RetMsg) (hk : k ≠ 8 + f) (hg : g.off < 2 ^ 28) : (d.retPut f m).rd k g = d.rd k g := by
  have other {o : Nat} (ho : o < 2 ^ 28) : regAddr k g.off ≠ regAddr (8 + f) o := regAddr_die hg ho hk
  have hwm (e : Dev) (v : Nat) : (e.hwm (8 + f) R.DMP_RQ_HWM v).rd k g = e.rd k g := rd_hwm_addr e v (other (by decide))
  have merged (e : Dev) : (e.bump (8 + f) R.DMP_RQ_MERGED).rd k g = e.rd k g := rd_bump_addr e 1 (other (by decide))
  have discard (e : Dev) (n : Nat) : (e.bump (8 + f) R.DMP_RQ_DISCARD n).rd k g = e.rd k g := rd_bump_addr e n (other (by decide))
  unfold Dev.retPut
  dsimp only
  repeat' split
  all_goals simp only [hwm, merged, discard, rd_setFlueEnd]

end Sys2Proof.Machine
end

section
/-!
The time bases and PTP (R362–R370): what a change of MEDIA's state, a step, a correction and a choice of master each leave of the settings and
of the exchanges.
-/

namespace Sys2Proof.Machine

variable (d : Dev)

/-! Settings. -/

@[simp] theorem setPtp_ptp (f : Ptp → Ptp) : (d.setPtp f).time.ptp = f d.time.ptp := rfl
@[simp] theorem setPtp_t (f : Ptp → Ptp) : (d.setPtp f).time.t = d.time.t := rfl
@[simp] theorem rd_setPtp (f : Ptp → Ptp) (k : Nat) (g : Fld) : (d.setPtp f).rd k g = d.rd k g := rfl
@[simp] theorem now_setPtp (f : Ptp → Ptp) (b : Nat) : (d.setPtp f).now b = d.now b := rfl
@[simp] theorem setTpo_ptp (n : Nat) (f : Tpo → Tpo) : (d.setTpo n f).time.ptp = d.time.ptp := rfl
@[simp] theorem setTpo_t (n : Nat) (f : Tpo → Tpo) : (d.setTpo n f).time.t = d.time.t := rfl
@[simp] theorem setTci_ptp (n : Nat) (f : Tci → Tci) : (d.setTci n f).time.ptp = d.time.ptp := rfl
@[simp] theorem setTci_t (n : Nat) (f : Tci → Tci) : (d.setTci n f).time.t = d.time.t := rfl

/-! MEDIA's state (R367). -/

@[simp] theorem mediaState_time (st : Nat) : (d.mediaState st).time = d.time := rfl

theorem rd_mediaState {st : Nat} (h : st < 4) : (d.mediaState st).rd 0 R.PTP_STATE_MEDIA = st := by
  rw [Dev.mediaState, rd_wr_field (f := R.PTP_STATE_REPORTS_LOCK) (g := R.PTP_STATE_MEDIA) _ _ rfl (by decide) (by decide), rd_wr_self _ _ _ _ (by decide) (by decide)]
  exact Nat.mod_eq_of_lt h

/-- A change of the genlock source is reported by flue die 0 (R213). -/
theorem sourceLost_frame :
    let t := d.sourceLost
    t = { d with regs := t.regs, dmp := t.dmp, ras := t.ras } := by
  simp only [Dev.sourceLost, Dev.useSource, Dev.flueEvent]
  split
  · split
    · rfl
    · rw [retPut_frame]
  · rfl

@[simp] theorem sourceLost_time : d.sourceLost.time = d.time := by rw [sourceLost_frame]

theorem rd_sourceLost {k : Nat} {g : Fld} (hk : k ≠ 8) (hg : g.off < 2 ^ 28) : d.sourceLost.rd k g = d.rd k g := by
  simp only [Dev.sourceLost, Dev.useSource, Dev.flueEvent]
  split
  · split
    · rfl
    · rw [rd_retPut _ _ hk hg]; rfl
  · rfl

theorem reacquire_ptp : d.reacquire.time.ptp =
    { d.time.ptp with good := 0, bad := 0, incrs := [], sync := none, twoStep := none, heldAt := none } := by
  rw [Dev.reacquire, sourceLost_time]; rfl

@[simp] theorem reacquire_t : d.reacquire.time.t = d.time.t := by
  rw [Dev.reacquire, sourceLost_time]; rfl

theorem rd_reacquire : d.reacquire.rd 0 R.PTP_STATE_MEDIA = if d.time.ptp.master.isSome || d.time.ptp.usesPps then 1 else 0 := by
  rw [Dev.reacquire, rd_sourceLost _ (by decide) (by decide), rd_mediaState _ (by split <;> decide)]
  rfl

/-! Increments and steps (R362, R364). -/

/-- An increment set while LOCKED is recorded; nothing else of PTP moves. -/
theorem setIncr_ptp (b v : Nat) : ∃ l, (d.setIncr b v).time.ptp = { d.time.ptp with incrs := l } := by
  simp only [Dev.setIncr]
  split <;> exact ⟨_, rfl⟩

@[simp] theorem setIncr_t (b v : Nat) : (d.setIncr b v).time.t = d.time.t := by
  simp only [Dev.setIncr]
  split <;> rfl

@[simp] theorem raise_time (k : Nat) : (d.raise k).time = d.time := by rw [raise_frame]

@[simp] theorem tpoFire_ptp (n : Nat) (late : Bool) : (d.tpoFire n late).time.ptp = d.time.ptp := by
  cases late <;> simp [Dev.tpoFire]

@[simp] theorem tpoFire_t (n : Nat) (late : Bool) : (d.tpoFire n late).time.t = d.time.t := by
  cases late <;> simp [Dev.tpoFire]

/-- A step moves its base alone, and leaves PTP as it is. -/
theorem stepBase_ptp_t (b v : Nat) : (d.stepBase b v).time.ptp = d.time.ptp ∧ (d.stepBase b v).time.t = d.time.t.set b (v % baseWrap) := by
  unfold Dev.stepBase
  extract_lets old was e moved clk ras e' now grid shut time e''
  have he : e.time = { d.time with t := d.time.t.set b (v % baseWrap) } := by simp only [e, raise_time, bump_time]; rfl
  have he' : e'.time = e.time := by simp only [e']; split <;> rfl
  have hs : e''.time.ptp = d.time.ptp ∧ e''.time.t = d.time.t.set b (v % baseWrap) := by simp only [e'', time, he', he, and_self]
  clear_value e''
  refine List.foldlRecOn (motive := fun x : Dev => x.time.ptp = d.time.ptp ∧ x.time.t = d.time.t.set b (v % baseWrap)) _ _ hs ?_
  intro x hx n _
  dsimp only
  split
  · simpa only [tpoFire_ptp, tpoFire_t] using hx
  · exact hx

@[simp] theorem stepBase_ptp (b v : Nat) : (d.stepBase b v).time.ptp = d.time.ptp := (stepBase_ptp_t d b v).1

/-- The base stepped reads the value given (R364). -/
theorem now_stepBase {b : Nat} (v : Nat) (hb : b < d.time.t.length) : (d.stepBase b v).now b = v % baseWrap := by
  rw [Dev.now, (stepBase_ptp_t d b v).2]
  simp [hb]

/-- HOLDOVER begins now (R367): its time is kept, the runs of the servo end. -/
theorem holdover_ptp : ∃ l, d.holdover.time.ptp = { d.time.ptp with heldAt := some (d.now 3), good := 0, bad := 0, incrs := l } := by
  unfold Dev.holdover
  extract_lets x e
  have he : ∃ l, e.time.ptp = { d.time.ptp with incrs := l } := by
    simp only [e]
    split
    · exact ⟨_, rfl⟩
    · exact setIncr_ptp _ _ _
  have hn : e.now 3 = d.now 3 := by
    simp only [e]
    split
    · rfl
    · simp only [Dev.now, setIncr_t]
  obtain ⟨l, he⟩ := he
  refine ⟨l, ?_⟩
  simp only [sourceLost_time, mediaState_time, setPtp_ptp, he, hn, x]

theorem rd_holdover : d.holdover.rd 0 R.PTP_STATE_MEDIA = 3 := by
  rw [Dev.holdover, rd_sourceLost _ (by decide) (by decide), rd_mediaState _ (by decide)]

/-! The servo (R367). -/

/-- A run of the servo leaves the exchange it runs on. -/
theorem servo_exchange (off : Int) :
    (d.servo off).time.ptp.sync = d.time.ptp.sync ∧ (d.servo off).time.ptp.twoStep = d.time.ptp.twoStep := by
  unfold Dev.servo
  extract_lets x e good bad e1 st e2
  have h1 : e1.time.ptp.sync = d.time.ptp.sync ∧ e1.time.ptp.twoStep = d.time.ptp.twoStep := ⟨rfl, rfl⟩
  have h2 : e2.time.ptp.sync = d.time.ptp.sync ∧ e2.time.ptp.twoStep = d.time.ptp.twoStep := by
    simp only [e2]
    repeat' split
    · simpa using h1
    · simpa using h1
    · exact h1
  split
  · exact ⟨rfl, rfl⟩
  · split
    · simpa using h2
    · obtain ⟨l, hl⟩ := setIncr_ptp (e2.freeVal 64).2 0 (incrMin + (e2.freeVal 64).1 % (incrMax - incrMin + 1))
      change (((e2.freeVal 64).2.setIncr 0 (incrMin + (e2.freeVal 64).1 % _)).time.ptp.sync = _ ∧
        ((e2.freeVal 64).2.setIncr 0 (incrMin + (e2.freeVal 64).1 % _)).time.ptp.twoStep = _)
      rw [hl]
      exact h2

/-- The exchange of a Sync is held as it is seen. -/
theorem syncSeen_exchange (t1 t2 : Nat) :
    (d.syncSeen t1 t2).time.ptp.sync = some (t1, t2) ∧ (d.syncSeen t1 t2).time.ptp.twoStep = none := by
  unfold Dev.syncSeen
  extract_lets e
  split
  · exact ⟨rfl, rfl⟩
  · exact servo_exchange e _

/-! Masters (R366). -/

theorem best_congr {x y : Ptp} (hm : x.masters = y.masters) (ha : x.ifA = y.ifA) : x.best = y.best := by
  simp only [Ptp.best, hm, ha]

/-- The best master heard is the one followed; the masters heard and the interfaces stay. -/
theorem followBest_ptp :
    d.followBest.time.ptp.masters = d.time.ptp.masters ∧ d.followBest.time.ptp.ifA = d.time.ptp.ifA ∧
      d.followBest.time.ptp.master = d.time.ptp.best := by
  unfold Dev.followBest
  extract_lets x best was e
  have he : e.time.ptp.masters = d.time.ptp.masters ∧ e.time.ptp.ifA = d.time.ptp.ifA ∧ e.time.ptp.master = d.time.ptp.best := ⟨rfl, rfl, rfl⟩
  have heard (v : Nat) : (e.wr 0 R.PTP_STATE_IF_B v).reacquire.time.ptp.masters = d.time.ptp.masters ∧
      (e.wr 0 R.PTP_STATE_IF_B v).reacquire.time.ptp.ifA = d.time.ptp.ifA ∧
      (e.wr 0 R.PTP_STATE_IF_B v).reacquire.time.ptp.master = d.time.ptp.best := by
    simpa only [reacquire_ptp, wr_time] using he
  have held : e.holdover.time.ptp.masters = d.time.ptp.masters ∧ e.holdover.time.ptp.ifA = d.time.ptp.ifA ∧
      e.holdover.time.ptp.master = d.time.ptp.best := by
    obtain ⟨l, hl⟩ := holdover_ptp e
    simpa only [hl] using he
  clear_value e best was
  rcases best with _ | m <;> rcases was with _ | o <;> dsimp only
  case none.none => exact he
  case none.some => split; exacts [held, he]
  case some.none => split; exacts [he, by split; exacts [he, heard _]]
  case some.some => split; exacts [he, by split; exacts [he, heard _]]

end Sys2Proof.Machine
end

section
/-! PTP's commands and messages, and the flue dies' clocks (O53). -/

namespace Sys2Proof.Machine

/-! Bytes of a report. -/

@[simp] theorem enc_length (n v : Nat) : (enc n v).length = n := by
  induction n with
  | zero => rfl
  | succ n ih => simp [enc, ih]

@[simp] theorem zeros_length (n : Nat) : (zeros n).length = n := List.length_replicate

/-- The first byte of a report that begins with a one-byte field. -/
theorem u8_enc_one (v : Nat) (b : Bytes) : u8 (enc 1 v ++ b) 0 = v % 256 := by
  simp [u8, enc]

variable (d : Dev)

/-! Commands. -/

/-- IGMP reports only leave. -/
theorem igmpReports_frame (l : List Nat) : l.foldl Dev.igmpReport d = { d with out := (l.foldl Dev.igmpReport d).out } := by
  induction l generalizing d with
  | nil => rfl
  | cons i l ih => rw [List.foldl_cons, ih]; rfl

theorem igmpReports_time (l : List Nat) : (l.foldl Dev.igmpReport d).time = d.time := by rw [igmpReports_frame]

theorem rd_igmpReports (l : List Nat) (k : Nat) (g : Fld) : (l.foldl Dev.igmpReport d).rd k g = d.rd k g :=
  rd_congr (by rw [igmpReports_frame]) k g

theorem ptpSet_takes (h : Hdr) (p : Bytes) (s : State) (hm : mayBegin (.ptpSet h p) s = true) :
    ∃ t : Dev, exec (.ptpSet h p) s = .next (s.withDev (t.finalReply (begunCmd (.ptpSet h p) s) St.done 0 [])) ∧
      t.time.ptp.domain = u8 p 0 ∧ t.time.ptp.ifA = u8 p 1 ∧ t.time.ptp.ifB = u8 p 2 ∧ t.time.ptp.flags = u8 p 3 ∧
      t.time.ptp.lockNs = u16 p 4 ∧ t.time.ptp.hold = u16 p 6 ∧ t.time.ptp.annT = u8 p 8 ∧
      t.rd 0 R.PTP_STATE_MEDIA = if t.time.ptp.master.isSome || bit (u8 p 3) 1 then 1 else 0 := by
  rw [exec_ptpSet, execPtpSet, anvil_of_mayBegin (p := p) rfl rfl rfl hm]
  refine ⟨_, rfl, ?_⟩
  simp only [igmpReports_time, rd_igmpReports, rd_reacquire, reacquire_ptp, setPtp_ptp, true_and]
  rfl

theorem ptpStatus_reports (h : Hdr) (p : Bytes) (s : State) (hm : mayBegin (.ptpStatus h p) s = true) :
    ∃ data, exec (.ptpStatus h p) s = .next (s.withDev ((begunDev (.ptpStatus h p) s).finalReply (begunCmd (.ptpStatus h p) s) St.done 0 data)) ∧
      data.length = 28 ∧ u8 data 0 = (begunDev (.ptpStatus h p) s).rd 0 R.PTP_STATE_MEDIA := by
  rw [exec_ptpStatus, execPtpStatus, anvil_of_mayBegin (p := p) rfl rfl rfl hm]
  refine ⟨_, rfl, by simp, ?_⟩
  simp only [List.append_assoc]
  rw [u8_enc_one]
  exact Nat.mod_eq_of_lt (Nat.lt_trans (rd_lt _ _ _) (by decide))

/-! Messages received. -/

/-- The first master heard is followed at once, and MEDIA acquires (R366, R367). -/
theorem ptpAnnounce_first {m : Master} {lg : Int} (tlv : Bool) (hi : d.isPtpIf m.iface = true) (hlo : -3 ≤ lg) (hhi : lg ≤ 1)
    (hnone : d.time.ptp.masters = []) (hmaster : d.time.ptp.master = none) (hpps : d.time.ptp.usesPps = false)
    (hhost : d.time.ptp.servoHost = false) :
    let t := d.ptpAnnounce m d.time.ptp.domain lg tlv
    t.time.ptp.masters = [m] ∧ t.time.ptp.master = some m ∧ t.rd 0 R.PTP_STATE_MEDIA = 1 := by
  intro t
  have hrange : ¬(d.time.ptp.domain ≠ d.time.ptp.domain ∨ lg < -3 ∨ lg > 1) := by omega
  let e := d.setPtp fun x => { x with masters := [m], tlv := x.tlv || tlv }
  have ht : t = e.followBest := by
    simp only [t, e, Dev.ptpAnnounce, hi, hrange, hnone, not_true_eq_false, if_false, List.any_nil, Bool.false_eq_true, List.nil_append]
  have hbest : e.time.ptp.best = some m := rfl
  obtain ⟨hms, -, hm⟩ := followBest_ptp e
  refine ⟨by rw [ht, hms]; rfl, by rw [ht, hm, hbest], ?_⟩
  have hmedia : t = ((e.setPtp fun x => { x with master := some m, lostAt := none }).wr 0 R.PTP_STATE_IF_B
      (b2n (m.iface = e.time.ptp.ifB))).reacquire := by
    have hw : e.time.ptp.master = none := hmaster
    have hp : e.time.ptp.usesPps = false := hpps
    have hh : e.time.ptp.servoHost = false := hhost
    simp only [ht, Dev.followBest, hbest, hw, hp, hh, Option.isSome_some, if_true, Bool.false_eq_true, if_false, false_and]
  rw [hmedia, rd_reacquire]
  rfl

/-- The Follow_Up of the Sync that waits completes its exchange (R365). -/
theorem ptpFollow_completes {m : Master} {i port q t1 cr t2 : Nat} (hi : d.isPtpIf i = true) (hm : d.time.ptp.master = some m)
    (hmi : m.iface = i) (hmp : m.port = port) (hw : d.time.ptp.twoStep = some (q, cr, t2)) :
    d.ptpFollow i port d.time.ptp.domain q t1 = d.syncSeen (t1 + cr) t2 := by
  simp [Dev.ptpFollow, hi, hm, hmi, hmp, hw]

/-- The answer to the Delay_Req outstanding forms a record and a path delay (R367, R383). -/
theorem ptpDelayResp_forms {m : Master} {i port q t1 t2 t3 t4 : Nat} (hi : d.isPtpIf i = true) (hm : d.time.ptp.master = some m)
    (hmi : m.iface = i) (hmp : m.port = port) (hr : d.time.ptp.req = some (q, t3)) (hs : d.time.ptp.sync = some (t1, t2)) :
    (d.ptpDelayResp i port d.time.ptp.domain q t4).time.ptp = { d.time.ptp with
      req := none, noAnswer := 0, delays := (roundFree (((t2 : Int) - t1) + ((t4 : Int) - t3)) 2 :: d.time.ptp.delays).take 16,
      next := (d.time.ptp.next + 1) % 2 ^ 32,
      samples := (d.time.ptp.samples ++ [PtpSample.mk d.time.ptp.next (t1 % 2 ^ 64) (t2 % 2 ^ 64) (t3 % 2 ^ 64) (t4 % 2 ^ 64)]).drop
        (d.time.ptp.samples.length + 1 - 64) } := by
  simp [Dev.ptpDelayResp, hi, hm, hmi, hmp, hr, hs]

/-! PPS_IN (R368). -/

/-- A capture takes a record and raises its source; it leaves MEDIA and PTP. -/
theorem capture_time (n : Nat) (rising : Bool) :
    (d.capture_ n rising).time.ptp = d.time.ptp ∧ (d.capture_ n rising).time.t = d.time.t := by
  unfold Dev.capture_
  dsimp only
  repeat' split
  all_goals simp only [raise_time, wr_time, bump_time, setTci_ptp, setTci_t, and_self]

/-- The second given applies at the edge. -/
theorem ppsEdge_steps {k : Nat} (hp : d.time.ptp.usesPps = true) (hk : d.time.ptp.ppsSec = some k) (ht : d.time.t.length = 4) :
    d.ppsEdge.now 0 = k * secTicks % baseWrap ∧ d.ppsEdge.time.ptp.ppsSec = none := by
  obtain ⟨hcp, hct⟩ := capture_time d 4 true
  unfold Dev.ppsEdge
  extract_lets e sec e1 e2
  have hu : e.time.ptp.usesPps = true := by rw [hcp]; exact hp
  have hs : sec = some k := by simp only [sec, e, hcp, hk]
  have h2 : e2.time.ptp.ppsSec = none ∧ e2.time.t = d.time.t := by
    simp only [e2]
    split
    · rw [reacquire_ptp, reacquire_t]; exact ⟨rfl, hct⟩
    · exact ⟨rfl, hct⟩
  clear_value e2 sec
  subst hs
  simp only [hu, not_true_eq_false, if_false, stepBase_ptp]
  exact ⟨now_stepBase _ _ (by rw [h2.2, ht]; decide), h2.1⟩

/-! The flue dies' clocks (R32, R421). -/

@[simp] theorem setSynth_regs (f : Nat) (g : FlueSynth → FlueSynth) : (d.setSynth f g).regs = d.regs := rfl

theorem rd_setSynth (f : Nat) (g : FlueSynth → FlueSynth) (k : Nat) (x : Fld) : (d.setSynth f g).rd k x = d.rd k x := rfl

theorem synth_setSynth {f : Nat} (g : FlueSynth → FlueSynth) (h : f < d.clk.synth.length) :
    (d.setSynth f g).clk.synth.getD f {} = g (d.clk.synth.getD f {}) := by
  simp [Dev.setSynth, List.getD, h]

@[simp] theorem synth_length_setSynth (f : Nat) (g : FlueSynth → FlueSynth) : (d.setSynth f g).clk.synth.length = d.clk.synth.length := by
  simp [Dev.setSynth]

/-- A die that takes forward messages is one of the two flue dies. -/
theorem takesForward_flue {die : Nat} (h : d.takesForward die = true) : die = 8 ∨ die = 9 := by
  simp only [Dev.takesForward, Bool.and_eq_true, Bool.or_eq_true, decide_eq_true_eq] at h
  exact h.1.1

/-- A good TIME_FWD lengthens the run; the eighth in a row locks (R421). -/
theorem timeFwd_counts (f carried : Nat) (h : f < d.clk.synth.length) :
    ((d.timeFwd f carried).clk.synth.getD f {}).valid = (d.clk.synth.getD f {}).valid + 1 ∧
      (7 ≤ (d.clk.synth.getD f {}).valid → (d.timeFwd f carried).rd (8 + f) R.CLK_FR_STATE = 1) := by
  unfold Dev.timeFwd
  extract_lets die copy err e x e1 e2
  have h1 : (e1.clk.synth.getD f {}).valid = (d.clk.synth.getD f {}).valid + 1 := by
    simp only [e1, synth_setSynth e _ h]; rfl
  have h2 : (e2.clk.synth.getD f {}).valid = (d.clk.synth.getD f {}).valid + 1 ∧
      (7 ≤ (d.clk.synth.getD f {}).valid → e2.rd die R.CLK_FR_STATE = 1) := by
    simp only [e2]
    split
    · exact ⟨h1, fun _ => rd_wr_self _ _ _ _ (by decide) (by decide)⟩
    · next hlt => exact ⟨h1, fun h7 => absurd (Nat.succ_le_succ h7) hlt⟩
  have hl : f < e2.clk.synth.length := by
    have : e2.clk = e1.clk := by simp only [e2]; split <;> rfl
    rw [this]
    simpa only [e1, synth_length_setSynth, e, wr_clk] using h
  split
  · exact h2
  · dsimp only
    rw [synth_setSynth, rd_setSynth, rd_wr_addr _ _ (regAddr_off (by decide))]
    · exact h2
    · exact hl

/-- A TIME_FWD that fails its check is counted and ends the run (R421). -/
theorem timeFwd_bad (die w0 w1 : Nat) (s : State) (ht : s.dev.takesForward die = true) (hl : s.dev.clk.synth.length = 2) :
    ∃ t : Dev, exec (.timeFwd die w0 w1 .crc) s = .next (s.withDev t) ∧ (t.clk.synth.getD (die - 8) {}).valid = 0 ∧
      t.rd die R.DMP_CRC_ERR = min (s.dev.rd die R.DMP_CRC_ERR + 1) (2 ^ 32 - 1) := by
  refine ⟨(s.dev.bump die R.DMP_CRC_ERR).setSynth (die - 8) fun x => { x with valid := 0 }, ?_, ?_, ?_⟩
  · rw [exec_timeFwd, execTimeFwd, event_next]
    simp [ht, Dev.badMessage]
  · rw [synth_setSynth]
    have := takesForward_flue _ ht
    simp only [bump_clk, hl]
    omega
  · rw [rd_setSynth]
    exact rd_bump_self _ _ _ _ (by decide) (by decide)

theorem timeFwd_good (die w0 w1 : Nat) (s : State) (ht : s.dev.takesForward die = true) (hl : s.dev.clk.synth.length = 2) :
    ∃ t : Dev, exec (.timeFwd die w0 w1 .good) s = .next (s.withDev t) ∧
      (t.clk.synth.getD (die - 8) {}).valid = (s.dev.clk.synth.getD (die - 8) {}).valid + 1 ∧
      (7 ≤ (s.dev.clk.synth.getD (die - 8) {}).valid → t.rd die R.CLK_FR_STATE = 1) := by
  have hd := takesForward_flue _ ht
  have hs : 8 + (die - 8) = die := by omega
  have hc := timeFwd_counts s.dev (die - 8) (w0 / 65536 * (10 ^ 9 * 65536) + w1 / 2 ^ 32 * 65536 + w1 / 65536 % 65536) (by omega)
  rw [hs] at hc
  refine ⟨_, ?_, hc⟩
  rw [exec_timeFwd, execTimeFwd, event_next]
  simp [ht]

/-- Without TIME_FWD the synthesizer holds over (R421). -/
theorem flueSynthHoldover_holds (die : Nat) (s : State) (hd : die = 8 ∨ die = 9) (hst : s.dev.rd die R.CLK_FR_STATE ≠ 2)
    (hl : s.dev.clk.synth.length = 2) : ∃ t : Dev, exec (.flueSynthHoldover die) s = .next (s.withDev t) ∧ t.rd die R.CLK_FR_STATE = 2 ∧
      t.rd die R.CLK_FR_HOLDOVERS = min (s.dev.rd die R.CLK_FR_HOLDOVERS + 1) (2 ^ 32 - 1) ∧ (t.clk.synth.getD (die - 8) {}).valid = 0 := by
  rw [exec_flueSynthHoldover, execFlueSynthHoldover, event_next]
  have hguard : ¬((die ≠ 8 ∧ die ≠ 9) ∨ s.dev.rd die R.CLK_FR_STATE = 2) := by omega
  simp only [hguard, if_false]
  generalize ((s.dev.clk.synth.getD (die - 8) {}).ppb.filter fun e => s.dev.within e.1 (10 ^ 9)).map (·.2) = l
  let e := (s.dev.wr die R.CLK_FR_STATE 2).bump die R.CLK_FR_HOLDOVERS
  have hstate : e.rd die R.CLK_FR_STATE = 2 := by
    rw [rd_bump_addr _ _ (regAddr_off (by decide)), rd_wr_self _ _ _ _ (by decide) (by decide)]; rfl
  have hcount : e.rd die R.CLK_FR_HOLDOVERS = min (s.dev.rd die R.CLK_FR_HOLDOVERS + 1) (2 ^ 32 - 1) := by
    rw [rd_bump_self _ _ _ _ (by decide) (by decide), rd_wr_addr _ _ (regAddr_off (by decide))]; rfl
  have hsynth (x : Dev) (hx : x.clk = s.dev.clk) : ((x.setSynth (die - 8) fun x => { x with valid := 0 }).clk.synth.getD (die - 8) {}).valid = 0 := by
    rw [synth_setSynth]
    rw [hx, hl]; omega
  refine ⟨_, rfl, ?_⟩
  simp only [rd_setSynth]
  split
  · exact ⟨hstate, hcount, hsynth _ rfl⟩
  · refine ⟨?_, ?_, hsynth _ rfl⟩
    · rw [rd_wr_addr _ _ (regAddr_off (by decide))]; exact hstate
    · rw [rd_wr_addr _ _ (regAddr_off (by decide))]; exact hcount

/-- TIME_FWD leaves on both halves, each copy with its SEQ (R27, R32). -/
theorem timeFwdSend_both (s : State) (hon : s.dev.hearthOff = false) (h0 : s.dev.rd 0 (R.DMP_HALF_ON 0) = 1)
    (h1 : s.dev.rd 0 (R.DMP_HALF_ON 1) = 1) : ∃ t : Dev, exec .timeFwdSend s = .next (s.withDev t) ∧
      let ws := [s.dev.media / (10 ^ 9 * 65536) * 65536, s.dev.media % (10 ^ 9 * 65536) / 65536 * 2 ^ 32 + s.dev.media % 65536 * 65536]
      let w (k : Nat) : Output := .damper (k - 8) (damperBlocks 15 0 0x04 (seqOf s.dev.dmp.fwdSeq k 0x04) ws)
      t.out = w 9 :: w 8 :: s.dev.out := by
  refine ⟨_, by rw [exec_timeFwdSend, execTimeFwdSend, hearthEvent_on hon], ?_⟩
  intro ws w
  let e := s.dev.fwdPut 8 15 4 ws
  have he : e.rd 0 (R.DMP_HALF_ON 1) = 1 := by rw [rd_congr (fwdPut_regs ..), h1]
  have hq : seqOf e.dmp.fwdSeq 9 4 = seqOf s.dev.dmp.fwdSeq 9 4 := seqOf_fwdPut_other _ _ _ (by decide)
  have hs : flueDies.foldl (fun d k => if d.rd 0 (R.DMP_HALF_ON (k - 8)) = 0 then d else d.fwdPut k 15 0x04 ws) s.dev = e.fwdPut 9 15 4 ws := by
    simp only [flueDies, List.foldl_cons, List.foldl_nil, Nat.reduceSub, h0, Nat.one_ne_zero, if_false]
    exact if_neg (by rw [he]; decide)
  have hout : (e.fwdPut 9 15 4 ws).out = w 9 :: e.out := by
    rw [fwdPut_out (die := 9) _ _ _ _ he, hq]
  rw [hs, hout]
  exact congrArg _ (fwdPut_out (die := 8) _ _ _ _ h0)

end Sys2Proof.Machine

namespace Sys2Proof.Proofs

open Sys2Proof.Machine

/-- Settles O53: each clause is a law of the command or message above, read at the row's own meaning. -/
theorem ptpFollowsMastersAndFlueClocksFollow : Obligations.PtpFollowsMastersAndFlueClocksFollow := by
  unfold Obligations.PtpFollowsMastersAndFlueClocksFollow
  refine ⟨ptpSet_takes, ptpStatus_reports, ?samples, ?announce, ?discard, ?sync, ?follow, ?delayReq, ?delayResp, ?unanswered, ?dropped,
    ?limit, ?pps, ?missing, timeFwdSend_both, timeFwd_good, timeFwd_bad, flueSynthHoldover_holds⟩
  case samples =>
    intro h p
    exact ends_of_anvil (sp := specPtpSamples) rfl rfl (fun _ => rfl) fun _ _ _ => rfl
  case announce =>
    intro i port a b c v e g n dom lg tlv ad s hon hi hdom hlo hhi hms hm hp hh
    subst hdom
    exact ⟨_, by rw [exec_ptpAnnounceRx, execPtpAnnounceRx, hearthEvent_on hon],
      ptpAnnounce_first _ (m := ⟨i, port, a, b, c, v, e, g, n, ad⟩) tlv hi hlo hhi hms hm hp hh⟩
  case discard =>
    intro i port a b c v e g n dom lg tlv ad
    refine occurs_of_hearthEvent (exec_ptpAnnounceRx · ..) ?_
    rintro d ⟨hon, hi, hbad⟩
    simp [hon, Dev.ptpAnnounce, hi, hbad]
  case sync =>
    intro i port dom lg q t1 m
    refine occurs_of_hearthEvent (exec_ptpSyncRx · ..) ?_
    rintro d ⟨hon, hi, rfl, hlo, hhi, hm, rfl, rfl⟩
    have hrange : ¬(lg < -7 ∨ lg > -1) := by omega
    simp [hon, Dev.ptpSync, hi, hm, hrange]
  case follow =>
    intro i port dom q t1 m cr t2 s hon hi hdom hm hmi hmp hw
    subst hdom
    refine ⟨_, by rw [exec_ptpFollowUpRx, execPtpFollowUpRx, hearthEvent_on hon], ?_⟩
    rw [ptpFollow_completes _ hi hm hmi hmp hw]
    exact syncSeen_exchange _ _ _
  case delayReq =>
    intro m
    refine occurs_of_hearthEvent exec_delayReqSend ?_
    rintro d ⟨hon, hm⟩
    refine ⟨hon, ?_⟩
    simp only [hm]
    rfl
  case delayResp =>
    intro i port dom q t4 m t1 t2 t3 s hon hi hdom hm hmi hmp hr hs hlen
    subst hdom
    refine ⟨_, by rw [exec_delayRespRx, execDelayRespRx, hearthEvent_on hon], ?_⟩
    rw [ptpDelayResp_forms _ hi hm hmi hmp hr hs]
    refine ⟨rfl, rfl, ?_, rfl⟩
    have : s.dev.time.ptp.samples.length + 1 - 64 = 0 := by omega
    simp only [this, List.drop_zero]
  case unanswered =>
    refine occurs_of_hearthEvent exec_delayReqTimeout ?_
    rintro d ⟨hon, hr⟩
    exact ⟨hon, if_neg hr⟩
  case dropped =>
    intro i port s hon
    refine ⟨_, by rw [exec_announceTimeout, execAnnounceTimeout, hearthEvent_on hon], ?_⟩
    obtain ⟨hms, ha, hm⟩ := followBest_ptp (s.dev.setPtp fun x => { x with masters := x.masters.filter fun m => ¬(m.iface = i ∧ m.port = port) })
    exact ⟨hms, hm.trans (best_congr hms.symm ha.symm)⟩
  case limit =>
    intro s hon hst
    refine ⟨_, by rw [exec_holdLimitExpire, execHoldLimitExpire, hearthEvent_on hon], ?_⟩
    simp only [hst, if_true]
    rw [rd_sourceLost _ (by decide) (by decide), rd_sourceLost _ (by decide) (by decide),
      rd_wr_field (f := R.PTP_STATE_REPORTS_LOCK) (g := R.PTP_STATE_MEDIA) _ _ rfl (by decide) (by decide), rd_wr_self _ _ _ _ (by decide) (by decide)]
    exact ⟨hst, rfl⟩
  case pps =>
    intro k s hon hp hk ht
    exact ⟨_, by rw [exec_ppsInEdge, execPpsInEdge, hearthEvent_on hon], ppsEdge_steps _ hp hk ht⟩
  case missing =>
    intro s hon hp hst
    refine ⟨s.dev.holdover, ?_, rd_holdover _, ?_⟩
    · rw [exec_ppsMissing, execPpsMissing, hearthEvent_on hon, if_pos ⟨hp, hst⟩]
    · obtain ⟨l, hl⟩ := holdover_ptp s.dev
      rw [hl]

end Sys2Proof.Proofs
end

section
/-! The forward path and the lanes of the damper (O23). -/

namespace Sys2Proof.Machine

variable (d : Dev)

/-- The twin role stands in a register of the Mantel die that the loss of a path does not write (R22, R530). -/
theorem twinRole_wr_half (die v : Nat) {f : Nat} (hf : f ≤ 1) : (d.wr die (R.DMP_HALF_ON f) v).twinRole = d.twinRole := by
  refine rd_wr_addr _ _ ?_
  simp only [regAddr]
  omega

@[simp] theorem scanLost_dmp (lane : Nat) : (d.scanLost lane).dmp = d.dmp := by
  simp only [Dev.scanLost]
  rw [completeAll_frame]

@[simp] theorem wrBoth_dmp (h : Nat) (f : Fld) (v : Nat) : (d.wrBoth h f v).dmp = d.dmp := rfl

/-- A flue die reports its locks on the return lane, so it reports nothing while there is none (R325). -/
theorem lockChanged_unreported {die : Nat} (hd : die ≠ 0) (h : d.dmp.ret = none) : d.lockChanged die = d := by
  simp only [Dev.lockChanged, hd, if_false, Dev.lstatReturn, h]

/-- Without a return channel the loss of a lane is known at its flue die alone (R336). -/
theorem damperLaneLost_unreported {i : Nat} (hi : i ≤ 35) (hrole : d.rd (8 + laneHalf i) (R.DMP_LANE_ROLE i) ≠ 3) (hret : d.dmp.ret = none)
    (hmov : d.dmp.moving ≠ some i) : d.damperLaneLost i =
      ((((d.bump (8 + laneHalf i) (R.DMP_LANE_LOSS i)).wr (8 + laneHalf i) (R.DMP_LANE_LOCKED i) 0).wr (8 + laneHalf i) (R.DMP_LANE_ROLE i) 3).wrBoth
        (laneHalf i) (R.DMP_LANE_PHASE i) 2).scanLost (512 + i) := by
  have hn : ¬ i > 35 := by omega
  simp only [Dev.damperLaneLost, hn, hret, hrole, reduceCtorEq, if_false]
  generalize he : (((d.bump (8 + laneHalf i) (R.DMP_LANE_LOSS i)).wr (8 + laneHalf i) (R.DMP_LANE_LOCKED i) 0).wr (8 + laneHalf i)
    (R.DMP_LANE_ROLE i) 3).wrBoth (laneHalf i) (R.DMP_LANE_PHASE i) 2 = e
  have hd : e.dmp = d.dmp := by rw [← he]; rfl
  rw [lockChanged_unreported e (by omega) (hd ▸ hret)]
  exact if_neg (by simp [hd, hret, hmov])

end Sys2Proof.Machine

namespace Sys2Proof.Proofs

open Sys2Proof.Machine

/-- Settles O23: each clause is the row's own case, with the guards of its meaning decided. -/
theorem forwardPathAndLanes : Obligations.ForwardPathAndLanes := by
  unfold Obligations.ForwardPathAndLanes
  refine ⟨?pathLost, ?restored, ?tooFew, ?lostAgain, ?lostAlone, ?lostAgainFamily, ?hearthLane, ?turned, ?order, ?regrant⟩
  case pathLost =>
    intro f hf
    refine occurs_of_event (exec_damperFwdLoss · _) ?_
    intro d hrole
    have hn : ¬ f > 1 := by omega
    simp only [hn, if_false, Dev.pathLost]
    refine if_neg ?_
    rw [twinRole_wr_half _ _ _ hf, twinRole_wr_half _ _ _ hf]
    exact hrole
  case restored =>
    intro f hf
    refine occurs_of_event (exec_damperFwdRestore · _) ?_
    intro d hn
    exact if_neg (by omega)
  case tooFew =>
    intro f _
    refine occurs_of_event (exec_damperFwdRestore · _) ?_
    intro d hn
    exact if_pos (.inr hn)
  case lostAgain =>
    intro i hi
    refine occurs_of_event (exec_damperLaneLoss · _) ?_
    intro d hrole
    simp [Dev.damperLaneLost, hrole]
  case lostAlone =>
    intro i hi
    refine occurs_of_event (exec_damperLaneLoss · _) ?_
    rintro d ⟨hrole, hret, hmov⟩
    exact damperLaneLost_unreported d hi hrole hret hmov
  case lostAgainFamily =>
    intro i hi
    refine occurs_of_event (exec_laneLoss · _) ?_
    intro d hrole
    have hq : (512 + i) / 256 = 2 := by omega
    have hr : (512 + i) % 256 = i := by omega
    simp [Dev.damperLaneLost, hrole, hq, hr]
  case hearthLane =>
    intro i hi
    refine occurs_of_event (exec_laneLoss · _) ?_
    intro d _
    have hq : i / 256 = 0 := by omega
    have hr : i % 256 = i := by omega
    have hn : ¬ i > 16 := by omega
    simp [hq, hr, hn]
  case turned =>
    intro r
    refine occurs_of_event exec_laneReverseDone ?_
    rintro d ⟨hmov, hret⟩
    simp only [hmov, hret]
    rfl
  case order =>
    intro k i hlo hhi
    refine occurs_of_event (exec_lstat · _ _ _) ?_
    intro d _
    simp [hlo, hhi]
  case regrant =>
    intro f s hon hf hret
    refine ⟨_, by rw [exec_creditRegrant, execCreditRegrant, hearthEvent_on hon], ?_⟩
    have hguard : ¬(f > 1 ∨ s.dev.dmp.ret.isNone = true) := by
      rw [← Option.not_isSome, hret]; simpa using hf
    rw [if_neg hguard]
    refine ⟨rfl, List.length_mapIdx .., ?_⟩
    intro n hn
    simp [List.getD, hn]

end Sys2Proof.Proofs
end

section
/-! Return messages at the hearth end (O24). -/

namespace Sys2Proof.Machine

variable (d : Dev)

/-- A message that is not the next, or finds no return channel, changes nothing (R30). -/
theorem received_none {f : Nat} {m : RetMsg} (chk : MsgCheck) (w : Dev → Dev) (h : d.retTake f m = none) : d.received f m chk w = d := by
  simp [Dev.received, h]

/-- The next message acts where it passes its checks, and is counted where it does not (R27). -/
theorem received_some {f : Nat} {m : RetMsg} {e : Dev} (chk : MsgCheck) (w : Dev → Dev) (hon : d.hearthOff = false)
    (h : d.retTake f m = some e) : d.received f m chk w = if chk = .good then w e else e.badMessage 0 chk := by
  have hguard : ¬(d.pwr.hearthHeld = true ∨ d.thm.shutdown = true) := by
    simpa [Dev.hearthOff] using hon
  simp only [Dev.received, hguard, if_false, h]

end Sys2Proof.Machine

namespace Sys2Proof.Proofs

open Sys2Proof.Machine

/-- Settles O24: what is received is the next message of its queue (`received_some`) or nothing (`received_none`). -/
theorem returnMessagesAtTheHearthEnd : Obligations.ReturnMessagesAtTheHearthEnd := by
  unfold Obligations.ReturnMessagesAtTheHearthEnd
  refine ⟨?reportNone, ?report, ?reportBad, ?eventBad, ?eventNone, ?event, ?credit, ?replyStray, ?reply, ?heartbeat, ?resend, ?timeout⟩
  case reportNone =>
    intro f w c
    exact occurs_of_event (exec_frameReport · _ _ _) fun d h => received_none d _ _ h
  case report =>
    intro f w s e hon ht
    rw [exec_frameReport, execFrameReport, event_next, received_some _ _ _ hon ht]; rfl
  case reportBad =>
    intro f w s e hon ht
    rw [exec_frameReport, execFrameReport, event_next, received_some _ _ _ hon ht]; rfl
  case eventBad =>
    intro f k s e hon ht
    rw [exec_event, execEvent, event_next, received_some _ _ _ hon ht]; rfl
  case eventNone =>
    intro f k c
    exact occurs_of_event (exec_event · _ _ _) fun d h => received_none d _ _ h
  case event =>
    intro f k s e hon hk ht
    rw [exec_event, execEvent, event_next, received_some _ _ _ hon ht, Nat.mod_eq_of_lt hk]; rfl
  case credit =>
    intro f w s e hon ht
    rw [exec_credit, execCredit, event_next, received_some _ _ _ hon ht, if_pos rfl]
    refine ⟨_, rfl, rfl, rfl, ?_⟩
    rintro x rfl hx
    simp only [List.foldl_cons, List.foldl_nil, List.getD_eq_getElem?_getD, List.getElem?_modify_eq, List.getElem?_eq_getElem hx]
    rfl
  case replyStray =>
    intro f w s e hon ht hno
    rw [exec_regReply, execRegReply, event_next, received_some _ _ _ hon ht]
    have hfind : (e.dmp.waiting.find? fun a => a.die = 8 + f && a.ty = w / 2 ^ 16 % 256 && a.seq = w % 65536) = none := by
      simpa [and_assoc] using hno
    simp only [if_true, hfind]
  case reply =>
    intro f w s e a rest hon ht hw hdie hty hseq hwhy
    rw [exec_regReply, execRegReply, event_next, received_some _ _ _ hon ht]
    have hfind : ((a :: rest).find? fun a => a.die = 8 + f && a.ty = w / 2 ^ 16 % 256 && a.seq = w % 65536) = some a :=
      List.find?_cons_of_pos (by simp [hdie, hty, hseq])
    simp only [if_true, hw, hfind, hwhy, List.erase_cons_head]
  case heartbeat =>
    intro l
    refine occurs_of_event exec_returnHeartbeatSend ?_
    rintro d ⟨hret, h0, h1, hmov⟩
    simp [hret, h0, h1, hmov]
  case resend =>
    intro s a rest hon hw ha
    rw [exec_damperReplyTimeout, execDamperReplyTimeout, hearthEvent_on hon, hw, List.find?_cons_of_pos (by simp)]
    simp only [Dev.replyTimeout, hw, List.erase_cons_head, ha, if_true]
  case timeout =>
    intro s a rest hon hw ha hwhy
    rw [exec_damperReplyTimeout, execDamperReplyTimeout, hearthEvent_on hon, hw, List.find?_cons_of_pos (by simp)]
    have hn : ¬ a.resends < 3 := by omega
    simp only [Dev.replyTimeout, hw, List.erase_cons_head, hn, if_false, hwhy, Dev.accessTimeout]

end Sys2Proof.Proofs
end

section
/-! What a flue die makes of pixel data, bulk data and commit parts (O25). -/

namespace Sys2Proof.Machine

/-- The addresses a COMMIT part names are those of its words. -/
theorem commitVals_implemented {die : Nat} {v : List Nat} (h : ∀ x ∈ v, implemented die (x / 2 ^ 32 % 2 ^ 32) = true) :
    ((v.map fun x => (x / 2 ^ 32 % 2 ^ 32, x % 2 ^ 32)).any fun e => !implemented die e.1) = false := by
  simpa using h

theorem commitVals_unimplemented {die x : Nat} {v : List Nat} (hx : x ∈ v) (h : implemented die (x / 2 ^ 32 % 2 ^ 32) = false) :
    ((v.map fun x => (x / 2 ^ 32 % 2 ^ 32, x % 2 ^ 32)).any fun e => !implemented die e.1) = true := by
  simpa using ⟨x, hx, h⟩

theorem commitVals_power {x : Nat} {v : List Nat} (hx : x ∈ v) (h : powerBlock (x / 2 ^ 32 % 2 ^ 32) = true) :
    ((v.map fun x => (x / 2 ^ 32 % 2 ^ 32, x % 2 ^ 32)).any fun e => powerBlock e.1) = true := by
  simpa using ⟨x, hx, h⟩

end Sys2Proof.Machine

namespace Sys2Proof.Proofs

open Sys2Proof.Machine

/-- Settles O25: each clause is one way through the checks of the message's meaning, in their order. -/
theorem flueDieTakesPixelAndBulkData : Obligations.FlueDieTakesPixelAndBulkData := by
  unfold Obligations.FlueDieTakesPixelAndBulkData
  refine ⟨?notOn, ?header, ?run, ?bulk, ?bulkOutside, ?bulkBad, ?held, ?unimplemented, ?refused, ?late⟩
  case notOn =>
    intro die w c
    refine occurs_of_event (exec_pixelRun · _ _ _) ?_
    intro d ht
    simp [ht]
  case header =>
    intro die w
    refine occurs_of_event (exec_pixelRun · _ _ _) ?_
    intro d ht
    simp [ht, Dev.badMessage]
  case run =>
    intro die x w _
    refine occurs_of_event (exec_pixelRun · _ _ _) ?_
    rintro d ⟨ht, hmode, hlink, hdie⟩
    have hq : x / 2 ^ 56 % 256 = x / 2 ^ 56 := Nat.mod_eq_of_lt (by omega)
    have hn : ¬ x / 2 ^ 56 > 7 := by omega
    simp only [ht, Dev.badMessage, List.headD_cons, hq, hn, hdie, hmode, List.drop_one, List.tail_cons]
    simp
  case bulk =>
    intro die a n w q
    refine occurs_of_event (exec_bulkWrite · _ _ _ _ _ _) ?_
    rintro d ⟨ht, hans, hin, hdata⟩
    have hfit : ¬(a + n > planeSize ∨ n > 8 * w.length) := by omega
    simp [ht, hans, hfit]
  case bulkOutside =>
    intro die a n w q
    refine occurs_of_event (exec_bulkWrite · _ _ _ _ _ _) ?_
    rintro d ⟨ht, hans, hout⟩
    simp [ht, hans, hout]
  case bulkBad =>
    intro die a n w q
    refine occurs_of_event (exec_bulkWrite · _ _ _ _ _ _) ?_
    intro d ht
    simp [ht, Dev.badMessage]
  case held =>
    intro die w v q
    refine occurs_of_event (exec_damperCommitPart · _ _ _ _) ?_
    rintro d ⟨ht, hans, himp, href, happ, hpass⟩
    simp only [ht, hans, List.drop_one, List.tail_cons, List.headD_cons, commitVals_implemented himp, href, happ, hpass]
    simp
  case unimplemented =>
    intro die w v q x hx
    refine occurs_of_event (exec_damperCommitPart · _ _ _ _) ?_
    rintro d ⟨ht, hans, himp⟩
    simp only [ht, hans, List.drop_one, List.tail_cons, commitVals_unimplemented hx himp]
    simp
  case refused =>
    intro die w v q x hx hpow
    refine occurs_of_event (exec_damperCommitPart · _ _ _ _) ?_
    rintro d ⟨ht, hans, himp, href⟩
    simp only [ht, hans, List.drop_one, List.tail_cons, commitVals_implemented himp, href, commitVals_power hx hpow]
    simp
  case late =>
    intro die w v q p hp
    refine occurs_of_event (exec_damperCommitPart · _ _ _ _) ?_
    rintro d ⟨ht, hans, himp, href, happ, hpass⟩
    simp only [ht, hans, List.drop_one, List.tail_cons, List.headD_cons, commitVals_implemented himp, href, happ, hpass, Option.getD_some, hp]
    simp

end Sys2Proof.Proofs
end

section
/-! Registers through commands, cores and the damper (O20). -/

namespace Sys2Proof.Machine

variable (d : Dev)

/-! Accesses that meet nothing on their way (R34–R36). -/

theorem answeredOf_le (h : Hdr) (die n : Nat) : d.answeredOf h die n ≤ n := by
  unfold Dev.answeredOf
  split
  · exact Nat.le_refl n
  · split
    · exact Nat.zero_le n
    · exact Nat.min_le_right _ _

/-- An access of a hearth die is always answered. -/
theorem answeredOf_hearth (h : Hdr) {die : Nat} (n : Nat) (hk : dieKind die ≠ 4) : d.answeredOf h die n = n := if_pos hk

theorem unreachable_mantel {die : Nat} (hk : dieKind die = 1) : d.unreachable die = false := by
  simp only [Dev.unreachable, hk]

theorem writeRefused_hearth {a : Nat} (hk : dieKind (a / 2 ^ 28) ≠ 4) : d.writeRefused a = false := by
  simp only [Dev.writeRefused, hk, decide_false, Bool.false_and]

theorem readOver_hearth {a : Nat} (hk : dieKind (a / 2 ^ 28) ≠ 4) : d.readOver a = d.regRead a := if_neg hk

theorem writeOver_hearth {a : Nat} (v : Nat) (hp : Heap) (hk : dieKind (a / 2 ^ 28) ≠ 4) : writeOver a v hp d = regWrite a v hp d := if_neg hk

theorem writeOver_flue {a : Nat} (v : Nat) (hp : Heap) (hk : dieKind (a / 2 ^ 28) = 4) : writeOver a v hp d =
    ((regWrite a v hp d).1, (regWrite a v hp d).2.exchange (a / 2 ^ 28) 0x05 (a * 2 ^ 32 + v % 2 ^ 32) ((regWrite a v hp d).2.peek a) 0) :=
  if_pos hk

/-- The Mantel die is die 0 (R4). -/
theorem dieKind_mantel {k : Nat} (h : dieKind k = 1) : k = 0 := by
  unfold dieKind at h
  split at h
  · assumption
  · split at h <;> [skip; split at h] <;> cases h

/-- A register that follows one of the Mantel die within a write is not of a flue die. -/
theorem dieKind_mantel_next {a i : Nat} (h : dieKind (a / 2 ^ 28) = 1) (hi : i < 65536) : dieKind ((a + 4 * i) / 2 ^ 28) ≠ 4 := by
  have ha := dieKind_mantel h
  have hb : (a + 4 * i) / 2 ^ 28 = 0 ∨ (a + 4 * i) / 2 ^ 28 = 1 := by omega
  rcases hb with hb | hb <;> rw [hb] <;> decide

theorem u16_lt (p : Bytes) (o : Nat) : u16 p o < 65536 := by
  have h0 := (p.getD o 0).isLt
  have h1 := (p.getD (o + 1) 0).isLt
  simp only [u16, be, u8]
  omega

/-! The runs of REG_WRITE and REG_MODIFY (R70, R71). -/

/-- One write of a run: what `writeRun` does with the next register. -/
def writeOne (h : Hdr) (a : Nat) (p : Bytes) (n : Nat) (x : Nat × Heap × Dev × Option Nat) (i : Nat) : Nat × Heap × Dev × Option Nat :=
  let die := a / 2 ^ 28
  let (k, hp, d, bad) := x
  match bad with
  | some _ => x
  | none =>
    let v := u32 p (8 + 4 * i)
    let word := (a + 4 * i) * 2 ^ 32 + v
    if d.unreachable die then (k, hp, d, some St.fault)
    else if d.answeredOf h die n ≤ i then (k, hp, d.accessLost die 0x05 word, some St.timeout)
    else if d.writeRefused a then (k, hp, d.exchange die 0x05 word (d.peek (a + 4 * i)) 3, some St.fault)
    else
      let (hp, d) := writeOver (a + 4 * i) v hp d
      (k + 1, hp, d, none)

theorem writeRun_eq (h : Hdr) (a : Nat) (p : Bytes) (n : Nat) (hp : Heap) :
    writeRun h a p n hp d = (List.range n).foldl (writeOne h a p n) (0, hp, d, none) := rfl

/-- One register of the Mantel die after the other, as a plain fold of writes. -/
def mantelWrites (a : Nat) (p : Bytes) (l : List Nat) (x : Heap × Dev) : Heap × Dev :=
  l.foldl (fun x i => regWrite (a + 4 * i) (u32 p (8 + 4 * i)) x.1 x.2) x

/-- No write to the Mantel die fails, so all are made in order. -/
theorem writeRun_mantel (h : Hdr) {a n : Nat} (p : Bytes) (hp : Heap) (hk : dieKind (a / 2 ^ 28) = 1) (hn : n < 65536) :
    writeRun h a p n hp d = (n, (mantelWrites a p (List.range n) (hp, d)).1, (mantelWrites a p (List.range n) (hp, d)).2, none) := by
  have hk4 : dieKind (a / 2 ^ 28) ≠ 4 := by rw [hk]; decide
  suffices hrun : ∀ l : List Nat, (∀ i ∈ l, i < n) → ∀ k hp d, l.foldl (writeOne h a p n) (k, hp, d, none) =
      (k + l.length, (mantelWrites a p l (hp, d)).1, (mantelWrites a p l (hp, d)).2, none) by
    rw [writeRun_eq, hrun _ (fun i hi => List.mem_range.1 hi), List.length_range, Nat.zero_add]
  intro l hl
  induction l with
  | nil => intros; rfl
  | cons i l ih =>
    intro k hp d
    have hi : i < n := hl i List.mem_cons_self
    have hone : writeOne h a p n (k, hp, d, none) i =
        (k + 1, (regWrite (a + 4 * i) (u32 p (8 + 4 * i)) hp d).1, (regWrite (a + 4 * i) (u32 p (8 + 4 * i)) hp d).2, none) := by
      simp [-Nat.reducePow, writeOne, unreachable_mantel d hk, answeredOf_hearth d h n hk4, writeRefused_hearth d hk4,
        writeOver_hearth d _ hp (dieKind_mantel_next hk (Nat.lt_trans hi hn)), hi]
    rw [List.foldl_cons, hone, ih (fun j hj => hl j (List.mem_cons_of_mem i hj)), List.length_cons, Nat.add_assoc, Nat.add_comm 1]
    rfl

/-- Once a write has failed, none is made after it. -/
theorem foldl_writeOne_failed (h : Hdr) (a : Nat) (p : Bytes) (n k : Nat) (hp : Heap) (st : Nat) (l : List Nat) :
    l.foldl (writeOne h a p n) (k, hp, d, some st) = (k, hp, d, some st) := by
  induction l with
  | nil => rfl
  | cons i l ih => exact ih

/-- No register of a die that cannot be reached is written. -/
theorem writeRun_unreachable (h : Hdr) {a n : Nat} (p : Bytes) (hp : Heap) (hn : 1 ≤ n) (hu : d.unreachable (a / 2 ^ 28) = true) :
    writeRun h a p n hp d = (0, hp, d, some St.fault) := by
  obtain ⟨m, rfl⟩ := Nat.exists_eq_add_of_le' hn
  have hone : writeOne h a p (m + 1) (0, hp, d, none) 0 = (0, hp, d, some St.fault) := by simp [-Nat.reducePow, writeOne, hu]
  rw [writeRun_eq, List.range_succ_eq_map, List.foldl_cons, hone, foldl_writeOne_failed]

/-- A run of one register that meets nothing on its way. -/
theorem writeRun_one (h : Hdr) {a : Nat} (p : Bytes) (hp : Heap) (hu : d.unreachable (a / 2 ^ 28) = false)
    (ha : 1 ≤ d.answeredOf h (a / 2 ^ 28) 1) (hr : d.writeRefused a = false) :
    writeRun h a p 1 hp d = (1, (writeOver a (u32 p 8) hp d).1, (writeOver a (u32 p 8) hp d).2, none) := by
  have ha0 : ¬ d.answeredOf h (a / 2 ^ 28) 1 = 0 := by omega
  simp [-Nat.reducePow, writeRun_eq, List.range_succ, writeOne, hu, ha0, hr]

/-- REG_MODIFY of a register of the Mantel die (R71). -/
theorem modifyRun_mantel (h : Hdr) {a : Nat} (mask value : Nat) (hp : Heap) (hk : dieKind (a / 2 ^ 28) = 1) :
    modifyRun h a mask value hp d =
      let w := ((BitVec.ofNat 32 (d.regRead a).1 &&& ~~~(BitVec.ofNat 32 mask)) ||| (BitVec.ofNat 32 value &&& BitVec.ofNat 32 mask) : Word).toNat
      ((regWrite a w hp (d.regRead a).2).1, (regWrite a w hp (d.regRead a).2).2,
        .done (enc 4 (d.regRead a).1 ++ enc 4 ((regWrite a w hp (d.regRead a).2).2.peek a))) := by
  have hk4 : dieKind (a / 2 ^ 28) ≠ 4 := by rw [hk]; decide
  have hw := writeRefused_hearth (d.regRead a).2 hk4
  simp [-Nat.reducePow, modifyRun, unreachable_mantel d hk, answeredOf_hearth d h 2 hk4, readOver_hearth d hk4, hw, writeOver_hearth _ _ _ hk4]

theorem modifyRun_unreachable (h : Hdr) {a : Nat} (mask value : Nat) (hp : Heap) (hu : d.unreachable (a / 2 ^ 28) = true) :
    modifyRun h a mask value hp d = (hp, d, .bad St.fault 0) := by
  simp [-Nat.reducePow, modifyRun, hu]

/-- A REG_REPLY's word holds the value, the status, the type answered and the sequence number in fields of their own (R30). -/
theorem replyWord_fields {value status ty q : Nat} (hs : status < 256) (ht : ty < 256) (hq : q < 65536) (hv : value < 2 ^ 32) :
    replyWord value status ty q / 2 ^ 32 = value ∧ replyWord value status ty q / 2 ^ 24 % 256 = status ∧
    replyWord value status ty q / 2 ^ 16 % 256 = ty ∧ replyWord value status ty q % 65536 = q := by
  unfold replyWord
  omega

end Sys2Proof.Machine

namespace Sys2Proof.Proofs
open Sys2Proof.Machine

/-- Settles O20: each clause is the body of its row where the die can be reached, by the laws of `writeRun` and `modifyRun`. -/
theorem registersThroughCommandsCoresAndTheDamper : Obligations.RegistersThroughCommandsCoresAndTheDamper := by
  unfold Obligations.RegistersThroughCommandsCoresAndTheDamper
  refine ⟨?read, ?readFault, ?write, ?writeFlue, ?writeFault, ?modify, ?modifyFault, ?core, ?coreFlue, ?coreError, ?flueWrite, ?flueRefuses,
    ?flueUnimplemented, ?flueCrc, ?flueRead, ?flueHeader, ?word⟩
  case read =>
    intro h p
    refine ends_of_anvil (sp := specRegRead) rfl rfl (exec_regRead · h p) ?_
    rintro c d ⟨hu, hn⟩
    have hall : d.answeredOf h (u32 p 0 / 2 ^ 28) (u16 p 4) = u16 p 4 := Nat.le_antisymm (answeredOf_le d h _ _) hn
    simp [-Nat.reducePow, hu, hall]
  case readFault =>
    intro h p
    refine ends_of_anvil (sp := specRegRead) rfl rfl (exec_regRead · h p) ?_
    intro c d hu
    simp [-Nat.reducePow, hu]
  case write =>
    intro h p
    refine endsOn_of_anvilH (sp := specRegWrite) rfl rfl (exec_regWrite · h p) ?_
    intro c hp d hk
    simp only [writeRun_mantel d h p hp hk (u16_lt p 4), mantelWrites]
  case writeFlue =>
    intro h p
    refine endsOn_of_anvilH (sp := specRegWrite) rfl rfl (exec_regWrite · h p) ?_
    rintro c hp d ⟨hn, hk, hu, ha, hr⟩
    simp only [hn, writeRun_one d h p hp hu ha hr, writeOver_flue d _ hp hk]
  case writeFault =>
    intro h p
    refine endsOn_of_anvilH (sp := specRegWrite) rfl rfl (exec_regWrite · h p) ?_
    rintro c hp d ⟨hn, hu⟩
    simp only [writeRun_unreachable d h p hp hn hu, if_true, Rep.bad]
  case modify =>
    intro h p
    refine endsOn_of_anvilH (sp := specRegModify) rfl rfl (exec_regModify · h p) ?_
    intro c hp d hk
    exact modifyRun_mantel d h _ _ hp hk
  case modifyFault =>
    intro h p
    refine endsOn_of_anvilH (sp := specRegModify) rfl rfl (exec_regModify · h p) ?_
    intro c hp d hu
    exact modifyRun_unreachable d h _ _ hp hu
  case core =>
    intro a v
    refine occursOn_of_hearthEventH (exec_registerWrite · _ _) ?_
    rintro hp d ⟨hon, himp, hu, hk⟩
    exact ⟨hon, by simp [-Nat.reducePow, himp, hu, hk]⟩
  case coreFlue =>
    intro a v
    refine occursOn_of_hearthEventH (exec_registerWrite · _ _) ?_
    rintro hp d ⟨hon, himp, hu, hk⟩
    exact ⟨hon, by simp [-Nat.reducePow, himp, hu, hk]⟩
  case coreError =>
    intro a v
    refine occursOn_of_hearthEventH (exec_registerWrite · _ _) ?_
    rintro hp d ⟨hon, himp⟩
    exact ⟨hon, by simp [-Nat.reducePow, himp]⟩
  case flueWrite =>
    intro die a v q
    refine occursOn_of_eventH (exec_damperRegWrite · _ _ _ _ _) ?_
    rintro hp d ⟨ht, hans, himp, hr⟩
    simp [ht, hans, himp, hr]
  case flueRefuses =>
    intro die a v q
    refine occursOn_of_eventH (exec_damperRegWrite · _ _ _ _ _) ?_
    rintro hp d ⟨ht, hans, himp, hr⟩
    simp [ht, hans, himp, hr]
  case flueUnimplemented =>
    intro die a v q
    refine occursOn_of_eventH (exec_damperRegWrite · _ _ _ _ _) ?_
    rintro hp d ⟨ht, hans, himp⟩
    simp [ht, hans, himp]
  case flueCrc =>
    intro die a v q
    refine occursOn_of_eventH (exec_damperRegWrite · _ _ _ _ _) ?_
    intro hp d ht
    simp [ht, Dev.badMessage]
  case flueRead =>
    intro die a q
    refine occurs_of_event (exec_damperRegRead · _ _ _ _) ?_
    rintro d ⟨ht, hans, himp⟩
    simp [ht, hans, himp]
  case flueHeader =>
    intro die a q
    refine occurs_of_event (exec_damperRegRead · _ _ _ _) ?_
    intro d ht
    simp [ht, Dev.badMessage]
  case word =>
    intro value status ty q hs ht hq hv
    exact replyWord_fields hs ht hq hv

end Sys2Proof.Proofs
end

section
/-! Strips sent, excused and underrun, and cells that fail (O37). -/

namespace Sys2Proof.Machine

variable (d : Dev)

/-! The outstanding strips. -/

theorem strip_is_iff {t : Strip} {r v i f : Nat} : t.is r v i f = true ↔ t.region = r ∧ t.view = v ∧ t.idx = i ∧ t.frame = f := by
  simp [Strip.is, and_assoc]

/-- A strip replaced under its own name is found there. -/
theorem strip?_setStrip {d : Dev} {r v i f : Nat} {t u : Strip} (ht : d.strip? r v i f = some t) (hu : u.is r v i f = true) :
    (d.setStrip u).strip? r v i f = some u := by
  obtain ⟨rfl, rfl, rfl, rfl⟩ := strip_is_iff.1 hu
  have hkeep : ((fun x : Strip => x.is u.region u.view u.idx u.frame) ∘ fun x : Strip => if x.is u.region u.view u.idx u.frame then u else x) =
      fun x : Strip => x.is u.region u.view u.idx u.frame := by
    funext x
    by_cases hx : x.is u.region u.view u.idx u.frame = true <;> simp [hx, hu]
  have hfound := List.find?_some ht
  simp only [Dev.strip?, Dev.setStrip, List.find?_map, hkeep] at ht ⊢
  simp [ht, hfound]

/-- A lost strip, once excused, is still found by its name. -/
theorem strip?_excuse {d : Dev} {r v i f : Nat} {t : Strip} (ht : d.strip? r v i f = some t) :
    (d.excuse t).strip? r v i f = some { t with excused := true } :=
  strip?_setStrip (d := d.bump (d.countDie t.die) R.SYN_EXCUSED) ht (strip_is_iff.2 (strip_is_iff.1 (List.find?_some ht :)))

@[simp] theorem excuse_hearthOff (t : Strip) : (d.excuse t).hearthOff = d.hearthOff := rfl

/-! What an underrun leaves of the synthesis state (R157). -/

/-- What each step of a fold keeps, the fold keeps. -/
theorem foldl_keeps {α β γ : Type} (g : β → γ) {f : β → α → β} (hf : ∀ b a, g (f b a) = g b) (l : List α) (b : β) :
    g (l.foldl f b) = g b :=
  List.foldlRecOn l f (motive := fun x => g x = g b) rfl fun x hx a _ => (hf x a).trans hx

@[simp] theorem countRays_syn (die : Nat) (c : RayCount) : (d.countRays die c).syn = d.syn := rfl

@[simp] theorem countPartial_syn (hp : Heap) (stopped : Strip → Bool) : (d.countPartial hp stopped).syn = d.syn := by
  refine foldl_keeps Dev.syn ?_ _ d
  intro e t
  split
  · rfl
  · refine (foldl_keeps Dev.syn ?_ _ _).trans rfl
    intro x y
    dsimp only
    split <;> rfl

@[simp] theorem failoverFlag_syn : d.failoverFlag.syn = d.syn := foldl_keeps Dev.syn (by intros; rfl) _ d

@[simp] theorem raise_syn (k : Nat) : (d.raise k).syn = d.syn := by rw [raise_frame]

@[simp] theorem ashPut_syn (ty l : Nat) (b : Bytes) : (d.ashPut ty l b).syn = d.syn := by rw [ashPut_frame]

@[simp] theorem fwdSend_syn (die ty : Nat) (w : List Nat) (why : Option AccessFor) : (d.fwdSend die ty w why).syn = d.syn := by
  rw [fwdSend_frame]

/-- R157: an underrun drops the region's strips of the frame and deals it no more. -/
theorem underrun_syn (hp : Heap) (r v i f k g : Nat) : (d.underrun hp r v i f k g).syn =
    { d.syn with strips := d.syn.strips.filter fun t => !(t.region = r && t.frame = f), dead := ((r, f) :: d.syn.dead).take 16 } := by
  unfold Dev.underrun
  refine (foldl_keeps Dev.syn ?_ _ _).trans ?_
  · intro e n
    split <;> simp
  · simp

end Sys2Proof.Machine

namespace Sys2Proof.Proofs
open Sys2Proof.Machine

/-- Settles O37: each event's branch, with the strips as `setStrip` and `underrun` leave them. -/
theorem stripsAreSentOrUnderrun : Obligations.StripsAreSentOrUnderrun := by
  unfold Obligations.StripsAreSentOrUnderrun
  refine ⟨?leaves, ?waits, ?dropped, ?excused, ?excuse, ?complete, ?missed, ?underrun, ?corrected, ?uncorrectable⟩
  case leaves =>
    intro r v i f t ht
    refine occurs_of_hearthEvent (exec_stripLineSend · ..) ?_
    rintro d ⟨hon, hs, hcred, hdue⟩
    have hall : (d.lineRunsOf t).all d.credited = true := List.all_eq_true.2 hcred
    refine ⟨hon, ?_⟩
    simp only [hs, ht, hall, hdue]
    simp
  case waits =>
    intro r v i f t
    refine occurs_of_hearthEvent (exec_stripLineSend · ..) ?_
    rintro d ⟨hon, hs, hwait⟩
    refine ⟨hon, ?_⟩
    simp only [hs, id]
    refine if_pos (.inr ?_)
    rcases hwait with ⟨e, he, hc⟩ | hdue
    · exact .inl fun hall => by simp [List.all_eq_true.1 hall e he] at hc
    · exact .inr (by simp [hdue])
  case dropped =>
    intro d e hu
    simp [Dev.sendRuns, hu]
  case excused =>
    intro r v i f t hr he hp
    refine occurs_of_hearthEvent (exec_excusedLineSend · ..) ?_
    rintro d ⟨hon, hs⟩
    refine ⟨hon, ?_⟩
    have hsame : ({ t with excused := true } : Strip) = t := by rw [← he]
    have hgo : ¬(¬ t.redone = true ∨ t.phase ≥ 2 ∨ ¬ t.excused = true ∧ ¬ d.reached (earlier (d.needTime r v i f) 2000) = true) := by
      simp [hr, he, Nat.not_le.2 hp]
    simp only [hs, if_neg hgo, hsame]
    simp only [he, if_true]
  case excuse =>
    intro r v i f t s hon hr he hp hs hnear
    have hs' := strip?_excuse hs
    refine ⟨hs', ?_⟩
    simp only [exec_excusedLineSend, execExcusedLineSend, hearthEvent_on hon, hearthEvent_on (s := s.withDev (s.dev.excuse t)) hon]
    simp [hs, hs', hr, he, hnear, Nat.not_le.2 hp, State.withDev]
  case complete =>
    rintro r v i f t ht s ⟨hon, hs⟩
    rw [exec_stripDeadlineMiss, execStripDeadlineMiss, hearthEvent_on hon]
    simp [hs, ht]
  case missed =>
    intro r v i f t s ht hr hon hs hdead
    rw [exec_stripDeadlineMiss, execStripDeadlineMiss, hearthEvent_on hon]
    simp [hs, hr, hdead, Nat.not_le.2 ht]
  case underrun =>
    intro d hp r v i f k g
    rw [underrun_syn]
    refine ⟨by simp, ?_, ?_⟩
    · intro t ht
      simpa [imp_iff_not_or] using (List.mem_filter.1 ht).2
    · intro t ht hne
      exact List.mem_filter.2 ⟨ht, by simpa [imp_iff_not_or] using hne⟩
  case corrected =>
    intro die g c s hon hg hc hup hoff hfault herr
    rw [exec_cellCheckFail, execCellCheckFail, hearthEvent_on hon]
    simp [-List.contains_eq_mem, hup, hoff, hfault, herr, Nat.not_lt.2 hg, Nat.not_lt.2 hc, kvGet]
  case uncorrectable =>
    intro die g c s hon hg hc hup hoff hfault herr
    have hsame : ({ s.dev with syn := { s.dev.syn with cellErr := [] } } : Dev) = s.dev := by rw [← herr]
    rw [exec_cellCheckFail, execCellCheckFail, hearthEvent_on hon]
    simp [-List.contains_eq_mem, hup, hoff, hfault, herr, hsame, Nat.not_lt.2 hg, Nat.not_lt.2 hc, kvGet]

end Sys2Proof.Proofs
end

section
/-! The raster's commands (O38). -/

namespace Sys2Proof.Machine

/-! Fields of a report. -/

theorem u8_append_right {a : Bytes} (b : Bytes) {o : Nat} (h : a.length ≤ o) : u8 (a ++ b) o = u8 b (o - a.length) := by
  simp [u8, List.getElem?_append_right h]

theorem be_append_right (n : Nat) {a : Bytes} (b : Bytes) {o : Nat} (h : a.length ≤ o) : be n (a ++ b) o = be n b (o - a.length) := by
  induction n generalizing o with
  | zero => rfl
  | succ n ih => rw [be, be, u8_append_right b h, ih (Nat.le_succ_of_le h), Nat.succ_sub h]

/-- A field reads back what it was written with, cut to its bytes. -/
theorem be_enc (n v : Nat) (b : Bytes) : be n (enc n v ++ b) 0 = v % 256 ^ n := by
  induction n with
  | zero => simp [be, Nat.mod_one]
  | succ n ih =>
    have htail : be n ([BitVec.ofNat 8 (v / 256 ^ n)] ++ (enc n v ++ b)) 1 = be n (enc n v ++ b) 0 := be_append_right n _ (Nat.le_refl 1)
    have hhead : u8 (enc (n + 1) v ++ b) 0 = v / 256 ^ n % 256 := by simp [u8, enc]
    rw [be, hhead, enc]
    exact (congrArg _ (htail.trans ih)).trans ((Nat.add_comm _ _).trans Nat.mod_pow_succ.symm)

theorem u32_lt (p : Bytes) (o : Nat) : u32 p o < 2 ^ 32 := by
  have h0 := (p.getD o 0).isLt
  have h1 := (p.getD (o + 1) 0).isLt
  have h2 := (p.getD (o + 2) 0).isLt
  have h3 := (p.getD (o + 3) 0).isLt
  simp only [u32, be, u8]
  omega

/-! What the gate has checked of a command that begins. -/

theorem check_of_mayBegin {i : Instr} {sp : OpSpec} {h : Hdr} {s : State} (hs : opSpec i = some sp) (hh : i.hdr? = some h)
    (hm : mayBegin i s = true) : sp.check s h i.params = none := by
  have e : hdrOf i = h := by simp [hdrOf, hh]
  simp only [mayBegin, hs, e, Bool.and_eq_true, Option.isNone_iff_eq_none] at hm
  obtain ⟨⟨⟨_, hcheck⟩, _⟩, _⟩ := hm
  exact hcheck

/-- What a command does under a condition it does under a stronger one. -/
theorem Ends.imp {i : Instr} {cond cond' : Cmd → Dev → Prop} {eff : Cmd → Dev → Dev} {rep : Cmd → Dev → Rep} (he : Ends i cond eff rep)
    (hc : ∀ c d, cond' c d → cond c d) : Ends i cond' eff rep :=
  fun s hm h => he s hm (hc _ _ h)

theorem failIf_eq_none {l : List (Bool × Nat)} : failIf l = none ↔ ∀ e ∈ l, e.1 = false := by
  simp [failIf]

variable (d : Dev)

/-! Shadow registers (R10). -/

theorem rdS_wrS_self (die : Nat) (f : Fld) (v : Nat) (h : f.lo ≤ f.hi) (hh : f.hi < 32) :
    (d.wrS die f v).rdS die f = v % 2 ^ (f.hi + 1 - f.lo) := by
  simp only [Dev.rdS, Dev.wrS, rfGet_rfSet_self]
  exact bits_setBits_self _ _ h hh

theorem rdS_wrS_addr {die k : Nat} {f g : Fld} (v : Nat) (h : regAddr k g.off ≠ regAddr die f.off) :
    (d.wrS die f v).rdS k g = d.rdS k g := by
  simp only [Dev.rdS, Dev.wrS, rfGet_rfSet_other _ _ h]

/-! Accesses of a flue die that are answered (R36). -/

theorem exchange_frame (die ty word v st : Nat) :
    let t := d.exchange die ty word v st
    t = { d with dmp := t.dmp, out := t.out } := by
  simp only [Dev.exchange]
  rw [backPut_frame, fwdPut_frame]

@[simp] theorem rd_exchange (die ty word v st k : Nat) (g : Fld) : (d.exchange die ty word v st).rd k g = d.rd k g :=
  rd_congr (by rw [exchange_frame]) k g

@[simp] theorem rdS_exchange (die ty word v st k : Nat) (g : Fld) : (d.exchange die ty word v st).rdS k g = d.rdS k g := by
  rw [exchange_frame]; rfl

/-- Whether a flue die can answer is a matter of its return queue. -/
theorem canAnswer_congr {d e : Dev} (h : d.dmp = e.dmp) (k : Nat) : d.canAnswer k = e.canAnswer k := by
  simp only [Dev.canAnswer, Dev.flueEnd, h]

@[simp] theorem canAnswer_fwdPut (die field ty : Nat) (w : List Nat) (k : Nat) : (d.fwdPut die field ty w).canAnswer k = d.canAnswer k := by
  simp only [Dev.canAnswer, Dev.flueEnd, fwdPut_dmp]

/-- A message on the return lane takes a SEQ and leaves the queues. -/
@[simp] theorem canAnswer_backPut (f : Nat) (m : RetMsg) (k : Nat) : (d.backPut f m).canAnswer k = d.canAnswer k := by
  have hq : ((d.backPut f m).flueEnd (k - 8)).queue = (d.flueEnd (k - 8)).queue := by
    simp only [Dev.backPut, Dev.flueEnd, Dev.setFlueEnd, send_dmp]
    by_cases hk : k - 8 = f
    · subst hk
      by_cases hl : k - 8 < d.dmp.ends.length <;> simp [List.getD, hl]
    · simp [List.getD, Ne.symm hk]
  simp only [Dev.canAnswer, hq]

@[simp] theorem canAnswer_exchange (die ty word v st k : Nat) : (d.exchange die ty word v st).canAnswer k = d.canAnswer k := by
  simp only [Dev.exchange, canAnswer_backPut, canAnswer_fwdPut]

/-! A command's writes that are all made (R550). -/

section
variable {α : Type} (regOf : α → Nat × Option Fld) (w : Dev → α → Dev)

/-- The address that a write names. -/
def wroteAddr (x : α) : Nat := regAddr (regOf x).1 (((regOf x).2.map Fld.off).getD 0)

/-- One write that is made: with its exchange where it names a register. -/
def flueStep (d : Dev) (x : α) : Dev :=
  if (regOf x).2.isSome then
    (w d x).exchange (regOf x).1 0x05 (wroteAddr regOf x * 2 ^ 32 + (w d x).heldWord (wroteAddr regOf x)) ((w d x).heldWord (wroteAddr regOf x)) 0
  else w d x

/-- Writes of dies that answer and whose registers are never refused are all made, in order. -/
theorem flueRun_all {w : Dev → α → Dev} (hw : ∀ e x k, (w e x).canAnswer k = e.canAnswer k) {xs : List α}
    (hb : ∀ x ∈ xs, (regOf x).2.isSome = true → powerBlock (wroteAddr regOf x) = false) {d : Dev}
    (ha : ∀ x ∈ xs, d.canAnswer (regOf x).1 = true) (k : Nat) :
    flueRun regOf w none k xs d = (k + xs.length, xs.foldl (flueStep regOf w) d, none) := by
  induction xs generalizing d k with
  | nil => rfl
  | cons x xs ih =>
    have hstep (j : Nat) : (flueStep regOf w d x).canAnswer j = d.canAnswer j := by
      unfold flueStep
      split
      · rw [canAnswer_exchange, hw]
      · exact hw d x j
    have hr : ((regOf x).2.isSome && d.writeRefused (wroteAddr regOf x)) = false := by
      cases hs : (regOf x).2.isSome with
      | false => rfl
      | true => simp [Dev.writeRefused, hb x List.mem_cons_self hs]
    rw [flueRun_done d regOf w k x xs hr (ha x List.mem_cons_self)]
    refine (ih (d := flueStep regOf w d x) (fun y hy => hb y (List.mem_cons_of_mem x hy))
      (fun y hy => (hstep _).trans (ha y (List.mem_cons_of_mem x hy))) (k + 1)).trans ?_
    rw [List.length_cons, List.foldl_cons, Nat.add_assoc, Nat.add_comm 1]

end

/-- The writes of a command that is answered where its dies can be reached (R36, R550). -/
theorem flueWrites_all {α : Type} {h : Hdr} {dies : List Nat} {ws : List α} (regOf : α → Nat × Option Fld) {w : Dev → α → Dev} {d : Dev}
    (hup : ∀ k ∈ dies, d.flueUp k = true) (hans : h.answered = none) (hw : ∀ e x k, (w e x).canAnswer k = e.canAnswer k)
    (hb : ∀ x ∈ ws, (regOf x).2.isSome = true → powerBlock (wroteAddr regOf x) = false) (ha : ∀ x ∈ ws, d.canAnswer (regOf x).1 = true) :
    d.flueWrites h dies ws regOf w = (ws.length, ws.foldl (flueStep regOf w) d, none) := by
  rw [flueWrites_reachable d h dies ws regOf w (List.all_eq_true.2 hup), hans, flueRun_all regOf hw hb ha, Nat.zero_add]

theorem all_flueUp_false {dies : List Nat} {k : Nat} (hk : k ∈ dies) (h : d.flueUp k = false) : dies.all d.flueUp = false :=
  List.all_eq_false.2 ⟨k, hk, by simp [h]⟩

theorem flueUp_half {k : Nat} (h : d.flueUp k = true) : d.rd 0 (R.DMP_HALF_ON (k - 8)) = 1 := by
  simp only [Dev.flueUp, Bool.and_eq_true, decide_eq_true_eq] at h
  obtain ⟨⟨⟨hon, _⟩, _⟩, _⟩ := h
  exact hon

/-! RASTER_SET (R207, R221). -/

/-- The registers that a RASTER_SET writes in panel mode, on both dies. -/
def panelWrites (x : Raster) : List (Nat × Fld × Nat) := (flueDies.map fun k => (rasterFields 1 x).map fun e => (k, e.1, e.2)).flatten

/-- One write of RASTER_SET: a shadow register's field, with its exchange. -/
def rasterStep : Dev → Nat × Fld × Nat → Dev := flueStep (fun w => (w.1, some w.2.1)) fun d w => d.wrS w.1 w.2.1 w.2.2

theorem rasterStep_frame (w : Nat × Fld × Nat) :
    let t := rasterStep d w
    t = { d with shadow := t.shadow, dmp := t.dmp, out := t.out } := by
  simp only [rasterStep, flueStep, Option.isSome_some, if_true]
  rw [exchange_frame]
  rfl

theorem rasterSteps_frame (ws : List (Nat × Fld × Nat)) :
    let t := ws.foldl rasterStep d
    t = { d with shadow := t.shadow, dmp := t.dmp, out := t.out } := by
  refine List.foldlRecOn (b := d) ws rasterStep (motive := fun t => t = { d with shadow := t.shadow, dmp := t.dmp, out := t.out }) rfl ?_
  intro e he x _
  exact (rasterStep_frame e x).trans (congrArg (fun y : Dev =>
    { y with shadow := (rasterStep e x).shadow, dmp := (rasterStep e x).dmp, out := (rasterStep e x).out }) he)

theorem rdS_rasterStep_self (k : Nat) (f : Fld) (v : Nat) (h : f.lo ≤ f.hi) (hh : f.hi < 32) :
    (rasterStep d (k, f, v)).rdS k f = v % 2 ^ (f.hi + 1 - f.lo) :=
  (rdS_exchange ..).trans (rdS_wrS_self d k f v h hh)

theorem rdS_rasterStep_addr {j k : Nat} {f g : Fld} (v : Nat) (h : regAddr k g.off ≠ regAddr j f.off) :
    (rasterStep d (j, f, v)).rdS k g = d.rdS k g :=
  (rdS_exchange ..).trans (rdS_wrS_addr d v h)

/-- Writes of other registers leave a shadow register. -/
theorem rdS_rasterSteps_other {ws : List (Nat × Fld × Nat)} {k : Nat} {f : Fld}
    (h : ∀ w ∈ ws, regAddr k f.off ≠ regAddr w.1 w.2.1.off) : (ws.foldl rasterStep d).rdS k f = d.rdS k f :=
  List.foldlRecOn ws rasterStep (motive := fun t => t.rdS k f = d.rdS k f) rfl fun t ht w hw =>
    (rdS_rasterStep_addr t w.2.2 (h w hw)).trans ht

/-- Each of several writes to registers of their own is read back. -/
theorem rdS_rasterSteps {ws : List (Nat × Fld × Nat)} (hp : (ws.map fun w => regAddr w.1 w.2.1.off).Nodup)
    {k v : Nat} {f : Fld} (hmem : (k, f, v) ∈ ws) (h : f.lo ≤ f.hi) (hh : f.hi < 32) (hv : v < 2 ^ (f.hi + 1 - f.lo)) :
    (ws.foldl rasterStep d).rdS k f = v := by
  induction ws generalizing d with
  | nil => cases hmem
  | cons w ws ih =>
    obtain ⟨hw, hrest⟩ := List.pairwise_cons.1 (List.pairwise_map.1 hp)
    rw [List.foldl_cons]
    rcases List.mem_cons.1 hmem with rfl | hin
    · rw [rdS_rasterSteps_other _ hw, rdS_rasterStep_self _ _ _ _ h hh, Nat.mod_eq_of_lt hv]
    · exact ih _ (List.pairwise_map.2 hrest) hin

/-- A legal raster of the panel lies in the fields of its registers. -/
theorem rasterBad_panel {x : Raster} (h : rasterBad 1 x = none) : x.rate < 2 ^ 4 ∧ x.vblank < 2 ^ 8 ∧ x.width < 2 ^ 15 ∧ x.active < 2 ^ 22 := by
  unfold rasterBad at h
  dsimp only at h
  split at h
  · cases h
  · next hv =>
    rw [if_neg (by decide)] at h
    split at h
    · cases h
    · next hg => omega

/-- After the writes both dies hold the raster in their shadow registers. -/
theorem rdS_panelWrites {x : Raster} (h : rasterBad 1 x = none) : ∀ k ∈ flueDies,
    ((panelWrites x).foldl rasterStep d).rdS k R.SCN_RATE = x.rate ∧ ((panelWrites x).foldl rasterStep d).rdS k R.SCN_VBLANK = x.vblank ∧
    ((panelWrites x).foldl rasterStep d).rdS k R.SCN_WIDTH = x.width ∧ ((panelWrites x).foldl rasterStep d).rdS k R.SCN_ACTIVE = x.active := by
  obtain ⟨hr, hv, hw, ha⟩ := rasterBad_panel h
  have hp : ((panelWrites x).map fun w => regAddr w.1 w.2.1.off).Nodup := by
    change (flueDies.flatMap fun k => [R.SCN_RATE, R.SCN_VBLANK, R.SCN_WIDTH, R.SCN_ACTIVE].map fun f => regAddr k f.off).Nodup
    decide
  have hread {k : Nat} {f : Fld} {v : Nat} := rdS_rasterSteps d hp (k := k) (f := f) (v := v)
  have hmem {k : Nat} (hk : k ∈ flueDies) {e : Fld × Nat} (he : e ∈ rasterFields 1 x) : (k, e.1, e.2) ∈ panelWrites x :=
    List.mem_flatten.2 ⟨_, List.mem_map.2 ⟨k, hk, rfl⟩, List.mem_map.2 ⟨e, he, rfl⟩⟩
  intro k hk
  exact ⟨hread (hmem hk (e := (R.SCN_RATE, x.rate)) (by simp [rasterFields])) (by decide) (by decide) hr,
    hread (hmem hk (e := (R.SCN_VBLANK, x.vblank)) (by simp [rasterFields])) (by decide) (by decide) hv,
    hread (hmem hk (e := (R.SCN_WIDTH, x.width)) (by simp [rasterFields])) (by decide) (by decide) hw,
    hread (hmem hk (e := (R.SCN_ACTIVE, x.active)) (by simp [rasterFields])) (by decide) (by decide) ha⟩

/-- RASTER_SET's writes run where both dies can be reached and answer. -/
theorem flueWrites_panel {h : Hdr} {x : Raster} (hup : ∀ k ∈ flueDies, d.flueUp k = true ∧ d.canAnswer k = true) (hans : h.answered = none) :
    d.flueWrites h flueDies (panelWrites x) (fun w => (w.1, some w.2.1)) (fun d w => d.wrS w.1 w.2.1 w.2.2) =
      (8, (panelWrites x).foldl rasterStep d, none) := by
  have h8 : d.canAnswer 8 = true := (hup 8 (by decide)).2
  have h9 : d.canAnswer 9 = true := (hup 9 (by decide)).2
  refine flueWrites_all _ (fun k hk => (hup k hk).1) hans (fun _ _ _ => rfl) ?_ ?_
  · simp [panelWrites, rasterFields, flueDies, wroteAddr, regAddr, powerBlock]
  · simp [panelWrites, rasterFields, flueDies, h8, h9]

/-- The raster that RASTER_SET's parameters give. -/
def rasterParam (p : Bytes) : Raster := ⟨u8 p 1, u16 p 4, u32 p 8, u16 p 12, u16 p 14⟩

/-- RASTER_SET in panel mode finds nothing against it before its writes. -/
def rasterSettable (p : Bytes) (d : Dev) : Prop :=
  d.mode = 1 ∧ u8 p 0 = 0 ∧ (rasterParam p).slotLines = 0 ∧ rasterBad 1 (rasterParam p) = none ∧ (d.fn (FnId.region 0)).st = .off ∧
    d.timingAgrees 0 (rasterParam p) = true

/-- What RASTER_SET in panel mode does: its writes, and the raster held for region 0. -/
def panelRasterSet (x : Raster) (d : Dev) : Dev :=
  { (panelWrites x).foldl rasterStep d with ras := { d.ras with rasters := d.ras.rasters.set 0 (some x) } }

theorem panelRasterSet_frame (x : Raster) :
    let t := panelRasterSet x d
    t = { d with shadow := t.shadow, ras := t.ras, dmp := t.dmp, out := t.out } :=
  congrArg (fun t : Dev => { t with ras := { d.ras with rasters := d.ras.rasters.set 0 (some x) } }) (rasterSteps_frame d (panelWrites x))

theorem panelRasterSet_held (x : Raster) (h : 0 < d.ras.rasters.length) : (panelRasterSet x d).ras.rasters.getD 0 none = some x := by
  simp [panelRasterSet, List.getD, h]

theorem panelRasterSet_others (x : Raster) {k : Nat} (h : k ≠ 0) :
    (panelRasterSet x d).ras.rasters.getD k none = d.ras.rasters.getD k none := by
  simp [panelRasterSet, List.getD, Ne.symm h]

theorem rdS_panelRasterSet (x : Raster) (k : Nat) (f : Fld) : (panelRasterSet x d).rdS k f = ((panelWrites x).foldl rasterStep d).rdS k f := rfl

theorem rasterSet_panel (h : Hdr) (p : Bytes) :
    Ends (.rasterSet h p)
      (fun _ d => rasterSettable p d ∧ (∀ k ∈ flueDies, d.flueUp k = true ∧ d.canAnswer k = true) ∧ h.answered = none)
      (fun _ d => panelRasterSet (rasterParam p) d)
      (fun _ _ => .done) := by
  refine ends_of_anvil (sp := specRasterSet) rfl rfl (exec_rasterSet · h p) ?_
  rintro c d ⟨⟨hmode, hr, hslot, hbad, hoff, htime⟩, hup, hans⟩
  have hw := flueWrites_panel d (x := rasterParam p) hup hans
  have hras : ((panelWrites (rasterParam p)).foldl rasterStep d).ras = d.ras := by rw [rasterSteps_frame]
  have hlen : (panelWrites (rasterParam p)).length = 8 := rfl
  change u16 p 14 = 0 at hslot
  simp only [rasterParam, panelWrites, hslot] at hbad htime hw hras hlen
  simp [-List.length_flatten, -List.map_map, hmode, hr, hslot, hbad, hoff, htime, hw, hlen, hras,
    Dev.regionExists, panelRasterSet, rasterParam, panelWrites]

theorem rasterSet_unreachable (h : Hdr) (p : Bytes) :
    Ends (.rasterSet h p) (fun _ d => rasterSettable p d ∧ d.flueUp 9 = false) (fun _ d => d) (fun _ _ => .bad St.fault 0) := by
  refine ends_of_anvil (sp := specRasterSet) rfl rfl (exec_rasterSet · h p) ?_
  rintro c d ⟨⟨hmode, hr, hslot, hbad, hoff, htime⟩, hdown⟩
  have hall : flueDies.all d.flueUp = false := all_flueUp_false d (by decide) hdown
  have hlen : (panelWrites (rasterParam p)).length = 8 := rfl
  change u16 p 14 = 0 at hslot
  simp only [rasterParam, panelWrites, hslot] at hbad htime hlen
  simp [-List.length_flatten, -List.map_map, hmode, hr, hslot, hbad, hoff, htime, hlen, Dev.regionExists,
    flueWrites_unreachable _ _ _ _ _ _ hall]

/-! RASTER_ENABLE (R222). -/

/-- A request for OFF of a function that is ON begins to stop it (R55). -/
theorem request_stop {k : Nat} (same : Bool) (c : Cmd) (h : (d.fn k).st = .on) :
    d.request k false same c = (d.setFn k { st := .stopping, stored := none, running := [c] }, .accepted, true) := by
  simp only [Dev.request, Fn.request, h]
  rfl

/-- A request that begins a transition and whose dies can be reached and answer is the plain request (R550). -/
theorem requestFlue_done {h : Hdr} {dies : List Nat} {k : Nat} {on same : Bool} {c : Cmd} (hb : (d.request k on same c).2.2 = true)
    (hup : ∀ k ∈ dies, d.flueUp k = true ∧ d.canAnswer k = true) (hans : h.answered = none) :
    d.requestFlue h dies k on same c = d.request k on same c := by
  have hw := flueWrites_all (d := d) (ws := dies) (fun k => (k, none)) (w := fun d _ => d) (fun k hk => (hup k hk).1) hans (fun _ _ _ => rfl)
    (by simp) (fun k hk => (hup k hk).2)
  have hfold : dies.foldl (flueStep (fun k => (k, none)) fun (d : Dev) _ => d) d = d := List.foldl_fixed _
  simp only [Dev.requestFlue, hb, hw, hfold]
  rfl

/-- A request that begins a transition and names a die that cannot be reached is accepted and completes FAULT (R550). -/
theorem requestFlue_unreachable {h : Hdr} {dies : List Nat} {k : Nat} {on same : Bool} {c : Cmd} (hb : (d.request k on same c).2.2 = true)
    (hall : dies.all d.flueUp = false) :
    d.requestFlue h dies k on same c = ((d.finalReply c St.accepted 0 []).complete c St.fault 0, .later, false) := by
  simp only [Dev.requestFlue, hb, flueWrites_unreachable _ _ _ _ _ _ hall]
  rfl

/-- The dies whose links a region's raster uses. -/
def rasterDies (x : Raster) (r : Nat) : List Nat := ((d.linksUsed x.width r).map linkDie).eraseDups

theorem mem_rasterDies {x : Raster} {r k : Nat} : k ∈ rasterDies d x r ↔ k ∈ (d.linksUsed x.width r).map linkDie := List.mem_eraseDups

/-- Panel mode has the region named. -/
theorem rasterModeOk {d : Dev} {r : Nat} (h : d.mode = 1 → r = 0) : (d.mode = 1 ∧ r ≠ 0) = False :=
  eq_false fun ⟨hm, hr⟩ => hr (h hm)

/-- Where it is enabled, the region exists. -/
theorem rasterOnOk {d : Dev} {r v : Nat} (h : v = 1 → d.regionExists r = true) :
    (decide (v = 1) = true ∧ ¬ d.regionExists r = true) = False :=
  eq_false fun ⟨hv, hr⟩ => hr (h (of_decide_eq_true hv))

theorem any_half_true {dies : List Nat} {k : Nat} (hk : k ∈ dies) (h : d.rd 0 (R.DMP_HALF_ON (k - 8)) = 0) :
    (dies.any fun k => d.rd 0 (R.DMP_HALF_ON (k - 8)) = 0) = true :=
  List.any_eq_true.2 ⟨k, hk, by simp [h]⟩

/-- No half of the dies a raster uses is down. -/
theorem any_half_false {dies : List Nat} (h : ∀ k ∈ dies, d.rd 0 (R.DMP_HALF_ON (k - 8)) ≠ 0) :
    (dies.any fun k => d.rd 0 (R.DMP_HALF_ON (k - 8)) = 0) = false :=
  List.any_eq_false.2 fun k hk => by simp [h k hk]

/-! GENLOCK_SET (R224). -/

/-- GENLOCK_SET's two register writes. -/
def genlockWrites (p : Bytes) : List (List (Fld × Nat)) :=
  [[(R.SCN_GL_CTRL_FIRST, u8 p 0), (R.SCN_GL_CTRL_SECOND, u8 p 1), (R.SCN_GL_CTRL_FLAGS, u8 p 2)], [(R.SCN_GL_OFFSET, u32 p 4)]]

def genlockStep : Dev → List (Fld × Nat) → Dev :=
  flueStep (fun w => (8, w.head?.map (·.1))) fun d w => w.foldl (fun d e => d.wr 8 e.1 e.2) d

theorem genlockSteps_frame (p : Bytes) :
    let t := (genlockWrites p).foldl genlockStep d
    t = { d with regs := t.regs, dmp := t.dmp, out := t.out } := by
  simp only [genlockWrites, genlockStep, flueStep, List.foldl_cons, List.foldl_nil, List.head?_cons, Option.map_some, Option.isSome_some, if_true]
  rw [exchange_frame, exchange_frame]
  rfl

theorem rd_genlockSteps {p : Bytes} (h0 : u8 p 0 ≤ 2) (h1 : u8 p 1 ≤ 2) (h2 : u8 p 2 < 16) :
    let t := (genlockWrites p).foldl genlockStep d
    t.rd 8 R.SCN_GL_CTRL_FIRST = u8 p 0 ∧ t.rd 8 R.SCN_GL_CTRL_SECOND = u8 p 1 ∧ t.rd 8 R.SCN_GL_CTRL_FLAGS = u8 p 2 ∧
      t.rd 8 R.SCN_GL_OFFSET = u32 p 4 := by
  simp only [genlockWrites, genlockStep, flueStep, List.foldl_cons, List.foldl_nil, List.head?_cons, Option.map_some, Option.isSome_some, if_true,
    rd_exchange]
  have offset (e : Dev) {g : Fld} (hg : g.off = 0x1500300) : (e.wr 8 R.SCN_GL_OFFSET (u32 p 4)).rd 8 g = e.rd 8 g :=
    rd_wr_addr e _ (regAddr_off (by rw [hg]; decide))
  refine ⟨?_, ?_, ?_, ?_⟩
  · rw [offset _ rfl, rd_exchange, rd_wr_field (f := R.SCN_GL_CTRL_FLAGS) (g := R.SCN_GL_CTRL_FIRST) _ _ rfl (by decide) (by decide),
      rd_wr_field (f := R.SCN_GL_CTRL_SECOND) (g := R.SCN_GL_CTRL_FIRST) _ _ rfl (by decide) (by decide),
      rd_wr_self _ _ _ _ (by decide) (by decide)]
    exact Nat.mod_eq_of_lt (Nat.lt_of_le_of_lt h0 (by decide))
  · rw [offset _ rfl, rd_exchange, rd_wr_field (f := R.SCN_GL_CTRL_FLAGS) (g := R.SCN_GL_CTRL_SECOND) _ _ rfl (by decide) (by decide),
      rd_wr_self _ _ _ _ (by decide) (by decide)]
    exact Nat.mod_eq_of_lt (Nat.lt_of_le_of_lt h1 (by decide))
  · rw [offset _ rfl, rd_exchange, rd_wr_self _ _ _ _ (by decide) (by decide)]
    exact Nat.mod_eq_of_lt h2
  · rw [rd_wr_self _ _ _ _ (by decide) (by decide)]
    exact Nat.mod_eq_of_lt (u32_lt p 4)

/-- What the gate has checked of GENLOCK_SET's settings. -/
theorem genlockSet_checked {h : Hdr} {p : Bytes} {s : State} (hm : mayBegin (.genlockSet h p) s = true) :
    u8 p 0 ≤ 2 ∧ u8 p 1 ≤ 2 ∧ u8 p 2 < 16 := by
  have hc := failIf_eq_none.1 (check_of_mayBegin (sp := specGenlockSet) rfl rfl hm)
  simp [Instr.params] at hc
  omega

/-- Fields written leave the damper. -/
theorem foldl_wr_dmp (k : Nat) (l : List (Fld × Nat)) : (l.foldl (fun d e => d.wr k e.1 e.2) d).dmp = d.dmp := by
  induction l generalizing d with
  | nil => rfl
  | cons e l ih => rw [List.foldl_cons, ih, wr_dmp]

theorem flueWrites_genlock {h : Hdr} (p : Bytes) (hup : d.flueUp 8 = true) (ha : d.canAnswer 8 = true) (hans : h.answered = none) :
    d.flueWrites h [8] (genlockWrites p) (fun w => (8, w.head?.map (·.1))) (fun d w => w.foldl (fun d e => d.wr 8 e.1 e.2) d) =
      (2, (genlockWrites p).foldl genlockStep d, none) := by
  refine flueWrites_all _ (by simpa using hup) hans ?_ ?_ ?_
  · intro e w k
    exact canAnswer_congr (foldl_wr_dmp e 8 w) k
  · simp [genlockWrites, wroteAddr, regAddr, powerBlock]
  · simp [genlockWrites, ha]

theorem genlockSet_done (h : Hdr) (p : Bytes) :
    Ends (.genlockSet h p)
      (fun _ d => 2 * (s32 p 4).natAbs * 65536 * (periodOf d.rate).2 ≤ (periodOf d.rate).1 ∧ d.flueUp 8 = true ∧ d.canAnswer 8 = true ∧
        h.answered = none)
      (fun _ d => (genlockWrites p).foldl genlockStep d) (fun _ _ => .done) := by
  refine ends_of_anvil (sp := specGenlockSet) rfl rfl (exec_genlockSet · h p) ?_
  rintro c d ⟨hoff, hup, ha, hans⟩
  have hw := flueWrites_genlock d p hup ha hans
  generalize periodOf d.rate = q at hoff ⊢
  obtain ⟨a, b⟩ := q
  refine (if_neg (Nat.not_lt.2 hoff)).trans ?_
  simp only [genlockWrites] at hw ⊢
  simp only [hw, Option.getD_none]

/-! RASTER_STATUS (R225). -/

theorem flueRead_reached {h : Hdr} {dies : List Nat} (k : Dev → Dev × Rep) (hup : ∀ k ∈ dies, d.flueUp k = true) (hans : h.answered = none) :
    d.flueRead h dies k = k d := by
  simp [Dev.flueRead, hans, List.all_eq_true.2 hup]

theorem flueRead_unreachable {h : Hdr} {dies : List Nat} (k : Dev → Dev × Rep) (hall : dies.all d.flueUp = false) :
    d.flueRead h dies k = (d, .bad St.fault 0) := by
  simp [Dev.flueRead, hall]

/-- The first bytes of RASTER_STATUS: the regions' states. -/
def regionBytes : Bytes := ((List.range 4).map fun r => enc 1 (d.fn (FnId.region r)).st.num).flatten

theorem regionBytes_length : (regionBytes d).length = 4 := rfl

theorem fnSt_num_lt (x : FnSt) : x.num < 256 := by cases x <;> decide

theorem statusBytes_region (b : Bytes) : u8 (regionBytes d ++ b) 0 = (d.fn (FnId.region 0)).st.num :=
  (u8_enc_one _ _).trans (Nat.mod_eq_of_lt (fnSt_num_lt _))

theorem statusBytes_source (v : Nat) (b : Bytes) : u8 (regionBytes d ++ (enc 1 v ++ b)) 4 = v % 256 := by
  rw [u8_append_right _ (regionBytes_length d).le, regionBytes_length]
  exact u8_enc_one v b

theorem statusBytes_frame (v w n : Nat) (b : Bytes) :
    be 8 (regionBytes d ++ (enc 1 v ++ (enc 1 w ++ (zeros 2 ++ (enc 8 n ++ b))))) 8 = n % 2 ^ 64 := by
  have h : be 8 ((regionBytes d ++ enc 1 v ++ enc 1 w ++ zeros 2) ++ (enc 8 n ++ b)) 8 = be 8 (enc 8 n ++ b) 0 :=
    be_append_right 8 (a := regionBytes d ++ enc 1 v ++ enc 1 w ++ zeros 2) _ (Nat.le_refl 8)
  simp only [List.append_assoc] at h
  rw [h, be_enc, show 256 ^ 8 = 2 ^ 64 by norm_num]

end Sys2Proof.Machine

namespace Sys2Proof.Proofs
open Sys2Proof.Machine

/-- Settles O38: the writes of a command that is answered are all made (`flueRun_all`), and each report is its fields in order. -/
theorem rasterCommands : Obligations.RasterCommands := by
  unfold Obligations.RasterCommands
  refine ⟨?set, ?setFault, ?noRaster, ?dieDown, ?mismatch, ?disable, ?disableFault, ?genlock, ?status, ?statusFault, ?noSignature, ?signatures,
    ?signatureFault⟩
  case set =>
    intro h p s hm d c x hmode hr hslot hbad hoff htime hup hans hlen
    refine ⟨_, rasterSet_panel h p s hm ⟨⟨hmode, hr, hslot, hbad, hoff, htime⟩, hup, hans⟩, panelRasterSet_frame _ _,
      panelRasterSet_held _ _ hlen, fun k hk => panelRasterSet_others _ _ hk, ?_⟩
    intro k hk
    simp only [rdS_panelRasterSet]
    exact rdS_panelWrites _ hbad k hk
  case setFault =>
    intro h p
    refine (rasterSet_unreachable h p).imp ?_
    rintro c d ⟨hmode, hr, hslot, hbad, hoff, htime, hdown⟩
    exact ⟨⟨hmode, hr, hslot, hbad, hoff, htime⟩, hdown⟩
  case noRaster =>
    intro h p
    refine ends_of_anvil (sp := specRasterEnable) rfl rfl (exec_rasterEnable · h p) ?_
    rintro c d ⟨hmode, hregion, hnone⟩
    simp only [rasterModeOk hmode, rasterOnOk hregion, hnone, if_false]
  case dieDown =>
    intro h p x k
    refine ends_of_anvil (sp := specRasterEnable) rfl rfl (exec_rasterEnable · h p) ?_
    rintro c d ⟨hmode, hregion, hx, hk, hhalf⟩
    have hany := any_half_true d ((mem_rasterDies d).2 hk) hhalf
    simp only [rasterDies] at hany
    simp only [rasterModeOk hmode, rasterOnOk hregion, hx, hany, if_false, if_true]
  case mismatch =>
    intro h p x
    refine ends_of_anvil (sp := specRasterEnable) rfl rfl (exec_rasterEnable · h p) ?_
    rintro c d ⟨hmode, hregion, hx, hon, hhalf, htime⟩
    have hany := any_half_false d fun k hk => hhalf k ((mem_rasterDies d).1 hk)
    simp only [rasterDies] at hany
    simp [rasterModeOk hmode, hregion, hx, hany, hon, htime, -List.getD_eq_getElem?_getD]
  case disable =>
    intro h p x
    refine ends_of_anvil (sp := specRasterEnable) rfl rfl (exec_rasterEnable · h p) ?_
    rintro c d ⟨hmode, hx, hoff, hup, hans, hst⟩
    have hany := any_half_false d fun k hk => by
      rw [flueUp_half d (hup k ((mem_rasterDies d).1 hk)).1]; decide
    have hstop := request_stop d true c hst
    have hreq := requestFlue_done d (congrArg (·.2.2) hstop) (fun k hk => hup k ((mem_rasterDies d).1 hk)) hans
    simp only [rasterDies] at hany hreq
    simp [rasterModeOk hmode, hx, hany, hoff, hreq, hstop, -List.getD_eq_getElem?_getD]
  case disableFault =>
    intro h p x k
    refine ends_of_anvil (sp := specRasterEnable) rfl rfl (exec_rasterEnable · h p) ?_
    rintro c d ⟨hmode, hx, hoff, hhalf, hk, hdown, hst⟩
    have hany := any_half_false d fun k hk => hhalf k ((mem_rasterDies d).1 hk)
    have hstop := request_stop d true c hst
    have hreq := requestFlue_unreachable d (h := h) (congrArg (·.2.2) hstop) (all_flueUp_false d ((mem_rasterDies d).2 hk) hdown)
    simp only [rasterDies] at hany hreq
    simp [rasterModeOk hmode, hx, hany, hoff, hreq, -List.getD_eq_getElem?_getD]
  case genlock =>
    intro h p s hm d c hoff hup ha hans
    obtain ⟨h0, h1, h2⟩ := genlockSet_checked hm
    exact ⟨_, genlockSet_done h p s hm ⟨hoff, hup, ha, hans⟩, genlockSteps_frame _ _, rd_genlockSteps _ h0 h1 h2⟩
  case status =>
    intro h p s hm d c hup hans
    rw [exec_rasterStatus, execRasterStatus, anvil_of_mayBegin (p := p) rfl rfl rfl hm, flueRead_reached _ _ hup hans]
    refine ⟨_, rfl, by simp [List.range_succ], ?_⟩
    simp only [List.append_assoc]
    exact ⟨statusBytes_region _ _, statusBytes_source _ _ _, statusBytes_frame _ _ _ _ _⟩
  case statusFault =>
    intro h p
    refine ends_of_anvil (sp := specRasterStatus) rfl rfl (exec_rasterStatus · h p) ?_
    intro c d hdown
    exact flueRead_unreachable d _ (all_flueUp_false d (by decide) hdown)
  case noSignature =>
    intro h p
    refine ends_of_anvil (sp := specSignatureRead) rfl rfl (exec_signatureRead · h p) ?_
    rintro c d ⟨hup, hans, hnone⟩
    rw [flueRead_reached d _ (by simpa using hup) hans]
    simp [hnone, -List.getD_eq_getElem?_getD]
  case signatures =>
    intro h p g r
    refine ends_of_anvil (sp := specSignatureRead) rfl rfl (exec_signatureRead · h p) ?_
    rintro c d ⟨hup, hans, hheld⟩
    rw [flueRead_reached d _ (by simpa using hup) hans]
    simp only [hheld]
  case signatureFault =>
    intro h p
    refine ends_of_anvil (sp := specSignatureRead) rfl rfl (exec_signatureRead · h p) ?_
    intro c d hdown
    exact flueRead_unreachable d _ (all_flueUp_false d List.mem_cons_self hdown)

end Sys2Proof.Proofs
end

section
/-!
The opcode map and the packet's bytes (R38–R40, R59): each Anvil row's opcode names the row again, and a packet laid out by R38 reads back.
-/

namespace Sys2Proof.Machine

/-! The opcode map (R59). -/

/-- The opcode of a row names, with its header and parameters, the row itself, and every row is implemented. -/
theorem commandOf_opSpec {i : Instr} {sp : OpSpec} {h : Hdr} (hs : opSpec i = some sp) (hh : i.hdr? = some h) :
    commandOf sp.op h i.params = some i ∧ sp.known = true := by
  cases i <;> cases hs <;> cases hh <;> exact ⟨rfl, rfl⟩

/-- An opcode fits its field (R38). -/
theorem op_lt_of_opSpec {i : Instr} {sp : OpSpec} (hs : opSpec i = some sp) : sp.op < 65536 := by
  cases i <;> cases hs <;> decide

/-! Fields of a packet. -/

/-- R40: the FLAGS byte of a command: bit 5 MAC, bit 4 NOSESSION, bit 3 ORDERED, bit 2 QUIET, then the session. -/
def flagsByte (mac noSession ordered quiet : Bool) (session : Nat) : Nat :=
  32 * b2n mac + 16 * b2n noSession + 8 * b2n ordered + 4 * b2n quiet + session

/-- FLAGS holds each of its fields, and bits 7 and 6 (a reply, an event) are clear. -/
theorem flagsByte_fields (mac noSession ordered quiet : Bool) : ∀ session < 4,
    let f := flagsByte mac noSession ordered quiet session
    f < 256 ∧ bit f 7 = false ∧ bit f 6 = false ∧ bit f 5 = mac ∧ bit f 4 = noSession ∧ bit f 3 = ordered ∧ bit f 2 = quiet ∧ f % 4 = session := by
  cases mac <;> cases noSession <;> cases ordered <;> cases quiet <;> decide

/-- R38: the 16 bytes of a command before its parameters. -/
def headBytes (h : Hdr) (op len : Nat) : Bytes :=
  enc 2 0x5654 ++ (enc 1 h.version ++ (enc 1 (flagsByte h.mac.isSome h.noSession h.ordered h.quiet h.session) ++ (enc 2 op ++ (enc 2 h.seq ++
    (enc 2 (h.tmode * 16384 + h.tid) ++ (enc 2 len ++ enc 4 h.tag))))))

@[simp] theorem headBytes_length (h : Hdr) (op len : Nat) : (headBytes h op len).length = 16 := by simp [headBytes]

theorem macInput_eq (h : Hdr) (op : Nat) (p : Bytes) : macInput h op p = withCrc (headBytes h op p.length ++ p) := by
  simp only [macInput, headBytes, flagsByte, List.append_assoc]

theorem withCrc_length (b : Bytes) : (withCrc b).length = b.length + 4 := by simp [withCrc]

/-- What R38's header fields read from a command's bytes, whatever follows them. -/
theorem headBytes_fields {h : Hdr} {op len : Nat} (hv : h.version < 256) (hs : h.session < 4) (hop : op < 65536) (hq : h.seq < 65536)
    (ht : h.tmode < 4) (hd : h.tid < 16384) (hl : len < 65536) (hg : h.tag < 2 ^ 32) (b : Bytes) :
    let x := headBytes h op len ++ b
    u16 x 0 = 0x5654 ∧ u8 x 2 = h.version ∧ u8 x 3 = flagsByte h.mac.isSome h.noSession h.ordered h.quiet h.session ∧ u16 x 4 = op ∧
      u16 x 6 = h.seq ∧ u16 x 8 = h.tmode * 16384 + h.tid ∧ u16 x 10 = len ∧ u32 x 12 = h.tag := by
  have hf := (flagsByte_fields h.mac.isSome h.noSession h.ordered h.quiet h.session hs).1
  have hg' : h.tag < 4294967296 := hg
  have hat : h.tmode * 16384 + h.tid < 65536 := by omega
  simp only [headBytes, List.append_assoc, u16, u32]
  simp (disch := simp) only [be_append_right, u8_append_right, enc_length, Nat.reduceSub, be_enc, u8_enc_one, Nat.reducePow, Nat.reduceMod,
    Nat.mod_eq_of_lt hv, Nat.mod_eq_of_lt hf, Nat.mod_eq_of_lt hop, Nat.mod_eq_of_lt hq, Nat.mod_eq_of_lt hat, Nat.mod_eq_of_lt hl,
    Nat.mod_eq_of_lt hg', and_self]

/-- R38–R40, R49: a command's bytes, with its MAC behind them where it has one, are read back as its header, opcode and parameters. -/
theorem parsePkt_macInput {h : Hdr} {op : Nat} {p : Bytes} (hwf : h.wf = true) (hop : op < 65536) (hp : p.length ≤ 4096)
    (ha : h.answered = none) : parsePkt h.route (macInput h op p ++ h.mac.getD []) = some (h, op, p) := by
  obtain ⟨route, version, noSession, ordered, quiet, session, seq, tmode, tid, tag, mac, answered⟩ := h
  simp only [Hdr.wf, Bool.and_eq_true, decide_eq_true_eq] at hwf
  obtain ⟨⟨⟨⟨⟨⟨hv, hs⟩, hq⟩, ht⟩, hd⟩, hg⟩, hm⟩ := hwf
  obtain rfl : answered = none := ha
  set h : Hdr := ⟨route, version, noSession, ordered, quiet, session, seq, tmode, tid, tag, mac, none⟩ with hh
  set hd16 := headBytes h op p.length with hhd
  have hlen : hd16.length = 16 := headBytes_length h op p.length
  set b := macInput h op p ++ h.mac.getD [] with hb
  have hb' : b = hd16 ++ (p ++ (enc 4 (crc32c (hd16 ++ p)) ++ mac.getD [])) := by
    rw [hb, macInput_eq, withCrc]; simp only [List.append_assoc, hh, hhd]
  obtain ⟨f0, f2, f3, f4, f6, f8, f10, f12⟩ := headBytes_fields (h := h) (op := op) (len := p.length) hv hs hop hq ht hd (by omega) hg
    (p ++ (enc 4 (crc32c (hd16 ++ p)) ++ mac.getD []))
  obtain ⟨-, g7, g6, g5, g4, g3, g2, g0⟩ := flagsByte_fields mac.isSome noSession ordered quiet session hs
  rw [← hhd, ← hb'] at f0 f2 f3 f4 f6 f8 f10 f12
  have hblen : b.length = 20 + p.length + (if mac.isSome then 32 else 0) := by
    rw [hb']
    cases mac with
    | none => simp [hlen]; omega
    | some m => simp at hm; simp [hlen, hm]; omega
  have htake : b.take (16 + p.length) = hd16 ++ p := by
    rw [hb', ← List.append_assoc, List.take_left' (by simp [hlen])]
  have htake' : b.take (20 + p.length) = withCrc (hd16 ++ p) := by
    rw [hb', ← List.append_assoc, ← List.append_assoc, List.take_left' (by simp [hlen]; omega), withCrc]
  have hmac : b.drop (20 + p.length) = mac.getD [] := by
    rw [hb', ← List.append_assoc, ← List.append_assoc, List.drop_left' (by simp [hlen]; omega)]
  have hpar : (b.drop 16).take p.length = p := by
    rw [hb', List.drop_left' hlen, List.take_left' rfl]
  have hmode : (tmode * 16384 + tid) / 16384 = tmode := by omega
  have htid : (tmode * 16384 + tid) % 16384 = tid := by omega
  unfold parsePkt
  simp only [f0, f2, f3, f4, f6, f8, f10, f12, hh, g7, g6, g5, g4, g3, g2, g0, htake, htake', hmac, hpar, hblen, hmode, htid]
  cases mac <;> simp <;> omega

end Sys2Proof.Machine

namespace Sys2Proof.Proofs
open Sys2Proof.Machine

/-- Settles O7: the opcode map is a table row by row (`commandOf_opSpec`); a packet is read back field by field (`parsePkt_macInput`). -/
theorem packetReadsBack : Obligations.PacketReadsBack := by
  refine ⟨fun i sp h hs hh => commandOf_opSpec hs hh, fun i sp h hs hh hwf ha hp => ⟨?_, (commandOf_opSpec hs hh).1⟩⟩
  have hw : h.wf = true := by
    simp only [Instr.wf, hh, Bool.and_eq_true] at hwf
    obtain ⟨hw, -⟩ := hwf
    exact hw
  exact parsePkt_macInput hw (op_lt_of_opSpec hs) hp ha

end Sys2Proof.Proofs
end


section
/-!
The gate (R47–R57) one check at a time: what it answers where a check refuses the command, and what is left to check where none has so far.
-/

namespace Sys2Proof.Machine

/-! A command in flight, and whether anything makes it wait (R52). -/

/-- The device with a command in flight. -/
def Dev.flying (d : Dev) (c : Cmd) : Dev := { d with anvil := { d.anvil with inFlight := d.anvil.inFlight ++ [c] } }

theorem localDev_eq (s : State) (h : Hdr) (op : Nat) (p : Bytes) : localDev s h op p = s.dev.flying (localCmd s h op p) := rfl

section
variable {d : Dev}

/-- A command taken in flight adds at most one to those of any sender. -/
theorem inFlightOf_flying_length (c : Cmd) (w : Nat) : ((d.flying c).inFlightOf w).length ≤ (d.inFlightOf w).length + 1 := by
  have hsplit : (d.flying c).inFlightOf w = d.inFlightOf w ++ [c].filter fun k => k.who = w && d.alive k := List.filter_append ..
  rw [hsplit, List.length_append]
  exact Nat.add_le_add_left (List.length_filter_le ..) _

/-- R46, R52, R466: with room for its reply, no core being exchanged, and (but for ABORT) nothing of its sender waiting, nor in flight if
it is ORDERED, a command in flight does not wait. -/
theorem mustWait_flying {c : Cmd} {op : Nat} (hroom : c.h.route = .cp → outFill d.cp.outbound + 4148 ≤ cpOutCap)
    (hheld : d.beginsHeld = false) (hgo : op = 3 ∨ (d.waitingOf c.h = [] ∧ (c.h.ordered = false ∨ d.inFlightOf c.who = []))) :
    (d.flying c).mustWait c.who c.h op = false := by
  have hheld' : (d.flying c).beginsHeld = false := hheld
  have hfull : (decide (c.h.route = .cp) && decide (outFill (d.flying c).cp.outbound + 4148 > cpOutCap)) = false := by
    simp only [Bool.and_eq_false_imp, decide_eq_true_eq, decide_eq_false_iff_not]
    exact fun hcp => Nat.not_lt.mpr (hroom hcp)
  have hmine : (decide (op ≠ 0x0003) && decide (c.who < 5) &&
      (decide ((d.flying c).waitingOf c.h ≠ []) || (c.h.ordered && decide (((d.flying c).inFlightOf c.who).length > 1)))) = false := by
    rcases hgo with hop | ⟨hwait, hfree | hfree⟩
    · simp [hop]
    · have hw : (d.flying c).waitingOf c.h = [] := hwait
      simp [hw, hfree]
    · have hw : (d.flying c).waitingOf c.h = [] := hwait
      have hl : ((d.flying c).inFlightOf c.who).length ≤ 1 := by simpa [hfree] using inFlightOf_flying_length (d := d) c c.who
      simpa [hw] using fun _ _ _ => hl
  rw [Dev.mustWait, hfull, hheld', hmine]
  rfl

/-! What a session's record must keep for its commands in flight to be the same. -/

theorem sess_setSess {n : Nat} (x : Session) (m : Nat) :
    (d.setSess n x).sess m = if m = n ∧ n < d.anvil.sess.length then x else d.sess m := by
  by_cases hm : m = n
  · subst hm
    by_cases hl : m < d.anvil.sess.length
    · simp [hl, sess_setSess_self]
    · simp [Dev.sess, Dev.setSess, hl]
  · simp [hm, sess_setSess_other]

theorem alive_setSess {n : Nat} {x : Session} (ho : x.isOpen = (d.sess n).isOpen) (he : x.epoch = (d.sess n).epoch) (c : Cmd) :
    (d.setSess n x).alive c = d.alive c := by
  simp only [Dev.alive, sess_setSess]
  by_cases hn : c.who = n ∧ n < d.anvil.sess.length
  · rw [if_pos hn, ho, he, hn.1]
  · rw [if_neg hn]

theorem inFlightOf_setSess {n : Nat} {x : Session} (ho : x.isOpen = (d.sess n).isOpen) (he : x.epoch = (d.sess n).epoch) (w : Nat) :
    (d.setSess n x).inFlightOf w = d.inFlightOf w := by
  simp only [Dev.inFlightOf, alive_setSess ho he]
  rfl

/-- An open session is one of those the device has. -/
theorem sess_lt_of_isOpen {n : Nat} (h : (d.sess n).isOpen = true) : n < d.anvil.sess.length := by
  by_contra hn
  simp [Dev.sess, hn] at h

end

/-! Steps 8 to 14 (R51, R52, R57). -/

section
variable {d : Dev} {s : State} {sp : OpSpec} {i : Instr} {c : Cmd}

theorem checks_badLength (hk : sp.known = true) (hl : sp.lenOk c.p = false) : d.checks s sp c = (d.finalReply c St.badLength 0 [], none) := by
  simp [Dev.checks, hk, hl]

theorem checks_badParam {r : Nat} (hk : sp.known = true) (hl : sp.lenOk c.p = true) (hc : sp.check s c.h c.p = some r) :
    d.checks s sp c = (d.finalReply c St.badParam r [], none) := by
  simp [Dev.checks, hk, hl, hc]

theorem checks_safe (hk : sp.known = true) (hl : sp.lenOk c.p = true) (hc : sp.check s c.h c.p = none)
    (hs : (d.pwr.safe && safeRefuses sp.cls) = true) : d.checks s sp c = (d.finalReply c St.fault Rs.safeState [], none) := by
  simp only [Dev.checks, hk, hl, hc, hs, not_true_eq_false, if_false, if_true]

theorem checks_mode (hk : sp.known = true) (hl : sp.lenOk c.p = true) (hc : sp.check s c.h c.p = none)
    (hs : (d.pwr.safe && safeRefuses sp.cls) = false) (hm : modeRefuses d.mode sp.cls = true) :
    d.checks s sp c = (d.finalReply c St.badState Rs.notInMode [], none) := by
  simp only [Dev.checks, hk, hl, hc, hs, hm, not_true_eq_false, Bool.false_eq_true, if_false, if_true]

theorem checks_pass (hk : sp.known = true) (hl : sp.lenOk c.p = true) (hc : sp.check s c.h c.p = none) (ha : ClassAllowed d sp.cls) :
    d.checks s sp c = (d, some c) := by
  obtain ⟨hs, hm⟩ := ha
  simp only [Dev.checks, hk, hl, hc, hs, hm, not_true_eq_false, Bool.false_eq_true, if_false]

/-- R52: a sender's limit of commands in flight is reached. -/
theorem begin_full (hw : c.who < 5) (hn : (if c.who = 4 then 16 else 256) ≤ (d.inFlightOf c.who).length) :
    d.begin s sp i c = (d.finalReply c St.busy Rs.inFlightLimit [], none) := by
  simp only [Dev.begin, hw, hn, and_self, if_true]

/-- R52: below the limit, and with nothing that makes it wait, an accepted command is checked at once. -/
theorem begin_goes (hn : (d.inFlightOf c.who).length < if c.who = 4 then 16 else 256)
    (hw : (d.flying c).mustWait c.who c.h sp.op = false) : d.begin s sp i c = (d.flying c).checks s sp c := by
  have hlim : ¬(c.who < 5 ∧ (d.inFlightOf c.who).length ≥ if c.who = 4 then 16 else 256) := fun hl => Nat.not_le.mpr hn hl.2
  have hd : { d with anvil := { d.anvil with inFlight := d.anvil.inFlight ++ [c] } } = d.flying c := rfl
  simp only [Dev.begin, hlim, hd, hw, Bool.and_false, Bool.false_eq_true, if_false]

/-- The local channel has no window (R47). -/
theorem seqStep_local (hw : c.who > 3) : d.seqStep s sp i c = d.begin s sp i c := if_pos hw

theorem seqStep_new (hw : c.who < 4) (hr : seqRule (d.sess c.who) c.h.seq = .acceptNew) :
    d.seqStep s sp i c = (d.setSess c.who ((d.sess c.who).accept c.h.seq true)).begin s sp i c := by
  simp only [Dev.seqStep, Nat.not_lt.mpr (Nat.le_of_lt_succ hw), hr, if_false]

/-- R51: a SEQ accepted before and not above H is answered from its held reply, or ignored while there is none. -/
theorem seqStep_seen {r : Recent} (hw : c.who < 4)
    (hd : ¬(1 ≤ (c.h.seq + 65536 - (d.sess c.who).high) % 65536 ∧ (c.h.seq + 65536 - (d.sess c.who).high) % 65536 ≤ 32767))
    (hr : (d.sess c.who).recent.find? (·.seq = c.h.seq) = some r) : d.seqStep s sp i c = (match r.reply with
      | some p => ((d.bump 0 R.TNK_AV_DUP).sendPkt c.h.route p (d.replyDelay c.h)).countAuth c.who (u8 p.body 0)
      | none => d.bump 0 R.TNK_AV_DUP, none) := by
  obtain ⟨seq, reply⟩ := r
  have hno : ¬ c.who > 3 := Nat.not_lt.mpr (Nat.le_of_lt_succ hw)
  cases reply <;> simp only [Dev.seqStep, seqRule, hno, hd, hr, if_false]

end

/-! Steps 1 to 7 (R47–R50, R53, R54, R56). -/

section
variable {s : State} {sp : OpSpec} {h : Hdr} {p : Bytes} {i : Instr}

theorem gate_badTarget (hres : s.dev.anvil.resuming = false) (hsil : s.dev.silent h = false) (hlen : p.length ≤ 4096)
    (ht : targetOk h = false) : gate sp h p i s = (s.dev.bump 0 R.TNK_AV_TARGET, none) := by
  simp [gate, hres, hsil, Nat.not_lt.mpr hlen, ht]

theorem gate_otherTarget (hres : s.dev.anvil.resuming = false) (hsil : s.dev.silent h = false) (hlen : p.length ≤ 4096)
    (ht : targetOk h = true) (hd : s.dev.targeted h = false) : gate sp h p i s = (s.dev, none) := by
  simp [gate, hres, hsil, Nat.not_lt.mpr hlen, ht, hd]

theorem gate_badVersion (hres : s.dev.anvil.resuming = false) (hsil : s.dev.silent h = false) (hlen : p.length ≤ 4096)
    (ht : targetOk h = true) (hd : s.dev.targeted h = true) (hv : h.version ≠ 1) :
    gate sp h p i s = (s.dev.replyRaw h sp.op St.badOpcode Rs.version [] none, none) := by
  simp [gate, hres, hsil, Nat.not_lt.mpr hlen, ht, hd, hv]

/-- What is left of the gate for a packet that arrives (R53, steps 5 on). -/
theorem gate_arrives (ha : Arrives s h p) : gate sp h p i s =
    if ¬ s.dev.pwr.ready ∧ ¬(sp.op = 1 ∨ sp.op = 2 ∨ sp.op = 3) then
      (s.dev.replyRaw h sp.op St.busyInit s.dev.pwr.stage (enc 2 (min s.dev.elapsedMs 65535)) none, none)
    else match s.dev.whoSends h sp.op with
      | none => (s.dev.replyRaw h sp.op St.badState Rs.noSession [] none, none)
      | some w =>
        if ¬ s.dev.macOk w h sp.op p then ((s.dev.replyRaw h sp.op St.authFail Rs.badMac [] none).countAuth w St.authFail, none)
        else
          let d := if w < 4 then s.dev.setSess w { s.dev.sess w with lastValid := s.dev.stamp, usable := true } else s.dev
          match sp.auth d h p with
          | some r => ((d.replyRaw h sp.op St.authFail r [] none).countAuth w St.authFail, none)
          | none => d.seqStep s sp i { who := w, epoch := (d.sess w).epoch, h := h, op := sp.op, p := p } := by
  obtain ⟨hsil, hres, hlen, ht, hd, hv⟩ := ha
  simp only [gate, hres, hsil, Nat.not_lt.mpr hlen, ht, hd, hv, Bool.false_eq_true, if_false, not_true_eq_false, ne_eq]
    <;> rfl

theorem gate_notReady (ha : Arrives s h p) (hr : s.dev.pwr.ready = false) (hop : ¬(sp.op = 1 ∨ sp.op = 2 ∨ sp.op = 3)) :
    gate sp h p i s = (s.dev.replyRaw h sp.op St.busyInit s.dev.pwr.stage (enc 2 (min s.dev.elapsedMs 65535)) none, none) := by
  rw [gate_arrives ha, if_pos ⟨by simp [hr], hop⟩]

/-- A READY device does not answer BUSY_INIT. -/
theorem not_busyInit {op : Nat} (hr : s.dev.pwr.ready = true) : ¬(¬ s.dev.pwr.ready = true ∧ ¬(op = 1 ∨ op = 2 ∨ op = 3)) :=
  fun hb => hb.1 hr

theorem gate_noSession (ha : Arrives s h p) (hr : s.dev.pwr.ready = true) (hw : s.dev.whoSends h sp.op = none) :
    gate sp h p i s = (s.dev.replyRaw h sp.op St.badState Rs.noSession [] none, none) := by
  rw [gate_arrives ha, if_neg (not_busyInit hr), hw]

variable {w : Nat}

theorem gate_badMac (ha : Arrives s h p) (hr : s.dev.pwr.ready = true) (hw : s.dev.whoSends h sp.op = some w)
    (hm : s.dev.macOk w h sp.op p = false) :
    gate sp h p i s = ((s.dev.replyRaw h sp.op St.authFail Rs.badMac [] none).countAuth w St.authFail, none) := by
  rw [gate_arrives ha, if_neg (not_busyInit hr), hw]
  simp only [hm, Bool.false_eq_true, not_false_eq_true, if_true]

/-- The sender that a packet names (R47). -/
theorem senderOf_of_whoSends {d : Dev} {op : Nat} (hw : d.whoSends h op = some w) : w = senderOf h := by
  simp only [Dev.whoSends] at hw
  simp only [senderOf]
  split at hw
  case isTrue hn =>
    rw [if_pos hn]
    split at hw
    case h_1 hr => simpa [hr] using hw.symm
    case h_2 hr => split at hw <;> simp_all
  case isFalse hn =>
    rw [if_neg hn]
    split at hw <;> simp_all

/-- R48: the sender's session has been heard now; the local channel's record is as it was. -/
theorem heardDev_eq (hh : i.hdr? = some h) : heardDev i s = if senderOf h < 4 then
    s.dev.setSess (senderOf h) { s.dev.sess (senderOf h) with lastValid := s.dev.stamp, usable := true } else s.dev := by
  simp only [heardDev, hdrOf, hh, Option.getD_some]

theorem heardDev_epoch (w : Nat) : ((heardDev i s).sess w).epoch = (s.dev.sess w).epoch := by
  simp only [heardDev]
  split
  · rw [sess_setSess]
    split
    case isTrue hw => rw [hw.1]
    case isFalse => rfl
  · rfl

theorem gate_badAuth {r : Nat} (hh : i.hdr? = some h) (ha : Arrives s h p) (hr : s.dev.pwr.ready = true)
    (hw : s.dev.whoSends h sp.op = some w) (hm : s.dev.macOk w h sp.op p = true) (hauth : sp.auth (heardDev i s) h p = some r) :
    gate sp h p i s = (((heardDev i s).replyRaw h sp.op St.authFail r [] none).countAuth w St.authFail, none) := by
  rw [gate_arrives ha, if_neg (not_busyInit hr), hw]
  obtain rfl := senderOf_of_whoSends hw
  simp only [hm, not_true_eq_false, if_false, ← heardDev_eq hh, hauth]

/-- R53, steps 1 to 7 passed: what remains is the command's SEQ and whether it may begin. -/
theorem gate_heard (hs : opSpec i = some sp) (hh : i.hdr? = some h) (ha : Arrives s h i.params) (hr : s.dev.pwr.ready = true)
    (hw : s.dev.whoSends h sp.op = some w) (hm : s.dev.macOk w h sp.op i.params = true)
    (hauth : sp.auth (heardDev i s) h i.params = none) :
    gate sp h i.params i s = (heardDev i s).seqStep s sp i (begunCmd i s) := by
  have hcmd : begunCmd i s = { who := senderOf h, epoch := (s.dev.sess (senderOf h)).epoch, h := h, op := sp.op, p := i.params } := by
    simp only [begunCmd, hdrOf, opOf, hh, hs, Option.getD_some, Option.map_some]
  rw [gate_arrives ha, if_neg (not_busyInit hr), hw, hcmd]
  obtain rfl := senderOf_of_whoSends hw
  simp only [hm, not_true_eq_false, if_false, ← heardDev_eq hh, hauth, heardDev_epoch]

end

/-! A command that does not begin changes the device as the gate says and nothing else. -/

theorem exec_of_refused {i : Instr} {sp : OpSpec} {h : Hdr} {s : State} {d : Dev} (hs : opSpec i = some sp) (hh : i.hdr? = some h)
    (hg : gate sp h i.params i s = (d, none)) : exec i s = .next (s.withDev d) := by
  unfold exec
  cases i <;> cases hs <;> cases hh <;> dsimp only [Instr.params] at hg
  case bellowsSetpoint | commit | filmUpdate | eyeScan | tapTest | thmSet =>
    dsimp only [execBellowsSetpoint, execCommit, execFilmUpdate, execEyeScan, execTapTest, execThmSet]
    exact anvil_of_refused hg
  case regWrite | regModify | bufCreate | bufWrite | bufFree | surfUpload | surfaceCreate | surfaceFree | camEnable =>
    exact anvilH_of_refused hg
  all_goals exact anvil_of_refused hg

end Sys2Proof.Machine
end


section
/-! What the gate does with a command of the local channel and with one of a session (O9–O12). -/

namespace Sys2Proof.Machine

section
variable {s : State} {sp : OpSpec} {h : Hdr} {i : Instr}

/-! The local channel (R47). -/

theorem whoSends_local {d : Dev} (op : Nat) (hr : h.route = .cp) (hn : h.noSession = true) : d.whoSends h op = some 4 := by
  simp [Dev.whoSends, hn, hr]

/-- No opcode asks for an authentication of its own on the control port (R49, R50, R65). -/
theorem auth_cp {p : Bytes} (d : Dev) (hs : opSpec i = some sp) (hr : h.route = .cp) : sp.auth d h p = none := by
  cases i <;> cases hs
  case keySet | ashClear => exact if_neg fun hne => hne hr
  case sessionOpen => simp [specSessionOpen, hr]
  all_goals rfl

theorem begunCmd_local (hs : opSpec i = some sp) (hh : i.hdr? = some h) (hr : h.route = .cp) (hn : h.noSession = true) :
    begunCmd i s = localCmd s h sp.op i.params := by
  simp only [begunCmd, localCmd, senderOf, hdrOf, opOf, hh, hs, hr, hn, Option.getD_some, Option.map_some, if_true]

/-- R47: a command of the local channel needs no session, no MAC and no SEQ. -/
theorem gate_local (hs : opSpec i = some sp) (hh : i.hdr? = some h) (ha : Arrives s h i.params) (hready : s.dev.pwr.ready = true)
    (hr : h.route = .cp) (hn : h.noSession = true) :
    gate sp h i.params i s = s.dev.begin s sp i (localCmd s h sp.op i.params) := by
  have hheard : heardDev i s = s.dev := by
    rw [heardDev_eq hh, senderOf, if_pos hn, if_pos hr]
    rfl
  rw [gate_heard hs hh ha hready (whoSends_local sp.op hr hn) rfl (auth_cp _ hs hr), hheard, begunCmd_local hs hh hr hn,
    seqStep_local (c := localCmd s h sp.op i.params) (Nat.lt_succ_self 3)]

/-- With room for it and nothing that makes it wait, steps 10 to 14 are left. -/
theorem gate_local_goes (hs : opSpec i = some sp) (hh : i.hdr? = some h) (he : LocalEntry s h i.params) (hg : LocalGoes s h sp.op) :
    gate sp h i.params i s = (localDev s h sp.op i.params).checks s sp (localCmd s h sp.op i.params) := by
  obtain ⟨ha, hready, hr, hn, hlim⟩ := he
  obtain ⟨hroom, hheld, hgo⟩ := hg
  rw [gate_local hs hh ha hready hr hn, localDev_eq]
  exact begin_goes hlim (mustWait_flying (fun _ => hroom) hheld hgo)

/-! A session (R48, R51). -/

/-- The session a packet names is its sender where it is open on the packet's route; SESSION_OPEN names none. -/
theorem whoSends_session {d : Dev} {op : Nat} (hn : h.noSession = false) (hlt : h.session < 4) (ho : (d.sess h.session).isOpen = true)
    (hr : (d.sess h.session).route = h.route) (hop : op ≠ 0x0004) : d.whoSends h op = some h.session := by
  simp [Dev.whoSends, hn, hlt, ho, hr, hop]

theorem senderOf_session (hn : h.noSession = false) : senderOf h = h.session := by simp [senderOf, hn]

theorem begunCmd_session (hh : i.hdr? = some h) (hn : h.noSession = false) : (begunCmd i s).who = h.session ∧ (begunCmd i s).h = h := by
  simp only [begunCmd, hdrOf, hh, Option.getD_some, senderOf_session hn, and_self]

theorem heardDev_session (hh : i.hdr? = some h) (hn : h.noSession = false) (hlt : h.session < 4) :
    heardDev i s = s.dev.setSess h.session { s.dev.sess h.session with lastValid := s.dev.stamp, usable := true } := by
  rw [heardDev_eq hh, senderOf_session hn, if_pos hlt]

theorem sess_heardDev (hh : i.hdr? = some h) (hn : h.noSession = false) (hlt : h.session < 4) (ho : (s.dev.sess h.session).isOpen = true) :
    (heardDev i s).sess h.session = { s.dev.sess h.session with lastValid := s.dev.stamp, usable := true } := by
  rw [heardDev_session hh hn hlt, sess_setSess_self _ _ (sess_lt_of_isOpen ho)]

/-- Being heard leaves the commands in flight as they are, and so does accepting a SEQ. -/
theorem inFlightOf_heardDev (w : Nat) : (heardDev i s).inFlightOf w = s.dev.inFlightOf w := by
  simp only [heardDev]
  split
  · exact inFlightOf_setSess (by rfl) (by rfl) w
  · rfl

theorem inFlightOf_accept (d : Dev) (n seq : Nat) (new : Bool) (w : Nat) :
    (d.setSess n ((d.sess n).accept seq new)).inFlightOf w = d.inFlightOf w := inFlightOf_setSess (by rfl) (by rfl) w

/-- An accepted SEQ is among the last 256 accepted, without a reply yet (R51). -/
theorem mem_recent_accept (x : Session) (seq : Nat) (new : Bool) : Recent.mk seq none ∈ (x.accept seq new).recent := by
  have hdrop : x.recent.length + 1 - 256 ≤ x.recent.length := by omega
  rw [Session.accept, List.drop_append_of_le_length hdrop]
  exact List.mem_append_right _ (List.mem_singleton_self _)

/-- R51: the device once a command with a new SEQ has been heard and taken by its session. -/
def acceptedDev (i : Instr) (h : Hdr) (s : State) : Dev :=
  (heardDev i s).setSess h.session (((heardDev i s).sess h.session).accept h.seq true)

/-- A new SEQ becomes the session's H and is held; the session has been used; commands in flight are as before. -/
theorem acceptedDev_sess (hh : i.hdr? = some h) (hn : h.noSession = false) (hlt : h.session < 4) (ho : (s.dev.sess h.session).isOpen = true) :
    ((acceptedDev i h s).sess h.session).high = h.seq ∧ ((acceptedDev i h s).sess h.session).usable = true ∧
      Recent.mk h.seq none ∈ ((acceptedDev i h s).sess h.session).recent := by
  have hopen : ((heardDev i s).sess h.session).isOpen = true := by rw [sess_heardDev hh hn hlt ho, ho]
  rw [acceptedDev, sess_setSess_self _ _ (sess_lt_of_isOpen hopen)]
  refine ⟨rfl, ?_, mem_recent_accept ..⟩
  simp only [Session.accept, sess_heardDev hh hn hlt ho]

/-- Hearing and accepting change the session's record alone. -/
theorem acceptedDev_frame (hh : i.hdr? = some h) (hn : h.noSession = false) (hlt : h.session < 4) :
    acceptedDev i h s = { s.dev with anvil := { s.dev.anvil with sess := (acceptedDev i h s).anvil.sess } } := by
  rw [acceptedDev, heardDev_session hh hn hlt]
  rfl

theorem inFlightOf_acceptedDev (w : Nat) : (acceptedDev i h s).inFlightOf w = s.dev.inFlightOf w := by
  rw [acceptedDev, inFlightOf_accept, inFlightOf_heardDev]

end

end Sys2Proof.Machine

namespace Sys2Proof.Proofs
open Sys2Proof.Machine

/-- Settles O9: the local channel's gate (`gate_local_goes`), with steps 10 to 14 passed. -/
theorem localChannelBegins : Obligations.LocalChannelBegins := by
  intro i sp h s hs hh he hg hl hc hcls
  have hpass := (gate_local_goes hs hh he hg).trans (checks_pass (commandOf_opSpec hs hh).2 hl hc hcls)
  simpa only [Begins, hs, hh] using hpass

/-- Settles O10: the session is heard, takes the SEQ as its new H, and the command begins. -/
theorem sessionWindowMoves : Obligations.SessionWindowMoves := by
  intro i sp h s hs hh ha hready hroom hn hlt ho hr hop hmac hlo hhi hlim hheld hauth hgo hl hc hcls
  obtain ⟨hwho, hhdr⟩ := begunCmd_session (s := s) hh hn
  have hframe := acceptedDev_frame (s := s) hh hn hlt
  have hwin : seqRule ((heardDev i s).sess h.session) h.seq = .acceptNew := by
    simp only [seqRule, sess_heardDev hh hn hlt ho, hlo, hhi, and_self, if_true]
  have hgo' : sp.op = 3 ∨ ((acceptedDev i h s).waitingOf h = [] ∧ (h.ordered = false ∨ (acceptedDev i h s).inFlightOf h.session = [])) := by
    rw [inFlightOf_acceptedDev, hframe]
    exact hgo
  have hgate : gate sp h i.params i s = ((acceptedDev i h s).flying (begunCmd i s), some (begunCmd i s)) := by
    rw [gate_heard hs hh ha hready (whoSends_session hn hlt ho hr hop) hmac hauth,
      seqStep_new (by rwa [hwho]) (by rwa [hwho, hhdr]), hwho, hhdr, ← acceptedDev, begin_goes, checks_pass (commandOf_opSpec hs hh).2 hl]
    · rwa [hhdr]
    · rw [hframe]; exact hcls
    · rw [hwho, inFlightOf_acceptedDev, if_neg (Nat.ne_of_lt hlt)]; exact hlim
    · refine mustWait_flying ?_ ?_ ?_
      · rw [hhdr, hframe]; exact hroom
      · rw [hframe]; exact hheld
      · rwa [hhdr, hwho]
  obtain ⟨hhigh, husable, hrecent⟩ := acceptedDev_sess (s := s) hh hn hlt ho
  refine ⟨(acceptedDev i h s).flying (begunCmd i s), begunCmd i s, by simpa only [Begins, hs, hh] using hgate, hwho, hhigh, husable, ?_, _, hrecent, rfl⟩
  simp only [Dev.flying, congrArg (fun d => d.anvil.inFlight) hframe]

/-- Settles O11: a SEQ seen before that does not move the window reaches step 8 of the gate and is refused there (`seqStep_seen`). -/
theorem resendIsNotPerformedAgain : Obligations.ResendIsNotPerformedAgain := by
  intro i sp h s r hs hh ha hready hn hlt ho hr hop hmac hauth hwin hfind
  have hsess := sess_heardDev (s := s) hh hn hlt ho
  obtain ⟨hwho, hhdr⟩ := begunCmd_session (s := s) hh hn
  have hseen := seqStep_seen (d := heardDev i s) (s := s) (sp := sp) (i := i) (c := begunCmd i s) (r := r) (by rwa [hwho])
    (by rwa [hwho, hhdr, hsess]) (by rwa [hwho, hhdr, hsess])
  have hgate := (gate_heard hs hh ha hready (whoSends_session hn hlt ho hr hop) hmac hauth).trans hseen
  rw [hwho, hhdr, heardDev_session hh hn hlt] at hgate
  exact exec_of_refused hs hh hgate

/-- Settles O12: the gate's checks in their order, each by its own lemma; a command that does not begin has the gate's answer as its
only effect (`exec_of_refused`). -/
theorem refusalsOfTheGate : Obligations.RefusalsOfTheGate := by
  refine ⟨fun i sp h s hs hh hsil hres hlen => ?_, fun i sp h s hs hh => ⟨?_, fun he hg => ?_⟩⟩
  · refine ⟨fun ht => exec_of_refused hs hh (gate_badTarget hres hsil hlen ht),
      fun ht hd => exec_of_refused hs hh (gate_otherTarget hres hsil hlen ht hd),
      fun ht hd hv => exec_of_refused hs hh (gate_badVersion hres hsil hlen ht hd hv), ?_, ?_, ?_, ?_⟩
    · intro ht hd hv hr h1 h2 h3
      exact exec_of_refused hs hh (gate_notReady ⟨hsil, hres, hlen, ht, hd, hv⟩ hr (by simp [h1, h2, h3]))
    · intro ht hd hv hr hw
      exact exec_of_refused hs hh (gate_noSession ⟨hsil, hres, hlen, ht, hd, hv⟩ hr hw)
    · intro w ht hd hv hr hw hm
      exact exec_of_refused hs hh (gate_badMac ⟨hsil, hres, hlen, ht, hd, hv⟩ hr hw hm)
    · intro w r ht hd hv hr hw hm hauth
      exact exec_of_refused hs hh (gate_badAuth hh ⟨hsil, hres, hlen, ht, hd, hv⟩ hr hw hm hauth)
  · intro ha hready hr hn hfull
    refine exec_of_refused hs hh ?_
    rw [gate_local hs hh ha hready hr hn]
    exact begin_full (c := localCmd s h sp.op i.params) (Nat.lt_succ_self 4) hfull
  · have hk := (commandOf_opSpec hs hh).2
    have hgate := gate_local_goes hs hh he hg
    refine ⟨fun hl => ?_, fun r hl hc => ?_, fun hl hc hsafe hcls => ?_, fun hl hc hsafe hmode => ?_⟩ <;>
      refine exec_of_refused hs hh (hgate.trans ?_)
    · exact checks_badLength hk hl
    · exact checks_badParam hk hl hc
    · refine checks_safe hk hl hc ?_
      have hs' : (localDev s h sp.op i.params).pwr.safe = true := hsafe
      rw [hs', Bool.true_and]
      simpa [safeRefuses, and_assoc] using hcls
    · refine checks_mode hk hl hc ?_ ?_
      · have hs' : (localDev s h sp.op i.params).pwr.safe = false := hsafe
        rw [hs', Bool.false_and]
      · have hm' : (localDev s h sp.op i.params).mode = s.dev.mode := rfl
        rw [hm']
        rcases hmode with ⟨hm, hcls⟩ | ⟨hm, hcls⟩ | ⟨hm, hcls⟩
        · simpa [modeRefuses, hm, or_assoc] using hcls
        · simp [modeRefuses, hm, hcls]
        · simp [modeRefuses, hm, hcls]

end Sys2Proof.Proofs
end


section
/-! What beginning a command and giving it its final reply change at most (O8). -/

namespace Sys2Proof.Machine

/-! A command that begins: the gate's steps from the last to the first. -/

section
variable {s : State} {sp : OpSpec} {i : Instr} {c k : Cmd} {d e : Dev}

theorem not_begun {x : Dev} (hg : (x, (none : Option Cmd)) = (e, some k)) : False := nomatch (Prod.ext_iff.mp hg).2

theorem checks_begins (hg : d.checks s sp c = (e, some k)) : e = d ∧ k = c := by
  unfold Dev.checks at hg
  dsimp only at hg
  split at hg
  · exact (not_begun hg).elim
  · split at hg
    · exact (not_begun hg).elim
    · split at hg
      · exact (not_begun hg).elim
      · split at hg
        · exact (not_begun hg).elim
        · split at hg
          · exact (not_begun hg).elim
          · simpa [eq_comm] using hg

/-- The device differs from `d` only in its command interface. -/
def Dev.sameBut (d e : Dev) : Prop := e = { d with anvil := e.anvil }

theorem sameBut_trans {d₁ d₂ d₃ : Dev} (h₁ : d₁.sameBut d₂) (h₂ : d₂.sameBut d₃) : d₁.sameBut d₃ := by
  unfold Dev.sameBut at *
  rw [h₁] at h₂
  exact h₂

theorem begin_begins (hg : d.begin s sp i c = (e, some k)) : d.sameBut e ∧ k = c := by
  unfold Dev.begin at hg
  extract_lets lim at hg
  split at hg
  · exact (not_begun hg).elim
  · split at hg
    · exact (not_begun hg).elim
    · obtain ⟨rfl, hk⟩ := checks_begins hg
      exact ⟨rfl, hk⟩

theorem setSess_sameBut (n : Nat) (x : Session) : d.sameBut (d.setSess n x) := rfl

theorem seqStep_begins (hg : d.seqStep s sp i c = (e, some k)) : d.sameBut e ∧ k = c := by
  unfold Dev.seqStep at hg
  dsimp only at hg
  split at hg
  · exact begin_begins hg
  · split at hg
    case h_1 | h_2 =>
      obtain ⟨hd, hk⟩ := begin_begins hg
      exact ⟨sameBut_trans (setSess_sameBut ..) hd, hk⟩
    case h_3 | h_4 | h_5 => exact (not_begun hg).elim

/-- The command that the gate lets begin is the packet's, and only the command interface has changed. -/
theorem gate_begins {h : Hdr} {p : Bytes} (hg : gate sp h p i s = (d, some c)) :
    s.dev.sameBut d ∧ c.h = h ∧ c.p = p ∧ c.op = sp.op := by
  unfold gate at hg
  extract_lets d₀ d₁ at hg
  split at hg
  · split at hg
    · exact (not_begun hg).elim
    · obtain ⟨rfl, rfl⟩ := checks_begins hg
      exact ⟨rfl, rfl, rfl, rfl⟩
  · iterate 6
      split at hg
      · exact (not_begun hg).elim
    split at hg
    · exact (not_begun hg).elim
    split at hg
    · exact (not_begun hg).elim
    split at hg
    all_goals
      extract_lets at hg
      split at hg
      · exact (not_begun hg).elim
      · obtain ⟨hd, rfl⟩ := seqStep_begins hg
        exact ⟨sameBut_trans (by rfl) hd, rfl, rfl, rfl⟩

end

/-! A final reply (R41, R51, R52). -/

section
variable (d : Dev)

theorem replyRaw_of_ne {st : Nat} (hst : st ≠ St.authFail) (h : Hdr) (op rs : Nat) (b : Bytes) (k : Option Bytes) :
    let t := d.replyRaw h op st rs b k
    t = { d with cp := t.cp, out := t.out } := by
  simp only [Dev.replyRaw, hst, if_false]
  split
  · rfl
  · exact sendPkt_frame ..

theorem countAuth_of_ne {st : Nat} (hst : st ≠ St.authFail) (n : Nat) :
    let t := d.countAuth n st
    t = { d with anvil := { d.anvil with sess := t.anvil.sess } } := by
  simp only [Dev.countAuth, hst, if_false]
  split <;> rfl

/-- A reply other than AUTH_FAIL that goes out takes its command out of flight, and changes besides only what sessions hold, the control
port and what has left the device. -/
theorem replyNow_of_ne {st : Nat} (hst : st ≠ St.authFail) (c : Cmd) (rs : Nat) (b : Bytes) :
    let t := d.replyNow c st rs b
    t = { d with anvil := { d.anvil with inFlight := d.anvil.inFlight.erase c, sess := t.anvil.sess }, cp := t.cp, out := t.out } := by
  intro t
  have ht : t = d.replyNow c st rs b := rfl
  clear_value t
  unfold Dev.replyNow at ht
  dsimp only at ht
  split at ht
  · rw [replyRaw_of_ne _ hst] at ht; subst ht; rfl
  · split at ht
    · subst ht; rfl
    · split at ht
      · rw [replyRaw_of_ne _ hst] at ht
        split at ht <;> (subst ht; rfl)
      · rw [countAuth_of_ne _ hst, replyRaw_of_ne _ hst] at ht
        split at ht <;> (subst ht; rfl)

/-- The device differs from `d` only in its command interface, the control port's queue and what has left it. -/
def Dev.repliedFrom (d e : Dev) : Prop := e = { d with anvil := e.anvil, cp := e.cp, out := e.out }

variable {d}

theorem repliedFrom_trans {d₁ d₂ d₃ : Dev} (h₁ : d₁.repliedFrom d₂) (h₂ : d₂.repliedFrom d₃) : d₁.repliedFrom d₃ := by
  unfold Dev.repliedFrom at *
  rw [h₁] at h₂
  exact h₂

theorem replyNow_repliedFrom {st : Nat} (hst : st ≠ St.authFail) (c : Cmd) (rs : Nat) (b : Bytes) :
    d.repliedFrom (d.replyNow c st rs b) ∧ (d.replyNow c st rs b).anvil.due = d.anvil.due := by
  have hnow := replyNow_of_ne d hst c rs b
  exact ⟨by rw [Dev.repliedFrom, hnow], by rw [hnow]⟩

/-- A waiting reply that goes out is one of those that waited; where none is an AUTH_FAIL, none of those left is. -/
theorem replyDue_repliedFrom (hd : ∀ r ∈ d.anvil.due, r.st ≠ St.authFail) :
    d.repliedFrom d.replyDue ∧ ∀ r ∈ d.replyDue.anvil.due, r.st ≠ St.authFail := by
  unfold Dev.replyDue
  split
  · exact ⟨rfl, hd⟩
  case h_2 r hr =>
    obtain ⟨hframe, hdue⟩ := replyNow_repliedFrom (d := { d with anvil := { d.anvil with due := d.anvil.due.erase r } })
      (hd r (List.mem_of_find?_eq_some hr)) r.cmd r.rs r.data
    refine ⟨repliedFrom_trans (d₂ := { d with anvil := { d.anvil with due := d.anvil.due.erase r } }) rfl hframe, ?_⟩
    rw [hdue]
    exact fun x hx => hd x (List.mem_of_mem_erase hx)

theorem repliesDue_repliedFrom (n : Nat) (hd : ∀ r ∈ d.anvil.due, r.st ≠ St.authFail) :
    d.repliedFrom (Nat.repeat Dev.replyDue n d) ∧ ∀ r ∈ (Nat.repeat Dev.replyDue n d).anvil.due, r.st ≠ St.authFail := by
  induction n with
  | zero => exact ⟨rfl, hd⟩
  | succ n ih =>
    obtain ⟨hframe, hdue⟩ := ih
    obtain ⟨hframe', hdue'⟩ := replyDue_repliedFrom hdue
    exact ⟨repliedFrom_trans hframe hframe', hdue'⟩

/-- R52: a reply that an earlier command of its class blocks waits. -/
theorem finalReply_blocked {c : Cmd} (st rs : Nat) (b : Bytes) (hb : d.replyBlocked c = true) :
    d.finalReply c st rs b = { d with anvil := { d.anvil with due := d.anvil.due ++ [⟨c, st, rs, b⟩] } } := if_pos hb

theorem finalReply_unblocked {c : Cmd} (st rs : Nat) (b : Bytes) (hb : d.replyBlocked c = false) :
    d.finalReply c st rs b = Nat.repeat Dev.replyDue d.anvil.due.length (d.replyNow c st rs b) := by
  simp only [Dev.finalReply, hb, Bool.false_eq_true, if_false]

theorem finalReply_repliedFrom {c : Cmd} {st : Nat} (rs : Nat) (b : Bytes) (hst : st ≠ St.authFail)
    (hd : ∀ r ∈ d.anvil.due, r.st ≠ St.authFail) : d.repliedFrom (d.finalReply c st rs b) := by
  cases hb : d.replyBlocked c
  · obtain ⟨hframe, hdue⟩ := replyNow_repliedFrom (d := d) hst c rs b
    rw [finalReply_unblocked _ _ _ hb]
    exact repliedFrom_trans hframe (repliesDue_repliedFrom _ (by rwa [hdue])).1
  · rw [finalReply_blocked _ _ _ hb]
    rfl

end

end Sys2Proof.Machine

namespace Sys2Proof.Proofs
open Sys2Proof.Machine

/-- Settles O8: the gate changes the command interface alone (`gate_begins`), and a final reply what one reply after another changes. -/
theorem interfaceWorkTouchesOnlyTheInterface : Obligations.InterfaceWorkTouchesOnlyTheInterface := by
  refine ⟨fun i s d c hb => ?_, fun d c st rs b hst hd => ⟨finalReply_repliedFrom rs b hst hd, finalReply_blocked st rs b, fun hb hnil => ?_⟩⟩
  · unfold Begins at hb
    split at hb
    case h_1 sp h hs hh =>
      obtain ⟨hframe, hc, hp, hop⟩ := gate_begins hb
      exact ⟨hframe, by rw [hh, hc], hp, by rw [hs, Option.map_some, hop]⟩
    case h_2 => exact hb.elim
  · rw [finalReply_unblocked _ _ _ hb, hnil]
    show (d.replyNow c st rs b).anvil.inFlight = _
    rw [replyNow_of_ne d hst c rs b]

end Sys2Proof.Proofs
end


section
/-! Reset, the functions of R55 and the reports of the device class (O5, O13–O15). -/

namespace Sys2Proof.Machine

/-! What the gate has checked of a command that begins. -/

theorem lenOk_of_mayBegin {i : Instr} {sp : OpSpec} {s : State} (hs : opSpec i = some sp) (hm : mayBegin i s = true) :
    sp.lenOk i.params = true := by
  simp only [mayBegin, hs, Bool.and_eq_true] at hm
  obtain ⟨⟨⟨⟨_, hlen⟩, _⟩, _⟩, _⟩ := hm
  exact hlen

theorem begunCmd_op {i : Instr} {sp : OpSpec} (s : State) (hs : opSpec i = some sp) : (begunCmd i s).op = sp.op := by
  simp only [begunCmd, opOf, hs, Option.map_some, Option.getD_some]

/-! Notifications (R58, R68). -/

section
variable (d : Dev)

theorem sess_sendPkt (r : Route) (p : Pkt) (u n : Nat) : (d.sendPkt r p u).sess n = d.sess n := by
  rw [sendPkt_frame]
  rfl

/-- Packets sent leave the session's route as it is, so all of them go the way the first does. -/
theorem replay_route {d : Dev} {w : Nat} (l : List Pkt) {r : Route} (hr : (d.sess w).route = r) :
    l.foldl (fun d e => d.sendPkt (d.sess w).route e 0) d = l.foldl (fun d e => d.sendPkt r e 0) d := by
  induction l generalizing d with
  | nil => rfl
  | cons e l ih =>
    rw [List.foldl_cons, List.foldl_cons, hr]
    exact ih (by rw [sess_sendPkt, hr])

/-- An event packet of a session leaves the records of the others as they are. -/
theorem sess_sendEvent_other {m n : Nat} (op tag : Nat) (b : Bytes) (h : m ≠ n) : (d.sendEvent n op tag b).sess m = d.sess m := by
  simp only [Dev.sendEvent]
  split
  · rfl
  · rw [sess_sendPkt, sess_setSess_other _ _ h]

/-- One session's part of a notification. -/
def notifyOne (k cnt fst : Nat) (d : Dev) (n : Nat) : Dev :=
  if bit (d.sess n).mask (k / 32) then d.sendEvent n 0x00FF 0 (zeros 4 ++ enc 2 k ++ enc 2 cnt ++ enc 8 fst) else d

theorem notify_eq (k cnt fst : Nat) : d.notify k cnt fst = (List.range 5).foldl (notifyOne k cnt fst) d := rfl

variable {d}

/-- Sessions that do not select the source's group are told nothing. -/
theorem notifyOne_unselected {k cnt fst : Nat} {l : List Nat} (h : ∀ m ∈ l, bit (d.sess m).mask (k / 32) = false) :
    l.foldl (notifyOne k cnt fst) d = d := by
  induction l with
  | nil => rfl
  | cons m l ih =>
    have hm : notifyOne k cnt fst d m = d := by simp [notifyOne, h m List.mem_cons_self]
    rw [List.foldl_cons, hm]
    exact ih fun j hj => h j (List.mem_cons_of_mem _ hj)

theorem range_five_split : ∀ n < 5, List.range 5 = List.range n ++ n :: (List.range (4 - n)).map (n + 1 + ·) := by decide

/-- Where one session alone selects the source's group, it alone is told. -/
theorem notify_one {k n : Nat} (cnt fst : Nat) (hn : n < 5) (h : ∀ m < 5, bit (d.sess m).mask (k / 32) = decide (m = n)) :
    d.notify k cnt fst = d.sendEvent n 0x00FF 0 (zeros 4 ++ enc 2 k ++ enc 2 cnt ++ enc 8 fst) := by
  have hsplit := range_five_split n hn
  have hbefore : (List.range n).foldl (notifyOne k cnt fst) d = d := by
    refine notifyOne_unselected fun m hm => ?_
    have hlt := List.mem_range.mp hm
    rw [h m (by omega), decide_eq_false (by omega)]
  have hself : notifyOne k cnt fst d n = d.sendEvent n 0x00FF 0 (zeros 4 ++ enc 2 k ++ enc 2 cnt ++ enc 8 fst) := by
    simp [notifyOne, h n hn]
  rw [notify_eq, hsplit, List.foldl_append, hbefore, List.foldl_cons, hself]
  refine notifyOne_unselected fun m hm => ?_
  obtain ⟨j, hj, rfl⟩ := List.mem_map.mp hm
  have hlt := List.mem_range.mp hj
  rw [sess_sendEvent_other _ _ _ _ (by omega), h _ (by omega), decide_eq_false (by omega)]

end

/-! The bytes of STATUS (R61). -/

/-- Fields of `n` bytes each, one for each entry of a list. -/
theorem flatten_map_enc_length {α : Type} (n : Nat) (f : α → Nat) (l : List α) :
    ((l.map fun k => enc n (f k)).flatten).length = n * l.length := by
  induction l with
  | nil => rfl
  | cons k l ih => simp [ih, Nat.mul_add, Nat.add_comm]

/-- What is read of a STATUS reply: its first fields, and the fault count behind 12 bytes of sessions. -/
theorem statusBytes_fields {st stage ms faults ev : Nat} {a b : Bytes} (ha : a.length = 4) (hb : b.length = 8) (hst : st < 256)
    (hms : ms < 65536) :
    let x := enc 1 st ++ enc 1 stage ++ enc 2 ms ++ a ++ b ++ enc 4 faults ++ enc 2 ev
    x.length = 22 ∧ u8 x 0 = st ∧ u8 x 1 = stage % 256 ∧ u16 x 2 = ms ∧ u32 x 16 = faults % 2 ^ 32 := by
  refine ⟨by simp [ha, hb], ?_⟩
  simp only [List.append_assoc, u16, u32]
  simp (disch := simp [ha, hb]) only [be_append_right, u8_append_right, enc_length, ha, hb, Nat.reduceSub, be_enc, u8_enc_one, Nat.reducePow,
    Nat.mod_eq_of_lt hst, Nat.mod_eq_of_lt hms, and_self]

end Sys2Proof.Machine

namespace Sys2Proof.Proofs
open Sys2Proof.Machine

/-- Settles O5: the reset state is written out. -/
theorem heapFormAtReset : Obligations.HeapFormAtReset :=
  ⟨rfl, rfl, rfl, rfl, rfl, rfl, by decide, rfl⟩

/-- Settles O13: R55's table, a state of the function at a time; the end of a transition depends on what is stored. -/
theorem functionRequestTable : Obligations.FunctionRequestTable := by
  rintro ⟨st, stored, running⟩ c same
  cases st
  case off => simp [Fn.request]
  case on => simp [Fn.request]
  case starting => cases stored <;> simp [Fn.request, Fn.finish, Fn.fail]
  case stopping => cases stored <;> simp [Fn.request, Fn.finish]

/-- Settles O14: each report is its fields in order. -/
theorem deviceReports : Obligations.DeviceReports := by
  refine ⟨fun h p => ends_of_anvil (sp := specIdentity) rfl rfl (exec_identity · h p) fun c d _ => rfl, fun h p s hm => ?_⟩
  rw [exec_status, execStatus, anvil_of_mayBegin (p := p) rfl rfl rfl hm]
  refine ⟨_, rfl, ?_⟩
  generalize begunDev (.status h p) s = d
  obtain ⟨hlen, hst, hstage, hms, hfaults⟩ := statusBytes_fields
    (st := if ¬ d.pwr.ready then 0 else if d.pwr.safe then 3 else if d.contained then 2 else 1)
    (stage := if d.pwr.ready then 0 else d.pwr.stage) (ms := min d.elapsedMs 65535) (faults := d.pwr.faults)
    (ev := if (begunCmd (.status h p) s).who < 4 then (d.sess (begunCmd (.status h p) s).who).evSeq else 0)
    (flatten_map_enc_length 1 (fun n => (d.sess n).byte) (List.range 4))
    (flatten_map_enc_length 2 (fun n => (d.inFlightOf n).length) (List.range 4)) (by split_ifs <;> decide) (by omega)
  refine ⟨hlen, ?_, ?_, hms, hfaults⟩
  · rw [hst]; simp
  · rw [hstage]; split <;> rfl

/-- Settles O15: EVENT_SELECT and EVENT_REPLAY are their bodies; one selecting session is told alone (`notify_one`). -/
theorem eventSelectAndReplay : Obligations.EventSelectAndReplay := by
  refine ⟨fun h p s hm => ⟨begunCmd_op (sp := specEventSelect) s rfl, ?_⟩, fun h p s hm => ⟨begunCmd_op (sp := specEventReplay) s rfl, ?_⟩, fun h p => ?_,
    fun d k cnt fst n hn hsel => notify_one cnt fst hn hsel, fun h p => ?_, fun h p => ?_⟩
  · simpa [OpSpec.lenOk, specEventSelect, Instr.params] using lenOk_of_mayBegin (sp := specEventSelect) rfl hm
  · simpa [OpSpec.lenOk, specEventReplay, Instr.params] using lenOk_of_mayBegin (sp := specEventReplay) rfl hm
  · exact ends_of_anvil (sp := specEventSelect) rfl rfl (exec_eventSelect · h p) fun c d _ => rfl
  · refine ends_of_anvil (sp := specEventReplay) rfl rfl (exec_eventReplay · h p) fun c d hheld => ?_
    dsimp only
    rw [if_neg (Nat.not_lt.mpr hheld), replay_route _ rfl]
  · refine ends_of_anvil (sp := specEventReplay) rfl rfl (exec_eventReplay · h p) fun c d hlost => ?_
    exact if_pos hlost

end Sys2Proof.Proofs
end


section
/-! Stack ID, ABORT, held replies, timeouts and the control port's transactions (O17, O18). -/

namespace Sys2Proof.Machine

/-! The control port's outbound queue (R46). -/

/-- Where there is room no event packet is dropped. -/
theorem dropEvents_room (n : Nat) {need : Nat} {q : List Pkt} (h : outFill q + need ≤ cpOutCap) : dropEvents n need q = q := by
  cases n with
  | zero => rfl
  | succ n => exact if_pos h

/-- With nothing held, nothing enters the queue. -/
theorem enqueueHeld_none (n : Nat) {c : Cp} (h : c.held = []) : enqueueHeld n c = c := by
  cases n with
  | zero => rfl
  | succ n => simp only [enqueueHeld, h]

/-- A held reply for which there is room enters the queue, and those held after it follow. -/
theorem enqueueHeld_room (n : Nat) {c : Cp} {r : Pkt} {rest : List Pkt} (h : c.held = r :: rest)
    (hroom : outFill c.outbound + r.size ≤ cpOutCap) :
    enqueueHeld (n + 1) c = enqueueHeld n { c with outbound := c.outbound ++ [r], held := rest } := by
  simp only [enqueueHeld, h, dropEvents_room _ hroom, hroom, if_true]

/-! Sessions (R48). -/

section
variable {d : Dev}

/-- A closed session is not open. -/
theorem isOpen_closeSession {n : Nat} (h : n < d.anvil.sess.length) : ((d.closeSession n).sess n).isOpen = false := by
  simp only [Dev.closeSession]
  rw [sess_setSess_self _ _ (by simpa [Dev.withdraw] using h)]

theorem event_same {f : Dev → Dev} {s : State} (h : f s.dev = s.dev) : event f s = .next s := by
  rw [event_next, h]
  rfl

/-! Transactions on the control port (R45, R46). -/

theorem cpTransaction_silent (first : Nat) (b : Bytes) (n : Nat) (h : d.cpSilent = true) : d.cpTransaction first b n = d := if_pos h

theorem cpTransaction_write (b : Bytes) (n : Nat) (h : d.cpSilent = false) : d.cpTransaction 2 b n = d.cpWrite b := by
  simp [Dev.cpTransaction, h]

theorem cpTransaction_read (b : Bytes) (n : Nat) (h : d.cpSilent = false) : d.cpTransaction 3 b n = d.cpRead n := by
  simp [Dev.cpTransaction, h]

theorem cpTransaction_status (b : Bytes) (n : Nat) (h : d.cpSilent = false) : d.cpTransaction 5 b n = d.cpStatus := by
  simp [Dev.cpTransaction, h]

theorem cpTransaction_other {first : Nat} (b : Bytes) (n : Nat) (h : d.cpSilent = false) (hf : first ∉ [2, 3, 5]) :
    d.cpTransaction first b n = d.bump 0 R.TNK_CP_ABANDON := by
  simp only [List.mem_cons, List.not_mem_nil, or_false, not_or] at hf
  obtain ⟨h2, h3, h5⟩ := hf
  unfold Dev.cpTransaction
  rw [h, if_neg Bool.false_ne_true]
  split
  · exact absurd rfl h2
  · exact absurd rfl h3
  · exact absurd rfl h5
  · rfl

theorem fourBits_fields (busy full dropped ready : Bool) :
    let m := b2n busy + 2 * b2n full + 4 * b2n dropped + 8 * b2n ready
    m < 2 ^ 4 ∧ bit m 0 = busy ∧ bit m 1 = full ∧ bit m 2 = dropped ∧ bit m 3 = ready := by
  revert busy full dropped ready
  decide

/-- The STATUS byte (R45): each of its low four bits says one thing, whatever stage stands above them. -/
theorem statusByte_bits (busy full dropped ready : Bool) (stage : Nat) :
    let v := b2n busy + 2 * b2n full + 4 * b2n dropped + 8 * b2n ready + 16 * stage
    bit v 0 = busy ∧ bit v 1 = full ∧ bit v 2 = dropped ∧ bit v 3 = ready := by
  obtain ⟨hm, h0, h1, h2, h3⟩ := fourBits_fields busy full dropped ready
  intro v
  have hlow (k : Nat) (hk : k < 4) : bit v k = bit (b2n busy + 2 * b2n full + 4 * b2n dropped + 8 * b2n ready) k := by
    rw [show v = 2 ^ 4 * stage + _ from Nat.add_comm _ _]
    exact (Nat.testBit_two_pow_mul_add stage hm k).trans (if_pos hk)
  exact ⟨(hlow 0 (by decide)).trans h0, (hlow 1 (by decide)).trans h1, (hlow 2 (by decide)).trans h2, (hlow 3 (by decide)).trans h3⟩

end

end Sys2Proof.Machine

namespace Sys2Proof.Proofs
open Sys2Proof.Machine

/-- Settles O17: each clause is the body of its row, with the guard of its event decided. -/
theorem stackAbortAndTimeouts : Obligations.StackAbortAndTimeouts := by
  refine ⟨fun h p => ends_of_anvil (sp := specStackSet) rfl rfl (exec_stackSet · h p) fun c d _ => rfl, fun h p s hm => ?_,
    fun s r hon hheld hroom => ?_, fun src ident => ?_, fun n s hon hlt hopen => ?_, fun n s hon hlt hopen husable => ?_,
    fun n s hon husable => ?_⟩
  · rw [exec_abort, execAbort, anvil_of_mayBegin (p := p) rfl rfl rfl hm]
    rfl
  · rw [exec_heldReplyEnqueue, execHeldReplyEnqueue, hearthEvent_on hon, hheld, enqueueHeld_room _ hheld hroom, enqueueHeld_none _ rfl]
  · exact occurs_of_event (exec_fragmentTimeout · src ident) fun d _ => rfl
  · rw [exec_sessionIdleTimeout, execSessionIdleTimeout, hearthEvent_on hon, if_pos ⟨hlt, hopen⟩]
    exact ⟨_, rfl, rfl, isOpen_closeSession (sess_lt_of_isOpen hopen), rfl⟩
  · rw [exec_authOpenTimeout, execAuthOpenTimeout, hearthEvent_on hon, if_pos ⟨hlt, hopen, by simp [husable]⟩]
  · rw [exec_authOpenTimeout, execAuthOpenTimeout, hearthEvent_on hon, if_neg fun ⟨_, _, hunused⟩ => hunused husable]
    rfl

/-- Settles O18: each transaction by its first byte (`cpTransaction_write` and its like), then the branch of the port's own rule. -/
theorem controlPortTransactions : Obligations.ControlPortTransactions := by
  refine ⟨?held, ?full, ?malformed, ?readNone, ?readShort, ?readWhole, ?status, ?other, ?abandon, ?abandonWrite, ?silent⟩
  case held =>
    intro b
    refine occurs_of_event (exec_cpWrite · 2 b) ?_
    rintro d ⟨hon, hroom, hok⟩
    have hok' : (parsePkt .cp b).isNone = false := by simpa using hok
    rw [cpTransaction_write _ _ hon, Dev.cpWrite, if_neg (Nat.not_lt.mpr hroom), hok', if_neg Bool.false_ne_true]
  case full =>
    intro b
    refine occurs_of_event (exec_cpWrite · 2 b) ?_
    rintro d ⟨hon, hfull⟩
    rw [cpTransaction_write _ _ hon, Dev.cpWrite, if_pos hfull]
  case malformed =>
    intro b
    refine occurs_of_event (exec_cpWrite · 2 b) ?_
    rintro d ⟨hon, hroom, hbad⟩
    rw [cpTransaction_write _ _ hon, Dev.cpWrite, if_neg (Nat.not_lt.mpr hroom), hbad]
    rfl
  case readNone =>
    intro n
    refine occurs_of_event (exec_cpRead · 3 n) ?_
    rintro d ⟨hon, hnone⟩
    simp only [cpTransaction_read _ _ hon, Dev.cpRead, hnone]
  case readShort =>
    intro n q rest
    refine occurs_of_event (exec_cpRead · 3 n) ?_
    rintro d ⟨hon, hq, hshort⟩
    have hn : ¬ n ≥ (enc 2 q.size ++ q.bytes).length := by simpa using hshort
    simp only [cpTransaction_read _ _ hon, Dev.cpRead, hq, hn, if_false]
  case readWhole =>
    intro n q rest s hon hq hheld hn
    have hn' : n ≥ (enc 2 q.size ++ q.bytes).length := by simpa using hn
    rw [exec_cpRead, execCpRead, event_next]
    simp only [cpTransaction_read _ _ hon, Dev.cpRead, hq, hn', if_true, send_cp, hheld, enqueueHeld_none]
  case status =>
    intro s hon
    obtain ⟨h0, h1, h2, h3⟩ := statusByte_bits (decide (s.dev.cp.outbound ≠ [])) s.dev.cp.full s.dev.cp.dropped s.dev.pwr.ready
      (if s.dev.pwr.ready then 0 else s.dev.pwr.stage)
    refine ⟨_, ?_, h1, h2, h3, h0⟩
    rw [exec_cpStatus, execCpStatus, event_next, cpTransaction_status _ _ hon]
    rfl
  case other =>
    intro first b hf
    exact occurs_of_event (exec_cpWrite · first b) fun d hon => cpTransaction_other _ _ hon hf
  case abandon =>
    intro first b hf
    refine occurs_of_event (exec_cpAbandon · first b) fun d hon => ?_
    have hno : ¬(first = 2 ∨ first = 3) := by simpa using hf
    rw [hon, if_neg Bool.false_ne_true, if_neg hno]
  case abandonWrite =>
    intro b
    refine occurs_of_event (exec_cpAbandon · 2 b) fun d hon => ?_
    rw [hon, if_neg Bool.false_ne_true, if_pos (.inl rfl), cpTransaction_write _ _ hon]
  case silent =>
    intro first b
    exact occurs_of_event (exec_cpWrite · first b) fun d hs => cpTransaction_silent _ _ _ hs

end Sys2Proof.Proofs
end


section
/-! Stream slots: their configuration, admission, priority, owners and reports (O33). -/

namespace Sys2Proof.Machine

section
variable (d : Dev)

/-- R55: an enable finds the function OFF: its transition begins, and nothing is superseded. -/
theorem request_start {k : Nat} (same : Bool) (c : Cmd) (h : (d.fn k).st = .off) :
    d.request k true same c = (d.setFn k { st := .starting, stored := none, running := [c] }, .accepted, true) := by
  simp only [Dev.request, Fn.request, h, Dev.superseded, completeAll_nil]

/-- R55: a start that ends well with nothing stored leaves the function ON, and its commands complete DONE. -/
theorem fnDone_start {k : Nat} (h : (d.fn k).st = .starting) (hs : (d.fn k).stored = none) (b : Bytes) :
    d.fnDone k b = ((d.setFn k { st := .on }).completeAll (d.fn k).running St.done 0 b, none) := by
  simp only [Dev.fnDone, Fn.finish, h, hs]

/-! The owners of DECODE_ASSIGN (R134). -/

/-- The sixteen bytes that name the owner of each view. -/
abbrev ownerBytes (p : Bytes) : List Nat := (List.range 16).map fun i => u8 p (4 + i)

theorem ownerBytes_not_all_ff {p : Bytes} {i : Nat} (hi : i < 16) (h : u8 p (4 + i) ≠ 0xFF) : (ownerBytes p).all (· = 0xFF) = false :=
  List.all_eq_false.mpr ⟨_, List.mem_map.mpr ⟨i, List.mem_range.mpr hi, rfl⟩, by simpa using h⟩

theorem ownerBytes_take_legal {p : Bytes} {n : Nat} (h : ∀ i < n, u8 p (4 + i) ≤ 3) :
    ((ownerBytes p).take n).any (fun i => decide (i > 3)) = false := by
  refine List.any_eq_false.mpr fun x hx => ?_
  obtain ⟨i, hi, rfl⟩ := List.mem_take_iff_getElem.mp hx
  simpa using h i (by omega)

theorem ownerBytes_drop_zero {p : Bytes} {n : Nat} (h : ∀ i, n ≤ i → i < 16 → u8 p (4 + i) = 0) : ((ownerBytes p).drop n).any (· ≠ 0) = false := by
  refine List.any_eq_false.mpr fun x hx => ?_
  obtain ⟨i, hi, rfl⟩ := List.mem_drop_iff_getElem.mp hx
  have hi' : n + i < 16 := by simpa [Nat.add_comm] using hi
  simpa using h (n + i) (Nat.le_add_right ..) hi'

/-! Reports (R135). -/

theorem viewEntry_length (k i : Nat) : (d.viewEntry k i).length = 8 := by
  simp only [Dev.viewEntry]
  split <;> simp

theorem viewEntries_length (k : Nat) (l : List Nat) : ((l.map (d.viewEntry k)).flatten).length = 8 * l.length := by
  induction l with
  | nil => rfl
  | cons i l ih => simp [ih, viewEntry_length, Nat.mul_add, Nat.add_comm]

variable {d}

/-! Views of failed dies (R122). -/

/-- Where no placed view's owner has failed, what selects only those of failed owners selects none. -/
theorem placed_filter_nil {g : Nat × Nat × Option Nat → Bool}
    (hkept : ∀ e ∈ d.placed, ∀ i, e.2.2 = some i → d.fab.failed.getD i false = false)
    (hg : ∀ e, g e = true → ∃ i, e.2.2 = some i ∧ d.fab.failed.getD i false = true) : d.placed.filter g = [] := by
  refine List.filter_eq_nil_iff.mpr fun e he hge => ?_
  obtain ⟨i, howner, hfailed⟩ := hg e hge
  rw [hkept e he i howner] at hfailed
  exact Bool.false_ne_true hfailed

end

end Sys2Proof.Machine

namespace Sys2Proof.Proofs
open Sys2Proof.Machine

/-- Settles O33: each clause is the body of its row with its checks decided in their order. -/
theorem decodeSlots : Obligations.DecodeSlots := by
  refine ⟨?set, ?setBusy, ?enableEmpty, ?enableRefused, ?enable, ?started, ?priority, ?unassign, ?assign, ?status, ?noEvents, ?events, ?replace⟩
  case set =>
    intro h p
    refine ends_of_anvil (sp := specDecodeStreamSet) rfl rfl (exec_decodeStreamSet · h p) ?_
    rintro c d ⟨hoff, hpairs, hfree⟩
    have hall : ((streamCfgOf p).sources.any fun z => !d.pairExists z.pair) = false := by simpa using hpairs
    simp only [hoff, hall, hfree, ne_eq, not_true_eq_false, Bool.false_eq_true, if_false]
  case setBusy =>
    intro h p
    exact ends_of_anvil (sp := specDecodeStreamSet) rfl rfl (exec_decodeStreamSet · h p) fun c d hon => if_pos hon
  case enableEmpty =>
    intro h p
    exact ends_of_anvil (sp := specDecodeStreamEnable) rfl rfl (exec_decodeStreamEnable · h p) fun c d hnone => if_pos hnone
  case enableRefused =>
    intro h p
    refine ends_of_anvil (sp := specDecodeStreamEnable) rfl rfl (exec_decodeStreamEnable · h p) ?_
    rintro c d ⟨hcfg, hen, hoff, hno⟩
    simp only [hcfg, hen, hoff, hno, decide_true, Bool.false_eq_true, not_false_eq_true, and_self, if_true, if_false]
  case enable =>
    intro h p
    refine ends_of_anvil (sp := specDecodeStreamEnable) rfl rfl (exec_decodeStreamEnable · h p) ?_
    rintro c d ⟨hcfg, hen, hoff, hyes⟩
    have hreq := request_start d true c hoff
    simp only [hcfg, hen, hyes, hreq, decide_true, not_true_eq_false, and_false, if_true, if_false]
  case started =>
    intro k f hk
    refine occurs_of_hearthEvent (exec_decodeTransitionDone · k) ?_
    rintro d ⟨hon, rfl, hst, hstored⟩
    refine ⟨hon, ?_⟩
    have hwas : d.decSt k = .starting := hst
    simp only [Nat.not_lt.mpr hk, fnDone_start d hst hstored, hwas, if_false]
    rfl
  case priority =>
    intro h p
    refine ends_of_anvil (sp := specDecodePriority) rfl rfl (exec_decodePriority · h p) ?_
    rintro c d ⟨hcfg, hok⟩
    have hadmit : ¬(u8 p 1 ≥ 6 ∧ (d.stream (u8 p 0)).prio < 6 ∧ d.decSt (u8 p 0) ≠ .off ∧ ¬ d.admitLive (u8 p 0) = true) := by
      rintro ⟨hhigh, hlow, hon, hno⟩
      rcases hok with hlt | hlive | hoff | hadm
      · omega
      · omega
      · exact hon hoff
      · exact hno hadm
    simp only [hcfg, hadmit, if_false]
  case unassign =>
    intro h p
    refine ends_of_anvil (sp := specDecodeAssign) rfl rfl (exec_decodeAssign · h p) fun c d hall => ?_
    have hff : (((List.range 16).map fun i => u8 p (4 + i)).all (· = 0xFF)) = true := by simpa using hall
    simp only [hff, if_true]
  case assign =>
    intro h p z
    refine ends_of_anvil (sp := specDecodeAssign) rfl rfl (exec_decodeAssign · h p) ?_
    rintro c d ⟨hnext, hcfg, hone, -, hdies, hrest, htable⟩
    have hfirst := ownerBytes_not_all_ff (p := p) (i := 0) (by decide) (by have h0 := hdies 0 hone; omega)
    have hlegal := ownerBytes_take_legal hdies
    have hzero := ownerBytes_drop_zero hrest
    simp only [hfirst, hcfg, hlegal, hzero, htable, hnext, Bool.false_eq_true, Bool.or_self, if_false, if_true]
    rfl
  case status =>
    intro h p s hm
    rw [exec_decodeStatus, execDecodeStatus, anvil_of_mayBegin (p := p) rfl rfl rfl hm]
    refine ⟨_, rfl, ?_, ?_, ?_⟩
    · simp only [List.length_append, enc_length, zeros_length, viewEntries_length, List.length_range]
    · simp only [List.append_assoc, u8_enc_one]
      exact Nat.mod_eq_of_lt (fnSt_num_lt _)
    · simp only [List.append_assoc]
      rw [u8_append_right _ (by simp), enc_length, u8_enc_one]
  case noEvents =>
    intro h p
    refine ends_of_anvil (sp := specDecodeEvents) rfl rfl (exec_decodeEvents · h p) fun c d hnone => ?_
    simp [hnone]
  case events =>
    intro h p e r
    refine ends_of_anvil (sp := specDecodeEvents) rfl rfl (exec_decodeEvents · h p) fun c d hring => ?_
    simp only [hring, ge_iff_le]
  case replace =>
    refine occurs_of_hearthEvent (exec_viewReplace ·) ?_
    rintro d ⟨hon, hkept⟩
    refine ⟨hon, ?_⟩
    rw [placed_filter_nil hkept fun e hge => ?failed]
    · simp [Dev.byPriority]
    case failed =>
      split at hge
      case h_1 i hi => exact ⟨i, hi, hge⟩
      case h_2 => exact absurd hge Bool.false_ne_true

end Sys2Proof.Proofs
end


section
/-! The end of a load of uncompressed planish entries (O32). -/

namespace Sys2Proof.Machine

/-! A run of keys put in a sorted map. -/

/-- The map with `f i` at key `a + i` for each `i < n`. -/
abbrev amPutRun (f : Nat → Nat) (a n : Nat) (m : List (Nat × Nat)) : List (Nat × Nat) :=
  (List.range n).foldl (fun e i => amPut e (a + i) (f i)) m

theorem amPutRun_succ (f : Nat → Nat) (a n : Nat) (m : List (Nat × Nat)) : amPutRun f a (n + 1) m = amPut (amPutRun f a n m) (a + n) (f n) := by
  simp only [amPutRun, List.range_succ, List.foldl_append, List.foldl_cons, List.foldl_nil]

theorem amGet_amPutRun_outside (f : Nat → Nat) {a n j : Nat} (m : List (Nat × Nat)) (v : Nat) (h : j < a ∨ a + n ≤ j) :
    amGet (amPutRun f a n m) j v = amGet m j v := by
  induction n with
  | zero => rfl
  | succ n ih => rw [amPutRun_succ, amGet_amPut_other _ _ _ (by omega), ih (by omega)]

theorem amGet_amPutRun_inside (f : Nat → Nat) (a : Nat) {n i : Nat} (m : List (Nat × Nat)) (v : Nat) (h : i < n) :
    amGet (amPutRun f a n m) (a + i) v = f i := by
  induction n with
  | zero => exact absurd h (Nat.not_lt_zero i)
  | succ n ih =>
    rw [amPutRun_succ]
    rcases Nat.lt_succ_iff_lt_or_eq.mp h with hlt | rfl
    · rw [amGet_amPut_other _ _ _ (by omega), ih hlt]
    · exact amGet_amPut_self ..

/-! The copy a load has written (R90, R97). -/

/-- The device with the load over, its copy in a state, and the first `n` entries of the source in that copy. -/
def Dev.loaded (d : Dev) (l : MapLoad) (src : Bytes) (n st : Nat) : Dev :=
  let e := d.setCopy l.copy ⟨st, (d.copy l.copy).nominal, amPutRun (srcEntry src) l.first n (d.copy l.copy).entries⟩
  { e with pm := { e.pm with load := none } }

section
variable (d : Dev) (l : MapLoad) (src : Bytes) (n st : Nat)

theorem loadEnd_passed : d.loadEnd l src n none = (d.loaded l src n 3).complete l.cmd St.done 0 (enc 4 n ++ enc 4 0xFFFFFFFF) := rfl

theorem loadEnd_failed (r i : Nat) : d.loadEnd l src n (some (r, i)) = (d.loaded l src n 2).complete l.cmd St.fault r (enc 4 n ++ enc 4 i) := rfl

theorem loaded_frame : d.loaded l src n st = { d with pm := (d.loaded l src n st).pm } := rfl

theorem loaded_load : (d.loaded l src n st).pm.load = none := rfl

variable {d l}

theorem loaded_copy (h : l.copy < d.pm.copies.length) : (d.loaded l src n st).copy l.copy =
    ⟨st, (d.copy l.copy).nominal, amPutRun (srcEntry src) l.first n (d.copy l.copy).entries⟩ := by
  simp [Dev.loaded, Dev.setCopy, Dev.copy, h]

theorem loaded_state (h : l.copy < d.pm.copies.length) : ((d.loaded l src n st).copy l.copy).state = st := by rw [loaded_copy src n st h]

theorem loaded_entry_inside (h : l.copy < d.pm.copies.length) {i : Nat} (hi : i < n) :
    amGet ((d.loaded l src n st).copy l.copy).entries (l.first + i) 0 = srcEntry src i := by
  rw [loaded_copy src n st h]
  exact amGet_amPutRun_inside _ _ _ _ hi

theorem loaded_entry_outside (h : l.copy < d.pm.copies.length) {j : Nat} (v : Nat) (hj : j < l.first ∨ l.first + n ≤ j) :
    amGet ((d.loaded l src n st).copy l.copy).entries j v = amGet (d.copy l.copy).entries j v := by
  rw [loaded_copy src n st h]
  exact amGet_amPutRun_outside _ _ _ hj

end

/-! The entries of the source, checked in order (R84). -/

/-- The first entry of a source of `n` that does not pass its check. -/
def firstBad (src : Bytes) (n : Nat) : Option Nat := (List.range n).find? fun i => !entryOk (srcEntry src i)

theorem firstBad_none {src : Bytes} {n : Nat} (h : ∀ i < n, entryOk (srcEntry src i) = true) : firstBad src n = none :=
  List.find?_range_eq_none.mpr fun i hi => by simp [h i hi]

theorem firstBad_some {src : Bytes} {n k : Nat} (hk : k < n) (hbefore : ∀ i < k, entryOk (srcEntry src i) = true)
    (hbad : entryOk (srcEntry src k) = false) : firstBad src n = some k :=
  List.find?_range_eq_some.mpr ⟨by simp [hbad], List.mem_range.mpr hk, fun i hi => by simp [hbefore i hi]⟩

theorem Obj.read_length (o : Obj) (a n : Nat) : (o.read a n).length = n := by simp [Obj.read, cellsRead]

section
variable {s : State} {l : MapLoad} {o : Obj}

/-- R97: an uncompressed load from a buffer not LOST writes up to the first entry that fails, or all of them. -/
theorem planishLoadDone_plain (hon : s.dev.hearthOff = false) (hload : s.dev.pm.load = some l) (hfmt : l.format = 0)
    (hbuf : s.heap.buf l.buffer = some o) (hkept : o.lost = false) (hbytes : l.bytes = 16 * l.count) :
    exec .planishLoadDone s = .next (s.withDev (s.dev.loadEnd l (o.read l.offset l.bytes)
      ((firstBad (o.read l.offset l.bytes) l.count).getD l.count)
      ((firstBad (o.read l.offset l.bytes) l.count).map fun i => (Rsp.checkFail, l.first + i)))) := by
  have hall : min l.count ((o.read l.offset l.bytes).length / 16) = l.count := by rw [Obj.read_length]; omega
  rw [exec_planishLoadDone, execPlanishLoadDone, hearthEvent_on hon]
  simp only [hload, hbuf, loadSource, hfmt, hkept, hall, ne_eq, not_true_eq_false, false_and, Bool.false_eq_true, if_true, if_false]
  rw [← firstBad]
  cases firstBad (o.read l.offset l.bytes) l.count <;> rfl

end

end Sys2Proof.Machine

namespace Sys2Proof.Proofs
open Sys2Proof.Machine

/-- Settles O32: the load ends at the first entry that fails, or after the last, and what it has written is the run of entries before. -/
theorem planishEntriesAreChecked : Obligations.PlanishEntriesAreChecked := by
  refine ⟨?passed, ?failed⟩
  case passed =>
    intro s l o hon hload hfmt hbuf hkept hbytes hcopy hok
    refine ⟨s.dev.loaded l (o.read l.offset l.bytes) l.count 3, ?_, loaded_frame .., loaded_load .., loaded_state _ _ _ hcopy,
      fun i hi => loaded_entry_inside _ _ _ hcopy hi, fun j v hj => loaded_entry_outside _ _ _ hcopy v hj⟩
    rw [planishLoadDone_plain hon hload hfmt hbuf hkept hbytes, firstBad_none hok, ← loadEnd_passed]
    rfl
  case failed =>
    intro s l o k hon hload hfmt hbuf hkept hbytes hk hcopy hok hbad
    refine ⟨s.dev.loaded l (o.read l.offset l.bytes) k 2, ?_, loaded_frame .., loaded_state _ _ _ hcopy,
      fun i hi => loaded_entry_inside _ _ _ hcopy hi, fun j v hj => loaded_entry_outside _ _ _ hcopy v hj⟩
    rw [planishLoadDone_plain hon hload hfmt hbuf hkept hbytes, firstBad_some hk hok hbad, ← loadEnd_failed]
    rfl

end Sys2Proof.Proofs
end

section
/-!
The stream slots and the receptions of their sources (R103, R357): what is read after a change.
-/

namespace Sys2Proof.Machine

/-- What a function keeps of every element, changing one element by it keeps of the element at each place. -/
theorem getD_modify_keeps {α β : Type} (g : α → β) {f : α → α} (hf : ∀ x, g (f x) = g x) (l : List α) (i j : Nat) (x : α) :
    g ((l.modify i f).getD j x) = g (l.getD j x) := by
  rw [List.getD_eq_getElem?_getD, List.getD_eq_getElem?_getD, List.getElem?_modify]
  cases l[j]? with
  | none => rfl
  | some y => by_cases hij : i = j <;> simp [hij, hf]

variable (d : Dev)

/-! Stream slots. -/

theorem stream_setStream_self {k : Nat} (f : Stream → Stream) (h : k < d.dec.slots.length) :
    (d.setStream k f).stream k = f (d.stream k) := by
  simp [Dev.stream, Dev.setStream, h]

theorem stream_setStream_keeps {α : Type} (g : Stream → α) {f : Stream → Stream} (hf : ∀ x, g (f x) = g x) (k j : Nat) :
    g ((d.setStream k f).stream j) = g (d.stream j) := getD_modify_keeps g hf _ _ _ _

theorem slots_length_setStream (k : Nat) (f : Stream → Stream) : (d.setStream k f).dec.slots.length = d.dec.slots.length :=
  List.length_modify ..

/-- A change of a component leaves every view with its die. -/
theorem viewDie_setComp (k v : Nat) (dep : Bool) (f : Comp → Comp) (j w : Nat) : (d.setComp k v dep f).viewDie j w = d.viewDie j w :=
  congrArg (fun o : Option Nat => o.getD 0 + 1) (stream_setStream_keeps d (fun x => (x.views.getD w {}).owner)
    (fun x => getD_modify_keeps ViewSt.owner (by intro y; cases dep <;> rfl) x.views v w {}) k j)

end Sys2Proof.Machine
end

section
/-! Slices, rows, access units and late pictures (O34). -/

namespace Sys2Proof.Machine

section
variable {d : Dev} {k src : Nat} {c : StreamCfg} {z : Source}

/-- R105: a NAL unit other than a parameter set, of a layer that belongs to no component, is discarded and counted. -/
theorem nalIn_discards (t : Nat) {nal : Bytes} (hcfg : (d.stream k).cfg = some c) (hsrc : d.source? k src = some z)
    (hty : ¬(32 ≤ u8 nal 0 / 2 % 64 ∧ u8 nal 0 / 2 % 64 ≤ 34))
    (hlayer : layerComp c z (d.rxOf k src).vps (u8 nal 0 % 2 * 32 + u8 nal 1 / 8) = none) :
    d.nalIn k src t nal = d.bump (d.srcDie k src) R.DEC_LAYER_DISCARD := by
  simp only [Dev.nalIn, hcfg, hsrc, if_neg hty, hlayer]

end

/-! A slice at an entropy engine (R106–R108, R110, R113, R127). -/

section
variable {d : Dev} {i : Nat} {c : StreamCfg} {w : Work} {n : Nal} {x : SliceInfo}

/-- A slice that is not of a discarded RASL picture, at a die without the parameter sets of its source. -/
theorem slice_of_no_sets (hrasl : (d.comp w.slot w.view w.depth).noRasl = false) (hsets : d.hasSets w.slot i n.src = false) :
    d.slice i c w n x = d := by
  simp [Dev.slice, hrasl, hsets]

theorem slice_of_tool {t : Nat} (hrasl : (d.comp w.slot w.view w.depth).noRasl = false) (hsets : d.hasSets w.slot i n.src = true)
    (htool : c.toolCode w.depth x.ps = some t) : d.slice i c w n x = d.refuse w.slot w.view w.depth t x.poc := by
  simp [Dev.slice, hrasl, hsets, htool]

theorem slice_parsed (hrasl : (d.comp w.slot w.view w.depth).noRasl = false) (hsets : d.hasSets w.slot i n.src = true)
    (htool : c.toolCode w.depth x.ps = none) (hdec : (d.comp w.slot w.view w.depth).tool = none) :
    d.slice i c w n x = d.takeSlice i w.slot w.view w.depth x n.time (u8 n.data 0 / 2 % 64) := by
  simp [Dev.slice, hrasl, hsets, htool, hdec]

/-- R108: a component that decodes and is not leaving REJECTED becomes REJECTED. -/
theorem refuse_of_decoding {k v : Nat} {dep : Bool} (tool : Nat) (poc : Int) (htool : (d.comp k v dep).tool = none)
    (htrial : (d.comp k v dep).trial = none) : d.refuse k v dep tool poc = d.reject k v dep tool poc := by
  simp [Dev.refuse, htool, htrial]

end

end Sys2Proof.Machine

namespace Sys2Proof.Proofs
open Sys2Proof.Machine

/-- Settles O34: each clause is the branch of its row's meaning that its premise selects. -/
theorem picturesAreParsedAndClosed : Obligations.PicturesAreParsedAndClosed := by
  refine ⟨?discarded, ?noSlice, ?stalled, ?taken, ?rasl, ?noSets, ?rejected, ?parsed, ?noRow, ?row, ?lastRow, ?auNotOn, ?auCloses, ?raw,
    ?notLate, ?late⟩
  case discarded => exact fun d k src t nal c z hcfg hsrc hty hlayer => nalIn_discards t hcfg hsrc hty hlayer
  case noSlice =>
    intro i e x
    refine occurs_of_hearthEvent (exec_sliceSegmentParse · i e x) ?_
    rintro d ⟨hon, hnext⟩
    exact ⟨hon, by simp [hnext]⟩
  case stalled | taken =>
    intro i e x w n c hi he
    refine occurs_of_hearthEvent (exec_sliceSegmentParse · i e x) ?_
    rintro d ⟨hon, hnext, hcfg, hstall⟩
    exact ⟨hon, by simp [hnext, hcfg, hstall, Nat.not_lt.mpr hi, Nat.not_lt.mpr he]⟩
  case rasl =>
    intro d i c w n x hty hrasl
    simp [Dev.slice, hty, hrasl]
  case noSets => exact fun d i c w n x hrasl hsets => slice_of_no_sets hrasl hsets
  case rejected =>
    intro d i c w n x t hrasl hsets hcode htool htrial
    rw [slice_of_tool hrasl hsets hcode, refuse_of_decoding _ _ htool htrial]
    rfl
  case parsed => exact fun d i c w n x hrasl hsets hcode htool => slice_parsed hrasl hsets hcode htool
  case noRow =>
    intro i e
    refine occurs_of_hearthEvent (exec_ctuRowReconstruct · i e) ?_
    rintro d ⟨hon, hnext⟩
    exact ⟨hon, by simp [hnext]⟩
  case row =>
    intro i e w o hi he hmore
    refine occurs_of_hearthEvent (exec_ctuRowReconstruct · i e) ?_
    rintro d ⟨hon, hnext⟩
    refine ⟨hon, ?_⟩
    simp only [hnext]
    rw [if_neg (by omega), if_neg hmore]
  case lastRow =>
    intro i e w o hi he hlast hclosed
    refine occurs_of_hearthEvent (exec_ctuRowReconstruct · i e) ?_
    rintro d ⟨hon, hnext⟩
    refine ⟨hon, ?_⟩
    simp only [hnext]
    rw [if_neg (by omega), if_pos ⟨hlast, hclosed⟩]
  case auNotOn =>
    intro k src poc n r
    refine occurs_of_hearthEvent (exec_accessUnitClose · k src poc n r) ?_
    rintro d ⟨hon, hst⟩
    refine ⟨hon, ?_⟩
    split
    · exact if_pos (.inl hst)
    · rfl
  case auCloses =>
    intro k src poc n r c a
    refine occurs_of_hearthEvent (exec_accessUnitClose · k src poc n r) ?_
    rintro d ⟨hon, hcfg, hended, hst, hkind, hparsed⟩
    refine ⟨hon, ?_⟩
    simp only [hcfg, hended]
    exact if_neg (by simp only [hst, hkind, hparsed]; decide)
  case raw =>
    intro k src c z o
    refine occurs_of_hearthEvent (exec_uncompressedPictureClose · k src) ?_
    rintro d ⟨hon, hcfg, hsrc, hopened, hkind, hst⟩
    refine ⟨hon, ?_⟩
    simp only [hcfg, hsrc, hopened]
    exact if_neg (by simp [hkind, hst])
  case notLate =>
    intro k v dep o
    refine occurs_of_hearthEvent (exec_pictureLate · k v dep) ?_
    rintro d ⟨hon, hopened, hdue⟩
    refine ⟨hon, ?_⟩
    simp only [hopened]
    exact if_pos hdue
  case late =>
    intro k v dep o
    refine occurs_of_hearthEvent (exec_pictureLate · k v dep) ?_
    rintro d ⟨hon, hopened, hdue⟩
    refine ⟨hon, ?_⟩
    simp only [hopened]
    rw [if_neg (by simp [hdue]), viewDie_setComp]

end Sys2Proof.Proofs
end

section
/-!
What a delivered packet leaves to the merge of a source's two paths (R360): the part of the reception the merge reads, and the lost count.
-/

namespace Sys2Proof.Machine

section
variable (d : Dev)

/-! Receptions. -/

@[simp] theorem rxOf_setRx_self (k i : Nat) (x : SrcRx) : (d.setRx k i x).rxOf k i = x := amGet_amPut_self _ _ _ _

@[simp] theorem rxOf_setStream (j : Nat) (f : Stream → Stream) (k i : Nat) : (d.setStream j f).rxOf k i = d.rxOf k i := rfl

@[simp] theorem stream_setRx (k i : Nat) (x : SrcRx) (j : Nat) : (d.setRx k i x).stream j = d.stream j := rfl

/-! Deliveries. -/

/-- What the merge reads of a reception: all but what the depacketiser holds. -/
def SrcRx.merging (x : SrcRx) : SrcRx := { x with frag := none, vps := [], openTs := none, closed := none }

/-- What a delivery leaves as it is: the merge's part of the source's reception, and the count of its stream's lost packets. -/
def Dev.mergeOf (d : Dev) (k i : Nat) : SrcRx × Nat := ((d.rxOf k i).merging, (d.stream k).lost)

variable {k i : Nat}

@[simp] theorem mergeOf_bump (die : Nat) (f : Fld) (n : Nat) : (d.bump die f n).mergeOf k i = d.mergeOf k i := rfl

theorem mergeOf_newPic : d.newPic.2.mergeOf k i = d.mergeOf k i := rfl

theorem mergeOf_setRx {x : SrcRx} (h : x.merging = (d.rxOf k i).merging) : (d.setRx k i x).mergeOf k i = d.mergeOf k i := by
  simp [Dev.mergeOf, h]

theorem mergeOf_setStream {f : Stream → Stream} (hf : ∀ x, (f x).lost = x.lost) (j : Nat) : (d.setStream j f).mergeOf k i = d.mergeOf k i :=
  congrArg (Prod.mk _) (stream_setStream_keeps d Stream.lost hf j k)

@[simp] theorem mergeOf_setComp (j v : Nat) (dep : Bool) (f : Comp → Comp) : (d.setComp j v dep f).mergeOf k i = d.mergeOf k i :=
  mergeOf_setStream d (by intro x; rfl) j

@[simp] theorem mergeOf_auEnds (t : Nat) : (d.auEnds k i t).mergeOf k i = d.mergeOf k i :=
  mergeOf_setStream d (by intro x; rfl) k

@[simp] theorem mergeOf_auBreak (ts : Nat) : (d.auBreak k i ts).mergeOf k i = d.mergeOf k i := by
  unfold Dev.auBreak
  split
  · split <;> simp
  · rfl

@[simp] theorem mergeOf_setIn (nal : Bytes) : (d.setIn k i nal).mergeOf k i = d.mergeOf k i := by
  unfold Dev.setIn
  dsimp only
  split
  · exact (mergeOf_setRx _ (by rfl)).trans (mergeOf_setStream d (by intro x; rfl) k)
  · exact mergeOf_setStream d (by intro x; rfl) k

@[simp] theorem mergeOf_nalIn (t : Nat) (nal : Bytes) : (d.nalIn k i t nal).mergeOf k i = d.mergeOf k i := by
  unfold Dev.nalIn
  split
  · dsimp only
    split
    · exact mergeOf_setIn d nal
    · split
      · rfl
      · split
        · rfl
        · exact mergeOf_setStream d (by intro x; rfl) k
  · rfl

theorem mergeOf_depacketBody (t : Nat) (gap donl : Bool) (b : Bytes) : (d.depacketBody k i t gap donl b).mergeOf k i = d.mergeOf k i := by
  have hgap : (if gap then { d.rxOf k i with frag := none } else d.rxOf k i).merging = (d.rxOf k i).merging := by cases gap <;> rfl
  have hrx (f : Option Bytes) : (d.setRx k i { (if gap then { d.rxOf k i with frag := none } else d.rxOf k i) with frag := f }).mergeOf k i =
      d.mergeOf k i := mergeOf_setRx d hgap
  unfold Dev.depacketBody
  dsimp only
  split
  · exact mergeOf_setRx d hgap
  · split
    · exact hrx none
    · split
      · exact (foldl_keeps (Dev.mergeOf · k i) (fun e n => mergeOf_nalIn e t n) _ _).trans (hrx none)
      · split
        · split
          · exact (mergeOf_nalIn _ _ _).trans (hrx none)
          · exact hrx _
          · exact mergeOf_setRx d hgap
        · exact (mergeOf_nalIn _ _ _).trans (hrx none)

theorem mergeOf_depacket (ts : Nat) (gap mark donl : Bool) (b : Bytes) : (d.depacket k i ts gap mark donl b).mergeOf k i = d.mergeOf k i := by
  have hbody (t : Nat) : ((d.auBreak k i ts).depacketBody k i t gap donl b).mergeOf k i = d.mergeOf k i :=
    (mergeOf_depacketBody _ _ _ _ _).trans (mergeOf_auBreak d ts)
  unfold Dev.depacket
  dsimp only
  split
  · exact (mergeOf_auEnds _ _).trans ((mergeOf_setRx _ (by rfl)).trans (hbody _))
  · exact (mergeOf_setRx _ (by rfl)).trans (hbody _)

theorem mergeOf_rawOpen (c : StreamCfg) (z : Source) (time : Nat) : (d.rawOpen k c z time).mergeOf k i = d.mergeOf k i := by
  unfold Dev.rawOpen
  dsimp only
  rw [mergeOf_setComp]
  split
  · rw [mergeOf_bump, mergeOf_newPic]
  · exact mergeOf_newPic d

theorem mergeOf_rawEnd (z : Source) : (d.rawEnd k i z).mergeOf k i = d.mergeOf k i := by
  unfold Dev.rawEnd
  dsimp only
  split
  · rfl
  · rw [mergeOf_auEnds, mergeOf_setRx _ (by rfl), mergeOf_setComp]

/-- R111, R356: the runs of a packet written to the picture of its timestamp, which begins or ends with it where it must. -/
def Dev.rawWrite (d : Dev) (k i : Nat) (c : StreamCfg) (z : Source) (ts : Nat) (mark : Bool) (l : List RawRun) : Dev :=
  let x := d.rxOf k i
  let d := if x.openTs = some ts then d else d.rawEnd k i z
  let d := if x.openTs = some ts ∨ (d.view k z.view).owner = none then d else d.rawOpen k c z (d.rtpTime ts)
  let d := d.setRx k i { d.rxOf k i with openTs := some ts }
  let d := d.setComp k z.view z.depth fun m => { m with opened := m.opened.map fun o => if o.closed then o else { o with runs := o.runs ++ l } }
  if mark then d.rawEnd k i z else d

/-- R111, R355, R356: a packet of an uncompressed flow is of no source, is counted and no more, or is written. -/
theorem rawPacket_cases (ts iface : Nat) (mark : Bool) (b : Bytes) :
    d.rawPacket k i ts iface mark b = d ∨ (∃ die f, d.rawPacket k i ts iface mark b = d.bump die f) ∨
      ∃ c z l, d.rawPacket k i ts iface mark b = d.rawWrite k i c z ts mark l := by
  unfold Dev.rawPacket
  split
  · dsimp only
    split
    · exact .inr (.inl ⟨_, _, rfl⟩)
    · split
      · exact .inr (.inl ⟨_, _, rfl⟩)
      · split
        · exact .inr (.inl ⟨_, _, rfl⟩)
        · exact .inr (.inr ⟨_, _, _, rfl⟩)
  · exact .inl rfl

theorem mergeOf_ite {p : Prop} [Decidable p] {a b : Dev} {m : SrcRx × Nat} (ha : a.mergeOf k i = m) (hb : b.mergeOf k i = m) :
    (if p then a else b).mergeOf k i = m := by
  split <;> assumption

theorem mergeOf_rawWrite (c : StreamCfg) (z : Source) (ts : Nat) (mark : Bool) (l : List RawRun) :
    (d.rawWrite k i c z ts mark l).mergeOf k i = d.mergeOf k i := by
  have hend (e : Dev) (h : e.mergeOf k i = d.mergeOf k i) : (e.rawEnd k i z).mergeOf k i = d.mergeOf k i := (mergeOf_rawEnd e z).trans h
  unfold Dev.rawWrite
  extract_lets x d₁ d₂ y d₃ d₄
  have h₁ : d₁.mergeOf k i = d.mergeOf k i := mergeOf_ite rfl (hend d rfl)
  have h₂ : d₂.mergeOf k i = d.mergeOf k i := mergeOf_ite h₁ ((mergeOf_rawOpen ..).trans h₁)
  have h₄ : d₄.mergeOf k i = d.mergeOf k i := (mergeOf_setComp ..).trans ((mergeOf_setRx d₂ (by rfl)).trans h₂)
  exact mergeOf_ite (hend d₄ h₄) h₄

theorem mergeOf_rawPacket (ts iface : Nat) (mark : Bool) (b : Bytes) : (d.rawPacket k i ts iface mark b).mergeOf k i = d.mergeOf k i := by
  obtain h | ⟨die, f, h⟩ | ⟨c, z, l, h⟩ := rawPacket_cases d (k := k) (i := i) ts iface mark b
  · rw [h]
  · rw [h, mergeOf_bump]
  · rw [h, mergeOf_rawWrite]

/-- A packet delivered changes nothing that the merge reads. -/
theorem mergeOf_deliverPkt (iface : Nat) (gap : Bool) (p : HeldPkt) : (d.deliverPkt k i iface gap p).mergeOf k i = d.mergeOf k i := by
  unfold Dev.deliverPkt
  split
  · rfl
  · split
    · exact mergeOf_rawPacket ..
    · exact mergeOf_depacket ..

theorem mergeOf_deliverAll (iface : Nat) (gap : Bool) (l : List HeldPkt) : (d.deliverAll k i iface gap l).mergeOf k i = d.mergeOf k i := by
  unfold Dev.deliverAll
  refine foldl_keeps (fun e : Dev => e.mergeOf k i) ?_ _ d
  intro e p
  exact mergeOf_deliverPkt ..

end
end Sys2Proof.Machine
end

section
/-! The merge of a source's two paths: deliveries in order, and gaps given up (R357, R360). -/

namespace Sys2Proof.Machine

section
variable {d : Dev} {k i : Nat}

/-- Where the merge's parts of two receptions are the same, they have the same SSRC locked, number due and packets held. -/
theorem merging_eq {x y : SrcRx} (h : x.merging = y.merging) : x.ssrc = y.ssrc ∧ x.next = y.next ∧ x.held = y.held :=
  ⟨(congrArg SrcRx.ssrc h :), (congrArg SrcRx.next h :), (congrArg SrcRx.held h :)⟩

/-- R360: the one packet held is the one due: it is delivered, the next number is due, and none is held. -/
theorem drain_single {x : SrcRx} {p : HeldPkt} (hheld : x.held = [p]) (hnext : x.next = some p.seq) :
    ∃ y : SrcRx, SrcRx.drain (x.held.length + 1) x = (y, [p]) ∧ y.ssrc = x.ssrc ∧ y.next = some ((p.seq + 1) % 2 ^ 32) ∧ y.held = [] :=
  ⟨{ x with next := some ((p.seq + 1) % 2 ^ 32), held := [] }, by simp [SrcRx.drain, hheld, hnext], rfl, rfl, rfl⟩

@[simp] theorem deliverAll_nil (d : Dev) (k i iface : Nat) (gap : Bool) : d.deliverAll k i iface gap [] = d := rfl

@[simp] theorem rxOf_pairCount (d : Dev) (pr : Nat) (f : PairCnt → PairCnt) (k i : Nat) : (d.pairCount pr f).rxOf k i = d.rxOf k i := rfl

/-- Deliveries leave the merge as it is. -/
theorem deliverAll_keeps (iface : Nat) (gap : Bool) (l : List HeldPkt) :
    let t := d.deliverAll k i iface gap l
    (t.rxOf k i).ssrc = (d.rxOf k i).ssrc ∧ (t.rxOf k i).next = (d.rxOf k i).next ∧ (t.rxOf k i).held = (d.rxOf k i).held ∧
      (t.stream k).lost = (d.stream k).lost := by
  intro t
  obtain ⟨hrx, hlost⟩ := Prod.ext_iff.mp (mergeOf_deliverAll d (k := k) (i := i) iface gap l)
  obtain ⟨hssrc, hnext, hheld⟩ := merging_eq hrx
  exact ⟨hssrc, hnext, hheld, hlost⟩

/-- R360: the first packet of a source is delivered at once: the next number is due, and none is held. -/
theorem mergePacket_first (path pr q ts : Nat) (mark donl : Bool) (b : Bytes) (hnext : (d.rxOf k i).next = none)
    (hheld : (d.rxOf k i).held = []) :
    let t := d.mergePacket k i path pr q ts mark donl b
    (t.rxOf k i).ssrc = (d.rxOf k i).ssrc ∧ (t.rxOf k i).next = some ((q + 1) % 2 ^ 32) ∧ (t.rxOf k i).held = [] := by
  intro t
  suffices h : ∃ (e : Dev) (y : SrcRx) (p : HeldPkt), t = (e.setRx k i y).deliverAll k i (pairIf pr path) false [p] ∧
      y.ssrc = (d.rxOf k i).ssrc ∧ y.next = some ((q + 1) % 2 ^ 32) ∧ y.held = [] by
    obtain ⟨e, y, p, ht, hssrc, hnext', hheld'⟩ := h
    obtain ⟨h₁, h₂, h₃, -⟩ := deliverAll_keeps (d := e.setRx k i y) (k := k) (i := i) (pairIf pr path) false [p]
    rw [rxOf_setRx_self] at h₁ h₂ h₃
    exact ht ▸ ⟨h₁.trans hssrc, h₂.trans hnext', h₃.trans hheld'⟩
  show ∃ (e : Dev) (y : SrcRx) (p : HeldPkt), d.mergePacket k i path pr q ts mark donl b = _ ∧ _
  unfold Dev.mergePacket
  extract_lets iface now x x₁ wasDown x₂ d₁ nxt dd second far flushed d₂ d₃ d₄ x₃ x₄
  have hnxt : nxt = q := by simp [nxt, x₂, x₁, x, hnext]
  have hdd : dd = 0 := by simp only [dd, hnxt]; omega
  have hfind : x₂.held.find? (·.seq = q) = none := by simp [x₂, x₁, x, hheld]
  have hfar : far = false := decide_eq_false (by omega)
  have hflushed : flushed = [] := if_neg (by simp [hfar])
  have hx₃ : x₃ = { x₂ with next := some q } := by
    have hd₂ : d₂ = d₁.setRx k i { x₂ with next := some nxt } := if_neg (by simp [hfar])
    have hd₃ : d₃ = d₂ := (congrArg (d₂.deliverAll k i iface true) hflushed).trans (deliverAll_nil ..)
    have hrx : x₃ = d₃.rxOf k i := rxOf_pairCount d₃ pr _ k i
    rw [hrx, hd₃, hd₂, rxOf_setRx_self, hnxt]
  have hx₄ : x₄ = { x₂ with next := some q, held := x₂.held ++ [HeldPkt.mk q ts now mark donl b], first := ((q, path, now) :: x₂.first).take 8192 } :=
    congrArg (fun x : SrcRx => { x with held := x.held ++ [HeldPkt.mk q ts now mark donl b], first := ((q, path, now) :: x.first).take 8192 }) hx₃
  obtain ⟨y, hdrain, hssrc, hnext', hheld'⟩ := drain_single (x := x₄) (p := ⟨q, ts, now, mark, donl, b⟩)
    (by rw [hx₄]; exact congrArg (· ++ [_]) hheld) (by rw [hx₄])
  rw [if_neg (show ¬(dd ≥ 0x80000000) by omega), hfind, hdrain, hfar]
  exact ⟨d₄, y, _, if_neg (by simp [hheld']), hssrc.trans (by rw [hx₄]), hnext', hheld'⟩

/-- R360: where one packet is held behind a gap, the numbers missing before it are lost, and it is delivered. -/
theorem loseGap_single (iface pr : Nat) {p : HeldPkt} {n : Nat} (hk : k < d.dec.slots.length) (hheld : (d.rxOf k i).held = [p])
    (hnext : (d.rxOf k i).next = some n) (hp : p.seq < 2 ^ 32) (hn : n < 2 ^ 32) :
    let t := d.loseGap k i iface pr
    (t.rxOf k i).held = [] ∧ (t.rxOf k i).next = some ((p.seq + 1) % 2 ^ 32) ∧
      (t.stream k).lost = min ((d.stream k).lost + (p.seq + 2 ^ 32 - n) % 2 ^ 32) (2 ^ 32 - 1) := by
  have hseq : (n + (p.seq + 2 ^ 32 - n) % 2 ^ 32) % 2 ^ 32 = p.seq := by omega
  unfold Dev.loseGap
  simp only [hnext, hheld, List.foldl_cons, List.foldl_nil, hseq]
  generalize (p.seq + 2 ^ 32 - n) % 2 ^ 32 = m
  obtain ⟨y, hdrain, -, hnext', hheld'⟩ := drain_single (x := { d.rxOf k i with next := some p.seq, held := [p] }) rfl rfl
  rw [hdrain]
  obtain ⟨e, he⟩ : ∃ e, e = (d.setRx k i y).bump 0 (R.NET_PAIR_LOST pr) m := ⟨_, rfl⟩
  have hrx : e.rxOf k i = y := he ▸ rxOf_setRx_self d k i y
  have hdec : e.dec = d.dec := he ▸ rfl
  have hstream : (e.setStream k fun z => { z with lost := min (z.lost + m) (2 ^ 32 - 1) }).stream k =
      { d.stream k with lost := min ((d.stream k).lost + m) (2 ^ 32 - 1) } := by
    rw [stream_setStream_self e _ (hdec ▸ hk), show e.stream k = d.stream k by rw [Dev.stream, hdec]; rfl]
  obtain ⟨-, h₂, h₃, h₄⟩ := deliverAll_keeps (d := e.setStream k fun z => { z with lost := min (z.lost + m) (2 ^ 32 - 1) }) (k := k) (i := i)
    iface (decide (m > 0)) [p]
  rw [rxOf_setStream, hrx] at h₂ h₃
  rw [hstream] at h₄
  rw [← he]
  exact ⟨h₃.trans hheld', h₂.trans hnext', h₄⟩

/-- R360: a sweep that finds a source's one packet held longer than the window gives up the gap before it, and no more. -/
theorem sweepSource_single {z : Source} {p : HeldPkt} (hheld : (d.rxOf k i).held = [p]) (hwait : d.mergeWindow z ≤ d.now 3 - p.at_)
    (hlost : ((d.loseGap k i (pairIf z.pair 0) z.pair).rxOf k i).held = []) :
    d.sweepSource k i z ((d.rxOf k i).held.length + 1) = d.loseGap k i (pairIf z.pair 0) z.pair := by
  simp only [hheld, List.length_singleton, Dev.sweepSource, List.foldl_nil, hlost, if_neg (Nat.not_lt.mpr hwait)]

end
end Sys2Proof.Machine
end

section
/-! Packets depacketised (R110), frames received (R352) and paths that go DOWN (R361). -/

namespace Sys2Proof.Machine

section
variable {d : Dev} {k i : Nat}

/-! Depacketising (R110). -/

theorem setStream_ended_same : d.setStream k (fun x => { x with ended := x.ended }) = d := by
  show { d with dec := { d.dec with slots := d.dec.slots.modify k id } } = d
  rw [List.modify_id]

/-- What an end of an access unit by another timestamp changes at most. -/
theorem auBreak_frame (ts : Nat) : ∃ g : Stream → List EndedAu, d.auBreak k i ts = d.setStream k fun x => { x with ended := g x } := by
  unfold Dev.auBreak
  split
  · split
    · exact ⟨Stream.ended, setStream_ended_same.symm⟩
    · exact ⟨_, rfl⟩
  · exact ⟨Stream.ended, setStream_ended_same.symm⟩

theorem source?_of_cfg {e : Dev} (h : (e.stream k).cfg = (d.stream k).cfg) : e.source? k i = d.source? k i := by
  simp only [Dev.source?, Dev.sources, h]

/-- R110, R113: a coded slice of the base layer joins the NAL units of its source's component. -/
theorem nalIn_slice {c : StreamCfg} {z : Source} (t : Nat) {nal : Bytes} (hcfg : (d.stream k).cfg = some c) (hsrc : d.source? k i = some z)
    (hone : z.all = false) (howner : (d.view k z.view).owner ≠ none) (hty : u8 nal 0 / 2 % 64 < 32) (hlayer : u8 nal 0 % 2 * 32 + u8 nal 1 / 8 = 0) :
    d.nalIn k i t nal = d.setStream k fun x => { x with nals := x.nals ++ [⟨z.view, z.depth, i, t, nal⟩] } := by
  simp only [Dev.nalIn, hcfg, hsrc, layerComp, hone, hlayer]
  rw [if_neg (by omega)]
  exact if_neg (by simp [howner, hty])

/-- R110: a payload that is a NAL unit of its own is taken whole. -/
theorem depacketBody_single (t : Nat) (gap : Bool) {b : Bytes} (hlen : 3 ≤ b.length) (hty : u8 b 0 / 2 % 64 < 48) :
    d.depacketBody k i t gap false b = (d.setRx k i { d.rxOf k i with frag := none }).nalIn k i t b := by
  unfold Dev.depacketBody
  extract_lets x x' ty whole
  rw [if_neg (by omega), if_neg (by simp; omega), if_neg (by omega), if_neg (by omega)]
  have hwhole : whole = { d.rxOf k i with frag := none } := by cases gap <;> rfl
  rw [hwhole]

/-- R110, R113: a coded slice of the base layer in a packet of its own waits for an engine; no fragment is held. -/
theorem depacketBody_slice {c : StreamCfg} {z : Source} (t : Nat) (gap : Bool) {b : Bytes} (hk : k < d.dec.slots.length)
    (hcfg : (d.stream k).cfg = some c) (hsrc : d.source? k i = some z) (hone : z.all = false) (howner : (d.view k z.view).owner ≠ none)
    (hlen : 3 ≤ b.length) (hty : u8 b 0 / 2 % 64 < 32) (hlayer : u8 b 0 % 2 * 32 + u8 b 1 / 8 = 0) :
    let f := d.depacketBody k i t gap false b
    (f.stream k).nals = (d.stream k).nals ++ [⟨z.view, z.depth, i, t, b⟩] ∧ (f.rxOf k i).frag = none ∧
      f.dec.slots.length = d.dec.slots.length ∧ f.nextPick = d.nextPick := by
  intro f
  have hf : f = (d.setRx k i { d.rxOf k i with frag := none }).setStream k fun x => { x with nals := x.nals ++ [⟨z.view, z.depth, i, t, b⟩] } :=
    (depacketBody_single t gap hlen (by omega)).trans (nalIn_slice t hcfg hsrc hone howner hty hlayer)
  rw [hf]
  exact ⟨congrArg Stream.nals (stream_setStream_self (d.setRx ..) _ hk), congrArg SrcRx.frag (rxOf_setRx_self ..), slots_length_setStream .., rfl⟩

/-- R110: the access unit that ends is the newest of those ended. -/
theorem ended_auEnds (t : Nat) (hk : k < d.dec.slots.length) :
    ∃ r, ((d.auEnds k i t).stream k).ended = r ++ [{ src := i, time := t, due := d.nextPick }] :=
  ⟨_, congrArg Stream.ended (stream_setStream_self d _ hk)⟩

theorem nals_auEnds (t : Nat) : ((d.auEnds k i t).stream k).nals = (d.stream k).nals :=
  stream_setStream_keeps d Stream.nals (by intro x; rfl) k k

/-- R110: such a packet of a source, whatever access unit is open: with a marker bit its own access unit ends. -/
theorem depacket_slice {c : StreamCfg} {z : Source} (ts : Nat) (gap mark : Bool) {b : Bytes} (hk : k < d.dec.slots.length)
    (hcfg : (d.stream k).cfg = some c) (hsrc : d.source? k i = some z) (hone : z.all = false) (howner : (d.view k z.view).owner ≠ none)
    (hlen : 3 ≤ b.length) (hty : u8 b 0 / 2 % 64 < 32) (hlayer : u8 b 0 % 2 * 32 + u8 b 1 / 8 = 0) :
    let t := d.depacket k i ts gap mark false b
    (t.stream k).nals = (d.stream k).nals ++ [⟨z.view, z.depth, i, d.rtpTime ts, b⟩] ∧ (t.rxOf k i).frag = none ∧
      (t.rxOf k i).openTs = (if mark then none else some ts) ∧
      (mark = true → ∃ r, (t.stream k).ended = r ++ [{ src := i, time := d.rtpTime ts, due := d.nextPick }]) := by
  obtain ⟨g, hbreak⟩ := auBreak_frame (d := d) (k := k) (i := i) ts
  have hkeeps {α : Type} (h : Stream → α) (hg : ∀ x, h { x with ended := g x } = h x) : h ((d.auBreak k i ts).stream k) = h (d.stream k) :=
    hbreak ▸ stream_setStream_keeps d h hg k k
  have hcfg' := hkeeps Stream.cfg (by intro x; rfl)
  have hslots : (d.auBreak k i ts).dec.slots.length = d.dec.slots.length := hbreak ▸ slots_length_setStream ..
  have hpick : (d.auBreak k i ts).nextPick = d.nextPick := by rw [hbreak]; rfl
  obtain ⟨hnals, hfrag, hlength, hdue⟩ := depacketBody_slice (d := d.auBreak k i ts) (d.rtpTime ts) gap (hslots ▸ hk) (hcfg'.trans hcfg)
    ((source?_of_cfg hcfg').trans hsrc) hone (fun h => howner ((hkeeps (fun x => (x.views.getD z.view {}).owner) (by intro x; rfl)).symm.trans h))
    hlen hty hlayer
  rw [hkeeps Stream.nals (by intro x; rfl)] at hnals
  unfold Dev.depacket
  dsimp only
  generalize (d.auBreak k i ts).depacketBody k i (d.rtpTime ts) gap false b = f at *
  cases mark
  case false => exact ⟨hnals, by simp [hfrag], by simp, by simp⟩
  case true =>
    have hrx : ((f.setRx k i { f.rxOf k i with openTs := none }).auEnds k i (d.rtpTime ts)).rxOf k i = { f.rxOf k i with openTs := none } :=
      (rxOf_setStream ..).trans (rxOf_setRx_self ..)
    obtain ⟨r, hr⟩ := ended_auEnds (d := f.setRx k i { f.rxOf k i with openTs := none }) (k := k) (i := i) (d.rtpTime ts)
      (show k < f.dec.slots.length by omega)
    refine ⟨(nals_auEnds _).trans hnals, (congrArg SrcRx.frag hrx).trans hfrag, congrArg SrcRx.openTs hrx, fun _ => ⟨r, ?_⟩⟩
    rw [← hpick, ← hdue]
    exact hr

end

/-! Frames received (R352). -/

section
variable {d : Dev} {i : Nat} {b : Bytes}

/-- R352 steps 1 to 3: a good untagged ARP request for the interface's own address is answered, and its sender held. -/
theorem frameIn_arp (hlo : 60 ≤ b.length) (hhi : b.length ≤ 9212) (htag : (parseFrame b).tag = none) (hkind : (parseFrame b).kind = 0x0806)
    (hvlan : (d.ifCfg i).vlan = 0) (haddr : (d.ifCfg i).addr ≠ 0) (htarget : u32 (b.drop (parseFrame b).off) 24 = (d.ifCfg i).addr)
    (hreq : u16 (b.drop (parseFrame b).off) 6 = 1) :
    d.frameIn i true b = ({ d with net := { d.net with
      frames := amMod d.net.frames i 0 fun n => min (n + 1) (2 ^ 32 - 1)
      arp := amPut d.net.arp (i * 2 ^ 32 + u32 (b.drop (parseFrame b).off) 14) (u48 (b.drop (parseFrame b).off) 8) } } : Dev).send
        (.eth i (arpReply i (d.ifCfg i).addr (parseFrame b) (b.drop (parseFrame b).off))) := by
  obtain ⟨e, he⟩ : ∃ e : Dev, e = { d with net := { d.net with frames := amMod d.net.frames i 0 fun n => min (n + 1) (2 ^ 32 - 1) } } := ⟨_, rfl⟩
  have hcfg : e.ifCfg i = d.ifCfg i := by rw [he]; rfl
  unfold Dev.frameIn
  rw [← he]
  simp only [hcfg, htag, hkind, hvlan, htarget, hreq, reduceCtorEq, decide_false, Bool.and_false, Bool.false_eq_true, if_false]
  rw [if_neg (by simp; omega), if_neg (by simp), if_pos trivial, if_neg (by simp [haddr]), if_pos trivial, he]

/-- R386: with FEC on the codewords it corrected are counted; nothing but registers changes, and without FEC nothing. -/
theorem fec_counts (cor bad : Nat) :
    let e := if d.ifFec i then (d.bump 0 (R.NET_FEC_CORR i) cor).bump 0 (R.NET_FEC_UNCORR i) bad else d
    e = { d with regs := e.regs } ∧
      (d.ifFec i = true → e.rd 0 (R.NET_FEC_CORR i) = min (d.rd 0 (R.NET_FEC_CORR i) + cor) (2 ^ 32 - 1)) ∧
      (d.ifFec i = false → e.regs = d.regs) := by
  cases hfec : d.ifFec i
  case false => exact ⟨rfl, nofun, fun _ => rfl⟩
  case true =>
    refine ⟨rfl, fun _ => ?_, nofun⟩
    rw [if_pos rfl, rd_bump_addr _ _ (regAddr_off (by show 0x3100300 + 0x4 * i ≠ 0x3100400 + 0x4 * i; omega))]
    exact rd_bump_self d 0 (R.NET_FEC_CORR i) cor (Nat.zero_le 31) (Nat.lt_succ_self 31)

end

/-! Paths DOWN (R361). -/

section
variable {d : Dev} {k i : Nat} {z : Source}

/-- Another register than the count of unassigned sources is as before a raise (R472). -/
theorem rd_raise (d : Dev) (s : Nat) {k : Nat} {g : Fld} (h : regAddr k g.off ≠ regAddr 0 R.IRQ_UNASSIGNED.off) : (d.raise s).rd k g = d.rd k g := by
  unfold Dev.raise
  split
  · exact rd_bump_addr d 1 h
  · split
    · rfl
    · rw [raiseAt_frame]
      rfl

/-- While a path of one of a pair's sources is DOWN, the pair's bit of the path is set. -/
theorem pairDown_set {path : Nat} (hk : k < 8) (hsrc : d.source? k i = some z) (hdown : (d.rxOf k i).down.getD path false = true) :
    d.pairDown z.pair path = d.wr 0 (if path = 0 then R.NET_PAIR_A_DOWN z.pair else R.NET_PAIR_B_DOWN z.pair) 1 := by
  have hany : ((List.range 8).any fun k => ((d.sources k).zipIdx).any fun e => e.1.pair = z.pair && (d.rxOf k e.2).down.getD path false) = true := by
    refine List.any_eq_true.mpr ⟨k, List.mem_range.mpr hk, List.any_eq_true.mpr ⟨(z, i), ?_, by rw [hdown]; simp⟩⟩
    exact List.mk_mem_zipIdx_iff_getElem?.mpr hsrc
  unfold Dev.pairDown
  dsimp only
  rw [hany]
  rfl

/-- A raise is no matter of a reception (R472). -/
theorem rxOf_raise (s : Nat) : (d.raise s).rxOf k i = d.rxOf k i := by
  rw [raise_frame]
  rfl

/-- R361: a path that goes DOWN is marked at the source, and path A's in the pair's register too. -/
theorem pathDown_marks {x : SrcRx} {path : Nat} (hk : k < 8) (hsrc : d.source? k i = some z) (hdown : x.down.getD path false = true) :
    let t := ((d.setRx k i x).pairDown z.pair path).raise (145 + z.pair)
    t.rxOf k i = x ∧ (path = 0 → t.rd 0 (R.NET_PAIR_A_DOWN z.pair) = 1) := by
  dsimp only
  rw [pairDown_set hk (d := d.setRx k i x) (i := i) hsrc (by rw [rxOf_setRx_self]; exact hdown)]
  refine ⟨(rxOf_raise _).trans (rxOf_setRx_self ..), fun hA => ?_⟩
  rw [rd_raise _ _ (regAddr_off (by show 0x3100500 + 0x4 * z.pair ≠ 0x0E00208; omega)), if_pos hA]
  exact rd_wr_self _ 0 (R.NET_PAIR_A_DOWN z.pair) 1 (Nat.le_refl 0) (by show 0 < 32; omega)

end
end Sys2Proof.Machine
end

section
/-! Frames classified; packets of sources merged in order and depacketised (O51). -/

namespace Sys2Proof.Proofs
open Sys2Proof.Machine

/-- Settles O51: each clause is its row's meaning on the packet or path it names; a delivery leaves the merge's part of the reception
(`deliverAll_keeps`). -/
theorem packetsAreMergedAndDepacketised : Obligations.PacketsAreMergedAndDepacketised := by
  refine ⟨?arp, ?slice, ?first, ?swept, ?down, ?unlocked⟩
  case arp =>
    intro i cor bad b s hon hexists hlink hheld hlo hhi htag hkind hvlan haddr htarget hreq
    obtain ⟨hframe, hon', hoff⟩ := fec_counts (d := s.dev) (i := i) cor bad
    have hexec : exec (.ethFrameRx i true cor bad b) s = .next (s.withDev ((if s.dev.ifFec i then
        (s.dev.bump 0 (R.NET_FEC_CORR i) cor).bump 0 (R.NET_FEC_UNCORR i) bad else s.dev).frameIn i true b)) := by
      rw [exec_ethFrameRx, execEthFrameRx, hearthEvent_on hon]
      exact congrArg (fun x => Host.Outcome.next (s.withDev x)) (if_neg (by simp [hexists, hlink, hheld]))
    generalize (if s.dev.ifFec i then (s.dev.bump 0 (R.NET_FEC_CORR i) cor).bump 0 (R.NET_FEC_UNCORR i) bad else s.dev) = e at *
    generalize e.regs = r at *
    subst hframe
    rw [frameIn_arp (d := { s.dev with regs := r }) hlo hhi htag hkind hvlan haddr htarget hreq] at hexec
    exact ⟨_, hexec, rfl, hon', hoff, rfl, rfl⟩
  case slice =>
    intro k i ts gap mark b cfg z s hon hk hslots hcfg hkind hsrc hone howner hlen hty hlayer
    refine ⟨s.dev.depacket k i ts gap mark false b, ?_, depacket_slice ts gap mark hslots hcfg hsrc hone howner hlen hty hlayer⟩
    rw [exec_rtpPacketRx, execRtpPacketRx, hearthEvent_on hon]
    simp [hcfg, hsrc, hk, hkind]
  case first =>
    intro k i ssrc q ts mark donl b z cfg s hon hcfg hkind hsrc hst hnew
    obtain ⟨hssrc, hnext, hheld⟩ := mergePacket_first
      (d := s.dev.setRx k i { ssrc := some ssrc, ssrcAt := s.dev.now 3, high := some (q % 65536) }) (k := k) (i := i) 0 z.pair (q % 65536) ts mark
      donl b (by rw [rxOf_setRx_self]) (by rw [rxOf_setRx_self])
    refine ⟨_, ?_, hssrc.trans (by rw [rxOf_setRx_self]), hnext, hheld⟩
    rw [exec_pathPacketRx, execPathPacketRx, hearthEvent_on hon]
    simp [Dev.pathPacket, hcfg, hsrc, hst, hnew, hkind, extendSeq]
  case swept =>
    intro k z pk n s hon hk hslots hrx hsources hheld hnext hseq hn hwait
    have hlost := loseGap_single (pairIf z.pair 0) z.pair hslots hheld hnext hseq hn
    refine ⟨_, ?_, hlost⟩
    rw [exec_mergeWindowSweep, execMergeWindowSweep, hearthEvent_on hon, hrx]
    simp only [List.foldl_cons, List.foldl_nil, hsources, List.zipIdx_cons, List.zipIdx_nil, sweepSource_single hheld hwait hlost.1]
  case down =>
    intro k i path z s hon hk hpath hsrc hgroup hlen hup hsilent
    have hdown : ((s.dev.rxOf k i).down.set path true).getD path false = true := by
      simp [show path < (s.dev.rxOf k i).down.length by omega]
    obtain ⟨hrx, hA⟩ := pathDown_marks (x := { s.dev.rxOf k i with down := (s.dev.rxOf k i).down.set path true }) hk hsrc hdown
    refine ⟨_, ?_, by rw [hrx]; exact hdown, hA⟩
    rw [exec_pathDown, execPathDown, hearthEvent_on hon]
    simp only [hsrc, hup, hsilent]
    rw [if_neg (by simp [hgroup]; omega)]
  case unlocked =>
    intro k i
    refine occurs_of_hearthEvent (exec_ssrcTimeout · k i) ?_
    rintro d ⟨hon, hk, hsrc, hsilent⟩
    exact ⟨hon, if_pos ⟨hk, hsrc, hsilent⟩⟩

end Sys2Proof.Proofs
end

section
/-! Frames picked, and strips dealt, begun, rescued and completed (O36). -/

namespace Sys2Proof.Machine

variable (d : Dev)

/-! Host requests for grates (R167), and the picks (R145, R154). -/

/-- With no request pending, the grate list stays as it is. -/
@[simp] theorem moveGrates_of_moving_nil {d : Dev} (all : Bool) (h : d.syn.moving = []) : d.moveGrates all = d := by
  simp [Dev.moveGrates, h]

@[simp] theorem cachePurge_picks : d.cachePurge.syn.picks = d.syn.picks := rfl

/-! Reads that all return correct (R154, R177). -/

/-- Views of which none ceases to be usable: the picks stay as they are. -/
@[simp] theorem unpick_none_gone : d.unpick (fun _ _ => false) = d := by
  have hpick (l : List Pick) : (l.map fun k => { k with views := k.views.filter fun _ => !false }) = l :=
    List.map_id'' (fun k => by simp) l
  have hmonitor (o : Option Pick) : (o.map fun k => { k with views := k.views.filter fun _ => !false }) = o := by
    cases o <;> simp
  have hpic (l : List EncPic) : (l.map fun q => { q with pick := q.pick }) = l := List.map_id l
  have hslot (l : List EncSlot) : (l.map fun x => { x with pics := x.pics }) = l := List.map_id l
  simp only [Dev.unpick, hpick, hmonitor, hpic, hslot]

/-- Where no read for a strip returned uncorrectable, nothing is lost, counted or reported. -/
@[simp] theorem badReads_nil (hp : Heap) (k : Pick) (is : Strip → Bool) (die : Nat → Nat) : d.badReads hp k is die [] [] = d := by
  simp [Dev.badReads]

/-! A strip's codes computed (R144, R160). -/

/-- Computing a strip counts its rays, and changes nothing of the synthesis state. -/
@[simp] theorem computeStrip_syn (hp : Heap) (k : Pick) (t : Strip) : (d.computeStrip hp k t).2.syn = d.syn := by
  refine foldl_keeps (fun a : List (List Nat) × Dev => a.2.syn) ?_ _ _
  intro a e
  exact countRays_syn ..

theorem strip?_congr {d e : Dev} (h : d.syn = e.syn) (r v i f : Nat) : d.strip? r v i f = e.strip? r v i f := by
  simp only [Dev.strip?, h]

/-- A strip of a picked frame whose reads all returned correct: its codes are computed, it is counted, and it is complete. -/
theorem stripDone_correct {d : Dev} {r v i f : Nat} {t : Strip} {k : Pick} (hp : Heap) (ht : d.strip? r v i f = some t)
    (hk : (d.syn.picks.find? fun k => k.frame = f) = some k) :
    d.stripDone hp t [] [] = ((d.computeStrip hp k t).2.bump ((d.computeStrip hp k t).2.countDie t.die) R.SYN_STRIPS).setStrip
      { t with phase := 2, lines := (d.computeStrip hp k t).1, cuts := [] } := by
  obtain ⟨rfl, rfl, rfl, rfl⟩ := strip_is_iff.1 (List.find?_some ht :)
  have ht' : (d.syn.strips.find? fun x => x.is t.region t.view t.idx t.frame) = some t := ht
  simp only [Dev.stripDone, hk, badReads_nil, ht', Option.getD_some]

/-- Such a strip is found complete, with the codes of its rays. -/
theorem strip?_stripDone_correct {d : Dev} {r v i f : Nat} {t : Strip} {k : Pick} (hp : Heap) (ht : d.strip? r v i f = some t)
    (hk : (d.syn.picks.find? fun k => k.frame = f) = some k) :
    (d.stripDone hp t [] []).strip? r v i f = some { t with phase := 2, lines := (d.computeStrip hp k t).1, cuts := [] } := by
  rw [stripDone_correct hp ht hk]
  refine strip?_setStrip (t := t) ?_ (strip_is_iff.2 (strip_is_iff.1 (List.find?_some ht :)))
  rw [← ht]
  exact strip?_congr (by simp) r v i f

end Sys2Proof.Machine

namespace Sys2Proof.Proofs
open Sys2Proof.Machine

/-- Settles O36: each event's branch; a strip whose reads all returned correct is complete by `strip?_stripDone_correct`. -/
theorem stripsAreDealtBegunAndComplete : Obligations.StripsAreDealtBegunAndComplete := by
  unfold Obligations.StripsAreDealtBegunAndComplete
  refine ⟨?picked, ?early, ?pick, ?deal, ?notDealt, ?begins, ?rescue, ?notCompleted, ?complete, ?codes, ?redone⟩
  case picked =>
    intro f
    refine occurs_of_hearthEvent (exec_pickTime · f) ?_
    rintro d ⟨hon, hpicked⟩
    exact ⟨hon, if_pos (.inr (.inl hpicked))⟩
  case early =>
    intro f
    refine occurs_of_hearthEvent (exec_pickTime · f) ?_
    rintro d ⟨hon, hearly⟩
    exact ⟨hon, if_pos (.inr (.inr (by simp [hearly])))⟩
  case pick =>
    intro f s hon hmode hnew hdue
    refine ⟨_, by rw [exec_pickTime, execPickTime, hearthEvent_on hon, if_neg (by simp [hmode, hnew, hdue])], ?_⟩
    rw [cachePurge_picks]
    exact ⟨List.length_take_le .., _, _, List.take_succ_cons, rfl, rfl, rfl⟩
  case deal =>
    intro r v i f k e
    refine occurs_of_hearthEvent (exec_stripDeal · ..) ?_
    rintro d ⟨hon, hmoving, hk, hexists, hdead, hnext, hdue, he⟩
    refine ⟨hon, ?_⟩
    simp only [hk, moveGrates_of_moving_nil false hmoving, he]
    exact if_neg (by simp [-List.contains_eq_mem, hexists, hdead, hnext, hdue])
  case notDealt =>
    intro r v i f
    refine occurs_of_hearthEvent (exec_stripDeal · ..) ?_
    rintro d ⟨hon, hwait⟩
    refine ⟨hon, ?_⟩
    cases hk : d.syn.picks.find? fun k => k.frame = f with
    | none => rfl
    | some k => exact if_pos (.inr (.inr (hwait.imp (fun hnext => by simp [hnext]) fun hearly => by simp [hearly])))
  case begins =>
    intro r v i f t hphase hredone hrescued
    refine occurs_of_hearthEvent (exec_stripBegin · ..) ?_
    rintro d ⟨hon, hs, hmay⟩
    refine ⟨hon, ?_⟩
    simp only [hs]
    exact if_pos ⟨hphase, by simp [hredone], by simp [hrescued], hmay⟩
  case rescue =>
    intro r v i f t hphase hredone hrescued
    refine occurs_of_hearthEvent (exec_stripRescue · ..) ?_
    rintro d ⟨hon, hs, hlist, hdue⟩
    refine ⟨hon, ?_⟩
    simp only [hs]
    exact if_neg (by simp [hphase, hredone, hrescued, hlist, hdue])
  case notCompleted =>
    rintro r v i f a b t hdone s ⟨hon, hs⟩
    have hstop : t.redone = true ∨ t.phase ≥ 2 ∨ t.phase = 0 ∧ ¬ t.rescued = true :=
      .inr (hdone.imp_right fun ⟨hphase, hrescued⟩ => ⟨hphase, by simp [hrescued]⟩)
    rw [exec_stripComplete, execStripComplete, hearthEvent_on hon]
    cases hpick : s.dev.syn.picks.any fun k => k.frame = f with
    | false => simp only [hs, id]
    | true => simp only [hs, if_pos hstop, id]
  case complete =>
    intro r v i f a b t s hon hbegun hredone hs hpick
    have hgo : ¬(t.redone = true ∨ t.phase ≥ 2 ∨ t.phase = 0 ∧ ¬ t.rescued = true) := by
      rcases hbegun with hphase | ⟨hphase, hrescued⟩
      · simp [hredone, hphase]
      · simp [hredone, hphase, hrescued]
    rw [exec_stripComplete, execStripComplete, hearthEvent_on hon]
    simp only [hs, hpick, if_neg hgo]
  case codes =>
    intro d hp r v i f t k ht hk
    exact strip?_stripDone_correct hp ht hk
  case redone =>
    intro t s a b hon hredoing hparts hpick
    rw [exec_redoneStripComplete, execRedoneStripComplete, hearthEvent_on hon]
    simp only [hredoing]
    rw [if_neg (by simp [-List.any_eq_true, hparts, hpick])]

end Sys2Proof.Proofs
end

section
/-!
The object heap's form (R178, R179, R195): a row that is not among those that change the heap leaves it as it is (O4), and each that is keeps
the canonical form (O6). Each shared operation on the heap keeps the form once for all the rows that use it.
-/

namespace Sys2Proof.Machine

/-- An outcome goes on from `s` with another device alone. -/
def OnDevice (s : State) (o : Host.Outcome State Fault Refusal) : Prop := ∃ d, o = .next (s.withDev d)

theorem anvil_onDevice (sp : OpSpec) (h : Hdr) (p : Bytes) (i : Instr) (body : Cmd → Dev → Dev × Rep) (s : State) :
    OnDevice s (anvil sp h p i body s) := by
  unfold anvil
  split <;> exact ⟨_, rfl⟩

theorem event_onDevice (f : Dev → Dev) (s : State) : OnDevice s (event f s) := ⟨_, event_next f s⟩

theorem hearthEvent_onDevice (f : Dev → Dev) (s : State) : OnDevice s (hearthEvent f s) := event_onDevice _ s

/-- A row that is not among those that change the heap has the shape of a command or an event on the device alone. -/
theorem exec_onDevice (i : Instr) (s : State) (hi : changesHeap i = false) : OnDevice s (exec i s) := by
  unfold exec
  cases i
  case regWrite | regModify | bufCreate | bufWrite | bufFree | surfUpload | surfaceCreate | surfaceFree | camEnable | damperRegWrite |
      registerWrite | surfUploadDone | surfaceFreeComplete | bltFillStart | bltCopyStart | bltConvertStart | blitComplete | camLineRx |
      camFrameEnd | camFrameStart | camFrameTimeout | pipeLineTake | camTransitionDone | ingotJobRun | eyeScanDone | tapTestDone |
      channelFail | memRequestTimeout | memRequest | scrubRead | dqsRetrack | resetAssert | startupStageComplete | railComparatorTrip |
      hobDieFail =>
    nomatch hi
  case bellowsSetpoint | commit | filmUpdate | eyeScan | tapTest | thmSet =>
    dsimp only [execBellowsSetpoint, execCommit, execFilmUpdate, execEyeScan, execTapTest, execThmSet]
    exact anvil_onDevice ..
  case identity | status | abort | sessionOpen | sessionClose | keySet | stackSet | modeSet | eventSelect | eventReplay | regRead |
      bufRead | raymodelSet | raymodelGet | aimSet | planishLoad | planishClone | planishSelect | planishRead | planishStatus |
      decodeStreamSet | decodeStreamEnable | decodePriority | decodeAssign | decodeStatus | decodeEvents | synSourceSet |
      synSourceGet | synConfig | synStatus | synGrateSet | layerSet | layerStatus | fenceOp | blit | rasterSet | rasterEnable |
      genlockSet | rasterStatus | signatureRead | panelCurveSet | filmTableSet | filmConfig | filmEnable | filmStatus |
      panelRetain | quenchConfig | projCurveSet | quenchStatus | lampEnable | lampChannelSet | lampTableSet | lampSetpoint |
      lampClear | lampNodes | lampNodeAccess | bellowsLoopSet | bellowsCoeffSet | bellowsSwap | bellowsEnable | bellowsStatus |
      linkEnable | linkStatus | lanePower | netPortSet | netPortEnable | netIfSet | netPairSet | netAnvilSet | netStatus |
      netPairStatus | timeSet | timeRead | ptpSet | ptpStatus | ptpSamples | tpoSet | tciSet | tciRead | memStatus | memTimingSet |
      memFreq | memTest | memNbrSet | clkStatus | clkConfig | clkSelect | camSet | camPipeSet | camStatsSet | camStatus | trimRun |
      trimRead | trimWrite | thmStatus | thmAck | hkRead | tinkerSwitch | bootcfgSet | ageSet | ageReplan | ageSample | ashStatus |
      ashRead | ashNote | ashClear | updateStage | updateActivate | updateStatus | encStreamSet | encStreamEnable | encViewSet |
      encKey | encStatus | ingotJob | ingotFree | ingotStatus =>
    exact anvil_onDevice ..
  case lampTransitionDone | lanePowerDone | cpWrite | cpRead | cpStatus | cpAbandon | fragmentTimeout | ashSummary |
      damperFwdLoss | damperFwdRestore | damperLaneLoss | laneReverseDone | timeFwd | flueSynthHoldover | damperCommitPart |
      damperRegRead | pixelRun | bulkWrite | pfail | credit | frameReport | event | regReply | telemetry | returnHeartbeatSend |
      frameStart | latchLine | lineSend | fsyncInEdge | fsyncLost | filmFrameStart | filmPulseEnd | powerFail | parkStep |
      powerReturn | slotStart | lampTransaction | lampReplyTimeout | lostNodePoll | lampEnumerate | lampWritesDone | bellowsTick |
      markerRound | laneLoss | hello | backStatus | eqReq | lstat | trainPhaseAdvance | linkPhaseTimeout | listenRetry |
      linkTransitionDone | laneRetrain | linkStartupSequence | sleepBurst | memRefresh | tinkerCoreSwitch | hkRoundEnd |
      flueThermalShutdown | ashAppend | ashScan | ageSampleTick | replanRun | resetRelease | flueResetRelease | pwrShutdownWrite |
      pwrFlueResetWrite | flueResetAssert | housekeepingSample | ashClearDone =>
    exact event_onDevice ..
  all_goals exact hearthEvent_onDevice ..

/-! The operations on the heap keep its form. -/

/-- Whatever the condition, if both outcomes are in canonical form. -/
theorem wf_ite {c : Prop} [Decidable c] {x y : Heap} (hx : x.wf = true) (hy : y.wf = true) : (if c then x else y).wf = true := by
  split
  · exact hx
  · exact hy

theorem wf_fst_ite {α : Type} {c : Prop} [Decidable c] {x y : Heap × α} (hx : x.1.wf = true) (hy : y.1.wf = true) :
    (if c then x else y).1.wf = true := by
  split
  · exact hx
  · exact hy

section
variable {hp : Heap} {d : Dev}

theorem Obj.wf_bltPixels {o : Obj} (src : Option Obj) (op : BltOp) (h : o.wf = true) : (bltPixels src op o).wf = true :=
  Obj.wf_foldl _ (fun _ _ ho => Obj.wf_foldl _ (fun _ _ ho => Obj.wf_setPixel _ _ _ ho) _ ho) _ h

theorem Heap.wf_upload (op : BltOp) (h : hp.wf = true) : (hp.upload op).wf = true := by
  unfold Heap.upload
  split
  · exact h
  · refine Heap.wf_upd _ _ (fun o ho => ?_) h
    split
    · exact Obj.wf_foldl _ (fun _ _ ho => Obj.wf_write _ _ ho) _ ho
    · exact Obj.wf_write _ _ ho

theorem Heap.wf_chanLost (n : Nat) (h : hp.wf = true) : (hp.chanLost n).wf = true := by
  refine Heap.wf_map _ (fun o ho => ?_) h
  repeat' split
  all_goals exact ho

/-- A camera's record goes into its ring's buffer, if that is there (R434). -/
theorem camClose_wf (c : Nat) (trunc dropped : Bool) (h : hp.wf = true) : (camClose c trunc dropped hp d).1.wf = true := by
  unfold camClose
  dsimp only
  split
  · dsimp only
    split
    · split
      · exact h
      · exact Heap.wf_write _ _ _ h
    · exact h
  · exact h

theorem camDrained_wf (c : Nat) (h : hp.wf = true) : (camDrained c hp d).1.wf = true := by
  unfold camDrained
  dsimp only
  split
  · split
    · exact camClose_wf _ _ _ h
    · exact h
  · exact h

theorem bltStart_wf (o : BltOp) (h : hp.wf = true) : (bltStart o hp d).1.wf = true := by
  unfold bltStart
  dsimp only
  split
  · exact h
  · exact Heap.wf_upd _ _ (fun _ ho => Obj.wf_bltPixels _ _ ho) h

theorem bltDirect_wf (op : Nat) (h : hp.wf = true) : (bltDirect op hp d).1.wf = true :=
  wf_fst_ite h (bltStart_wf _ h)

theorem bltStartOp_wf (op : Nat) (h : hp.wf = true) : (bltStartOp op hp d).1.wf = true := by
  refine wf_fst_ite h ?_
  split
  · exact wf_fst_ite (bltStart_wf _ h) (bltDirect_wf _ h)
  · exact bltDirect_wf _ h

theorem channelFail_wf (n cause : Nat) (h : hp.wf = true) : (channelFail n cause hp d).1.wf = true :=
  wf_fst_ite h (Heap.wf_chanLost n h)

theorem readEcc_wf (n line err synd : Nat) (scrub : Bool) (h : hp.wf = true) : (readEcc n line err synd scrub hp d).1.wf = true :=
  wf_fst_ite (wf_fst_ite (channelFail_wf _ _ h) h) (wf_fst_ite h h)

theorem memTrained_wf (chans : List (Nat × Nat)) (h : hp.wf = true) : (memTrained chans hp d).1.wf = true :=
  List.foldlRecOn (motive := fun x : Heap × Dev => x.1.wf = true) _ _ h fun _ hx _ _ =>
    wf_fst_ite hx (wf_fst_ite (channelFail_wf _ _ hx) hx)

theorem hobFail_wf (i : Nat) (h : hp.wf = true) : (hobFail i hp d).1.wf = true := by
  unfold hobFail
  split
  · exact h
  · exact wf_fst_ite h (Heap.wf_dieLost _ h)

theorem regWrite_wf (a v : Nat) (h : hp.wf = true) : (regWrite a v hp d).1.wf = true :=
  wf_fst_ite (bltDirect_wf _ h) h

theorem writeOver_wf (a v : Nat) (h : hp.wf = true) : (writeOver a v hp d).1.wf = true :=
  wf_fst_ite (regWrite_wf _ _ h) (regWrite_wf _ _ h)

theorem writeOne_wf (hd : Hdr) (a : Nat) (p : Bytes) (n : Nat) {x : Nat × Heap × Dev × Option Nat} (i : Nat) (h : x.2.1.wf = true) :
    (writeOne hd a p n x i).2.1.wf = true := by
  obtain ⟨k, hp, d, _ | st⟩ := x
  · simp only [writeOne]
    split
    · exact h
    · split
      · exact h
      · split
        · exact h
        · exact writeOver_wf _ _ h
  · exact h

theorem writeRun_wf (hd : Hdr) (a : Nat) (p : Bytes) (n : Nat) (h : hp.wf = true) : (writeRun hd a p n hp d).2.1.wf = true := by
  rw [writeRun_eq]
  exact List.foldlRecOn (motive := fun x : Nat × Heap × Dev × Option Nat => x.2.1.wf = true) _ _ h fun _ hx i _ => writeOne_wf hd a p n i hx

theorem modifyRun_wf (hd : Hdr) (a mask value : Nat) (h : hp.wf = true) : (modifyRun hd a mask value hp d).1.wf = true :=
  wf_fst_ite h (wf_fst_ite h (wf_fst_ite h (wf_fst_ite h (writeOver_wf _ _ h))))

end

/-! Rows that change the heap. -/

/-- An outcome is a next state whose heap is in canonical form. -/
def KeepsForm (o : Host.Outcome State Fault Refusal) : Prop := ∃ t, o = .next t ∧ t.heap.wf = true

section
variable {s : State} (h : s.heap.wf = true)
include h

theorem anvilH_keepsForm {sp : OpSpec} {hd : Hdr} {p : Bytes} {i : Instr} {body : Cmd → Heap → Dev → Heap × Dev × Rep}
    (hb : ∀ c d, (body c s.heap d).1.wf = true) : KeepsForm (anvilH sp hd p i body s) := by
  obtain ⟨t, ht, _⟩ := anvilH_total sp hd p i body s
  refine ⟨t, ht, ?_⟩
  rcases anvilH_heap ht with hsame | ⟨c, d, hbody⟩
  · rw [hsame]; exact h
  · rw [hbody]; exact hb c d

theorem hearthEventH_keepsForm {f : Heap → Dev → Heap × Dev} (hf : ∀ d, (f s.heap d).1.wf = true) : KeepsForm (hearthEventH f s) := by
  refine ⟨_, eventH_next _ s, ?_⟩
  rw [withBoth_heap]
  split
  · exact h
  · exact hf _

theorem bufCreate_keepsForm (hd : Hdr) (p : Bytes) : KeepsForm (execBufCreate hd p s) := by
  refine anvilH_keepsForm h fun c d => ?_
  split
  · exact h
  · next ha => exact Heap.wf_alloc ha h

theorem bufWrite_keepsForm (hd : Hdr) (p : Bytes) : KeepsForm (execBufWrite hd p s) := by
  refine anvilH_keepsForm h fun c d => ?_
  split
  · exact h
  · exact wf_fst_ite h (wf_fst_ite h (wf_fst_ite h (Heap.wf_write _ _ _ h)))

theorem bufFree_keepsForm (hd : Hdr) (p : Bytes) : KeepsForm (execBufFree hd p s) := by
  refine anvilH_keepsForm h fun c d => ?_
  dsimp only
  split
  · exact h
  · exact wf_fst_ite h (wf_fst_ite h (Heap.wf_release _ h))

theorem surfUpload_keepsForm (hd : Hdr) (p : Bytes) : KeepsForm (execSurfUpload hd p s) := by
  refine anvilH_keepsForm h fun c d => ?_
  dsimp only
  split
  · exact wf_fst_ite h (wf_fst_ite h h)
  · exact h

theorem surfUploadDone_keepsForm : KeepsForm (execSurfUploadDone s) := by
  refine hearthEventH_keepsForm h fun d => ?_
  dsimp only
  cases d.headUpload with
  | none => exact h
  | some op => exact wf_ite h (Heap.wf_upload op h)

theorem surfaceCreate_keepsForm (hd : Hdr) (p : Bytes) : KeepsForm (execSurfaceCreate hd p s) := by
  refine anvilH_keepsForm h fun c d => ?_
  dsimp only
  split
  · exact h
  · next ha => exact Heap.wf_alloc ha h

theorem surfaceFree_keepsForm (hd : Hdr) (p : Bytes) : KeepsForm (execSurfaceFree hd p s) := by
  refine anvilH_keepsForm h fun c d => ?_
  dsimp only
  split
  · exact h
  · exact wf_fst_ite h (wf_fst_ite h (wf_fst_ite h (Heap.wf_release _ h)))

theorem surfaceFreeComplete_keepsForm (k : Nat) : KeepsForm (execSurfaceFreeComplete k s) := by
  refine hearthEventH_keepsForm h fun d => ?_
  dsimp only
  split
  · exact h
  · exact wf_fst_ite h (Heap.wf_release _ h)

theorem blitComplete_keepsForm (bad : Bool) : KeepsForm (execBlitComplete bad s) := by
  refine hearthEventH_keepsForm h fun d => ?_
  dsimp only
  split <;> exact h

theorem camEnable_keepsForm (hd : Hdr) (p : Bytes) : KeepsForm (execCamEnable hd p s) :=
  anvilH_keepsForm h fun _ _ => wf_fst_ite h (wf_fst_ite h (wf_fst_ite h (wf_fst_ite h (camClose_wf _ _ _ h))))

theorem camFrameStart_keepsForm (c : Nat) : KeepsForm (execCamFrameStart c s) :=
  hearthEventH_keepsForm h fun _ => wf_fst_ite h (wf_fst_ite (camClose_wf _ _ _ h) (camClose_wf _ _ _ h))

theorem camLineRx_keepsForm (c vc dtype hdr : Nat) (ok : Bool) (line : List Nat) : KeepsForm (execCamLineRx c vc dtype hdr ok line s) := by
  refine hearthEventH_keepsForm h fun d => wf_fst_ite h (wf_fst_ite h (wf_fst_ite h (wf_fst_ite h (wf_fst_ite h ?_))))
  split
  · exact h
  · exact wf_fst_ite h (wf_fst_ite (camClose_wf _ _ _ h) h)

theorem camFrameEnd_keepsForm (c : Nat) : KeepsForm (execCamFrameEnd c s) := by
  refine hearthEventH_keepsForm h fun d => ?_
  dsimp only
  cases (d.cam c).frame with
  | none => exact h
  | some f => exact wf_fst_ite (camDrained_wf c h) h

theorem camFrameTimeout_keepsForm (c : Nat) : KeepsForm (execCamFrameTimeout c s) := by
  refine hearthEventH_keepsForm h fun d => ?_
  dsimp only
  generalize (if c < 2 ∧ d.camOn c then d.encTap c fun t => { t with now := none } else d) = e
  cases (e.cam c).frame with
  | none => exact h
  | some f => exact wf_fst_ite (camClose_wf _ _ _ h) h

theorem pipeLineTake_keepsForm : KeepsForm (execPipeLineTake s) := by
  refine hearthEventH_keepsForm h fun d => ?_
  cases d.nextLine with
  | none => exact h
  | some c => exact camDrained_wf c h

theorem camTransitionDone_keepsForm (c : Nat) : KeepsForm (execCamTransitionDone c s) := by
  refine hearthEventH_keepsForm h fun d => wf_fst_ite h ?_
  split
  · exact h
  · exact wf_fst_ite h (camClose_wf _ _ _ h)

theorem eyeScanDone_keepsForm (lane l r t b : Nat) (counts : List Nat) : KeepsForm (execEyeScanDone lane l r t b counts s) := by
  refine hearthEventH_keepsForm h fun d => ?_
  dsimp only
  split
  · exact h
  · exact wf_fst_ite h (wf_ite (Heap.wf_write _ _ _ h) h)

theorem tapTestDone_keepsForm (lane : Nat) (rho : List Int) : KeepsForm (execTapTestDone lane rho s) := by
  refine hearthEventH_keepsForm h fun d => ?_
  dsimp only
  split
  · exact h
  · exact wf_fst_ite h (wf_ite h (Heap.wf_write _ _ _ h))

theorem memRequest_keepsForm (n line : Nat) (w : Option (Nat × Nat)) (row : Option Nat) (err synd inflight : Nat) :
    KeepsForm (execMemRequest n line w row err synd inflight s) := by
  refine hearthEventH_keepsForm h fun d => wf_fst_ite h (wf_fst_ite h ?_)
  cases w with
  | some w => exact h
  | none => exact readEcc_wf _ _ _ _ _ h

theorem ingotJobRun_keepsForm : KeepsForm (execIngotJobRun s) := by
  refine hearthEventH_keepsForm h fun d => ?_
  dsimp only
  split
  · exact h
  · split
    · exact wf_fst_ite h (wf_fst_ite h (Heap.wf_write _ _ _ h))
    · exact h

theorem startupStageComplete_keepsForm (stage : Nat) (chans vout : List (Nat × Nat)) :
    KeepsForm (execStartupStageComplete stage chans vout s) :=
  ⟨_, eventH_next _ s, wf_fst_ite h (wf_fst_ite (memTrained_wf chans h) h)⟩

theorem railComparatorTrip_keepsForm (rail : Nat) (high : Bool) : KeepsForm (execRailComparatorTrip rail high s) := by
  have hfolded (l : List Nat) (d : Dev) :
      (l.foldl (fun (a : Heap × Dev) n => channelFail n Cause.supplyRange a.1 a.2) (s.heap, d)).1.wf = true :=
    List.foldlRecOn (motive := fun x : Heap × Dev => x.1.wf = true) _ _ h fun _ hx n _ => channelFail_wf n _ hx
  exact ⟨_, eventH_next _ s, wf_fst_ite (wf_fst_ite h rfl) (wf_fst_ite (wf_fst_ite h rfl) (wf_fst_ite h (wf_fst_ite h
    (wf_fst_ite (hfolded _ _) (wf_fst_ite h (wf_fst_ite h h))))))⟩

theorem damperRegWrite_keepsForm (die a v q : Nat) (chk : MsgCheck) : KeepsForm (execDamperRegWrite die a v q chk s) :=
  ⟨_, eventH_next _ s, wf_fst_ite h (wf_fst_ite h (wf_fst_ite h (wf_fst_ite h (wf_fst_ite h (regWrite_wf a v h)))))⟩

theorem regWrite_keepsForm (hd : Hdr) (p : Bytes) : KeepsForm (execRegWrite hd p s) := by
  refine anvilH_keepsForm h fun c d => ?_
  dsimp only
  split <;> exact writeRun_wf hd _ p _ h

/-- Each row that changes the heap keeps its form. -/
theorem exec_keepsForm (i : Instr) (hi : changesHeap i = true) : KeepsForm (exec i s) := by
  cases i
  case bufCreate hd p => exact bufCreate_keepsForm h hd p
  case bufWrite hd p => exact bufWrite_keepsForm h hd p
  case bufFree hd p => exact bufFree_keepsForm h hd p
  case surfUpload hd p => exact surfUpload_keepsForm h hd p
  case surfUploadDone => exact surfUploadDone_keepsForm h
  case surfaceCreate hd p => exact surfaceCreate_keepsForm h hd p
  case surfaceFree hd p => exact surfaceFree_keepsForm h hd p
  case surfaceFreeComplete k => exact surfaceFreeComplete_keepsForm h k
  case bltFillStart => exact hearthEventH_keepsForm h fun d => bltStartOp_wf 0 h
  case bltCopyStart => exact hearthEventH_keepsForm h fun d => bltStartOp_wf 1 h
  case bltConvertStart => exact hearthEventH_keepsForm h fun d => bltStartOp_wf 2 h
  case blitComplete bad => exact blitComplete_keepsForm h bad
  case regWrite hd p => exact regWrite_keepsForm h hd p
  case regModify hd p => exact anvilH_keepsForm h fun c d => modifyRun_wf hd _ _ _ h
  case registerWrite a v =>
    rw [exec_registerWrite, execRegisterWrite]
    exact hearthEventH_keepsForm h fun d => wf_fst_ite h (wf_fst_ite h (wf_fst_ite h (regWrite_wf a v h)))
  case damperRegWrite die a v q chk => exact damperRegWrite_keepsForm h die a v q chk
  case camEnable hd p => exact camEnable_keepsForm h hd p
  case camFrameStart c => exact camFrameStart_keepsForm h c
  case camLineRx c vc dtype hdr ok line => exact camLineRx_keepsForm h c vc dtype hdr ok line
  case camFrameEnd c => exact camFrameEnd_keepsForm h c
  case camFrameTimeout c => exact camFrameTimeout_keepsForm h c
  case pipeLineTake => exact pipeLineTake_keepsForm h
  case camTransitionDone c => exact camTransitionDone_keepsForm h c
  case ingotJobRun => exact ingotJobRun_keepsForm h
  case eyeScanDone lane l r t b counts => exact eyeScanDone_keepsForm h lane l r t b counts
  case tapTestDone lane rho => exact tapTestDone_keepsForm h lane rho
  case channelFail n cause => exact hearthEventH_keepsForm h fun d => channelFail_wf n cause h
  case memRequestTimeout n => exact hearthEventH_keepsForm h fun d => channelFail_wf n _ h
  case memRequest n line w row err synd inflight => exact memRequest_keepsForm h n line w row err synd inflight
  case scrubRead n line err synd last =>
    rw [exec_scrubRead, execScrubRead]
    exact hearthEventH_keepsForm h fun d => wf_fst_ite h (readEcc_wf n line err synd true h)
  case dqsRetrack n ok =>
    rw [exec_dqsRetrack, execDqsRetrack]
    exact hearthEventH_keepsForm h fun d => wf_fst_ite h (channelFail_wf n _ h)
  case hobDieFail i => exact hearthEventH_keepsForm h fun d => hobFail_wf i h
  case resetAssert => exact ⟨_, (exec_resetAssert s).trans (eventH_next _ s), rfl⟩
  case startupStageComplete stage chans vout => exact startupStageComplete_keepsForm h stage chans vout
  case railComparatorTrip rail high => exact railComparatorTrip_keepsForm h rail high
  all_goals nomatch hi

end

end Sys2Proof.Machine

namespace Sys2Proof.Proofs

open Sys2Proof.Machine

/-- Settles O4: a row that is not among those that change the heap has the shape of a command or an event on the device alone. -/
theorem onlyHeapCommandsChangeTheHeap : Obligations.OnlyHeapCommandsChangeTheHeap := by
  intro i s t hi he
  obtain ⟨d, hd⟩ := exec_onDevice i s hi
  cases hd.symm.trans he
  rfl

/-- Every row keeps the heap's form: it leaves the heap as it is, or writes it by operations that keep the form. -/
theorem exec_heap_wf {i : Instr} {s t : State} (h : s.heap.wf = true) (he : exec i s = .next t) : t.heap.wf = true := by
  cases hi : changesHeap i with
  | false => rwa [onlyHeapCommandsChangeTheHeap i s t hi he]
  | true =>
    obtain ⟨u, hu, hwf⟩ := exec_keepsForm h i hi
    cases hu.symm.trans he
    exact hwf

/-- Settles O6: a step runs one row on a state with the same heap, or changes the device alone. -/
theorem stepKeepsHeapForm : Obligations.StepKeepsHeapForm := by
  intro s t h he
  unfold step at he
  split at he
  · next c rest _ => exact exec_heap_wf (s := { s with pending := rest }) h he
  · split at he
    · next i d _ => exact exec_heap_wf (s := { s with dev := d }) h he
    · cases he
      exact h

end Sys2Proof.Proofs
end

section
/-! Bulk buffers (O26): which object a handle names after the heap's operations, and that a new handle is fresh. -/

namespace Sys2Proof.Machine

/-! The object of a handle. -/

section
variable {hp : Heap} {o : Obj} {k : Nat}

theorem handle_of_find (h : hp.find k = some o) : o.handle = k := by
  simpa using List.find?_some h

theorem mem_of_find (h : hp.find k = some o) : o ∈ hp.objs := List.mem_of_find?_eq_some h

theorem find_of_buf (h : hp.buf k = some o) : hp.find k = some o := (Option.filter_eq_some_iff.1 h).1

theorem find_of_surf (h : hp.surf k = some o) : hp.find k = some o := (Option.filter_eq_some_iff.1 h).1

theorem wf_of_find (hwf : hp.wf = true) (h : hp.find k = some o) : o.wf = true := List.all_eq_true.1 hwf o (mem_of_find h)

/-- An object changed under its handle is found changed, and the other handles name what they did. -/
theorem find_upd (f : Obj → Obj) (j : Nat) :
    (hp.upd k f).find j = (hp.find j).map fun o => if j = k then { f o with handle := o.handle } else o := by
  unfold Heap.find Heap.upd
  induction hp.objs with
  | nil => rfl
  | cons x l ih =>
    have hhandle : (if x.handle = k then { f x with handle := x.handle } else x).handle = x.handle := by split <;> rfl
    rw [List.map_cons, List.find?_cons, List.find?_cons, hhandle]
    by_cases hx : x.handle = j
    · subst hx
      simp
    · simpa [hx] using ih

theorem find_upd_self {f : Obj → Obj} (h : hp.find k = some o) : (hp.upd k f).find k = some { f o with handle := k } := by
  rw [find_upd, h, Option.map_some, if_pos rfl, handle_of_find h]

theorem find_upd_other {j : Nat} (f : Obj → Obj) (h : j ≠ k) : (hp.upd k f).find j = hp.find j := by
  rw [find_upd]
  simp [h]

/-- A handle released names nothing, and the others name what they did. -/
theorem find_release_self : (hp.release k).find k = none := by
  simp [Heap.find, Heap.release]

theorem find_release_other {j : Nat} (h : j ≠ k) : (hp.release k).find j = hp.find j := by
  rw [Heap.find, Heap.release, List.find?_filter, Heap.find]
  congr 1
  funext o
  by_cases ho : o.handle = j <;> simp [ho, h]

end

/-! New handles (R178). -/

/-- The `i`-th handle tried after `h`, from 0. -/
def handleAfter (h i : Nat) : Nat := (min h 65535 + i) % 65535 + 1

theorem nextHandle_succ (used : List Nat) (n h : Nat) : nextHandle used (n + 1) h =
    if used.contains (handleAfter h 0) then nextHandle used n (handleAfter h 0) else handleAfter h 0 := by
  have hnext : (if h ≥ 65535 then 1 else h + 1) = handleAfter h 0 := by
    simp only [handleAfter]
    split <;> omega
  simp only [nextHandle, hnext]

theorem nextHandle_range (used : List Nat) (n h : Nat) : 1 ≤ nextHandle used (n + 1) h ∧ nextHandle used (n + 1) h ≤ 65535 := by
  induction n generalizing h with
  | zero =>
    rw [nextHandle_succ, nextHandle, ite_self, handleAfter]
    omega
  | succ n ih =>
    rw [nextHandle_succ]
    split
    · exact ih _
    · rw [handleAfter]
      omega

/-- A handle in use is chosen only where all that were tried are in use. -/
theorem mem_of_nextHandle_mem {used : List Nat} {n h : Nat} (hm : nextHandle used n h ∈ used) : ∀ i < n, handleAfter h i ∈ used := by
  induction n generalizing h with
  | zero => intro i hi; omega
  | succ n ih =>
    rw [nextHandle_succ] at hm
    split at hm
    · next hfirst =>
      rintro (_ | i) hi
      · simpa using hfirst
      · have hshift : handleAfter (handleAfter h 0) i = handleAfter h (i + 1) := by
          simp only [handleAfter]
          omega
        exact hshift ▸ ih hm i (by omega)
    · next hfirst => exact absurd hm (by simpa using hfirst)

/-- Of more handles tried than are in use, one is free. -/
theorem nextHandle_fresh {used : List Nat} {n : Nat} (h : Nat) (hn : used.length < n) (hm : n ≤ 65535) : nextHandle used n h ∉ used := by
  intro hused
  have hnodup : ((List.range n).map (handleAfter h)).Nodup := by
    refine List.Nodup.map_on (fun i hi j hj hij => ?_) List.nodup_range
    rw [List.mem_range] at hi hj
    simp only [handleAfter] at hij
    omega
  have hsub : (List.range n).map (handleAfter h) ⊆ used := by
    intro x hx
    obtain ⟨i, hi, rfl⟩ := List.mem_map.1 hx
    exact mem_of_nextHandle_mem hused i (List.mem_range.1 hi)
  have hlen := (List.subperm_of_subset hnodup hsub).length_le
  simp only [List.length_map, List.length_range] at hlen
  omega

/-! New objects (R178, R180). -/

/-- What is allocated: room for a handle was left, and the object is new, empty and first in the heap. -/
theorem alloc_cases {hp hp' : Heap} {o : Obj} {dies : List Nat} {kind : ObjKind} {size : Nat} {m : Bool}
    (h : hp.alloc dies kind size m = .ok (hp', o)) : hp.objs.length < 16384 ∧ ∃ die mir,
      o = ⟨nextHandle (hp.objs.map (·.handle)) 16385 hp.last, kind, size, die, mir, false, []⟩ ∧ hp' = ⟨o :: hp.objs, o.handle⟩ := by
  unfold Heap.alloc at h
  split at h
  · cases h
  · next hroom =>
    split at h
    · cases h
    · next die _ =>
      split at h
      · cases h
      · dsimp only at h
        generalize (if m = true then hp.mirrorDie dies die size else none) = mir at h
        split at h
        · cases h
        · obtain ⟨rfl, rfl⟩ := Prod.mk.inj (Except.ok.inj h)
          exact ⟨Nat.not_le.1 hroom, die, mir, rfl, rfl⟩

theorem Obj.read_empty {o : Obj} (h : o.cells = []) (a n : Nat) : o.read a n = List.replicate n 0 := by
  simp [Obj.read, cellsRead, h, cellGet, List.map_const']

theorem alloc_fresh {hp hp' : Heap} {o : Obj} {dies : List Nat} {kind : ObjKind} {size : Nat} {m : Bool}
    (h : hp.alloc dies kind size m = .ok (hp', o)) :
    hp'.find o.handle = some o ∧ hp.find o.handle = none ∧ 1 ≤ o.handle ∧ o.handle ≤ 65535 ∧ o.size = size ∧ o.kind = kind ∧ o.lost = false ∧
      (∀ a n, o.read a n = List.replicate n 0) ∧ ∀ k, k ≠ o.handle → hp'.find k = hp.find k := by
  obtain ⟨hroom, die, mir, ho, rfl⟩ := alloc_cases h
  have hhandle : o.handle = nextHandle (hp.objs.map (·.handle)) 16385 hp.last := by rw [ho]
  have hfresh : o.handle ∉ hp.objs.map (·.handle) :=
    hhandle ▸ nextHandle_fresh hp.last (by rw [List.length_map]; omega) (by omega)
  obtain ⟨hlow, hhigh⟩ : 1 ≤ o.handle ∧ o.handle ≤ 65535 := hhandle ▸ nextHandle_range _ 16384 hp.last
  refine ⟨by simp [Heap.find], ?_, hlow, hhigh, by rw [ho], by rw [ho], by rw [ho], Obj.read_empty (by rw [ho]), fun k hk => ?_⟩
  · refine List.find?_eq_none.2 fun x hx => ?_
    simpa using fun hxo : x.handle = o.handle => hfresh (hxo ▸ List.mem_map_of_mem hx)
  · simp [Heap.find, Ne.symm hk]

/-! Commands that only read the heap. -/

theorem endsOn_of_anvilR {i : Instr} {sp : OpSpec} {h : Hdr} {body : Cmd → Heap → Dev → Dev × Rep} {cond : Cmd → Heap → Dev → Prop}
    {eff : Cmd → Heap → Dev → Dev} {rep : Cmd → Heap → Dev → Rep} (hs : opSpec i = some sp) (hh : i.hdr? = some h)
    (he : ∀ s, exec i s = anvilR sp h i.params i body s) (hb : ∀ c hp d, cond c hp d → body c hp d = (eff c hp d, rep c hp d)) :
    EndsOn i cond (fun c hp d => (hp, eff c hp d)) rep := by
  intro s hm hc
  rw [he, anvilR, anvil_of_mayBegin hs hh rfl hm, hb _ _ _ hc]
  rfl

end Sys2Proof.Machine

namespace Sys2Proof.Proofs

open Sys2Proof.Machine

/-- Settles O26: each body's case split is decided, and the laws of the object a handle names and of its bytes give the rest. -/
theorem buffersHoldWhatIsWritten : Obligations.BuffersHoldWhatIsWritten := by
  unfold Obligations.BuffersHoldWhatIsWritten
  refine ⟨?create, ?full, fun hp hp' o dies kind size m => alloc_fresh, ?write, ?written, ?read, ?free, ?busy,
    fun hp k k' => ⟨find_release_self, find_release_other⟩⟩
  case create =>
    intro h p o hp'
    refine endsOn_of_anvilH (sp := specBufCreate) rfl rfl (exec_bufCreate · h p) ?_
    intro c hp d halloc
    simp only [halloc]
    rfl
  case full =>
    intro h p r
    refine endsOn_of_anvilH (sp := specBufCreate) rfl rfl (exec_bufCreate · h p) ?_
    intro c hp d halloc
    simp only [halloc]
  case write =>
    intro h p o
    refine endsOn_of_anvilH (sp := specBufWrite) rfl rfl (exec_bufWrite · h p) ?_
    rintro c hp d ⟨hbuf, hfree, hbusy, hlost⟩
    simp only [hbuf, handle_of_find (find_of_buf hbuf), hfree, hbusy, hlost, Bool.false_eq_true, if_false]
  case written =>
    intro hp o k a b hwf hfind hin
    have howf : cellsWf o.cells = true := (Bool.and_eq_true_iff.1 (wf_of_find hwf hfind)).1
    have htake : b.take (o.size - a) = b := List.take_of_length_le (by omega)
    refine ⟨_, find_upd_self hfind, Obj.read_write hin howf, rfl, fun j hj => ?_, fun k' hk' => find_upd_other _ hk'⟩
    exact cellGet_cellsWrite_other _ (by rw [htake]; exact hj)
  case read =>
    intro h p o
    refine endsOn_of_anvilR (sp := specBufRead) rfl rfl (exec_bufRead · h p) ?_
    rintro c hp d ⟨hbuf, hlost⟩
    simp only [hbuf, hlost, Bool.false_eq_true, if_false]
  case free =>
    intro h p o
    refine endsOn_of_anvilH (sp := specBufFree) rfl rfl (exec_bufFree · h p) ?_
    rintro c hp d ⟨hbuf, hfree, hbusy⟩
    simp only [hbuf, handle_of_find (find_of_buf hbuf), hfree, hbusy, Bool.false_eq_true, if_false]
  case busy =>
    intro h p o
    refine endsOn_of_anvilH (sp := specBufFree) rfl rfl (exec_bufFree · h p) ?_
    rintro c hp d ⟨hbuf, hfree, hbusy⟩
    simp only [hbuf, handle_of_find (find_of_buf hbuf), hfree, hbusy, Bool.false_eq_true, if_false, if_true]

end Sys2Proof.Proofs
end

section
/-! Layers and fences (O28): a fence slot's counter reads back what is set, and the slots do not touch each other. -/

namespace Sys2Proof.Machine

variable (d : Dev)

/-! Fence counters (R183). -/

/-- A LO and a HI register read back a number that fits them, if they are different registers. -/
theorem rdLoHi_wrLoHi_self {die : Nat} {lo hi : Fld} {v : Nat} (hlo : lo.lo = 0 ∧ lo.hi = 31) (hhi : hi.lo = 0 ∧ hi.hi < 32)
    (hne : lo.off ≠ hi.off) (hv : v < 2 ^ (hi.hi + 33)) : (d.wrLoHi die lo hi v).rdLoHi die lo hi = v := by
  obtain ⟨hlo0, hlo31⟩ := hlo
  obtain ⟨hhi0, hhi32⟩ := hhi
  have hdiv : v / 2 ^ 32 < 2 ^ (hi.hi + 1) := by
    rw [Nat.div_lt_iff_lt_mul (by decide), ← Nat.pow_add]
    exact hv
  rw [Dev.rdLoHi, Dev.wrLoHi, rd_wr_self _ _ _ _ (by omega) hhi32, rd_wr_addr _ _ (regAddr_off hne), rd_wr_self _ _ _ _ (by omega) (by omega),
    hlo0, hlo31, hhi0]
  simp only [Nat.sub_zero, Nat.mod_eq_of_lt hdiv]
  omega

/-- Other registers are as before. -/
theorem rdLoHi_wrLoHi_other {die : Nat} {lo hi lo' hi' : Fld} (v : Nat) (hll : lo'.off ≠ lo.off) (hlh : lo'.off ≠ hi.off)
    (hhl : hi'.off ≠ lo.off) (hhh : hi'.off ≠ hi.off) : (d.wrLoHi die lo hi v).rdLoHi die lo' hi' = d.rdLoHi die lo' hi' := by
  simp only [Dev.rdLoHi, Dev.wrLoHi, rd_wr_addr _ _ (regAddr_off hll), rd_wr_addr _ _ (regAddr_off hlh), rd_wr_addr _ _ (regAddr_off hhl),
    rd_wr_addr _ _ (regAddr_off hhh)]

theorem fence_setFence_self {k v : Nat} (hv : v < 2 ^ 54) : (d.setFence k v).fence k = v :=
  rdLoHi_wrLoHi_self d ⟨rfl, rfl⟩ ⟨rfl, by simp⟩ (by simp) hv

theorem fence_setFence_other {j k : Nat} (v : Nat) (h : j ≠ k) : (d.setFence k v).fence j = d.fence j :=
  rdLoHi_wrLoHi_other d v (by simp [h]) (by simp; omega) (by simp; omega) (by simp [h])

theorem fence_lt (k : Nat) : d.fence k < 2 ^ 54 := by
  have hlo : d.rd 0 (R.BLT_FENCE_CNT_LO k) < 2 ^ 32 := rd_lt d 0 _
  have hhi : d.rd 0 (R.BLT_FENCE_CNT_HI k) < 2 ^ 22 := rd_lt d 0 _
  simp only [Dev.fence, Dev.rdLoHi]
  omega

/-! Layers (R200, R201). -/

theorem layerEntry_length (n : Nat) : (d.layerEntry n).length = 16 := by
  simp [Dev.layerEntry]

/-- STATE is the entry's first byte. -/
theorem layerEntry_state (n : Nat) : u8 (d.layerEntry n) 0 =
    if (d.lay.bound.getD n {}).enable then (if (d.lay.held.getD n none).isSome then 2 else 1) else 0 := by
  simp only [Dev.layerEntry, List.append_assoc, u8_enc_one]
  cases (d.lay.bound.getD n {}).enable
  · rfl
  · cases (d.lay.held.getD n none).isSome <;> rfl

theorem enable_layerOf (p : Bytes) : (layerOf p).enable = decide (u8 p 1 = 1) := rfl

/-- LAYER_SET of a layer that is off, or of a surface that may be named (R200). -/
theorem layerSet_done (h : Hdr) (p : Bytes) : EndsOn (.layerSet h p)
    (fun _ hp d => u8 p 1 ≠ 1 ∨ (d.freeing (u16 p 4) = false ∧ ∀ o, hp.surf (u16 p 4) = some o → o.lost = false))
    (fun _ hp d => (hp, { d with lay := { d.lay with shadow := d.lay.shadow.set (u8 p 0) (layerOf p), changed := d.lay.changed.set (u8 p 0) true } }))
    (fun _ _ _ => .done) := by
  refine endsOn_of_anvilR (sp := specLayerSet) rfl rfl (exec_layerSet · h p) ?_
  rintro c hp d (hoff | ⟨hfree, hlost⟩)
  · simp [enable_layerOf, hoff]
  · have hsurf : (layerOf p).surface = u16 p 4 := rfl
    simp only [hsurf, hfree, Bool.and_false, Bool.false_eq_true, if_false]
    cases ho : hp.surf (u16 p 4) with
    | none => simp
    | some o => simp [hlost o ho]

end Sys2Proof.Machine

namespace Sys2Proof.Proofs

open Sys2Proof.Machine

/-- Settles O28: each body's case split is decided, and the laws of a fence slot's counter give the rest. -/
theorem layersAndFences : Obligations.LayersAndFences := by
  unfold Obligations.LayersAndFences
  refine ⟨layerSet_done, ?freeing, ?status, fun d n => ⟨layerEntry_length d n, layerEntry_state d n⟩, ?read, ?signal, ?reset, ?waited,
    ?slots, ?release⟩
  case freeing =>
    intro h p
    refine endsOn_of_anvilR (sp := specLayerSet) rfl rfl (exec_layerSet · h p) ?_
    rintro c hp d ⟨hon, hfree⟩
    exact if_pos (by simp [enable_layerOf, hon, show (layerOf p).surface = u16 p 4 from rfl, hfree])
  case status =>
    intro h p
    exact ends_of_anvil (sp := specLayerStatus) rfl rfl (exec_layerStatus · h p) fun c d _ => rfl
  case read =>
    intro h p
    refine ends_of_anvil (sp := specFenceOp) rfl rfl (exec_fenceOp · h p) ?_
    intro c d hop
    simp only [hop]
  case signal =>
    intro h p
    refine ends_of_anvil (sp := specFenceOp) rfl rfl (exec_fenceOp · h p) ?_
    rintro c d ⟨hop, _, hv⟩
    simp only [hop, fence_setFence_self d (Nat.max_lt.2 ⟨fence_lt d _, hv⟩)]
  case reset =>
    intro h p
    refine ends_of_anvil (sp := specFenceOp) rfl rfl (exec_fenceOp · h p) ?_
    rintro c d ⟨hop, hwait⟩
    simp only [hop, hwait, Bool.false_eq_true, if_false]
  case waited =>
    intro h p
    refine ends_of_anvil (sp := specFenceOp) rfl rfl (exec_fenceOp · h p) ?_
    rintro c d ⟨hop, hwait⟩
    simp only [hop, hwait, if_true]
  case slots =>
    intro d k j v _ _ _ hv
    split
    · next hj => rw [hj, fence_setFence_self d hv]
    · next hj => exact fence_setFence_other d v hj
  case release =>
    intro n r
    refine occurs_of_hearthEvent (exec_layerRelease · n) ?_
    rintro d ⟨hon, hr⟩
    exact ⟨hon, by simp only [hr]⟩

end Sys2Proof.Proofs
end

section
/-!
Pixel conversion (O30, R191): a channel that fits its code is rescaled to one that fits the new code, and the fields of a packed pixel do not
touch each other, so each channel is read back as it was converted.
-/

namespace Sys2Proof.Machine

/-! Channels. -/

/-- The code nearest to the exact quotient, the higher one at a tie. -/
theorem rescale_nearest (v n : Nat) {m : Nat} (h : 1 ≤ m) : 2 * m * rescale v m n ≤ 2 * v * n + m ∧ 2 * v * n + m < 2 * m * (rescale v m n + 1) :=
  ⟨Nat.mul_div_le _ _, Nat.lt_mul_div_succ _ (by omega)⟩

theorem rescale_le {v m : Nat} (n : Nat) (h : v ≤ m) : rescale v m n ≤ n := by
  rcases Nat.eq_zero_or_pos m with rfl | hm
  · simp [rescale]
  · have hvn : v * n ≤ m * n := Nat.mul_le_mul_right n h
    refine Nat.le_of_lt_succ ((Nat.div_lt_iff_lt_mul (by omega)).2 ?_)
    calc 2 * v * n + m < 2 * (m * n) + 2 * m := by rw [Nat.mul_assoc]; omega
      _ = (n + 1) * (2 * m) := by ring

/-- A channel's value is no higher than its maximum code. -/
def chanFits (c : Option (Nat × Nat)) : Prop := ∀ e, c = some e → e.1 ≤ e.2

theorem chan_le {c : Option (Nat × Nat)} {n k : Nat} (h : chanFits c) (hk : k ≤ n) : chan c n k ≤ n := by
  cases c with
  | none => exact hk
  | some e => exact rescale_le n (h e rfl)

theorem chanFits_none : chanFits none := nofun

theorem chanFits_bits (v hi lo : Nat) : chanFits (some (bits v hi lo, 2 ^ (hi + 1 - lo) - 1)) := by
  rintro _ ⟨⟩
  exact Nat.le_sub_one_of_lt (Nat.mod_lt _ (Nat.two_pow_pos _))

/-- Every channel of a pixel fits its code. -/
structure Pixel.Fits (p : Pixel) : Prop where
  a : chanFits p.a
  r : chanFits p.r
  g : chanFits p.g
  b : chanFits p.b

/-- The channels that are read from a pixel value fit. -/
theorem unpackPixel_fits (f v : Nat) : (unpackPixel f v).Fits := by
  unfold unpackPixel
  split
  · exact ⟨chanFits_none, chanFits_bits v 15 11, chanFits_bits v 10 5, chanFits_bits v 4 0⟩
  · exact ⟨chanFits_none, chanFits_bits v 23 16, chanFits_bits v 15 8, chanFits_bits v 7 0⟩
  · exact ⟨chanFits_bits v 31 24, chanFits_bits v 23 16, chanFits_bits v 15 8, chanFits_bits v 7 0⟩
  · exact ⟨chanFits_bits v 31 30, chanFits_bits v 29 20, chanFits_bits v 19 10, chanFits_bits v 9 0⟩
  · exact ⟨chanFits_bits v 7 0, chanFits_none, chanFits_none, chanFits_none⟩
  · exact ⟨chanFits_none, chanFits_none, chanFits_none, chanFits_none⟩

/-! Formats. -/

section
variable {p : Pixel} (h : p.Fits)
include h

theorem unpack_pack_rgb565 : unpackPixel 0 (packPixel 0 p) =
    ⟨none, some (chan p.r 31 0, 31), some (chan p.g 63 0, 63), some (chan p.b 31 0, 31)⟩ := by
  have hr : chan p.r 31 0 ≤ 31 := chan_le h.r (by decide)
  have hg : chan p.g 63 0 ≤ 63 := chan_le h.g (by decide)
  have hb : chan p.b 31 0 ≤ 31 := chan_le h.b (by decide)
  simp only [packPixel, unpackPixel, bits, Pixel.mk.injEq, Option.some.injEq, Prod.mk.injEq, and_true, true_and]
  omega

theorem unpack_pack_rgb888 : unpackPixel 1 (packPixel 1 p) =
    ⟨none, some (chan p.r 255 0, 255), some (chan p.g 255 0, 255), some (chan p.b 255 0, 255)⟩ := by
  have hr : chan p.r 255 0 ≤ 255 := chan_le h.r (by decide)
  have hg : chan p.g 255 0 ≤ 255 := chan_le h.g (by decide)
  have hb : chan p.b 255 0 ≤ 255 := chan_le h.b (by decide)
  simp only [packPixel, unpackPixel, bits, Pixel.mk.injEq, Option.some.injEq, Prod.mk.injEq, and_true, true_and]
  omega

theorem unpack_pack_argb8888 : unpackPixel 2 (packPixel 2 p) =
    ⟨some (chan p.a 255 255, 255), some (chan p.r 255 0, 255), some (chan p.g 255 0, 255), some (chan p.b 255 0, 255)⟩ := by
  have ha : chan p.a 255 255 ≤ 255 := chan_le h.a (by decide)
  have hr : chan p.r 255 0 ≤ 255 := chan_le h.r (by decide)
  have hg : chan p.g 255 0 ≤ 255 := chan_le h.g (by decide)
  have hb : chan p.b 255 0 ≤ 255 := chan_le h.b (by decide)
  simp only [packPixel, unpackPixel, bits, Pixel.mk.injEq, Option.some.injEq, Prod.mk.injEq, and_true]
  omega

theorem unpack_pack_argb2101010 : unpackPixel 3 (packPixel 3 p) =
    ⟨some (chan p.a 3 3, 3), some (chan p.r 1023 0, 1023), some (chan p.g 1023 0, 1023), some (chan p.b 1023 0, 1023)⟩ := by
  have ha : chan p.a 3 3 ≤ 3 := chan_le h.a (by decide)
  have hr : chan p.r 1023 0 ≤ 1023 := chan_le h.r (by decide)
  have hg : chan p.g 1023 0 ≤ 1023 := chan_le h.g (by decide)
  have hb : chan p.b 1023 0 ≤ 1023 := chan_le h.b (by decide)
  simp only [packPixel, unpackPixel, bits, Pixel.mk.injEq, Option.some.injEq, Prod.mk.injEq, and_true]
  omega

theorem unpack_pack_a8 : unpackPixel 4 (packPixel 4 p) = ⟨some (chan p.a 255 255, 255), none, none, none⟩ := by
  have ha : chan p.a 255 255 ≤ 255 := chan_le h.a (by decide)
  simp only [packPixel, unpackPixel, bits, Pixel.mk.injEq, Option.some.injEq, Prod.mk.injEq, and_true]
  omega

end

end Sys2Proof.Machine

namespace Sys2Proof.Proofs

open Sys2Proof.Machine

/-- Settles O30: the channels read from a pixel fit their codes, so each format reads back what is packed in it. -/
theorem convertChangesChannels : Obligations.ConvertChangesChannels := by
  unfold Obligations.ConvertChangesChannels
  refine ⟨fun v m n hm => rescale_nearest v n hm, ?rgb565, ?rgb888, ?argb8888, ?argb2101010, ?a8, fun v m n k => ⟨rfl, rfl⟩,
    fun v => ⟨rfl, rfl, rfl, rfl, rfl⟩⟩
  case rgb565 => exact fun g v _ => unpack_pack_rgb565 (unpackPixel_fits g v)
  case rgb888 => exact fun g v _ => unpack_pack_rgb888 (unpackPixel_fits g v)
  case argb8888 => exact fun g v _ => unpack_pack_argb8888 (unpackPixel_fits g v)
  case argb2101010 => exact fun g v _ => unpack_pack_argb2101010 (unpackPixel_fits g v)
  case a8 => exact fun g v _ => unpack_pack_a8 (unpackPixel_fits g v)

end Sys2Proof.Proofs
end

section
/-! Surfaces (O27): create, free and upload. -/

namespace Sys2Proof.Proofs

open Sys2Proof.Machine

/-- Settles O27: each body's case split is decided by what holds of the object the handle names. -/
theorem surfacesAreCreatedAndFreed : Obligations.SurfacesAreCreatedAndFreed := by
  unfold Obligations.SurfacesAreCreatedAndFreed
  refine ⟨?create, ?free, ?freeing, ?staged, ?inUse, ?complete, ?latched, ?upload, ?uploadDone⟩
  case create =>
    intro h p o hp'
    refine endsOn_of_anvilH (sp := specSurfaceCreate) rfl rfl (exec_surfaceCreate · h p) ?_
    intro c hp d halloc
    simp only [halloc]
  case free =>
    intro h p o
    refine endsOn_of_anvilH (sp := specSurfaceFree) rfl rfl (exec_surfaceFree · h p) ?_
    rintro c hp d ⟨hsurf, hfree, hstaged, hlatched, hreading, hbusy⟩
    simp only [hsurf, handle_of_find (find_of_surf hsurf), hfree, hstaged, hlatched, hreading, hbusy, Bool.or_self, Bool.false_eq_true,
      if_false]
  case freeing =>
    intro h p o
    refine endsOn_of_anvilH (sp := specSurfaceFree) rfl rfl (exec_surfaceFree · h p) ?_
    rintro c hp d ⟨hsurf, hfree⟩
    simp only [hsurf, handle_of_find (find_of_surf hsurf), hfree, if_true]
  case staged =>
    intro h p o
    refine endsOn_of_anvilH (sp := specSurfaceFree) rfl rfl (exec_surfaceFree · h p) ?_
    rintro c hp d ⟨hsurf, hfree, hstaged⟩
    simp only [hsurf, handle_of_find (find_of_surf hsurf), hfree, hstaged, Bool.false_eq_true, if_false, if_true]
  case inUse =>
    intro h p o
    refine endsOn_of_anvilH (sp := specSurfaceFree) rfl rfl (exec_surfaceFree · h p) ?_
    rintro c hp d ⟨hsurf, hfree, hstaged, huse⟩
    simp only [hsurf, handle_of_find (find_of_surf hsurf), hfree, hstaged, huse, Bool.false_eq_true, if_false, if_true]
  case complete =>
    intro k c rest
    refine occursOn_of_hearthEventH (exec_surfaceFreeComplete · k) ?_
    rintro hp d ⟨hon, hfrees, hrest, hlatched, hreading, hsurf, hbuf⟩
    have hfind : d.lay.frees.find? (·.1 = k) = some (k, c) := by simp [hfrees]
    have hleft : d.lay.frees.filter (·.1 ≠ k) = rest := by simpa [hfrees] using hrest
    refine ⟨hon, ?_⟩
    simp only [hfind, hleft, hlatched, hreading, hsurf, hbuf, Bool.or_self, Bool.false_eq_true, if_false]
  case latched =>
    intro k c rest
    refine occursOn_of_hearthEventH (exec_surfaceFreeComplete · k) ?_
    rintro hp d ⟨hon, hfrees, hlatched⟩
    have hfind : d.lay.frees.find? (·.1 = k) = some (k, c) := by simp [hfrees]
    refine ⟨hon, ?_⟩
    simp only [hfind, hlatched, Bool.true_or, if_true]
  case upload =>
    intro h p o b
    refine endsOn_of_anvilH (sp := specSurfUpload) rfl rfl (exec_surfUpload · h p) ?_
    rintro c hp d ⟨hsurf, hbuf, hfreeDst, hfreeSrc, hlostDst, hlostSrc⟩
    simp only [hsurf, hbuf, handle_of_find (find_of_surf hsurf), handle_of_find (find_of_buf hbuf), hfreeDst, hfreeSrc, hlostDst, hlostSrc,
      Bool.or_self, Bool.false_eq_true, if_false]
  case uploadDone =>
    intro op c rest o b hup hcmd
    refine occursOn_of_hearthEventH exec_surfUploadDone ?_
    rintro hp d ⟨hon, hidle, hqueue, hdst, hsrc, hlostDst, hlostSrc⟩
    have hhead : d.headUpload = some op := by simp only [Dev.headUpload, hidle, hqueue, hup, if_true]
    refine ⟨hon, ?_⟩
    simp only [hhead, hqueue, List.tail_cons, hdst, hsrc, hlostDst, hlostSrc, hcmd, Bool.or_self, Bool.false_eq_true, if_false]

end Sys2Proof.Proofs
end

section
/-! Commits (O39): what a capture leaves of the layers, the order of the commits that wait, and the binding point's cases. -/

namespace Sys2Proof.Machine

variable (d : Dev)

/-! A capture (R211). -/

@[simp] theorem mapFromPark_lay : d.mapFromPark.lay = d.lay := by
  unfold Dev.mapFromPark
  split <;> rfl

@[simp] theorem pmCapture_lay : d.pmCapture.2.lay = d.lay := by
  unfold Dev.pmCapture
  split <;> rfl

@[simp] theorem camCapture_lay : d.camCapture.2.lay = d.lay := by
  refine List.foldlRecOn (motive := fun x : List (Nat × Bytes × Nat) × Dev => x.2.lay = d.lay) _ _ rfl fun x hx c _ => ?_
  dsimp only
  split <;> exact hx

/-- Every layer's change has been taken. -/
theorem capture_changed (late : Bool) : (d.capture late).2.lay.changed = d.lay.changed.map fun _ => false := by
  have hlay : d.mapFromPark.pmCapture.2.camCapture.2.lay = d.lay := by simp
  simp only [Dev.capture, hlay]

/-! The commits that wait (R211). -/

/-- In a list in the order of its numbers, what is not before `k` has no number below `k`. -/
theorem le_of_mem_dropWhile {l : List Commit} {k : Nat} (h : l.Pairwise fun a b => a.no < b.no) :
    ∀ a ∈ l.dropWhile (·.no < k), k ≤ a.no := by
  induction l with
  | nil => simp
  | cons x l ih =>
    obtain ⟨hx, hl⟩ := List.pairwise_cons.1 h
    by_cases hk : x.no < k
    · simpa [hk] using ih hl
    · intro a ha
      rw [List.dropWhile_cons_of_neg (by simpa using hk)] at ha
      rcases List.mem_cons.1 ha with rfl | ha
      · omega
      · have := hx a ha
        omega

theorem addCommit_pairwise {c : Commit} (h : d.ras.commits.Pairwise fun a b => a.no < b.no) (hc : ∀ a ∈ d.ras.commits, a.no ≠ c.no) :
    (d.addCommit c).ras.commits.Pairwise fun a b => a.no < b.no := by
  have hbefore : ∀ a ∈ d.ras.commits.takeWhile (·.no < c.no), a.no < c.no := fun a ha => by simpa using List.mem_takeWhile_imp ha
  have hafter : ∀ b ∈ d.ras.commits.dropWhile (·.no < c.no), c.no < b.no := fun b hb =>
    Nat.lt_of_le_of_ne (le_of_mem_dropWhile h b hb) (hc b ((List.dropWhile_sublist _).subset hb)).symm
  refine List.pairwise_append.2 ⟨h.sublist (List.takeWhile_sublist _), List.pairwise_cons.2 ⟨hafter, h.sublist (List.dropWhile_sublist _)⟩, ?_⟩
  intro a ha b hb
  rcases List.mem_cons.1 hb with rfl | hb
  · exact hbefore a ha
  · exact (hbefore a ha).trans (hafter b hb)

theorem mem_addCommit {c a : Commit} : a ∈ (d.addCommit c).ras.commits ↔ a = c ∨ a ∈ d.ras.commits := by
  have hsplit : a ∈ d.ras.commits ↔ a ∈ d.ras.commits.takeWhile (·.no < c.no) ∨ a ∈ d.ras.commits.dropWhile (·.no < c.no) := by
    rw [← List.mem_append, List.takeWhile_append_dropWhile]
  rw [hsplit]
  simp only [Dev.addCommit, List.mem_append, List.mem_cons]
  tauto

/-! The binding point (R184, R210). -/

/-- With no setting held, none is examined and no frame is counted. -/
theorem heldLayers_none (f : Nat) (skip : List Nat) (h : d.lay.held.any Option.isSome = false) : d.heldLayers f skip = d := by
  have hnone : ∀ n, d.lay.held.getD n none = none := by
    intro n
    rw [List.getD_eq_getElem?_getD]
    cases hn : d.lay.held[n]? with
    | none => rfl
    | some o => simpa using List.any_eq_false.1 h o (List.mem_of_getElem? hn)
  refine List.foldlRecOn (motive := fun x => x = d) _ _ rfl fun x hx n _ => ?_
  subst hx
  simp only [hnone]

theorem countHeld_none (h : d.lay.held.any Option.isSome = false) : d.countHeld = d := by
  simp only [Dev.countHeld, h, Bool.false_eq_true, if_false]

/-- A commit that is not scheduled keeps its updates (R246). -/
theorem holdUpdates_unscheduled {c : Commit} (h : c.sched = false) : d.holdUpdates c = (c, d) := by
  simp only [Dev.holdUpdates, h, Bool.not_false, Bool.true_or, if_true]

end Sys2Proof.Machine

namespace Sys2Proof.Proofs

open Sys2Proof.Machine

/-- Settles O39: COMMIT's cases and those of the binding point are decided by their conditions, and a captured commit is inserted in order. -/
theorem commitsAreCapturedAndBound : Obligations.CommitsAreCapturedAndBound := by
  unfold Obligations.CommitsAreCapturedAndBound
  refine ⟨?now, ?late, ?scheduled, ?full, ?captured, ?taken, fun d c h hc => ⟨addCommit_pairwise d h hc, fun a => mem_addCommit d⟩, ?idle,
    ?bound⟩
  case now =>
    intro h p
    refine ends_of_anvil (sp := specCommit) rfl rfl (exec_commit · h p) ?_
    intro c d hmode
    simp only [hmode, Dev.takeCommitNo]
  case late =>
    intro h p
    refine ends_of_anvil (sp := specCommit) rfl rfl (exec_commit · h p) ?_
    rintro c d ⟨hmode, hlate⟩
    simp only [hmode, if_neg (show ¬ u64 p 8 > d.nextBind + 1048576 by omega), if_pos hlate]
  case scheduled =>
    intro h p
    refine ends_of_anvil (sp := specCommit) rfl rfl (exec_commit · h p) ?_
    rintro c d ⟨hmode, hnext, hfar, hroom⟩
    simp only [hmode, if_neg (Nat.not_lt.2 hfar), if_neg (Nat.not_lt.2 hnext), if_neg (Nat.not_le.2 hroom)]
    rfl
  case full =>
    intro h p
    refine ends_of_anvil (sp := specCommit) rfl rfl (exec_commit · h p) ?_
    rintro c d ⟨hmode, hnext, hfar, hfull⟩
    simp only [hmode, if_neg (Nat.not_lt.2 hfar), if_neg (Nat.not_lt.2 hnext), if_pos hfull]
  case captured =>
    intro no c rest
    refine occurs_of_hearthEvent exec_commitCaptureComplete ?_
    rintro d ⟨hon, hcapture⟩
    refine ⟨hon, ?_⟩
    simp only [hcapture]
    rfl
  case taken =>
    intro d late
    refine ⟨rfl, fun n hn => ?_⟩
    rw [capture_changed]
    simp [hn]
  case idle =>
    refine occurs_of_hearthEvent exec_bindingPoint ?_
    rintro d ⟨hon, hmode, hnone, hheld⟩
    refine ⟨hon, ?_⟩
    simp only [if_neg hmode, hnone, List.filter_nil, List.mergeSort_nil, List.foldl_nil, heldLayers_none, countHeld_none, hheld]
    rfl
  case bound =>
    intro c hsched
    refine occurs_of_hearthEvent exec_bindingPoint ?_
    rintro d ⟨hon, hmode, hone, hdue⟩
    refine ⟨hon, ?_⟩
    simp only [if_neg hmode, hone, List.filter_singleton, hdue, Bool.not_true, cond_true, cond_false, List.mergeSort_singleton, List.foldl_cons,
      List.foldl_nil, holdUpdates_unscheduled _ hsched, hsched, List.map_cons, List.map_nil, List.flatten_singleton, Bool.false_eq_true,
      if_false]

end Sys2Proof.Proofs
end

section
/-! Quench and its curves: their commands, and slot starts (O46). -/

namespace Sys2Proof.Machine

/-! Writes of flue registers that are made (R36, R550). -/

section
variable {α : Type} (regOf : α → Nat × Option Fld) (w : Dev → α → Dev) (d : Dev) (x : α)

/-- The exchange that carries a write changes the damper and what leaves. -/
theorem flueStep_frame :
    let t := flueStep regOf w d x
    t = { w d x with dmp := t.dmp, out := t.out } := by
  simp only [flueStep]
  split
  · rw [exchange_frame]
  · rfl

@[simp] theorem rd_flueStep (k : Nat) (g : Fld) : (flueStep regOf w d x).rd k g = (w d x).rd k g :=
  rd_congr (by rw [flueStep_frame]) k g

@[simp] theorem rdS_flueStep (k : Nat) (g : Fld) : (flueStep regOf w d x).rdS k g = (w d x).rdS k g := by
  rw [flueStep_frame]; rfl

end

variable (d : Dev)

@[simp] theorem rd_wrS (die : Nat) (f : Fld) (v k : Nat) (g : Fld) : (d.wrS die f v).rd k g = d.rd k g := rfl

@[simp] theorem rdS_wr (die : Nat) (f : Fld) (v k : Nat) (g : Fld) : (d.wr die f v).rdS k g = d.rdS k g := rfl

/-! QUENCH_CONFIG (R284). -/

/-- The writes of QUENCH_CONFIG: on each flue die BLANK, GUARD and the dither. -/
def quenchWrites : List (Nat × Nat) := (flueDies.map fun k => [(k, 0), (k, 1), (k, 2)]).flatten

/-- The register of each. -/
def quenchReg (e : Nat × Nat) : Nat × Option Fld := (e.1, some ([R.QNC_BLANK, R.QNC_GUARD].getD e.2 R.QNC_CFG_DITHER))

/-- What each writes. -/
def quenchWrite (p : Bytes) (d : Dev) (e : Nat × Nat) : Dev :=
  match e.2 with
  | 0 => d.wr e.1 R.QNC_BLANK (u16 p 0)
  | 1 => d.wr e.1 R.QNC_GUARD (u16 p 2)
  | _ => d.wrS e.1 R.QNC_CFG_DITHER (u8 p 4)

theorem quenchWrite_frame (p : Bytes) (e : Nat × Nat) :
    let t := quenchWrite p d e
    t = { d with regs := t.regs, shadow := t.shadow } := by
  simp only [quenchWrite]
  split <;> rfl

theorem quenchSteps_frame (p : Bytes) (l : List (Nat × Nat)) :
    let t := l.foldl (flueStep quenchReg (quenchWrite p)) d
    t = { d with regs := t.regs, shadow := t.shadow, dmp := t.dmp, out := t.out } := by
  induction l generalizing d with
  | nil => rfl
  | cons e l ih =>
    rw [List.foldl_cons]
    refine (ih _).trans ?_
    rw [flueStep_frame, quenchWrite_frame]

theorem flueWrites_quench {h : Hdr} (p : Bytes) (hup : ∀ k ∈ flueDies, d.flueUp k = true ∧ d.canAnswer k = true) (hans : h.answered = none) :
    d.flueWrites h flueDies quenchWrites quenchReg (quenchWrite p) = (6, quenchWrites.foldl (flueStep quenchReg (quenchWrite p)) d, none) := by
  have h8 : d.canAnswer 8 = true := (hup 8 (by decide)).2
  have h9 : d.canAnswer 9 = true := (hup 9 (by decide)).2
  refine flueWrites_all _ (fun k hk => (hup k hk).1) hans ?_ (by decide) ?_
  · intro e x k
    exact canAnswer_congr (by rw [quenchWrite_frame]) k
  · simp [quenchWrites, quenchReg, flueDies, h8, h9]

theorem quenchConfig_done (h : Hdr) (p : Bytes) :
    Ends (.quenchConfig h p)
      (fun _ d => d.litBad (u16 p 0) (u16 p 2) = false ∧ d.segSt 0 = .off ∧ d.segSt 1 = .off ∧
        (∀ k ∈ flueDies, d.flueUp k = true ∧ d.canAnswer k = true) ∧ h.answered = none)
      (fun _ d => quenchWrites.foldl (flueStep quenchReg (quenchWrite p)) d) (fun _ _ => .done) := by
  refine ends_of_anvil (sp := specQuenchConfig) rfl rfl (exec_quenchConfig · h p) ?_
  rintro c d ⟨hlit, h0, h1, hup, hans⟩
  simp only [hlit, h0, h1, ne_eq, not_true_eq_false, or_self, Bool.false_eq_true, if_false]
  exact congrArg (fun r : Nat × Dev × Option Rep => (r.2.1, r.2.2.getD .done)) (flueWrites_quench d p hup hans)

/-- What the gate has checked of QUENCH_CONFIG's times and dither. -/
theorem quenchConfig_checked {h : Hdr} {p : Bytes} {s : State} (hm : mayBegin (.quenchConfig h p) s = true) :
    u16 p 0 ≤ 8000 ∧ u16 p 2 ≤ 2000 ∧ u8 p 4 ≤ 1 := by
  have hc := failIf_eq_none.1 (check_of_mayBegin (sp := specQuenchConfig) rfl rfl hm)
  simp [Instr.params] at hc
  omega

/-- Each flue die holds the times and the dither that were written. -/
theorem rd_quenchSteps {p : Bytes} (hb : u16 p 0 ≤ 8000) (hg : u16 p 2 ≤ 2000) (hd : u8 p 4 ≤ 1) {k : Nat} (hk : k ∈ flueDies) :
    let t := quenchWrites.foldl (flueStep quenchReg (quenchWrite p)) d
    t.rd k R.QNC_BLANK = u16 p 0 ∧ t.rd k R.QNC_GUARD = u16 p 2 ∧ t.rdS k R.QNC_CFG_DITHER = u8 p 4 := by
  have hblank : u16 p 0 % 2 ^ 13 = u16 p 0 := Nat.mod_eq_of_lt (by omega)
  have hguard : u16 p 2 % 2 ^ 11 = u16 p 2 := Nat.mod_eq_of_lt (by omega)
  have hdither : u8 p 4 % 2 ^ 1 = u8 p 4 := Nat.mod_eq_of_lt (by omega)
  have hsteps : quenchWrites = [(8, 0), (8, 1), (8, 2), (9, 0), (9, 1), (9, 2)] := rfl
  simp only [hsteps, List.foldl_cons, List.foldl_nil]
  obtain rfl | rfl : k = 8 ∨ k = 9 := by simpa [flueDies] using hk
  · simp (disch := decide) only [quenchWrite, rd_flueStep, rdS_flueStep, rd_wrS, rdS_wr, rd_wr_self, rd_wr_addr, rdS_wrS_self, rdS_wrS_addr]
    exact ⟨hblank, hguard, hdither⟩
  · simp (disch := decide) only [quenchWrite, rd_flueStep, rdS_flueStep, rd_wrS, rd_wr_self, rd_wr_addr, rdS_wrS_self]
    exact ⟨hblank, hguard, hdither⟩

/-! Curves (R285). -/

/-- The curve of one colour's load, where it is good, becomes the shadow curve (R251, R285). -/
theorem loadCurves_one (o : Obj) (base lmax off m bad : Nat) : d.loadCurves o base 1 lmax off m bad =
    if curveOk m (curvePoints o off) then
      ({ d with curves := { d.curves with shadow := d.curves.shadow.set base (some ⟨lmax, curvePoints o off⟩) } }, .done)
    else (d, .bad St.badParam bad) := by
  have hmask : [0, 1, 2].filter (bit 1) = [0] := rfl
  cases hok : curveOk m (curvePoints o off) <;> simp [Dev.loadCurves, hmask, hok]

/-! Slot starts (R264–R271). -/

/-- What a slot start leaves of the arrays' work: the lamp's part, the frame and the functions. -/
def slotState (d : Dev) : Lamp × Nat × List (Nat × Fn) := (d.lamp, d.frame, d.fns)

@[simp] theorem slotState_slotStrike (k j : Nat) : slotState (d.slotStrike k j) = slotState d := by
  simp only [Dev.slotStrike]
  split
  · rfl
  · split <;> rfl

theorem slotState_flu (f : List FlueData) : slotState { d with flu := f } = slotState d := rfl

@[simp] theorem slotState_arraySlot (a j : Nat) : slotState (d.arraySlot a j) = slotState d := by
  have hsends {f : Dev → Nat → Dev} (hf : ∀ e n, slotState (f e n) = slotState e) (l : List Nat) : slotState (l.foldl f d) = slotState d :=
    foldl_keeps slotState hf l d
  have hcount {c : Prop} [Decidable c] {x e t : Dev} (he : slotState e = slotState x) (ht : slotState t = slotState e) :
      slotState (if c then t else e) = slotState x := by
    split
    · exact ht.trans he
    · exact he
  refine (slotState_flu _ _).trans (hcount (hcount (hsends ?_ _) rfl) rfl)
  intro e n
  exact hcount rfl rfl

/-- The arrays' work of a slot, and its number shown on both dies. -/
def slotShown (d : Dev) (j : Nat) : Dev :=
  ((List.range 4).foldl (fun d a => d.arraySlot a j) ((d.slotStrike 0 j).slotStrike 1 j)).wrAll flueDies R.QNC_SLOT_NOW j

/-- The slot after `j` is due. -/
def slotNext (d : Dev) (j : Nat) : Dev := { d with lamp := { d.lamp with slot := j + 1 } }

@[simp] theorem rd_slotNext (j k : Nat) (g : Fld) : (slotNext d j).rd k g = d.rd k g := rfl

theorem slotState_slotNext (j : Nat) : slotState (slotNext d j) = ({ d.lamp with slot := j + 1 }, d.frame, d.fns) := rfl

theorem slotState_slotShown (j : Nat) : slotState (slotShown d j) = slotState d := by
  have hshown (e : Dev) : slotState (e.wrAll flueDies R.QNC_SLOT_NOW j) = slotState e := rfl
  rw [slotShown, hshown, foldl_keeps slotState (fun e a => slotState_arraySlot e a j), slotState_slotStrike, slotState_slotStrike]

theorem rd_slotShown {j k : Nat} (hj : j < 768) (hk : k ∈ flueDies) : (slotShown d j).rd k R.QNC_SLOT_NOW = j := by
  have hmod : j % 2 ^ (R.QNC_SLOT_NOW.hi + 1 - R.QNC_SLOT_NOW.lo) = j := Nat.mod_eq_of_lt (Nat.lt_trans hj (by decide))
  have hread (e : Dev) : (e.wrAll flueDies R.QNC_SLOT_NOW j).rd k R.QNC_SLOT_NOW = j := by
    simp only [flueDies, Dev.wrAll, List.foldl_cons, List.foldl_nil]
    obtain rfl | rfl : k = 8 ∨ k = 9 := by simpa [flueDies] using hk
    · rw [rd_wr_addr _ _ (by decide), rd_wr_self _ _ _ _ (by decide) (by decide), hmod]
    · rw [rd_wr_self _ _ _ _ (by decide) (by decide), hmod]
  exact hread _

/-- In projector mode the slot that is due is shown, and the next one is due. -/
theorem slotStart_due {s : State} (hmode : s.dev.mode = 2) (hslot : s.dev.lamp.slot < 768) :
    exec .slotStart s = .next (s.withDev (slotNext (slotShown s.dev s.dev.lamp.slot) s.dev.lamp.slot)) := by
  have hdue : ¬ (s.dev.mode ≠ 2 ∨ s.dev.lamp.slot ≥ 768) := by omega
  rw [exec_slotStart, execSlotStart, event_next, if_neg hdue]
  rfl

end Sys2Proof.Machine

namespace Sys2Proof.Proofs

open Sys2Proof.Machine

/-- Settles O46: QUENCH_CONFIG's writes are all made (`quenchConfig_done`), and the arrays' work of a slot leaves its number to the slot start. -/
theorem quenchAndSlots : Obligations.QuenchAndSlots := by
  unfold Obligations.QuenchAndSlots
  refine ⟨?lampOn, ?config, ?curve, ?curveInvalid, ?status, ?noSlot, ?slot⟩
  case lampOn =>
    intro h p
    refine ends_of_anvil (sp := specQuenchConfig) rfl rfl (exec_quenchConfig · h p) ?_
    rintro c d ⟨hlit, hon⟩
    simp only [hlit, Bool.false_eq_true, if_false]
    exact if_pos (Or.inl hon)
  case config =>
    intro h p s hm d c hlit h0 h1 hup hans
    obtain ⟨hb, hg, hd⟩ := quenchConfig_checked hm
    exact ⟨_, quenchConfig_done h p s hm ⟨hlit, h0, h1, hup, hans⟩, quenchSteps_frame _ _ _, fun k hk => rd_quenchSteps _ hb hg hd hk⟩
  case curve =>
    intro h p o
    refine endsOn_of_anvilR (sp := specProjCurveSet) rfl rfl (exec_projCurveSet · h p) ?_
    rintro c hp d ⟨hbuf, hlost, hmask, hok⟩
    simp only [hbuf, hlost, hmask, loadCurves_one, hok, Bool.false_eq_true, if_false, if_true]
  case curveInvalid =>
    intro h p o
    refine endsOn_of_anvilR (sp := specProjCurveSet) rfl rfl (exec_projCurveSet · h p) ?_
    rintro c hp d ⟨hbuf, hlost, hmask, hok⟩
    simp only [hbuf, hlost, hmask, loadCurves_one, hok, Bool.false_eq_true, if_false]
  case status =>
    intro h p s hm d c h8 h9 hans
    have hup : ∀ k ∈ flueDies, d.flueUp k = true := by simpa [flueDies] using ⟨h8, h9⟩
    rw [exec_quenchStatus, execQuenchStatus, anvil_of_mayBegin (p := p) rfl rfl rfl hm, flueRead_reached _ _ hup hans]
    refine ⟨_, rfl, by simp [List.range_succ], ?_⟩
    simp only [List.range_succ, List.range_zero, List.nil_append, List.cons_append, List.map_cons, List.flatten_cons, List.append_assoc, u8_enc_one]
    exact Nat.mod_eq_of_lt (fnSt_num_lt _)
  case noSlot =>
    refine occurs_of_event exec_slotStart ?_
    intro d hnot
    exact if_pos hnot
  case slot =>
    intro s hmode hslot
    have hkept := slotState_slotShown s.dev s.dev.lamp.slot
    have hnext := slotState_slotNext (slotShown s.dev s.dev.lamp.slot) s.dev.lamp.slot
    simp only [slotState, Prod.mk.injEq] at hkept hnext
    obtain ⟨hlamp, hframe, hfns⟩ := hkept
    obtain ⟨hlamp', hframe', hfns'⟩ := hnext
    exact ⟨_, slotStart_due hmode hslot, hlamp'.trans (by rw [hlamp]), fun k hk => (rd_slotNext _ _ _ _).trans (rd_slotShown _ hslot hk),
      hframe'.trans hframe, hfns'.trans hfns⟩

end Sys2Proof.Proofs
end

section
/-!
The lamp bus (R272–R282): a segment after an update, the registers and segments that replies, descriptors and the damper's queues leave, and
what becomes of the transactions of a node that is LOST.
-/

namespace Sys2Proof.Machine

variable (d : Dev)

/-! Segments. -/

theorem seg_congr {d e : Dev} (h : d.lamp = e.lamp) (k : Nat) : d.seg k = e.seg k := by
  simp only [Dev.seg, h]

@[simp] theorem rd_setSeg (j : Nat) (x : Segment) (k : Nat) (g : Fld) : (d.setSeg j x).rd k g = d.rd k g := rfl

@[simp] theorem segs_length_setSeg (k : Nat) (x : Segment) : (d.setSeg k x).lamp.segs.length = d.lamp.segs.length := List.length_set

theorem seg_setSeg_self {k : Nat} (x : Segment) (h : k < d.lamp.segs.length) : (d.setSeg k x).seg k = x := by
  simp [Dev.seg, Dev.setSeg, List.getD, h]

/-- A segment that is set reads as set, or is none of the device's and reads as before. -/
theorem seg_setSeg_cases (k : Nat) (x : Segment) : (d.setSeg k x).seg k = x ∨ (d.setSeg k x).seg k = d.seg k := by
  by_cases h : k < d.lamp.segs.length
  · exact .inl (seg_setSeg_self d x h)
  · exact .inr (by simp [Dev.seg, Dev.setSeg, List.getD, h])

@[simp] theorem seg_markNode (k a : Nat) (p l : Bool) (j : Nat) : (d.markNode k a p l).seg j = d.seg j := rfl

/-! Operations of other families leave the segments. -/

@[simp] theorem flueEvent_lamp (f s : Nat) : (d.flueEvent f s).lamp = d.lamp := by rw [Dev.flueEvent, retPut_frame]

@[simp] theorem descriptor_lamp (l die blk u c a x : Nat) (b : Bytes) : (d.descriptor l die blk u c a x b).lamp = d.lamp := by
  rw [descriptor_frame]

@[simp] theorem finalReply_lamp (c : Cmd) (st rs : Nat) (b : Bytes) : (d.finalReply c st rs b).lamp = d.lamp := by rw [finalReply_frame]

@[simp] theorem complete_lamp (c : Cmd) (st rs : Nat) (b : Bytes) : (d.complete c st rs b).lamp = d.lamp := by rw [complete_frame]

/-! Replies, descriptors and the damper's queues leave the registers of the lamp bus. -/

section
variable {k : Nat} {g : Fld}

theorem rd_retPut_low (f : Nat) (m : RetMsg) (hg : g.off < 0x7000000) : (d.retPut f m).rd k g = d.rd k g := by
  have other {o : Nat} (hlo : 0x7000000 ≤ o) (hhi : o < 2 ^ 28) : regAddr k g.off ≠ regAddr (8 + f) o := by
    simp only [regAddr]; omega
  have hwm (e : Dev) (v : Nat) : (e.hwm (8 + f) R.DMP_RQ_HWM v).rd k g = e.rd k g := rd_hwm_addr e v (other (by decide) (by decide))
  have merged (e : Dev) : (e.bump (8 + f) R.DMP_RQ_MERGED).rd k g = e.rd k g := rd_bump_addr e 1 (other (by decide) (by decide))
  have discard (e : Dev) (n : Nat) : (e.bump (8 + f) R.DMP_RQ_DISCARD n).rd k g = e.rd k g := rd_bump_addr e n (other (by decide) (by decide))
  unfold Dev.retPut
  dsimp only
  repeat' split
  all_goals simp only [hwm, merged, discard, rd_setFlueEnd]

theorem rd_flueEvent_low (f s : Nat) (hg : g.off < 0x7000000) : (d.flueEvent f s).rd k g = d.rd k g := rd_retPut_low d f _ hg

variable (hk : k ≠ 0) (hg : g.off < 2 ^ 28)
include hk hg

theorem rd_ashPut_die (ty l : Nat) (b : Bytes) : (d.ashPut ty l b).rd k g = d.rd k g := by
  unfold Dev.ashPut
  extract_lets lim
  split
  · exact rd_bump_addr d 1 (regAddr_die hg (by decide) hk)
  · exact rd_wr_addr _ _ (regAddr_die hg (by decide) hk)

theorem rd_descriptor_die (l die blk u c a x : Nat) (b : Bytes) : (d.descriptor l die blk u c a x b).rd k g = d.rd k g := by
  unfold Dev.descriptor
  dsimp only
  split
  · rfl
  · rw [rd_raise _ _ (regAddr_die hg (by decide) hk)]
    split <;> exact rd_ashPut_die _ hk hg _ _ _

theorem rd_replyRaw_die (h : Hdr) (op st rs : Nat) (b : Bytes) (key : Option Bytes) : (d.replyRaw h op st rs b key).rd k g = d.rd k g := by
  have hcount : (if st = St.authFail then d.bump 0 R.TNK_AV_AUTH else d).rd k g = d.rd k g := by
    split
    · exact rd_bump_addr d 1 (regAddr_die hg (by decide) hk)
    · rfl
  unfold Dev.replyRaw
  dsimp only
  split
  · exact hcount
  · exact (rd_congr (by rw [sendPkt_frame]) k g).trans hcount

theorem rd_replyNow_die (c : Cmd) (st rs : Nat) (b : Bytes) : (d.replyNow c st rs b).rd k g = d.rd k g := by
  have hheld (e : Dev) (x : Session) : (if c.who < 4 then e.setSess c.who x else e).rd k g = e.rd k g := by split <;> rfl
  have hauth (e : Dev) : (e.countAuth c.who st).rd k g = e.rd k g := rd_congr (by rw [countAuth_frame]) k g
  have hraw {e t : Dev} (key : Option Bytes) (h : t.rd k g = e.rd k g) : (t.replyRaw c.h c.op st rs b key).rd k g = e.rd k g :=
    (rd_replyRaw_die t hk hg _ _ _ _ _ _).trans h
  unfold Dev.replyNow
  dsimp only
  split
  · exact hraw _ rfl
  · split
    · rfl
    · split
      · exact hraw _ (hheld _ _)
      · exact (hauth _).trans (hraw _ (hheld _ _))

theorem rd_replyDue_die : d.replyDue.rd k g = d.rd k g := by
  unfold Dev.replyDue
  split
  · rfl
  · exact rd_replyNow_die _ hk hg _ _ _ _

/-- A final reply, with those that waited for it, counts on Mantel alone. -/
theorem rd_finalReply_die (c : Cmd) (st rs : Nat) (b : Bytes) : (d.finalReply c st rs b).rd k g = d.rd k g := by
  have hdue (n : Nat) (e : Dev) : (Nat.repeat Dev.replyDue n e).rd k g = e.rd k g := by
    induction n with
    | zero => rfl
    | succ n ih => exact (rd_replyDue_die _ hk hg).trans ih
  unfold Dev.finalReply
  split
  · rfl
  · exact (hdue _ _).trans (rd_replyNow_die d hk hg c st rs b)

end

/-! Nodes (R276). -/

theorem markWord_bit (w : Word) {a : Nat} (b : Bool) (ha : a < 32) : bit ((setBits w a a (b2n b)).toNat % 2 ^ 32) a = b := by
  rw [Nat.mod_eq_of_lt (BitVec.isLt _), bit, setBits_testBit w _ a ha, if_pos ⟨Nat.le_refl a, Nat.le_refl a⟩, Nat.sub_self]
  cases b <;> rfl

theorem nodePresent_markNode (k : Nat) {a : Nat} (p l : Bool) (ha : a < 32) : (d.markNode k a p l).nodePresent k a = p := by
  simp only [Dev.nodePresent, Dev.markNode]
  rw [rd_wr_addr (g := R.LMP_PRESENT) _ _ (regAddr_off (by decide)), rd_wr_self _ _ _ _ (by decide) (by decide)]
  exact markWord_bit _ p ha

theorem nodeLost_markNode (k : Nat) {a : Nat} (p l : Bool) (ha : a < 32) : (d.markNode k a p l).nodeLost k a = l := by
  simp only [Dev.nodeLost, Dev.markNode]
  rw [rd_wr_self _ _ _ _ (by decide) (by decide)]
  exact markWord_bit _ l ha

theorem nodeBad_present {k a : Nat} (hdone : d.rd (8 + k) R.LMP_STATE_ENUM_DONE = 1) (h : d.nodePresent k a = false) :
    d.nodeBad k a = some Rsl.noNode := by
  simp [Dev.nodeBad, hdone, h]

/-! A start that fails (R276, R288). -/

theorem startFails_queue {k rs : Nat} {u : Tx} (h : u ∈ ((d.startFails k rs).seg k).queue) : u ∈ (d.seg k).queue := by
  unfold Dev.startFails at h
  dsimp only at h
  obtain hs | hs := seg_setSeg_cases d k { d.seg k with
    failed := some rs, stage := 0, queue := (d.seg k).queue.filter fun t => !(t.why == .config true || t.why == .enable true) }
  · rw [hs] at h
    exact (List.mem_filter.1 h).1
  · rwa [hs] at h

theorem startAdvance_cases (k : Nat) : d.startAdvance k = d ∨ d.startAdvance k = d.setSeg k { d.seg k with stage := 2 } := by
  unfold Dev.startAdvance
  dsimp only
  split
  · exact .inr rfl
  · exact .inl rfl

@[simp] theorem rd_startAdvance (j k : Nat) (g : Fld) : (d.startAdvance j).rd k g = d.rd k g := by
  obtain h | h := startAdvance_cases d j <;> rw [h]
  rfl

@[simp] theorem startAdvance_queue (k : Nat) : ((d.startAdvance k).seg k).queue = (d.seg k).queue := by
  obtain h | h := startAdvance_cases d k <;> rw [h]
  obtain hs | hs := seg_setSeg_cases d k { d.seg k with stage := 2 } <;> rw [hs]

/-- R276: a transaction whose node is LOST fails its command, or a start, or leaves nothing to do. -/
theorem txLost_cases (k : Nat) (t : Tx) : (∃ c, d.txLost k t = d.finalReply c St.fault Rsl.noReply []) ∨
    d.txLost k t = d.startFails k Rsl.noReply ∨ d.txLost k t = d := by
  unfold Dev.txLost
  split
  · exact .inl ⟨_, rfl⟩
  · exact .inl ⟨_, rfl⟩
  · exact .inl ⟨_, rfl⟩
  · exact .inr (.inl rfl)
  · exact .inr (.inl rfl)
  · exact .inr (.inr rfl)

theorem rd_txLost (j : Nat) (t : Tx) {k : Nat} {g : Fld} (hk : k ≠ 0) (hg : g.off < 2 ^ 28) : (d.txLost j t).rd k g = d.rd k g := by
  obtain ⟨c, h⟩ | h | h := txLost_cases d j t <;> rw [h]
  · exact rd_finalReply_die d hk hg c _ _ _
  · rfl

theorem txLost_segs_length (k : Nat) (t : Tx) : (d.txLost k t).lamp.segs.length = d.lamp.segs.length := by
  obtain ⟨c, h⟩ | h | h := txLost_cases d k t <;> rw [h]
  · rw [finalReply_lamp]
  · exact segs_length_setSeg _ _ _

theorem txLost_queue {k : Nat} {t u : Tx} (hu : u ∈ ((d.txLost k t).seg k).queue) : u ∈ (d.seg k).queue := by
  obtain ⟨c, h⟩ | h | h := txLost_cases d k t <;> rw [h] at hu
  · rwa [seg_congr (finalReply_lamp ..)] at hu
  · exact startFails_queue d hu
  · exact hu

theorem txsLost_queue {k : Nat} (l : List Tx) {u : Tx} (hu : u ∈ ((l.foldl (fun d t => d.txLost k t) d).seg k).queue) : u ∈ (d.seg k).queue :=
  List.foldlRecOn l (fun (e : Dev) t => e.txLost k t) (motive := fun e : Dev => u ∈ (e.seg k).queue → u ∈ (d.seg k).queue) id
    (fun _ ih _ _ h => ih (txLost_queue _ h)) hu

/-! A node that is LOST (R276). -/

/-- The registers of the bus are those of the node marked LOST. -/
theorem rd_loseNode (k : Nat) (t : Tx) {g : Fld} (hg : g.off < 0x7000000) :
    (d.loseNode k t).rd (8 + k) g = (d.markNode k t.addr false true).rd (8 + k) g := by
  have hdie : 8 + k ≠ 0 := by omega
  have hoff : g.off < 2 ^ 28 := Nat.lt_trans hg (by decide)
  unfold Dev.loseNode
  dsimp only
  rw [rd_startAdvance, foldl_keeps (fun e : Dev => e.rd (8 + k) g) (fun e u => rd_txLost e k u hdie hoff), rd_descriptor_die _ hdie hoff,
    rd_flueEvent_low _ _ _ hg]
  rfl

/-- No transaction with the node waits any longer. -/
theorem loseNode_queue {k : Nat} {t u : Tx} (hk : k < d.lamp.segs.length) (hu : u ∈ ((d.loseNode k t).seg k).queue) : u.addr ≠ t.addr := by
  unfold Dev.loseNode at hu
  dsimp only at hu
  rw [startAdvance_queue] at hu
  have hseg := txsLost_queue _ _ hu
  rw [seg_congr (descriptor_lamp ..), seg_congr (flueEvent_lamp ..), seg_markNode, seg_setSeg_self d _ hk] at hseg
  simpa using (List.mem_filter.1 hseg).2

/-! A STATUS poll (R281). -/

/-- The poll marks the segment's nodes. -/
theorem statusPolled_lamp (k a v : Nat) : ∃ ns, (d.statusPolled k a v).lamp = (d.setSeg k { d.seg k with nodes := ns }).lamp := by
  refine ⟨_, foldl_keeps Dev.lamp ?_ _ _⟩
  intro e c
  simp

end Sys2Proof.Machine
end

section
/-! The commands of class 0x22 and the events of the lamp bus (O47): what each does where its checks pass. -/

namespace Sys2Proof.Machine

variable (d : Dev)

/-! What an enable lacks, and writes that send no message. -/

theorem lampLacks_unenumerated {k : Nat} (h : d.rd (8 + k) R.LMP_STATE_ENUM_DONE = 0) : d.lampLacks k = some Rsl.notEnumerated := if_pos h

theorem lampLacks_none {k : Nat} (h : d.rd (8 + k) R.LMP_STATE_ENUM_DONE = 1)
    (hn : ∀ n < 128, d.chEnabled k n = true → d.nodePresent k (n / 4) = true) : d.lampLacks k = none := by
  have hany : ((List.range 128).any fun n => d.chEnabled k n && !d.nodePresent k (n / 4)) = false := by
    refine List.any_eq_false.2 fun n hmem => ?_
    cases hc : d.chEnabled k n
    · simp
    · simp [hn n (List.mem_range.1 hmem) hc]
  simp [Dev.lampLacks, h, hany]

/-- One write that names no register, of a die that can be reached and answers, is made without a message. -/
theorem flueWrites_one {α : Type} {h : Hdr} {die : Nat} {x : α} {regOf : α → Nat × Option Fld} (w : Dev → α → Dev) (hreg : regOf x = (die, none))
    (hup : d.flueUp die = true) (ha : d.canAnswer die = true) (hans : h.answered = none) :
    d.flueWrites h [die] [x] regOf w = (1, w d x, none) := by
  rw [flueWrites_reachable d h _ _ _ _ (by simp [hup]), hans, flueRun_done d regOf w 0 x [] (by simp [hreg]) (by rw [hreg]; exact ha), hreg]
  rfl

theorem flueWrites_unnamed {h : Hdr} {die : Nat} (w : Dev → Unit → Dev) (hup : d.flueUp die = true) (ha : d.canAnswer die = true)
    (hans : h.answered = none) : d.flueWrites h [die] [()] (fun _ => (die, none)) w = (1, w d (), none) :=
  flueWrites_one d w rfl hup ha hans

/-- No register of the lamp bus is of the power blocks (R33). -/
theorem powerBlock_lamp (k : Nat) {o : Nat} (hlo : 0x2200000 ≤ o) (hhi : o < 0x2300000) : powerBlock (regAddr k o) = false := by
  have hblk : regAddr k o / 2 ^ 20 % 256 = 0x22 := by simp only [regAddr]; omega
  simp only [powerBlock, hblk]
  rfl

theorem u8_lt (p : Bytes) (o : Nat) : u8 p o < 256 := (p.getD o 0).isLt

/-! LAMP_CHANNEL_SET (R289). -/

/-- What LAMP_CHANNEL_SET writes. -/
def channelWrite (k n fl src : Nat) (d : Dev) : Dev :=
  (((((d.wr (8 + k) (R.LMP_CH_ENABLE n) (bits fl 0 0)).wr (8 + k) (R.LMP_CH_COLOUR n) (bits fl 2 1)).wr (8 + k) (R.LMP_CH_ARRAY n) (bits fl 3 3)).wr
    (8 + k) (R.LMP_CH_REF n) (bits fl 4 4)).wr (8 + k) (R.LMP_CH_TCOMP n) (bits fl 5 5)).wr (8 + k) (R.LMP_CH_SOURCE n) src

/-- A field of a channel's register is as before a write of another. -/
theorem rd_wr_channel (e : Dev) (die : Nat) {f g : Fld} (v : Nat) (ho : g.off = f.off) (hd : g.hi < f.lo) (hf : f.lo < 32) :
    (e.wr die f v).rd die g = e.rd die g := rd_wr_field e v ho (by omega) (.inl hd)

theorem rd_channelWrite (k n fl : Nat) {src : Nat} (hs : src < 256) :
    let t := channelWrite k n fl src d
    t.rd (8 + k) (R.LMP_CH_ENABLE n) = bits fl 0 0 ∧ t.rd (8 + k) (R.LMP_CH_COLOUR n) = bits fl 2 1 ∧
      t.rd (8 + k) (R.LMP_CH_ARRAY n) = bits fl 3 3 ∧ t.rd (8 + k) (R.LMP_CH_REF n) = bits fl 4 4 ∧
      t.rd (8 + k) (R.LMP_CH_TCOMP n) = bits fl 5 5 ∧ t.rd (8 + k) (R.LMP_CH_SOURCE n) = src := by
  have hw (hi lo : Nat) : bits fl hi lo % 2 ^ (hi + 1 - lo) = bits fl hi lo := Nat.mod_mod _ _
  simp (disch := simp) only [channelWrite, rd_wr_self, rd_wr_channel, hw]
  simpa using hs

/-- The write as it is made. -/
def channelStep (k n fl src : Nat) (d : Dev) : Dev :=
  flueStep (fun _ => (8 + k, some (R.LMP_CH_ENABLE n))) (fun d _ => channelWrite k n fl src d) d ()

theorem channelStep_frame (k n fl src : Nat) :
    let t := channelStep k n fl src d
    t = { d with regs := t.regs, dmp := t.dmp, out := t.out } := by
  simp only [channelStep]
  rw [flueStep_frame]
  rfl

theorem rd_channelStep (k n fl src j : Nat) (g : Fld) : (channelStep k n fl src d).rd j g = (channelWrite k n fl src d).rd j g :=
  rd_flueStep _ _ d () j g

theorem flueWrites_channel {h : Hdr} {k n : Nat} (fl src : Nat) (hn : n < 256) (hup : d.flueUp (8 + k) = true)
    (ha : d.canAnswer (8 + k) = true) (hans : h.answered = none) :
    d.flueWrites h [8 + k] [()] (fun _ => (8 + k, some (R.LMP_CH_ENABLE n))) (fun d _ => channelWrite k n fl src d) =
      (1, channelStep k n fl src d, none) := by
  refine flueWrites_all _ (by simpa using hup) hans (fun e _ k => canAnswer_congr rfl k) ?_ (by simpa using ha)
  intro _ _ _
  exact powerBlock_lamp (8 + k) (o := 0x2200100 + 4 * n) (by omega) (by omega)

/-- R289: of a segment that is OFF a channel's change waits for nothing. -/
theorem channelTurned_off {k : Nat} (n : Nat) (was : Bool) (h : d.segSt k = .off) : d.channelTurned k n was = d := by
  simp [Dev.channelTurned, h]

theorem lampChannelSet_off (h : Hdr) (p : Bytes) :
    Ends (.lampChannelSet h p)
      (fun _ d => d.segSt (u8 p 0) = .off ∧ d.flueUp (8 + u8 p 0) = true ∧ d.canAnswer (8 + u8 p 0) = true ∧ h.answered = none)
      (fun _ d => channelStep (u8 p 0) (u8 p 1) (u8 p 2) (u8 p 3) d) (fun _ _ => .done) := by
  refine ends_of_anvil (sp := specLampChannelSet) rfl rfl (exec_lampChannelSet · h p) ?_
  rintro c d ⟨hoff, hup, ha, hans⟩
  have hw := flueWrites_channel d (u8 p 2) (u8 p 3) (u8_lt p 1) hup ha hans
  have hstill : (channelStep (u8 p 0) (u8 p 1) (u8 p 2) (u8 p 3) d).segSt (u8 p 0) = .off := by
    rw [channelStep_frame]
    exact hoff
  simp only [channelWrite] at hw
  simp only [hoff, ne_eq, not_true_eq_false, false_and, if_false, hw, channelTurned_off _ _ _ hstill, Option.getD_none]

/-! LAMP_TABLE_SET (R290). -/

/-- The points of a channel's curve in a buffer. -/
def lampPoints (o : Obj) (off : Nat) : List Nat := (List.range 1024).map fun j => le 2 (o.read (off + 2 * j) 2) 0

theorem lampTableSet_invalid (h : Hdr) (p : Bytes) (o : Obj) :
    EndsOn (.lampTableSet h p)
      (fun _ hp _ => hp.buf (u16 p 4) = some o ∧ o.lost = false ∧ u8 p 1 = 0 ∧ curveOk 65535 (lampPoints o (u32 p 8)) = false)
      (fun _ hp d => (hp, d)) (fun _ _ _ => .bad St.badParam Rsl.tableInvalid) := by
  refine endsOn_of_anvilR (sp := specLampTableSet) rfl rfl (exec_lampTableSet · h p) ?_
  rintro c hp d ⟨hbuf, hlost, hkind, hbad⟩
  have hpoints : tableBytes 0 / 2 = 1024 := rfl
  simp only [lampPoints] at hbad
  simp only [hbuf, hlost, hkind, hpoints, hbad]
  rfl

/-- A curve that rises becomes the channel's. -/
theorem lampTableSet_curve (h : Hdr) (p : Bytes) (o : Obj) :
    EndsOn (.lampTableSet h p)
      (fun _ hp d => hp.buf (u16 p 4) = some o ∧ o.lost = false ∧ u8 p 1 = 0 ∧ curveOk 65535 (lampPoints o (u32 p 8)) = true ∧
        d.flueUp (8 + u8 p 0) = true ∧ d.canAnswer (8 + u8 p 0) = true ∧ h.answered = none)
      (fun _ hp d => (hp, d.setSeg (u8 p 0) { d.seg (u8 p 0) with
        curves := amPut (d.seg (u8 p 0)).curves (u8 p 2) (lampPoints o (u32 p 8)) }))
      (fun _ _ _ => .done) := by
  refine endsOn_of_anvilR (sp := specLampTableSet) rfl rfl (exec_lampTableSet · h p) ?_
  rintro c hp d ⟨hbuf, hlost, hkind, hok, hup, ha, hans⟩
  have hpoints : tableBytes 0 / 2 = 1024 := rfl
  have hone : List.range 1 = [0] := rfl
  simp only [lampPoints] at hok
  simp only [hbuf, hlost, hkind, hpoints, hok, hone, Bool.not_true, Bool.and_false, Bool.false_eq_true, if_false, if_true]
  rw [flueWrites_one d _ ?named hup ha hans]
  case named => rfl
  rfl

/-! LAMP_SETPOINT (R291). -/

/-- The first `n` writes of a LAMP_SETPOINT: channels and their brightnesses. -/
def hostWrites (p : Bytes) (n : Nat) : List (Nat × Nat) := (List.range n).map fun i => (u8 p (4 + 4 * i), u16 p (6 + 4 * i))

/-- One of them is made. -/
def hostStep (k : Nat) : Dev → Nat × Nat → Dev :=
  flueStep (fun w => (8 + k, some (R.LMP_HOST_B w.1))) fun d w => d.wr (8 + k) (R.LMP_HOST_B w.1) w.2

theorem hostSteps_frame (k : Nat) (l : List (Nat × Nat)) :
    let t := l.foldl (hostStep k) d
    t = { d with regs := t.regs, dmp := t.dmp, out := t.out } := by
  induction l generalizing d with
  | nil => rfl
  | cons e l ih =>
    rw [List.foldl_cons]
    refine (ih _).trans ?_
    rw [hostStep, flueStep_frame]
    rfl

/-- A channel holds the last brightness written to it. -/
theorem rd_hostSteps (k : Nat) (p : Bytes) {n i : Nat} (hi : i < n) (hlast : ∀ j < n, i < j → u8 p (4 + 4 * j) ≠ u8 p (4 + 4 * i)) :
    ((hostWrites p n).foldl (hostStep k) d).rd (8 + k) (R.LMP_HOST_B (u8 p (4 + 4 * i))) = u16 p (6 + 4 * i) := by
  induction n with
  | zero => exact absurd hi (Nat.not_lt_zero i)
  | succ n ih =>
    have hsplit : hostWrites p (n + 1) = hostWrites p n ++ [(u8 p (4 + 4 * n), u16 p (6 + 4 * n))] := by
      simp [hostWrites, List.range_succ]
    rw [hsplit, List.foldl_append, List.foldl_cons, List.foldl_nil, hostStep, rd_flueStep]
    obtain hlt | rfl : i < n ∨ i = n := by omega
    · have hne := hlast n (Nat.lt_succ_self n) hlt
      refine (rd_wr_addr _ _ (regAddr_off ?_)).trans (ih hlt fun j hj => hlast j (Nat.lt_succ_of_lt hj))
      show 0x2200700 + 0x4 * u8 p (4 + 4 * i) ≠ 0x2200700 + 0x4 * u8 p (4 + 4 * n)
      omega
    · exact (rd_wr_self _ _ _ _ (Nat.zero_le _) (by show 15 < 32; omega)).trans (Nat.mod_eq_of_lt (u16_lt p _))

theorem flueWrites_host {h : Hdr} {k : Nat} (p : Bytes) (n : Nat) (hup : d.flueUp (8 + k) = true) (ha : d.canAnswer (8 + k) = true)
    (hans : h.answered = none) :
    d.flueWrites h [8 + k] (hostWrites p n) (fun w => (8 + k, some (R.LMP_HOST_B w.1))) (fun d w => d.wr (8 + k) (R.LMP_HOST_B w.1) w.2) =
      ((hostWrites p n).length, (hostWrites p n).foldl (hostStep k) d, none) := by
  refine flueWrites_all _ (by simpa using hup) hans (fun _ _ _ => rfl) ?_ (fun _ _ => ha)
  intro w hw _
  obtain ⟨i, _, rfl⟩ := List.mem_map.1 hw
  have hlt := u8_lt p (4 + 4 * i)
  exact powerBlock_lamp (8 + k) (o := 0x2200700 + 4 * u8 p (4 + 4 * i)) (by omega) (by omega)

/-- What LAMP_SETPOINT does: its writes, and the command waits for the next snapshot. -/
def setpointsTaken (k : Nat) (p : Bytes) (n : Nat) (c : Cmd) (d : Dev) : Dev :=
  let e := (hostWrites p n).foldl (hostStep k) d
  e.setSeg k { e.seg k with fresh := (e.seg k).fresh ++ [c] }

theorem setpointsTaken_frame (k : Nat) (p : Bytes) (n : Nat) (c : Cmd) :
    let t := setpointsTaken k p n c d
    t = { d with regs := t.regs, lamp := t.lamp, dmp := t.dmp, out := t.out } := by
  simp only [setpointsTaken, Dev.setSeg]
  rw [hostSteps_frame]

theorem setpointsTaken_fresh {k : Nat} (p : Bytes) (n : Nat) (c : Cmd) (hk : k < d.lamp.segs.length) :
    ((setpointsTaken k p n c d).seg k).fresh = (d.seg k).fresh ++ [c] := by
  have hlamp : ((hostWrites p n).foldl (hostStep k) d).lamp = d.lamp := by rw [hostSteps_frame]
  simp only [setpointsTaken]
  rw [seg_setSeg_self _ _ (by rw [hlamp]; exact hk), seg_congr hlamp]

theorem lampSetpoint_done (h : Hdr) (p : Bytes) :
    Ends (.lampSetpoint h p) (fun _ d => d.flueUp (8 + u8 p 0) = true ∧ d.canAnswer (8 + u8 p 0) = true ∧ h.answered = none)
      (fun c d => setpointsTaken (u8 p 0) p (u8 p 1) c d) (fun _ _ => .accepted) := by
  refine ends_of_anvil (sp := specLampSetpoint) rfl rfl (exec_lampSetpoint · h p) ?_
  rintro c d ⟨hup, ha, hans⟩
  have hw := flueWrites_host d p (u8 p 1) hup ha hans
  simp only [hostWrites] at hw
  simp only [hw, setpointsTaken, hostWrites]

/-- The gate has checked the segment's number. -/
theorem lampSetpoint_checked {h : Hdr} {p : Bytes} {s : State} (hm : mayBegin (.lampSetpoint h p) s = true) : u8 p 0 ≤ 1 := by
  have hc := failIf_eq_none.1 (check_of_mayBegin (sp := specLampSetpoint) rfl rfl hm)
  simp [Instr.params] at hc
  omega

/-! LAMP_NODES (R293). -/

theorem lampNodes_checked {h : Hdr} {p : Bytes} {s : State} (hm : mayBegin (.lampNodes h p) s = true) : u8 p 0 ≤ 1 := by
  have hc := failIf_eq_none.1 (check_of_mayBegin (sp := specLampNodes) rfl rfl hm)
  simp [Instr.params] at hc
  omega

/-- A refresh of the list of a segment that is OFF begins an enumeration. -/
theorem lampNodes_refresh (h : Hdr) (p : Bytes) :
    Ends (.lampNodes h p)
      (fun _ d => u8 p 1 = 1 ∧ d.segSt (u8 p 0) = .off ∧ d.rd (8 + u8 p 0) R.LMP_STATE_ENUM_DONE = 1 ∧ d.flueUp (8 + u8 p 0) = true ∧
        d.canAnswer (8 + u8 p 0) = true ∧ h.answered = none)
      (fun c d => (d.wr (8 + u8 p 0) R.LMP_STATE_ENUM_DONE 0).setSeg (u8 p 0) { d.seg (u8 p 0) with enumCmd := some c })
      (fun _ _ => .accepted) := by
  refine ends_of_anvil (sp := specLampNodes) rfl rfl (exec_lampNodes · h p) ?_
  rintro c d ⟨hkind, hoff, hdone, hup, ha, hans⟩
  simp only [hkind, hoff, hdone, flueWrites_unnamed d _ hup ha hans, Nat.one_ne_zero, ne_eq, not_true_eq_false, if_false]
  rfl

/-! Segment's transitions (R288). -/

/-- The segment's start has made its enables: it is ON, and its commands complete. -/
def lampStarted (k : Nat) (r : List Cmd) (b : Bytes) (d : Dev) : Dev :=
  let e := (d.setFn (FnId.lamp k) { st := .on }).completeAll r St.done 0 b
  e.setSeg k { e.seg k with stage := 0 }

theorem lampStarted_regs (k : Nat) (r : List Cmd) (b : Bytes) : (lampStarted k r b d).regs = d.regs := by
  simp only [lampStarted, Dev.setSeg]
  rw [completeAll_frame]
  rfl

theorem lampStarted_segSt (k : Nat) (r : List Cmd) (b : Bytes) : (lampStarted k r b d).segSt k = .on := by
  have hfns : (lampStarted k r b d).fns = (d.setFn (FnId.lamp k) { st := .on }).fns := by
    simp only [lampStarted, Dev.setSeg]
    rw [completeAll_frame]
  have hfn : (lampStarted k r b d).fn (FnId.lamp k) = (d.setFn (FnId.lamp k) { st := .on }).fn (FnId.lamp k) := by
    simp only [Dev.fn, hfns]
  rw [Dev.segSt, hfn, fn_setFn_self]

theorem lampStarted_stage {k : Nat} (r : List Cmd) (b : Bytes) (hk : k < d.lamp.segs.length) : ((lampStarted k r b d).seg k).stage = 0 := by
  have hlamp : ((d.setFn (FnId.lamp k) { st := .on }).completeAll r St.done 0 b).lamp = d.lamp := by
    rw [completeAll_frame]
    rfl
  simp only [lampStarted]
  rw [seg_setSeg_self _ _ (by rw [hlamp]; exact hk)]

theorem lampTransitionDone_started {k : Nat} {r : List Cmd} {s : State} (hk : k ≤ 1)
    (hfn : s.dev.fn (FnId.lamp k) = { st := .starting, stored := none, running := r }) (hok : (s.dev.seg k).failed = none)
    (hstage : (s.dev.seg k).stage = 3) (hq : ∀ t ∈ (s.dev.seg k).queue, t.why ≠ .enable true) :
    exec (.lampTransitionDone k) s = .next (s.withDev (lampStarted k r (enc 6 (s.dev.seg k).latchAt) s.dev)) := by
  have hst : s.dev.segSt k = .starting := congrArg Fn.st hfn
  have hdone := fnDone_start s.dev (k := FnId.lamp k) (congrArg Fn.st hfn) (congrArg Fn.stored hfn) (enc 6 (s.dev.seg k).latchAt)
  have hany : (s.dev.seg k).queue.any (·.why == .enable true) = false := List.any_eq_false.2 fun t ht => by simpa using hq t ht
  rw [exec_lampTransitionDone, execLampTransitionDone, event_next]
  simp only [if_neg (Nat.not_lt.2 hk), hst, hok, hstage, hany, hdone, hfn, Bool.false_eq_true, not_false_eq_true, and_self, if_true]
  rfl

/-! Transactions (R275, R276). -/

theorem lampTransaction_picked {k : Nat} (st v : Nat) {t : Tx} {w : Bool} {s : State} (hk : k ≤ 1) (hp : s.dev.lampPick k = some (t, w)) :
    exec (.lampTransaction k st v) s = .next (s.withDev ((s.dev.lampCycle k t w).lampReply k t (st % 256) (v % 65536))) := by
  rw [exec_lampTransaction, execLampTransaction, event_next, if_neg (Nat.not_lt.2 hk)]
  simp only [hp]

theorem lampReplyTimeout_picked {k : Nat} (crc : Bool) {t : Tx} {w : Bool} {s : State} (hk : k ≤ 1) (hp : s.dev.lampPick k = some (t, w)) :
    let e := (s.dev.lampCycle k t w).bump (8 + k) (if crc then R.LMP_CRC else R.LMP_NOREPLY)
    exec (.lampReplyTimeout k crc) s =
      .next (s.withDev (if t.tries + 1 < 3 then e.lampQueue k [{ t with tries := t.tries + 1 }] else e.loseNode k t)) := by
  rw [exec_lampReplyTimeout, execLampReplyTimeout, event_next, if_neg (Nat.not_lt.2 hk)]
  simp only [hp]

theorem lampReply_access {k : Nat} {t : Tx} {c : Cmd} (st v : Nat) (h : t.why = .access c) : d.lampReply k t st v =
    (d.bump (8 + k) R.LMP_TX).finalReply c (if st = 0 then St.done else St.fault) (if st = 0 then 0 else Rsl.nodeRefused)
      (enc 2 (if t.write then t.value else v) ++ enc 1 st) := by
  simp only [Dev.lampReply, h]
  split <;> rfl

theorem lampReply_temp {k n : Nat} {t : Tx} (v : Nat) (h : t.why = .temp n) :
    d.lampReply k t 0 v = (d.bump (8 + k) R.LMP_TX).wr (8 + k) (R.LMP_CH_TEMP n) v := by
  simp only [Dev.lampReply, h, if_true]

@[simp] theorem lampCycle_out (k : Nat) (t : Tx) (w : Bool) : (d.lampCycle k t w).out = .lamp k t.frame :: d.out := rfl

@[simp] theorem lampCycle_segs_length (k : Nat) (t : Tx) (w : Bool) : (d.lampCycle k t w).lamp.segs.length = d.lamp.segs.length := List.length_set

/-! Polls of a LOST node (R276). -/

/-- A LOST node that answers is reconfigured, to be latched. -/
def lostNodeBack (k a v : Nat) (d : Dev) : Dev :=
  let e := d.statusPolled k a v
  e.setSeg k { e.seg k with
    queue := (e.seg k).queue ++ e.configWrites k a false, back := (e.seg k).back ++ [a], writing := true }

theorem lostNodeBack_seg {k : Nat} (a v : Nat) (hk : k < d.lamp.segs.length) :
    ((lostNodeBack k a v d).seg k).back = (d.seg k).back ++ [a] ∧ ((lostNodeBack k a v d).seg k).writing = true := by
  obtain ⟨ns, hlamp⟩ := statusPolled_lamp d k a v
  have hlen : (d.statusPolled k a v).lamp.segs.length = d.lamp.segs.length := by rw [hlamp, segs_length_setSeg]
  simp only [lostNodeBack]
  rw [seg_setSeg_self _ _ (by rw [hlen]; exact hk), seg_congr hlamp, seg_setSeg_self _ _ hk]
  exact ⟨rfl, rfl⟩

/-- What the answer of a LOST node that is polled does, or that none comes. -/
def Dev.lostNodeReply (d : Dev) (k a : Nat) (r : BusReply) : Dev :=
  match r with
  | .silent => d.bump (8 + k) R.LMP_NOREPLY
  | .badCrc => d.bump (8 + k) R.LMP_CRC
  | .reply st v => if st ≠ 0 then d.bump (8 + k) R.LMP_TX else lostNodeBack k a v (d.bump (8 + k) R.LMP_TX)

theorem lostNodeReply_answers (k a v : Nat) :
    d.lostNodeReply k a (.reply 0 v) = lostNodeBack k a v (d.bump (8 + k) R.LMP_TX) := rfl

/-- A LOST node that has not come back is polled. -/
theorem lostNodePoll_polls {k a : Nat} {r : BusReply} {s : State} {d : Dev} (hk : k ≤ 1) (hl : s.dev.nodeLost k a = true)
    (hb : (s.dev.seg k).back.contains a = false)
    (hd : (s.dev.send (.lamp k (lampFrame 2 a (enc 1 0x04)))).lostNodeReply k a r = d) :
    exec (.lostNodePoll k a r) s = .next (s.withDev d) := by
  have hpoll : ¬ (k > 1 ∨ ¬ s.dev.nodeLost k a = true ∨ (s.dev.seg k).back.contains a = true) := by
    rw [hl, hb]
    simpa using hk
  rw [exec_lostNodePoll, execLostNodePoll, event_next]
  dsimp only
  rw [if_neg hpoll, ← hd]
  rfl

/-! Enumeration (R277). -/

/-- What an enumeration that found `n` nodes and `extra` beyond them writes. -/
def enumWritten (k n extra : Nat) (d : Dev) : Dev :=
  (((d.wr (8 + k) R.LMP_PRESENT (2 ^ n - 1)).wr (8 + k) R.LMP_LOST 0).wr (8 + k) R.LMP_EXTRA_NODES extra).wr (8 + k) R.LMP_STATE_ENUM_DONE 1

theorem rd_enumWritten (k n extra : Nat) :
    let t := enumWritten k n extra d
    t.rd (8 + k) R.LMP_STATE_ENUM_DONE = 1 ∧ t.rd (8 + k) R.LMP_LOST = 0 ∧ t.rd (8 + k) R.LMP_PRESENT = (2 ^ n - 1) % 2 ^ 32 := by
  have other (e : Dev) {f g : Fld} (v : Nat) (h : g.off ≠ f.off) : (e.wr (8 + k) f v).rd (8 + k) g = e.rd (8 + k) g :=
    rd_wr_addr e v (regAddr_off h)
  simp only [enumWritten]
  refine ⟨rd_wr_self _ _ _ _ (by decide) (by decide), ?_, ?_⟩
  · rw [other (g := R.LMP_LOST) _ _ (by decide), other (g := R.LMP_LOST) _ _ (by decide), rd_wr_self _ _ _ _ (by decide) (by decide), Nat.zero_mod]
  · rw [other (g := R.LMP_PRESENT) _ _ (by decide), other (g := R.LMP_PRESENT) _ _ (by decide), other (g := R.LMP_PRESENT) _ _ (by decide),
      rd_wr_self _ _ _ _ (by decide) (by decide)]
    rfl

/-- The segment's part when an enumeration has found its nodes: nothing waits, and no command runs. -/
def enumSegment (x : Segment) (ns : List Node) : Segment := { x with nodes := ns, queue := [], back := [], changed := [], enumCmd := none }

/-- An enumeration before it writes what it found: transactions that waited end as if the node had not replied (log entry 182), and the frames of
the search leave. -/
def enumSent (k : Nat) (frames : List Bytes) (d : Dev) : Dev :=
  frames.foldl (fun d b => d.send (.lamp k b)) ((d.seg k).queue.foldl (fun d t => d.txLost k t) d)

theorem enumSent_segs_length (k : Nat) (frames : List Bytes) : (enumSent k frames d).lamp.segs.length = d.lamp.segs.length := by
  rw [enumSent, foldl_keeps Dev.lamp (f := fun (e : Dev) b => e.send (.lamp k b)) (fun _ _ => rfl)]
  exact foldl_keeps (fun e : Dev => e.lamp.segs.length) (fun e t => txLost_segs_length e k t) _ _

/-- The command that an enumeration runs for, where there is one, completes with the list of nodes. -/
def enumEnded (k : Nat) (o : Option Cmd) (d : Dev) : Dev :=
  match o with
  | some c => d.complete c St.done 0 (d.nodeList k)
  | none => d

theorem enumEnded_regs_lamp (k : Nat) (o : Option Cmd) : (enumEnded k o d).regs = d.regs ∧ (enumEnded k o d).lamp = d.lamp := by
  cases o with
  | none => exact ⟨rfl, rfl⟩
  | some c =>
    simp only [enumEnded]
    rw [complete_frame]
    exact ⟨rfl, rfl⟩

theorem lampEnumerate_off {k : Nat} (found : List (Nat × Nat × Nat)) {s : State} (hk : k ≤ 1) (hoff : s.dev.segSt k = .off)
    (hnot : s.dev.rd (8 + k) R.LMP_STATE_ENUM_DONE = 0) :
    ∃ (frames : List Bytes) (ns : List Node) (n extra : Nat), exec (.lampEnumerate k found) s = .next (s.withDev
      (enumEnded k (s.dev.seg k).enumCmd
        (enumWritten k n extra ((enumSent k frames s.dev).setSeg k (enumSegment (s.dev.seg k) ns))))) ∧ ns.length = n := by
  have hgo : ¬ (k > 1 ∨ s.dev.segSt k ≠ .off ∨ (s.dev.rd (8 + k) R.LMP_STATE_ENUM_DONE = 1 ∧ (s.dev.seg k).enumCmd.isNone)) := by
    simp [hoff, hnot, hk]
  rw [exec_lampEnumerate, execLampEnumerate, event_next]
  dsimp only
  rw [if_neg hgo]
  exact ⟨lampFrame 5 0 [] :: (lampSearch 48 0 { ids := found.map fun n => n.1 % 2 ^ 48 }).frames, _, _, _, rfl, List.length_mapIdx⟩

/-- What an enumeration leaves of the segment and its registers. -/
theorem lampEnumerate_leaves {k : Nat} (frames : List Bytes) {ns : List Node} {n : Nat} (extra : Nat) (o : Option Cmd)
    (hk : k < d.lamp.segs.length) (hn : ns.length = n) :
    let t := enumEnded k o (enumWritten k n extra ((enumSent k frames d).setSeg k (enumSegment (d.seg k) ns)))
    t.rd (8 + k) R.LMP_STATE_ENUM_DONE = 1 ∧ t.rd (8 + k) R.LMP_LOST = 0 ∧
      t.rd (8 + k) R.LMP_PRESENT = (2 ^ (t.seg k).nodes.length - 1) % 2 ^ 32 ∧ (t.seg k).queue = [] ∧ (t.seg k).enumCmd = none := by
  intro t
  obtain ⟨hregs, hlamp⟩ := enumEnded_regs_lamp (enumWritten k n extra ((enumSent k frames d).setSeg k (enumSegment (d.seg k) ns))) k o
  have hseg : t.seg k = enumSegment (d.seg k) ns :=
    (seg_congr hlamp k).trans (seg_setSeg_self (enumSent k frames d) _ (by rw [enumSent_segs_length]; exact hk))
  obtain ⟨hdone, hlost, hpresent⟩ := rd_enumWritten ((enumSent k frames d).setSeg k (enumSegment (d.seg k) ns)) k n extra
  rw [hseg]
  refine ⟨(rd_congr hregs _ _).trans hdone, (rd_congr hregs _ _).trans hlost, (rd_congr hregs _ _).trans (hpresent.trans ?_), rfl, rfl⟩
  rw [← hn]
  rfl

end Sys2Proof.Machine

namespace Sys2Proof.Proofs

open Sys2Proof.Machine

/-- Settles O47: each command's checks are decided in their order and its writes made (`flueWrites_all`), and each transaction is the one picked. -/
theorem lampCommandsAndBus : Obligations.LampCommandsAndBus := by
  unfold Obligations.LampCommandsAndBus
  refine ⟨?notEnumerated, ?start, ?started, ?channel, ?table, ?setpoint, ?clear, ?clearAbsent, ?nodes, ?refresh, ?access, ?accessAbsent,
    ?accessReply, ?temp, ?retry, ?lost, ?stillLost, ?back, ?enumerate, ?writesDone⟩
  case notEnumerated =>
    intro h p
    refine ends_of_anvil (sp := specLampEnable) rfl rfl (exec_lampEnable · h p) ?_
    rintro c d ⟨hon, hoff, hnot⟩
    simp only [hon, hoff, lampLacks_unenumerated d hnot, decide_true, beq_self_eq_true, Bool.and_self, if_true]
  case start =>
    intro h p
    refine ends_of_anvil (sp := specLampEnable) rfl rfl (exec_lampEnable · h p) ?_
    rintro c d ⟨hon, hdone, hnodes, hup, ha, hans, hoff⟩
    have hstart := request_start d true c hoff
    have hreq := requestFlue_done d (dies := [8 + u8 p 0]) (congrArg (·.2.2) hstart) (by simp [hup, ha]) hans
    simp only [hon, hoff, lampLacks_none d hdone hnodes, hreq, hstart, decide_true, beq_self_eq_true, Bool.and_self, if_true]
  case started =>
    intro k r s hk hlen hfn hok hstage hq
    exact ⟨_, lampTransitionDone_started hk hfn hok hstage hq, lampStarted_segSt _ _ _ _, lampStarted_stage _ _ _ (by omega),
      lampStarted_regs _ _ _ _⟩
  case channel =>
    intro h p s hm d c hoff hup ha hans
    refine ⟨_, lampChannelSet_off h p s hm ⟨hoff, hup, ha, hans⟩, channelStep_frame _ _ _ _ _, ?_⟩
    simp only [rd_channelStep]
    exact rd_channelWrite _ _ _ _ (u8_lt p 3)
  case table =>
    intro h p o s hm d c hbuf hlost hkind
    exact ⟨fun hbad => lampTableSet_invalid h p o s hm ⟨hbuf, hlost, hkind, hbad⟩,
      fun hok hup ha hans => lampTableSet_curve h p o s hm ⟨hbuf, hlost, hkind, hok, hup, ha, hans⟩⟩
  case setpoint =>
    intro h p s hm d c hup ha hans hlen
    have hseg := lampSetpoint_checked hm
    exact ⟨_, lampSetpoint_done h p s hm ⟨hup, ha, hans⟩, setpointsTaken_frame _ _ _ _ _,
      setpointsTaken_fresh _ _ _ _ (lt_of_lt_of_eq (Nat.lt_succ_of_le hseg) hlen.symm), fun i hi hlast => rd_hostSteps _ _ _ hi hlast⟩
  case clear =>
    intro h p
    refine ends_of_anvil (sp := specLampClear) rfl rfl (exec_lampClear · h p) ?_
    rintro c d ⟨hnode, hup, ha, hans, hoff⟩
    simp only [hnode, flueWrites_unnamed d _ hup ha hans, hoff, if_true, Nat.zero_or]
  case clearAbsent =>
    intro h p
    refine ends_of_anvil (sp := specLampClear) rfl rfl (exec_lampClear · h p) ?_
    rintro c d ⟨hdone, habsent⟩
    simp only [nodeBad_present d hdone habsent]
  case nodes =>
    intro h p
    refine ends_of_anvil (sp := specLampNodes) rfl rfl (exec_lampNodes · h p) ?_
    rintro c d ⟨hlist, hdone, hup, hans⟩
    simp only [hlist, hdone, if_true, flueRead_reached d (dies := [8 + u8 p 0]) _ (by simpa using hup) hans]
  case refresh =>
    intro h p s hm d c hkind hoff hdone hup ha hans hlen
    refine ⟨_, lampNodes_refresh h p s hm ⟨hkind, hoff, hdone, hup, ha, hans⟩, rfl, ?_, ?_⟩
    · exact rd_wr_self _ _ _ _ (by decide) (by decide)
    · exact congrArg Segment.enumCmd (seg_setSeg_self _ _ (lt_of_lt_of_eq (Nat.lt_succ_of_le (lampNodes_checked hm)) hlen.symm))
  case access =>
    intro h p
    refine ends_of_anvil (sp := specLampNodeAccess) rfl rfl (exec_lampNodeAccess · h p) ?_
    rintro c d ⟨hnode, hup, ha, hans⟩
    simp only [hnode, flueWrites_unnamed d _ hup ha hans]
  case accessAbsent =>
    intro h p
    refine ends_of_anvil (sp := specLampNodeAccess) rfl rfl (exec_lampNodeAccess · h p) ?_
    rintro c d ⟨hdone, habsent⟩
    simp only [nodeBad_present d hdone habsent]
  case accessReply =>
    intro k st v t w c s hk hpick hwhy
    rw [lampTransaction_picked st v hk hpick, lampReply_access _ _ _ hwhy]
  case temp =>
    intro k st v t w n s hk hpick hwhy hst
    rw [lampTransaction_picked st v hk hpick, hst, lampReply_temp _ _ hwhy]
    refine ⟨_, rfl, ?_, by rw [wr_out, bump_out, lampCycle_out]⟩
    rw [rd_wr_self _ _ _ _ (Nat.zero_le _) (by show 15 < 32; omega)]
    exact Nat.mod_mod _ _
  case retry =>
    intro k crc t w s hk hpick htries
    rw [lampReplyTimeout_picked crc hk hpick, if_pos htries]
  case lost =>
    intro k crc t w s hk hlen hpick htries haddr
    rw [lampReplyTimeout_picked crc hk hpick, if_neg (by omega)]
    refine ⟨_, rfl, ?_, ?_, fun u hu => loseNode_queue _ ?_ hu⟩
    · rw [Dev.nodeLost, rd_loseNode _ _ _ (by decide)]
      exact nodeLost_markNode _ _ _ _ haddr
    · rw [Dev.nodePresent, rd_loseNode _ _ _ (by decide)]
      exact nodePresent_markNode _ _ _ _ haddr
    · rw [bump_lamp, lampCycle_segs_length]
      omega
  case stillLost =>
    intro k a s hk hl hb
    exact ⟨lostNodePoll_polls hk hl hb rfl, lostNodePoll_polls hk hl hb rfl⟩
  case back =>
    intro k a v s hk hlen hl hb
    refine ⟨_, lostNodePoll_polls hk hl hb (lostNodeReply_answers _ _ _ _), lostNodeBack_seg _ _ _ ?_⟩
    rw [bump_lamp, send_lamp]
    omega
  case enumerate =>
    intro k found s hk hlen hoff hnot
    obtain ⟨frames, ns, n, extra, hexec, hn⟩ := lampEnumerate_off found hk hoff hnot
    exact ⟨_, hexec, lampEnumerate_leaves _ _ _ _ (by omega) hn⟩
  case writesDone =>
    refine occurs_of_event exec_lampWritesDone ?_
    rintro d ⟨hidle, x, hx, hwriting⟩
    refine if_pos (Bool.and_eq_true_iff.2 ⟨List.all_eq_true.2 hidle, List.any_eq_true.2 ⟨x, hx, ?_⟩⟩)
    rw [hwriting]
    rfl

end Sys2Proof.Proofs
end

section
/-! The loops of Bellows at their ticks (O43). -/

namespace Sys2Proof.Machine

/-! Loops, and the registers a tick leaves. -/

section
variable (d : Dev)

theorem loopDie_of_local (f : Nat) {l : Nat} (hl : l < 24) : loopDie (24 * f + l) = 8 + f := by
  simp only [loopDie]; omega

theorem loopLocal_of_local (f : Nat) {l : Nat} (hl : l < 24) : loopLocal (24 * f + l) = l := by
  simp only [loopLocal]; omega

theorem loop_setLoop_self {L : Nat} (x : Loop) (h : L < d.blw.loops.length) : (d.setLoop L x).loop L = x := by
  simp [Dev.loop, Dev.setLoop, List.getD, h]

theorem loop_setLoop_other {K L : Nat} (x : Loop) (h : K ≠ L) : (d.setLoop L x).loop K = d.loop K := by
  simp [Dev.loop, Dev.setLoop, List.getD, Ne.symm h]

@[simp] theorem setLoop_length (L : Nat) (x : Loop) : (d.setLoop L x).blw.loops.length = d.blw.loops.length := List.length_set

@[simp] theorem rd_setLoop (L : Nat) (x : Loop) (k : Nat) (g : Fld) : (d.setLoop L x).rd k g = d.rd k g := rfl

@[simp] theorem fn_setLoop (L : Nat) (x : Loop) (k : Nat) : (d.setLoop L x).fn k = d.fn k := rfl

end

/-- R302: a computation ends in its two clamps. -/
theorem loopCompute_clamped (x : Loop) (m sp iLo iHi oLo oHi : Int) (k : List Int) (pre : Bool) :
    ∃ v w, (loopCompute x m sp iLo iHi oLo oHi k pre).out = clampI oLo oHi v ∧
      (loopCompute x m sp iLo iHi oLo oHi k pre).ic = clampI (iLo * 32768) (iHi * 32768) w :=
  ⟨_, _, rfl, rfl⟩

theorem clampI_bounds {lo hi : Int} (v : Int) (h : lo ≤ hi) : lo ≤ clampI lo hi v ∧ clampI lo hi v ≤ hi := by
  unfold clampI
  split
  · exact ⟨le_refl _, h⟩
  · split <;> omega

/-! A loop that is ON at its tick (R301, R302, R304). -/

section
variable (d : Dev)

/-- R301: the measurement of a window that holds samples. -/
def Loop.measured (x : Loop) : Nat := (roundDiv x.sum (256 * x.count)).toNat / 2

/-- R302: what loop `l` of die `f` computes from its window and its registers. -/
def Dev.loopResult (d : Dev) (f l : Nat) : LoopOut :=
  let rd (r : Fld) : Int := signed 16 (d.rd (8 + f) r)
  let x := d.loop (24 * f + l)
  loopCompute { x with sum := 0, count := 0 } (x.measured : Int) (rd (R.BLW_L_SETPOINT l)) (rd (R.BLW_L_ILIM_I_LO l)) (rd (R.BLW_L_ILIM_I_HI l))
    (rd (R.BLW_L_OLIM_OUT_LO l)) (rd (R.BLW_L_OLIM_OUT_HI l)) ((coeffs l (d.bankOf (24 * f + l))).map rd) (bit (d.rd (8 + f) (R.BLW_L_CFG_FILTER l)) 7)

/-- A loop's window is closed, and its next one begins. -/
def Dev.nextWindow (d : Dev) (L : Nat) : Dev := d.setLoop L { d.loop L with sum := 0, count := 0 }

/-- A loop with an empty window begins its next one, and the tick is counted as skipped. -/
def Dev.loopSkips (d : Dev) (f l : Nat) : Dev := (d.nextWindow (24 * f + l)).bump (8 + f) R.BLW_SKIP

/-- A loop with samples begins its next window, and shows what it measured and computed. -/
def Dev.loopShows (d : Dev) (f l : Nat) : Dev :=
  let o := d.loopResult f l
  ((((d.nextWindow (24 * f + l)).setLoop (24 * f + l) o.loop).bump (8 + f) R.BLW_SAT o.sats).wr (8 + f) (R.BLW_L_MEAS l)
    (d.loop (24 * f + l)).measured).wr (8 + f) (R.BLW_L_OUT l) (twos 16 o.out)

/-- INTEG shows a loop's integrator. -/
def Dev.showInteg (d : Dev) (f l : Nat) : Dev := d.wr (8 + f) (R.BLW_L_INTEG l) (twos 40 (d.loop (24 * f + l)).integ / 256)

variable {d} {f l : Nat}

theorem loopTick_skips (hl : l < 24) (hswaps : d.blw.swaps = []) (hon : (d.fn (loopFn (24 * f + l))).st = .on)
    (hempty : (d.loop (24 * f + l)).count = 0) : d.loopTick (24 * f + l) = (d.loopSkips f l, none) := by
  simp only [Dev.loopTick, hswaps, List.filter_nil, List.foldl_nil, fn_setLoop, hon, hempty, if_true, reduceCtorEq, if_false, loopDie_of_local f hl]
  rfl

theorem loopTick_shows (hl : l < 24) (hlen : 24 * f + l < d.blw.loops.length) (hswaps : d.blw.swaps = [])
    (hon : (d.fn (loopFn (24 * f + l))).st = .on) (hsome : 0 < (d.loop (24 * f + l)).count) :
    d.loopTick (24 * f + l) = (d.loopShows f l, some (d.loopResult f l).ic) := by
  simp only [Dev.loopTick, hswaps, List.filter_nil, List.foldl_nil, fn_setLoop, hon, Nat.ne_of_gt hsome, if_false, loopDie_of_local f hl,
    loopLocal_of_local f hl, reduceCtorEq, loop_setLoop_self _ _ hlen, rd_setLoop]
  rfl

/-- R304: a loop in no group keeps what it computed. -/
theorem loopTake_ungrouped (hl : l < 24) (hgrp : d.rd (8 + f) (R.BLW_L_CFG_GROUPED l) = 0) (v : Int) :
    d.loopTake (24 * f + l) (some v) = (d.setLoop (24 * f + l) { d.loop (24 * f + l) with integ := v }).showInteg f l := by
  simp only [Dev.loopTake, loopDie_of_local f hl, loopLocal_of_local f hl, hgrp, decide_true, Bool.true_or, if_true, Dev.showInteg]

theorem loopTake_none (hl : l < 24) : d.loopTake (24 * f + l) none = d.showInteg f l := by
  simp only [Dev.loopTake, loopDie_of_local f hl, loopLocal_of_local f hl, Dev.showInteg]

theorem rd_showInteg {g : Fld} (h : g.off ≠ 0x230021C + 0x40 * l) : (d.showInteg f l).rd (8 + f) g = d.rd (8 + f) g :=
  rd_wr_addr d _ (regAddr_off h)

@[simp] theorem loop_showInteg (k : Nat) : (d.showInteg f l).loop k = d.loop k := rfl

theorem rd_loopSkips {g : Fld} (h : g.off ≠ 0x2300800) : (d.loopSkips f l).rd (8 + f) g = d.rd (8 + f) g :=
  rd_bump_addr (d.nextWindow (24 * f + l)) 1 (regAddr_off h)

/-- A loop's configuration lies below what its tick shows. -/
theorem rd_loopShows_cfg {g : Fld} (h : g.off = 0x2300200 + 0x40 * l) (hl : l < 24) : (d.loopShows f l).rd (8 + f) g = d.rd (8 + f) g := by
  have hout : g.off ≠ 0x2300218 + 0x40 * l := by omega
  have hmeas : g.off ≠ 0x2300214 + 0x40 * l := by omega
  have hsat : g.off ≠ 0x2300804 := by omega
  exact (rd_wr_addr _ _ (regAddr_off hout)).trans ((rd_wr_addr _ _ (regAddr_off hmeas)).trans (rd_bump_addr _ _ (regAddr_off hsat)))

theorem twos_lt (n : Nat) (v : Int) : twos n v < 2 ^ n := by
  have hpos : (0 : Int) < (2 ^ n : Nat) := by exact_mod_cast Nat.two_pow_pos n
  have hlt := Int.emod_lt_of_pos v hpos
  have hnn := Int.emod_nonneg v (ne_of_gt hpos)
  simp only [twos]
  omega

theorem rd_loopShows_out : (d.loopShows f l).rd (8 + f) (R.BLW_L_OUT l) = twos 16 (d.loopResult f l).out :=
  (rd_wr_self _ _ _ _ (Nat.zero_le _) (by show 15 < 32; omega)).trans (Nat.mod_eq_of_lt (twos_lt 16 _))

theorem loop_loopShows_self (hlen : 24 * f + l < d.blw.loops.length) : (d.loopShows f l).loop (24 * f + l) = (d.loopResult f l).loop :=
  loop_setLoop_self _ _ (by simpa [Dev.nextWindow] using hlen)

theorem loop_loopShows_other {k : Nat} (h : k ≠ 24 * f + l) : (d.loopShows f l).loop k = d.loop k :=
  (loop_setLoop_other (d.nextWindow (24 * f + l)) _ h).trans (loop_setLoop_other d _ h)

end

/-! A tick (R300). -/

section
variable (d : Dev) (f : Nat) (fr : Bool)

/-- What a tick does with the loops that are due: each computes, those that ran take their integrators, then their groups decide. -/
def dueTick (f : Nat) (due : List Nat) (d : Dev) : Dev :=
  let ran := due.filter fun l => (d.fn (loopFn (24 * f + l))).st ≠ .off
  let groups := (List.range 8).filter fun g => due.any fun l =>
    d.rd (8 + f) (R.BLW_L_CFG_GROUPED l) = 1 && d.rd (8 + f) (R.BLW_L_CFG_GROUP l) = g
  let e := due.foldl (fun (e : Dev × List (Nat × Option Int)) l =>
    ((Dev.loopTick e.1 (24 * f + l)).1, e.2 ++ [(l, (Dev.loopTick e.1 (24 * f + l)).2)])) (d, [])
  groups.foldl (fun d g => d.groupResult f g) ((e.2.filter fun e => ran.contains e.1).foldl (fun d e => d.loopTake (24 * f + e.1) e.2) e.1)

/-- The number of a tick: a FRAME tick does not advance it. -/
def Dev.tickNo : Nat := d.rd (8 + f) R.BLW_TICK + b2n (!fr)

/-- The tick is counted. -/
def Dev.ticked : Dev := d.wr (8 + f) R.BLW_TICK (d.tickNo f fr)

theorem rd_ticked {g : Fld} (h : g.off ≠ 0x2300010) : (d.ticked f fr).rd (8 + f) g = d.rd (8 + f) g :=
  rd_wr_addr d _ (regAddr_off h)

theorem loopDue_ticked (l tick : Nat) : (d.ticked f fr).loopDue f l fr tick = d.loopDue f l fr tick := by
  simp only [Dev.loopDue, rd_ticked d f fr (g := R.BLW_L_CFG_RATE l) (by show 0x2300200 + 0x40 * l ≠ 0x2300010; omega)]

/-- A loop's coefficients lie in its own registers. -/
theorem coeffs_off {l bank : Nat} {g : Fld} (h : g ∈ coeffs l bank) : 0x2300200 ≤ g.off := by
  unfold coeffs at h
  split at h
  all_goals
    simp only [List.mem_cons, List.not_mem_nil, or_false] at h
    obtain rfl | rfl | rfl | rfl | rfl | rfl | rfl | rfl := h <;> (simp only; omega)

/-- A computation reads no register that counting the tick changes. -/
theorem loopResult_ticked {l : Nat} (hl : l < 24) : (d.ticked f fr).loopResult f l = d.loopResult f l := by
  have hrd {g : Fld} (h : 0x2300200 ≤ g.off) : (d.ticked f fr).rd (8 + f) g = d.rd (8 + f) g := rd_ticked d f fr (by omega)
  have hloop : (d.ticked f fr).loop (24 * f + l) = d.loop (24 * f + l) := rfl
  have hbank : (d.ticked f fr).bankOf (24 * f + l) = d.bankOf (24 * f + l) := by
    simp only [Dev.bankOf, loopDie_of_local f hl, rd_ticked d f fr (g := R.BLW_BANK) (by decide)]
  have hcoeffs (b : Nat) : (coeffs l b).map (fun r => signed 16 ((d.ticked f fr).rd (8 + f) r)) =
      (coeffs l b).map fun r => signed 16 (d.rd (8 + f) r) :=
    List.map_congr_left fun g hg => congrArg (signed 16) (hrd (coeffs_off hg))
  simp (disch := (simp only; omega)) only [Dev.loopResult, hloop, hbank, hcoeffs, hrd]

/-- The loops due at a tick where one alone is. -/
theorem filter_range_alone {p : Nat → Bool} {l : Nat} (hl : l < 24) (h : ∀ k < 24, p k = decide (k = l)) : (List.range 24).filter p = [l] := by
  have hone : ∀ l < 24, (List.range 24).filter (fun k => decide (k = l)) = [l] := by decide
  rw [← hone l hl]
  exact List.filter_congr fun k hk => h k (List.mem_range.1 hk)

variable {d f fr} {l : Nat} {s : State}

/-- What a tick with no new sample does, given the loops that are due. -/
theorem bellowsTick_due {due : List Nat} (hf : f ≤ 1)
    (hdue : (List.range 24).filter (fun k => s.dev.loopDue f k fr (s.dev.tickNo f fr)) = due) :
    exec (.bellowsTick f fr []) s = .next (s.withDev (dueTick f due (s.dev.ticked f fr))) := by
  have hdue' : (List.range 24).filter (fun k => (s.dev.ticked f fr).loopDue f k fr (s.dev.tickNo f fr)) = due :=
    (List.filter_congr fun k _ => loopDue_ticked s.dev f fr k _).trans hdue
  subst hdue'
  simp only [exec_bellowsTick, execBellowsTick, event_next, Nat.not_lt.2 hf, if_false]
  rfl

theorem dueTick_nil : dueTick f [] d = d := by simp [dueTick]

theorem dueTick_alone (hgrp : d.rd (8 + f) (R.BLW_L_CFG_GROUPED l) = 0) (hon : (d.fn (loopFn (24 * f + l))).st = .on) :
    dueTick f [l] d = (d.loopTick (24 * f + l)).1.loopTake (24 * f + l) (d.loopTick (24 * f + l)).2 := by
  simp [dueTick, hgrp, hon]

end

/-! A loop that alone is due, is ON, and is in no group. -/

section
variable {f l : Nat} {fr : Bool} {s : State}

/-- The device after the tick of a loop that computed. -/
def Dev.loopRan (d : Dev) (f l : Nat) (v : Int) : Dev :=
  let e := d.loopShows f l
  (e.setLoop (24 * f + l) { e.loop (24 * f + l) with integ := v }).showInteg f l

variable (hf : f ≤ 1) (hl : l < 24) (hswaps : s.dev.blw.swaps = []) (hon : (s.dev.fn (loopFn (24 * f + l))).st = .on)
  (hgrp : s.dev.rd (8 + f) (R.BLW_L_CFG_GROUPED l) = 0) (hdue : ∀ k < 24, s.dev.loopDue f k fr (s.dev.tickNo f fr) = decide (k = l))

include hgrp in
theorem rd_ticked_grouped : (s.dev.ticked f fr).rd (8 + f) (R.BLW_L_CFG_GROUPED l) = 0 :=
  (rd_ticked s.dev f fr (by show 0x2300200 + 0x40 * l ≠ 0x2300010; omega)).trans hgrp

include hf hl hswaps hon hgrp hdue

theorem bellowsTick_computes (hlen : 24 * f + l < s.dev.blw.loops.length) (hsome : 0 < (s.dev.loop (24 * f + l)).count) :
    exec (.bellowsTick f fr []) s = .next (s.withDev ((s.dev.ticked f fr).loopRan f l (s.dev.loopResult f l).ic)) := by
  have hgrp' := rd_ticked_grouped (fr := fr) hgrp
  rw [bellowsTick_due hf (filter_range_alone hl hdue), dueTick_alone hgrp' hon, loopTick_shows (d := s.dev.ticked f fr) hl hlen hswaps hon hsome,
    loopResult_ticked _ _ _ hl, loopTake_ungrouped hl ((rd_loopShows_cfg rfl hl).trans hgrp')]
  rfl

theorem bellowsTick_skips (hempty : (s.dev.loop (24 * f + l)).count = 0) :
    exec (.bellowsTick f fr []) s = .next (s.withDev (((s.dev.ticked f fr).loopSkips f l).showInteg f l)) := by
  rw [bellowsTick_due hf (filter_range_alone hl hdue), dueTick_alone (rd_ticked_grouped hgrp) hon,
    loopTick_skips (d := s.dev.ticked f fr) hl hswaps hon hempty, loopTake_none hl]

end

section
variable (d : Dev) {f l : Nat} (v : Int)

theorem rd_loopRan_out : (d.loopRan f l v).rd (8 + f) (R.BLW_L_OUT l) = twos 16 (d.loopResult f l).out :=
  (rd_showInteg (by show 0x2300218 + 0x40 * l ≠ 0x230021C + 0x40 * l; omega)).trans rd_loopShows_out

theorem loop_loopRan_self (hlen : 24 * f + l < d.blw.loops.length) :
    (d.loopRan f l v).loop (24 * f + l) = { (d.loopResult f l).loop with integ := v } := by
  have hlen' : 24 * f + l < (d.loopShows f l).blw.loops.length := by simpa [Dev.loopShows, Dev.nextWindow] using hlen
  rw [Dev.loopRan, loop_showInteg, loop_setLoop_self _ _ hlen', loop_loopShows_self hlen]

theorem loop_loopRan_other {k : Nat} (h : k ≠ 24 * f + l) : (d.loopRan f l v).loop k = d.loop k := by
  rw [Dev.loopRan, loop_showInteg, loop_setLoop_other _ _ h, loop_loopShows_other h]

theorem rd_skipped : ((d.loopSkips f l).showInteg f l).rd (8 + f) R.BLW_SKIP = min (d.rd (8 + f) R.BLW_SKIP + 1) (2 ^ 32 - 1) := by
  have hoff : R.BLW_SKIP.off ≠ 0x230021C + 0x40 * l := by simp only; omega
  rw [rd_showInteg hoff, Dev.loopSkips, rd_bump_self _ _ _ _ (by decide) (by decide)]
  rfl

theorem rd_skipped_out : ((d.loopSkips f l).showInteg f l).rd (8 + f) (R.BLW_L_OUT l) = d.rd (8 + f) (R.BLW_L_OUT l) := by
  have hinteg : (R.BLW_L_OUT l).off ≠ 0x230021C + 0x40 * l := by simp only; omega
  have hskip : (R.BLW_L_OUT l).off ≠ 0x2300800 := by simp only; omega
  rw [rd_showInteg hinteg, rd_loopSkips hskip]

end

end Sys2Proof.Machine

namespace Sys2Proof.Proofs

open Sys2Proof.Machine

/-- Settles O43: a tick is what the loops due do (`bellowsTick_due`); one that alone is due computes or is skipped, and its computation ends in
its clamps. -/
theorem bellowsTicks : Obligations.BellowsTicks := by
  unfold Obligations.BellowsTicks
  refine ⟨?idle, ?computes, ?skips, ?clamped⟩
  case idle =>
    intro f fr hf s hnone
    have hdue : (List.range 24).filter (fun l => s.dev.loopDue f l fr (s.dev.tickNo f fr)) = [] :=
      List.filter_eq_nil_iff.2 fun l hl => Bool.eq_false_iff.1 (hnone l (List.mem_range.1 hl))
    rw [bellowsTick_due hf hdue, dueTick_nil]
    rfl
  case computes =>
    intro f l fr s hf hl hlen hswaps hon hgrp hsome hdue rd x o
    have hlen' : 24 * f + l < s.dev.blw.loops.length := by omega
    have ho : (s.dev.ticked f fr).loopResult f l = o := loopResult_ticked s.dev f fr hl
    refine ⟨_, bellowsTick_computes hf hl hswaps hon hgrp hdue hlen' hsome, rfl, ?_, ?_, fun k hk => ?_⟩
    · rw [rd_loopRan_out, ho]
    · exact (loop_loopRan_self (s.dev.ticked f fr) _ hlen').trans (congrArg (fun r : LoopOut => { r.loop with integ := o.ic }) ho)
    · exact loop_loopRan_other _ _ hk
  case skips =>
    intro f l fr s hf hl _ hswaps hon hgrp hempty hdue
    refine ⟨_, bellowsTick_skips hf hl hswaps hon hgrp hdue hempty, ?_, ?_⟩
    · rw [rd_skipped, rd_ticked s.dev f fr (g := R.BLW_SKIP) (by decide)]
    · exact (rd_skipped_out _).trans (rd_ticked s.dev f fr (by show 0x2300218 + 0x40 * l ≠ 0x2300010; omega))
  case clamped =>
    intro x m sp iLo iHi oLo oHi k pre hi ho
    obtain ⟨v, w, hout, hic⟩ := loopCompute_clamped x m sp iLo iHi oLo oHi k pre
    obtain ⟨hol, hoh⟩ := clampI_bounds v ho
    obtain ⟨hil, hih⟩ := clampI_bounds (lo := iLo * 32768) (hi := iHi * 32768) w (by omega)
    rw [hout, hic]
    exact ⟨hol, hoh, hil, hih⟩

end Sys2Proof.Proofs
end

section
/-! BELLOWS_SETPOINT (O41). -/

namespace Sys2Proof.Machine

/-! What the gate has checked. -/

/-- R313: what the gate has checked of a BELLOWS_SETPOINT that begins. -/
theorem bellowsSetpoint_checked {h : Hdr} {p : Bytes} {s : State} (hm : mayBegin (.bellowsSetpoint h p) s = true) :
    1 ≤ u8 p 0 ∧ u8 p 0 ≤ 48 ∧ zero? p 1 3 = true ∧ p.length = 4 + 4 * u8 p 0 ∧
      ∀ i < u8 p 0, u8 p (4 + 4 * i) ≤ 47 ∧ zero? p (5 + 4 * i) 1 = true ∧ u16 p (6 + 4 * i) ≤ 0x7FFF := by
  have hc := failIf_eq_none.1 (check_of_mayBegin (sp := specBellowsSetpoint) rfl rfl hm)
  have hlen := lenOk_of_mayBegin (sp := specBellowsSetpoint) rfl hm
  simp [OpSpec.lenOk, specBellowsSetpoint, Instr.params] at hc hlen
  obtain ⟨⟨⟨hn, h48⟩, hents⟩, hres, hpad⟩ := hc
  exact ⟨Nat.one_le_iff_ne_zero.2 (of_decide_eq_false hn), h48, hres, hlen.2, fun i hi => ⟨(hents i hi).1, hpad i hi, (hents i hi).2⟩⟩

variable (d : Dev)

/-! Writes of registers, each with its exchange. -/

/-- Writes that change registers alone change, with their exchanges, the damper and what leaves. -/
theorem flueSteps_frame {α : Type} (regOf : α → Nat × Option Fld) {w : Dev → α → Dev} (hw : ∀ e x, w e x = { e with regs := (w e x).regs })
    (l : List α) :
    let t := l.foldl (flueStep regOf w) d
    t = { d with regs := t.regs, dmp := t.dmp, out := t.out } := by
  induction l generalizing d with
  | nil => rfl
  | cons x l ih =>
    rw [List.foldl_cons]
    refine (ih _).trans ?_
    rw [flueStep_frame, hw]

/-- No register of Bellows is of the power blocks (R33). -/
theorem powerBlock_bellows (k : Nat) {o : Nat} (hlo : 0x2300000 ≤ o) (hhi : o < 0x2400000) : powerBlock (regAddr k o) = false := by
  have hblk : regAddr k o / 2 ^ 20 % 256 = 0x23 := by simp only [regAddr]; omega
  simp only [powerBlock, hblk]
  rfl

/-- Loops have their own registers: two loops differ in their die or in their number on it. -/
theorem regAddr_setpoint {L K : Nat} (h : L ≠ K) :
    regAddr (loopDie L) (R.BLW_L_SETPOINT (loopLocal L)).off ≠ regAddr (loopDie K) (R.BLW_L_SETPOINT (loopLocal K)).off := by
  simp only [regAddr, loopDie, loopLocal]
  omega

/-! The entries of BELLOWS_SETPOINT lie as those of LAMP_SETPOINT (`hostWrites`): a loop and its setpoint. -/

/-- The register of an entry. -/
def setpointReg (e : Nat × Nat) : Nat × Option Fld := (loopDie e.1, some (R.BLW_L_SETPOINT (loopLocal e.1)))

/-- What an entry writes. -/
def setpointWrite (d : Dev) (e : Nat × Nat) : Dev := d.wr (loopDie e.1) (R.BLW_L_SETPOINT (loopLocal e.1)) e.2

/-- The dies that entries name. -/
def setpointDies (es : List (Nat × Nat)) : List Nat := flueDies.filter fun k => es.any fun e => loopDie e.1 = k

/-- The first `n` entries are written. -/
def setpointsWritten (p : Bytes) (n : Nat) (d : Dev) : Dev := (hostWrites p n).foldl (flueStep setpointReg setpointWrite) d

theorem setpointsWritten_succ (p : Bytes) (n : Nat) :
    setpointsWritten p (n + 1) d = flueStep setpointReg setpointWrite (setpointsWritten p n d) (u8 p (4 + 4 * n), u16 p (6 + 4 * n)) := by
  simp [setpointsWritten, hostWrites, List.range_succ]

/-- A loop holds the last setpoint written to it. -/
theorem rd_setpointsWritten {p : Bytes} {n i : Nat} (hi : i < n) (hlast : ∀ j, i < j → j < n → u8 p (4 + 4 * j) ≠ u8 p (4 + 4 * i)) :
    (setpointsWritten p n d).rd (loopDie (u8 p (4 + 4 * i))) (R.BLW_L_SETPOINT (loopLocal (u8 p (4 + 4 * i)))) = u16 p (6 + 4 * i) := by
  induction n with
  | zero => exact absurd hi (Nat.not_lt_zero i)
  | succ n ih =>
    rw [setpointsWritten_succ, rd_flueStep]
    obtain hlt | rfl : i < n ∨ i = n := by omega
    · have hne := hlast n hlt (Nat.lt_succ_self n)
      exact (rd_wr_addr _ _ (regAddr_setpoint hne.symm)).trans (ih hlt fun j hij hj => hlast j hij (Nat.lt_succ_of_lt hj))
    · exact (rd_wr_self _ _ _ _ (Nat.zero_le _) (by show 15 < 32; omega)).trans (Nat.mod_eq_of_lt (u16_lt p _))

theorem flueWrites_setpoints {h : Hdr} {p : Bytes} {n : Nat}
    (hup : ∀ i < n, d.flueUp (loopDie (u8 p (4 + 4 * i))) = true ∧ d.canAnswer (loopDie (u8 p (4 + 4 * i))) = true) (hans : h.answered = none) :
    d.flueWrites h (setpointDies (hostWrites p n)) (hostWrites p n) setpointReg setpointWrite =
      ((hostWrites p n).length, setpointsWritten p n d, none) := by
  have hentry {e : Nat × Nat} (he : e ∈ hostWrites p n) : d.flueUp (loopDie e.1) = true ∧ d.canAnswer (loopDie e.1) = true := by
    obtain ⟨i, hi, rfl⟩ := List.mem_map.1 he
    exact hup i (List.mem_range.1 hi)
  refine flueWrites_all _ (fun k hk => ?_) hans (fun _ _ _ => rfl) (fun e _ _ => ?_) (fun e he => (hentry he).2)
  · obtain ⟨e, he, hdie⟩ := List.any_eq_true.1 (List.mem_filter.1 hk).2
    exact of_decide_eq_true hdie ▸ (hentry he).1
  · have hlt : loopLocal e.1 < 24 := Nat.mod_lt _ (by decide)
    exact powerBlock_bellows (loopDie e.1) (o := 0x2300210 + 0x40 * loopLocal e.1) (by omega) (by omega)

/-- BELLOWS_SETPOINT: the writes of its entries. -/
def setpointBody (h : Hdr) (p : Bytes) (_ : Cmd) (d : Dev) : Dev × Rep :=
  let r := d.flueWrites h (setpointDies (hostWrites p (u8 p 0))) (hostWrites p (u8 p 0)) setpointReg setpointWrite
  (r.2.1, r.2.2.getD .done)

theorem bellowsSetpoint_done (h : Hdr) (p : Bytes) :
    Ends (.bellowsSetpoint h p)
      (fun _ d => h.answered = none ∧
        ∀ i < u8 p 0, d.flueUp (loopDie (u8 p (4 + 4 * i))) = true ∧ d.canAnswer (loopDie (u8 p (4 + 4 * i))) = true)
      (fun _ d => setpointsWritten p (u8 p 0) d) (fun _ _ => .done) := by
  refine ends_of_anvil (sp := specBellowsSetpoint) (body := setpointBody h p) rfl rfl (exec_bellowsSetpoint · h p) ?_
  rintro c d ⟨hans, hup⟩
  simp only [setpointBody, flueWrites_setpoints d hup hans, Option.getD_none]

end Sys2Proof.Machine

namespace Sys2Proof.Proofs

open Sys2Proof.Machine

/-- Settles O41: the gate has checked the entries, and where their dies answer all are written in order (`flueWrites_all`). -/
theorem setpointsAreWritten : Obligations.SetpointsAreWritten := by
  unfold Obligations.SetpointsAreWritten
  refine ⟨fun h p s hm => bellowsSetpoint_checked hm, ?_⟩
  intro h p s hm d c hans hup
  exact ⟨_, bellowsSetpoint_done h p s hm ⟨hans, hup⟩, flueSteps_frame _ _ (fun _ _ => rfl) _, fun i hi hlast => rd_setpointsWritten _ hi hlast⟩

end Sys2Proof.Proofs
end

section
/-! Switching a loop of Bellows off that is OFF (O42). -/

namespace Sys2Proof.Machine

/-- A disable of a loop that is OFF is DONE (R55); the function is put back as it was read, which lists it where it was not listed. -/
theorem bellowsEnable_disableOff (h : Hdr) (p : Bytes) :
    Ends (.bellowsEnable h p) (fun _ d => u8 p 1 ≠ 1 ∧ (d.fn (loopFn (u8 p 0))).st = .off)
      (fun _ d => d.setFn (loopFn (u8 p 0)) (d.fn (loopFn (u8 p 0)))) (fun _ _ => .done) := by
  refine ends_of_anvil (sp := specBellowsEnable) rfl rfl (exec_bellowsEnable · h p) ?_
  rintro c d ⟨hoff, hst⟩
  have hreq : d.request (loopFn (u8 p 0)) false true c = (d.setFn (loopFn (u8 p 0)) (d.fn (loopFn (u8 p 0))), .done, false) := by
    simp only [Dev.request, Fn.request, hst]
    rfl
  simp [Dev.requestFlue, hoff, hreq]

/-- A DONE leaves the functions, where no reply that waits is AUTH_FAIL. -/
theorem finish_done_fns (c : Cmd) (d : Dev) (hd : ∀ r ∈ d.anvil.due, r.st ≠ St.authFail) : (finish c d .done).fns = d.fns := by
  have hframe := finalReply_repliedFrom (c := c) (st := St.done) 0 [] (by decide) hd
  rw [Dev.repliedFrom] at hframe
  show (d.finalReply c St.done 0 []).fns = d.fns
  rw [hframe]

/-- BELLOWS_ENABLE of loop 0 with ENABLE 0, on the local channel. -/
def disableHdr : Hdr where
  route := .cp
  version := 1
  noSession := true
  ordered := false
  quiet := false
  session := 0
  seq := 1
  tmode := 0
  tid := 0
  tag := 0
  mac := none
  answered := none

def disableLoop0 : Instr := .bellowsEnable disableHdr [0, 0, 0, 0]

/-- The device 10 ms after reset, READY: no loop has been switched on, and none is listed among the functions. -/
def idleState : State := { State.reset with dev := { pwr := { ready := true }, time := { t := [0, 0, 0, 10 ^ 7 * 2 ^ 32] } } }

theorem disableLoop0_begins : mayBegin disableLoop0 idleState = true := by decide

end Sys2Proof.Machine

namespace Sys2Proof.Proofs

open Sys2Proof.Machine

/-- Refutes O42: a disable of a loop that is OFF does not leave the device as it began. In `idleState`, where loop 0 is not listed among the
functions, the disable lists it as OFF: it reads OFF as before, but the state after it is not the one claimed. -/
theorem not_bellowsCommands : ¬ Obligations.BellowsCommands := by
  unfold Obligations.BellowsCommands
  rintro ⟨-, -, -, -, -, -, -, hclaim, -⟩
  have hoff : ((begunDev disableLoop0 idleState).fn (loopFn 0)).st = .off := rfl
  have hclaimed := hclaim disableHdr [0, 0, 0, 0] idleState disableLoop0_begins ⟨by decide, hoff⟩
  have hdone := bellowsEnable_disableOff disableHdr [0, 0, 0, 0] idleState disableLoop0_begins ⟨by decide, hoff⟩
  have hstates := Host.Outcome.next.inj (hdone.symm.trans hclaimed)
  have hfns := congrArg (fun s : State => s.dev.fns.length) hstates
  simp only [withDev_dev] at hfns
  rw [finish_done_fns _ _ (by rintro _ ⟨⟩), finish_done_fns _ _ (by rintro _ ⟨⟩)] at hfns
  exact absurd hfns (by decide)

end Sys2Proof.Proofs
end

section
/-!
A flue link's registers and training (R324–R328): what is written reads back, and what each step of training leaves of the registers, of the
functions and of the rest of the device.
-/

namespace Sys2Proof.Machine

variable (d : Dev)

/-! A link's registers. -/

theorem lget_congr {d e : Dev} (h : d.regs = e.regs) (n : Nat) (f : Nat → Fld) : d.lget n f = e.lget n f := rd_congr h _ _

theorem lget_lset_self (n : Nat) (f : Nat → Fld) (v : Nat) (h : (f (linkOn n)).lo ≤ (f (linkOn n)).hi) (hh : (f (linkOn n)).hi < 32) :
    (d.lset n f v).lget n f = v % 2 ^ ((f (linkOn n)).hi + 1 - (f (linkOn n)).lo) := rd_wr_self d _ _ v h hh

/-- A field of another register of the link, or other bits of the same one, are as before. -/
theorem lget_lset_other (n : Nat) (f g : Nat → Fld) (v : Nat) (h : (g (linkOn n)).off ≠ (f (linkOn n)).off ∨
      (g (linkOn n)).hi < 32 ∧ ((g (linkOn n)).hi < (f (linkOn n)).lo ∨ (f (linkOn n)).hi < (g (linkOn n)).lo)) :
    (d.lset n f v).lget n g = d.lget n g := by
  by_cases ho : (g (linkOn n)).off = (f (linkOn n)).off
  · obtain ⟨hg, hd⟩ := h.resolve_left (not_not_intro ho)
    exact rd_wr_field d v ho hg hd
  · exact rd_wr_addr d v (regAddr_off ho)

theorem lget_lbump_self (n : Nat) (f : Nat → Fld) (k : Nat) (h : (f (linkOn n)).lo ≤ (f (linkOn n)).hi) (hh : (f (linkOn n)).hi < 32) :
    (d.lbump n f k).lget n f = min (d.lget n f + k) (2 ^ ((f (linkOn n)).hi + 1 - (f (linkOn n)).lo) - 1) := rd_bump_self d _ _ k h hh

theorem lget_lbump_other (n : Nat) (f g : Nat → Fld) (k : Nat) (h : (g (linkOn n)).off ≠ (f (linkOn n)).off) :
    (d.lbump n f k).lget n g = d.lget n g := rd_bump_addr d k (regAddr_off h)

/-- The bit that blanks half of a link's raster lies in another block. -/
theorem lget_wr_half (n : Nat) (g : Nat → Fld) (v : Nat) (h : 0x3000000 ≤ (g (linkOn n)).off) :
    (d.wr (linkDie n) (R.SCN_LINK_HALF (linkOn n)) v).lget n g = d.lget n g := by
  have hon : linkOn n < 4 := Nat.mod_lt _ (by decide)
  have hhalf : (R.SCN_LINK_HALF (linkOn n)).off < 0x3000000 := by
    show 0x1500000 + 0x4 * linkOn n < _
    omega
  exact rd_wr_addr d v (regAddr_off (by omega))

@[simp] theorem lget_setCore (m : Nat) (c : LinkCore) (n : Nat) (f : Nat → Fld) : (d.setCore m c).lget n f = d.lget n f := rfl

theorem core_setCore_self {n : Nat} (c : LinkCore) (h : n < d.lnk.links.length) : (d.setCore n c).core n = c := by
  simp [Dev.core, Dev.setCore, List.getD, h]

theorem fn_congr {d e : Dev} (h : d.fns = e.fns) (k : Nat) : d.fn k = e.fn k := by
  simp only [Dev.fn, h]

/-! The map of a link's lanes (R320). -/

theorem lanes_setMap (n : Nat) (phys : List Nat) (spare : Nat) (h : phys.length < 8) :
    (d.setMap n phys spare).lget n R.LNK_FL_STATE_N = phys.length := by
  simp (disch := simp) only [Dev.setMap, lget_lset_self, lget_lset_other]
  exact Nat.mod_eq_of_lt h

theorem phase_setMap (n : Nat) (phys : List Nat) (spare : Nat) :
    (d.setMap n phys spare).lget n R.LNK_FL_STATE_PHASE = d.lget n R.LNK_FL_STATE_PHASE := by
  simp (disch := simp) only [Dev.setMap, lget_lset_other]

/-! Entering a phase (R326). -/

/-- A phase's TRAIN blocks only leave. -/
theorem trainBlocks_frame (n ph : Nat) (l : List Nat) :
    let t := l.foldl (fun d p => d.send (.lane n p (trainWord n p ph 0 0 0))) d
    t = { d with out := t.out } :=
  List.foldlRecOn l _ (motive := fun t : Dev => t = { d with out := t.out }) rfl fun _ h _ _ => by rw [h]; rfl

theorem enterPhase_frame (n ph : Nat) : d.enterPhase n ph = { d with regs := (d.enterPhase n ph).regs, out := (d.enterPhase n ph).out } := by
  unfold Dev.enterPhase
  dsimp only
  split
  · rw [trainBlocks_frame]
    rfl
  · split <;> rfl

/-- In a phase that sends TRAIN only the phase is shown anew. -/
theorem enterPhase_train_regs (n : Nat) {ph : Nat} (h : ph ≤ 3 ∨ ph = 7) :
    (d.enterPhase n ph).regs = (d.lset n R.LNK_FL_STATE_PHASE ph).regs := by
  simp only [Dev.enterPhase, if_pos h]
  rw [trainBlocks_frame]

theorem phase_lset (n : Nat) {ph : Nat} (h : ph < 8) : (d.lset n R.LNK_FL_STATE_PHASE ph).lget n R.LNK_FL_STATE_PHASE = ph := by
  simp (disch := simp) only [lget_lset_self]
  exact Nat.mod_eq_of_lt h

theorem phase_enterPhase (n : Nat) {ph : Nat} (h : ph < 8) : (d.enterPhase n ph).lget n R.LNK_FL_STATE_PHASE = ph := by
  refine Eq.trans ?_ (phase_lset d n h)
  unfold Dev.enterPhase
  dsimp only
  split
  · exact lget_congr (by rw [trainBlocks_frame]) _ _
  · split
    · exact phase_setMap ..
    · rfl

/-- The other fields are as before a phase that sends TRAIN. -/
theorem lget_enterPhase_train (n : Nat) {ph : Nat} {g : Nat → Fld} (h : ph ≤ 3 ∨ ph = 7)
    (hg : (g (linkOn n)).off ≠ 0x3000000 + 0x100 * linkOn n ∨ (g (linkOn n)).hi < 32 ∧ 2 < (g (linkOn n)).lo) :
    (d.enterPhase n ph).lget n g = d.lget n g :=
  (lget_congr (enterPhase_train_regs d n h) n g).trans (lget_lset_other d n _ g ph (hg.imp_right fun ⟨hh, hl⟩ => ⟨hh, .inr hl⟩))

/-- The training of a link begins (R326): it is in DETECT, and has heard nothing. -/
theorem beginLink_frame (n : Nat) :
    d.beginLink n = { d with regs := (d.beginLink n).regs, lnk := (d.beginLink n).lnk, out := (d.beginLink n).out } := by
  unfold Dev.beginLink
  rw [enterPhase_frame]
  rfl

theorem phase_beginLink (n : Nat) : (d.beginLink n).lget n R.LNK_FL_STATE_PHASE = 1 := phase_enterPhase _ n (by decide)

theorem beginLink_lnk (n : Nat) :
    (d.beginLink n).lnk = (d.setCore n { d.core n with heard := false, eqDone := 0, errs := 0 }).lnk := by
  unfold Dev.beginLink
  rw [enterPhase_frame]

theorem beginLink_unheard {n : Nat} (h : n < d.lnk.links.length) : ((d.beginLink n).core n).heard = false := by
  have hcore := core_setCore_self d { d.core n with heard := false, eqDone := 0, errs := 0 } h
  simp only [Dev.core, beginLink_lnk] at hcore ⊢
  rw [hcore]

/-! LISTEN (R327, R328). -/

/-- A link that has no disable stored in a start does not fall out of LISTEN. -/
theorem listenFails_kept {n : Nat} (h : ¬((d.fn (FnId.link n)).st = .starting ∧ (d.fn (FnId.link n)).stored.isSome)) : d.listenFails n = d := by
  unfold Dev.listenFails
  dsimp only
  exact if_neg fun ⟨hst, hs, _⟩ => h ⟨hst, hs⟩

/-- The report of the first entry into LISTEN: an event of the flue die and a descriptor. -/
theorem listenReport_fns (f s l die u c a x : Nat) : ((d.flueEvent f s).descriptor l die 0x30 u c a x).fns = d.fns := by
  rw [descriptor_frame, Dev.flueEvent, retPut_frame]

theorem lget_listenReport (n f s l die u c a x : Nat) {g : Nat → Fld} (hg : (g (linkOn n)).off < 0x7000000) :
    ((d.flueEvent f s).descriptor l die 0x30 u c a x).lget n g = d.lget n g := by
  have hdie : linkDie n ≠ 0 := by simp [linkDie]
  exact (rd_descriptor_die _ hdie (Nat.lt_trans hg (by decide)) _ _ _ _ _ _ _ _).trans (rd_flueEvent_low d _ _ hg)

/-- An entry into LISTEN as the link counts it, before it is shown. -/
def listenCounted (n : Nat) : Dev :=
  ((d.lset n R.LNK_FL_BACKOFF (d.core n).backoff).lbump n R.LNK_FL_LISTENS).setCore n
    { d.core n with told := true, heard := false, backoff := min 1000 (2 * (d.core n).backoff) }

theorem listens_listenCounted (n : Nat) :
    (listenCounted d n).lget n R.LNK_FL_LISTENS = min (d.lget n R.LNK_FL_LISTENS + 1) (2 ^ 32 - 1) := by
  simp (disch := simp) only [listenCounted, lget_setCore, lget_lbump_self, lget_lset_other]

theorem enterListen_eq (n ph : Nat) :
    let e := (listenCounted d n).enterPhase n 7
    d.enterListen n ph = (if (d.core n).told then e
      else (e.flueEvent (n / 4) (linkSource n)).descriptor 1 (linkDie n) 0x30 n Cause.handshakeTimeout 0 ph).listenFails n := rfl

/-- A link that enters LISTEN without a stored request stays there, and the entry is counted. -/
theorem enterListen_counted {n : Nat} (ph : Nat) (hs : (d.fn (FnId.link n)).stored = none) :
    (d.enterListen n ph).lget n R.LNK_FL_STATE_PHASE = 7 ∧
      (d.enterListen n ph).lget n R.LNK_FL_LISTENS = min (d.lget n R.LNK_FL_LISTENS + 1) (2 ^ 32 - 1) := by
  have hon : linkOn n < 4 := Nat.mod_lt _ (by decide)
  have hphase : ((listenCounted d n).enterPhase n 7).lget n R.LNK_FL_STATE_PHASE = 7 := phase_enterPhase _ n (by decide)
  have hcount : ((listenCounted d n).enterPhase n 7).lget n R.LNK_FL_LISTENS = min (d.lget n R.LNK_FL_LISTENS + 1) (2 ^ 32 - 1) :=
    (lget_enterPhase_train _ n (.inr rfl) (.inl (by simp))).trans (listens_listenCounted d n)
  have hfns : ((listenCounted d n).enterPhase n 7).fns = d.fns := by rw [enterPhase_frame]; rfl
  have hkept {t : Dev} (ht : t.fns = d.fns) : t.listenFails n = t := listenFails_kept t (by simp [fn_congr ht, hs])
  have hreport (t : Dev) (f s l die u c a x : Nat) {g : Nat → Fld} (hg : (g (linkOn n)).off ≤ 0x3000088 + 0x100 * linkOn n) :
      ((t.flueEvent f s).descriptor l die 0x30 u c a x).lget n g = t.lget n g := lget_listenReport t n _ _ _ _ _ _ _ _ (by omega)
  rw [enterListen_eq]
  split
  · rw [hkept hfns]
    exact ⟨hphase, hcount⟩
  · rw [hkept ((listenReport_fns _ _ _ _ _ _ _ _ _).trans hfns)]
    exact ⟨(hreport _ _ _ _ _ _ _ _ _ (by simp)).trans hphase, (hreport _ _ _ _ _ _ _ _ _ (by simp)).trans hcount⟩

end Sys2Proof.Machine
end

section
/-! The back channel and the phases of a flue link (R324, R326, R327): what each event leaves (O48). -/

namespace Sys2Proof.Machine

variable (d : Dev)

/-! HELLO (R324, R327). -/

/-- What a HELLO leaves of a link before a phase is entered. -/
def helloHeard (l id caps : Nat) : Dev :=
  let e := (((d.lset l R.LNK_FL_PARTNER_LO id).lset l R.LNK_FL_PARTNER_HI_ID (id / 2 ^ 32)).lset l R.LNK_FL_PARTNER_HI_CAPS caps).lset
    l R.LNK_FL_STATE_BACK 1
  e.setCore l { d.core l with heard := true }

theorem helloHeard_stores (l id caps : Nat) :
    let t := helloHeard d l id caps
    t.lget l R.LNK_FL_PARTNER_LO = id % 2 ^ 32 ∧ t.lget l R.LNK_FL_PARTNER_HI_ID = id / 2 ^ 32 % 65536 ∧
      t.lget l R.LNK_FL_PARTNER_HI_CAPS = caps % 256 ∧ t.lget l R.LNK_FL_STATE_BACK = 1 := by
  simp (disch := simp) [helloHeard, lget_lset_self, lget_lset_other]

theorem helloHeard_heard {l : Nat} (id caps : Nat) (h : l < d.lnk.links.length) : ((helloHeard d l id caps).core l).heard = true :=
  congrArg LinkCore.heard (core_setCore_self _ _ h)

/-- A HELLO stores what it carries, and may bring the link to DETECT. -/
theorem hello_cases {l : Nat} (id caps : Nat) {s : State} (hl : l ≤ 7) :
    ∃ t : Dev, exec (.hello l id caps) s = .next (s.withDev t) ∧
      (t = helloHeard s.dev l id caps ∨ t = (helloHeard s.dev l id caps).enterPhase l 1) ∧
      (s.dev.lget l R.LNK_FL_STATE_PHASE = 7 → s.dev.lnk.taps = [] → t = (helloHeard s.dev l id caps).enterPhase l 1) := by
  have hphase : (helloHeard s.dev l id caps).lget l R.LNK_FL_STATE_PHASE = s.dev.lget l R.LNK_FL_STATE_PHASE := by
    simp (disch := simp) only [helloHeard, lget_setCore, lget_lset_other]
  refine ⟨_, rfl, ?_, ?_⟩
  · simp only [if_neg (Nat.not_lt.2 hl)]
    split
    · exact .inr rfl
    · exact .inl rfl
  · intro h7 htaps
    simp only [if_neg (Nat.not_lt.2 hl)]
    exact if_pos ⟨hphase.trans h7, by simp [Dev.setCore, Dev.lset, htaps]⟩

/-! STATUS (R324, R330). -/

theorem statusLosses_early {n : Nat} (locked : Nat) (h : d.lget n R.LNK_FL_STATE_PHASE ≤ 3) : d.statusLosses n locked = d := by
  unfold Dev.statusLosses
  dsimp only
  rw [if_neg (by omega), if_neg (by omega)]

/-- Lanes that an ON link shows unlocked are lost; in DESKEW or CHECK the link may go back to LOCK; else nothing is done. -/
theorem statusLosses_keeps (n locked : Nat) :
    (d.statusLosses n locked).lnk = d.lnk ∧
      ∀ g : Nat → Fld, (g (linkOn n)).off ≠ 0x3000000 + 0x100 * linkOn n → (g (linkOn n)).off ≠ 0x3000004 + 0x100 * linkOn n →
        (d.statusLosses n locked).lget n g = d.lget n g := by
  unfold Dev.statusLosses
  dsimp only
  split
  · split
    · exact ⟨rfl, fun g hstate hmap => (lget_lset_other _ n _ g 1 (.inl hstate)).trans <| (lget_lset_other _ n _ g 7 (.inl hmap)).trans <|
        lget_lset_other d n _ g _ (.inl hmap)⟩
    · exact ⟨rfl, fun g _ hmap => lget_lset_other d n _ g _ (.inl hmap)⟩
  · split
    · exact ⟨by rw [enterPhase_frame], fun g hstate _ => lget_enterPhase_train d n (.inl (by decide)) (.inl hstate)⟩
    · exact ⟨rfl, fun _ _ _ => rfl⟩

/-- A loss at cell level is only reported (R19). -/
@[simp] theorem lget_linkFault_cell (n a m : Nat) (g : Nat → Fld) : (d.linkFault 0 n a).lget m g = d.lget m g := rfl

/-- The lanes that a STATUS shows unlocked, added to those lost. -/
def lanesLost (n locked : Nat) : Dev := d.lset n R.LNK_FL_MAP_FAILED (d.lget n R.LNK_FL_MAP_FAILED ||| (31 - locked % 32))

theorem failed_lanesLost (n locked : Nat) :
    (lanesLost d n locked).lget n R.LNK_FL_MAP_FAILED = d.lget n R.LNK_FL_MAP_FAILED ||| (31 - locked % 32) := by
  have hwidth : d.lget n R.LNK_FL_MAP_FAILED ||| (31 - locked % 32) < 2 ^ 5 := Nat.or_lt_two_pow (rd_lt d _ _) (by omega)
  exact (lget_lset_self d n _ _ (by simp) (by simp)).trans (Nat.mod_eq_of_lt hwidth)

theorem statusLosses_failed {n : Nat} (locked : Nat) (h : d.lget n R.LNK_FL_STATE_PHASE = 6) :
    (d.statusLosses n locked).lget n R.LNK_FL_MAP_FAILED = d.lget n R.LNK_FL_MAP_FAILED ||| (31 - locked % 32) := by
  have hspare : (((lanesLost d n locked).lset n R.LNK_FL_MAP_SPARE 7).lset n R.LNK_FL_STATE_NO_SPARE 1).lget n R.LNK_FL_MAP_FAILED =
      (lanesLost d n locked).lget n R.LNK_FL_MAP_FAILED := by
    simp (disch := simp) only [lget_lset_other]
  unfold Dev.statusLosses
  simp only [h, if_true]
  split
  · rw [lget_linkFault_cell]
    exact hspare.trans (failed_lanesLost d n locked)
  · exact failed_lanesLost d n locked

/-- What a STATUS stores of a link once its losses are known. -/
def statusStored (l lk bl : Nat) (dk : Bool) (sh eh ev : Nat) : Dev :=
  let e := d.setCore l { d.core l with locked := lk % 32, blocks := bl % 32, deskewed := dk, errs := (d.core l).errs + sh }
  ((e.lset l R.LNK_FL_EYE (eh % 256 * 256 + ev % 256)).lbump l R.LNK_FL_SH_ERR (sh % 65536)).lset l R.LNK_FL_STATE_BACK 1

theorem statusStored_core {l : Nat} (lk bl : Nat) (dk : Bool) (sh eh ev : Nat) (h : l < d.lnk.links.length) :
    let c := (statusStored d l lk bl dk sh eh ev).core l
    c.locked = lk % 32 ∧ c.blocks = bl % 32 ∧ c.deskewed = dk := by
  intro c
  have hc : c = { d.core l with locked := lk % 32, blocks := bl % 32, deskewed := dk, errs := (d.core l).errs + sh } := core_setCore_self d _ h
  rw [hc]
  exact ⟨rfl, rfl, rfl⟩

theorem statusStored_shows (l lk bl : Nat) (dk : Bool) (sh eh ev : Nat) :
    let t := statusStored d l lk bl dk sh eh ev
    t.lget l R.LNK_FL_EYE = eh % 256 * 256 + ev % 256 ∧
      t.lget l R.LNK_FL_SH_ERR = min (d.lget l R.LNK_FL_SH_ERR + sh % 65536) (2 ^ 32 - 1) ∧
      t.lget l R.LNK_FL_MAP_FAILED = d.lget l R.LNK_FL_MAP_FAILED := by
  have heye : eh % 256 * 256 + ev % 256 < 2 ^ 16 := by omega
  simpa (disch := simp) [statusStored, lget_lset_self, lget_lset_other, lget_lbump_self, lget_lbump_other] using heye

theorem backStatus_stores {l : Nat} (lk bl : Nat) (dk : Bool) (sh eh ev bd : Nat) {s : State} (hl : l ≤ 7) (hst : s.dev.linkSt l ≠ .off) :
    exec (.backStatus l lk bl dk sh eh ev bd) s =
      .next (s.withDev (statusStored ((s.dev.lbump l R.LNK_FL_BK_ERR bd).statusLosses l lk) l lk bl dk sh eh ev)) := by
  have hgo : ¬(l > 7 ∨ s.dev.linkSt l = .off) := by simp [hl, hst]
  rw [exec_backStatus, execBackStatus, event_next, if_neg hgo]
  rfl

/-! Equaliser requests (R324). -/

theorem tapStep_hold (v lo hi room : Nat) : tapStep v lo hi 0 room = (v, 0) := rfl

theorem tapStep_raise {v hi room : Nat} (lo : Nat) (hv : v < hi) (hr : 0 < room) : tapStep v lo hi 1 room = (v + 1, 1) :=
  if_pos ⟨hv, hr⟩

/-- A request to raise a main tap with room for it raises it by one, and TRAIN says so. -/
theorem eqReq_raises {l p a b c : Nat} (done : Bool) {s : State} (hl : l ≤ 7) (hp : p ≤ 4) (h3 : s.dev.lget l R.LNK_FL_STATE_PHASE = 3)
    (heq : s.dev.lget l (fun k => R.LNK_FL_EQ k p) = a + 256 * b + 65536 * c) (ha : a < 16) (hb : b < 63) (hc : c < 32)
    (hroom : a + b + c < 63) :
    let e := s.dev.lset l (fun k => R.LNK_FL_EQ k p) (a + 256 * (b + 1) + 65536 * c)
    exec (.eqReq l p done 0 1 0) s = .next (s.withDev ((if done then e.setCore l { e.core l with eqDone := (e.core l).eqDone ||| 2 ^ p } else e).send
      (.lane l p (trainWord l p 3 0 1 0)))) := by
  have hgo : ¬(l > 7 ∨ p > 4 ∨ s.dev.lget l R.LNK_FL_STATE_PHASE ≠ 3) := by simp [hl, hp, h3]
  have hpre : (a + 256 * b + 65536 * c) % 16 = a := by omega
  have hmain : (a + 256 * b + 65536 * c) / 256 % 64 = b := by omega
  have hpost : (a + 256 * b + 65536 * c) / 65536 % 32 = c := by omega
  have hraise := tapStep_raise (v := b) (hi := 63) (room := 63 - (a + b + c)) 16 hb (by omega)
  rw [exec_eqReq, execEqReq, event_next, if_neg hgo]
  simp only [heq, hpre, hmain, hpost, tapStep_hold, hraise]

/-! Phases (R326). -/

theorem trainPhaseAdvance_stays {l : Nat} {s : State} (hl : l ≤ 7) (h : s.dev.phaseDone l = false) : exec (.trainPhaseAdvance l) s = .next s := by
  rw [exec_trainPhaseAdvance, execTrainPhaseAdvance, event_next, if_neg (by omega), if_neg (by omega), if_neg (by simp [h])]
  rfl

theorem trainPhaseAdvance_moves {l : Nat} {s : State} (hl : l ≤ 7) (h : s.dev.phaseDone l = true) :
    exec (.trainPhaseAdvance l) s = .next (s.withDev (s.dev.phaseNext l)) := by
  rw [exec_trainPhaseAdvance, execTrainPhaseAdvance, event_next, if_neg (by omega), if_neg (by omega), if_pos h]

/-- DETECT, EQUALISE and DESKEW lead to the phase after them. -/
theorem phase_phaseNext {l : Nat}
    (h : d.lget l R.LNK_FL_STATE_PHASE = 1 ∨ d.lget l R.LNK_FL_STATE_PHASE = 3 ∨ d.lget l R.LNK_FL_STATE_PHASE = 4) :
    (d.phaseNext l).lget l R.LNK_FL_STATE_PHASE = d.lget l R.LNK_FL_STATE_PHASE + 1 := by
  obtain h | h | h := h <;> simp only [Dev.phaseNext, h]
  · exact phase_enterPhase d l (by decide)
  · exact phase_enterPhase d l (by decide)
  · exact phase_lset _ l (by decide)

theorem phaseNext_check {l : Nat} (h : d.lget l R.LNK_FL_STATE_PHASE = 5) : d.phaseNext l = d.linkReachesOn l := by
  simp only [Dev.phaseNext, h]

/-- The map over the locked lanes of a link that reaches ON. -/
def onMapped (n : Nat) : Dev :=
  let lanes := (d.core n).lockedLanes
  (d.lset n R.LNK_FL_MAP_FAILED (((List.range 5).filter fun p => !lanes.contains p).map (2 ^ ·)).sum).setMap n (lanes.take 4) (lanes.getD 4 7)

/-- The link's state once it is ON. -/
def onShown (n : Nat) : Dev :=
  ((onMapped d n).lset n R.LNK_FL_STATE_DEGRADED (b2n (decide ((d.core n).lockedLanes.length < 4)))).lset n R.LNK_FL_STATE_PHASE 6

theorem onShown_shows (n : Nat) :
    let t := onShown d n
    let lanes := (d.core n).lockedLanes
    t.lget n R.LNK_FL_STATE_PHASE = 6 ∧ t.lget n R.LNK_FL_STATE_N = min 4 lanes.length ∧
      t.lget n R.LNK_FL_STATE_DEGRADED = b2n (decide (lanes.length < 4)) := by
  intro t lanes
  have hlanes : (onMapped d n).lget n R.LNK_FL_STATE_N = min 4 lanes.length :=
    (lanes_setMap _ n _ _ (by simp only [List.length_take]; omega)).trans List.length_take
  have hbit : b2n (decide (lanes.length < 4)) % 2 = b2n (decide (lanes.length < 4)) := by cases decide (lanes.length < 4) <;> rfl
  refine ⟨phase_lset _ n (by decide), ?_, ?_⟩
  · rw [← hlanes]
    simp (disch := simp) only [t, onShown, lget_lset_other]
  · simp (disch := simp) only [t, onShown, lget_lset_other, lget_lset_self]
    exact hbit

/-- What a link that reaches ON does after its state is shown leaves that register. -/
theorem linkReachesOn_state (n : Nat) (g : Nat → Fld) (hg : (g (linkOn n)).off = 0x3000000 + 0x100 * linkOn n) :
    (d.linkReachesOn n).lget n g = (onShown d n).lget n g := by
  have hhalf : (if (d.core n).lockedLanes.length < 4 then (onShown d n).wr (linkDie n) (R.SCN_LINK_HALF (linkOn n)) 1 else onShown d n).lget n g =
      (onShown d n).lget n g := by
    split
    · exact lget_wr_half _ n g 1 (by omega)
    · rfl
  exact (lget_lset_other _ n _ g 10 (.inl (by simp [hg]))).trans hhalf

/-- A link that reaches ON shows its lanes. -/
theorem linkReachesOn_shows (n : Nat) :
    let t := d.linkReachesOn n
    let lanes := (d.core n).lockedLanes
    t.lget n R.LNK_FL_STATE_PHASE = 6 ∧ t.lget n R.LNK_FL_STATE_N = min 4 lanes.length ∧
      t.lget n R.LNK_FL_STATE_DEGRADED = b2n (decide (lanes.length < 4)) ∧ t.lget n R.LNK_FL_BACKOFF = 10 := by
  obtain ⟨hphase, hlanes, hdegraded⟩ := onShown_shows d n
  exact ⟨(linkReachesOn_state d n _ rfl).trans hphase, (linkReachesOn_state d n _ rfl).trans hlanes,
    (linkReachesOn_state d n _ rfl).trans hdegraded, lget_lset_self _ n _ 10 (by simp) (by simp)⟩

/-! LISTEN (R327). -/

theorem linkPhaseTimeout_listens {l : Nat} {s : State} (hl : l ≤ 7) (hlo : 1 ≤ s.dev.lget l R.LNK_FL_STATE_PHASE)
    (hhi : s.dev.lget l R.LNK_FL_STATE_PHASE ≤ 5) :
    exec (.linkPhaseTimeout l) s = .next (s.withDev (s.dev.enterListen l (s.dev.lget l R.LNK_FL_STATE_PHASE))) := by
  rw [exec_linkPhaseTimeout, execLinkPhaseTimeout, event_next]
  dsimp only
  rw [if_neg (Nat.not_lt.2 hl), if_pos (.inl ⟨hlo, hhi⟩)]

theorem listenRetry_begins {l : Nat} {s : State} (hl : l ≤ 7) (h7 : s.dev.lget l R.LNK_FL_STATE_PHASE = 7) (htaps : s.dev.lnk.taps = []) :
    exec (.listenRetry l) s = .next (s.withDev (s.dev.beginLink l)) := by
  have hgo : ¬(l > 7 ∨ s.dev.lget l R.LNK_FL_STATE_PHASE ≠ 7 ∨
      (s.dev.lnk.taps.any fun t => t.lane / 256 = 1 && t.lane % 256 / 5 = l) = true) := by simp [hl, h7, htaps]
  rw [exec_listenRetry, execListenRetry, event_next]
  dsimp only
  rw [if_neg hgo]

end Sys2Proof.Machine
end

section
/-! A function's state across a final reply: closing a session withdraws stored requests and starts or stops nothing (R48, R55). -/

namespace Sys2Proof.Machine

variable (d : Dev)

/-- Functions changed in place, each to one of the same state, are in the states they were in. -/
theorem fnSt_map {g : Fn → Fn} (hg : ∀ f, (g f).st = f.st) (m : List (Nat × Fn)) (k : Nat) :
    (amGet (m.map fun e => (e.1, g e.2)) k {}).st = (amGet m k {}).st := by
  induction m with
  | nil => rfl
  | cons e r ih =>
    simp only [List.map_cons, amGet]
    split
    · exact hg e.2
    · exact ih

/-- A function whose stored request is withdrawn where `sel` selects it. -/
def Fn.withdrawn (sel : Cmd → Bool) (f : Fn) : Fn :=
  match f.stored with
  | some c => if sel c then { f with stored := none } else f
  | none => f

theorem Fn.withdrawn_st (sel : Cmd → Bool) (f : Fn) : (f.withdrawn sel).st = f.st := by
  unfold Fn.withdrawn
  split
  · split <;> rfl
  · rfl

theorem closeSession_fns (n : Nat) : (d.closeSession n).fns = d.fns.map fun e => (e.1, e.2.withdrawn fun c => c.who = n) := rfl

theorem fnSt_closeSession (n k : Nat) : ((d.closeSession n).fn k).st = (d.fn k).st := by
  simp only [Dev.fn, closeSession_fns]
  exact fnSt_map (Fn.withdrawn_st _) d.fns k

theorem fnSt_countAuth (n st k : Nat) : ((d.countAuth n st).fn k).st = (d.fn k).st := by
  unfold Dev.countAuth
  dsimp only
  split
  · rfl
  · split
    · split
      · exact fnSt_closeSession d n k
      · rfl
    · rfl

theorem fn_replyRaw (h : Hdr) (op st rs : Nat) (b : Bytes) (key : Option Bytes) (k : Nat) : (d.replyRaw h op st rs b key).fn k = d.fn k :=
  fn_congr (by rw [replyRaw_frame]) k

theorem fnSt_replyNow (c : Cmd) (st rs : Nat) (b : Bytes) (k : Nat) : ((d.replyNow c st rs b).fn k).st = (d.fn k).st := by
  have hheld (e : Dev) (x : Session) : (if c.who < 4 then e.setSess c.who x else e).fn k = e.fn k := by split <;> rfl
  unfold Dev.replyNow
  dsimp only
  split
  · rw [fn_replyRaw]
    rfl
  · split
    · rfl
    · split
      · rw [fn_replyRaw, hheld]
        rfl
      · rw [fnSt_countAuth, fn_replyRaw, hheld]
        rfl

theorem fnSt_replyDue (k : Nat) : (d.replyDue.fn k).st = (d.fn k).st := by
  unfold Dev.replyDue
  split
  · rfl
  · exact fnSt_replyNow _ _ _ _ _ k

theorem fnSt_finalReply (c : Cmd) (st rs : Nat) (b : Bytes) (k : Nat) : ((d.finalReply c st rs b).fn k).st = (d.fn k).st := by
  have hdue (n : Nat) (e : Dev) : ((Nat.repeat Dev.replyDue n e).fn k).st = (e.fn k).st := by
    induction n with
    | zero => rfl
    | succ n ih => exact (fnSt_replyDue _ k).trans ih
  unfold Dev.finalReply
  split
  · rfl
  · exact (hdue _ _).trans (fnSt_replyNow d c st rs b k)

theorem fn_complete (c : Cmd) (st rs : Nat) (b : Bytes) (k : Nat) : (d.complete c st rs b).fn k = d.fn k :=
  fn_congr (by rw [complete_frame]) k

/-- R55: a stop that ends well with nothing stored leaves the function OFF, and its commands complete DONE. -/
theorem fnDone_stop {k : Nat} (h : (d.fn k).st = .stopping) (hs : (d.fn k).stored = none) (b : Bytes) :
    d.fnDone k b = ((d.setFn k { st := .off }).completeAll (d.fn k).running St.done 0 b, none) := by
  simp only [Dev.fnDone, Fn.finish, h, hs]

end Sys2Proof.Machine
end

section
/-! LINK_ENABLE, LINK_STATUS, the ends of a link's transitions and the links' start-up (R328, R329, R342, R343; O48). -/

namespace Sys2Proof.Machine

variable (d : Dev)

/-! LINK_ENABLE (R342, R550). -/

theorem linkEnable_begins (h : Hdr) (p : Bytes) :
    Ends (.linkEnable h p)
      (fun _ d => u8 p 1 = 1 ∧ d.flueUp (linkDie (u8 p 0)) = true ∧ d.canAnswer (linkDie (u8 p 0)) = true ∧ h.answered = none ∧
        d.linkSt (u8 p 0) = .off)
      (fun c d => (d.setFn (FnId.link (u8 p 0)) { st := .starting, stored := none, running := [c] }).beginLink (u8 p 0))
      (fun _ _ => .accepted) := by
  refine ends_of_anvil (sp := specLinkEnable) rfl rfl (exec_linkEnable · h p) ?_
  rintro c d ⟨hon, hup, ha, hans, hoff⟩
  have hstart := request_start d true c hoff
  have hreq := requestFlue_done d (dies := [linkDie (u8 p 0)]) (congrArg (·.2.2) hstart) (by simp [hup, ha]) hans
  simp [hon, hreq, hstart]

theorem linkEnable_unreachable (h : Hdr) (p : Bytes) :
    Ends (.linkEnable h p)
      (fun _ d => u8 p 1 = 1 ∧ d.flueUp (linkDie (u8 p 0)) = false ∧ d.linkSt (u8 p 0) = .off)
      (fun c d => (d.finalReply c St.accepted 0 []).complete c St.fault 0) (fun _ _ => .later) := by
  refine ends_of_anvil (sp := specLinkEnable) rfl rfl (exec_linkEnable · h p) ?_
  rintro c d ⟨hon, hdown, hoff⟩
  have hstart := request_start d true c hoff
  have hreq := requestFlue_unreachable d (h := h) (dies := [linkDie (u8 p 0)]) (congrArg (·.2.2) hstart) (by simp [hdown])
  have hstill : (((d.finalReply c St.accepted 0 []).complete c St.fault 0).fn (FnId.link (u8 p 0))).st = .off := by
    rw [fn_complete, fnSt_finalReply]
    exact hoff
  have hkept : ((d.finalReply c St.accepted 0 []).complete c St.fault 0).listenFails (u8 p 0) = _ := listenFails_kept _ (by simp [hstill])
  simp [hon, hreq, hkept]

theorem linkEnable_inUse (h : Hdr) (p : Bytes) :
    Ends (.linkEnable h p) (fun _ d => u8 p 1 = 0 ∧ d.linkRegionState (u8 p 0) ≠ .off) (fun _ d => d)
      (fun _ _ => .bad St.badState Rsk.inUse) := by
  refine ends_of_anvil (sp := specLinkEnable) rfl rfl (exec_linkEnable · h p) ?_
  rintro c d ⟨hon, hregion⟩
  simp [hon, hregion]

/-! The ends of transitions (R328). -/

theorem linkTransitionDone_started {l : Nat} {r : List Cmd} {s : State} (hl : l ≤ 7)
    (hfn : s.dev.fn (FnId.link l) = { st := .starting, stored := none, running := r }) (h6 : s.dev.lget l R.LNK_FL_STATE_PHASE = 6) :
    exec (.linkTransitionDone l) s =
      .next (s.withDev ((s.dev.setFn (FnId.link l) { st := .on }).completeAll r St.done 0 (s.dev.linkData l))) := by
  have hst : s.dev.linkSt l = .starting := congrArg Fn.st hfn
  have hdone := fnDone_start s.dev (congrArg Fn.st hfn) (congrArg Fn.stored hfn) (s.dev.linkData l)
  rw [exec_linkTransitionDone, execLinkTransitionDone, event_next]
  simp [Nat.not_lt.2 hl, hst, h6, hdone, hfn]

/-- A stopping link's last markers, and the fields it then shows. -/
def linkIdle (l : Nat) : Dev :=
  let e := (d.markerRound l).lset l R.LNK_FL_STATE_PHASE 0
  (((e.lset l R.LNK_FL_STATE_POWER 0).lset l R.LNK_FL_STATE_N 0).lset l R.LNK_FL_STATE_DEGRADED 0).wr (linkDie l) (R.SCN_LINK_HALF (linkOn l)) 0

theorem markerRound_fns (n : Nat) : (d.markerRound n).fns = d.fns := foldl_keeps Dev.fns (by intros; rfl) _ d

theorem fn_linkIdle (l k : Nat) : (linkIdle d l).fn k = d.fn k :=
  fn_congr (by simp only [linkIdle, Dev.lset, wr_fns, markerRound_fns]) k

theorem linkIdle_shows (l : Nat) :
    let t := linkIdle d l
    t.lget l R.LNK_FL_STATE_PHASE = 0 ∧ t.lget l R.LNK_FL_STATE_POWER = 0 ∧ t.lget l R.LNK_FL_STATE_N = 0 := by
  simp (disch := simp) [linkIdle, lget_wr_half, lget_lset_self, lget_lset_other]

theorem linkTransitionDone_stopped {l : Nat} {r : List Cmd} {s : State} (hl : l ≤ 7)
    (hfn : s.dev.fn (FnId.link l) = { st := .stopping, stored := none, running := r }) :
    exec (.linkTransitionDone l) s =
      .next (s.withDev (((linkIdle s.dev l).setFn (FnId.link l) { st := .off }).completeAll r St.done 0 [])) := by
  have hst : s.dev.linkSt l = .stopping := congrArg Fn.st hfn
  have hfnIdle : (linkIdle s.dev l).fn (FnId.link l) = { st := .stopping, stored := none, running := r } := (fn_linkIdle s.dev l _).trans hfn
  have hdone := fnDone_stop _ (congrArg Fn.st hfnIdle) (congrArg Fn.stored hfnIdle) []
  simp only [linkIdle] at hdone hfnIdle
  rw [exec_linkTransitionDone, execLinkTransitionDone, event_next]
  simp [Nat.not_lt.2 hl, hst, hdone, hfnIdle, linkIdle]

/-- What completes when a transition ends changes neither registers nor functions. -/
theorem completeAll_shows (k : Nat) (x : Fn) (cs : List Cmd) (b : Bytes) :
    let t := (d.setFn k x).completeAll cs St.done 0 b
    t.fn k = x ∧ t.regs = d.regs := by
  refine ⟨(fn_congr ?_ k).trans (fn_setFn_self d k x), ?_⟩ <;> rw [completeAll_frame]
  rfl

/-! LINK_STATUS (R343). -/

theorem linkStatus_reports (h : Hdr) (p : Bytes) (s : State) (hm : mayBegin (.linkStatus h p) s = true)
    (hup : (begunDev (.linkStatus h p) s).flueUp (linkDie (u8 p 0)) = true) (hans : h.answered = none) :
    let d := begunDev (.linkStatus h p) s
    ∃ data, exec (.linkStatus h p) s = .next (s.withDev (d.finalReply (begunCmd (.linkStatus h p) s) St.done 0 data)) ∧ data.length = 32 ∧
      u8 data 0 = d.lget (u8 p 0) R.LNK_FL_STATE_PHASE ∧ u8 data 1 = (d.linkSt (u8 p 0)).num := by
  intro d
  have hphase : d.lget (u8 p 0) R.LNK_FL_STATE_PHASE < 256 := Nat.lt_trans (rd_lt d _ _) (by simp)
  rw [exec_linkStatus, execLinkStatus, anvil_of_mayBegin (p := p) rfl rfl rfl hm, flueRead_reached _ _ (by simpa using hup) hans]
  refine ⟨_, rfl, by simp, ?_, ?_⟩
  · simp only [List.append_assoc, u8_enc_one]
    exact Nat.mod_eq_of_lt hphase
  · simp only [List.append_assoc]
    rw [u8_append_right _ (enc_length 1 _).le, enc_length, u8_enc_one]
    exact Nat.mod_eq_of_lt (fnSt_num_lt _)

/-! The start-up sequence (R329). -/

theorem linkStartupSequence_starts {l : Nat} {s : State} (hl : l ≤ 7) (hk : s.dev.lnk.startup = l + 1) (hoff : s.dev.linkSt l = .off)
    (hhalf : s.dev.rd 0 (R.DMP_HALF_ON (l / 4)) = 1) :
    let e : Dev := { s.dev with lnk := { s.dev.lnk with startup := l + 2 } }
    exec .linkStartupSequence s = .next (s.withDev ((e.setFn (FnId.link l) { st := .starting }).beginLink l)) := by
  intro e
  have hgo : e.linkSt l = .off ∧ e.rd 0 (R.DMP_HALF_ON (l / 4)) = 1 := ⟨hoff, hhalf⟩
  rw [exec_linkStartupSequence, execLinkStartupSequence, event_next]
  dsimp only
  rw [if_neg (by omega), if_neg (by omega)]
  simp only [hk, Nat.add_sub_cancel]
  rw [if_pos hgo]

end Sys2Proof.Machine

namespace Sys2Proof.Proofs

open Sys2Proof.Machine

/-- Settles O48: each event writes a link's fields and sends, so its fields read back as written; a report, a reply or a completion moves none of
them, and a session that a reply closes starts and stops no function (`fnSt_finalReply`). -/
theorem linksTrainAndStart : Obligations.LinksTrainAndStart := by
  unfold Obligations.LinksTrainAndStart
  refine ⟨?hello, ?status, ?eqReq, ?stays, ?moves, ?check, ?timeout, ?retry, ?enable, ?enableFault, ?inUse, ?started, ?stopped, ?report,
    ?startup⟩
  case hello =>
    intro l id caps s hl hlen
    obtain ⟨t, hexec, ht, hdetect⟩ := hello_cases id caps (s := s) hl
    obtain ⟨hlo, hhi, hcaps, hback⟩ := helloHeard_stores s.dev l id caps
    have hheard := helloHeard_heard s.dev id caps (l := l) (by omega)
    have hkeeps (g : Nat → Fld) (hg : (g (linkOn l)).off ≠ 0x3000000 + 0x100 * linkOn l ∨ (g (linkOn l)).hi < 32 ∧ 2 < (g (linkOn l)).lo) :
        t.lget l g = (helloHeard s.dev l id caps).lget l g := by
      obtain rfl | rfl := ht
      · rfl
      · exact lget_enterPhase_train _ l (.inl (by decide)) hg
    have hlnk : t.lnk = (helloHeard s.dev l id caps).lnk := by
      obtain rfl | rfl := ht
      · rfl
      · rw [enterPhase_frame]
    refine ⟨t, hexec, ?_, (hkeeps _ (by simp)).trans hlo, (hkeeps _ (by simp)).trans hhi, (hkeeps _ (by simp)).trans hcaps,
      (hkeeps _ (by simp)).trans hback, ?_, fun h7 htaps => hdetect h7 htaps ▸ phase_enterPhase _ l (by decide)⟩
    · obtain rfl | rfl := ht
      · rfl
      · rw [enterPhase_frame]
        rfl
    · simp only [Dev.core, hlnk] at hheard ⊢
      exact hheard
  case status =>
    intro l lk bl dk sh eh ev bd s hl hlen hst
    have hlink : l < s.dev.lnk.links.length := by omega
    let b : Dev := s.dev.lbump l R.LNK_FL_BK_ERR bd
    have hphase : b.lget l R.LNK_FL_STATE_PHASE = s.dev.lget l R.LNK_FL_STATE_PHASE := lget_lbump_other s.dev l _ _ bd (by simp)
    have hfailed : b.lget l R.LNK_FL_MAP_FAILED = s.dev.lget l R.LNK_FL_MAP_FAILED := lget_lbump_other s.dev l _ _ bd (by simp)
    have herrs : b.lget l R.LNK_FL_SH_ERR = s.dev.lget l R.LNK_FL_SH_ERR := lget_lbump_other s.dev l _ _ bd (by simp)
    obtain ⟨hlnk, hkeeps⟩ := statusLosses_keeps b l lk
    obtain ⟨heye, hcount, hmap⟩ := statusStored_shows (b.statusLosses l lk) l lk bl dk sh eh ev
    obtain ⟨hlocked, hblocks, hdeskewed⟩ := statusStored_core (b.statusLosses l lk) (l := l) lk bl dk sh eh ev (by rw [hlnk]; exact hlink)
    refine ⟨_, backStatus_stores lk bl dk sh eh ev bd hl hst, ?_, ?_, hlocked, hblocks, hdeskewed, heye, ?_⟩
    · intro h3
      rw [statusLosses_early b lk (hphase.trans_le h3)]
      rfl
    · intro h6
      rw [hmap, statusLosses_failed b lk (hphase.trans h6), hfailed]
    · rw [hcount, hkeeps _ (by simp) (by simp), herrs]
  case eqReq =>
    intro l p done a b c s hl hp h3 heq ha hb hc hroom
    have hfit : a + 256 * (b + 1) + 65536 * c < 2 ^ 21 := by omega
    refine ⟨_, eqReq_raises done hl hp h3 heq ha hb hc hroom, ?_, ?_⟩
    · have hset : (s.dev.lset l (fun k => R.LNK_FL_EQ k p) (a + 256 * (b + 1) + 65536 * c)).lget l (fun k => R.LNK_FL_EQ k p) =
          a + 256 * (b + 1) + 65536 * c := (lget_lset_self s.dev l _ _ (by simp) (by simp)).trans (Nat.mod_eq_of_lt hfit)
      cases done <;> exact hset
    · cases done <;> rfl
  case stays => exact fun l s hl h => trainPhaseAdvance_stays hl h
  case moves => exact fun l s hl hdone hph => ⟨_, trainPhaseAdvance_moves hl hdone, phase_phaseNext s.dev hph⟩
  case check =>
    intro l s hl hdone h5
    exact ⟨_, phaseNext_check s.dev h5 ▸ trainPhaseAdvance_moves hl hdone, linkReachesOn_shows s.dev l⟩
  case timeout => exact fun l s hl hlo hhi hs => ⟨_, linkPhaseTimeout_listens hl hlo hhi, enterListen_counted s.dev _ hs⟩
  case retry =>
    exact fun l s hl h7 htaps hlen => ⟨_, listenRetry_begins hl h7 htaps, phase_beginLink s.dev l, beginLink_unheard s.dev (by omega)⟩
  case enable => exact linkEnable_begins
  case enableFault => exact linkEnable_unreachable
  case inUse => exact linkEnable_inUse
  case started => exact fun l r s hl hfn h6 => linkTransitionDone_started hl hfn h6
  case stopped =>
    intro l r s hl hfn
    obtain ⟨hfnOff, hregs⟩ := completeAll_shows (linkIdle s.dev l) (FnId.link l) { st := .off } r []
    obtain ⟨hphase, hpower, hlanes⟩ := linkIdle_shows s.dev l
    exact ⟨_, linkTransitionDone_stopped hl hfn, congrArg Fn.st hfnOff, (lget_congr hregs _ _).trans hphase,
      (lget_congr hregs _ _).trans hpower, (lget_congr hregs _ _).trans hlanes⟩
  case report => exact fun h p s hm hup hans => linkStatus_reports h p s hm hup hans
  case startup =>
    intro l s hl hk hoff hhalf
    refine ⟨_, linkStartupSequence_starts hl hk hoff hhalf, ?_, ?_, phase_beginLink _ l⟩
    · rw [beginLink_lnk]
      rfl
    · rw [Dev.linkSt, fn_congr (congrArg Dev.fns (beginLink_frame _ l)) _]
      exact congrArg Fn.st (fn_setFn_self _ _ _)

end Sys2Proof.Proofs
end

section
/-! A step of the idle block: a tick of the time bases (O2). -/

namespace Sys2Proof.Machine

/-- R362: a tick advances each base by its increment, within the range of a base. -/
theorem now_tick (d : Dev) {b : Nat} (ht : b < d.time.t.length) (hincr : b < d.time.incr.length) :
    d.tick.now b = (d.now b + d.time.incr.getD b 0) % (2 ^ 48 * 10 ^ 9 * 2 ^ 32) := by
  simp only [Dev.tick, Dev.now, List.getD, List.getElem?_map, List.getElem?_zipWith, List.getElem?_eq_getElem ht,
    List.getElem?_eq_getElem hincr, Option.map_some, Option.getD_some]

/-- With no command resumable and no packet received, what the block does by itself is a tick. -/
theorem idleNext_quiet {d : Dev} (hresume : d.resumable = none) (hcp : d.cp.inbound = []) (hpkt : d.anvil.inbound = []) :
    idleNext d = .quiet d.tick := by
  simp only [idleNext, hresume, hcp, hpkt, ite_self]

end Sys2Proof.Machine

namespace Sys2Proof.Proofs

open Sys2Proof.Machine

/-- Settles O2: the idle block has nothing to run, so it ticks (`idleNext_quiet`), and a tick moves the bases alone. -/
theorem idleStepTicksTheClock : Obligations.IdleStepTicksTheClock := by
  intro s hqueue hresume hcp hpkt
  refine ⟨?_, rfl, fun b hb ht hincr => now_tick s.dev (by omega) (by omega)⟩
  simp only [step, hqueue, idleNext_quiet hresume hcp hpkt, State.withDev]

end Sys2Proof.Proofs
end

section
/-! Event sources of level type (R473), and the interfaces' links and reports (R350, R351). -/

namespace Sys2Proof.Machine

variable (d : Dev)

/-! Levels (R473). -/

@[simp] theorem src_openGroup (g k : Nat) : (d.openGroup g).src k = d.src k := by
  unfold Dev.openGroup
  dsimp only
  split <;> rfl

/-- A raise moves no source's level. -/
theorem level_raise (s k : Nat) : ((d.raise s).src k).level = (d.src k).level := by
  unfold Dev.raise
  split
  · rfl
  · split
    · rfl
    · rw [Dev.raiseAt, src_openGroup]
      by_cases hk : k = s
      · rw [hk, src_setSrc_self]
      · rw [src_setSrc_other _ _ hk]

/-- A level set reads as set, whether or not it raises its source. -/
theorem level_setLevel_self (s : Nat) (high : Bool) : ((d.setLevel s high).src s).level = high := by
  unfold Dev.setLevel
  extract_lets was x e
  have he : (e.src s).level = high := by
    simp only [e]
    split
    · next hwas => exact hwas
    · rw [src_setSrc_self]
  split
  · exact (level_raise e s s).trans he
  · exact he

/-- Another register than the count of unassigned sources is as before a change of level (R472). -/
theorem rd_setLevel (s : Nat) (high : Bool) {k : Nat} {g : Fld} (h : regAddr k g.off ≠ regAddr 0 R.IRQ_UNASSIGNED.off) :
    (d.setLevel s high).rd k g = d.rd k g := by
  unfold Dev.setLevel
  extract_lets was x e
  have he : e.rd k g = d.rd k g := by
    simp only [e]
    split <;> rfl
  split
  · exact (rd_raise e s h).trans he
  · exact he

/-! Links of interfaces (R350). -/

/-- An interface's lanes are its own number and at most the three after it. -/
theorem ifLanes_le {i l : Nat} (hl : l ∈ d.ifLanes i) : l ≤ i + 3 := by
  unfold Dev.ifLanes at hl
  split at hl
  · simp at hl; omega
  · simp [fromN] at hl; omega

/-- R347: the lanes of a link that comes up show in their own registers alone. -/
theorem laneMarks_keep (i : Nat) (l : List Nat) (hl : ∀ x ∈ l, x ≤ i + 3) :
    let t := l.foldl (fun d x => d.wr 0 (R.LNK_H x) 7) d
    t.rd 0 (R.NET_IF_LINK i) = d.rd 0 (R.NET_IF_LINK i) ∧ t.ev = d.ev := by
  refine List.foldlRecOn l _ (motive := fun t : Dev => t.rd 0 (R.NET_IF_LINK i) = d.rd 0 (R.NET_IF_LINK i) ∧ t.ev = d.ev) ⟨rfl, rfl⟩ ?_
  rintro e ⟨hrd, hev⟩ x hx
  have := hl x hx
  exact ⟨(rd_wr_addr e 7 (regAddr_off (by show 0x3100000 + 0x4 * i ≠ 0x3000000 + 0x4 * x; omega))).trans hrd, hev⟩

/-- R350, R473: a link that changes shows so in its register, and the level of its source is that of a link lost. -/
theorem linkChange_shown {i : Nat} {up : Bool} (h : d.rd 0 (R.NET_IF_LINK i) ≠ b2n up) :
    let t := d.linkChange i up
    t.rd 0 (R.NET_IF_LINK i) = b2n up ∧ (t.src (128 + i)).level = !up := by
  have hrd : ((d.wr 0 (R.NET_IF_LINK i) (b2n up)).setLevel (128 + i) (!up)).rd 0 (R.NET_IF_LINK i) = b2n up := by
    rw [rd_setLevel _ _ _ (regAddr_off (by show 0x3100000 + 0x4 * i ≠ 0x0E00208; omega)),
      rd_wr_self _ _ _ _ (Nat.le_refl 0) (by show 0 < 32; omega)]
    cases up <;> rfl
  have hlevel := level_setLevel_self (d.wr 0 (R.NET_IF_LINK i) (b2n up)) (128 + i) (!up)
  unfold Dev.linkChange
  rw [if_neg h]
  dsimp only
  split
  · obtain ⟨hkeep, hev⟩ := laneMarks_keep ((d.wr 0 (R.NET_IF_LINK i) (b2n up)).setLevel (128 + i) (!up)) i _ fun x hx => ifLanes_le _ hx
    exact ⟨hkeep.trans hrd, by rw [Dev.src, hev]; exact hlevel⟩
  · exact ⟨hrd, hlevel⟩

/-! Reports of groups (R351). -/

/-- Each interface that reports sends one report. -/
theorem igmpReports_length (l : List Nat) : (l.foldl Dev.igmpReport d).out.length = d.out.length + l.length := by
  induction l generalizing d with
  | nil => rfl
  | cons i l ih =>
    have hone : (d.igmpReport i).out.length = d.out.length + 1 := rfl
    rw [List.foldl_cons, ih, hone, List.length_cons]
    omega

/-! What the gate has checked of NET_PAIR_SET. -/

theorem netPairSet_checked {h : Hdr} {p : Bytes} {s : State} (hm : mayBegin (.netPairSet h p) s = true) : u16 p 2 ≤ 150 := by
  have hc := failIf_eq_none.1 (check_of_mayBegin (sp := specNetPairSet) rfl rfl hm)
  simp [Instr.params] at hc
  obtain ⟨⟨-, hwindow⟩, -⟩ := hc
  exact (of_decide_eq_true hwindow).2

end Sys2Proof.Machine
end

section
/-! Ports, interfaces, path pairs and the command group (O50). -/

namespace Sys2Proof.Proofs

open Sys2Proof.Machine

/-- Settles O50: each command is the branch of its body that its condition selects, each port transition R55's (`request_start`,
`fnDone_start`), and a link's change is shown (`linkChange_shown`). -/
theorem networkCommands : Obligations.NetworkCommands := by
  refine ⟨?portSet, ?portOn, ?portEnable, ?portDone, ?ifSet, ?ifSave, ?pairUsed, ?pairSet, ?group, ?status, ?pairStatus, ?up, ?down⟩
  case portSet =>
    intro h p
    exact ends_of_anvil (sp := specNetPortSet) rfl rfl (exec_netPortSet · h p) fun _ d hok => if_neg fun ⟨hmode, hst⟩ => hok.elim hmode hst
  case portOn =>
    intro h p
    exact ends_of_anvil (sp := specNetPortSet) rfl rfl (exec_netPortSet · h p) fun _ _ hon => if_pos hon
  case portEnable =>
    intro h p
    refine ends_of_anvil (sp := specNetPortEnable) rfl rfl (exec_netPortEnable · h p) ?_
    rintro c d ⟨hon, hst⟩
    simp [hon, request_start (d := d) true c hst]
  case portDone =>
    intro k r s hon hk hfn
    rw [exec_portTransitionDone, execPortTransitionDone, hearthEvent_on hon]
    simp only [Nat.not_lt.mpr hk, if_false, fnDone_start (d := s.dev) (k := FnId.port k) (by rw [hfn]) (by rw [hfn]), hfn]
  case ifSet =>
    intro h p
    refine ends_of_anvil (sp := specNetIfSet) rfl rfl (exec_netIfSet · h p) fun _ d hsave => ?_
    simp only [hsave, Nat.zero_ne_one, if_false]
  case ifSave =>
    intro h p
    refine ends_of_anvil (sp := specNetIfSet) rfl rfl (exec_netIfSet · h p) fun _ d hsave => ?_
    simp only [hsave, if_true]
  case pairUsed =>
    intro h p
    exact ends_of_anvil (sp := specNetPairSet) rfl rfl (exec_netPairSet · h p) fun _ _ hused => if_pos hused
  case pairSet =>
    intro h p s hm d c hused
    have hw := netPairSet_checked hm
    refine ⟨d.wr 0 (R.NET_PAIR_WINDOW (u8 p 0)) (u16 p 2), ?_, rfl, ?_⟩
    · rw [exec_netPairSet, execNetPairSet, anvil_of_mayBegin (p := p) rfl rfl rfl hm, if_neg (ne_true_of_eq_false hused)]
      rfl
    · rw [rd_wr_self d 0 (R.NET_PAIR_WINDOW (u8 p 0)) _ (by show 16 ≤ 23; omega) (by show 23 < 32; omega)]
      exact Nat.mod_eq_of_lt (by show u16 p 2 < 256; omega)
  case group =>
    intro h p s hm d c
    refine ⟨_, ?_, igmpReports_frame { d with net := { d.net with group := u32 p 0 } } _, igmpReports_length _ _⟩
    rw [exec_netAnvilSet, execNetAnvilSet, anvil_of_mayBegin (p := p) rfl rfl rfl hm]
    rfl
  case status =>
    intro h p
    exact ends_of_anvil (sp := specNetStatus) rfl rfl (exec_netStatus · h p) fun _ _ _ => rfl
  case pairStatus =>
    intro h p
    exact ends_of_anvil (sp := specNetPairStatus) rfl rfl (exec_netPairStatus · h p) fun _ _ _ => rfl
  case up =>
    intro i s hon hexists hport hlink
    refine ⟨_, ?_, linkChange_shown s.dev (up := true) (by rw [hlink]; decide)⟩
    rw [exec_portLinkChange, execPortLinkChange, hearthEvent_on hon, if_neg (by simp [hexists, hport])]
  case down =>
    intro i s hon hexists hlink
    refine ⟨_, ?_, linkChange_shown s.dev (up := false) (by rw [hlink]; decide)⟩
    rw [exec_portLinkChange, execPortLinkChange, hearthEvent_on hon, if_neg (by simp [hexists])]

end Sys2Proof.Proofs
end

section
/-!
What a step of a base, a pulse output and a capture leave of the registers of the time bases and of their lists (R364, R369, R370), and what
the gate has checked of their commands.
-/

namespace Sys2Proof.Machine

variable (d : Dev)

/-! Pulse outputs and capture inputs set (R369, R370). -/

theorem tpo_setTpo {n : Nat} (f : Tpo → Tpo) (h : n < d.time.tpo.length) : (d.setTpo n f).time.tpo.getD n {} = f (d.time.tpo.getD n {}) := by
  simp [Dev.setTpo, List.getD, h]

theorem tci_setTci {n : Nat} (f : Tci → Tci) (h : n < d.time.tci.length) : (d.setTci n f).time.tci.getD n {} = f (d.time.tci.getD n {}) := by
  simp [Dev.setTci, List.getD, h]

@[simp] theorem tci_length_setTci (n : Nat) (f : Tci → Tci) : (d.setTci n f).time.tci.length = d.time.tci.length :=
  List.length_modify ..

/-- R369: a one-shot that fires keeps that it has, and shows it. -/
theorem tpoFire_fired {n : Nat} (h : n < d.time.tpo.length) :
    let t := d.tpoFire n false
    (t.time.tpo.getD n {}).fired = true ∧ t.rd 0 (R.PTP_TPO_FIRED n) = 1 := by
  refine ⟨?_, ?_⟩
  · rw [Dev.tpoFire, raise_time]
    exact congrArg Tpo.fired (tpo_setTpo d _ h)
  · rw [Dev.tpoFire, rd_raise _ _ (regAddr_off (by show 0x3200200 + 0x20 * n ≠ 0x0E00208; omega))]
    exact rd_wr_self _ 0 (R.PTP_TPO_FIRED n) 1 (Nat.le_refl 4) (by show 4 < 32; omega)

/-- R369: a one-shot that fires leaves the counts of the steps. -/
theorem steps_tpoFire {b : Nat} (n : Nat) (late : Bool) (hb : b < 4) : (d.tpoFire n late).rd 0 (R.PTP_STEPS b) = d.rd 0 (R.PTP_STEPS b) := by
  have hne : regAddr 0 (R.PTP_STEPS b).off ≠ regAddr 0 (R.PTP_TPO_FIRED n).off :=
    regAddr_off (by show 0x3200110 + 0x4 * b ≠ 0x3200200 + 0x20 * n; omega)
  unfold Dev.tpoFire
  rw [rd_raise _ _ (regAddr_off (by show 0x3200110 + 0x4 * b ≠ 0x0E00208; omega))]
  cases late
  · exact rd_wr_addr _ 1 hne
  · exact (rd_wr_addr (g := R.PTP_STEPS b) (f := R.PTP_TPO_LATE n) _ 1 hne).trans (rd_wr_addr _ 1 hne)

/-- R387: the mode and the base of an output share a register. -/
theorem rd_tpoSetting (n : Nat) {m b : Nat} (hm : m < 4) (hb : b < 4) :
    let t := (d.wr 0 (R.PTP_TPO_MODE n) m).wr 0 (R.PTP_TPO_BASE n) b
    t.rd 0 (R.PTP_TPO_MODE n) = m ∧ t.rd 0 (R.PTP_TPO_BASE n) = b := by
  refine ⟨?_, ?_⟩
  · rw [rd_wr_field (f := R.PTP_TPO_BASE n) (g := R.PTP_TPO_MODE n) _ _ rfl (by show 1 < 32; omega) (.inl (by show 1 < 2; omega)),
      rd_wr_self _ 0 (R.PTP_TPO_MODE n) _ (by show 0 ≤ 1; omega) (by show 1 < 32; omega)]
    exact Nat.mod_eq_of_lt hm
  · rw [rd_wr_self _ 0 (R.PTP_TPO_BASE n) _ (by show 2 ≤ 3; omega) (by show 3 < 32; omega)]
    exact Nat.mod_eq_of_lt hb

/-! Steps (R364). -/

/-- R364: a step is counted. -/
theorem steps_stepBase {b : Nat} (v : Nat) (hb : b < 4) :
    (d.stepBase b v).rd 0 (R.PTP_STEPS b) = min (d.rd 0 (R.PTP_STEPS b) + 1) (2 ^ 32 - 1) := by
  unfold Dev.stepBase
  extract_lets old was e moved clk ras e' now grid shut time e''
  have he : e.rd 0 (R.PTP_STEPS b) = min (d.rd 0 (R.PTP_STEPS b) + 1) (2 ^ 32 - 1) := by
    simp only [e]
    rw [rd_raise _ _ (regAddr_off (by show 0x3200110 + 0x4 * b ≠ 0x0E00208; omega))]
    exact rd_bump_self (d.setBase b v) 0 (R.PTP_STEPS b) 1 (Nat.zero_le 31) (Nat.lt_succ_self 31)
  have he'' : e''.regs = e.regs := by
    simp only [e'', e']
    split <;> rfl
  refine (foldl_keeps (fun x : Dev => x.rd 0 (R.PTP_STEPS b)) ?_ _ _).trans ((rd_congr he'' _ _).trans he)
  intro x n
  dsimp only
  split
  · exact steps_tpoFire x n true hb
  · rfl

/-- R364: an ADD moves its base by the signed nanoseconds and the fraction, within the range of a base. -/
theorem now_addBase {b : Nat} (ns : Int) (frac : Nat) (hb : b < d.time.t.length) :
    ((d.addBase b ns frac).now b : Int) = ((d.now b : Int) + ns * 2 ^ 32 + frac * 2 ^ 16) % (baseWrap : Int) := by
  have hwrap : 0 < (baseWrap : Int) := by decide
  have hlo := Int.emod_nonneg ((d.now b : Int) + ns * 2 ^ 32 + frac * 2 ^ 16) hwrap.ne'
  rw [Dev.addBase, now_stepBase d _ hb, Int.natCast_emod, Int.toNat_of_nonneg hlo, Int.emod_emod]

/-! Bases latched (R387). -/

/-- R387: a base latched reads in its four registers. -/
theorem latchTime_reads (b : Nat) :
    let t := d.latchTime b
    t.rd 0 (R.PTP_T_SEC_LO b) = d.now b / secTicks % 2 ^ 32 ∧ t.rd 0 (R.PTP_T_SEC_HI b) = d.now b / secTicks / 2 ^ 32 % 65536 ∧
      t.rd 0 (R.PTP_T_NS b) = d.now b % secTicks / 2 ^ 32 ∧ t.rd 0 (R.PTP_T_FRAC b) = d.now b % 2 ^ 32 / 2 ^ 16 := by
  have hns : d.now b % secTicks / 2 ^ 32 < 2 ^ 30 := by simp only [secTicks]; omega
  have hfrac : d.now b % 2 ^ 32 / 2 ^ 16 < 2 ^ 16 := by omega
  simp (disch := simp [regAddr]) only [Dev.latchTime, rd_wr_self, rd_wr_addr]
  exact ⟨trivial, rfl, Nat.mod_eq_of_lt hns, Nat.mod_eq_of_lt hfrac⟩

/-! Captures (R370). -/

/-- R370: an edge at an input that selects it, has no window and has room is recorded with the four stamps, and the count of its records
shown. -/
theorem capture_records {n : Nat} (hn : n ≤ 4) (hlen : n < d.time.tci.length) (hedge : (d.time.tci.getD n {}).edge = 1)
    (hwin : (d.time.tci.getD n {}).window = false) (hlast : (d.time.tci.getD n {}).last = none)
    (hroom : (d.time.tci.getD n {}).fifo.length < 32) :
    let t := d.capture_ n true
    (t.time.tci.getD n {}).fifo =
        (d.time.tci.getD n {}).fifo ++ [⟨(d.time.tci.getD n {}).seq, 1, (List.range 4).map d.short⟩] ∧
      t.rd 0 (R.PTP_TCI_FILL n) = (d.time.tci.getD n {}).fifo.length + 1 := by
  unfold Dev.capture_
  extract_lets x sel close e st r e' t
  have hsel : sel = true := by simp only [sel, x, hedge, if_true, decide_true, Bool.true_or]
  have hclose : close = false := by simp only [close, x, hlast]
  have ht : t = (e'.wr 0 (R.PTP_TCI_FILL n) (x.fifo.length + 1)).raise (169 + n) := by
    simp only [t]
    rw [if_neg (by simp [hsel, hclose, hn]), if_neg (by simp only [x, hwin, Bool.false_and, Bool.false_eq_true, not_false_eq_true]),
      if_neg (Nat.not_le.mpr hroom)]
  rw [ht]
  refine ⟨?_, ?_⟩
  · rw [raise_time, wr_time]
    simp only [e', e]
    rw [tci_setTci _ _ (by simpa using hlen), tci_setTci _ _ hlen]
    rfl
  · rw [rd_raise _ _ (regAddr_off (by show 0x3200400 + 0x10 * n ≠ 0x0E00208; omega)),
      rd_wr_self _ 0 (R.PTP_TCI_FILL n) _ (by show 4 ≤ 10; omega) (by show 10 < 32; omega)]
    exact Nat.mod_eq_of_lt (by show (d.time.tci.getD n {}).fifo.length + 1 < 2 ^ 7; omega)

/-- R368, R370: without SOURCE PPS_IN an edge is a matter of its capture input alone. -/
theorem execCaptureEdge_capture {n : Nat} {s : State} (hon : s.dev.hearthOff = false) (hpps : n = 4 → s.dev.time.ptp.usesPps = false) :
    execCaptureEdge n true s = .next (s.withDev (s.dev.capture_ n true)) := by
  rw [execCaptureEdge, hearthEvent_on hon]
  by_cases hn : n = 4
  · have hsrc : (s.dev.capture_ 4 true).time.ptp.usesPps = false := by rw [(capture_time s.dev 4 true).1]; exact hpps hn
    simp [hn, Dev.ppsEdge, hsrc]
  · simp [hn]

/-! What the gate has checked. -/

section
variable {h : Hdr} {p : Bytes} {s : State}

theorem timeSet_checked (hm : mayBegin (.timeSet h p) s = true) : u8 p 0 < 4 := by
  have hc := failIf_eq_none.1 (check_of_mayBegin (sp := specTimeSet) rfl rfl hm)
  simp [Instr.params] at hc
  omega

theorem tpoSet_checked (hm : mayBegin (.tpoSet h p) s = true) : u8 p 0 < 8 ∧ u8 p 1 < 4 ∧ u8 p 2 < 4 := by
  have hc := failIf_eq_none.1 (check_of_mayBegin (sp := specTpoSet) rfl rfl hm)
  simp [Instr.params] at hc
  omega

theorem tciSet_checked (hm : mayBegin (.tciSet h p) s = true) : u8 p 0 < 5 := by
  have hc := failIf_eq_none.1 (check_of_mayBegin (sp := specTciSet) rfl rfl hm)
  simp [Instr.params] at hc
  omega

theorem tciRead_checked (hm : mayBegin (.tciRead h p) s = true) : u8 p 0 < 5 := by
  have hc := failIf_eq_none.1 (check_of_mayBegin (sp := specTciRead) rfl rfl hm)
  simp [Instr.params] at hc
  omega

end

/-! TIME_SET (R379). -/

/-- R364, R379: a base that is the host's takes the VALUE given by a step. -/
theorem timeSet_steps (h : Hdr) (p : Bytes) : Ends (.timeSet h p)
    (fun _ d => u8 p 1 = 0 ∧ d.servoOwned (u8 p 0) = false ∧ (u8 p 0 = 0 → d.time.ptp.usesPps = false))
    (fun _ d => d.stepBase (u8 p 0) (ofFull p 4)) fun _ d => .done (fullForm ((d.stepBase (u8 p 0) (ofFull p 4)).now (u8 p 0))) := by
  refine ends_of_anvil (sp := specTimeSet) rfl rfl (exec_timeSet · h p) ?_
  rintro c d ⟨hop, howned, hpps⟩
  have hsrc : ¬(u8 p 0 = 0 ∧ d.time.ptp.usesPps = true) := fun ⟨h0, h1⟩ => Bool.false_ne_true ((hpps h0).symm.trans h1)
  simp only [hop, true_and, hsrc, howned, if_false, Bool.false_eq_true, Nat.reduceEqDiff]

end Sys2Proof.Machine
end

section
/-! Time bases set, read and latched; pulses and captures (O52). -/

namespace Sys2Proof.Proofs

open Sys2Proof.Machine

/-- Settles O52: a step moves its base alone and is counted (`now_stepBase`, `steps_stepBase`), a latch fills the base's four registers
(`latchTime_reads`), and an output or input set or served reads back as it is left (`tpo_setTpo`, `tci_setTci`). -/
theorem timeBasesPulsesAndCaptures : Obligations.TimeBasesPulsesAndCaptures := by
  refine ⟨?read, ?set, ?incr, ?owned, ?go, ?goRefused, ?incrWrite, ?incrRefused, ?latch, ?past, ?tpoSet, ?fire, ?tciSet, ?tciRead, ?edge⟩
  case read =>
    intro h p
    exact ends_of_anvil (sp := specTimeRead) rfl rfl (exec_timeRead · h p) fun _ _ _ => rfl
  case set =>
    intro h p s hm d c hop howned hpps hlen
    have hb := timeSet_checked hm
    exact ⟨_, timeSet_steps h p s hm ⟨hop, howned, hpps⟩, now_stepBase d _ (by omega), steps_stepBase d _ hb⟩
  case incr =>
    intro h p
    refine ends_of_anvil (sp := specTimeSet) rfl rfl (exec_timeSet · h p) ?_
    rintro c d ⟨hop, howned⟩
    simp [hop, howned, Dev.now]
  case owned =>
    intro h p
    refine ends_of_anvil (sp := specTimeSet) rfl rfl (exec_timeSet · h p) ?_
    rintro c d (⟨hop, howned⟩ | ⟨hop, hhost⟩)
    · obtain hop | hop := hop <;> simp [hop, howned]
    · simp [hop, hhost]
  case go =>
    intro b fr s hon hb howned hlen
    have hnb : ¬ b > 3 := by omega
    refine ⟨(s.dev.wr 0 (R.PTP_ADJ_CTRL_FRAC b) fr).addBase b (s.dev.rdI 0 (R.PTP_ADJ_NS b)) (fr % 65536), ?_, ?_, ?_⟩
    · rw [exec_ptpAdjGo, execPtpAdjGo, hearthEvent_on hon, if_neg hnb, Dev.adjGo, if_neg (by simp [howned]; omega)]
    · exact now_addBase _ _ _ (by rw [wr_time, hlen]; omega)
    · rw [Dev.addBase, steps_stepBase _ _ (by omega),
        rd_wr_addr _ _ (regAddr_off (by show 0x3200110 + 0x4 * b ≠ 0x320001C + 0x20 * b; omega))]
  case goRefused =>
    intro b fr
    refine occurs_of_hearthEvent (exec_ptpAdjGo · b fr) ?_
    rintro d ⟨hon, hrefused⟩
    refine ⟨hon, ?_⟩
    rw [if_neg (by omega), Dev.adjGo, if_pos (hrefused.imp_right And.right)]
  case incrWrite =>
    intro b ns
    refine occurs_of_hearthEvent (exec_ptpIncrWrite · b ns) ?_
    rintro d ⟨hon, hb, howned, hlo, hhi⟩
    refine ⟨hon, ?_⟩
    rw [if_neg (by omega), Dev.incrWrite, if_neg (by simp [howned]; omega)]
    exact if_pos ⟨hlo, hhi⟩
  case incrRefused =>
    intro b ns
    refine occurs_of_hearthEvent (exec_ptpIncrWrite · b ns) ?_
    rintro d ⟨hon, hrefused⟩
    refine ⟨hon, ?_⟩
    rw [if_neg (by omega), Dev.incrWrite, if_pos (hrefused.imp_right And.right)]
  case latch =>
    intro b s hon hb
    refine ⟨s.dev.latchTime b, ?_, rfl, latchTime_reads s.dev b⟩
    rw [exec_ptpTimeLatchRead, execPtpTimeLatchRead, hearthEvent_on hon, if_neg (by omega)]
  case past =>
    intro h p
    exact ends_of_anvil (sp := specTpoSet) rfl rfl (exec_tpoSet · h p) fun _ _ hpast => if_pos hpast
  case tpoSet =>
    intro h p s hm d c hahead hlen
    obtain ⟨hn, hbase, hmode⟩ := tpoSet_checked hm
    have hnow : ¬(u8 p 2 = 1 ∧ shortDiff (u64 p 4) (d.short (u8 p 1)) < 1000 * 65536) :=
      fun ⟨hone, hpast⟩ => Int.not_lt.mpr (hahead hone) hpast
    rw [exec_tpoSet, execTpoSet, anvil_of_mayBegin (p := p) rfl rfl rfl hm]
    dsimp only
    rw [if_neg hnow]
    refine ⟨_, rfl, ?_, rd_tpoSetting _ _ hmode hbase⟩
    rw [wr_time, wr_time, tpo_setTpo _ _ (by show u8 p 0 < d.time.tpo.length; omega)]
    exact ⟨rfl, rfl, rfl, rfl, rfl, rfl, rfl, rfl⟩
  case fire =>
    intro n s hon hn hmode hfired
    refine ⟨s.dev.tpoFire n false, ?_, tpoFire_fired s.dev hn⟩
    rw [exec_tpoFire, execTpoFire, hearthEvent_on hon]
    simp only [hmode, hfired]
    rfl
  case tciSet =>
    intro h p s hm d c hlen
    have hn := tciSet_checked hm
    rw [exec_tciSet, execTciSet, anvil_of_mayBegin (p := p) rfl rfl rfl hm]
    refine ⟨_, rfl, ?_⟩
    rw [wr_time, wr_time, tci_setTci _ _ (by show u8 p 0 < d.time.tci.length; omega)]
    exact ⟨rfl, rfl, rfl, rfl, rd_wr_self _ 0 (R.PTP_TCI_FILL (u8 p 0)) 0 (by show 4 ≤ 10; omega) (by show 10 < 32; omega)⟩
  case tciRead =>
    intro h p s hm d c hlen hroom
    have hn := tciRead_checked hm
    rw [exec_tciRead, execTciRead, anvil_of_mayBegin (p := p) rfl rfl rfl hm]
    refine ⟨_, _, rfl, ?_, ?_⟩
    · simp only [List.append_assoc]
      rw [u8_enc_one, List.length_take]
      exact Nat.mod_eq_of_lt (by show min (u8 p 1) (d.time.tci.getD (u8 p 0) {}).fifo.length < 256; omega)
    · rw [wr_time, tci_setTci _ _ (by show u8 p 0 < d.time.tci.length; omega)]
  case edge =>
    intro n s hon hn hlen hedge hwin hlast hroom hpps
    refine ⟨_, ?_, capture_records s.dev hn (by omega) hedge hwin hlast hroom⟩
    rw [exec_captureEdge, execCaptureEdge_capture hon hpps]

end Sys2Proof.Proofs
end

section
/-!
Registers of one die (R10): reads after writes, decided by the field's place alone.
-/

namespace Sys2Proof.Machine

variable (d : Dev)

/-- A register at another offset is as before, on whatever die. -/
theorem rd_wr_off {die k : Nat} {f g : Fld} (v : Nat) (h : g.off < 2 ^ 28 ∧ f.off < 2 ^ 28 ∧ g.off ≠ f.off) :
    (d.wr die f v).rd k g = d.rd k g := by
  refine rd_wr_addr d v ?_
  simp only [regAddr]; omega

theorem rd_wr_die {die k : Nat} {f g : Fld} (v : Nat) (h : g.off < 2 ^ 28 ∧ f.off < 2 ^ 28 ∧ k ≠ die) : (d.wr die f v).rd k g = d.rd k g :=
  rd_wr_addr d v (regAddr_die h.1 h.2.1 h.2.2)

/-- Other bits of the same register are as before. -/
theorem rd_wr_bits {die : Nat} {f g : Fld} (v : Nat) (h : g.off = f.off ∧ g.hi < 32 ∧ (g.hi < f.lo ∨ f.hi < g.lo)) :
    (d.wr die f v).rd die g = d.rd die g := rd_wr_field d v h.1 h.2.1 h.2.2

/-- A value that fits its field reads back. -/
theorem rd_wr_eq {die : Nat} {f : Fld} {v : Nat} (h : f.lo ≤ f.hi ∧ f.hi < 32) (hv : v < 2 ^ (f.hi + 1 - f.lo)) : (d.wr die f v).rd die f = v :=
  (rd_wr_self d die f v h.1 h.2).trans (Nat.mod_eq_of_lt hv)

theorem rd_bump_off {die k : Nat} {f g : Fld} (n : Nat) (h : g.off < 2 ^ 28 ∧ f.off < 2 ^ 28 ∧ g.off ≠ f.off) :
    (d.bump die f n).rd k g = d.rd k g := rd_wr_off d _ h

theorem rd_hwm_off {die k : Nat} {f g : Fld} (n : Nat) (h : g.off < 2 ^ 28 ∧ f.off < 2 ^ 28 ∧ g.off ≠ f.off) :
    (d.hwm die f n).rd k g = d.rd k g := rd_wr_off d _ h

end Sys2Proof.Machine
end

section
/-! Neighbour refresh (O54). -/

namespace Sys2Proof.Machine

variable (d : Dev)

theorem memCh_setMemCh_self (n : Nat) (f : MemCh → MemCh) : (d.setMemCh n f).memCh n = f (d.memCh n) := amGet_amPut_self _ _ _ _

theorem memCh_congr {d e : Dev} (h : d.mem.chans = e.mem.chans) (n : Nat) : d.memCh n = e.memCh n := by
  simp only [Dev.memCh, h]

@[simp] theorem rd_setMemCh (n : Nat) (f : MemCh → MemCh) (k : Nat) (g : Fld) : (d.setMemCh n f).rd k g = d.rd k g := rfl

theorem memNbrSet_checked {h : Hdr} {p : Bytes} {s : State} (hm : mayBegin (.memNbrSet h p) s = true) :
    p.length = 4 ∧ 256 ≤ u16 p 0 ∧ u16 p 0 ≤ 16384 ∧ 1 ≤ u8 p 2 ∧ u8 p 2 ≤ 2 ∧ 1 ≤ u8 p 3 := by
  have hlen : p.length = 4 := by simpa [OpSpec.lenOk, specMemNbrSet, Instr.params] using lenOk_of_mayBegin (sp := specMemNbrSet) rfl hm
  have hcheck : specMemNbrSet.check s h p = none := check_of_mayBegin rfl rfl hm
  have hc := failIf_eq_none.1 hcheck
  simp at hc
  refine ⟨hlen, ?_⟩
  omega

/-- THRESHOLD, DIST and UE_LIMIT written to a die's registers. -/
def Dev.nbrWrite (d : Dev) (die th dist lim : Nat) : Dev :=
  ((d.wr die R.MEM_NBR_CFG_THRESHOLD th).wr die R.MEM_NBR_CFG_DIST dist).wr die R.MEM_UE_LIMIT lim

theorem rd_nbrWrite (die : Nat) {th dist lim : Nat} (hth : th ≤ 16384) (hdist : dist ≤ 2) (hlim : lim ≤ 255) :
    let t := d.nbrWrite die th dist lim
    t.rd die R.MEM_NBR_CFG_THRESHOLD = th ∧ t.rd die R.MEM_NBR_CFG_DIST = dist ∧ t.rd die R.MEM_UE_LIMIT = lim := by
  refine ⟨?_, ?_, ?_⟩
  · show Dev.rd (Dev.wr _ _ _ _) _ _ = _
    rw [rd_wr_off _ _ (by decide), rd_wr_bits _ _ (by decide), rd_wr_eq _ (by decide) (show th < 2 ^ 15 by omega)]
  · show Dev.rd (Dev.wr _ _ _ _) _ _ = _
    rw [rd_wr_off _ _ (by decide), rd_wr_eq _ (by decide) (show dist < 2 ^ 2 by omega)]
  · show Dev.rd (Dev.wr _ _ _ _) _ _ = _
    rw [rd_wr_eq _ (by decide) (show lim < 2 ^ 8 by omega)]

/-- A window that starts with settings waiting for its die writes them to the die's registers (R410). -/
theorem actWindowStart_applies {n th dist lim : Nat} {s : State} (hon : s.dev.hearthOff = false) (hn : n ≤ 15)
    (hf : s.dev.mem.nbrNext.find? (fun e => e.1 = chDie n) = some (chDie n, th, dist, lim)) :
    let e := (s.dev.setMemCh n fun x => { x with act := [] }).nbrWrite (chDie n) th dist lim
    exec (.actWindowStart n) s = .next (s.withDev { e with mem := { e.mem with nbrNext := e.mem.nbrNext.filter fun x => x.1 ≠ chDie n } }) := by
  rw [exec_actWindowStart, execActWindowStart, hearthEvent_on hon, if_neg (Nat.not_lt.2 hn)]
  dsimp only [Dev.setMemCh]
  rw [hf]
  rfl

end Sys2Proof.Machine

namespace Sys2Proof.Proofs

open Sys2Proof.Machine

/-- Settles O54: the gate's checks give the ranges, the body keeps the values for every hob die in service, and a window start writes them. -/
theorem neighbourRefreshIsSet : Obligations.NeighbourRefreshIsSet := by
  unfold Obligations.NeighbourRefreshIsSet
  refine ⟨?checked, ?set, ?window⟩
  case checked => exact fun h p s hm => memNbrSet_checked hm
  case set => exact fun h p => ends_of_anvil (sp := specMemNbrSet) rfl rfl (fun _ => rfl) fun _ _ _ => rfl
  case window =>
    intro n th dist lim s hon hn hf hth hdist hlim
    obtain ⟨h1, h2, h3⟩ := rd_nbrWrite (s.dev.setMemCh n fun x => { x with act := [] }) (chDie n) hth hdist hlim
    have hch (e : Dev) (he : e.mem.chans = (s.dev.setMemCh n fun x => { x with act := [] }).mem.chans) : (e.memCh n).act = [] :=
      congrArg MemCh.act ((memCh_congr he n).trans (memCh_setMemCh_self s.dev n _))
    exact ⟨_, actWindowStart_applies hon hn hf, hch _ rfl, (rd_congr rfl _ _).trans h1, (rd_congr rfl _ _).trans h2,
      (rd_congr rfl _ _).trans h3, rfl⟩

end Sys2Proof.Proofs
end

section
/-! The event controller's own commands (O21): what a raise, a claim and a completion do to one source, and waking. -/

namespace Sys2Proof.Machine

variable (d : Dev)

theorem src_congr {d e : Dev} (h : d.ev.srcs = e.ev.srcs) (k : Nat) : d.src k = e.src k := by
  simp only [Dev.src, h]

/-- R472: a source after one raise with the stamp `media`. -/
def Src.raised (v : Src) (media : Nat) : Src :=
  { v with
    count := min (v.count + 1) 65535
    first := if v.count = 0 then media else v.first
    st := if v.st = 0 then 1 else v.st
    rep := v.rep || v.st = 2 }

theorem src_raiseAt_self (k m : Nat) : (d.raiseAt k m).src k = (d.src k).raised m := by
  rw [Dev.raiseAt, src_openGroup, src_setSrc_self]
  rfl

theorem src_raiseAt_other {j k : Nat} (m : Nat) (h : j ≠ k) : (d.raiseAt k m).src j = d.src j := by
  rw [Dev.raiseAt, src_openGroup, src_setSrc_other _ _ h]

theorem raise_unassigned {k : Nat} (h : srcAssigned k = false) : d.raise k = d.bump 0 R.IRQ_UNASSIGNED := by
  simp [Dev.raise, h]

theorem raise_awake {k : Nat} (h : srcAssigned k = true) (ha : d.ev.asleep = false) : d.raise k = d.raiseAt k (d.short 0) := by
  simp [Dev.raise, h, ha]

theorem raise_asleep {k : Nat} (h : srcAssigned k = true) (ha : d.ev.asleep = true) :
    d.raise k = { d with ev := { d.ev with wake := d.ev.wake ++ [(k, d.short 0, d.now 3)] } } := by
  simp [Dev.raise, h, ha]

/-- R475: source `k` is claimed: ACTIVE, out of its group's batch, and shown in IRQ_CLAIM. -/
def Dev.claimed (d : Dev) (k : Nat) : Dev :=
  let v := d.src k
  let d := (d.leaveBatch k).setSrc k { v with st := 2, count := 0, rep := false, cCount := v.count, cFirst := v.first }
  let d := ((d.wr 0 R.IRQ_CLAIM_SOURCE k).wr 0 R.IRQ_CLAIM_VALID 1).wr 0 R.IRQ_CLAIM_LEVEL (b2n (srcIsLevel k))
  (d.wr 0 R.IRQ_CLAIM_COUNT v.count).wrLoHi 0 R.IRQ_CLAIM_TIME_LO R.IRQ_CLAIM_TIME_HI v.first

/-- The best candidate is claimed unless it is a level source found low. -/
theorem claim_first {k : Nat} {rest : List Nat} (hc : d.claimables = k :: rest) (hk : ¬(srcIsLevel k = true ∧ (d.src k).level = false)) :
    d.claim = (d.claimed k, some k) := by
  unfold Dev.claim
  rw [hc, Dev.claimFrom, if_neg (by simpa using hk)]
  rfl

theorem src_claimed_self (k : Nat) :
    (d.claimed k).src k = { d.src k with st := 2, count := 0, rep := false, cCount := (d.src k).count, cFirst := (d.src k).first } :=
  (src_congr rfl k).trans (src_setSrc_self (d.leaveBatch k) k _)

theorem src_claimed_other {j k : Nat} (h : j ≠ k) : (d.claimed k).src j = d.src j :=
  (src_congr rfl j).trans (src_setSrc_other (d.leaveBatch k) _ h)

/-- IRQ_CLAIM claims the best candidate and notifies with the count and the stamp it had. -/
theorem irqClaim_claims {k : Nat} {rest : List Nat} {s : State} (hon : s.dev.hearthOff = false) (ha : s.dev.ev.asleep = false)
    (hc : s.dev.claimables = k :: rest) (hk : ¬(srcIsLevel k = true ∧ (s.dev.src k).level = false)) :
    exec .irqClaim s = .next (s.withDev ((s.dev.claimed k).notify k (s.dev.src k).count (s.dev.src k).first)) := by
  rw [exec_irqClaim, execIrqClaim, hearthEvent_on hon, ha, claim_first s.dev hc hk]
  simp only [Bool.false_eq_true, if_false, src_claimed_self]

/-- R476: an active edge source after its completion. -/
theorem completeSource_edge {k : Nat} (hst : (d.src k).st = 2) (hedge : srcIsLevel k = false) :
    d.completeSource k false = (d.setSrc k { d.src k with st := if (d.src k).rep then 1 else 0, rep := false }).openGroup (k / 32) := by
  simp [Dev.completeSource, hst, hedge]

/-! Waking: raises applied late leave the domain awake and the FIFO empty. -/

@[simp] theorem openGroup_asleep (g : Nat) : (d.openGroup g).ev.asleep = d.ev.asleep := by
  unfold Dev.openGroup; dsimp only; split <;> rfl

@[simp] theorem openGroup_wake (g : Nat) : (d.openGroup g).ev.wake = d.ev.wake := by
  unfold Dev.openGroup; dsimp only; split <;> rfl

@[simp] theorem raiseAt_asleep (k m : Nat) : (d.raiseAt k m).ev.asleep = d.ev.asleep := by
  rw [Dev.raiseAt, openGroup_asleep]; rfl

@[simp] theorem raiseAt_wake (k m : Nat) : (d.raiseAt k m).ev.wake = d.ev.wake := by
  rw [Dev.raiseAt, openGroup_wake]; rfl

/-- The sleep of the Tinker domain as the controller keeps it: whether it sleeps, and what it holds. -/
def Dev.sleep (d : Dev) : Bool × List (Nat × Nat × Nat) := (d.ev.asleep, d.ev.wake)

theorem sleep_applyWake (l : List (Nat × Nat × Nat)) : (d.applyWake l).sleep = d.sleep := by
  have hraise (d : Dev) (k m : Nat) : (d.raiseAt k m).sleep = d.sleep := by simp [Dev.sleep]
  unfold Dev.applyWake
  rw [foldl_keeps Dev.sleep (fun d e => hraise d _ _), foldl_keeps Dev.sleep (fun d e => hraise d _ _)]

theorem sleep_openGroups (l : List Nat) : (l.foldl Dev.openGroup d).sleep = d.sleep :=
  foldl_keeps Dev.sleep (fun d g => by simp [Dev.sleep]) l d

/-- IRQ_WAKE with a held raise wakes the domain and empties the FIFO. -/
theorem irqWake_wakes {s : State} (hon : s.dev.hearthOff = false) (ha : s.dev.ev.asleep = true) (hw : s.dev.ev.wake ≠ []) :
    ∃ t, exec .irqWake s = .next (s.withDev t) ∧ t.sleep = (false, []) := by
  refine ⟨_, by rw [exec_irqWake, execIrqWake, hearthEvent_on hon, if_neg (by simp [ha, hw])], ?_⟩
  rw [sleep_openGroups, sleep_applyWake]
  rfl

end Sys2Proof.Machine

namespace Sys2Proof.Proofs

open Sys2Proof.Machine

/-- Settles O21: the doorbell is a raise, a claim and a completion change the one source, and the raises applied at a wake put nothing back in the FIFO. -/
theorem eventControllerActions : Obligations.EventControllerActions := by
  unfold Obligations.EventControllerActions
  have doorbell {k : Nat} {s : State} (hon : s.dev.hearthOff = false) (hk : k < 1024) :
      exec (.irqDoorbell k) s = .next (s.withDev (s.dev.raise k)) := by
    rw [exec_irqDoorbell, execIrqDoorbell, hearthEvent_on hon, Nat.mod_eq_of_lt hk]
  have completed {k : Nat} {n : Bool} {s : State} (hon : s.dev.hearthOff = false) (hk : k < 1024) :
      exec (.irqComplete k n) s = .next (s.withDev (s.dev.completeSource k n)) := by
    rw [exec_irqComplete, execIrqComplete, hearthEvent_on hon, Nat.mod_eq_of_lt hk]
  refine ⟨?unassigned, ?raised, ?asleep, ?claim, ?stray, ?complete, ?holdoff, ?stop, ?wake⟩
  case unassigned =>
    intro k s hon hk hu
    rw [doorbell hon hk, raise_unassigned _ hu]
  case raised =>
    intro k s hon hk hu ha
    refine ⟨_, by rw [doorbell hon hk, raise_awake _ hu ha], raiseAt_frame .., ?_, ?_, ?_, ?_, fun j hj => src_raiseAt_other _ _ hj⟩ <;>
      rw [src_raiseAt_self] <;> rfl
  case asleep =>
    intro k s hon hk hu ha
    rw [doorbell hon hk, raise_asleep _ hu ha]
  case claim =>
    intro s k rest hon ha hc hk
    refine ⟨_, irqClaim_claims hon ha hc hk, ?_, ?_, ?_, fun j hj => src_claimed_other _ hj⟩ <;> rw [src_claimed_self]
  case stray =>
    intro k n s hon hk hst
    rw [completed hon hk, Dev.completeSource, if_pos hst]
  case complete =>
    intro k s hon hk hst hedge
    have hrun := completed (n := false) hon hk
    rw [completeSource_edge _ hst hedge] at hrun
    refine ⟨_, hrun, openGroup_frame .., ?_, ?_, fun j hj => ?_⟩
    · rw [src_openGroup, src_setSrc_self]
    · rw [src_openGroup, src_setSrc_self]
    · rw [src_openGroup, src_setSrc_other _ _ hj]
  case holdoff =>
    intro g s hon hu ha
    rw [exec_groupHoldoffEnd, execGroupHoldoffEnd, hearthEvent_on hon, if_neg hu]
    simp [Dev.setGrp, ha]
  case stop => exact occurs_of_hearthEvent (fun _ => rfl) fun d hd => ⟨hd, rfl⟩
  case wake =>
    intro s hon ha hw
    obtain ⟨t, ht, hs⟩ := irqWake_wakes hon ha hw
    exact ⟨t, ht, congrArg Prod.fst hs, congrArg Prod.snd hs⟩

end Sys2Proof.Proofs
end

section
/-! Memory channels: their registers, lines and recovery (R388–R411). -/

namespace Sys2Proof.Machine

variable (d : Dev)

/-- Registers written one after another: die, field and value of each. -/
def Dev.wrs (d : Dev) (l : List (Nat × Fld × Nat)) : Dev := l.foldl (fun d e => d.wr e.1 e.2.1 e.2.2) d

theorem wrs_frame (l : List (Nat × Fld × Nat)) : d.wrs l = { d with regs := (d.wrs l).regs } := by
  induction l generalizing d with
  | nil => rfl
  | cons e l ih =>
    have hstep : d.wrs (e :: l) = (d.wr e.1 e.2.1 e.2.2).wrs l := rfl
    rw [hstep, ih]
    rfl

theorem chNum_lt (n : Nat) : chNum n < 4 := Nat.mod_lt n (by decide)

theorem chDie_ne_zero (n : Nat) : chDie n ≠ 0 := Nat.succ_ne_zero _

theorem mget_congr {d e : Dev} (h : d.regs = e.regs) (n : Nat) (f : Nat → Fld) : d.mget n f = e.mget n f := rd_congr h _ _

@[simp] theorem mget_send (o : Output) (n : Nat) (f : Nat → Fld) : (d.send o).mget n f = d.mget n f := rfl

@[simp] theorem mget_setMemCh (m : Nat) (g : MemCh → MemCh) (n : Nat) (f : Nat → Fld) : (d.setMemCh m g).mget n f = d.mget n f := rfl

theorem chUp_congr {d e : Dev} (hr : d.regs = e.regs) (hf : d.fab = e.fab) (n : Nat) : d.chUp n = e.chUp n := by
  simp only [Dev.chUp, Dev.hobUp, hf, mget_congr hr]

/-- A field of a channel's own registers is at least 0x20 below the registers of the whole die, and so is every other channel's. -/
theorem mget_wr_die {n : Nat} {f : Nat → Fld} {g : Fld} (v : Nat) (h : ∀ c < 4, (f c).off < 2 ^ 28 ∧ g.off < 2 ^ 28 ∧ (f c).off ≠ g.off) :
    (d.wr (chDie n) g v).mget n f = d.mget n f :=
  rd_wr_off d v (h _ (chNum_lt n))

/-- Another register of the same channel. -/
theorem mget_mset_off {n : Nat} {f g : Nat → Fld} (v : Nat) (h : ∀ c < 4, (f c).off < 2 ^ 28 ∧ (g c).off < 2 ^ 28 ∧ (f c).off ≠ (g c).off) :
    (d.mset n g v).mget n f = d.mget n f :=
  rd_wr_off d v (h _ (chNum_lt n))

theorem mget_mbump_off {n : Nat} {f g : Nat → Fld} (h : ∀ c < 4, (f c).off < 2 ^ 28 ∧ (g c).off < 2 ^ 28 ∧ (f c).off ≠ (g c).off) :
    (d.mbump n g).mget n f = d.mget n f :=
  rd_bump_off d _ (h _ (chNum_lt n))

/-- Other bits of the same register of a channel. -/
theorem mget_mset_bits {n : Nat} {f g : Nat → Fld} (v : Nat)
    (h : ∀ c < 4, (f c).off = (g c).off ∧ (f c).hi < 32 ∧ ((f c).hi < (g c).lo ∨ (g c).hi < (f c).lo)) : (d.mset n g v).mget n f = d.mget n f :=
  rd_wr_bits d v (h _ (chNum_lt n))

theorem mget_mset_self {n : Nat} {f : Nat → Fld} (w v : Nat) (h : ∀ c < 4, (f c).lo ≤ (f c).hi ∧ (f c).hi < 32 ∧ (f c).hi + 1 - (f c).lo = w) :
    (d.mset n f v).mget n f = v % 2 ^ w := by
  obtain ⟨hle, hhi, hw⟩ := h _ (chNum_lt n)
  exact hw ▸ rd_wr_self d _ _ v hle hhi

theorem mget_mbump_self {n : Nat} {f : Nat → Fld} (w : Nat) (h : ∀ c < 4, (f c).lo ≤ (f c).hi ∧ (f c).hi < 32 ∧ (f c).hi + 1 - (f c).lo = w) :
    (d.mbump n f).mget n f = min (d.mget n f + 1) (2 ^ w - 1) := by
  obtain ⟨hle, hhi, hw⟩ := h _ (chNum_lt n)
  exact hw ▸ rd_bump_self d _ _ 1 hle hhi

theorem mget_descriptor {n : Nat} {f : Nat → Fld} (h : ∀ c < 4, (f c).off < 2 ^ 28) (l die blk u c a x : Nat) :
    (d.descriptor l die blk u c a x).mget n f = d.mget n f :=
  rd_descriptor_die d (chDie_ne_zero n) (h _ (chNum_lt n)) l die blk u c a x []

theorem mget_raise {n : Nat} {f : Nat → Fld} (h : ∀ c < 4, (f c).off < 2 ^ 28) (k : Nat) : (d.raise k).mget n f = d.mget n f :=
  rd_raise d k (regAddr_die (h _ (chNum_lt n)) (by decide) (chDie_ne_zero n))

/-! Channel faults. -/

/-- R403: the channel is fenced and the fault reported. -/
def Dev.chanFenced (d : Dev) (n cause : Nat) : Dev :=
  let d := (d.mset n R.MEM_CH_STATE_STATE 3).wr (chDie n) R.MEM_DIE_FAILED (d.rd (chDie n) R.MEM_DIE_FAILED ||| 2 ^ chNum n)
  (d.descriptor 1 (chDie n) 0x33 n cause 1 0).raise (192 + n)

/-- R404: what lay in the channel is gone: picked pictures, components, end-of-buffer counts. -/
def Dev.chanEmptied (d : Dev) (n : Nat) : Dev :=
  let c := chNum n
  let d := d.dropPicked fun k v => let x := d.view k v.view; x.owner = some (n / 4) && (x.tex.chan = c || x.dep.chan = c)
  (d.mapViews (n / 4) fun v => { v with tex := v.tex.chanGone c, dep := v.dep.chanGone c }).eobAll

/-- R404: the die's map copy in the channel is gone, a recovery begins, a frequency change is over. -/
def Dev.chanUnmapped (d : Dev) (n : Nat) : Dev :=
  let i := n / 4
  let c := chNum n
  let map := (d.mem.maps.getD i []).contains c
  let d := if map then d.wr (chDie n) R.MEM_DIE_MAP_SINGLE 1 else d
  { d with mem := { d.mem with
      maps := d.mem.maps.modify i fun l => l.filter (· ≠ c)
      recover := amPut d.mem.recover i (amGet d.mem.recover i 0 ||| (1 + 2 * b2n map))
      change := d.mem.change.map fun f => { f with over_ := true } } }

theorem channelFail_eq {n : Nat} (cause : Nat) (hp : Heap) (hn : n ≤ 15) (hst : d.mget n R.MEM_CH_STATE_STATE ≠ 3) (hup : d.hobUp (chDie n) = true) :
    channelFail n cause hp d = (hp.chanLost n, (((d.chanFenced n cause).chanEmptied n).chanUnmapped n).cutSurfaces hp (hp.chanLost n)) := by
  rw [channelFail, if_neg (by simp [Nat.not_lt.2 hn, hst, hup])]
  rfl

theorem state_chanFenced (n cause : Nat) : (d.chanFenced n cause).mget n R.MEM_CH_STATE_STATE = 3 := by
  rw [Dev.chanFenced, mget_raise _ (by decide), mget_descriptor _ (by decide), mget_wr_die _ _ (by decide)]
  exact mget_mset_self d 2 3 (by decide)

theorem eobSync_mget {f : Nat → Fld} (h : ∀ c < 4, (f c).off < 2 ^ 28 ∧ R.DEC_EOB_FILL.off ≠ (f c).off ∧ R.DEC_EOB_HWM.off ≠ (f c).off) (i n : Nat) :
    (d.eobSync i).mget n f = d.mget n f := by
  obtain ⟨hlow, hfill, hhwm⟩ := h _ (chNum_lt n)
  have hreg {a b : Nat} {p q : Nat} (hp : p < 2 ^ 28) (hq : q < 2 ^ 28) (hne : q ≠ p) : regAddr a p ≠ regAddr b q := by
    simp only [regAddr]; omega
  show Dev.rd (Dev.wr (Dev.wr _ _ _ _) _ _ _) _ _ = _
  rw [rd_wr_addr _ _ (hreg hlow (by decide) hhwm), rd_wr_addr _ _ (hreg hlow (by decide) hfill)]
  rfl

theorem state_chanEmptied (n : Nat) : (d.chanEmptied n).mget n R.MEM_CH_STATE_STATE = d.mget n R.MEM_CH_STATE_STATE := by
  unfold Dev.chanEmptied Dev.eobAll
  exact (foldl_keeps (fun e : Dev => e.mget n R.MEM_CH_STATE_STATE) (fun e i => eobSync_mget e (by decide) i n) _ _).trans (mget_congr rfl _ _)

theorem chanUnmapped_regs (n : Nat) : (d.chanUnmapped n).regs =
    (if (d.mem.maps.getD (n / 4) []).contains (chNum n) then d.wr (chDie n) R.MEM_DIE_MAP_SINGLE 1 else d).regs := rfl

theorem state_chanUnmapped (n : Nat) : (d.chanUnmapped n).mget n R.MEM_CH_STATE_STATE = d.mget n R.MEM_CH_STATE_STATE := by
  rw [mget_congr (chanUnmapped_regs d n)]
  split
  · exact mget_wr_die d 1 (by decide)
  · rfl

theorem cutSurfaces_regs (a b : Heap) : (d.cutSurfaces a b).regs = d.regs := by
  unfold Dev.cutSurfaces
  dsimp only
  split <;> rfl

/-- Every way a channel fails fences it and loses what lay in it alone (R403, R404). -/
theorem channelFail_fences {n : Nat} (cause : Nat) (hp : Heap) (hn : n ≤ 15) (hst : d.mget n R.MEM_CH_STATE_STATE ≠ 3) (hup : d.hobUp (chDie n) = true) :
    (channelFail n cause hp d).1 = hp.chanLost n ∧ (channelFail n cause hp d).2.mget n R.MEM_CH_STATE_STATE = 3 := by
  rw [channelFail_eq d cause hp hn hst hup]
  refine ⟨rfl, ?_⟩
  rw [mget_congr (cutSurfaces_regs _ _ _), state_chanUnmapped, state_chanEmptied, state_chanFenced]

/-! Recovery. -/

/-- R404: of a die's recovery only the other part is left. -/
theorem recover_recovered (i part : Nat) : amGet (d.recovered i part).mem.recover i 0 = amGet d.mem.recover i 0 &&& (3 - part) := by
  unfold Dev.recovered
  dsimp only
  split
  case isTrue h => rw [amGet_amDel_self, h]
  case isFalse h => rw [amGet_amPut_self]

theorem bufferReplace_recovers {n : Nat} {s : State} (hon : s.dev.hearthOff = false) (hn : n ≤ 15) (hup : s.dev.hobUp (chDie n) = true)
    (hst : s.dev.mget n R.MEM_CH_STATE_STATE = 3) : ∃ t : Dev, exec (.bufferReplace n) s = .next (s.withDev t) ∧ t.regs = s.dev.regs ∧
      amGet t.mem.recover (n / 4) 0 = amGet s.dev.mem.recover (n / 4) 0 &&& 2 := by
  refine ⟨_, by rw [exec_bufferReplace, execBufferReplace, hearthEvent_on hon, if_neg (by simp [Nat.not_lt.2 hn, hst, hup])], ?_, ?_⟩
  · rfl
  · exact recover_recovered _ (n / 4) 1

theorem mapMirror_recreated {i : Nat} {s : State} (hon : s.dev.hearthOff = false) (hi : i ≤ 3) (hup : s.dev.hobUp (i + 1) = true)
    (hlen : s.dev.mem.maps.length = 4) (hheld : (s.dev.mem.maps.getD i []).length < 2)
    (hroom : ∃ c < 4, s.dev.chUp (4 * i + c) = true ∧ (s.dev.mem.maps.getD i []).contains c = false) :
    ∃ t : Dev, exec (.mapMirrorRecreate i) s = .next (s.withDev t) ∧
      (t.mem.maps.getD i []).length = (s.dev.mem.maps.getD i []).length + 1 ∧ amGet t.mem.recover i 0 = amGet s.dev.mem.recover i 0 &&& 1 := by
  obtain ⟨c, hc, hcup, hcfree⟩ := hroom
  have hl : ((List.range 4).filter fun c => s.dev.chUp (4 * i + c) && !(s.dev.mem.maps.getD i []).contains c) ≠ [] :=
    List.ne_nil_of_mem (List.mem_filter.2 ⟨List.mem_range.2 hc, by rw [hcup, hcfree]; rfl⟩)
  refine ⟨_, by rw [exec_mapMirrorRecreate, execMapMirrorRecreate, hearthEvent_on hon, if_neg (by simp [Nat.not_lt.2 hi, hup]),
    if_neg (by simp only [hl, or_false]; omega)], ?_, ?_⟩
  · show ((s.dev.mem.maps.set i _).getD i []).length = _
    rw [List.getD_eq_getElem?_getD, List.getElem?_set_self (by omega)]
    simp
  · exact recover_recovered _ i 2

/-! Requests. -/

theorem lineValue_congr {d e : Dev} {n : Nat} (hm : d.memCh n = e.memCh n) (hdens : d.mget n R.MEM_CH_STATE_DENSITY = e.mget n R.MEM_CH_STATE_DENSITY)
    (hrank : d.mget n R.MEM_CH_STATE_RANKS = e.mget n R.MEM_CH_STATE_RANKS) (l : Nat) : d.lineValue n l = e.lineValue n l := by
  unfold Dev.lineValue Dev.inWindow Dev.usableMiB
  rw [hm, hdens, hrank]

/-- R392: a read that is good finds the device as it was. -/
theorem readEcc_good {n l : Nat} (y : Nat) (scrub : Bool) (hp : Heap) (hb : (d.memCh n).bad.contains l = false) :
    readEcc n l 0 y scrub hp d = (hp, d) := by
  rw [readEcc, hb, if_neg (by decide), if_neg (by decide)]

theorem readEcc_corrected {n l : Nat} (y : Nat) (scrub : Bool) (hp : Heap) (hb : (d.memCh n).bad.contains l = false) :
    readEcc n l 1 y scrub hp d = (hp, ((d.loadErr n l y false scrub).mbump n R.MEM_CH_CE).descriptor 0 (chDie n) 0x33 n Cause.eccCorrected 0 l) := by
  rw [readEcc, hb, if_neg (by decide), if_pos rfl]

/-- R411: a corrected error counts, and its syndrome is loaded. -/
theorem loadErr_corrected (n l y a b : Nat) (scrub : Bool) :
    let t := ((d.loadErr n l y false scrub).mbump n R.MEM_CH_CE).descriptor 0 (chDie n) 0x33 n a b l
    t.mget n R.MEM_CH_CE = min (d.mget n R.MEM_CH_CE + 1) (2 ^ 32 - 1) ∧ t.mget n R.MEM_CH_ERR_INFO_SYNDROME = y % 256 ∧
      t.mget n R.MEM_CH_ERR_INFO_UE = 0 := by
  have haddr : (d.wrLoHi (chDie n) (R.MEM_CH_ERR_ADDR_LO (chNum n)) (R.MEM_CH_ERR_ADDR_HI (chNum n)) (lineAddr n l)).mget n R.MEM_CH_CE = d.mget n R.MEM_CH_CE :=
    (mget_mset_off (g := R.MEM_CH_ERR_ADDR_HI) _ _ (by decide)).trans (mget_mset_off (g := R.MEM_CH_ERR_ADDR_LO) _ _ (by decide))
  have hce : (d.loadErr n l y false scrub).mget n R.MEM_CH_CE = d.mget n R.MEM_CH_CE := by
    rw [Dev.loadErr, mget_mset_off _ _ (by decide), mget_mset_off _ _ (by decide), mget_mset_off _ _ (by decide), haddr]
  dsimp only
  refine ⟨?_, ?_, ?_⟩
  · rw [mget_descriptor _ (by decide), mget_mbump_self _ 32 (by decide), hce]
  · rw [mget_descriptor _ (by decide), mget_mbump_off _ (by decide), Dev.loadErr, mget_mset_bits _ _ (by decide), mget_mset_bits _ _ (by decide)]
    exact mget_mset_self _ 8 y (by decide)
  · rw [mget_descriptor _ (by decide), mget_mbump_off _ (by decide), Dev.loadErr, mget_mset_bits _ _ (by decide), mget_mset_self _ 1 _ (by decide)]
    rfl

/-- The requests in flight, shown when a channel serves one. -/
def Dev.inflight (d : Dev) (n i : Nat) : Dev := (d.mset n R.MEM_CH_INFLIGHT_NOW i).hwm (chDie n) (R.MEM_CH_INFLIGHT_HWM (chNum n)) i

theorem mget_inflight_off {n : Nat} {f : Nat → Fld} (i : Nat)
    (h : ∀ c < 4, (f c).off < 2 ^ 28 ∧ (R.MEM_CH_INFLIGHT_NOW c).off < 2 ^ 28 ∧ (f c).off ≠ (R.MEM_CH_INFLIGHT_NOW c).off) : (d.inflight n i).mget n f = d.mget n f := by
  show Dev.rd (Dev.hwm _ _ _ _) _ _ = _
  exact (rd_hwm_off (f := R.MEM_CH_INFLIGHT_HWM (chNum n)) _ _ (h _ (chNum_lt n))).trans (mget_mset_off d i h)

theorem mget_inflight_now (n i : Nat) : (d.inflight n i).mget n R.MEM_CH_INFLIGHT_NOW = i % 1024 := by
  show ((d.mset n R.MEM_CH_INFLIGHT_NOW i).mset n R.MEM_CH_INFLIGHT_HWM _).mget n _ = _
  rw [mget_mset_bits _ _ (by decide)]
  exact mget_mset_self d 10 i (by decide)

theorem inflight_mem (n i : Nat) : (d.inflight n i).mem = d.mem := (hwm_mem ..).trans (wr_mem ..)

theorem inflight_out (n i : Nat) : (d.inflight n i).out = d.out := (hwm_out ..).trans (wr_out ..)

theorem memCh_inflight (n i m : Nat) : (d.inflight n i).memCh m = d.memCh m :=
  memCh_congr (by rw [inflight_mem]) m

theorem lineValue_inflight (n i l : Nat) : (d.inflight n i).lineValue n l = d.lineValue n l :=
  lineValue_congr (memCh_inflight ..) (mget_inflight_off d i (by decide)) (mget_inflight_off d i (by decide)) l

/-- R391: a read of a channel that is ON, no row activated. -/
theorem memRequest_read {n : Nat} (l e y i : Nat) {s : State} (hon : s.dev.hearthOff = false) (hn : n ≤ 15) (hup : s.dev.chUp n = true) :
    exec (.memRequest n l none none e y i) s = .next (s.withBoth
      (let x := readEcc n l e y false s.heap (s.dev.inflight n i)
       (x.1, x.2.send (.memLine (chDie n) (chNum n) l (e = 2 || (s.dev.memCh n).bad.contains l) (x.2.lineValue n l))))) := by
  rw [exec_memRequest, execMemRequest, hearthEventH_on hon, if_neg (Nat.not_lt.2 hn), if_neg (by simp [hup]), ← memCh_inflight s.dev n i n]
  rfl

/-- R391, R394: a write of every byte of a line. -/
theorem memRequest_whole {n : Nat} (l v e y i : Nat) {s : State} (hon : s.dev.hearthOff = false) (hn : n ≤ 15) (hup : s.dev.chUp n = true) :
    exec (.memRequest n l (some (2 ^ 64 - 1, v)) none e y i) s = .next (s.withDev ((s.dev.inflight n i).setMemCh n fun x =>
      { x with lines := amPut x.lines l (mergeLine (s.dev.lineValue n l) (2 ^ 64 - 1) v), bad := x.bad.filter (· ≠ l) })) := by
  rw [exec_memRequest, execMemRequest, hearthEventH_on hon, if_neg (Nat.not_lt.2 hn), if_neg (by simp [hup]), ← lineValue_inflight s.dev n i l]
  rfl

theorem scrubRead_pass {n l y : Nat} {s : State} (hon : s.dev.hearthOff = false) (hn : n ≤ 15) (hup : s.dev.chUp n = true)
    (hb : (s.dev.memCh n).bad.contains l = false) : exec (.scrubRead n l 0 y true) s = .next (s.withDev (s.dev.mbump n R.MEM_CH_SCRUB_PASSES)) := by
  have hm : (s.dev.mbump n R.MEM_CH_SCRUB_PASSES).mem = s.dev.mem := bump_mem ..
  rw [exec_scrubRead, execScrubRead, hearthEventH_on hon, if_neg (by simp [Nat.not_lt.2 hn, hup]), if_pos rfl,
    readEcc_good (d := s.dev.mbump n R.MEM_CH_SCRUB_PASSES) _ _ _ (by rw [memCh_congr (e := s.dev) (by rw [hm]), hb])]
  rfl

/-! Commands. -/

/-- R407: the words of a timing set written. -/
def timWrite (st : Nat) (p : Bytes) (d : Dev) (n : Nat) : Dev :=
  let k := chDie n
  let c := chNum n
  d.wrs [(k, R.MEM_TIM0_RATE c st, u32 p 4), (k, R.MEM_TIM0_RL c st, u32 p 4 / 2 ^ 16), (k, R.MEM_TIM0_WL c st, u32 p 4 / 2 ^ 24),
    (k, R.MEM_TIM1 c st, u32 p 8), (k, R.MEM_TIM2 c st, u32 p 12), (k, R.MEM_TIM3 c st, u32 p 16), (k, R.MEM_TIM4 c st, u32 p 20)]

theorem rd_timWrite {st : Nat} (p : Bytes) (n : Nat) (hst : st ≤ 1) :
    let t := timWrite st p d n
    t.rd (chDie n) (R.MEM_TIM0_RATE (chNum n) st) = u32 p 4 % 16384 ∧ t.rd (chDie n) (R.MEM_TIM1 (chNum n) st) = u32 p 8 ∧
      t.rd (chDie n) (R.MEM_TIM2 (chNum n) st) = u32 p 12 ∧ t.rd (chDie n) (R.MEM_TIM3 (chNum n) st) = u32 p 16 ∧
      t.rd (chDie n) (R.MEM_TIM4 (chNum n) st) = u32 p 20 := by
  have hc := chNum_lt n
  have off {a b : Nat} {x y : Nat × Nat} (hab : a < 2 ^ 27 ∧ b < 2 ^ 27 ∧ b ≠ a) (e : Dev) (v : Nat) :
      (e.wr (chDie n) ⟨a + 0x100 * chNum n + 0x20 * st, x.1, x.2⟩ v).rd (chDie n) ⟨b + 0x100 * chNum n + 0x20 * st, y.1, y.2⟩ =
        e.rd (chDie n) ⟨b + 0x100 * chNum n + 0x20 * st, y.1, y.2⟩ := rd_wr_off e v (by dsimp only; omega)
  have rate {x : Nat × Nat} (hx : 13 < x.2) (o : Nat) (e : Dev) (v : Nat) : (e.wr (chDie n) ⟨o, x.1, x.2⟩ v).rd (chDie n) ⟨o, 13, 0⟩ = e.rd (chDie n) ⟨o, 13, 0⟩ :=
    rd_wr_bits e v ⟨rfl, by dsimp only; omega⟩
  have word (a : Nat) (e : Dev) {v : Nat} (hv : v < 2 ^ 32) :
      (e.wr (chDie n) ⟨a + 0x100 * chNum n + 0x20 * st, 31, 0⟩ v).rd (chDie n) ⟨a + 0x100 * chNum n + 0x20 * st, 31, 0⟩ = v :=
    rd_wr_eq e ⟨Nat.zero_le _, Nat.lt_succ_self 31⟩ hv
  simp only [timWrite, Dev.wrs, List.foldl_cons, List.foldl_nil]
  refine ⟨?_, ?_, ?_, ?_, ?_⟩
  · rw [off (x := (31, 0)) (y := (13, 0)) (by decide), off (x := (31, 0)) (y := (13, 0)) (by decide), off (x := (31, 0)) (y := (13, 0)) (by decide),
      off (x := (31, 0)) (y := (13, 0)) (by decide), rate (x := (28, 24)) (by decide), rate (x := (20, 16)) (by decide)]
    exact rd_wr_self _ _ _ _ (Nat.zero_le _) (Nat.lt_of_sub_eq_succ rfl)
  · rw [off (x := (31, 0)) (y := (31, 0)) (by decide), off (x := (31, 0)) (y := (31, 0)) (by decide), off (x := (31, 0)) (y := (31, 0)) (by decide),
      word _ _ (u32_lt _ _)]
  · rw [off (x := (31, 0)) (y := (31, 0)) (by decide), off (x := (31, 0)) (y := (31, 0)) (by decide), word _ _ (u32_lt _ _)]
  · rw [off (x := (31, 0)) (y := (31, 0)) (by decide), word _ _ (u32_lt _ _)]
  · rw [word _ _ (u32_lt _ _)]

theorem timWrite_frame (st : Nat) (p : Bytes) (n : Nat) : timWrite st p d n = { d with regs := (timWrite st p d n).regs } := wrs_frame d _

/-- R407: MEM_TIMING_SET of a die in service. -/
theorem memTimingSet_body {h : Hdr} {p : Bytes} {s : State} (hm : mayBegin (.memTimingSet h p) s = true)
    (hup : (begunDev (.memTimingSet h p) s).hobUp (u8 p 0 + 1) = true) :
    let c := begunCmd (.memTimingSet h p) s
    let d := begunDev (.memTimingSet h p) s
    let ns := d.namedChans (u8 p 0) (u8 p 1)
    let r : Dev × Rep := if ns.any fun n => d.mget n R.MEM_CH_STATE_SET = u8 p 2 then (d, .bad St.badState 0x43)
      else (ns.foldl (timWrite (u8 p 2) p) d, .done)
    execMemTimingSet h p s = .next (s.withDev (finish c r.1 r.2)) := by
  intro c d ns r
  rw [execMemTimingSet, anvil_of_mayBegin (p := p) rfl rfl rfl hm, if_neg fun h => h.2 hup]
  rfl

/-- A die and a channel on it name one channel. -/
theorem namedChans_one {a b : Nat} (ha : a < 4) (hb : b < 4) (hup : d.hobUp (a + 1) = true) : d.namedChans a b = [4 * a + b] := by
  have hone : ∀ a < 4, ∀ b < 4, ((List.range 16).filter fun n => (decide (a = 0xFF) || decide (n / 4 = a)) && (decide (b = 0xFF) || decide (n % 4 = b))) = [4 * a + b] := by
    decide
  have hdie : chDie (4 * a + b) = a + 1 := by rw [chDie]; omega
  have hand (P Q : Nat → Bool) (l : List Nat) : l.filter (fun n => P n && Q n) = (l.filter P).filter Q := by
    rw [List.filter_filter]
    simp only [Bool.and_comm]
  rw [Dev.namedChans, hand, hone a ha b hb]
  simp [hdie, hup]

theorem memTimingSet_checked {h : Hdr} {p : Bytes} {s : State} (hm : mayBegin (.memTimingSet h p) s = true) (hdie : u8 p 0 ≠ 0xFF) (hch : u8 p 1 ≠ 0xFF) :
    u8 p 0 < 4 ∧ u8 p 1 < 4 ∧ u8 p 2 ≤ 1 := by
  have hcheck : specMemTimingSet.check s h p = none := check_of_mayBegin rfl rfl hm
  have hc := failIf_eq_none.1 hcheck
  simp at hc
  omega

/-- R406: the 36 bytes of one channel. -/
def memEntry (d : Dev) (i c : Nat) : Bytes :=
  let n := 4 * i + c
  let set := d.mget n R.MEM_CH_STATE_SET
  enc 1 (d.mget n R.MEM_CH_STATE_STATE) ++ enc 1 set ++ enc 2 (d.rd (i + 1) (R.MEM_TIM0_RATE c set)) ++ enc 2 (d.usableMiB n) ++ zeros 2
    ++ enc 4 (d.mget n R.MEM_CH_CE) ++ enc 4 (d.mget n R.MEM_CH_UE) ++ enc 4 (d.mget n R.MEM_CH_NBR) ++ enc 4 (d.mget n R.MEM_CH_EYE)
    ++ enc 2 (d.mget n R.MEM_CH_INFLIGHT_HWM) ++ zeros 2
    ++ enc 8 (d.rdLoHi (i + 1) (R.MEM_CH_ERR_ADDR_LO c) (R.MEM_CH_ERR_ADDR_HI c))

theorem memEntry_length (i c : Nat) : (memEntry d i c).length = 36 := by
  simp only [memEntry, List.length_append, enc_length, zeros_length]

theorem memEntry_state (i c : Nat) (b : Bytes) : u8 (memEntry d i c ++ b) 0 = d.mget (4 * i + c) R.MEM_CH_STATE_STATE := by
  have hlt : d.mget (4 * i + c) R.MEM_CH_STATE_STATE < 4 := rd_lt d _ _
  simp only [memEntry, List.append_assoc]
  rw [u8_enc_one, Nat.mod_eq_of_lt (by omega)]

theorem memStatus_reports {h : Hdr} {p : Bytes} {s : State} (hm : mayBegin (.memStatus h p) s = true)
    (hup : (begunDev (.memStatus h p) s).hobUp (u8 p 0 + 1) = true) : exec (.memStatus h p) s = .next (s.withDev
      ((begunDev (.memStatus h p) s).finalReply (begunCmd (.memStatus h p) s) St.done 0
        (((List.range 4).map (memEntry (begunDev (.memStatus h p) s) (u8 p 0))).flatten))) := by
  rw [exec_memStatus, execMemStatus, anvil_of_mayBegin (p := p) rfl rfl rfl hm, if_neg (by simp [hup])]
  rfl

/-- R408: MEM_FREQ outside mode 2. -/
theorem memFreq_body {h : Hdr} {p : Bytes} {s : State} (hm : mayBegin (.memFreq h p) s = true) (hmode : (begunDev (.memFreq h p) s).mode ≠ 2) :
    let c := begunCmd (.memFreq h p) s
    let d := begunDev (.memFreq h p) s
    let r : Dev × Rep := if d.mem.change.isSome then (d, .bad St.badState 0x41)
      else if d.mem.recover ≠ [] then (d, .bad St.badState 0x40)
      else ({ d with mem := { d.mem with change := some { cmd := c, set_ := u8 p 0, left := (List.range 16).filter fun n => d.hobUp (chDie n) && d.chUp n } } }, .accepted)
    execMemFreq h p s = .next (s.withDev (finish c r.1 r.2)) := by
  have hon : ¬((begunDev (.memFreq h p) s).fab.failed.any id = true ∧ (decide ((begunDev (.memFreq h p) s).mode = 2) &&
      (List.range 4).any fun r => decide (((begunDev (.memFreq h p) s).fn (FnId.region r)).st = .on)) = true) := by simp [hmode]
  intro c d r
  rw [execMemFreq, anvil_of_mayBegin (p := p) rfl rfl rfl hm, if_neg hon]

/-- R402: a channel whose test window was written: what the window holds is not known, what lies outside is as before. -/
def MemCh.windowWritten (x : MemCh) (m : MemTest) (out : Nat → Bool) : MemCh :=
  { x with
    test := none, era := x.era + 1, lines := x.lines.filter fun e => out e.1
    bad := if bit m.flags 2 then x.bad else x.bad.filter out }

/-- R402, R409: what is left of a test whose channel reports its end. -/
theorem memTestDone_ends (n e f q k : Nat) {m : MemTest} {s : State} (hon : s.dev.hearthOff = false) (hm : (s.dev.memCh n).test = some m)
    (hup : s.dev.chUp n = true) : ∃ g : MemCh → MemCh, exec (.memTestDone n e f q k) s = .next (s.withDev ((s.dev.setMemCh n g).complete m.cmd St.done 0
      (enc 4 e ++ enc 8 f ++ enc 2 q ++ enc 4 k))) ∧ (g (s.dev.memCh n)).test = none ∧ (bit m.flags 0 = false → (g (s.dev.memCh n)).lines = (s.dev.memCh n).lines) := by
  have hend (g : MemCh → MemCh) : ¬¬(s.dev.setMemCh n g).chUp n = true := not_not_intro ((chUp_congr (d := s.dev.setMemCh n g) rfl rfl n).trans hup)
  rw [exec_memTestDone, execMemTestDone, hearthEvent_on hon, hm]
  dsimp only
  cases hf : bit m.flags 0
  case false =>
    refine ⟨fun x => { x with test := none }, ?_, rfl, fun _ => rfl⟩
    rw [if_neg Bool.false_ne_true, if_neg (hend _)]
  case true =>
    refine ⟨fun x => x.windowWritten m fun l => !s.dev.inWindow n l, ?_, rfl, fun h => absurd h (by decide)⟩
    rw [if_pos rfl, if_neg (hend _)]
    rfl

/-- R403: each event by which a channel fails is a channel fault, with its own cause. -/
theorem channelFail_of_event {n : Nat} {i : Instr} {s : State} (hi : i = .dqsRetrack n false ∨ i = .memRequestTimeout n ∨ ∃ cause, i = .channelFail n cause)
    (hon : s.dev.hearthOff = false) : ∃ cause, exec i s = .next (s.withBoth (channelFail n cause s.heap s.dev)) := by
  obtain rfl | rfl | ⟨cause, rfl⟩ := hi
  · exact ⟨0x40, by rw [exec_dqsRetrack, execDqsRetrack, hearthEventH_on hon]; rfl⟩
  · exact ⟨0x41, by rw [exec_memRequestTimeout, execMemRequestTimeout, hearthEventH_on hon]⟩
  · exact ⟨cause, by rw [exec_channelFail, execChannelFail, hearthEventH_on hon]⟩

end Sys2Proof.Machine

namespace Sys2Proof.Proofs

open Sys2Proof.Machine

/-- Settles O55: a channel's registers after each write, and the one fault by which every failing event fences it. -/
theorem memoryChannelsServeChangeAndFail : Obligations.MemoryChannelsServeChangeAndFail := by
  unfold Obligations.MemoryChannelsServeChangeAndFail
  refine ⟨?status, ?statusOff, ?timing, ?freq, ?freqBusy, ?turn, ?freqDone, ?test, ?testOff, ?testDone, ?write, ?read, ?corrected, ?scrub, ?refresh,
    ?mr4, ?retrack, ?fails, ?replace, ?mirror⟩
  case status =>
    intro h p s hm d c hup
    refine ⟨_, memStatus_reports hm hup, ?_, ?_⟩
    · simp only [List.range_succ, List.range_zero, List.nil_append, List.map_append, List.map_cons, List.map_nil, List.flatten_append, List.flatten_cons, List.flatten_nil,
        List.append_nil, List.length_append, memEntry_length]
    · simp only [List.range_succ, List.range_zero, List.nil_append, List.map_append, List.map_cons, List.map_nil, List.flatten_append, List.flatten_cons, List.flatten_nil,
        List.append_nil, List.append_assoc]
      exact memEntry_state d _ 0 _
  case statusOff => exact fun h p => ends_of_anvil (sp := specMemStatus) rfl rfl (exec_memStatus · h p) fun c d hd => if_pos (by simp [hd])
  case timing =>
    intro h p s hm d c hdie hch hup n
    obtain ⟨ha, hb, hset⟩ := memTimingSet_checked hm hdie hch
    have hone : d.namedChans (u8 p 0) (u8 p 1) = [n] := namedChans_one d ha hb hup
    have hrun := memTimingSet_body hm hup
    dsimp only at hrun
    rw [hone] at hrun
    refine ⟨fun heq => ?_, fun hne => ?_⟩
    · rw [exec_memTimingSet, hrun, if_pos (by simpa using heq)]
      rfl
    · rw [if_neg (by simpa using hne)] at hrun
      exact ⟨timWrite (u8 p 2) p d n, hrun, timWrite_frame .., rd_timWrite d p n hset⟩
  case freq =>
    intro h p s hm ⟨hmode, hch, hrec⟩
    rw [exec_memFreq, memFreq_body hm hmode, if_neg (by simp [hch]), if_neg (not_not_intro hrec)]
  case freqBusy =>
    intro h p s hm ⟨hmode, hch⟩
    rw [exec_memFreq, memFreq_body hm hmode, if_pos (Option.isSome_iff_ne_none.2 hch)]
  case turn =>
    intro n f s hon hf hover hn
    refine ⟨({ s.dev with mem := { s.dev.mem with change := some { f with left := f.left.tail } } } : Dev).mset n R.MEM_CH_STATE_SET f.set_, ?_, rfl,
      mget_mset_self _ 1 _ (by decide)⟩
    rw [exec_memChannelFreqChange, execMemChannelFreqChange, hearthEvent_on hon, hf]
    simp [hover, hn]
  case freqDone =>
    intro f s ⟨hon, hf, hleft, hover⟩
    rw [exec_memFreqDone, execMemFreqDone, hearthEvent_on hon, hf]
    simp [hleft, hover]
  case test =>
    refine fun h p => ends_of_anvil (sp := specMemTest) rfl rfl (exec_memTest · h p) fun c d ⟨hup, hch, htest⟩ => ?_
    simp [hup, hch, htest]
  case testOff =>
    refine fun h p => ends_of_anvil (sp := specMemTest) rfl rfl (exec_memTest · h p) fun c d ⟨hup, hch⟩ => ?_
    simp [hup, hch]
  case testDone =>
    intro n e f q k m s hon hm hup
    obtain ⟨g, hrun, hnone, hlines⟩ := memTestDone_ends n e f q k hon hm hup
    refine ⟨s.dev.setMemCh n g, hrun, rfl, ?_, ?_⟩ <;> rw [memCh_setMemCh_self]
    · exact hnone
    · exact hlines
  case write =>
    intro n l v e y i s hon hn hup
    refine ⟨_, memRequest_whole l v e y i hon hn hup, ?_, ?_, ?_⟩
    · rw [memCh_setMemCh_self, memCh_inflight]
    · rw [memCh_setMemCh_self, memCh_inflight]
    · rw [mget_setMemCh, mget_inflight_now]
  case read =>
    intro n l y i s hon hn hup hb
    have hrun := memRequest_read l 0 y i hon hn hup
    rw [readEcc_good _ _ _ _ (by rw [memCh_inflight, hb]), hb] at hrun
    dsimp only at hrun
    rw [lineValue_inflight] at hrun
    exact ⟨_, hrun, congrArg (_ :: ·) (inflight_out s.dev n i), (send_mem ..).trans (inflight_mem s.dev n i)⟩
  case corrected =>
    intro n l y i s hon hn hup hb
    have hrun := memRequest_read l 1 y i hon hn hup
    rw [readEcc_corrected _ _ _ _ (by rw [memCh_inflight, hb])] at hrun
    obtain ⟨hce, hsyn, hue⟩ := loadErr_corrected (s.dev.inflight n i) n l y Cause.eccCorrected 0 false
    rw [mget_inflight_off _ _ (by decide)] at hce
    refine ⟨_, hrun, ?_, ?_, ?_⟩ <;> rw [mget_send]
    exacts [hce, hsyn, hue]
  case scrub =>
    intro n l y s hon hn hup hb
    exact ⟨_, scrubRead_pass hon hn hup hb, rfl, mget_mbump_self _ 32 (by decide)⟩
  case refresh => exact fun n s => rfl
  case mr4 =>
    intro n v s hon hn hup
    refine ⟨s.dev.mset n R.MEM_CH_STATE_MR4 v, ?_, rfl, mget_mset_self _ 4 v (by decide)⟩
    rw [exec_mr4Poll, execMr4Poll, hearthEvent_on hon, if_neg (by simp [Nat.not_lt.2 hn, hup])]
    rfl
  case retrack =>
    intro n s hon
    rw [exec_dqsRetrack, execDqsRetrack, hearthEventH_on hon]
    rfl
  case fails =>
    intro n i s hi hn hon hup hst
    obtain ⟨cause, hrun⟩ := channelFail_of_event hi hon
    obtain ⟨hlost, hstate⟩ := channelFail_fences s.dev cause s.heap hn hst hup
    exact ⟨_, hlost ▸ hrun, hstate⟩
  case replace => exact fun n s hon hn hup hst => bufferReplace_recovers hon hn hup hst
  case mirror => exact fun i s hon hi hup hlen hheld hroom => mapMirror_recreated hon hi hup hlen hheld hroom

end Sys2Proof.Proofs
end

section
/-! Registers that reports do not write: what journal records, sources and replies count lies elsewhere. -/

namespace Sys2Proof.Machine

/-- A field outside the registers that a journal record, a raise or a reply counts in. -/
def Fld.unreported (g : Fld) : Bool :=
  decide (g.off < 2 ^ 28) && !([R.ASH_LOST.off, R.ASH_NEXT.off, R.IRQ_UNASSIGNED.off, R.TNK_AV_AUTH.off].contains g.off)

section
variable (d : Dev) {k : Nat} {g : Fld} (hq : g.unreported = true)
include hq

theorem regAddr_unreported {o : Nat} (ho : o ∈ [R.ASH_LOST.off, R.ASH_NEXT.off, R.IRQ_UNASSIGNED.off, R.TNK_AV_AUTH.off]) (j : Nat) : regAddr k g.off ≠ regAddr j o := by
  simp only [Fld.unreported, Bool.and_eq_true, decide_eq_true_eq, Bool.not_eq_true', List.contains_eq_mem, decide_eq_false_iff_not] at hq
  have hne : g.off ≠ o := fun he => hq.2 (he ▸ ho)
  have hlt : o < 2 ^ 28 := (by decide : ∀ o ∈ [R.ASH_LOST.off, R.ASH_NEXT.off, R.IRQ_UNASSIGNED.off, R.TNK_AV_AUTH.off], o < 2 ^ 28) o ho
  simp only [regAddr]
  omega

theorem rd_ashPut (ty l : Nat) (b : Bytes) : (d.ashPut ty l b).rd k g = d.rd k g := by
  unfold Dev.ashPut
  extract_lets lim
  split
  · exact rd_bump_addr d 1 (regAddr_unreported hq (by decide) 0)
  · exact rd_wr_addr _ _ (regAddr_unreported hq (by decide) 0)

theorem rd_raise_unreported (n : Nat) : (d.raise n).rd k g = d.rd k g := rd_raise d n (regAddr_unreported hq (by decide) 0)

theorem rd_descriptor (l die blk u c a x : Nat) (b : Bytes) : (d.descriptor l die blk u c a x b).rd k g = d.rd k g := by
  unfold Dev.descriptor
  dsimp only
  split
  · rfl
  · rw [rd_raise_unreported _ hq]
    split <;> exact rd_ashPut _ hq _ _ _

theorem rd_replyRaw (h : Hdr) (op st rs : Nat) (b : Bytes) (key : Option Bytes) : (d.replyRaw h op st rs b key).rd k g = d.rd k g := by
  have hcount : (if st = St.authFail then d.bump 0 R.TNK_AV_AUTH else d).rd k g = d.rd k g := by
    split
    · exact rd_bump_addr d 1 (regAddr_unreported hq (by decide) 0)
    · rfl
  unfold Dev.replyRaw
  dsimp only
  split
  · exact hcount
  · exact (rd_congr (by rw [sendPkt_frame]) k g).trans hcount

theorem rd_replyNow (c : Cmd) (st rs : Nat) (b : Bytes) : (d.replyNow c st rs b).rd k g = d.rd k g := by
  have hheld (e : Dev) (x : Session) : (if c.who < 4 then e.setSess c.who x else e).rd k g = e.rd k g := by split <;> rfl
  have hauth (e : Dev) : (e.countAuth c.who st).rd k g = e.rd k g := rd_congr (by rw [countAuth_frame]) k g
  have hraw {e t : Dev} (key : Option Bytes) (h : t.rd k g = e.rd k g) : (t.replyRaw c.h c.op st rs b key).rd k g = e.rd k g :=
    (rd_replyRaw t hq ..).trans h
  unfold Dev.replyNow
  dsimp only
  split
  · exact hraw _ rfl
  · split
    · rfl
    · split
      · exact hraw _ (hheld _ _)
      · exact (hauth _).trans (hraw _ (hheld _ _))

/-- A final reply, with those that waited for it. -/
theorem rd_finalReply (c : Cmd) (st rs : Nat) (b : Bytes) : (d.finalReply c st rs b).rd k g = d.rd k g := by
  have hdue (e : Dev) : e.replyDue.rd k g = e.rd k g := by
    unfold Dev.replyDue
    split
    · rfl
    · exact rd_replyNow _ hq ..
  have hrepeat (n : Nat) (e : Dev) : (Nat.repeat Dev.replyDue n e).rd k g = e.rd k g := by
    induction n with
    | zero => rfl
    | succ n ih => exact (hdue _).trans ih
  unfold Dev.finalReply
  split
  · rfl
  · exact (hrepeat _ _).trans (rd_replyNow d hq ..)

end

/-- A counter of `w` bits stops at its highest value. -/
theorem rd_bump_eq (d : Dev) (w : Nat) {k : Nat} {f : Fld} (h : f.lo ≤ f.hi ∧ f.hi < 32 ∧ f.hi + 1 - f.lo = w) (n : Nat) :
    (d.bump k f n).rd k f = min (d.rd k f + n) (2 ^ w - 1) := by
  obtain ⟨hle, hhi, hw⟩ := h
  exact hw ▸ rd_bump_self d k f n hle hhi

end Sys2Proof.Machine
end

section
/-! The clocks of one die (R412–R426). -/

namespace Sys2Proof.Machine

variable (d : Dev)

theorem clkDie_congr {d e : Dev} (h : d.clk = e.clk) (k : Nat) : d.clkDie k = e.clkDie k := by
  simp only [Dev.clkDie, h]

@[simp] theorem clkDie_setClkDie_self (k : Nat) (f : ClkDie → ClkDie) : (d.setClkDie k f).clkDie k = f (d.clkDie k) := amGet_amPut_self _ _ _ _

@[simp] theorem rd_setClkDie (j : Nat) (f : ClkDie → ClkDie) (k : Nat) (g : Fld) : (d.setClkDie j f).rd k g = d.rd k g := rfl

@[simp] theorem rd_unsettled (k : Nat) (g : Fld) : d.unsettled.rd k g = d.rd k g := rfl

@[simp] theorem rd_noClock (j k : Nat) (g : Fld) : (d.noClock j).rd k g = d.rd k g := by
  unfold Dev.noClock Dev.hobCondition
  split
  · split <;> rfl
  · rfl

theorem rd_beginReturn (j k : Nat) (g : Fld) : (d.beginReturn j).rd k g = d.rd k g := by
  unfold Dev.beginReturn
  split <;> rfl

/-- A field that no clock fault or event of another die writes. -/
def Fld.clock (g : Fld) : Bool := g.unreported && decide (g.off < 0x7000000)

theorem rd_clockEvent {k : Nat} {g : Fld} (hg : g.clock = true) (j : Nat) : (d.clockEvent j).rd k g = d.rd k g := by
  obtain ⟨hq, hlow⟩ := Bool.and_eq_true_iff.1 hg
  unfold Dev.clockEvent
  split
  · exact rd_flueEvent_low d _ _ (of_decide_eq_true hlow)
  · exact rd_raise_unreported d hq _

theorem rd_clockFault {k : Nat} {g : Fld} (hg : g.clock = true) (j u a : Nat) : (d.clockFault j u a).rd k g = d.rd k g :=
  (rd_clockEvent _ hg j).trans (rd_descriptor d (Bool.and_eq_true_iff.1 hg).1 ..)

/-- A field that a switch-over of its own die does not write: not the source in use, nor the count of switches. -/
def Fld.keptBySwitch (g : Fld) : Bool := g.clock && decide (g.hi < 32 ∧ (g.off = R.CLK_STATE_SRC.off → 1 < g.lo) ∧ g.off ≠ R.CLK_SWITCHES.off)

theorem rd_toSpare_other {j k : Nat} {g : Fld} (hg : g.clock = true) (h : k ≠ j ∨ g.keptBySwitch = true) : (d.toSpare j).rd k g = d.rd k g := by
  have hlow := of_decide_eq_true (Bool.and_eq_true_iff.1 hg).2
  have hdie (hk : k ≠ j) {o : Nat} (ho : o < 2 ^ 28) : regAddr k g.off ≠ regAddr j o := regAddr_die (by omega) ho hk
  show Dev.rd (Dev.bump (Dev.wr _ _ _ _) _ _) _ _ = _
  by_cases hk : k = j
  case neg => rw [rd_bump_addr _ _ (hdie hk (by decide)), rd_wr_addr _ _ (hdie hk (by decide))]
  subst hk
  have hkept := h.resolve_left (· rfl)
  obtain ⟨hhi, hsrc, hsw⟩ := of_decide_eq_true (Bool.and_eq_true_iff.1 hkept).2
  rw [rd_bump_off _ _ ⟨by omega, by decide, hsw⟩]
  by_cases ho : g.off = R.CLK_STATE_SRC.off
  · exact rd_wr_bits _ _ ⟨ho, hhi, .inr (hsrc ho)⟩
  · exact rd_wr_off _ _ ⟨by omega, by decide, ho⟩

theorem rd_toSpare_src (k : Nat) : (d.toSpare k).rd k R.CLK_STATE_SRC = 1 := by
  show Dev.rd (Dev.bump (Dev.wr _ _ _ _) _ _) _ _ = _
  rw [rd_bump_off _ _ (by decide), rd_wr_eq _ (by decide) (by decide)]

theorem rd_toSpare_switches (k : Nat) : (d.toSpare k).rd k R.CLK_SWITCHES = min (d.rd k R.CLK_SWITCHES + 1) (2 ^ 32 - 1) := by
  show Dev.rd (Dev.bump (Dev.wr _ _ _ _) _ _) _ _ = _
  rw [rd_bump_eq _ 32 (by decide), rd_wr_off _ _ (by decide)]

/-- A MAIN that failed changes, of the clock registers, the source in use and the count of switches of its own die. -/
theorem rd_mainFailed {j k : Nat} {g : Fld} (hg : g.clock = true) (h : k ≠ j ∨ g.keptBySwitch = true) : (d.mainFailed j).rd k g = d.rd k g := by
  unfold Dev.mainFailed
  split
  · rfl
  · split
    · rw [rd_clockFault _ hg, rd_toSpare_other _ hg h]
    · exact rd_noClock ..

theorem rd_mainFailed_src {k : Nat} (hsrc : d.rd k R.CLK_STATE_SRC = 0) (hspare : d.rd k R.CLK_STATE_SPARE_LOCKED = 1) :
    (d.mainFailed k).rd k R.CLK_STATE_SRC = 1 := by
  rw [Dev.mainFailed, if_neg (not_not_intro hsrc), if_pos hspare, rd_clockFault _ (by decide), rd_toSpare_src]

theorem fabFailed_mainFailed (j : Nat) : (d.mainFailed j).fab.failed = d.fab.failed := by
  have hevent (e : Dev) : (e.clockEvent j).fab = e.fab := by
    unfold Dev.clockEvent
    split
    · rw [Dev.flueEvent, retPut_frame]
    · rw [raise_frame]
  have hfault (e : Dev) : (e.clockFault j 0 1).fab = e.fab := by
    unfold Dev.clockFault
    rw [hevent, descriptor_frame]
  unfold Dev.mainFailed
  split
  · rfl
  · split
    · rw [hfault]
      rfl
    · unfold Dev.noClock Dev.hobCondition
      split
      · split <;> rfl
      · rfl

/-! A lost reference (R412, R416, R417). -/

/-- One die of a lost reference: it switches over, and both its PLLs have lost lock. -/
def Dev.refLost (d : Dev) (k : Nat) : Dev :=
  let d := ((d.wr k R.CLK_STATE_REF_OK 0).bump k R.CLK_REF_LOSS).mainFailed k
  let d := d.setClkDie k fun x => { x with returning := false }
  ((d.wr k R.CLK_STATE_MAIN_LOCKED 0).wr k R.CLK_STATE_HOLDOVER (d.rd k R.CLK_STATE_SPARE_LOCKED)).wr k R.CLK_STATE_SPARE_LOCKED 0

/-- The dies of a lost reference in turn; one whose reference was lost before, or that is out of service, is passed over. -/
def Dev.refStep (d : Dev) (k : Nat) : Dev := if d.rd k R.CLK_STATE_REF_OK = 0 ∨ ¬d.dieUp k then d else d.refLost k

theorem refLoss_next (ref : Nat) {s : State} (hon : s.dev.hearthOff = false) :
    exec (.refLoss ref) s = .next (s.withDev ((refDies ref).foldl Dev.refStep s.dev)) := by
  rw [exec_refLoss, execRefLoss, hearthEvent_on hon]
  rfl

/-- What the clocks of a die are known by: its clock registers, and whether it is in service. -/
def Dev.clockView (d : Dev) (k : Nat) : (Fld → Nat) × Bool := (fun g => if g.clock then d.rd k g else 0, d.dieUp k)

theorem rd_of_clockView {d e : Dev} {k : Nat} {g : Fld} (hg : g.clock = true) (h : d.clockView k = e.clockView k) : d.rd k g = e.rd k g := by
  have hf := congrFun (congrArg Prod.fst h) g
  simpa only [Dev.clockView, hg, if_true] using hf

theorem refDies_nodup (ref : Nat) : (refDies ref).Nodup := by
  match ref with
  | 0 | 1 | 2 => decide
  | _ + 3 => exact List.nodup_nil

/-- A step of another die is not seen. -/
theorem clockView_refStep {j k : Nat} (h : j ≠ k) : (d.refStep j).clockView k = d.clockView k := by
  unfold Dev.refStep
  split
  · rfl
  · have hfab : (d.refLost j).fab.failed = d.fab.failed := (fabFailed_mainFailed _ j).trans rfl
    have hrd (g : Fld) (hg : g.clock = true) : (d.refLost j).rd k g = d.rd k g := by
      have hoff : g.off < 2 ^ 28 := by
        have := of_decide_eq_true (Bool.and_eq_true_iff.1 hg).2
        omega
      have hdie {o : Nat} (ho : o < 2 ^ 28) : regAddr k g.off ≠ regAddr j o := regAddr_die hoff ho h.symm
      unfold Dev.refLost
      rw [rd_wr_addr _ _ (hdie (by decide)), rd_wr_addr _ _ (hdie (by decide)), rd_wr_addr _ _ (hdie (by decide)), rd_setClkDie,
        rd_mainFailed _ hg (.inl h.symm), rd_bump_addr _ _ (hdie (by decide)), rd_wr_addr _ _ (hdie (by decide))]
    unfold Dev.clockView
    refine Prod.ext (funext fun g => ?_) ?_
    · by_cases hg : g.clock = true
      · simp only [hg, if_true, hrd g hg]
      · simp only [hg, if_false, Bool.false_eq_true]
    · simp only [Dev.dieUp, Dev.hobUp, hfab]

/-- In a fold whose other steps leave a view, the one step of `k` decides it. -/
theorem foldl_view_at {α β γ : Type} {f : β → α → β} {view : β → γ} {k : α} {l : List α} (hl : l.Nodup) (hk : k ∈ l)
    (hother : ∀ b a, a ≠ k → view (f b a) = view b) (b : β) : ∃ e, view e = view b ∧ view (l.foldl f b) = view (f e k) := by
  obtain ⟨l₁, l₂, rfl⟩ := List.append_of_mem hk
  have hkeep (l : List α) (hn : k ∉ l) (b : β) : view (l.foldl f b) = view b :=
    List.foldlRecOn l f (motive := fun x => view x = view b) rfl fun x hx a ha => (hother x a fun he => hn (he ▸ ha)).trans hx
  rw [List.nodup_append, List.nodup_cons] at hl
  obtain ⟨-, ⟨h2, -⟩, hdisj⟩ := hl
  refine ⟨l₁.foldl f b, hkeep l₁ (fun hm => hdisj _ hm _ List.mem_cons_self rfl) b, ?_⟩
  rw [List.foldl_append, List.foldl_cons, hkeep l₂ h2]

theorem rd_refLost (k : Nat) :
    let t := d.refLost k
    t.rd k R.CLK_STATE_REF_OK = 0 ∧ t.rd k R.CLK_STATE_MAIN_LOCKED = 0 ∧ t.rd k R.CLK_STATE_SPARE_LOCKED = 0 ∧
      t.rd k R.CLK_STATE_HOLDOVER = d.rd k R.CLK_STATE_SPARE_LOCKED ∧ t.rd k R.CLK_REF_LOSS = min (d.rd k R.CLK_REF_LOSS + 1) (2 ^ 32 - 1) := by
  have hspare : (((d.wr k R.CLK_STATE_REF_OK 0).bump k R.CLK_REF_LOSS).mainFailed k).rd k R.CLK_STATE_SPARE_LOCKED = d.rd k R.CLK_STATE_SPARE_LOCKED := by
    rw [rd_mainFailed _ (by decide) (.inr (by decide)), rd_bump_off _ _ (by decide), rd_wr_bits _ _ (by decide)]
  have hlt : d.rd k R.CLK_STATE_SPARE_LOCKED < 2 ^ 1 := rd_lt ..
  unfold Dev.refLost
  refine ⟨?_, ?_, ?_, ?_, ?_⟩
  · rw [rd_wr_bits _ _ (by decide), rd_wr_bits _ _ (by decide), rd_wr_bits _ _ (by decide), rd_setClkDie, rd_mainFailed _ (by decide) (.inr (by decide)),
      rd_bump_off _ _ (by decide), rd_wr_eq _ (by decide) (by decide)]
  · rw [rd_wr_bits _ _ (by decide), rd_wr_bits _ _ (by decide), rd_wr_eq _ (by decide) (by decide)]
  · rw [rd_wr_eq _ (by decide) (by decide)]
  · rw [rd_wr_bits _ _ (by decide), rd_setClkDie, hspare, rd_wr_eq _ (by decide) hlt]
  · rw [rd_wr_off _ _ (by decide), rd_wr_off _ _ (by decide), rd_wr_off _ _ (by decide), rd_setClkDie, rd_mainFailed _ (by decide) (.inr (by decide)),
      rd_bump_eq _ 32 (by decide), rd_wr_off _ _ (by decide)]

/-- Each die of a lost reference, in service and with the reference good until then, loses both locks. -/
theorem refLoss_loses {ref k : Nat} (hk : k ∈ refDies ref) (hup : d.dieUp k = true) (hok : d.rd k R.CLK_STATE_REF_OK = 1) :
    let t := (refDies ref).foldl Dev.refStep d
    t.rd k R.CLK_STATE_REF_OK = 0 ∧ t.rd k R.CLK_STATE_MAIN_LOCKED = 0 ∧ t.rd k R.CLK_STATE_SPARE_LOCKED = 0 ∧
      t.rd k R.CLK_STATE_HOLDOVER = d.rd k R.CLK_STATE_SPARE_LOCKED ∧ t.rd k R.CLK_REF_LOSS = min (d.rd k R.CLK_REF_LOSS + 1) (2 ^ 32 - 1) := by
  obtain ⟨e, he, hview⟩ := foldl_view_at (view := fun e => Dev.clockView e k) (refDies_nodup ref) hk (fun d j hj => clockView_refStep d hj) d
  have heup : e.dieUp k = true := (congrArg Prod.snd he).trans hup
  have heok : e.rd k R.CLK_STATE_REF_OK = 1 := (rd_of_clockView (by decide) he).trans hok
  have hstep : e.refStep k = e.refLost k := if_neg (by simp [heok, heup])
  obtain ⟨h1, h2, h3, h4, h5⟩ := rd_refLost e k
  simp only [hstep] at hview
  dsimp only
  rw [rd_of_clockView (by decide) hview, rd_of_clockView (by decide) hview, rd_of_clockView (by decide) hview, rd_of_clockView (by decide) hview,
    rd_of_clockView (g := R.CLK_REF_LOSS) (by decide) hview, ← rd_of_clockView (by decide) he, ← rd_of_clockView (g := R.CLK_REF_LOSS) (by decide) he]
  exact ⟨h1, h2, h3, h4, h5⟩

/-- R412: a reference that is valid again says so on each of its dies. -/
theorem refValid_shows (ref : Nat) :
    let t := (refDies ref).foldl (fun d k => d.wr k R.CLK_STATE_REF_OK 1) d
    t = { d with regs := t.regs } ∧ ∀ k ∈ refDies ref, t.rd k R.CLK_STATE_REF_OK = 1 := by
  have hwrs (l : List Nat) (d : Dev) : l.foldl (fun d k => d.wr k R.CLK_STATE_REF_OK 1) d = d.wrs (l.map fun k => (k, R.CLK_STATE_REF_OK, 1)) := by
    rw [Dev.wrs, List.foldl_map]
  refine ⟨by rw [hwrs]; exact wrs_frame d _, fun k hk => ?_⟩
  obtain ⟨e, -, hview⟩ := foldl_view_at (f := fun (d : Dev) k => d.wr k R.CLK_STATE_REF_OK 1) (view := fun e => Dev.rd e k R.CLK_STATE_REF_OK) (refDies_nodup ref) hk
    (fun d j hj => rd_wr_die d 1 ⟨by decide, by decide, hj.symm⟩) d
  exact hview.trans (rd_wr_eq e (by decide) (by decide))

/-! A PLL that loses or acquires lock (R415–R418). -/

theorem clkDie_toSpare (k : Nat) : (d.toSpare k).clkDie k = { d.clkDie k with returning := false } := by
  have hclk : ((d.wr k R.CLK_STATE_SRC 1).bump k R.CLK_SWITCHES).unsettled.clk = d.clk := by
    show ((d.wr k R.CLK_STATE_SRC 1).bump k R.CLK_SWITCHES).clk = _
    rw [bump_clk, wr_clk]
  unfold Dev.toSpare
  rw [clkDie_setClkDie_self, clkDie_congr hclk]

theorem clkDie_clockEvent (j k : Nat) : (d.clockEvent j).clkDie k = d.clkDie k := by
  unfold Dev.clockEvent
  split
  · exact clkDie_congr (by rw [Dev.flueEvent, retPut_frame]) k
  · exact clkDie_congr (by rw [raise_frame]) k

theorem clkDie_clockFault (j u a k : Nat) : (d.clockFault j u a).clkDie k = d.clkDie k :=
  (clkDie_clockEvent _ j k).trans (clkDie_congr (by rw [descriptor_frame]) k)

theorem seed_mainFailed (k : Nat) : ((d.mainFailed k).clkDie k).seed = (d.clkDie k).seed := by
  unfold Dev.mainFailed
  split
  · rfl
  · split
    · rw [clkDie_clockFault, clkDie_toSpare]
    · refine congrArg ClkDie.seed (clkDie_congr ?_ k)
      unfold Dev.noClock Dev.hobCondition
      split
      · split <;> rfl
      · rfl

theorem seed_beginReturn (k : Nat) : ((d.beginReturn k).clkDie k).seed = (d.clkDie k).seed := by
  unfold Dev.beginReturn
  split
  · rw [clkDie_setClkDie_self]
  · rfl

/-- R415, R416: MAIN of a die has lost lock; `losses` are those within the last second. -/
def Dev.mainLost (d : Dev) (k : Nat) (losses : List Nat) : Dev :=
  ((d.wr k R.CLK_STATE_MAIN_LOCKED 0).bump k R.CLK_MAIN_LOSS).setClkDie k fun x => { x with losses := losses, returning := false }

/-- The losses within the last second, this one first. -/
def Dev.recentLosses (d : Dev) (k : Nat) : List Nat := d.stamp :: (d.clkDie k).losses.filter fun t => d.within t (10 ^ 9)

theorem mainLockLoss_next {die : Nat} {s : State} (hon : s.dev.hearthOff = false) (hkind : dieKind die ≠ 0) (hup : s.dev.dieUp die = true)
    (hlock : s.dev.rd die R.CLK_STATE_MAIN_LOCKED = 1) : exec (.mainLockLoss die) s = .next (s.withDev
      (let l := s.dev.recentLosses die
       (if l.length ≥ 4 then (s.dev.mainLost die l).wr die R.CLK_STATE_MAIN_HELD 1 else s.dev.mainLost die l).mainFailed die)) := by
  have hgo : ¬(dieKind die = 0 ∨ ¬s.dev.dieUp die = true ∨ s.dev.rd die R.CLK_STATE_MAIN_LOCKED = 0) := by simp [hkind, hup, hlock]
  rw [exec_mainLockLoss, execMainLockLoss, hearthEvent_on hon, if_neg hgo]
  rfl

theorem rd_mainLost {k : Nat} (l : List Nat) :
    let t := d.mainLost k l
    t.rd k R.CLK_STATE_MAIN_LOCKED = 0 ∧ t.rd k R.CLK_MAIN_LOSS = min (d.rd k R.CLK_MAIN_LOSS + 1) (2 ^ 32 - 1) ∧
      t.rd k R.CLK_STATE_SRC = d.rd k R.CLK_STATE_SRC ∧ t.rd k R.CLK_STATE_SPARE_LOCKED = d.rd k R.CLK_STATE_SPARE_LOCKED := by
  unfold Dev.mainLost
  refine ⟨?_, ?_, ?_, ?_⟩ <;> rw [rd_setClkDie]
  · rw [rd_bump_off _ _ (by decide), rd_wr_eq _ (by decide) (by decide)]
  · rw [rd_bump_eq _ 32 (by decide), rd_wr_off _ _ (by decide)]
  · rw [rd_bump_off _ _ (by decide), rd_wr_bits _ _ (by decide)]
  · rw [rd_bump_off _ _ (by decide), rd_wr_bits _ _ (by decide)]

/-- R416: a die on MAIN that loses lock runs on SPARE if that is locked. -/
theorem rd_mainLockLoss {die : Nat} (l : List Nat) (held : Prop) [Decidable held]
    (hspare : d.rd die R.CLK_STATE_SRC = 0 → d.rd die R.CLK_STATE_SPARE_LOCKED = 1) :
    let t := (if held then (d.mainLost die l).wr die R.CLK_STATE_MAIN_HELD 1 else d.mainLost die l).mainFailed die
    t.rd die R.CLK_STATE_MAIN_LOCKED = 0 ∧ t.rd die R.CLK_MAIN_LOSS = min (d.rd die R.CLK_MAIN_LOSS + 1) (2 ^ 32 - 1) ∧
      (d.rd die R.CLK_STATE_SRC = 0 → t.rd die R.CLK_STATE_SRC = 1) := by
  obtain ⟨hlock, hloss, hsrc, hsp⟩ := rd_mainLost d (k := die) l
  have hkeep {g : Fld} (hg : (R.CLK_STATE_MAIN_HELD.off ≠ g.off ∨ g.hi < R.CLK_STATE_MAIN_HELD.lo) ∧ g.off < 2 ^ 28 ∧ g.hi < 32) :
      (if held then (d.mainLost die l).wr die R.CLK_STATE_MAIN_HELD 1 else d.mainLost die l).rd die g = (d.mainLost die l).rd die g := by
    obtain ⟨hne | hbits, hlow, hhi⟩ := hg <;> split
    · exact rd_wr_off _ _ ⟨hlow, by decide, hne.symm⟩
    · rfl
    · by_cases ho : g.off = R.CLK_STATE_MAIN_HELD.off
      · exact rd_wr_bits _ _ ⟨ho, hhi, .inl hbits⟩
      · exact rd_wr_off _ _ ⟨hlow, by decide, ho⟩
    · rfl
  refine ⟨?_, ?_, fun h0 => rd_mainFailed_src _ ?_ ?_⟩
  · rw [rd_mainFailed _ (by decide) (.inr (by decide)), hkeep (by decide), hlock]
  · rw [rd_mainFailed _ (by decide) (.inr (by decide)), hkeep (by decide), hloss]
  · rw [hkeep (by decide), hsrc, h0]
  · rw [hkeep (by decide), hsp, hspare h0]

/-- R418: a die on MAIN that loses lock without SPARE has no clock. -/
theorem mainFailed_noClock {k : Nat} (hsrc : d.rd k R.CLK_STATE_SRC = 0) (hspare : d.rd k R.CLK_STATE_SPARE_LOCKED = 0) : d.mainFailed k = d.noClock k := by
  rw [Dev.mainFailed, if_neg (not_not_intro hsrc), if_neg (by simp [hspare])]

theorem pllLock_main {die : Nat} {s : State} (hon : s.dev.hearthOff = false) (hkind : dieKind die ≠ 0) (hup : s.dev.dieUp die = true)
    (hok : s.dev.rd die R.CLK_STATE_REF_OK = 1) :
    exec (.pllLockAcquire die 0) s = .next (s.withDev ((s.dev.wr die R.CLK_STATE_MAIN_LOCKED 1).beginReturn die)) := by
  rw [exec_pllLockAcquire, execPllLockAcquire, hearthEvent_on hon, if_neg (by simp [hkind, hup, hok])]
  rfl

/-- R413, R418: SPARE has locked: its holdover ends and it takes a new seed. -/
def Dev.spareLocked (d : Dev) (k : Nat) : Dev :=
  ((d.wr k R.CLK_STATE_SPARE_LOCKED 1).wr k R.CLK_STATE_HOLDOVER 0).setClkDie k fun x => { x with seed := some (d.rd k R.CLK_SEED) }

theorem pllLock_spare {die : Nat} {s : State} (hon : s.dev.hearthOff = false) (hkind : dieKind die ≠ 0) (hup : s.dev.dieUp die = true)
    (hok : s.dev.rd die R.CLK_STATE_REF_OK = 1) : exec (.pllLockAcquire die 1) s = .next (s.withDev
      (if (s.dev.spareLocked die).rd die R.CLK_STATE_MAIN_LOCKED = 0 then (s.dev.spareLocked die).mainFailed die else (s.dev.spareLocked die).beginReturn die)) := by
  rw [exec_pllLockAcquire, execPllLockAcquire, hearthEvent_on hon, if_neg (by simp [hkind, hup, hok])]
  rfl

/-- What a SPARE that has locked shows, whether its die then switches over, returns or runs on. -/
theorem rd_spareLocked (k : Nat) :
    let e := d.spareLocked k
    let t := if e.rd k R.CLK_STATE_MAIN_LOCKED = 0 then e.mainFailed k else e.beginReturn k
    t.rd k R.CLK_STATE_SPARE_LOCKED = 1 ∧ t.rd k R.CLK_STATE_HOLDOVER = 0 ∧ (t.clkDie k).seed = some (d.rd k R.CLK_SEED) := by
  have hlock : (d.spareLocked k).rd k R.CLK_STATE_SPARE_LOCKED = 1 := by
    rw [Dev.spareLocked, rd_setClkDie, rd_wr_bits _ _ (by decide), rd_wr_eq _ (by decide) (by decide)]
  have hhold : (d.spareLocked k).rd k R.CLK_STATE_HOLDOVER = 0 := by
    rw [Dev.spareLocked, rd_setClkDie, rd_wr_eq _ (by decide) (by decide)]
  have hseed : ((d.spareLocked k).clkDie k).seed = some (d.rd k R.CLK_SEED) := by rw [Dev.spareLocked, clkDie_setClkDie_self]
  intro e t
  simp only [t]
  split
  · exact ⟨(rd_mainFailed _ (by decide) (.inr (by decide))).trans hlock, (rd_mainFailed _ (by decide) (.inr (by decide))).trans hhold, (seed_mainFailed _ k).trans hseed⟩
  · exact ⟨(rd_beginReturn ..).trans hlock, (rd_beginReturn ..).trans hhold, (seed_beginReturn _ k).trans hseed⟩

/-- R418, R419: a return that was begun ends on MAIN. -/
theorem mainReturn_ends {die : Nat} {s : State} (hon : s.dev.hearthOff = false) (hret : (s.dev.clkDie die).returning = true) :
    exec (.mainReturn die) s = .next (s.withDev (((s.dev.wr die R.CLK_STATE_SRC 0).unsettled.setClkDie die fun x =>
      { x with returning := false, waiting := [] }).completeAll (s.dev.clkDie die).waiting St.done 0)) := by
  rw [exec_mainReturn, execMainReturn, hearthEvent_on hon, if_neg (not_not_intro hret)]

/-! Commands. -/

/-- A register of a die, as a command reports it (R424). -/
def clkWord (d : Dev) (k : Nat) (f : Fld) : Bytes := enc 4 (rfGet d.regs (regAddr k f.off)).toNat

theorem dieKind_ne_zero {k : Nat} (h : dieKind k ≠ 0) : k ≤ 4 ∨ k = 8 ∨ k = 9 := by
  unfold dieKind at h
  split at h
  · omega
  · split at h
    · omega
    · split at h
      · next h89 => exact .inr h89
      · exact absurd rfl h

/-- R36: a flue die that a clock command may name can be reached. -/
theorem flueUp_of_clkFault {k : Nat} (hf : d.clkFault k = none) (hk : k = 8 ∨ k = 9) : d.flueUp k = true := by
  unfold Dev.clkFault at hf
  split at hf
  · exact absurd hf (by simp)
  · split at hf
    · exact absurd hf (by simp)
    · next h => exact not_not.1 fun hn => h ⟨hk, hn⟩

theorem clkStatus_die {h : Hdr} {p : Bytes} {s : State} (hm : mayBegin (.clkStatus h p) s = true) : dieKind (u8 p 0) ≠ 0 := by
  have hcheck : specClkStatus.check s h p = none := check_of_mayBegin rfl rfl hm
  have hc := failIf_eq_none.1 hcheck
  simp at hc
  exact hc.1

theorem clkStatus_reports {h : Hdr} {p : Bytes} {s : State} (hm : mayBegin (.clkStatus h p) s = true)
    (hf : (begunDev (.clkStatus h p) s).clkFault (u8 p 0) = none) (hans : h.answered = none) :
    ∃ b : Bytes, b.length = 12 ∧ exec (.clkStatus h p) s = .next (s.withDev
      (let d := begunDev (.clkStatus h p) s
       let k := u8 p 0
       d.finalReply (begunCmd (.clkStatus h p) s) St.done 0
        (clkWord d k R.CLK_STATE_SRC ++ clkWord d k R.CLK_SWITCHES ++ clkWord d k R.CLK_MAIN_LOSS ++ clkWord d k R.CLK_REF_LOSS ++ b))) := by
  have hflue : ∀ k ∈ (if u8 p 0 ≥ 8 then [u8 p 0] else []), (begunDev (.clkStatus h p) s).flueUp k = true := by
    intro k hk
    split at hk
    · next h8 =>
      obtain rfl := List.mem_singleton.1 hk
      exact flueUp_of_clkFault _ hf ((dieKind_ne_zero (clkStatus_die hm)).resolve_left (by omega))
    · exact absurd hk List.not_mem_nil
  refine ⟨if u8 p 0 ≥ 8 then clkWord (begunDev (.clkStatus h p) s) (u8 p 0) R.CLK_FR_STATE ++ clkWord (begunDev (.clkStatus h p) s) (u8 p 0) R.CLK_FR_ERROR
    ++ clkWord (begunDev (.clkStatus h p) s) (u8 p 0) R.CLK_FR_HOLDOVERS else zeros 12, ?_, ?_⟩
  · split <;> simp [clkWord, enc_length, zeros_length]
  · rw [exec_clkStatus, execClkStatus, anvil_of_mayBegin (p := p) rfl rfl rfl hm]
    dsimp only
    rw [hf]
    dsimp only
    rw [flueRead_reached _ _ hflue hans]
    rfl

/-- R425: WIN, N and the seed of one die. -/
def clkConfigured (p : Bytes) (d : Dev) (k : Nat) : Dev :=
  let d := (d.wr k R.CLK_LOCK_CFG_WIN (u16 p 2)).wr k R.CLK_LOCK_CFG_N (u16 p 4)
  if u16 p 6 = 0 then d else d.wr k R.CLK_SEED (u16 p 6)

/-- The writes of a flue die: 0 for the lock settings, 1 for the seed. -/
def clkFlueWrite (p : Bytes) (d : Dev) (w : Nat × Nat) : Dev :=
  if w.2 = 0 then (d.wr w.1 R.CLK_LOCK_CFG_WIN (u16 p 2)).wr w.1 R.CLK_LOCK_CFG_N (u16 p 4) else d.wr w.1 R.CLK_SEED (u16 p 6)

def clkFlueReg (w : Nat × Nat) : Nat × Option Fld := (w.1, some (if w.2 = 0 then R.CLK_LOCK_CFG_WIN else R.CLK_SEED))

def clkFlueWrites (p : Bytes) (flue : List Nat) : List (Nat × Nat) := (flue.map fun k => (k, 0) :: (if u16 p 6 = 0 then [] else [(k, 1)])).flatten

/-- A die holds the lock settings a command gave. -/
def clkHolds (p : Bytes) (k : Nat) (d : Dev) : Prop := d.rd k R.CLK_LOCK_CFG_WIN = u16 p 2 ∧ d.rd k R.CLK_LOCK_CFG_N = u16 p 4

/-- Every write of the command that touches the lock settings gives them the same values, so a die that holds them keeps them. -/
def clkKeeps {α : Type} (p : Bytes) (f : Dev → α → Dev) : Prop := ∀ e x k, clkHolds p k e → clkHolds p k (f e x)

section
variable {p : Bytes} (hwin : u16 p 2 ≤ 500)
include hwin

theorem clkHolds_locks_self (k : Nat) : clkHolds p k ((d.wr k R.CLK_LOCK_CFG_WIN (u16 p 2)).wr k R.CLK_LOCK_CFG_N (u16 p 4)) := by
  refine ⟨?_, ?_⟩
  · rw [rd_wr_bits _ _ (by decide), rd_wr_eq _ (by decide) (show u16 p 2 < 2 ^ 9 by omega)]
  · rw [rd_wr_eq _ (by decide) (u16_lt p 4)]

theorem clkHolds_locks {k : Nat} (j : Nat) (h : clkHolds p k d) : clkHolds p k ((d.wr j R.CLK_LOCK_CFG_WIN (u16 p 2)).wr j R.CLK_LOCK_CFG_N (u16 p 4)) := by
  by_cases hk : k = j
  · exact hk ▸ clkHolds_locks_self d hwin k
  · obtain ⟨h1, h2⟩ := h
    refine ⟨?_, ?_⟩
    · rw [rd_wr_die _ _ ⟨by decide, by decide, hk⟩, rd_wr_die _ _ ⟨by decide, by decide, hk⟩, h1]
    · rw [rd_wr_die _ _ ⟨by decide, by decide, hk⟩, rd_wr_die _ _ ⟨by decide, by decide, hk⟩, h2]

omit hwin in
theorem clkHolds_seed {k : Nat} (j v : Nat) (h : clkHolds p k d) : clkHolds p k (d.wr j R.CLK_SEED v) := by
  have other {g : Fld} (hg : g.off < 2 ^ 28 ∧ g.off ≠ R.CLK_SEED.off) : (d.wr j R.CLK_SEED v).rd k g = d.rd k g := rd_wr_off d v ⟨hg.1, by decide, hg.2⟩
  exact ⟨(other (by decide)).trans h.1, (other (by decide)).trans h.2⟩

theorem clkKeeps_configured : clkKeeps p (clkConfigured p) := by
  intro e j k h
  unfold clkConfigured
  dsimp only
  split
  · exact clkHolds_locks e hwin j h
  · exact clkHolds_seed _ j _ (clkHolds_locks e hwin j h)

theorem clkHolds_configured (k : Nat) : clkHolds p k (clkConfigured p d k) := by
  unfold clkConfigured
  dsimp only
  split
  · exact clkHolds_locks_self d hwin k
  · exact clkHolds_seed _ k _ (clkHolds_locks_self d hwin k)

theorem clkKeeps_flueWrite : clkKeeps p (flueStep clkFlueReg (clkFlueWrite p)) := by
  intro e w k h
  have hw : clkHolds p k (clkFlueWrite p e w) := by
    unfold clkFlueWrite
    split
    · exact clkHolds_locks e hwin w.1 h
    · exact clkHolds_seed e w.1 _ h
  exact ⟨(rd_flueStep ..).trans hw.1, (rd_flueStep ..).trans hw.2⟩

omit hwin in
theorem clkHolds_foldl {α : Type} {f : Dev → α → Dev} (hf : clkKeeps p f) (l : List α) {k : Nat} (h : clkHolds p k d) : clkHolds p k (l.foldl f d) :=
  List.foldlRecOn l f (motive := fun e => clkHolds p k e) h fun e he x _ => hf e x k he

omit hwin in
/-- What one step of a fold establishes and the others keep holds at its end. -/
theorem clkHolds_foldl_at {α : Type} {f : Dev → α → Dev} (hf : clkKeeps p f) {l : List α} {x : α} (hx : x ∈ l) {k : Nat} (h : ∀ e, clkHolds p k (f e x)) :
    clkHolds p k (l.foldl f d) := by
  obtain ⟨l₁, l₂, rfl⟩ := List.append_of_mem hx
  rw [List.foldl_append, List.foldl_cons]
  exact clkHolds_foldl _ hf l₂ (h _)

end

theorem clkConfigured_frame (p : Bytes) (k : Nat) : clkConfigured p d k = { d with regs := (clkConfigured p d k).regs } := by
  unfold clkConfigured
  dsimp only
  split
  · exact wrs_frame d [(k, R.CLK_LOCK_CFG_WIN, u16 p 2), (k, R.CLK_LOCK_CFG_N, u16 p 4)]
  · exact wrs_frame d [(k, R.CLK_LOCK_CFG_WIN, u16 p 2), (k, R.CLK_LOCK_CFG_N, u16 p 4), (k, R.CLK_SEED, u16 p 6)]

theorem foldl_configured_frame (p : Bytes) (l : List Nat) : l.foldl (clkConfigured p) d = { d with regs := (l.foldl (clkConfigured p) d).regs } := by
  induction l generalizing d with
  | nil => rfl
  | cons k l ih => rw [List.foldl_cons, ih, clkConfigured_frame]

theorem clkFlueWrite_frame (p : Bytes) (w : Nat × Nat) : clkFlueWrite p d w = { d with regs := (clkFlueWrite p d w).regs } := by
  unfold clkFlueWrite
  split
  · exact wrs_frame d [(w.1, R.CLK_LOCK_CFG_WIN, u16 p 2), (w.1, R.CLK_LOCK_CFG_N, u16 p 4)]
  · rfl

/-- CLK_CONFIG writes no register of another block. -/
theorem rd_configured_other (p : Bytes) (j : Nat) {k : Nat} {g : Fld} (hg : g.off < 2 ^ 28 ∧ R.CLK_SEED.off < g.off) : (clkConfigured p d j).rd k g = d.rd k g := by
  have other (e : Dev) {f : Fld} (v : Nat) (hf : f.off ≤ R.CLK_SEED.off) : (e.wr j f v).rd k g = e.rd k g := by
    refine rd_wr_off e v ⟨hg.1, Nat.lt_of_le_of_lt hf (by decide), ?_⟩
    have := hg.2
    omega
  unfold clkConfigured
  dsimp only
  split
  · rw [other _ _ (by decide), other _ _ (by decide)]
  · rw [other _ _ (by decide), other _ _ (by decide), other _ _ (by decide)]

theorem flueUp_congr {d e : Dev} {k : Nat} (hrd : d.rd 0 (R.DMP_HALF_ON (k - 8)) = e.rd 0 (R.DMP_HALF_ON (k - 8))) (hd : d.dmp = e.dmp) (hp : d.pwr = e.pwr)
    (ht : d.thm = e.thm) : d.flueUp k = e.flueUp k := by
  simp only [Dev.flueUp, hrd, hd, hp, ht]

theorem flueUp_configured (p : Bytes) (l : List Nat) {k : Nat} (hk : k = 8 ∨ k = 9) : (l.foldl (clkConfigured p) d).flueUp k = d.flueUp k := by
  have hrd : (l.foldl (clkConfigured p) d).rd 0 (R.DMP_HALF_ON (k - 8)) = d.rd 0 (R.DMP_HALF_ON (k - 8)) :=
    foldl_keeps (fun e : Dev => e.rd 0 (R.DMP_HALF_ON (k - 8))) (fun e j => rd_configured_other e p j (by obtain rfl | rfl := hk <;> decide)) l d
  refine flueUp_congr hrd ?_ ?_ ?_ <;> rw [foldl_configured_frame]

/-- What CLK_CONFIG makes of the device: the dies that answer at once, then the flue dies. -/
def clkConfigRun (p : Bytes) (dies : List Nat) (d : Dev) : Dev :=
  (clkFlueWrites p (dies.filter (· ≥ 8))).foldl (flueStep clkFlueReg (clkFlueWrite p)) ((dies.filter (· < 8)).foldl (clkConfigured p) d)

theorem mem_clkFlueWrites {p : Bytes} {l : List Nat} {w : Nat × Nat} (h : w ∈ clkFlueWrites p l) : w.1 ∈ l := by
  obtain ⟨ws, hws, hw⟩ := List.mem_flatten.1 h
  obtain ⟨k, hk, rfl⟩ := List.mem_map.1 hws
  split at hw
  · obtain rfl : w = (k, 0) := by simpa using hw
    exact hk
  · obtain rfl | rfl : w = (k, 0) ∨ w = (k, 1) := by simpa using hw
    · exact hk
    · exact hk

/-- R425: CLK_CONFIG where its flue dies can be reached and answer. -/
theorem clkConfig_runs {h : Hdr} {p : Bytes} {s : State} {dies : List Nat} (hm : mayBegin (.clkConfig h p) s = true)
    (hdies : dies = if u8 p 0 = 0xFF then [0] ++ (begunDev (.clkConfig h p) s).hobsUp ++ flueDies else [u8 p 0])
    (hf : (if u8 p 0 = 0xFF then none else (begunDev (.clkConfig h p) s).clkFault (u8 p 0)) = none)
    (hflue : ∀ k ∈ dies.filter (· ≥ 8), (k = 8 ∨ k = 9) ∧ (begunDev (.clkConfig h p) s).flueUp k = true ∧ (begunDev (.clkConfig h p) s).canAnswer k = true)
    (hans : h.answered = none) : exec (.clkConfig h p) s = .next (s.withDev
      ((clkConfigRun p dies (begunDev (.clkConfig h p) s)).finalReply (begunCmd (.clkConfig h p) s) St.done 0 [])) := by
  have hall : ¬¬(dies.filter (· ≥ 8)).all (begunDev (.clkConfig h p) s).flueUp = true :=
    not_not_intro (List.all_eq_true.2 fun k hk => (hflue k hk).2.1)
  have hrun := flueWrites_all (h := h) (dies := dies.filter (· ≥ 8)) (ws := clkFlueWrites p (dies.filter (· ≥ 8))) clkFlueReg (w := clkFlueWrite p)
    (d := (dies.filter (· < 8)).foldl (clkConfigured p) (begunDev (.clkConfig h p) s))
    (fun k hk => (flueUp_configured _ p _ (hflue k hk).1).trans (hflue k hk).2.1) hans
    (fun e x k => canAnswer_congr (by rw [clkFlueWrite_frame]) k)
    (fun x hx _ => by
      obtain ⟨k, n⟩ := x
      obtain ⟨hk, -, -⟩ := hflue k (mem_clkFlueWrites hx)
      unfold wroteAddr clkFlueReg
      obtain rfl | rfl := hk <;> dsimp only <;> split <;> decide)
    (fun x hx => (canAnswer_congr (by rw [foldl_configured_frame]) _).trans (hflue x.1 (mem_clkFlueWrites hx)).2.2)
  rw [exec_clkConfig, execClkConfig, anvil_of_mayBegin (p := p) rfl rfl rfl hm]
  dsimp only
  rw [hf, ← hdies]
  dsimp only
  rw [if_neg hall]
  trans
    let r := Dev.flueWrites ((dies.filter (· < 8)).foldl (clkConfigured p) (begunDev (.clkConfig h p) s)) h (dies.filter (· ≥ 8))
      (clkFlueWrites p (dies.filter (· ≥ 8))) clkFlueReg (clkFlueWrite p)
    .next (s.withDev (finish (begunCmd (.clkConfig h p) s) r.2.1 (r.2.2.getD .done)))
  · rfl
  · rw [hrun]
    rfl

theorem frame_after_regs {d e t : Dev} (he : e = { d with regs := e.regs }) (ht : t = { e with regs := t.regs, dmp := t.dmp, out := t.out }) :
    t = { d with regs := t.regs, dmp := t.dmp, out := t.out } := ht.trans (by rw [he])

theorem clkConfigRun_frame (p : Bytes) (dies : List Nat) :
    let t := clkConfigRun p dies d
    t = { d with regs := t.regs, dmp := t.dmp, out := t.out } := by
  exact frame_after_regs (foldl_configured_frame d p _) (flueSteps_frame _ clkFlueReg (fun e x => clkFlueWrite_frame e p x) _)

theorem clkHolds_run {p : Bytes} (hwin : u16 p 2 ≤ 500) {dies : List Nat} {k : Nat} (hk : k ∈ dies) : clkHolds p k (clkConfigRun p dies d) := by
  unfold clkConfigRun
  by_cases hlow : k < 8
  · exact clkHolds_foldl _ (clkKeeps_flueWrite hwin) _
      (clkHolds_foldl_at d (clkKeeps_configured hwin) (List.mem_filter.2 ⟨hk, decide_eq_true hlow⟩) fun e => clkHolds_configured e hwin k)
  · have hmem : (k, 0) ∈ clkFlueWrites p (dies.filter (· ≥ 8)) :=
      List.mem_flatten.2 ⟨_, List.mem_map.2 ⟨k, List.mem_filter.2 ⟨hk, decide_eq_true (Nat.not_lt.1 hlow)⟩, rfl⟩, List.mem_cons_self⟩
    refine clkHolds_foldl_at _ (clkKeeps_flueWrite hwin) hmem fun e => ?_
    obtain ⟨h1, h2⟩ := clkHolds_locks_self e hwin k
    exact ⟨(rd_flueStep ..).trans h1, (rd_flueStep ..).trans h2⟩

/-- R413: the seed of the one die named, where one is given. -/
theorem seed_clkConfigRun (p : Bytes) (k : Nat) : (clkConfigRun p [k] d).rd k R.CLK_SEED = if u16 p 6 = 0 then d.rd k R.CLK_SEED else u16 p 6 := by
  have locks (e : Dev) : ((e.wr k R.CLK_LOCK_CFG_WIN (u16 p 2)).wr k R.CLK_LOCK_CFG_N (u16 p 4)).rd k R.CLK_SEED = e.rd k R.CLK_SEED := by
    rw [rd_wr_off _ _ (by decide), rd_wr_off _ _ (by decide)]
  have seed (e : Dev) : (e.wr k R.CLK_SEED (u16 p 6)).rd k R.CLK_SEED = u16 p 6 := rd_wr_eq e (by decide) (u16_lt p 6)
  have step (e : Dev) (w : Nat × Nat) : (flueStep clkFlueReg (clkFlueWrite p) e w).rd k R.CLK_SEED = (clkFlueWrite p e w).rd k R.CLK_SEED := rd_flueStep ..
  have hlocks (e : Dev) : (clkFlueWrite p e (k, 0)).rd k R.CLK_SEED = e.rd k R.CLK_SEED := by rw [clkFlueWrite, if_pos rfl, locks]
  have hseed (e : Dev) : (clkFlueWrite p e (k, 1)).rd k R.CLK_SEED = u16 p 6 := by rw [clkFlueWrite, if_neg Nat.one_ne_zero, seed]
  unfold clkConfigRun clkFlueWrites
  by_cases hlow : k < 8
  · have hflue : [k].filter (· ≥ 8) = [] := by simp [hlow]
    have hself : [k].filter (· < 8) = [k] := by simp [hlow]
    rw [hflue, hself]
    show (clkConfigured p d k).rd k R.CLK_SEED = _
    unfold clkConfigured
    dsimp only
    split
    · rw [locks]
    · rw [seed]
  · have hflue : [k].filter (· ≥ 8) = [k] := by simp [Nat.not_lt.1 hlow]
    have hself : [k].filter (· < 8) = [] := by simp [Nat.not_lt.1 hlow]
    rw [hflue, hself]
    split <;>
      simp only [List.map_cons, List.map_nil, List.flatten_cons, List.flatten_nil, List.append_nil, List.foldl_nil, List.foldl_cons]
    · rw [step, hlocks]
    · rw [step, hseed]

theorem clkConfig_checked {h : Hdr} {p : Bytes} {s : State} (hm : mayBegin (.clkConfig h p) s = true) :
    (dieKind (u8 p 0) ≠ 0 ∨ u8 p 0 = 0xFF) ∧ u16 p 2 ≤ 500 := by
  have hcheck : specClkConfig.check s h p = none := check_of_mayBegin rfl rfl hm
  have hc := failIf_eq_none.1 hcheck
  simp at hc
  omega

/-! CLK_SELECT (R426). -/

/-- R426, R418: SPARE forced on a die that runs on MAIN, with SPARE locked. -/
def Dev.spareForced (d : Dev) (k : Nat) : Dev := ((d.setClkDie k fun x => { x with forced := true }).toSpare k).clockEvent k

theorem rd_spareForced (k : Nat) :
    let t := d.spareForced k
    t.rd k R.CLK_STATE_SRC = 1 ∧ (t.clkDie k).forced = true ∧ t.rd k R.CLK_SWITCHES = min (d.rd k R.CLK_SWITCHES + 1) (2 ^ 32 - 1) := by
  unfold Dev.spareForced
  refine ⟨?_, ?_, ?_⟩
  · rw [rd_clockEvent _ (by decide), rd_toSpare_src]
  · rw [clkDie_clockEvent, clkDie_toSpare, clkDie_setClkDie_self]
  · rw [rd_clockEvent _ (by decide), rd_toSpare_switches, rd_setClkDie]

theorem clkSelect_forces {h : Hdr} {p : Bytes} {s : State} (hm : mayBegin (.clkSelect h p) s = true)
    (hf : (begunDev (.clkSelect h p) s).clkFault (u8 p 0) = none) (hret : ((begunDev (.clkSelect h p) s).clkDie (u8 p 0)).returning = false) (hact : u8 p 1 = 1)
    (hsrc : (begunDev (.clkSelect h p) s).rd (u8 p 0) R.CLK_STATE_SRC = 0) (hspare : (begunDev (.clkSelect h p) s).rd (u8 p 0) R.CLK_STATE_SPARE_LOCKED = 1) :
    exec (.clkSelect h p) s = .next (s.withDev
      ((((begunDev (.clkSelect h p) s).finalReply (begunCmd (.clkSelect h p) s) St.accepted 0 []).spareForced (u8 p 0)).complete (begunCmd (.clkSelect h p) s) St.done 0)) := by
  rw [exec_clkSelect, execClkSelect, anvil_of_mayBegin (p := p) rfl rfl rfl hm]
  simp only [hf, hret, hact, rd_finalReply _ (show R.CLK_STATE_SRC.unreported = true by decide), hsrc,
    rd_finalReply _ (show R.CLK_STATE_SPARE_LOCKED.unreported = true by decide), hspare, Bool.false_eq_true, if_false, Nat.zero_ne_one, Nat.one_ne_zero]
  rfl

end Sys2Proof.Machine

namespace Sys2Proof.Proofs

open Sys2Proof.Machine

/-- Settles O56: each clock register is read back through the writes of one step, and a lost reference treats each of its dies by itself. -/
theorem clocksSwitchAndReturn : Obligations.ClocksSwitchAndReturn := by
  unfold Obligations.ClocksSwitchAndReturn
  refine ⟨?status, ?statusFault, ?config, ?configAll, ?returning, ?noMain, ?forced, ?refLoss, ?refValid, ?mainLoss, ?noClock, ?mainLocks, ?spareLocks, ?returned, ?spareLoss⟩
  case status =>
    intro h p s hm d c hf hans
    obtain ⟨b, hb, hrun⟩ := clkStatus_reports hm hf hans
    refine ⟨_, hrun, ?_, ?_⟩
    · simp only [clkWord, List.length_append, enc_length, hb]
    · simp only [clkWord, List.append_assoc]
      exact (be_enc 4 _ _).trans (Nat.mod_eq_of_lt (BitVec.isLt _))
  case statusFault =>
    refine fun h p r => ends_of_anvil (sp := specClkStatus) rfl rfl (exec_clkStatus · h p) fun c d hf => ?_
    simp only [hf]
  case config =>
    intro h p s hm d c hk hf hans hanswer
    obtain ⟨hkind, hwin⟩ := clkConfig_checked hm
    have hflue : ∀ k ∈ [u8 p 0].filter (· ≥ 8), (k = 8 ∨ k = 9) ∧ d.flueUp k = true ∧ d.canAnswer k = true := by
      intro k hmem
      obtain ⟨hk', h8⟩ := List.mem_filter.1 hmem
      obtain rfl := List.mem_singleton.1 hk'
      have h8 : 8 ≤ u8 p 0 := of_decide_eq_true h8
      have h89 := (dieKind_ne_zero (hkind.resolve_right hk)).resolve_left (by omega)
      exact ⟨h89, flueUp_of_clkFault d hf h89, hanswer h8⟩
    obtain ⟨hw, hn⟩ := clkHolds_run d hwin (List.mem_singleton_self (u8 p 0))
    exact ⟨_, clkConfig_runs hm (if_neg hk).symm ((if_neg hk).trans hf) hflue hans, clkConfigRun_frame .., hw, hn, seed_clkConfigRun ..⟩
  case configAll =>
    intro h p s hm d c hk h8 h9 ha8 ha9 hans
    obtain ⟨-, hwin⟩ := clkConfig_checked hm
    have hflue : ∀ k ∈ ([0] ++ d.hobsUp ++ flueDies).filter (· ≥ 8), (k = 8 ∨ k = 9) ∧ d.flueUp k = true ∧ d.canAnswer k = true := by
      intro k hmem
      obtain ⟨hk', hge⟩ := List.mem_filter.1 hmem
      have hge : 8 ≤ k := of_decide_eq_true hge
      obtain hlow | hk' := List.mem_append.1 hk'
      · obtain h0 | hhob := List.mem_append.1 hlow
        · have := List.mem_singleton.1 h0
          omega
        · have := (by decide : ∀ k ∈ hobDies, k < 8) k (List.mem_filter.1 hhob).1
          omega
      · obtain rfl | rfl : k = 8 ∨ k = 9 := by simpa [flueDies] using hk'
        · exact ⟨.inl rfl, h8, ha8⟩
        · exact ⟨.inr rfl, h9, ha9⟩
    exact ⟨_, clkConfig_runs hm (if_pos hk).symm (if_pos hk) hflue hans, clkConfigRun_frame .., fun k hk => clkHolds_run d hwin hk⟩
  case returning =>
    refine fun h p => ends_of_anvil (sp := specClkSelect) rfl rfl (exec_clkSelect · h p) fun c d ⟨hf, hret⟩ => ?_
    simp only [hf, hret, if_true]
  case noMain =>
    refine fun h p => ends_of_anvil (sp := specClkSelect) rfl rfl (exec_clkSelect · h p) fun c d ⟨hf, hret, hact, hmain⟩ => ?_
    simp only [hf, hret, hact, rd_finalReply d (show R.CLK_STATE_MAIN_LOCKED.unreported = true by decide), hmain, if_true, Bool.false_eq_true, if_false]
  case forced =>
    intro h p s hm d c hf hret hact hsrc hspare
    obtain ⟨h1, h2, h3⟩ := rd_spareForced (d.finalReply c St.accepted 0 []) (u8 p 0)
    exact ⟨_, clkSelect_forces hm hf hret hact hsrc hspare, h1, h2, h3.trans (by rw [rd_finalReply d (by decide)])⟩
  case refLoss =>
    intro ref k s hon hk hup hok _
    exact ⟨_, refLoss_next ref hon, refLoss_loses s.dev hk hup hok⟩
  case refValid =>
    intro ref s hon
    exact ⟨_, by rw [exec_refValid, execRefValid, hearthEvent_on hon], refValid_shows s.dev ref⟩
  case mainLoss =>
    intro die s hon hkind hup hlock hspare
    exact ⟨_, mainLockLoss_next hon hkind hup hlock, rd_mainLockLoss s.dev _ _ hspare⟩
  case noClock =>
    intro die s hon hkind hup hlock hsrc hspare hnone
    have hl : s.dev.recentLosses die = [s.dev.stamp] := by rw [Dev.recentLosses, hnone]; rfl
    obtain ⟨-, -, h1, h2⟩ := rd_mainLost s.dev (k := die) [s.dev.stamp]
    have hrun := mainLockLoss_next hon hkind hup hlock
    rw [hl] at hrun
    dsimp only at hrun
    exact hrun.trans (by rw [if_neg (by simp), mainFailed_noClock _ (h1.trans hsrc) (h2.trans hspare)]; rfl)
  case mainLocks =>
    intro die s hon hkind hup hok
    refine ⟨_, pllLock_main hon hkind hup hok, ?_⟩
    rw [rd_beginReturn, rd_wr_eq _ (by decide) (by decide)]
  case spareLocks =>
    intro die s hon hkind hup hok
    exact ⟨_, pllLock_spare hon hkind hup hok, rd_spareLocked s.dev die⟩
  case returned =>
    intro die s hon hret
    refine ⟨_, mainReturn_ends hon hret, ?_, ?_, ?_⟩
    · rw [rd_setClkDie, rd_unsettled, rd_wr_eq _ (by decide) (by decide)]
    · rw [clkDie_setClkDie_self]
    · rw [clkDie_setClkDie_self]
  case spareLoss =>
    intro die s hon hkind hup hlock hsrc
    have hrd : ((s.dev.wr die R.CLK_STATE_SPARE_LOCKED 0).clockFault die 1 0).rd die R.CLK_STATE_SRC = 0 := by
      rw [rd_clockFault _ (by decide), rd_wr_bits _ _ (by decide), hsrc]
    rw [exec_spareLockLoss, execSpareLockLoss, hearthEvent_on hon, if_neg (by simp [hkind, hup, hlock])]
    dsimp only
    rw [hrd, if_neg (by decide)]

end Sys2Proof.Proofs
end

section
/-! The confidence encoder's streams (R483–R501). -/

namespace Sys2Proof.Machine

variable (d : Dev)

theorem encSlot_congr {d e : Dev} (h : d.conf = e.conf) (k : Nat) : d.encSlot k = e.encSlot k := by
  simp only [Dev.encSlot, h]

theorem encSlot_setEnc_self {k : Nat} (hk : k < d.conf.slots.length) (f : EncSlot → EncSlot) : (d.setEnc k f).encSlot k = f (d.encSlot k) := by
  simp only [Dev.encSlot, Dev.setEnc, List.getD_eq_getElem?_getD, List.getElem?_modify, if_true, List.getElem?_eq_getElem hk]
  rfl

theorem encSlot_setEnc_other {j k : Nat} (h : j ≠ k) (f : EncSlot → EncSlot) : (d.setEnc k f).encSlot j = d.encSlot j := by
  simp only [Dev.encSlot, Dev.setEnc, List.getD_eq_getElem?_getD, List.getElem?_modify, Ne.symm h, if_false]
  cases d.conf.slots[j]? <;> rfl

@[simp] theorem rd_setEnc (s : Nat) (f : EncSlot → EncSlot) (k : Nat) (g : Fld) : (d.setEnc s f).rd k g = d.rd k g := rfl

@[simp] theorem encSt_setEnc (s : Nat) (f : EncSlot → EncSlot) (k : Nat) : (d.setEnc s f).encSt k = d.encSt k := rfl

theorem slots_setEnc_length (s : Nat) (f : EncSlot → EncSlot) : (d.setEnc s f).conf.slots.length = d.conf.slots.length := by
  simp only [Dev.setEnc, List.length_modify]

/-! Commands. -/

theorem encStreamSet_slot {h : Hdr} {p : Bytes} {s : State} (hm : mayBegin (.encStreamSet h p) s = true) : u8 p 0 ≤ 3 := by
  have hcheck : specEncStreamSet.check s h p = none := check_of_mayBegin rfl rfl hm
  have hbad := failIf_eq_none.1 hcheck _ List.mem_cons_self
  simp [encBad] at hbad
  omega

theorem encViewSet_slot {h : Hdr} {p : Bytes} {s : State} (hm : mayBegin (.encViewSet h p) s = true) : u8 p 0 ≤ 3 := by
  have hcheck : specEncViewSet.check s h p = none := check_of_mayBegin rfl rfl hm
  have hc := failIf_eq_none.1 hcheck
  simp at hc
  omega

theorem encKey_slot {h : Hdr} {p : Bytes} {s : State} (hm : mayBegin (.encKey h p) s = true) : u8 p 0 ≤ 3 := by
  have hcheck : specEncKey.check s h p = none := check_of_mayBegin rfl rfl hm
  have hc := failIf_eq_none.1 hcheck
  simp at hc
  omega

theorem encStreamEnable_slot {h : Hdr} {p : Bytes} {s : State} (hm : mayBegin (.encStreamEnable h p) s = true) : u8 p 0 ≤ 3 := by
  have hcheck : specEncStreamEnable.check s h p = none := check_of_mayBegin rfl rfl hm
  have hc := failIf_eq_none.1 hcheck
  simp at hc
  omega

theorem encStreamSet_stores (h : Hdr) (p : Bytes) : Ends (.encStreamSet h p) (fun _ d => d.encRateBad p = none ∧ d.encSt (u8 p 0) = .off)
    (fun _ d => d.setEnc (u8 p 0) fun x => { x with cfg := p }) (fun _ _ => .done) := by
  refine ends_of_anvil (sp := specEncStreamSet) rfl rfl (exec_encStreamSet · h p) fun c d ⟨hbad, hoff⟩ => ?_
  simp only [hbad, hoff, ne_eq, not_true_eq_false, if_false]

theorem encSlot_of_slots {d e : Dev} (h : d.conf.slots = e.conf.slots) (k : Nat) : d.encSlot k = e.encSlot k := by
  simp only [Dev.encSlot, h]

/-- R500: the shadow view, in its slot and as it stands for the next stream. -/
def encViewed (p : Bytes) (d : Dev) : Dev :=
  let d := d.setEnc (u8 p 0) fun x => { x with view := p }
  { d with conf := { d.conf with views := amPut d.conf.views (u8 p 0) p } }

theorem encViewSet_writes (h : Hdr) (p : Bytes) : Ends (.encViewSet h p) (fun _ _ => True) (fun _ d => encViewed p d) (fun _ _ => .done) :=
  ends_of_anvil (sp := specEncViewSet) rfl rfl (exec_encViewSet · h p) fun _ _ _ => rfl

theorem encKey_asks (h : Hdr) (p : Bytes) : Ends (.encKey h p) (fun _ _ => True) (fun _ d => d.setEnc (u8 p 0) fun x => { x with key := true }) (fun _ _ => .done) :=
  ends_of_anvil (sp := specEncKey) rfl rfl (exec_encKey · h p) fun _ _ _ => rfl

/-- What a stream that is to start must meet (R483, R493–R495). -/
structure EncStartable (d : Dev) (k : Nat) (q : Bytes) : Prop where
  mode : d.mode ≠ 0
  cfg : (d.encSlot k).cfg = q
  configured : q ≠ []
  off : d.encSt k = .off
  rate : encRate d.rate q ≤ 60
  intra : intraReserve q ≤ encA d.rate q
  bucket : 4 * encA d.rate q ≤ u32 q 20

theorem encStart_slot {k : Nat} (hk : k < d.conf.slots.length) : ∃ x : EncSlot, (d.encStart k).encSlot k = x ∧ x.cfg = (d.encSlot k).cfg ∧
    x.b = u32 (d.encSlot k).cfg 20 ∧ x.count = 0 ∧ x.pics = [] :=
  ⟨_, encSlot_setEnc_self _ hk _, rfl, rfl, rfl, rfl⟩

theorem encStreamEnable_starts {h : Hdr} {p q : Bytes} {s : State} (hm : mayBegin (.encStreamEnable h p) s = true) (hon : u8 p 1 = 1)
    (ok : EncStartable (begunDev (.encStreamEnable h p) s) (u8 p 0) q) (hadmit : (begunDev (.encStreamEnable h p) s).encAdmit (u8 p 0) = true) :
    exec (.encStreamEnable h p) s = .next (s.withDev ((((begunDev (.encStreamEnable h p) s).setFn (FnId.enc (u8 p 0))
      { st := .starting, running := [begunCmd (.encStreamEnable h p) s] }).encStart (u8 p 0)).finalReply (begunCmd (.encStreamEnable h p) s) St.accepted 0 [])) := by
  obtain ⟨hmode, hcfg, hne, hoff, hrate, hintra, hbucket⟩ := ok
  rw [exec_encStreamEnable, execEncStreamEnable, anvil_of_mayBegin (p := p) rfl rfl rfl hm]
  simp only [hon, hmode, hcfg, hne, hoff, not_lt.2 hrate, Nat.not_lt.2 hintra, Nat.not_lt.2 hbucket, hadmit, request_start _ true _ hoff,
    decide_true, and_false, or_false, not_true_eq_false, if_false, if_true]
  rfl

theorem encStatus_reports {h : Hdr} {p : Bytes} {s : State} (hm : mayBegin (.encStatus h p) s = true) :
    ∃ b : Bytes, b.length = 24 ∧ exec (.encStatus h p) s = .next (s.withDev
      (let d := begunDev (.encStatus h p) s
       let x := d.encSlot (u8 p 0)
       d.finalReply (begunCmd (.encStatus h p) s) St.done 0
        ((enc 1 (d.encSt (u8 p 0)).num ++ (enc 1 (b2n x.lost + 2 * b2n x.starved) ++ zeros 2)) ++ (enc 4 (d.rd 0 (R.ENC_PICTURES (u8 p 0))) ++ b)))) := by
  let d := begunDev (.encStatus h p) s
  let k := u8 p 0
  refine ⟨enc 4 (d.rd 0 (R.ENC_STARVED k)) ++ (enc 4 (d.rd 0 (R.ENC_REPEAT k)) ++ (enc 4 (d.rd 0 (R.ENC_LATE k)) ++ (enc 4 (d.encSlot k).last
    ++ enc 8 (d.rdLoHi 0 (R.ENC_STARVED_FRAME_LO k) (R.ENC_STARVED_FRAME_HI k))))), ?_, ?_⟩
  · simp only [List.length_append, enc_length]
  · rw [exec_encStatus, execEncStatus, anvil_of_mayBegin (p := p) rfl rfl rfl hm]
    simp only [List.append_assoc]
    rfl

/-! Picture times (R484, R488, R490). -/

/-- A slot that is not enabled takes no picture. -/
theorem encTake_off (hp : Heap) {k : Nat} (h : d.encSt k = .off) : d.encTake hp k = d := if_pos (.inl (by simp [h]))

theorem encOverdue_none {k : Nat} (h : (d.encSlot k).pics = []) : d.encOverdue k = d := by
  rw [Dev.encOverdue, h]
  rfl

/-- The new picture of a slot none of whose pictures is left: its place in the stream, and what it is. -/
theorem encTake_first (hp : Heap) {k : Nat} (hk : k < d.conf.slots.length) (hon : d.encSt k = .on) (hcfg : (d.encSlot k).cfg ≠ [])
    (hframe : d.frame % encDiv (d.encSlot k).cfg = 0) (hpics : (d.encSlot k).pics = []) :
    ∃ q : EncPic, ((d.encTake hp k).encSlot k).pics = [q] ∧ ((d.encTake hp k).encSlot k).count = (d.encSlot k).count + 1 ∧ (d.encTake hp k).fns = d.fns ∧
      q.frame = d.frame ∧ q.time = d.ras.startAt ∧ q.num = (d.encSlot k).count ∧ q.row = 0 ∧
      ((d.encSlot k).count = 0 → q.intra = true ∧ q.rep = false) ∧ ((d.encSlot k).count ≠ 0 → q.rep = (d.encSourceNow hp (d.encSlot k)).isNone) := by
  have hgo : ¬(¬(d.encSt k = .starting ∨ d.encSt k = .on) ∨ (d.encSlot k).cfg = [] ∨ d.frame % encDiv (d.encSlot k).cfg ≠ 0 ∨
      (d.encSlot k).pics.any (fun q => q.frame = d.frame) = true) := by simp [hon, hcfg, hframe, hpics]
  unfold Dev.encTake
  dsimp only
  have hlen (n : Nat) : k < (d.bump 0 (R.ENC_REPEAT k) n).conf.slots.length := by rw [bump_conf]; exact hk
  rw [if_neg hgo, encOverdue_none d hpics]
  simp only [encSlot_setEnc_self _ (hlen _), encSlot_congr (bump_conf d 0 (R.ENC_REPEAT k) _), hpics, List.nil_append]
  refine ⟨_, rfl, trivial, rfl, rfl, rfl, rfl, rfl, fun h0 => ?_, fun h0 => ?_⟩
  · simp [h0]
  · simp [h0]

/-- A fold whose other steps do nothing where a condition holds comes to its one step. -/
theorem foldl_only {α β : Type} {f : β → α → β} {k : α} {l : List α} (hl : l.Nodup) (hk : k ∈ l) {P : β → Prop} (hother : ∀ b a, a ∈ l → a ≠ k → P b → f b a = b)
    {b : β} (hb : P b) (hstep : P (f b k)) : l.foldl f b = f b k := by
  obtain ⟨l₁, l₂, rfl⟩ := List.append_of_mem hk
  have hskip (r : List α) (hr : ∀ a ∈ r, a ∈ l₁ ++ k :: l₂ ∧ a ≠ k) {c : β} (hc : P c) : r.foldl f c = c :=
    List.foldlRecOn r f (motive := fun x => x = c) rfl fun x hx a ha => by
      obtain ⟨hm, hne⟩ := hr a ha
      rw [hx, hother c a hm hne hc]
  rw [List.nodup_append, List.nodup_cons] at hl
  obtain ⟨-, ⟨h2, -⟩, hdisj⟩ := hl
  rw [List.foldl_append, List.foldl_cons,
    hskip l₁ (fun a ha => ⟨List.mem_append_left _ ha, fun he => hdisj _ ha _ List.mem_cons_self he⟩) hb,
    hskip l₂ (fun a ha => ⟨List.mem_append_right _ (List.mem_cons_of_mem _ ha), fun he => h2 (he ▸ ha)⟩) hstep]

/-- R484: where one slot alone is enabled, a picture time is its own. -/
theorem encPictureTime_one {k : Nat} {s : State} (hon : s.dev.hearthOff = false) (hk : k < 4) (hoff : ∀ j < 4, j ≠ k → s.dev.encSt j = .off)
    (hfns : (s.dev.encTake s.heap k).fns = s.dev.fns) : exec .encPictureTime s = .next (s.withDev (s.dev.encTake s.heap k)) := by
  let live := fun k => encLive (s.dev.encSlot k).cfg
  have hperm : ((List.range 4).filter live ++ (List.range 4).filter (fun k => !live k)).Perm (List.range 4) := List.filter_append_perm live _
  rw [exec_encPictureTime, execEncPictureTime, hearthEvent_on hon]
  simp only [List.partition_eq_filter_filter]
  congr 2
  refine foldl_only (P := fun e : Dev => ∀ j < 4, j ≠ k → e.encSt j = .off) (hperm.nodup_iff.2 List.nodup_range) (hperm.mem_iff.2 (List.mem_range.2 hk))
    (fun e j hj hjk he => encTake_off e s.heap (he j (List.mem_range.1 (hperm.mem_iff.1 hj)) hjk)) hoff fun j hj hjk => ?_
  rw [Dev.encSt, fn_congr hfns]
  exact hoff j hj hjk

/-! Monitor strips (R485). -/

theorem badReads_none (hp : Heap) (k : Pick) (is : Strip → Bool) (die : Nat → Nat) : d.badReads hp k is die [] [] = d := by
  unfold Dev.badReads
  simp

theorem monitorReads_none (hp : Heap) (k : Pick) (die : Nat) :
    ∃ cs, d.monitorReads hp k die [] [] = (k, cs, { d with free := d.free + 1 }) := by
  have hall : k.views.partition (fun v => ([] : List Nat).any fun n => n / 2 = v.view) = ([], k.views) := by
    simp only [List.partition_eq_filter_filter, List.any_nil, List.filter_false, Function.comp_def, Bool.not_false, List.filter_true]
  rw [Dev.monitorReads, hall]
  dsimp only
  rw [badReads_none]
  exact ⟨_, rfl⟩

theorem countRays_conf (die : Nat) (c : RayCount) : (d.countRays die c).conf = d.conf := by
  unfold Dev.countRays
  simp only [bump_conf]
  rfl

theorem monitorStrip_fills {k idx die g : Nat} {q : EncPic} {pk : Pick} {s : State} (hon : s.dev.hearthOff = false) (hk : k < 4) (hlen : s.dev.conf.slots.length = 4)
    (hpics : (s.dev.encSlot k).pics = [q]) (hwaits : q.waits = true) (hrep : q.rep = false) (hrow : (q.rows.any fun e => e.1 = idx) = false) (hpick : q.pick = some pk)
    (hsrc : encSource (s.dev.encSlot k).cfg = 0) (hidx : idx < encStrips (s.dev.encSlot k).cfg) (hidle : s.dev.grateIdle die g = true) :
    ∃ (t : Dev) (r : EncRows), exec (.monitorStrip k idx die g [] []) s = .next (s.withDev t) ∧ (t.encSlot k).pics = [{ q with rows := amPut q.rows idx r }] := by
  have hfind : (s.dev.encSlot k).pics.find? (fun q => q.waits && !q.rep && !(q.rows.any fun e => e.1 = idx)) = some q := by
    rw [hpics]
    exact List.find?_cons_of_pos (by rw [hwaits, hrep, hrow]; rfl)
  obtain ⟨cs, hreads⟩ := monitorReads_none s.dev s.heap pk die
  rw [exec_monitorStrip, execMonitorStrip, hearthEvent_on hon]
  dsimp only
  rw [hfind]
  dsimp only
  rw [hpick]
  dsimp only
  rw [if_neg (by simp [hsrc, hidle, Nat.not_lt.2 (Nat.le_of_lt_succ hk), Nat.not_le.2 hidx]), hreads]
  have hconf (die : Nat) (c : RayCount) : (({ s.dev with free := s.dev.free + 1 } : Dev).countRays die c).conf = s.dev.conf := countRays_conf ..
  refine ⟨_, ?rows, rfl, ?pics⟩
  case pics =>
    rw [encSlot_setEnc_self _ (by rw [hconf]; omega), encSlot_congr (hconf ..), hpics]
    simp only [List.map_cons, List.map_nil, if_true]
    rfl

/-! Coding (R492–R494). -/

/-- R494: a CTU row that fits the budget is spent, and the next follows. -/
def EncPic.rowCoded (q : EncPic) (x : EncSlot) (size : Nat) (blocks : List PredBlock) : EncPic :=
  { q with spent := q.spent + size, row := q.row + 1, mvs := q.mvs ++ x.rowVectors q blocks }

theorem coding_single {x : EncSlot} {q : EncPic} (hpics : x.pics = [q]) (hrow : q.row < encCtuRows x.cfg) : x.coding = some q := by
  rw [EncSlot.coding, hpics]
  exact List.find?_cons_of_pos (decide_eq_true hrow)

theorem encRowCode_fits {k size : Nat} (cheap : List Nat) (blocks : List PredBlock) {q : EncPic} {s : State} (hon : s.dev.hearthOff = false) (hk : k < 4)
    (hlen : s.dev.conf.slots.length = 4) (hpics : (s.dev.encSlot k).pics = [q]) (hready : q.ready (s.dev.encSlot k).cfg = true) (hturn : s.dev.encTurn k = true)
    (hrow : q.row ≠ 0) (hmore : q.row + 1 < encCtuRows (s.dev.encSlot k).cfg) (hfits : q.spent + size + q.reserve (s.dev.encSlot k).cfg (q.row + 1) ≤ q.budget) :
    ∃ t : Dev, exec (.encRowCode k size cheap blocks) s = .next (s.withDev t) ∧ (t.encSlot k).pics = [q.rowCoded (s.dev.encSlot k) size blocks] ∧
      (t.encSlot k).b = (s.dev.encSlot k).b ∧ t.regs = s.dev.regs := by
  have hend : ¬(q.row + 1 ≥ encCtuRows (s.dev.encSlot k).cfg) := Nat.not_le.2 hmore
  rw [exec_encRowCode, execEncRowCode, hearthEvent_on hon]
  dsimp only
  rw [coding_single hpics (by omega)]
  dsimp only
  rw [if_neg (by simp [hready, hturn, Nat.not_lt.2 (Nat.le_of_lt_succ hk)]), if_neg hrow, if_neg hrow]
  simp only [hfits, hend, decide_true, decide_false, if_true, if_false, Bool.false_eq_true]
  refine ⟨_, rfl, ?_, ?_, rfl⟩ <;> rw [encSlot_setEnc_self _ (by omega)]
  rw [hpics]
  simp only [List.map_cons, List.map_nil, if_true]
  rfl

theorem encRowCode_starves {k size : Nat} (cheap : List Nat) (blocks : List PredBlock) {q : EncPic} {s : State} (hon : s.dev.hearthOff = false) (hk : k < 4)
    (hlen : s.dev.conf.slots.length = 4) (hpics : (s.dev.encSlot k).pics = [q]) (hready : q.ready (s.dev.encSlot k).cfg = true) (hturn : s.dev.encTurn k = true)
    (hrow : q.row ≠ 0) (hmore : q.row < encCtuRows (s.dev.encSlot k).cfg) (hover : q.budget < q.spent + size + q.reserve (s.dev.encSlot k).cfg (q.row + 1)) :
    ∃ (t : Dev) (z : EncPic), exec (.encRowCode k size cheap blocks) s = .next (s.withDev t) ∧ (t.encSlot k).pics = [z] ∧ z.starved = some q.row ∧
      z.row = encCtuRows (s.dev.encSlot k).cfg ∧ (t.encSlot k).starved = true ∧
      t.rd 0 (R.ENC_STARVED k) = min (s.dev.rd 0 (R.ENC_STARVED k) + 1) (2 ^ 32 - 1) := by
  have hconf : ((s.dev.bump 0 (R.ENC_STARVED k)).wrLoHi 0 (R.ENC_STARVED_FRAME_LO k) (R.ENC_STARVED_FRAME_HI k) q.frame).conf = s.dev.conf :=
    (wrLoHi_conf ..).trans (bump_conf ..)
  have hrd : ((s.dev.bump 0 (R.ENC_STARVED k)).wrLoHi 0 (R.ENC_STARVED_FRAME_LO k) (R.ENC_STARVED_FRAME_HI k) q.frame).rd 0 (R.ENC_STARVED k) =
      min (s.dev.rd 0 (R.ENC_STARVED k) + 1) (2 ^ 32 - 1) := by
    unfold Dev.wrLoHi
    rw [rd_wr_off _ _ (by dsimp only; omega), rd_wr_off _ _ (by dsimp only; omega)]
    exact rd_bump_eq _ 32 ⟨Nat.zero_le _, Nat.lt_succ_self 31, rfl⟩ 1
  rw [exec_encRowCode, execEncRowCode, hearthEvent_on hon]
  dsimp only
  rw [coding_single hpics hmore]
  dsimp only
  rw [if_neg (by simp [hready, hturn, Nat.not_lt.2 (Nat.le_of_lt_succ hk)]), if_neg hrow, if_neg hrow]
  simp only [Nat.not_le.2 hover, decide_false, if_false, Bool.false_eq_true, ge_iff_le, le_refl, decide_true, if_true]
  refine ⟨_, ?pic, rfl, ?pics, ?pstarved, ?prow, ?starved, ?count⟩
  case pics =>
    rw [encSlot_setEnc_self _ (by rw [hconf]; omega), hpics]
    simp only [List.map_cons, List.map_nil, if_true]
    rfl
  case pstarved => rfl
  case prow => rfl
  case starved => rw [encSlot_setEnc_self _ (by rw [hconf]; omega)]; rfl
  case count => rw [rd_setEnc, hrd]

/-! Transport (R496). -/

/-- An RTP packet of a slot whose interface has a link leaves. -/
theorem rtpSend_sends {k : Nat} (hk : k < d.conf.slots.length) (ts : Nat) (mark : Bool) (pay : Bytes) (hlink : d.rd 0 (R.NET_IF_LINK (u8 (d.encSlot k).cfg 24)) = 1) :
    let x := d.encSlot k
    let t := d.rtpSend k ts mark pay
    t.out = .rtp (u8 x.cfg 24) (d.nextHop (u8 x.cfg 24) false (u32 x.cfg 28)) (u32 x.cfg 28) x.sport (u16 x.cfg 26) (u8 x.cfg 15)
        ([0x80] ++ enc 1 (128 * b2n mark + u8 x.cfg 25) ++ enc 2 x.rtpSeq ++ enc 4 ts ++ enc 4 x.ssrc ++ pay) :: d.out ∧
      t.regs = d.regs ∧ t.encSlot k = { x with rtpSeq := (x.rtpSeq + 1) % 65536 } ∧ t.conf.slots.length = d.conf.slots.length := by
  dsimp only
  unfold Dev.rtpSend
  dsimp only
  rw [if_pos hlink]
  exact ⟨rfl, rfl, encSlot_setEnc_self (d.send _) hk _, slots_setEnc_length (d.send _) k _⟩

theorem encSliceSend_last {k : Nat} {nal : Bytes} {q : EncPic} {rest : List EncPic} {s : State} (hon : s.dev.hearthOff = false) (hk : k < 4)
    (hpics : (s.dev.encSlot k).pics = q :: rest) (hrow : encCtuRows (s.dev.encSlot k).cfg ≤ q.row)
    (hlast : encSlices (s.dev.encSlot k).cfg ≤ q.sent + 1) (hnal : nal.length ≤ 1400) (hahead : q.sent = 0 → (s.dev.encSlot k).ahead s.dev.rate q = []) :
    ∃ f : EncSlot → EncSlot, exec (.encSliceSend k [nal]) s = .next (s.withDev ((((s.dev.rtpSend k (rtpStamp q.time) true nal).bump 0 (R.ENC_PICTURES k)).setEnc k f))) ∧
      ∀ x, (f x).pics = rest ∧ (f x).rtpSeq = x.rtpSeq := by
  have hpre : (if q.sent = 0 then (s.dev.encSlot k).ahead s.dev.rate q else []) = [] := by
    split
    · next h => exact hahead h
    · rfl
  have hpays : (([] ++ [nal]).map nalPayloads).flatten = [nal] := by simp [nalPayloads, hnal]
  have hgo : ¬(k > 3 ∨ q.row < min ((q.sent + 1) * u8 (s.dev.encSlot k).cfg 10) (encCtuRows (s.dev.encSlot k).cfg)) := by
    have := Nat.min_le_right ((q.sent + 1) * u8 (s.dev.encSlot k).cfg 10) (encCtuRows (s.dev.encSlot k).cfg)
    omega
  rw [exec_encSliceSend, execEncSliceSend, hearthEvent_on hon]
  dsimp only
  rw [hpics]
  dsimp only
  rw [if_neg hgo, hpre, hpays]
  simp only [ge_iff_le, hlast, decide_true, if_true]
  exact ⟨_, rfl, fun x => ⟨rfl, rfl⟩⟩

end Sys2Proof.Machine
end

section
/-! Ingot's jobs and contexts (R502–R510). -/

namespace Sys2Proof.Machine

variable (d : Dev)

theorem ingNext_running {j : IngJob} (h : d.ing.running = some j) : d.ingNext = d := by
  have hnext : d.ing.next = d.ing := by simp only [Ing.next, h]
  unfold Dev.ingNext
  rw [hnext]
  split <;> rfl

theorem ingNext_empty (hq : d.ing.queue = []) : d.ingNext = d := by
  have hnext : d.ing.next = d.ing := by
    unfold Ing.next
    split
    · next heq => exact absurd (hq.symm.trans heq) (List.cons_ne_nil _ _).symm
    · rfl
  unfold Dev.ingNext
  rw [hnext]
  split <;> rfl

/-- R503: the first job runs at once, unless a load of the device's own is in Ingot. -/
theorem ingNext_starts (j : IngJob) (hown : d.ownLoad = false) (hr : d.ing.running = none) (hq : d.ing.queue = []) :
    ({ d with ing := { d.ing with queue := d.ing.queue ++ [j] } } : Dev).ingNext = { d with ing := { d.ing with running := some j } } := by
  have hown' : ¬({ d with ing := { d.ing with queue := d.ing.queue ++ [j] } } : Dev).ownLoad = true := fun h => Bool.false_ne_true (hown.symm.trans h)
  unfold Dev.ingNext
  rw [if_neg hown']
  simp only [Ing.next, hr, hq, List.nil_append]

/-- R509: a new job, as INGOT_JOB gives it. -/
def ingNewJob (p : Bytes) (c : Cmd) : IngJob := {
  cmd := c, op := u8 p 0, wrap := u8 p 1, level := u8 p 2, final := bit (u8 p 3) 0, resume := false, src := u16 p 4
  dst := u16 p 6, srcOff := u32 p 8, srcLen := u32 p 12, dstOff := u32 p 16, ctx := u8 p 20 }

/-- A new job that INGOT_JOB may take: its buffers are there and a context is free. -/
structure IngotTakes (p : Bytes) (hp : Heap) (d : Dev) (a b : Obj) : Prop where
  src : hp.buf (u16 p 4) = some a
  srcThere : a.lost = false
  dst : hp.buf (u16 p 6) = some b
  dstThere : b.lost = false
  new : bit (u8 p 3) 1 = false
  free : d.ing.ctxs.length < 64

theorem ingotJob_queues (h : Hdr) (p : Bytes) (a b : Obj) : EndsOn (.ingotJob h p) (fun _ hp d => IngotTakes p hp d a b ∧ d.ing.queue.length < 16)
    (fun c hp d => (hp, ({ d with ing := { d.ing with queue := d.ing.queue ++ [ingNewJob p c] } } : Dev).ingNext)) (fun _ _ _ => .accepted) := by
  refine endsOn_of_anvilR (sp := specIngotJob) rfl rfl (exec_ingotJob · h p) fun c hp d ⟨⟨ha, hal, hb, hbl, hres, hctx⟩, hq⟩ => ?_
  simp only [ha, hal, hb, hbl, hres, Nat.not_le.2 hctx, Nat.not_le.2 hq, Bool.false_eq_true, false_and, or_self, and_false, if_false]
  rfl

theorem ingotJob_full (h : Hdr) (p : Bytes) (a b : Obj) : EndsOn (.ingotJob h p) (fun _ hp d => IngotTakes p hp d a b ∧ 16 ≤ d.ing.queue.length)
    (fun _ hp d => (hp, d)) (fun _ _ _ => .bad St.noResource 0x42) := by
  refine endsOn_of_anvilR (sp := specIngotJob) rfl rfl (exec_ingotJob · h p) fun c hp d ⟨⟨ha, hal, hb, hbl, hres, hctx⟩, hq⟩ => ?_
  simp only [ha, hal, hb, hbl, hres, Nat.not_le.2 hctx, hq, Bool.false_eq_true, false_and, or_self, and_false, if_false, if_true]

/-! A job runs. -/

/-- R503–R507: what a new job comes to. -/
def ingJobEnd (j : IngJob) (a b : Obj) : JobEnd :=
  let x : IngCtx := { op := j.op, wrap := j.wrap, level := j.level, inf := infStart j.wrap, comp := defStart j.wrap j.level }
  let src := a.read j.srcOff j.srcLen
  if j.op = 0 then compressJob j x src (b.size - j.dstOff) else decompressJob j x src (b.size - j.dstOff)

/-- R506: the contexts after a job in context 1, the lowest, beside which none is held. -/
def ingCtxsAfter (e : JobEnd) : List (Nat × IngCtx) :=
  match e.ctx with
  | some c => amPut [] 1 c
  | none => amDel [] 1

theorem ingCtxsAfter_one (e : JobEnd) : ∀ x ∈ ingCtxsAfter e, x.1 = 1 := by
  unfold ingCtxsAfter
  split
  · intro x hx
    rw [List.mem_singleton.1 hx]
  · exact fun x hx => absurd hx List.not_mem_nil

theorem jobEnd_data_length (e : JobEnd) (ctx check : Nat) : (e.data ctx check).length = 18 := by
  simp only [JobEnd.data, List.length_append, enc_length, zeros_length]

/-- The engine freed after a job, and what the job counts. -/
def Dev.ingEnded (d : Dev) (e : JobEnd) : Dev :=
  let d := { d with ing := { ctxs := ingCtxsAfter e } }
  ((d.bump 0 R.ING_JOBS).bump 0 R.ING_OUT_FULL (b2n (e.bad.isNone && e.outcome = 1))).bump 0 R.ING_FAULTS (b2n e.bad.isSome)

theorem ingEnded_shows (e : JobEnd) : (d.ingEnded e).ing.running = none ∧ (∀ x ∈ (d.ingEnded e).ing.ctxs, x.1 = 1) ∧
    (d.ingEnded e).rd 0 R.ING_JOBS = min (d.rd 0 R.ING_JOBS + 1) (2 ^ 32 - 1) := by
  have hing : (d.ingEnded e).ing = { ctxs := ingCtxsAfter e } := by
    unfold Dev.ingEnded
    rw [bump_ing, bump_ing, bump_ing]
  refine ⟨by rw [hing], by rw [hing]; exact ingCtxsAfter_one e, ?_⟩
  unfold Dev.ingEnded
  rw [rd_bump_off _ _ (by decide), rd_bump_off _ _ (by decide), rd_bump_eq _ 32 (by decide)]
  rfl

/-- INGOT_JOB_RUN of a new job, no context held and none waiting. -/
theorem ingotJobRun_ends {j : IngJob} {a b : Obj} {s : State} (hon : s.dev.hearthOff = false) (hing : s.dev.ing = { running := some j }) (hres : j.resume = false)
    (ha : s.heap.buf j.src = some a) (hal : a.lost = false) (hb : s.heap.buf j.dst = some b) (hbl : b.lost = false) :
    exec .ingotJobRun s = .next (s.withBoth
      (let e := ingJobEnd j a b
       let free := (s.dev.freeVal 32).1
       (s.heap.write j.dst j.dstOff e.out, ((s.dev.freeVal 32).2.ingEnded e).complete j.cmd (if e.bad.isSome then St.fault else St.done) (e.bad.getD 0)
        (e.data (if e.ctx.isSome then 1 else 0) (if j.wrap = 0 then free else e.check))))) := by
  have hfree : ({ running := some j } : Ing).freeCtx = 1 := rfl
  rw [exec_ingotJobRun, execIngotJobRun, hearthEventH_on hon]
  dsimp only
  rw [ingNext_running _ (by rw [hing]), hing]
  dsimp only
  rw [ha, hb]
  dsimp only
  rw [if_neg (by simp [hal, hbl]), if_neg (by simp [hres, hfree]), hfree]
  simp only [hres, Bool.false_eq_true, if_false]
  rw [ingNext_empty _ rfl]
  rfl

/-- R506: a job whose source buffer is gone is a FAULT, and frees the engine. -/
theorem ingotJobRun_lost {j : IngJob} {s : State} (hon : s.dev.hearthOff = false) (hing : s.dev.ing = { running := some j }) (ha : s.heap.buf j.src = none) :
    exec .ingotJobRun s = .next (s.withDev ((({ s.dev with ing := {} } : Dev).bump 0 R.ING_JOBS).complete j.cmd St.fault Rs.bufferLost (zeros 18))) := by
  rw [exec_ingotJobRun, execIngotJobRun, hearthEventH_on hon]
  dsimp only
  rw [ingNext_running _ (by rw [hing]), hing]
  dsimp only
  rw [ha]
  dsimp only
  rw [ingNext_empty _ rfl]
  rfl

/-! Contexts held (R510, R511). -/

/-- The sum of the powers of two that a predicate names has just those bits. -/
theorem testBit_sum_two_pow (Q : Nat → Bool) (n : Nat) :
    let v := ((List.range n).map fun i => if Q i then 2 ^ i else 0).sum
    v < 2 ^ n ∧ ∀ i < n, v.testBit i = Q i := by
  induction n with
  | zero => exact ⟨Nat.one_pos, fun i hi => absurd hi (Nat.not_lt_zero i)⟩
  | succ n ih =>
    obtain ⟨hlt, hbits⟩ := ih
    simp only [List.range_succ, List.map_append, List.map_cons, List.map_nil, List.sum_append, List.sum_cons, List.sum_nil, Nat.add_zero]
    generalize ((List.range n).map fun i => if Q i then 2 ^ i else 0).sum = v at hlt hbits ⊢
    have hdouble : 2 ^ (n + 1) = 2 ^ n + 2 ^ n := by rw [Nat.pow_succ]; omega
    cases hQ : Q n with
    | false =>
      simp only [Bool.false_eq_true, if_false, Nat.add_zero]
      refine ⟨by omega, fun i hi => ?_⟩
      obtain hi | rfl := Nat.lt_succ_iff_lt_or_eq.1 hi
      · exact hbits i hi
      · rw [Nat.testBit_lt_two_pow hlt, hQ]
    | true =>
      simp only [if_true]
      rw [Nat.add_comm v]
      refine ⟨by omega, fun i hi => ?_⟩
      obtain hi | rfl := Nat.lt_succ_iff_lt_or_eq.1 hi
      · rw [Nat.testBit_two_pow_add_gt hi, hbits i hi]
      · rw [Nat.testBit_two_pow_add_eq, Nat.testBit_lt_two_pow hlt, hQ]
        rfl

theorem ctxMap_eq (g : Ing) : g.ctxMap = ((List.range 64).map fun i => if g.ctxs.any (fun e => decide (e.1 = i + 1)) then 2 ^ i else 0).sum := by
  unfold Ing.ctxMap fromN
  rw [List.map_map]
  refine congrArg List.sum (List.map_congr_left fun i _ => ?_)
  simp only [Function.comp_apply, Nat.add_comm 1, Nat.add_sub_cancel]

theorem ctxMap_bit (g : Ing) {k : Nat} (h1 : 1 ≤ k) (h64 : k ≤ 64) : bit g.ctxMap (k - 1) = g.ctxs.any fun e => e.1 = k := by
  obtain ⟨-, hbits⟩ := testBit_sum_two_pow (fun i => g.ctxs.any fun e => decide (e.1 = i + 1)) 64
  rw [ctxMap_eq, bit, hbits (k - 1) (by omega), Nat.sub_add_cancel h1]

theorem ctxMap_lt (g : Ing) : g.ctxMap < 2 ^ 64 := by
  rw [ctxMap_eq]
  exact (testBit_sum_two_pow _ 64).1

/-- R506: the context named is freed, the others stay. -/
theorem ingotFree_frees (h : Hdr) (p : Bytes) : Ends (.ingotFree h p) (fun _ d => d.ing.ctxBusy (u8 p 0) = false)
    (fun _ d => { d with ing := { d.ing with ctxs := amDel d.ing.ctxs (u8 p 0) } }) (fun _ _ => .done) := by
  refine ends_of_anvil (sp := specIngotFree) rfl rfl (exec_ingotFree · h p) fun c d hbusy => ?_
  simp only [hbusy, Bool.false_eq_true, if_false]

/-- R510: the queue, the engine, and a bit for each context. -/
theorem ingotStatus_reports (h : Hdr) (p : Bytes) : Ends (.ingotStatus h p) (fun _ _ => True) (fun _ d => d)
    (fun _ d => .reply St.done 0 (enc 1 d.ing.queue.length ++ (enc 1 (b2n d.ing.running.isSome) ++ (zeros 2 ++ (enc 8 d.ing.ctxMap ++ []))))) := by
  refine ends_of_anvil (sp := specIngotStatus) rfl rfl (exec_ingotStatus · h p) fun c d _ => ?_
  simp only [List.append_assoc, List.append_nil]

end Sys2Proof.Machine

namespace Sys2Proof.Proofs

open Sys2Proof.Machine

/-- Settles O60: a stream's slot alone changes at each step, and a job's end is the compressor's or decompressor's. -/
theorem encoderStreamsAndIngot : Obligations.EncoderStreamsAndIngot := by
  unfold Obligations.EncoderStreamsAndIngot
  refine ⟨?setNotOff, ?set, ?notConfigured, ?capacity, ?enable, ?viewSet, ?key, ?status, ?pictureTime, ?strip, ?row, ?starved, ?slice, ?started, ?stopped,
    ?jobStarts, ?jobWaits, ?run, ?lost, ?busy, ?free, ?ingotStatus⟩
  case setNotOff =>
    refine fun h p => ends_of_anvil (sp := specEncStreamSet) rfl rfl (exec_encStreamSet · h p) fun c d ⟨hbad, hst⟩ => ?_
    simp only [hbad, hst, ne_eq, not_false_eq_true, if_true]
  case set =>
    intro h p s hm d c hbad hoff hlen
    have hk : u8 p 0 < d.conf.slots.length := by
      have := encStreamSet_slot hm
      omega
    exact ⟨_, encStreamSet_stores h p s hm ⟨hbad, hoff⟩, rfl, encSlot_setEnc_self d hk _, fun k hne => encSlot_setEnc_other d hne _⟩
  case notConfigured =>
    refine fun h p => ends_of_anvil (sp := specEncStreamEnable) rfl rfl (exec_encStreamEnable · h p) fun c d ⟨hon, hmode, hcfg⟩ => ?_
    simp only [hon, hmode, hcfg, decide_true, and_false, if_false, and_self, if_true]
  case capacity =>
    refine fun h p q => ends_of_anvil (sp := specEncStreamEnable) rfl rfl (exec_encStreamEnable · h p)
      fun c d ⟨hon, hmode, hcfg, hne, hoff, hrate, hintra, hbucket, _, hadmit⟩ => ?_
    simp only [hon, hmode, hcfg, hne, hoff, not_lt.2 hrate, Nat.not_lt.2 hintra, Nat.not_lt.2 hbucket, hadmit, decide_true, and_false, or_false, if_false,
      Bool.false_eq_true, not_false_eq_true, and_self, if_true]
  case enable =>
    intro h p q s hm d c hon hmode hcfg hne hfn hrate hintra hbucket hadmit hlen
    have hk : u8 p 0 < d.conf.slots.length := by
      have := encStreamEnable_slot hm
      omega
    have hoff : d.encSt (u8 p 0) = .off := by rw [Dev.encSt, hfn]
    obtain ⟨x, hx, hxcfg, hb, hcount, hpics⟩ := encStart_slot (d.setFn (FnId.enc (u8 p 0)) { st := .starting, running := [c] }) hk
    refine ⟨_, encStreamEnable_starts hm hon ⟨hmode, hcfg, hne, hoff, hrate, hintra, hbucket⟩ hadmit, ?_, ?_, ?_, ?_, ?_⟩
    · exact (fn_congr rfl _).trans (fn_setFn_self d _ _)
    · exact (congrArg EncSlot.cfg hx).trans (hxcfg.trans hcfg)
    · exact (congrArg EncSlot.b hx).trans (hb.trans (congrArg (u32 · 20) hcfg))
    · exact (congrArg EncSlot.count hx).trans hcount
    · exact (congrArg EncSlot.pics hx).trans hpics
  case viewSet =>
    intro h p s hm d c hlen
    have hk : u8 p 0 < d.conf.slots.length := by
      have := encViewSet_slot hm
      omega
    exact ⟨_, encViewSet_writes h p s hm trivial, (encSlot_of_slots rfl _).trans (encSlot_setEnc_self d hk _), amGet_amPut_self .., rfl⟩
  case key =>
    intro h p s hm d c hlen
    have hk : u8 p 0 < d.conf.slots.length := by
      have := encKey_slot hm
      omega
    exact ⟨_, encKey_asks h p s hm trivial, encSlot_setEnc_self d hk _, fun k hne => encSlot_setEnc_other d hne _⟩
  case status =>
    intro h p s hm d c
    obtain ⟨b, hb, hrun⟩ := encStatus_reports hm
    refine ⟨_, hrun, ?_, ?_, ?_⟩
    · simp only [List.length_append, enc_length, zeros_length, hb]
    · rw [List.append_assoc, u8_enc_one]
    · rw [u32, be_append_right 4 _ (by simp only [List.length_append, enc_length, zeros_length]; decide)]
      simp only [List.length_append, enc_length, zeros_length]
      exact (be_enc 4 _ _).trans (Nat.mod_eq_of_lt (rd_lt ..))
  case pictureTime =>
    intro k s hon hk hlen hoff hst hcfg hframe hpics
    obtain ⟨q, hq, hcount, hfns, hrest⟩ := encTake_first s.dev s.heap (by omega) hst hcfg hframe hpics
    exact ⟨_, q, encPictureTime_one hon hk hoff hfns, hq, hcount, hrest⟩
  case strip =>
    exact fun k idx die g q pk s hon hk hlen hpics hwaits hrep hrow hpick hsrc hidx hidle =>
      monitorStrip_fills hon hk hlen hpics hwaits hrep hrow hpick hsrc hidx hidle
  case row =>
    exact fun k size cheap blocks q s hon hk hlen hpics hready hturn hrow hmore hfits => encRowCode_fits cheap blocks hon hk hlen hpics hready hturn hrow hmore hfits
  case starved =>
    exact fun k size cheap blocks q s hon hk hlen hpics hready hturn hrow hmore hover => encRowCode_starves cheap blocks hon hk hlen hpics hready hturn hrow hmore hover
  case slice =>
    intro k nal q rest s hon hk hlen hpics hrow hlast hnal hahead hlink
    obtain ⟨f, hrun, hf⟩ := encSliceSend_last hon hk hpics hrow hlast hnal hahead
    obtain ⟨hout, hregs, hslot, hlen'⟩ := rtpSend_sends s.dev (k := k) (by omega) (rtpStamp q.time) true nal hlink
    have hself : ((((s.dev.rtpSend k (rtpStamp q.time) true nal).bump 0 (R.ENC_PICTURES k)).setEnc k f).encSlot k) = f ((s.dev.rtpSend k (rtpStamp q.time) true nal).encSlot k) := by
      rw [encSlot_setEnc_self _ (by rw [bump_conf]; omega), encSlot_congr (bump_conf ..)]
    refine ⟨_, hrun, ?_, ?_, hout, ?_⟩
    · rw [hself, (hf _).1]
    · rw [hself, (hf _).2, hslot]
    · rw [rd_setEnc, rd_bump_eq _ 32 ⟨Nat.zero_le _, Nat.lt_succ_self 31, rfl⟩, rd_congr hregs]
  case started =>
    intro k r s hon hk hfn hframe
    have hst : s.dev.encSt k = .starting := by rw [Dev.encSt, hfn]
    rw [exec_encTransitionDone, execEncTransitionDone, hearthEvent_on hon]
    simp only [hst, hframe, fnDone_start (d := s.dev) (congrArg Fn.st hfn) (congrArg Fn.stored hfn), Nat.not_lt.2 (Nat.le_of_lt_succ hk), ne_eq,
      not_true_eq_false, and_false, reduceCtorEq, false_and, or_self, if_false, hfn]
  case stopped =>
    intro k r s hon hk hfn hpics
    have hst : s.dev.encSt k = .stopping := by rw [Dev.encSt, hfn]
    rw [exec_encTransitionDone, execEncTransitionDone, hearthEvent_on hon]
    simp only [hst, hpics, fnDone_stop (d := s.dev) (congrArg Fn.st hfn) (congrArg Fn.stored hfn), Nat.not_lt.2 (Nat.le_of_lt_succ hk), ne_eq,
      not_true_eq_false, and_false, reduceCtorEq, false_and, or_self, if_false, hfn]
  case jobStarts =>
    intro h p a b s hm d c ha hal hb hbl hres hctx hq hr hown
    have hlt : d.ing.queue.length < 16 := by rw [hq]; decide
    have hrun : exec (.ingotJob h p) s = .next (s.withDev
        (({ d with ing := { d.ing with queue := d.ing.queue ++ [ingNewJob p c] } } : Dev).ingNext.finalReply c St.accepted 0 [])) :=
      ingotJob_queues h p a b s hm ⟨⟨ha, hal, hb, hbl, hres, hctx⟩, hlt⟩
    rw [ingNext_starts _ _ hown hr hq] at hrun
    exact ⟨_, ingNewJob p c, hrun, rfl, rfl, rfl, rfl, rfl, rfl⟩
  case jobWaits =>
    intro h p a b j s hm d c ha hal hb hbl hres hctx hr
    by_cases hq : d.ing.queue.length < 16
    · have hrun : exec (.ingotJob h p) s = .next (s.withDev
          (({ d with ing := { d.ing with queue := d.ing.queue ++ [ingNewJob p c] } } : Dev).ingNext.finalReply c St.accepted 0 [])) :=
        ingotJob_queues h p a b s hm ⟨⟨ha, hal, hb, hbl, hres, hctx⟩, hq⟩
      rw [ingNext_running { d with ing := { d.ing with queue := d.ing.queue ++ [ingNewJob p c] } } (j := j) hr] at hrun
      rw [if_pos hq]
      exact hrun
    · rw [if_neg hq]
      exact ingotJob_full h p a b s hm ⟨⟨ha, hal, hb, hbl, hres, hctx⟩, Nat.not_lt.1 hq⟩
  case run =>
    intro j a b s hon hing _ hres ha hal hb hbl
    obtain ⟨h1, h2, h3⟩ := ingEnded_shows (s.dev.freeVal 32).2 (ingJobEnd j a b)
    refine ⟨_, _, _, _, _, ingotJobRun_ends hon hing hres ha hal hb hbl, ?_, jobEnd_data_length .., h1, h2, h3⟩
    split
    · exact .inr rfl
    · exact .inl rfl
  case lost =>
    intro j s hon hing _ ha
    exact ⟨_, ingotJobRun_lost hon hing ha, bump_ing ..⟩
  case busy =>
    refine fun h p => ends_of_anvil (sp := specIngotFree) rfl rfl (exec_ingotFree · h p) fun c d hbusy => ?_
    simp only [hbusy, if_true]
  case free =>
    intro h p s hm d c hbusy
    refine ⟨_, ingotFree_frees h p s hm hbusy, rfl, fun e => ?_⟩
    simp only [amDel, List.mem_filter, decide_eq_true_eq]
    exact Iff.rfl
  case ingotStatus =>
    intro h p s hm d c
    refine ⟨_, ingotStatus_reports h p s hm trivial, ?_, ?_, ?_, fun k h1 h64 => ?_⟩
    · simp only [List.length_append, enc_length, zeros_length, List.length_nil]
    · exact u8_enc_one ..
    · rw [u8_append_right _ (by rw [enc_length]), enc_length, u8_enc_one]
      cases d.ing.running.isSome <;> rfl
    · rw [← ctxMap_bit d.ing h1 h64, u64, be_append_right 8 _ (by rw [enc_length]; decide), enc_length, be_append_right 8 _ (by rw [enc_length]; decide),
        enc_length, be_append_right 8 _ (by rw [zeros_length]), zeros_length, be_enc 8 _ []]
      exact congrArg (bit · (k - 1)) (Nat.mod_eq_of_lt (ctxMap_lt _))

end Sys2Proof.Proofs
end

section
/-! The thermal commands and readings (R451, R452, R468). -/

namespace Sys2Proof.Machine

variable (d : Dev)

/-- The data of THM_STATUS. -/
def thmReport (d : Dev) : Bytes :=
  enc 1 (d.rd 0 R.THM_STATE_LEVEL) ++ enc 1 (d.rd 0 R.THM_STATE_BLIND + 2 * b2n d.unacked) ++ enc 2 (d.rd 0 R.THM_STATE_H)
    ++ ((List.range 48).map fun n => enc 2 (q88 (d.sensor n).judged) ++ enc 1 (d.sensor n).state ++ zeros 1).flatten

theorem thmReport_length : (thmReport d).length = 196 := by
  have hsensors (l : List Nat) : ((l.map fun n => enc 2 (q88 (d.sensor n).judged) ++ enc 1 (d.sensor n).state ++ zeros 1).flatten).length = 4 * l.length := by
    induction l with
    | nil => rfl
    | cons n l ih =>
      simp only [List.map_cons, List.flatten_cons, List.length_append, enc_length, zeros_length, ih, List.length_cons]
      omega
  simp only [thmReport, List.length_append, enc_length, hsensors, List.length_range]

theorem thmReport_level : u8 (thmReport d) 0 = d.rd 0 R.THM_STATE_LEVEL % 256 := by
  rw [thmReport, List.append_assoc, List.append_assoc, u8_enc_one]

theorem thmStatus_reports (h : Hdr) (p : Bytes) : Reports (.thmStatus h p) (fun _ _ => True) (fun _ d => thmReport d) :=
  ends_of_anvil (sp := specThmStatus) rfl rfl (exec_thmStatus · h p) fun _ _ _ => rfl

/-- R454: sensor `n` acknowledged. -/
def Dev.sensorAcked (d : Dev) (n : Nat) : Dev :=
  let d := (d.setSensor n fun x => { x with state := 2 }).wr (sensorDie n) (R.THM_SENSOR_STATE (sensorIdx n)) 2
  d.wr 0 R.THM_STATE_UNACKED (b2n d.unacked)

theorem sensorIdx_lt (n : Nat) : sensorIdx n < 8 := by
  unfold sensorIdx
  split <;> omega

theorem sensor_injective {j n : Nat} (hj : j < 48) (hn : n < 48) (hd : sensorDie j = sensorDie n) (hi : sensorIdx j = sensorIdx n) : j = n := by
  unfold sensorDie at hd
  unfold sensorIdx at hi
  split_ifs at hd hi <;> omega

theorem sensor_congr {d e : Dev} (h : d.thm = e.thm) (n : Nat) : d.sensor n = e.sensor n := by
  rw [Dev.sensor, h, Dev.sensor]

theorem sensorAcked_thm (n : Nat) : (d.sensorAcked n).thm = (d.setSensor n fun x => { x with state := 2 }).thm := (wr_thm ..).trans (wr_thm ..)

theorem sensorAcked_state (n : Nat) : ((d.sensorAcked n).sensor n).state = 2 := by
  rw [sensor_congr (sensorAcked_thm d n), Dev.sensor, Dev.setSensor, amMod, amGet_amPut_self]

theorem sensorAcked_other {m n : Nat} (h : m ≠ n) : (d.sensorAcked n).sensor m = d.sensor m := by
  rw [sensor_congr (sensorAcked_thm d n), Dev.sensor, Dev.setSensor, amMod, amGet_amPut_other _ _ _ h, Dev.sensor]

theorem rd_sensorAcked (n : Nat) : (d.sensorAcked n).rd (sensorDie n) (R.THM_SENSOR_STATE (sensorIdx n)) = 2 := by
  have hi := sensorIdx_lt n
  unfold Dev.sensorAcked
  rw [rd_wr_off _ _ ⟨by dsimp only; omega, by decide, by dsimp only; omega⟩, rd_wr_eq _ ⟨by dsimp only; omega, by dsimp only; omega⟩ (by dsimp only; omega)]

theorem thmAck_acknowledges (h : Hdr) (p : Bytes) : Ends (.thmAck h p) (fun _ d => (d.sensor (u8 p 0)).state = 1 ∨ (d.sensor (u8 p 0)).state = 2)
    (fun _ d => d.sensorAcked (u8 p 0)) (fun _ _ => .done) :=
  ends_of_anvil (sp := specThmAck) rfl rfl (exec_thmAck · h p) fun c d hst => by
    dsimp only
    rw [if_neg (by omega)]
    rfl

theorem thmAck_refused (h : Hdr) (p : Bytes) : Ends (.thmAck h p) (fun _ d => (d.sensor (u8 p 0)).state = 0 ∨ (d.sensor (u8 p 0)).state = 3)
    (fun _ d => d) (fun _ _ => .bad St.badState Rsm.sensorOk) :=
  ends_of_anvil (sp := specThmAck) rfl rfl (exec_thmAck · h p) fun c d hst => by
    dsimp only
    rw [if_pos (by omega)]

/-! THM_SET. -/

/-- The TRIM that THM_SET gives sensor `n`. -/
def thmTrim (p : Bytes) (n : Nat) : Nat := twos 9 (roundDiv (s16 p (4 + 2 * n)) 16)

def trimWrite (p : Bytes) (d : Dev) (n : Nat) : Dev := d.wr (sensorDie n) (R.THM_SENSOR_TRIM (sensorIdx n)) (thmTrim p n)

def trimReg (n : Nat) : Nat × Option Fld := (sensorDie n, some (R.THM_SENSOR_TRIM (sensorIdx n)))

theorem rd_trimWrite_t1 (p : Bytes) (n : Nat) : (trimWrite p d n).rd 0 R.THM_T1_AT = d.rd 0 R.THM_T1_AT :=
  have hi := sensorIdx_lt n
  rd_wr_off d _ ⟨by decide, by dsimp only; omega, by dsimp only; omega⟩

/-- Sensor `n` holds the TRIM the command gives it. -/
def trimHolds (p : Bytes) (n : Nat) (d : Dev) : Prop := d.rd (sensorDie n) (R.THM_SENSOR_TRIM (sensorIdx n)) = thmTrim p n

theorem trimHolds_write_self (p : Bytes) (n : Nat) : trimHolds p n (trimWrite p d n) := rd_wr_eq d ⟨by dsimp only; decide, by dsimp only; decide⟩ (twos_lt 9 _)

theorem trimHolds_write {p : Bytes} {j n : Nat} (hj : j < 48) (hn : n < 48) (h : trimHolds p n d) : trimHolds p n (trimWrite p d j) := by
  have hij := sensorIdx_lt j
  have hin := sensorIdx_lt n
  by_cases he : j = n
  · exact he ▸ trimHolds_write_self d p j
  · refine Eq.trans ?_ h
    by_cases hd : sensorDie n = sensorDie j
    · have hi : sensorIdx n ≠ sensorIdx j := fun hi => he (sensor_injective hj hn hd.symm hi.symm)
      exact rd_wr_off d _ ⟨by dsimp only; omega, by dsimp only; omega, by dsimp only; omega⟩
    · exact rd_wr_die d _ ⟨by dsimp only; omega, by dsimp only; omega, hd⟩

/-- What steps that each write one sensor's TRIM leave in the sensors they name, and in those that held it. -/
theorem trimHolds_foldl {p : Bytes} {f : Dev → Nat → Dev} {l : List Nat} (hf : ∀ e j n, trimHolds p n (trimWrite p e j) → trimHolds p n (f e j))
    (hl : ∀ j ∈ l, j < 48) {n : Nat} (hn : n < 48) (h : n ∈ l ∨ trimHolds p n d) : trimHolds p n (l.foldl f d) := by
  have keep (l : List Nat) (hl : ∀ j ∈ l, j < 48) (e : Dev) (he : trimHolds p n e) : trimHolds p n (l.foldl f e) :=
    List.foldlRecOn l f (motive := trimHolds p n) he fun e he j hj => hf _ _ _ (trimHolds_write e (hl j hj) hn he)
  rcases h with hm | h
  · obtain ⟨l₁, l₂, rfl⟩ := List.append_of_mem hm
    rw [List.foldl_append, List.foldl_cons]
    exact keep l₂ (fun j hj => hl j (by simp [hj])) _ (hf _ _ _ (trimHolds_write_self _ p n))
  · exact keep l hl d h

theorem trimWrites_frame (p : Bytes) (l : List Nat) : l.foldl (trimWrite p) d = { d with regs := (l.foldl (trimWrite p) d).regs } := by
  induction l generalizing d with
  | nil => rfl
  | cons n l ih => exact (ih _).trans rfl

theorem flueUp_trimmed (p : Bytes) (l : List Nat) {k : Nat} (hk : k ∈ flueDies) :
    (l.foldl (trimWrite p) (d.wr 0 R.THM_T1_AT (u16 p 0))).flueUp k = d.flueUp k := by
  have hk8 : k - 8 ≤ 1 := (by decide : ∀ k ∈ flueDies, k - 8 ≤ 1) k hk
  have hstep (e : Dev) (n : Nat) : (trimWrite p e n).rd 0 (R.DMP_HALF_ON (k - 8)) = e.rd 0 (R.DMP_HALF_ON (k - 8)) :=
    have hi := sensorIdx_lt n
    rd_wr_off e _ ⟨by dsimp only; omega, by dsimp only; omega, by dsimp only; omega⟩
  have hrd := (foldl_keeps (fun e : Dev => e.rd 0 (R.DMP_HALF_ON (k - 8))) hstep l (d.wr 0 R.THM_T1_AT (u16 p 0))).trans
    (rd_wr_off d _ ⟨by dsimp only; omega, by decide, by dsimp only; omega⟩)
  refine flueUp_congr hrd ?_ ?_ ?_ <;> rw [trimWrites_frame] <;> rfl

/-- What THM_SET comes to. -/
def thmSetDone (p : Bytes) (d : Dev) : Dev :=
  (fromN 40 8).foldl (flueStep trimReg (trimWrite p)) ((List.range 40).foldl (trimWrite p) (d.wr 0 R.THM_T1_AT (u16 p 0)))

theorem thmSetDone_frame (p : Bytes) :
    thmSetDone p d = { d with regs := (thmSetDone p d).regs, dmp := (thmSetDone p d).dmp, out := (thmSetDone p d).out } :=
  by
  have hregs : (List.range 40).foldl (trimWrite p) (d.wr 0 R.THM_T1_AT (u16 p 0)) =
      { d with regs := ((List.range 40).foldl (trimWrite p) (d.wr 0 R.THM_T1_AT (u16 p 0))).regs } := (trimWrites_frame _ p _).trans rfl
  exact frame_after_regs hregs (flueSteps_frame _ trimReg (w := trimWrite p) (fun _ _ => rfl) _)

theorem rd_thmSetDone_t1 (p : Bytes) : (thmSetDone p d).rd 0 R.THM_T1_AT = u16 p 0 := by
  have hflue := foldl_keeps (fun e : Dev => e.rd 0 R.THM_T1_AT) (f := flueStep trimReg (trimWrite p)) (fun e n => (rd_flueStep ..).trans (rd_trimWrite_t1 e p n))
  have hwrites := foldl_keeps (fun e : Dev => e.rd 0 R.THM_T1_AT) (f := trimWrite p) (fun e n => rd_trimWrite_t1 e p n)
  exact (hflue _ _).trans ((hwrites _ _).trans (rd_wr_eq d (by decide) (u16_lt p 0)))

theorem trimHolds_thmSetDone (p : Bytes) {n : Nat} (hn : n < 48) : trimHolds p n (thmSetDone p d) := by
  refine trimHolds_foldl _ (fun e j n h => (rd_flueStep ..).trans h) (by decide) hn ?_
  by_cases h40 : n < 40
  · exact .inr (trimHolds_foldl _ (fun e j n h => h) (fun j hj => by rw [List.mem_range] at hj; omega) hn (.inl (List.mem_range.2 h40)))
  · exact .inl (by simp only [fromN, List.mem_map, List.mem_range]; exact ⟨n - 40, by omega, by omega⟩)

theorem thmSet_done (h : Hdr) (p : Bytes) : Ends (.thmSet h p)
    (fun _ d => flueDies.all d.flueUp = true ∧ d.canAnswer 8 = true ∧ d.canAnswer 9 = true ∧ h.answered = none) (fun _ d => thmSetDone p d) (fun _ _ => .done) :=
  ends_of_anvil (sp := specThmSet) rfl rfl (exec_thmSet · h p) fun c d ⟨hup, h8, h9, hans⟩ => by
    have hframe := trimWrites_frame (d.wr 0 R.THM_T1_AT (u16 p 0)) p (List.range 40)
    have hans' : ∀ n ∈ fromN 40 8, ((List.range 40).foldl (trimWrite p) (d.wr 0 R.THM_T1_AT (u16 p 0))).canAnswer (trimReg n).1 = true := by
      intro n hn
      have hdie : ∀ n ∈ fromN 40 8, (trimReg n).1 = 8 ∨ (trimReg n).1 = 9 := by decide
      rw [hframe]
      rcases hdie n hn with e | e
      · exact e ▸ h8
      · exact e ▸ h9
    have hup' : ∀ k ∈ flueDies, ((List.range 40).foldl (trimWrite p) (d.wr 0 R.THM_T1_AT (u16 p 0))).flueUp k = true := fun k hk =>
      (flueUp_trimmed d p _ hk).trans (List.all_eq_true.1 hup k hk)
    have hrun := flueWrites_all (w := trimWrite p) trimReg hup' hans (fun _ _ _ => rfl) (by decide) hans'
    refine (if_neg (not_not.2 hup)).trans ?_
    exact congrArg (fun r => (r.2.1, r.2.2.getD .done)) hrun

theorem thmSet_unreachable (h : Hdr) (p : Bytes) : Ends (.thmSet h p) (fun _ d => flueDies.all d.flueUp = false) (fun _ d => d) (fun _ _ => .bad St.fault 0) :=
  ends_of_anvil (sp := specThmSet) rfl rfl (exec_thmSet · h p) fun _ _ hdown => if_pos (by rw [hdown]; decide)

/-! Housekeeping readings (R451). -/

/-- The data of HK_READ. -/
def hkReport (d : Dev) : Bytes :=
  ((List.range 96).map fun ch => enc 2 (amGet d.thm.reading ch 0)).flatten ++ enc 12 (((List.range 96).filter d.isStale).map (2 ^ ·)).sum

theorem hkReport_length : (hkReport d).length = 204 := by
  rw [hkReport, List.length_append, flatten_map_enc_length, List.length_range, enc_length]

theorem hkRead_reports (h : Hdr) (p : Bytes) : Reports (.hkRead h p) (fun _ _ => True) (fun _ d => hkReport d) :=
  ends_of_anvil (sp := specHkRead) rfl rfl (exec_hkRead · h p) fun _ _ _ => rfl

/-- A channel of the Mantel sequencer that is no sensor is stored at once. -/
theorem housekeepingSample_stored {ch : Nat} (raw : Nat) (hlo : 48 ≤ ch) (hhi : ch ≤ 64) : Occurs (.housekeepingSample ch raw)
    (fun d => d.pwr.hearthHeld = false ∧ d.thm.shutdown = false) (fun d => d.hkRead ch (raw % 65536)) :=
  occurs_of_event (exec_housekeepingSample · ch raw) fun d ⟨hheld, hshut⟩ => by
    have hown : chanFlue ch = none := by
      unfold chanFlue
      rw [if_neg (by omega), if_neg (by omega), if_neg (by omega), if_neg (by omega)]
    dsimp only
    rw [if_neg (by omega), hown]
    dsimp only
    rw [if_neg (by simp [hheld, hshut]), if_neg (by omega), if_neg (by omega)]

/-- A flue die's reading is stored when its TELEMETRY arrives. -/
theorem telemetry_stored {f w : Nat} {s : State} {e : Dev} (hon : s.dev.hearthOff = false) (he : s.dev.retTake f ⟨0x83, [w]⟩ = some e)
    (hlo : 48 ≤ w / 2 ^ 56 % 256) (hhi : w / 2 ^ 56 % 256 ≤ 95) :
    exec (.telemetry f [w] .good) s = .next (s.withDev (e.hkRead (w / 2 ^ 56 % 256) (w / 2 ^ 32 % 65536))) := by
  rw [exec_telemetry, execTelemetry, event_next, received_some _ _ _ hon he, if_pos rfl, List.foldl_cons, List.foldl_nil]
  dsimp only
  rw [if_neg (by omega), if_neg (by omega)]

end Sys2Proof.Machine
end

section
/-! The ash journal and the boot configuration (R458–R460, R469). -/

namespace Sys2Proof.Machine

variable (d : Dev)

/-! Records. -/

/-- R459: the record a queued one becomes. -/
def ashRecord (d : Dev) (ty level : Nat) (data : Bytes) : AshRec := {
  ty := ty, level := level, flags := b2n (d.tnk.patchOf.getD d.tnk.active 0 ≠ 0), seq := d.rd 0 R.ASH_NEXT, time := d.short 0,
  boot := d.ash.bootCnt, uptime := d.elapsedMs % 2 ^ 32, frame := d.frame, data := slice data 0 24 }

theorem ash_ashPut_room {ty : Nat} (l : Nat) (b : Bytes) (h : d.ash.queue.length < 255) :
    (d.ashPut ty l b).ash = { d.ash with queue := d.ash.queue ++ [ashRecord d ty l b] } := by
  unfold Dev.ashPut
  extract_lets lim
  have hlim : 255 ≤ lim := by
    unfold lim
    split <;> omega
  rw [if_neg (by omega)]
  rfl

theorem ashPut_full {ty : Nat} (l : Nat) (b : Bytes) (hty : ty ≠ 6) (h : 255 ≤ d.ash.queue.length) : d.ashPut ty l b = d.bump 0 R.ASH_LOST := by
  unfold Dev.ashPut
  extract_lets lim
  have hlim : lim = 255 := if_neg hty
  rw [if_pos (by omega)]

theorem copies_ashPut (ty l : Nat) (b : Bytes) : (d.ashPut ty l b).ash.copyA = d.ash.copyA ∧ (d.ashPut ty l b).ash.copyB = d.ash.copyB := by
  unfold Dev.ashPut
  extract_lets lim
  split <;> exact ⟨rfl, rfl⟩

theorem ash_flashWrote (ok : Bool) : (d.flashWrote ok).ash = d.ash := by
  cases ok
  · show ((d.wr 0 R.ASH_STATE_FLASH_FAULT 1).raise 34).ash = d.ash
    rw [raise_frame]
    rfl
  · rfl

/-! The commands. -/

/-- The data of ASH_STATUS. -/
def ashReport (d : Dev) : Bytes :=
  enc 4 (d.rd 0 R.ASH_OLDEST) ++ enc 4 (d.rd 0 R.ASH_NEXT) ++ enc 2 d.ash.queue.length ++ zeros 2 ++ enc 4 (d.rd 0 R.ASH_LOST) ++ enc 4 (d.rd 0 R.ASH_TORN)

theorem ashReport_length : (ashReport d).length = 20 := by
  simp only [ashReport, List.length_append, enc_length, zeros_length]

theorem ashReport_next : u32 (ashReport d) 4 = d.rd 0 R.ASH_NEXT := by
  unfold u32 ashReport
  simp only [List.append_assoc]
  rw [be_append_right 4 _ (by rw [enc_length]), enc_length, be_enc]
  exact Nat.mod_eq_of_lt (rd_lt d 0 R.ASH_NEXT)

theorem ashStatus_reports (h : Hdr) (p : Bytes) : Reports (.ashStatus h p) (fun _ _ => True) (fun _ d => ashReport d) :=
  ends_of_anvil (sp := specAshStatus) rfl rfl (exec_ashStatus · h p) fun _ _ _ => rfl

theorem ashRead_notHeld (h : Hdr) (p : Bytes) : Ends (.ashRead h p) (fun _ d => u32 p 0 < d.rd 0 R.ASH_OLDEST) (fun _ d => d)
    (fun _ d => .reply St.badParam Rsm.notHeld (enc 4 (d.rd 0 R.ASH_OLDEST))) :=
  ends_of_anvil (sp := specAshRead) rfl rfl (exec_ashRead · h p) fun _ _ hlt => if_pos hlt

theorem ashRead_reports (h : Hdr) (p : Bytes) : Reports (.ashRead h p) (fun _ d => d.rd 0 R.ASH_OLDEST ≤ u32 p 0)
    (fun _ d => (((fromN (u32 p 0) (u8 p 4)).filterMap d.ash.held).map AshRec.bytes).flatten) :=
  ends_of_anvil (sp := specAshRead) rfl rfl (exec_ashRead · h p) fun _ _ hle => if_neg (Nat.not_lt.2 hle)

theorem ashNote_queued (h : Hdr) (p : Bytes) : Ends (.ashNote h p) (fun _ d => d.ash.queue.length < 255) (fun _ d => d.ashPut 0x000B 0xFF p)
    (fun _ d => .done (enc 4 (d.rd 0 R.ASH_NEXT))) :=
  ends_of_anvil (sp := specAshNote) rfl rfl (exec_ashNote · h p) fun _ d hroom => by
    have hlen : (d.ashPut 0x000B 0xFF p).ash.queue.length = d.ash.queue.length + 1 := by
      rw [ash_ashPut_room d _ _ hroom, List.length_append]
      rfl
    dsimp only
    rw [if_neg (by omega)]

theorem ashNote_full (h : Hdr) (p : Bytes) : Ends (.ashNote h p) (fun _ d => 255 ≤ d.ash.queue.length) (fun _ d => d.bump 0 R.ASH_LOST)
    (fun _ _ => .bad St.noResource 0) :=
  ends_of_anvil (sp := specAshNote) rfl rfl (exec_ashNote · h p) fun _ d hfull => by
    dsimp only
    rw [ashPut_full d _ _ (by decide) hfull, bump_ash, if_pos rfl]

/-- R469: the control port alone clears the journal. -/
theorem ashClear_remote {h : Hdr} {p : Bytes} {s : State} (ha : Arrives s h p) (hr : s.dev.pwr.ready = true) (hroute : h.route ≠ .cp)
    (hw : s.dev.whoSends h 0x5103 = some h.session) (hm : s.dev.macOk h.session h 0x5103 p = true) :
    exec (.ashClear h p) s = .next (s.withDev (((heardDev (.ashClear h p) s).replyRaw h 0x5103 St.authFail Rs.localOnly [] none).countAuth
      h.session St.authFail)) :=
  exec_of_refused (sp := specAshClear) rfl rfl (gate_badAuth (sp := specAshClear) rfl ha hr hw hm (if_pos hroute))

theorem ashClear_begins (h : Hdr) (p : Bytes) : Ends (.ashClear h p) (fun _ _ => h.route = .cp)
    (fun c d => { d with ash := { d.ash with clearing := d.ash.clearing ++ [c] } }) (fun _ _ => .accepted) :=
  ends_of_anvil (sp := specAshClear) rfl rfl (exec_ashClear · h p) fun _ _ _ => rfl

/-! Journal events. -/

theorem ashClearDone_empties {c : Cmd} {s : State} (hc : s.dev.ash.clearing = [c]) (hshut : s.dev.thm.shutdown = false)
    (hheld : s.dev.pwr.hearthHeld = false) : ∃ t : Dev,
    exec (.ashClearDone true) s = .next (s.withDev (t.complete c St.done 0)) ∧ t.ash = { s.dev.ash with clearing := [], copyA := [], copyB := [] } := by
  have hrun : exec (.ashClearDone true) s = .next (s.withDev (Dev.completeAll
      (({ (({ s.dev with ash := { s.dev.ash with clearing := [] } } : Dev).flashWrote true) with
        ash := { s.dev.ash with clearing := [], copyA := [], copyB := [] } } : Dev).ashOldest) [c] St.done 0)) := by
    rw [exec_ashClearDone, execAshClearDone, event_next]
    dsimp only
    rw [hc, if_neg (by simp [hshut, hheld]), if_pos rfl, ash_flashWrote]
  exact ⟨_, hrun, wr_ash ..⟩

/-- R459: a record is taken from the queue and appended to both copies. -/
theorem ashAppend_both {r : AshRec} {rest : List AshRec} {s : State} (hq : s.dev.ash.queue = r :: rest) (hheld : s.dev.pwr.hearthHeld = false)
    (hshut : s.dev.thm.shutdown = false) (hready : s.dev.rd 0 R.ASH_STATE_READY ≠ 0) (hclear : s.dev.ash.clearing = [])
    (ha : s.dev.ash.copyA.length < journalMax) (hb : s.dev.ash.copyB.length < journalMax) : ∃ t : Dev,
    exec (.ashAppend true true) s = .next (s.withDev t) ∧
    t.ash = { s.dev.ash with queue := rest, copyA := s.dev.ash.copyA ++ [r], copyB := s.dev.ash.copyB ++ [r] } := by
  have hwrap (l : List AshRec) (hl : l.length < journalMax) : wrapJournal (l ++ [r]) = l ++ [r] := by
    unfold wrapJournal
    rw [if_neg (by rw [List.length_append, List.length_singleton]; omega)]
  have hrun : exec (.ashAppend true true) s = .next (s.withDev ({ (s.dev.flashWrote true) with
      ash := { s.dev.ash with queue := rest, copyA := s.dev.ash.copyA ++ [r], copyB := s.dev.ash.copyB ++ [r] } } : Dev).ashOldest) := by
    rw [exec_ashAppend, execAshAppend, event_next]
    dsimp only
    rw [hq]
    dsimp only
    rw [if_neg (by simp [hheld, hshut, hready, hclear]), Bool.and_self, ash_flashWrote, hwrap _ ha, hwrap _ hb, if_neg (by decide)]
    rfl
  exact ⟨_, hrun, wr_ash ..⟩

theorem ashAppend_neither (s : State) : ∃ t : Dev, exec (.ashAppend false false) s = .next (s.withDev t) ∧ t.ash = s.dev.ash := by
  rw [exec_ashAppend, execAshAppend, event_next]
  refine ⟨_, rfl, ?_⟩
  split
  · rfl
  · split
    · rfl
    · exact ash_flashWrote s.dev false

/-- R459: the scan leaves both copies with every record. -/
theorem ashScan_mends {s : State} (hheld : s.dev.pwr.hearthHeld = false) (hshut : s.dev.thm.shutdown = false)
    (hready : s.dev.rd 0 R.ASH_STATE_READY ≠ 1) : ∃ t : Dev, exec .ashScan s = .next (s.withDev t) ∧ t.rd 0 R.ASH_STATE_READY = 1 ∧
      t.ash.copyA = s.dev.ash.merged ∧ t.ash.copyB = s.dev.ash.merged := by
  rw [exec_ashScan, execAshScan, event_next]
  refine ⟨_, rfl, ?_⟩
  dsimp only
  rw [if_neg (by simp [hheld, hshut, hready])]
  unfold Dev.ashOldest
  rw [wr_ash]
  refine ⟨?_, (copies_ashPut ..).1, (copies_ashPut ..).2⟩
  rw [rd_wr_off _ _ (by decide), rd_ashPut _ (by decide)]
  exact rd_wr_eq _ (by decide) (by decide)

theorem ashSummary_one {die blk n : Nat} {s : State} (hcorr : s.dev.ash.corr = [((die, blk), n)]) (hq : s.dev.ash.queue.length < 255)
    (hheld : s.dev.pwr.hearthHeld = false) (hshut : s.dev.thm.shutdown = false) (hman : s.dev.tnk.noManage = false) : ∃ (t : Dev) (r : AshRec),
    exec .ashSummary s = .next (s.withDev t) ∧ t.ash = { s.dev.ash with corr := [], queue := s.dev.ash.queue ++ [r] } ∧ r.ty = 0x0002 ∧
      r.data = slice (encLe 1 die ++ encLe 1 blk ++ encLe 4 n) 0 24 := by
  have hrun : exec .ashSummary s = .next (s.withDev (({ s.dev with ash := { s.dev.ash with corr := [] } } : Dev).ashPut 0x0002 0
      (encLe 1 die ++ encLe 1 blk ++ encLe 4 n))) := by
    rw [exec_ashSummary, execAshSummary, event_next, if_neg (by simp [hheld, hshut, hman])]
    dsimp only
    rw [hcorr]
    rfl
  exact ⟨_, ashRecord { s.dev with ash := { s.dev.ash with corr := [] } } 0x0002 0 (encLe 1 die ++ encLe 1 blk ++ encLe 4 n), hrun, ash_ashPut_room _ _ _ hq, rfl, rfl⟩

/-! The boot configuration (R458). -/

/-- R458: what is written becomes the copy in use. -/
theorem bootCfg_bootSave {f : BootCfg → BootCfg} (hf : ∀ b, (f b).gen = b.gen) (hlen : d.ash.boot.length = 2) :
    ∃ b, (d.bootSave f).bootCfg = some (f b) := by
  obtain ⟨x, y, hxy⟩ := List.length_eq_two.1 hlen
  rcases x with _ | a <;> rcases y with _ | b
  · exact ⟨_, by simp [Dev.bootSave, Dev.bootCfg, Dev.bootOther, hxy]; rfl⟩
  · exact ⟨_, by simp [Dev.bootSave, Dev.bootCfg, Dev.bootOther, hxy, hf]; rfl⟩
  · exact ⟨_, by simp [Dev.bootSave, Dev.bootCfg, Dev.bootOther, hxy, hf]; rfl⟩
  · by_cases hg : b.gen > a.gen
    · exact ⟨_, by simp [Dev.bootSave, Dev.bootCfg, Dev.bootOther, hxy, hf, hg]; rfl⟩
    · exact ⟨_, by simp [Dev.bootSave, Dev.bootCfg, Dev.bootOther, hxy, hf, hg]; rfl⟩

theorem bootcfgSet_saves (h : Hdr) (p : Bytes) : Ends (.bootcfgSet h p) (fun _ _ => h.answered = none)
    (fun _ d => (d.flashWrote true).bootSave fun b => { b with rate0 := u16 p 0, rate1 := u16 p 2 }) (fun _ _ => .done) :=
  ends_of_anvil (sp := specBootcfgSet) rfl rfl (exec_bootcfgSet · h p) fun _ d hans => by
    have hok : flashOk h = true := by rw [flashOk, hans]; rfl
    simp only [hok, if_true]

theorem bootcfgSet_fails (h : Hdr) (p : Bytes) : Ends (.bootcfgSet h p) (fun _ _ => h.answered.isSome = true) (fun _ d => d.flashWrote false)
    (fun _ _ => .bad St.fault Rsm.flashFault) :=
  ends_of_anvil (sp := specBootcfgSet) rfl rfl (exec_bootcfgSet · h p) fun _ d hans => by
    have hok : flashOk h = false := by
      obtain ⟨n, hn⟩ := Option.isSome_iff_exists.1 hans
      rw [flashOk, hn]
      rfl
    simp only [hok, Bool.false_eq_true, if_false]

theorem rd_flashWrote_fault : (d.flashWrote false).rd 0 R.ASH_STATE_FLASH_FAULT = 1 := by
  show ((d.wr 0 R.ASH_STATE_FLASH_FAULT 1).raise 34).rd 0 R.ASH_STATE_FLASH_FAULT = 1
  rw [rd_raise_unreported _ (by decide), rd_wr_eq _ (by decide) (by decide)]

end Sys2Proof.Machine
end

section
/-! A flue die halts dark (R455), and the device enters the safe state (R525, R526). -/

namespace Sys2Proof.Machine

variable (d : Dev)

theorem setRole_frame (r : Nat) : let t := d.setRole r
    t = { d with regs := t.regs, ev := t.ev, ash := t.ash, pwr := t.pwr } := by
  intro t
  by_cases hr : d.twinRole = r
  · rw [show t = d from if_pos hr]
  · have ht : t = _ := if_neg hr
    rw [ht]
    dsimp only
    rw [ashPut_frame, raise_frame]
    rfl

theorem twinFail_frame : let t := d.twinFail
    t = { d with regs := t.regs, ev := t.ev, ash := t.ash, pwr := t.pwr } := by
  show d.twinFail = _
  by_cases h : d.twinRole = 1
  · rw [show d.twinFail = d.setRole 3 from if_pos h]
    exact setRole_frame d 3
  · rw [show d.twinFail = d from if_neg h]

theorem lasersDark_frame (f : Nat) : d.lasersDark f = { d with out := (d.lasersDark f).out } := by
  unfold Dev.lasersDark
  split <;> rfl

/-- A function that is OFF stays so when any function is put OFF. -/
theorem fn_fnOff (j k : Nat) : (d.fnOff k).fn j = if j = k then {} else d.fn j := by
  have h : (d.fnOff k).fns = (d.setFn k {}).fns := by
    simp only [Dev.fnOff]
    split <;> rw [completeAll_frame, completeAll_frame]
  rw [fn_congr h]
  split
  · next e => rw [e, fn_setFn_self]
  · next e => exact fn_setFn_other _ _ e

theorem fnOff_off_self (k : Nat) : ((d.fnOff k).fn k).st = .off := by rw [fn_fnOff, if_pos rfl]

theorem fnOff_off (k : Nat) {j : Nat} (h : (d.fn j).st = .off) : ((d.fnOff k).fn j).st = .off := by
  rw [fn_fnOff]
  split
  · rfl
  · exact h

theorem fnOff_thm (k : Nat) : (d.fnOff k).thm = d.thm := by rw [fnOff_frame]

/-! The stages of a flue die's shutdown. -/

/-- R455: a flue die's region outputs and links go OFF. -/
def Dev.haltLinks (d : Dev) (f : Nat) : Dev :=
  let d := (if d.mode = 1 then [0] else [2 * f, 2 * f + 1]).foldl (fun d r => d.fnOff (FnId.region r)) d
  (fromN (4 * f) 4).foldl (fun d n => (d.fnOff (FnId.link n)).lset n R.LNK_FL_STATE_PHASE 0) d

/-- R455, R519: a flue die's cells rest, unless its park runs. -/
def Dev.haltFilm (d : Dev) (f : Nat) : Dev :=
  let x := d.filmDie f
  if x.park.isSome then d
  else ((d.setFilmDie f { x.mapCells Cell.halt with due := [], pulse := false, arm := false, reseat := 0, dark := 1 }).fnOff FnId.film).filmDark

theorem flueHalt_stages {f : Nat} (h : d.thm.fluHalt.getD f true = false) :
    d.flueHalt f = ((((({ d with thm := { d.thm with fluHalt := d.thm.fluHalt.set f true } } : Dev).lasersDark f).haltLinks f).fnOff (FnId.lamp f)).haltFilm f).twinFail := by
  unfold Dev.flueHalt
  rw [if_neg (by rw [h]; decide)]
  rfl

theorem haltLinks_thm (f : Nat) : (d.haltLinks f).thm = d.thm := by
  unfold Dev.haltLinks
  refine (foldl_keeps Dev.thm (fun e n => ?_) _ _).trans (foldl_keeps Dev.thm (fun e r => fnOff_thm e _) _ _)
  exact (wr_thm ..).trans (fnOff_thm e _)

theorem haltLinks_off {f n : Nat} (h : n / 4 = f) : (d.haltLinks f).linkSt n = .off := by
  have hm : n ∈ fromN (4 * f) 4 := by
    simp only [fromN, List.mem_map, List.mem_range]
    exact ⟨n - 4 * f, by omega, by omega⟩
  obtain ⟨l₁, l₂, hl⟩ := List.append_of_mem hm
  unfold Dev.haltLinks
  dsimp only
  rw [hl, List.foldl_append, List.foldl_cons]
  refine List.foldlRecOn l₂ _ (motive := fun e : Dev => e.linkSt n = .off) ?_ fun e he j _ => ?_
  · exact (congrArg Fn.st (fn_congr (wr_fns ..) _)).trans (fnOff_off_self _ _)
  · exact (congrArg Fn.st (fn_congr (wr_fns ..) _)).trans (fnOff_off e _ he)

theorem filmDark_thm : d.filmDark.thm = d.thm := fnOff_thm _ _

theorem filmDark_off {j : Nat} (h : (d.fn j).st = .off) : (d.filmDark.fn j).st = .off := fnOff_off _ _ h

theorem haltFilm_thm (f : Nat) : (d.haltFilm f).thm = d.thm := by
  unfold Dev.haltFilm
  dsimp only
  split
  · rfl
  · exact (filmDark_thm _).trans (fnOff_thm _ _)

theorem haltFilm_off (f : Nat) {j : Nat} (h : (d.fn j).st = .off) : ((d.haltFilm f).fn j).st = .off := by
  unfold Dev.haltFilm
  dsimp only
  split
  · exact h
  · exact filmDark_off _ (fnOff_off _ _ h)

theorem twinFail_thm : d.twinFail.thm = d.thm := by rw [twinFail_frame]

theorem fn_twinFail (j : Nat) : d.twinFail.fn j = d.fn j := fn_congr (by rw [twinFail_frame]) j

/-- R455: a flue die that halts is dark: its segment and its links are OFF, and the hearth takes it for unreachable. -/
theorem flueHalt_dark {f : Nat} (hf : f ≤ 1) (hlen : d.thm.fluHalt.length = 2) (h : d.thm.fluHalt.getD f true = false) :
    (d.flueHalt f).thm.fluHalt.getD f false = true ∧ (d.flueHalt f).segSt f = .off ∧ (d.flueHalt f).flueUp (8 + f) = false ∧
      ∀ n, n / 4 = f → (d.flueHalt f).linkSt n = .off := by
  have hhalt : (d.flueHalt f).thm.fluHalt.getD f false = true := by
    rw [flueHalt_stages d h, twinFail_thm, haltFilm_thm, fnOff_thm, haltLinks_thm, lasersDark_frame]
    show (d.thm.fluHalt.set f true).getD f false = true
    rw [List.getD_eq_getElem?_getD, List.getElem?_set_self (by omega)]
    rfl
  refine ⟨hhalt, ?_, ?_, fun n hn => ?_⟩
  · rw [flueHalt_stages d h, Dev.segSt, fn_twinFail]
    exact haltFilm_off _ _ (fnOff_off_self _ _)
  · unfold Dev.flueUp
    rw [Nat.add_sub_cancel_left, hhalt]
    simp only [Bool.not_true, Bool.and_false]
  · rw [flueHalt_stages d h, Dev.linkSt, fn_twinFail]
    exact haltFilm_off _ _ (fnOff_off _ _ (haltLinks_off _ hn))

/-! The safe state. What it shows is kept by everything that follows its entry. -/

/-- What shows of the safe state. -/
def Dev.safeView (d : Dev) : Bool × Nat × Nat := (d.pwr.safe, d.rd 0 R.PWR_STATE_SAFE, d.rd 0 R.PWR_STATE_SAFE_CAUSE)

theorem safeView_congr {d e : Dev} (hr : d.regs = e.regs) (hp : d.pwr = e.pwr) : d.safeView = e.safeView := by
  rw [Dev.safeView, hp, rd_congr hr, rd_congr hr, Dev.safeView]

theorem safeView_wr {k : Nat} {f : Fld} (v : Nat) (h : f.off < 2 ^ 28 ∧ (k ≠ 0 ∨ f.off ≠ R.PWR_STATE_SAFE.off)) : (d.wr k f v).safeView = d.safeView := by
  have hrd {g : Fld} (hg : g.off = R.PWR_STATE_SAFE.off) : (d.wr k f v).rd 0 g = d.rd 0 g := by
    rcases h.2 with hk | ho
    · exact rd_wr_die d v ⟨by rw [hg]; decide, h.1, Ne.symm hk⟩
    · exact rd_wr_off d v ⟨by rw [hg]; decide, h.1, by rw [hg]; exact Ne.symm ho⟩
  rw [Dev.safeView, hrd (g := R.PWR_STATE_SAFE) rfl, hrd (g := R.PWR_STATE_SAFE_CAUSE) rfl, wr_pwr, Dev.safeView]

theorem safeView_completeAll (cs : List Cmd) (st rs : Nat) (b : Bytes) : (d.completeAll cs st rs b).safeView = d.safeView :=
  safeView_congr (by rw [completeAll_frame]) (by rw [completeAll_frame])

theorem safeView_complete (c : Cmd) (st rs : Nat) (b : Bytes) : (d.complete c st rs b).safeView = d.safeView :=
  safeView_congr (by rw [complete_frame]) (by rw [complete_frame])

theorem safeView_setFn (k : Nat) (x : Fn) : (d.setFn k x).safeView = d.safeView := rfl

theorem safeView_fnOff (k rs : Nat) (b : Bytes) : (d.fnOff k rs b).safeView = d.safeView :=
  safeView_congr (by rw [fnOff_frame]) (by rw [fnOff_frame])

theorem safeView_raise (k : Nat) : (d.raise k).safeView = d.safeView := by
  rw [Dev.safeView, rd_raise_unreported _ (by decide), rd_raise_unreported _ (by decide), raise_frame]
  rfl

theorem safeView_ashPut (ty l : Nat) (b : Bytes) : (d.ashPut ty l b).safeView = d.safeView := by
  rw [Dev.safeView, rd_ashPut _ (by decide), rd_ashPut _ (by decide), ashPut_frame]
  rfl

theorem safe_descriptor (l die blk u c a x : Nat) (b : Bytes) : (d.descriptor l die blk u c a x b).pwr.safe = d.pwr.safe := by
  unfold Dev.descriptor
  dsimp only
  split
  · rfl
  · rw [raise_frame]
    dsimp only
    split <;> rw [ashPut_frame] <;> rfl

theorem safeView_descriptor (l die blk u c a x : Nat) (b : Bytes) : (d.descriptor l die blk u c a x b).safeView = d.safeView := by
  rw [Dev.safeView, rd_descriptor _ (by decide), rd_descriptor _ (by decide), safe_descriptor]
  rfl

theorem safeView_setRole (r : Nat) : (d.setRole r).safeView = d.safeView := by
  unfold Dev.setRole
  split
  · rfl
  · refine (safeView_ashPut ..).trans ((safeView_raise ..).trans ?_)
    exact (safeView_wr _ _ (by decide)).trans (safeView_wr _ _ (by decide))

theorem safeView_twinFail : d.twinFail.safeView = d.safeView := by
  unfold Dev.twinFail
  split
  · exact safeView_setRole d 3
  · rfl

theorem safeView_regionsStop : d.regionsStop.safeView = d.safeView := by
  refine foldl_keeps Dev.safeView (fun e r => ?_) _ d
  dsimp only
  split
  · rfl
  · exact safeView_fnOff ..
  · exact safeView_completeAll ..
  · rfl

/-! The film. -/

theorem safeView_slotEnd (k : Nat) (x : FilmSlot) (st rs : Nat) : (d.slotEnd k x st rs).safeView = d.safeView := safeView_complete ..

theorem safeView_filmStop : d.filmStop.safeView = d.safeView := by
  unfold Dev.filmStop
  exact (foldl_keeps Dev.safeView (fun e x => safeView_slotEnd e _ _ _ _) _ _).trans rfl

theorem safeView_filmStart : d.filmStart.safeView = d.safeView :=
  (foldl_keeps Dev.safeView (f := fun e k => e.wr k R.CHS_STATE_PARKED 0) (fun e k => safeView_wr e 0 ⟨by decide, .inr (by decide)⟩) flueDies d)

theorem safeView_filmNext (o : Option Cmd) : (d.filmNext o).safeView = d.safeView := by
  unfold Dev.filmNext
  split
  · rfl
  · split
    · exact safeView_filmStop d
    · split
      · exact safeView_filmStart d
      · exact safeView_complete ..

theorem safeView_filmDark : d.filmDark.safeView = d.safeView := safeView_fnOff ..

theorem safeView_parkedOff (r : Nat) : (d.parkedOff r).safeView = d.safeView := by
  unfold Dev.parkedOff
  split
  · rfl
  · dsimp only
    split
    · rw [safeView_filmDark, safeView_fnOff, safeView_setFn]
    · rw [safeView_filmNext, safeView_setFn, safeView_filmDark, safeView_fnOff, safeView_setFn]

theorem safeView_parkBegin (f : Nat) : (d.parkBegin f).safeView = d.safeView := by
  unfold Dev.parkBegin
  dsimp only
  split
  · rw [Dev.wrLoHi, safeView_wr (k := 8 + f) _ _ ⟨by decide, .inl (by omega)⟩, safeView_wr (k := 8 + f) _ _ ⟨by decide, .inl (by omega)⟩]
    exact safeView_congr rfl rfl
  · split
    · exact safeView_congr rfl rfl
    · exact safeView_parkedOff ..

theorem safeView_filmSafe : d.filmSafe.safeView = d.safeView := by
  unfold Dev.filmSafe
  split
  · rfl
  · split
    · dsimp only
      split
      · exact safeView_completeAll ..
      · exact (safeView_filmStop _).trans (safeView_completeAll ..)
    · refine foldl_keeps Dev.safeView (fun e f => ?_) _ d
      split
      · rfl
      · exact safeView_parkBegin e f

theorem safeEnter_shows {cause : Nat} (why x : Nat) (hcause : cause < 16) (h : d.pwr.safe = false) :
    (d.safeEnter cause why x).safeView = (true, 1, cause) := by
  unfold Dev.safeEnter
  rw [if_neg (by simp [h])]
  dsimp only
  rw [safeView_twinFail, safeView_descriptor, safeView_filmSafe, safeView_regionsStop, Dev.safeView, rd_wr_bits _ _ (by decide), rd_wr_eq _ (by decide) (by decide),
    rd_wr_eq _ (by decide) (show cause < 2 ^ 4 from hcause), wr_pwr, wr_pwr, lasersDark_frame, lasersDark_frame]

/-! The events. -/

theorem pwrSafeWrite_enters {s : State} (hon : s.dev.hearthOff = false) :
    exec (.pwrSafeWrite 0x5AFE) s = .next (s.withDev (s.dev.safeEnter 3 Cause.hostSafe 0)) := by
  rw [exec_pwrSafeWrite, execPwrSafeWrite, hearthEvent_on hon, Dev.safeWrite, if_pos (by decide)]

theorem pwrSafeWrite_other {v : Nat} {s : State} (hon : s.dev.hearthOff = false) (hv : v % 2 ^ 32 ≠ 0x5AFE) : exec (.pwrSafeWrite v) s = .next s := by
  rw [exec_pwrSafeWrite, execPwrSafeWrite, hearthEvent_on hon, Dev.safeWrite, if_neg hv]
  rfl

theorem pwrShutdownWrite_halts {f : Nat} (hf : f ≤ 1) :
    Occurs (.pwrShutdownWrite f 0x53485554) (fun d => d.pwr.refuse.getD f false = false) (fun d => d.flueHalt f) :=
  occurs_of_event (exec_pwrShutdownWrite · f _) fun d hrefuse => by
    rw [if_neg (by omega), Dev.shutdownWrite, if_pos ⟨by decide, by rw [hrefuse]; decide⟩]

theorem pwrShutdownWrite_other (f : Nat) {v : Nat} (s : State) (hv : v % 2 ^ 32 ≠ 0x53485554) : exec (.pwrShutdownWrite f v) s = .next s := by
  have hno : s.dev.shutdownWrite f (v % 2 ^ 32) = s.dev := if_neg fun h => hv h.1
  rw [exec_pwrShutdownWrite, execPwrShutdownWrite, event_next, hno, ite_self]
  rfl

theorem flueThermalShutdown_halts {f : Nat} (hf : f ≤ 1) (s : State) : exec (.flueThermalShutdown f) s = .next (s.withDev (s.dev.flueHalt f)) := by
  rw [exec_flueThermalShutdown, execFlueThermalShutdown, event_next, if_neg (by omega)]

theorem thermalShutdown_shutdown (n : Nat) : (d.thermalShutdown n).thm.shutdown = true := by
  unfold Dev.thermalShutdown
  dsimp only

theorem judgeRails_level : (d.judgeRails.src 33).level = decide (d.judgeRails.rd 0 R.PWR_RAIL_FAULT_LO ≠ 0) := by
  unfold Dev.judgeRails
  rw [level_setLevel_self, rd_setLevel _ _ _ (by decide)]

/-- R451: the flue channels' readings are a round older. -/
def Dev.readingsAged (d : Dev) : Dev :=
  { d with thm := { d.thm with age := ((List.range 96).filter fun ch => (chanFlue ch).isSome).map fun ch => (ch, min (amGet d.thm.age ch 1 + 1) 3) } }

/-- R454, R455, R513: what follows once the sensors of a round are judged. -/
def Dev.roundEnd (d : Dev) : Dev :=
  match d.overheated with
  | some n => d.thermalShutdown n
  | none => d.judgeLevel.judgeRails

theorem hkRoundEnd_next {s : State} (hheld : s.dev.pwr.hearthHeld = false) (hshut : s.dev.thm.shutdown = false) :
    exec .hkRoundEnd s = .next (s.withDev s.dev.readingsAged.judgeSensors.roundEnd) := by
  rw [exec_hkRoundEnd, execHkRoundEnd, event_next, if_neg (by simp [hheld, hshut])]
  unfold Dev.roundEnd
  generalize hx : s.dev.readingsAged = x
  unfold Dev.readingsAged at hx
  dsimp only at hx ⊢
  rw [hx] <;> cases x.judgeSensors.overheated <;> rfl

/-- R455, R513: a round ends in a shutdown, or with the rail source at the level of PWR_RAIL_FAULT. -/
theorem roundEnd_shows : d.roundEnd.thm.shutdown = true ∨ (d.roundEnd.src 33).level = decide (d.roundEnd.rd 0 R.PWR_RAIL_FAULT_LO ≠ 0) := by
  unfold Dev.roundEnd
  split
  · exact .inl (thermalShutdown_shutdown _ _)
  · exact .inr (judgeRails_level _)

end Sys2Proof.Machine
end

section
/-! Ageing and re-planning (R461–R463, R468). -/

namespace Sys2Proof.Machine

variable (d : Dev)

section
variable {α β : Type} [DecidableEq α]

theorem kvGet_kvPut_self (l : List (α × β)) (k : α) (v : β) : kvGet (kvPut l k v) k = some v := by
  unfold kvPut kvGet
  split
  · next hany =>
    rw [List.find?_map]
    obtain ⟨e, he, hk⟩ := List.any_eq_true.1 hany
    have hk : e.1 = k := of_decide_eq_true hk
    have hcomp : ((fun e : α × β => decide (e.1 = k)) ∘ fun e => if e.1 = k then (k, v) else e) = fun e => decide (e.1 = k) := by
      funext e
      by_cases h : e.1 = k <;> simp [h]
    rw [hcomp]
    cases hfind : l.find? fun e => decide (e.1 = k) with
    | none => exact absurd (List.find?_eq_none.1 hfind e he) (by simp [hk])
    | some x =>
      have hx : x.1 = k := by simpa using List.find?_some hfind
      simp [hx]
  · next hany =>
    have hnone : (l.find? fun e => decide (e.1 = k)) = none := List.find?_eq_none.2 fun e he hk => hany (List.any_eq_true.2 ⟨e, he, hk⟩)
    simp [List.find?_append, hnone]

theorem kvGet_kvPut_other (l : List (α × β)) {j k : α} (v : β) (h : j ≠ k) : kvGet (kvPut l k v) j = kvGet l j := by
  unfold kvPut kvGet
  split
  · rw [List.find?_map]
    have hcomp : ((fun e : α × β => decide (e.1 = j)) ∘ fun e => if e.1 = k then (k, v) else e) = fun e => decide (e.1 = j) := by
      funext e
      by_cases hk : e.1 = k <;> simp [hk]
    rw [hcomp]
    cases hfind : l.find? fun e => decide (e.1 = j) with
    | none => rfl
    | some x =>
      have hx : x.1 = j := by simpa using List.find?_some hfind
      simp [hx, h]
  · simp [List.find?_append, Ne.symm h]

end

/-! The commands. -/

theorem ageSet_keeps (h : Hdr) (p : Bytes) : Ends (.ageSet h p) (fun _ _ => True)
    (fun _ d => { d with age := { d.age with
      advise := bit (u8 p 0) 0, rebase := d.age.rebase || bit (u8 p 0) 1, planAt := u32 p 2, mask := u64 p 6, ceiling := u16 p 14
      loops := (List.range 256).map fun i => u8 p (16 + i) } }) (fun _ _ => .done) :=
  ends_of_anvil (sp := specAgeSet) rfl rfl (exec_ageSet · h p) fun _ _ _ => rfl

theorem ageSample_one (h : Hdr) (p : Bytes) : Ends (.ageSample h p) (fun _ _ => p.length = 6)
    (fun _ d => { d with age := { d.age with samples := amPut d.age.samples (u32 p 0) (u16 p 4) } }) (fun _ _ => .done) :=
  ends_of_anvil (sp := specAgeSample) rfl rfl (exec_ageSample · h p) fun _ _ hlen => by
    rw [hlen]
    rfl

theorem ageReplan_begins (h : Hdr) (p : Bytes) : Ends (.ageReplan h p) (fun _ d => d.age.running = [] ∧ d.age.postponed = false)
    (fun c d => { d with age := { d.age with running := [c] } }) (fun _ _ => .accepted) :=
  ends_of_anvil (sp := specAgeReplan) rfl rfl (exec_ageReplan · h p) fun _ _ ⟨hr, hp⟩ => if_neg (by simp [hr, hp])

theorem ageReplan_busy (h : Hdr) (p : Bytes) : Ends (.ageReplan h p) (fun _ d => d.age.running ≠ []) (fun _ d => d)
    (fun _ _ => .bad St.badState Rsm.replanBusy) :=
  ends_of_anvil (sp := specAgeReplan) rfl rfl (exec_ageReplan · h p) fun _ _ hr => if_pos (.inl hr)

/-! Sampling. -/

/-- What today's sample of pair 0 and the daily values show. -/
def Dev.pairView (d : Dev) : Option (Nat × Nat) × List ((Nat × Nat) × Nat) := (kvGet d.age.today (0, 0), d.age.daily)

theorem pairView_ageAdd {m : Nat} (e v : Nat) (h : m ≠ 0) : (d.ageAdd m e v).pairView = d.pairView := by
  have hother : ((0 : Nat), (0 : Nat)) ≠ (m, e) := fun he => h (Prod.ext_iff.1 he).1.symm
  exact Prod.ext (kvGet_kvPut_other _ _ hother) rfl

theorem pairView_ageAdd_pair (v : Nat) (h : kvGet d.age.today (0, 0) = none) : (d.ageAdd 0 0 v).pairView = (some (v, 1), d.age.daily) := by
  unfold Dev.ageAdd
  rw [h]
  exact Prod.ext (kvGet_kvPut_self _ _ _) rfl

theorem ageSampleTick_pair {v : Nat} {s : State} (hheld : s.dev.pwr.hearthHeld = false) (hshut : s.dev.thm.shutdown = false)
    (hman : s.dev.tnk.noManage = false) (h : kvGet s.dev.age.today (0, 0) = none) : ∃ t : Dev,
    exec (.ageSampleTick [v] none false) s = .next (s.withDev t) ∧ t.pairView = (some (v, 1), s.dev.age.daily) := by
  rw [exec_ageSampleTick, execAgeSampleTick, event_next]
  refine ⟨_, rfl, ?_⟩
  rw [if_neg (by simp [hheld, hshut, hman])]
  dsimp only
  rw [if_neg (by decide)]
  refine (foldl_keeps Dev.pairView (fun e n => ?_) _ _).trans ?_
  swap
  · change (s.dev.ageAdd 0 0 v).pairView = _
    exact pairView_ageAdd_pair _ _ h
  rw [pairView_ageAdd _ _ _ (by decide), pairView_ageAdd _ _ _ (by decide)]

/-! A re-plan leaves the commands that wait for it alone until it is done. -/

theorem age_descriptor (l die blk u c a x : Nat) (b : Bytes) : (d.descriptor l die blk u c a x b).age = d.age := by rw [descriptor_frame]

theorem age_replanRecord (o e a b : Nat) : (d.replanRecord o e a b).age = d.age := by rw [Dev.replanRecord, ashPut_frame]

theorem age_coreWrite (die : Nat) (f : Fld) (v : Nat) : (d.coreWrite die f v).age = d.age := by rw [Dev.coreWrite, fwdSend_frame]

theorem age_vidStep (r steps : Nat) (nack : Bool) : (d.vidStep r steps nack).age = d.age := by
  unfold Dev.vidStep
  dsimp only
  split
  · exact age_descriptor ..
  · rfl

theorem age_replanTrim (nacks : List Nat) (a : Dev × Nat) (r : Nat) : (Dev.replanTrim nacks a r).1.age = a.1.age := by
  obtain ⟨d, n⟩ := a
  have hstep (real : Bool) (k : Nat) (b : Bool) : (if real = true then d.vidStep r k b else d).age = d.age := by
    split
    · exact age_vidStep d r _ _
    · rfl
  unfold Dev.replanTrim
  dsimp only
  split
  · rfl
  · split
    · exact hstep _ _ _
    · exact (age_replanRecord ..).trans (hstep _ _ _)

theorem running_replanEq (a : Dev × Nat) (k : Nat) : (Dev.replanEq a k).1.age.running = a.1.age.running := by
  unfold Dev.replanEq
  extract_lets fell note first
  have hnote (e : Dev) : (note e).age.running = e.age.running := rfl
  clear_value note
  split
  · exact hnote _
  · split
    · rfl
    · split
      next d n hd =>
      have hfold : d.age.running = a.1.age.running := by
        refine (congrArg (fun x : Dev × Nat => x.1.age.running) hd).symm.trans (foldl_keeps (fun x : Dev × Nat => x.1.age.running) (fun x p => ?_) _ a)
        dsimp only
        split
        · rfl
        · split
          · rfl
          · rw [age_replanRecord]
            split
            · rfl
            · rw [age_coreWrite]
      refine Eq.trans ?_ hfold
      dsimp only
      split
      · rfl
      · exact hnote d

theorem running_replanHeadroom : d.replanHeadroom.age.running = d.age.running :=
  foldl_keeps (fun e : Dev => e.age.running) (f := fun (e : Dev) (_ : Nat × Nat) => e.raise 32) (fun e _ => by rw [raise_frame]) _ d

theorem age_replanBudget (a : Dev × Nat) (L : Nat) : (Dev.replanBudget a L).1.age = a.1.age := by
  unfold Dev.replanBudget
  dsimp only
  split
  · rfl
  · split
    · rfl
    · refine (age_replanRecord ..).trans ?_
      split
      · rfl
      · exact age_coreWrite ..

theorem replanRun_waits (nack : List Nat) : Occurs (.replanRun nack)
    (fun d => d.pwr.ready = true ∧ d.pwr.hearthHeld = false ∧ d.thm.shutdown = false ∧ d.tnk.noManage = false ∧ d.replanWaits = true)
    (fun d => { d with age := { d.age with postponed := true } }) :=
  occurs_of_event (exec_replanRun · nack) fun d ⟨hr, hheld, hshut, hman, hw⟩ => by
    dsimp only
    rw [if_neg (by simp [hr, hheld, hshut, hman]), if_pos hw]

/-- R462, R463: the re-plan's steps in order, with the number of outputs changed. -/
def replanned (nack : List Nat) (d : Dev) : Dev × Nat :=
  let a := (List.range 7).foldl (Dev.replanTrim nack) (d, 0)
  let a := (List.range 8).foldl Dev.replanEq a
  (List.range 48).foldl Dev.replanBudget (a.1.replanHeadroom, a.2)

theorem running_replanned (nack : List Nat) : (replanned nack d).1.age.running = d.age.running := by
  have htrim (l : List Nat) (a : Dev × Nat) : (l.foldl (Dev.replanTrim nack) a).1.age.running = a.1.age.running :=
    foldl_keeps (fun a : Dev × Nat => a.1.age.running) (fun a r => by rw [age_replanTrim]) l a
  have heq (l : List Nat) (a : Dev × Nat) : (l.foldl Dev.replanEq a).1.age.running = a.1.age.running :=
    foldl_keeps (fun a : Dev × Nat => a.1.age.running) running_replanEq l a
  have hbudget (l : List Nat) (a : Dev × Nat) : (l.foldl Dev.replanBudget a).1.age.running = a.1.age.running :=
    foldl_keeps (fun a : Dev × Nat => a.1.age.running) (fun a L => by rw [age_replanBudget]) l a
  unfold replanned
  dsimp only
  rw [hbudget, running_replanHeadroom, heq, htrim]

theorem replanRun_completes (nack : List Nat) {s : State} (hr : s.dev.pwr.ready = true) (hheld : s.dev.pwr.hearthHeld = false)
    (hshut : s.dev.thm.shutdown = false) (hman : s.dev.tnk.noManage = false) (hw : s.dev.replanWaits = false) :
    exec (.replanRun nack) s = .next (s.withDev
      (({ (replanned nack s.dev).1 with age := { (replanned nack s.dev).1.age with running := [], postponed := false, applied := [] } } : Dev).completeAll
        s.dev.age.running St.done 0 (enc 2 (replanned nack s.dev).2))) := by
  rw [exec_replanRun, execReplanRun, event_next, if_neg (by simp [hr, hheld, hshut, hman]), if_neg (by simp [hw]), ← running_replanned s.dev nack]
  rfl

end Sys2Proof.Machine
end

section
/-! O58. -/

namespace Sys2Proof.Proofs
open Sys2Proof.Machine

/-- Settles O58: each clause from the lemma about the instruction it names. -/
theorem thermalJournalAndAgeing : Obligations.ThermalJournalAndAgeing := by
  unfold Obligations.ThermalJournalAndAgeing
  refine ⟨?thmStatus, ?thmAck, thmAck_refused, ?thmSet, ?thmSetDark, ?hkRead, ?sample, ?telemetry, ?round, ?flueHalts, ?shutdown, ?shutdownOther, ?safe, ?safeOther,
    ?ashStatus, ashRead_notHeld, ashRead_reports, ?note, ashNote_full, ?clearRemote, ashClear_begins, ?clearDone, ?append, ashAppend_neither, ?scan, ?summary, ?bootcfg,
    ?bootcfgFault, ageSet_keeps, ?ageSample, ageReplan_begins, ageReplan_busy, ?tick, replanRun_waits, ?replan⟩
  case thmStatus =>
    intro h p s hm
    exact ⟨_, thmStatus_reports h p s hm trivial, thmReport_length _, thmReport_level _⟩
  case thmAck =>
    intro h p s hm d c hst
    exact ⟨_, thmAck_acknowledges h p s hm hst, sensorAcked_state _ _, rd_sensorAcked _ _, fun n hn => sensorAcked_other _ hn⟩
  case thmSet =>
    intro h p s hm d c hup h8 h9 hans
    exact ⟨_, thmSet_done h p s hm ⟨hup, h8, h9, hans⟩, thmSetDone_frame _ p, rd_thmSetDone_t1 _ p, fun n hn => trimHolds_thmSetDone _ p hn⟩
  case thmSetDark =>
    exact thmSet_unreachable
  case hkRead =>
    intro h p s hm
    exact ⟨_, hkRead_reports h p s hm trivial, hkReport_length _⟩
  case sample =>
    intro ch raw hlo hhi
    exact housekeepingSample_stored raw hlo hhi
  case telemetry =>
    intro f w s e hon he hlo hhi
    exact telemetry_stored hon he hlo hhi
  case round =>
    intro s hheld hshut
    exact ⟨_, hkRoundEnd_next hheld hshut, roundEnd_shows _⟩
  case flueHalts =>
    intro f s hf hlen hrun
    obtain ⟨hhalt, hseg, hup, hlinks⟩ := flueHalt_dark s.dev hf hlen hrun
    exact ⟨_, flueThermalShutdown_halts hf s, hhalt, hseg, hup, hlinks⟩
  case shutdown =>
    intro f hf
    exact pwrShutdownWrite_halts hf
  case shutdownOther =>
    intro f v s hv
    exact pwrShutdownWrite_other f s hv
  case safe =>
    intro s hon hsafe
    have hshows := safeEnter_shows s.dev Cause.hostSafe 0 (show 3 < 16 by decide) hsafe
    obtain ⟨h1, hrest⟩ := Prod.ext_iff.1 hshows
    obtain ⟨h2, h3⟩ := Prod.ext_iff.1 hrest
    exact ⟨_, pwrSafeWrite_enters hon, h1, h2, h3⟩
  case safeOther =>
    intro v s hon hv
    exact pwrSafeWrite_other hon hv
  case ashStatus =>
    intro h p s hm
    exact ⟨_, ashStatus_reports h p s hm trivial, ashReport_length _, ashReport_next _⟩
  case note =>
    intro h p s hm d c hroom
    exact ⟨_, ashRecord d 0x000B 0xFF p, ashNote_queued h p s hm hroom, ash_ashPut_room d _ p hroom, rfl, rfl, rfl⟩
  case clearRemote =>
    intro h p s ha hr hroute _ hw hmac
    exact ashClear_remote ha hr hroute hw hmac
  case clearDone =>
    intro c s hc hshut hheld
    exact ashClearDone_empties hc hshut hheld
  case append =>
    intro r rest s hq hheld hshut hready hclear ha hb
    exact ashAppend_both hq hheld hshut hready hclear ha hb
  case scan =>
    intro s hheld hshut hready
    exact ashScan_mends hheld hshut hready
  case summary =>
    intro die blk n s hcorr hq hheld hshut hman
    exact ashSummary_one hcorr hq hheld hshut hman
  case bootcfg =>
    intro h p s hm d c hans hlen
    obtain ⟨b, hb⟩ := bootCfg_bootSave (d.flashWrote true) (f := fun b => { b with rate0 := u16 p 0, rate1 := u16 p 2 }) (fun _ => rfl)
      ((congrArg (fun a : Ash => a.boot.length) (ash_flashWrote d true)).trans hlen)
    exact ⟨_, _, bootcfgSet_saves h p s hm hans, hb, rfl, rfl⟩
  case bootcfgFault =>
    intro h p n s hm d c hans
    exact ⟨_, bootcfgSet_fails h p s hm (by rw [hans]; rfl), ash_flashWrote _ false, rd_flashWrote_fault _⟩
  case ageSample =>
    intro h p s hm d c hlen
    exact ⟨_, ageSample_one h p s hm hlen, rfl, amGet_amPut_self _ _ _ _⟩
  case tick =>
    intro v s hheld hshut hman hnone
    obtain ⟨t, hrun, hview⟩ := ageSampleTick_pair hheld hshut hman hnone
    obtain ⟨htoday, hdaily⟩ := Prod.ext_iff.1 hview
    exact ⟨t, hrun, htoday, hdaily⟩
  case replan =>
    intro nack s hr hheld hshut hman hw
    exact ⟨_, _, replanRun_completes nack hr hheld hshut hman hw, rfl, rfl, rfl⟩

end Sys2Proof.Proofs
end

section
/-! The two cores and updates (R449, R450, R464–R466, R470). -/

namespace Sys2Proof.Machine

variable (d : Dev)

/-! The cores. -/

theorem tnkRegs_frame : d.tnkRegs = { d with regs := d.tnkRegs.regs } :=
  wrs_frame d [(0, R.TNK_CORE_ACTIVE, d.tnk.active), (0, R.TNK_CORE_STANDBY_OK, b2n d.tnk.standbyOk),
    (0, R.TNK_CORE_FAILED, b2n (d.tnk.failed.getD 0 false) + 2 * b2n (d.tnk.failed.getD 1 false)), (0, R.TNK_PATCH, d.tnk.patchOf.getD d.tnk.active 0),
    (0, R.TNK_PATCH_SLOT, d.tnk.slotOf.getD d.tnk.active 0)]

theorem setTnk_frame (f : Tnk → Tnk) : d.setTnk f = { d with tnk := f d.tnk, regs := (d.setTnk f).regs } := tnkRegs_frame { d with tnk := f d.tnk }

@[simp] theorem setTnk_tnk (f : Tnk → Tnk) : (d.setTnk f).tnk = f d.tnk := by rw [setTnk_frame]

theorem tnk_coreRecord (o n c : Nat) : (d.coreRecord o n c).tnk = d.tnk := by rw [Dev.coreRecord, ashPut_frame]

theorem tnk_freeVal (w : Nat) : (d.freeVal w).2.tnk = d.tnk := rfl

theorem tnk_descriptor (l die blk u c a x : Nat) (b : Bytes) : (d.descriptor l die blk u c a x b).tnk = d.tnk := by rw [descriptor_frame]

theorem tnk_claimsBack : d.claimsBack.tnk = d.tnk := foldl_keeps Dev.tnk (by intros; rfl) _ d

theorem upd_claimsBack : d.claimsBack.upd = d.upd := foldl_keeps Dev.upd (by intros; rfl) _ d

/-! R450: what a core switch answers and gives back. -/

theorem coreSwitchEnds_tnk : d.coreSwitchEnds.tnk = { d.tnk with switchReq := [] } := by
  have hreply (l : List Cmd) (e : Dev) : (l.foldl (fun d c => d.finalReply c St.fault Rsm.coreSwitch []) e).tnk = e.tnk :=
    foldl_keeps Dev.tnk (fun e c => by rw [finalReply_frame]) l e
  unfold Dev.coreSwitchEnds
  dsimp only
  rw [completeAll_frame]
  exact hreply _ _

theorem coreSwitchEnds_ev : d.coreSwitchEnds.ev = d.ev := by
  have hreply (l : List Cmd) (e : Dev) : (l.foldl (fun d c => d.finalReply c St.fault Rsm.coreSwitch []) e).ev = e.ev :=
    foldl_keeps Dev.ev (fun e c => by rw [finalReply_frame]) l e
  unfold Dev.coreSwitchEnds
  dsimp only
  rw [completeAll_frame]
  exact hreply _ _

/-- R477: an ACTIVE source given back. -/
def Src.givenBack (v : Src) : Src := { v with st := 1, rep := false, count := min 65535 (v.count + v.cCount), first := v.cFirst }

theorem claimsBack_one {k : Nat} {v : Src} (hsrcs : d.ev.srcs = [(k, v)]) (hst : v.st = 2) : d.claimsBack.src k = v.givenBack := by
  have hactive : (d.ev.srcs.filter fun e => e.2.st = 2) = [(k, v)] := by
    rw [hsrcs]
    simp [hst]
  unfold Dev.claimsBack
  rw [hactive]
  exact src_setSrc_self d k v.givenBack

theorem src_raise_other {j k : Nat} (h : j ≠ k) : (d.raise k).src j = d.src j := by
  unfold Dev.raise
  split
  · rfl
  · split
    · rfl
    · exact src_raiseAt_other d _ h

theorem src_descriptor_other {j k l : Nat} (hl : l ≠ 0) (h : j ≠ k) (blk u c a x : Nat) (b : Bytes) : (d.descriptor l k blk u c a x b).src j = d.src j := by
  unfold Dev.descriptor
  dsimp only
  rw [if_neg hl, src_raise_other _ h]
  refine src_congr ?_ j
  split <;> rw [ashPut_frame] <;> rfl

theorem src_coreRecord (j o n c : Nat) : (d.coreRecord o n c).src j = d.src j := src_congr (by rw [Dev.coreRecord, ashPut_frame]) j

/-- R450, R477: the standby takes over, and an ACTIVE source is claimable again. -/
theorem tinkerCoreSwitch_takesOver (cause : Nat) {k : Nat} {v : Src} {s : State} (hheld : s.dev.pwr.hearthHeld = false) (hshut : s.dev.thm.shutdown = false)
    (hman : s.dev.tnk.noManage = false) (hok : s.dev.tnk.standbyOk = true) (hsrcs : s.dev.ev.srcs = [(k, v)]) (hst : v.st = 2) (hk : 32 ≤ k) :
    ∃ t : Dev, exec (.tinkerCoreSwitch cause) s = .next (s.withDev t) ∧ t.tnk.active = 1 - s.dev.tnk.active ∧ t.tnk.standbyOk = false ∧
      t.tnk.failed = s.dev.tnk.failed.set s.dev.tnk.active true ∧ t.src k = v.givenBack := by
  rw [exec_tinkerCoreSwitch, execTinkerCoreSwitch, event_next]
  refine ⟨_, rfl, ?_⟩
  rw [if_neg (by simp [hheld, hshut, hman])]
  dsimp only
  rw [if_neg (not_not.2 hok), src_coreRecord, src_raise_other _ (by omega), src_descriptor_other _ (by decide) (by omega), tnk_coreRecord, raise_frame,
    descriptor_frame]
  dsimp only
  rw [Dev.unsettled]
  dsimp only
  rw [tnk_claimsBack, coreSwitchEnds_tnk, bump_tnk, setTnk_tnk]
  refine ⟨rfl, rfl, ?_, ?_⟩
  · split <;> rfl
  · refine claimsBack_one _ ?_ hst
    rw [coreSwitchEnds_ev, bump_ev, setTnk_frame]
    exact hsrcs

theorem tinkerCoreSwitch_alone (cause : Nat) {s : State} (hheld : s.dev.pwr.hearthHeld = false) (hshut : s.dev.thm.shutdown = false)
    (hman : s.dev.tnk.noManage = false) (hok : s.dev.tnk.standbyOk = false) : exec (.tinkerCoreSwitch cause) s = .next (s.withDev
      (s.dev.setTnk fun t => { t with failed := t.failed.set s.dev.tnk.active true, noManage := true })) := by
  rw [exec_tinkerCoreSwitch, execTinkerCoreSwitch, event_next, if_neg (by simp [hheld, hshut, hman])]
  dsimp only
  rw [if_pos (by simp [hok])]

theorem coreSelftestDone_passed {s : State} (hon : s.dev.hearthOff = false) (hfailed : s.dev.tnk.failed.getD (1 - s.dev.tnk.active) false = true)
    (hman : s.dev.tnk.noManage = false) : exec (.coreSelftestDone true) s = .next (s.withDev (s.dev.setTnk fun t =>
      { t.copyPatch (1 - s.dev.tnk.active) t.active with failed := t.failed.set (1 - s.dev.tnk.active) false, standbyOk := true })) := by
  rw [exec_coreSelftestDone, execCoreSelftestDone, hearthEvent_on hon]
  dsimp only
  rw [if_neg (by rw [hfailed, hman]; decide)]

theorem stateTableCheck_failed {s : State} (hon : s.dev.hearthOff = false) (hok : s.dev.tnk.standbyOk = true) : ∃ t : Dev,
    exec (.stateTableCheck false) s = .next (s.withDev t) ∧
      t.tnk = { s.dev.tnk with standbyOk := false, failed := s.dev.tnk.failed.set (1 - s.dev.tnk.active) true } := by
  rw [exec_stateTableCheck, execStateTableCheck, hearthEvent_on hon]
  refine ⟨_, rfl, ?_⟩
  rw [if_neg (by simp [hok])]
  dsimp only
  rw [tnk_descriptor, setTnk_tnk]

theorem getD_set_self {α : Type} {l : List α} {k : Nat} (v x : α) (h : k < l.length) : (l.set k v).getD k x = v := by
  rw [List.getD_eq_getElem?_getD, List.getElem?_set_self h]
  rfl

theorem getD_set_default {α : Type} (l : List α) (k : Nat) (v : α) : (l.set k v).getD k v = v := by
  by_cases h : k < l.length
  · exact getD_set_self v v h
  · rw [List.getD_eq_getElem?_getD, List.getElem?_eq_none (by rw [List.length_set]; omega)]
    rfl

/-! TINKER_SWITCH and the swap point. -/

theorem tinkerSwitch_noStandby (h : Hdr) (p : Bytes) : Ends (.tinkerSwitch h p) (fun _ d => d.tnk.standbyOk = false) (fun _ d => d)
    (fun _ _ => .bad St.badState Rsm.noStandby) :=
  ends_of_anvil (sp := specTinkerSwitch) rfl rfl (exec_tinkerSwitch · h p) fun _ _ hok => by
    dsimp only
    rw [if_pos (by simp [hok])]

theorem tinkerSwitch_waits (h : Hdr) (p : Bytes) : Ends (.tinkerSwitch h p) (fun _ d => d.tnk.standbyOk = true ∧ d.upd.act = none)
    (fun c d => { d with tnk := { d.tnk with switchReq := d.tnk.switchReq ++ [c] } }) (fun _ _ => .later) :=
  ends_of_anvil (sp := specTinkerSwitch) rfl rfl (exec_tinkerSwitch · h p) fun _ _ ⟨hok, hact⟩ => by
    dsimp only
    rw [if_neg (not_not.2 hok), if_neg (by simp [hact])]

/-- R466: the roles are exchanged, before the commands that wait are answered. -/
def Dev.swapped (d : Dev) : Dev :=
  let e := (d.setTnk fun t => { t with active := 1 - d.tnk.active, switchReq := [] }).freeVal 8
  let x := e.2.claimsBack.coreRecord d.tnk.active (1 - d.tnk.active) e.1
  if x.upd.phase = 2 then { x with upd := { x.upd with phase := 3 } } else x

theorem swapped_tnk : d.swapped.tnk = { d.tnk with active := 1 - d.tnk.active, switchReq := [] } := by
  have hx (v : Nat) : (((d.setTnk fun t => { t with active := 1 - d.tnk.active, switchReq := [] }).freeVal 8).2.claimsBack.coreRecord
      d.tnk.active (1 - d.tnk.active) v).tnk = { d.tnk with active := 1 - d.tnk.active, switchReq := [] } := by
    rw [tnk_coreRecord, tnk_claimsBack, tnk_freeVal, setTnk_tnk]
  unfold Dev.swapped
  dsimp only
  split <;> exact hx _

theorem swapped_phase (h : d.upd.phase = 2) : d.swapped.upd.phase = 3 := by
  have hx (v : Nat) : (((d.setTnk fun t => { t with active := 1 - d.tnk.active, switchReq := [] }).freeVal 8).2.claimsBack.coreRecord
      d.tnk.active (1 - d.tnk.active) v).upd.phase = 2 := by
    rw [Dev.coreRecord, ashPut_frame]
    dsimp only
    rw [upd_claimsBack, Dev.freeVal]
    dsimp only
    rw [setTnk_frame]
    exact h
  unfold Dev.swapped
  dsimp only
  rw [if_pos (hx _)]

theorem updateSwap_swaps {s : State} (hon : s.dev.hearthOff = false) (hok : s.dev.tnk.standbyOk = true)
    (h : (s.dev.upd.phase = 2 ∧ s.dev.swapDue = true) ∨ s.dev.tnk.switchReq ≠ []) :
    exec .updateSwap s = .next (s.withDev (s.dev.tnk.switchReq.foldl (fun d c => d.finalReply c St.done 0 []) s.dev.swapped)) := by
  rw [exec_updateSwap, execUpdateSwap, hearthEvent_on hon, if_neg]
  · rfl
  · rintro (hno | ⟨hdue, hreq⟩)
    · exact hno hok
    · exact h.elim hdue fun hne => hne hreq

theorem beginsHeld_false (hphase : d.upd.phase = 3) (hreq : d.tnk.switchReq = []) : d.beginsHeld = false := by
  simp [Dev.beginsHeld, hphase, hreq]

/-! Staging (R464, R470). -/

theorem slots_ashPut (ty l : Nat) (b : Bytes) : (d.ashPut ty l b).ash.slots = d.ash.slots := by
  unfold Dev.ashPut
  extract_lets lim
  split <;> rfl

theorem boot_ashPut (ty l : Nat) (b : Bytes) : (d.ashPut ty l b).ash.boot = d.ash.boot := by
  unfold Dev.ashPut
  extract_lets lim
  split <;> rfl

theorem upd_ashPut (ty l : Nat) (b : Bytes) : (d.ashPut ty l b).upd = d.upd := by rw [ashPut_frame]

theorem updateStage_active (h : Hdr) (p : Bytes) : EndsOn (.updateStage h p) (fun _ _ d => d.tnk.slotOf.getD d.tnk.active 0 = u8 p 0)
    (fun _ hp d => (hp, d)) (fun _ _ _ => .bad St.badState Rsm.slotActive) :=
  endsOn_of_anvilR (sp := specUpdateStage) rfl rfl (exec_updateStage · h p) fun _ _ _ hslot => if_pos hslot

theorem updateStage_queues (h : Hdr) (p : Bytes) (o : Obj) : EndsOn (.updateStage h p)
    (fun _ hp d => d.tnk.slotOf.getD d.tnk.active 0 ≠ u8 p 0 ∧ hp.buf (u16 p 2) = some o ∧ o.lost = false)
    (fun c hp d => (hp, { d with upd := { d.upd with staging := d.upd.staging ++ [c] } })) (fun _ _ _ => .accepted) :=
  endsOn_of_anvilR (sp := specUpdateStage) rfl rfl (exec_updateStage · h p) fun c hp d ⟨hslot, ho, hlost⟩ => by
    dsimp only
    rw [if_neg hslot, ho]
    dsimp only
    rw [if_neg (by simp [hlost])]

/-- R464, R470: an image written to slot `k`. -/
def Dev.imageStaged (d : Dev) (k : Nat) (img : Bytes) : Dev :=
  let e := d.flashWrote true
  { e with ash := { e.ash with slots := e.ash.slots.set (k - 1) (slotOfImage (d.rd 0 R.TNK_FLOOR) img) } }

theorem slot_imageStaged {k : Nat} (img : Bytes) (hlen : d.ash.slots.length = 2) (hk : k = 1 ∨ k = 2) :
    (d.imageStaged k img).slot k = slotOfImage (d.rd 0 R.TNK_FLOOR) img := by
  exact getD_set_self (l := d.ash.slots) _ _ (by omega)

/-- The device without the oldest staging. -/
def Dev.unstaged (d : Dev) : Dev := { d with upd := { d.upd with staging := [] } }

theorem rd_unstaged (k : Nat) (g : Fld) : d.unstaged.rd k g = d.rd k g := rfl

/-- A staging of a raw image whose buffer is there and whose flash write holds. -/
structure Stages (s : State) (c : Cmd) (o : Obj) : Prop where
  on : s.dev.hearthOff = false
  staging : s.dev.upd.staging = [c]
  raw : u8 c.p 1 = 0
  answered : c.h.answered = none
  buf : s.heap.buf (u16 c.p 2) = some o
  there : o.lost = false

section
variable {c : Cmd} {o : Obj} {s : State} (h : Stages s c o)
include h

/-- R464: what a staging comes to, by what the image is refused for. -/
theorem updateStageDone_ends : exec .updateStageDone s = .next (s.withDev (
    match imageBad (s.dev.unstaged.rd 0 R.TNK_FLOOR) (o.read (u32 c.p 4) (u32 c.p 8)) with
    | some r => (s.dev.unstaged.imageStaged (u8 c.p 0) (o.read (u32 c.p 4) (u32 c.p 8))).complete c St.fault r
    | none => ((s.dev.unstaged.imageStaged (u8 c.p 0) (o.read (u32 c.p 4) (u32 c.p 8))).patchRecord (u8 c.p 0)
        (slotOfImage (s.dev.unstaged.rd 0 R.TNK_FLOOR) (o.read (u32 c.p 4) (u32 c.p 8))).level 0).complete c St.done 0)) := by
  obtain ⟨hon, hstaging, hraw, hans, hbuf, hthere⟩ := h
  have hok : flashOk c.h = true := by rw [flashOk, hans]; rfl
  rw [exec_updateStageDone, execUpdateStageDone, hearthEvent_on hon, hstaging]
  generalize hu : s.dev.unstaged = u
  unfold Dev.unstaged at hu
  dsimp only at hu ⊢
  rw [hu, hbuf]
  dsimp only
  rw [if_neg (by simp [hthere])]
  dsimp only
  rw [hok, if_pos hraw, if_neg (by decide), if_pos rfl]
  unfold Dev.imageStaged
  dsimp only [Option.getD_some] <;> cases imageBad (u.rd 0 R.TNK_FLOOR) (o.read (u32 c.p 4) (u32 c.p 8)) <;> rfl

variable (hlen : s.dev.ash.slots.length = 2) (hk : u8 c.p 0 = 1 ∨ u8 c.p 0 = 2)
include hlen hk

theorem updateStageDone_verified (hbad : imageBad (s.dev.rd 0 R.TNK_FLOOR) (o.read (u32 c.p 4) (u32 c.p 8)) = none) : ∃ t : Dev,
    exec .updateStageDone s = .next (s.withDev (t.complete c St.done 0)) ∧ t.upd.staging = [] ∧ (t.slot (u8 c.p 0)).state = 1 ∧
      (t.slot (u8 c.p 0)).image = o.read (u32 c.p 4) (u32 c.p 8) := by
  have hrun := updateStageDone_ends h
  rw [rd_unstaged, hbad] at hrun
  refine ⟨_, hrun, ?_⟩
  rw [Dev.patchRecord, upd_ashPut, Dev.slot, slots_ashPut, ← Dev.slot, slot_imageStaged _ _ (show s.dev.unstaged.ash.slots.length = 2 from hlen) hk, rd_unstaged]
  exact ⟨rfl, by rw [slotOfImage, hbad]; rfl, rfl⟩

theorem updateStageDone_refused {r : Nat} (hbad : imageBad (s.dev.rd 0 R.TNK_FLOOR) (o.read (u32 c.p 4) (u32 c.p 8)) = some r) : ∃ t : Dev,
    exec .updateStageDone s = .next (s.withDev (t.complete c St.fault r)) ∧ t.upd.staging = [] ∧ (t.slot (u8 c.p 0)).state = 2 := by
  have hrun := updateStageDone_ends h
  rw [rd_unstaged, hbad] at hrun
  refine ⟨_, hrun, rfl, ?_⟩
  rw [slot_imageStaged _ _ (show s.dev.unstaged.ash.slots.length = 2 from hlen) hk, rd_unstaged, slotOfImage, hbad]
  rfl

end

/-! Activation (R466, R470). -/

theorem updateActivate_noStandby (h : Hdr) (p : Bytes) : Ends (.updateActivate h p) (fun _ d => d.tnk.standbyOk = false) (fun _ d => d)
    (fun _ _ => .bad St.badState Rsm.noStandby) :=
  ends_of_anvil (sp := specUpdateActivate) rfl rfl (exec_updateActivate · h p) fun _ _ hok => by
    dsimp only
    rw [if_pos (by simp [hok])]

theorem updateActivate_notStaged (h : Hdr) (p : Bytes) : Ends (.updateActivate h p)
    (fun _ d => d.tnk.standbyOk = true ∧ d.upd.act = none ∧ d.tnk.switchReq = [] ∧ u8 p 0 ≠ 0 ∧ (d.slot (u8 p 0)).state ≠ 1)
    (fun _ d => d) (fun _ _ => .bad St.badState Rsm.notStaged) :=
  ends_of_anvil (sp := specUpdateActivate) rfl rfl (exec_updateActivate · h p) fun _ _ ⟨hok, hact, hreq, hslot⟩ => by
    dsimp only
    rw [if_neg (not_not.2 hok), if_neg (by simp [hact, hreq]), if_pos hslot]

theorem updateActivate_begins (h : Hdr) (p : Bytes) : Ends (.updateActivate h p)
    (fun _ d => d.tnk.standbyOk = true ∧ d.upd.act = none ∧ d.tnk.switchReq = [] ∧ (u8 p 0 = 0 ∨ (d.slot (u8 p 0)).state = 1))
    (fun c d => { d with upd := { d.upd with act := some (c, u8 p 0), phase := 1 } }) (fun _ _ => .accepted) :=
  ends_of_anvil (sp := specUpdateActivate) rfl rfl (exec_updateActivate · h p) fun _ _ ⟨hok, hact, hreq, hslot⟩ => by
    dsimp only
    rw [if_neg (not_not.2 hok), if_neg (by simp [hact, hreq]), if_neg (by tauto)]

/-- R466: the standby runs without a patch image. -/
def Dev.standbyUnpatched (d : Dev) : Dev :=
  let d := d.setTnk fun t => { t with patchOf := t.patchOf.set (1 - d.tnk.active) 0, slotOf := t.slotOf.set (1 - d.tnk.active) 0 }
  { d with upd := { d.upd with phase := 2, readyAt := d.media } }

theorem standbyPatchReady_runs {c : Cmd} {s : State} (hon : s.dev.hearthOff = false) (hact : s.dev.upd.act = some (c, 0)) (hphase : s.dev.upd.phase = 1)
    (hok : s.dev.tnk.standbyOk = true) : exec (.standbyPatchReady true) s = .next (s.withDev s.dev.standbyUnpatched) := by
  rw [exec_standbyPatchReady, execStandbyPatchReady, hearthEvent_on hon, hact]
  dsimp only
  rw [if_neg (by simp [hphase]), if_neg (by simp [hok])]
  rfl

theorem standbyUnpatched_shows : d.standbyUnpatched.upd.phase = 2 ∧ d.standbyUnpatched.upd.readyAt = d.media ∧
    d.standbyUnpatched.tnk.active = d.tnk.active := by
  unfold Dev.standbyUnpatched
  dsimp only
  rw [setTnk_frame]
  exact ⟨rfl, rfl, rfl⟩

theorem standbyPatchReady_fails {c : Cmd} {s : State} (hon : s.dev.hearthOff = false) (hact : s.dev.upd.act = some (c, 0)) (hphase : s.dev.upd.phase = 1) :
    exec (.standbyPatchReady false) s = .next (s.withDev
      (({ s.dev with upd := { s.dev.upd with act := none, phase := 0 } } : Dev).complete c St.fault 0)) := by
  rw [exec_standbyPatchReady, execStandbyPatchReady, hearthEvent_on hon, hact]
  dsimp only
  rw [if_neg (by simp [hphase]), if_pos (.inl Bool.false_ne_true)]
  rfl

/-- R466: the activation is over: both cores run the same patch. -/
def Dev.actDone (d : Dev) : Dev :=
  let d := d.setTnk fun t => t.copyPatch (1 - t.active) t.active
  { d with upd := { d.upd with act := none, phase := 0 } }

/-- R466: the old core has loaded the image of slot `k`; the floor and the journal follow. -/
def Dev.activated (d : Dev) (k : Nat) : Dev :=
  let x := d.slot k
  let e := d.actDone
  let e := if k ≠ 0 ∧ x.raise then e.wr 0 R.TNK_FLOOR (max (e.rd 0 R.TNK_FLOOR) (min 63 x.level)) else e
  (if k = 0 then e.patchRecord 0 0 2 else e.patchRecord k x.level 1).flashWrote true

/-- What of an activation ends, and where the boot configuration stands. -/
def Dev.actView (d : Dev) : Option (Cmd × Nat) × Nat × List (Option BootCfg) := (d.upd.act, d.upd.phase, d.ash.boot)

theorem actView_actDone : d.actDone.actView = (none, 0, d.ash.boot) := by
  unfold Dev.actDone
  dsimp only
  rw [setTnk_frame]
  rfl

theorem actView_activated (k : Nat) : (d.activated k).actView = (none, 0, d.ash.boot) := by
  have hpatch (e : Dev) (k l a : Nat) : (e.patchRecord k l a).actView = e.actView := by
    rw [Dev.actView, Dev.patchRecord, upd_ashPut, boot_ashPut, Dev.actView]
  have hflash (e : Dev) : (e.flashWrote true).actView = e.actView := rfl
  have hfloor (e : Dev) (p : Prop) [Decidable p] (v : Nat) : (if p then e.wr 0 R.TNK_FLOOR v else e).actView = e.actView := by
    split <;> rfl
  unfold Dev.activated
  dsimp only
  rw [hflash]
  split <;> rw [hpatch, hfloor, actView_actDone]

theorem updateActivateDone_completes {c : Cmd} {k : Nat} {s : State} (hon : s.dev.hearthOff = false) (hact : s.dev.upd.act = some (c, k))
    (hphase : s.dev.upd.phase = 3) (hans : c.h.answered = none) : exec .updateActivateDone s = .next (s.withDev
      (((s.dev.activated k).bootSave fun b => { b with slot := k }).complete c St.done 0)) := by
  have hok : flashOk c.h = true := by rw [flashOk, hans]; rfl
  rw [exec_updateActivateDone, execUpdateActivateDone, hearthEvent_on hon, hact]
  dsimp only
  rw [if_neg (by simp [hphase]), hok, if_pos rfl]
  rfl

/-- The data of UPDATE_STATUS. -/
def updateReport (d : Dev) : Bytes :=
  enc 1 (d.tnk.slotOf.getD d.tnk.active 0) ++ zeros 3
    ++ (([1, 2] : List Nat).map fun k => let x := d.slot k; enc 1 x.state ++ zeros 1 ++ enc 2 x.level ++ enc 1 x.key ++ zeros 3).flatten
    ++ enc 2 (d.rd 0 R.TNK_FLOOR)

theorem updateReport_length : (updateReport d).length = 22 := by
  simp only [updateReport, List.map_cons, List.map_nil, List.flatten_cons, List.flatten_nil, List.length_append, enc_length, zeros_length, List.length_nil]

theorem updateReport_slot : u8 (updateReport d) 0 = d.tnk.slotOf.getD d.tnk.active 0 % 256 := by
  rw [updateReport, List.append_assoc, List.append_assoc, u8_enc_one]

theorem updateStatus_reports (h : Hdr) (p : Bytes) : Reports (.updateStatus h p) (fun _ _ => True) (fun _ d => updateReport d) :=
  ends_of_anvil (sp := specUpdateStatus) rfl rfl (exec_updateStatus · h p) fun _ _ _ => rfl

end Sys2Proof.Machine
end

section
/-! Resets, start-up and rails (R514, R516, R520–R523). -/

namespace Sys2Proof.Machine

variable (d : Dev)

theorem fnOff_pwr (k rs : Nat) (b : Bytes) : (d.fnOff k rs b).pwr = d.pwr := by rw [fnOff_frame]

theorem fnOff_regs (k rs : Nat) (b : Bytes) : (d.fnOff k rs b).regs = d.regs := by rw [fnOff_frame]

/-! What any reset of a flue die clears. -/

/-- R516, R521: the functions of a flue die go OFF. -/
def Dev.clearFns (d : Dev) (f : Nat) : Dev :=
  let d := (if d.mode = 1 then [0] else [2 * f, 2 * f + 1]).foldl (fun d r => d.fnOff (FnId.region r)) d
  let d := (fromN (4 * f) 4).foldl (fun d n => d.fnOff (FnId.link n)) d
  ((d.fnOff (FnId.lamp f)).fnOff FnId.film).fnOff FnId.retain

theorem clearFns_regs (f : Nat) : (d.clearFns f).regs = d.regs := by
  unfold Dev.clearFns
  dsimp only
  rw [fnOff_regs, fnOff_regs, fnOff_regs]
  exact (foldl_keeps Dev.regs (fun e n => fnOff_regs e _ _ _) _ _).trans (foldl_keeps Dev.regs (fun e n => fnOff_regs e _ _ _) _ _)

theorem clearFns_pwr (f : Nat) : (d.clearFns f).pwr = d.pwr := by
  unfold Dev.clearFns
  dsimp only
  rw [fnOff_pwr, fnOff_pwr, fnOff_pwr]
  exact (foldl_keeps Dev.pwr (fun e n => fnOff_pwr e _ _ _) _ _).trans (foldl_keeps Dev.pwr (fun e n => fnOff_pwr e _ _ _) _ _)

theorem foldl_fnOff_off {l : List Nat} {g : Nat → Nat} {j : Nat} (h : (∃ n ∈ l, g n = j) ∨ (d.fn j).st = .off) :
    ((l.foldl (fun d n => d.fnOff (g n)) d).fn j).st = .off := by
  have keep (l : List Nat) (e : Dev) (he : (e.fn j).st = .off) : ((l.foldl (fun d n => d.fnOff (g n)) e).fn j).st = .off :=
    List.foldlRecOn l _ (motive := fun e : Dev => (e.fn j).st = .off) he fun e he n _ => fnOff_off e _ he
  rcases h with ⟨n, hn, rfl⟩ | h
  · obtain ⟨l₁, l₂, rfl⟩ := List.append_of_mem hn
    rw [List.foldl_append, List.foldl_cons]
    exact keep l₂ _ (fnOff_off_self _ _)
  · exact keep l d h

/-- R516, R521: what a flue die ran is OFF after a reset, and what was OFF stays so. -/
theorem clearFns_off {f j : Nat} (h : j = FnId.lamp f ∨ (∃ n, n / 4 = f ∧ FnId.link n = j) ∨ (d.fn j).st = .off) : ((d.clearFns f).fn j).st = .off := by
  unfold Dev.clearFns
  dsimp only
  refine fnOff_off _ _ (fnOff_off _ _ ?_)
  rcases h with rfl | ⟨n, hn, rfl⟩ | h
  · exact fnOff_off_self _ _
  · refine fnOff_off _ _ (foldl_fnOff_off _ (.inl ⟨n, ?_, rfl⟩))
    simp only [fromN, List.mem_map, List.mem_range]
    exact ⟨n - 4 * f, by omega, by omega⟩
  · exact fnOff_off _ _ (foldl_fnOff_off _ (.inr (foldl_fnOff_off _ (.inr h))))

/-- R516, R521: the data side of a flue die, and its marks, in their reset state. -/
def Dev.clearData (d : Dev) (f : Nat) : Dev :=
  { d with
    flu := d.flu.set f {}
    film := { d.film with dies := d.film.dies.set f {}, black := false, stopDark := false, balArm := false, balance := none }
    lamp := { d.lamp with segs := d.lamp.segs.set f {} }
    blw := { d.blw with loops := d.blw.loops.mapIdx fun i x => if i / 24 = f then {} else x }
    lnk := { d.lnk with links := d.lnk.links.mapIdx fun i x => if i / 4 = f then {} else x }
    thm := { d.thm with fluHalt := d.thm.fluHalt.set f false }
    trm := { d.trm with lin := d.trm.lin.filter fun e => e.1 / 16 ≠ f }
    pwr := { d.pwr with ownReset := d.pwr.ownReset.set f true, twinStop := d.pwr.twinStop.set f false } }

theorem clearData_regs (f : Nat) : (d.clearData f).regs = d.regs := rfl

theorem clearData_fns (f : Nat) : (d.clearData f).fns = d.fns := rfl

theorem clearData_pwr (f : Nat) : (d.clearData f).pwr =
    { d.pwr with ownReset := d.pwr.ownReset.set f true, twinStop := d.pwr.twinStop.set f false } := rfl

theorem flueClear_eq (f : Nat) : d.flueClear f = (d.clearFns f).clearData f := by
  generalize hu : d.clearFns f = u
  unfold Dev.clearFns at hu
  unfold Dev.flueClear
  dsimp only at hu ⊢
  rw [hu]
  rfl

theorem flueClear_regs (f : Nat) : (d.flueClear f).regs = d.regs := by rw [flueClear_eq, clearData_regs, clearFns_regs]

theorem flueClear_fn (f j : Nat) : (d.flueClear f).fn j = (d.clearFns f).fn j := fn_congr (by rw [flueClear_eq, clearData_fns]) j

theorem flueClear_pwr (f : Nat) : (d.flueClear f).pwr =
    { d.pwr with ownReset := d.pwr.ownReset.set f true, twinStop := d.pwr.twinStop.set f false } := by
  rw [flueClear_eq, clearData_pwr, clearFns_pwr]

/-- The device without the registers selected. -/
def Dev.dropRegs (d : Dev) (gone : Nat → Bool) : Dev :=
  { d with regs := rfDrop d.regs gone, shadow := rfDrop d.shadow gone, bound := rfDrop d.bound gone }

theorem dropRegs_fns (gone : Nat → Bool) : (d.dropRegs gone).fns = d.fns := rfl

theorem dropRegs_pwr (gone : Nat → Bool) : (d.dropRegs gone).pwr = d.pwr := rfl

theorem amGet_filter {α : Type} (m : List (Nat × α)) {p : Nat → Bool} {k : Nat} (v : α) (h : p k = true) :
    amGet (m.filter fun e => p e.1) k v = amGet m k v := by
  induction m with
  | nil => rfl
  | cons e m ih =>
    obtain ⟨j, w⟩ := e
    by_cases hj : j = k
    · subst hj
      simp [h, amGet]
    · by_cases hp : p j = true <;> simp [hp, amGet, hj, ih]

theorem rd_dropRegs {gone : Nat → Bool} {k : Nat} {g : Fld} (h : gone (regAddr k g.off) = false) : (d.dropRegs gone).rd k g = d.rd k g := by
  have hget : rfGet (rfDrop d.regs gone) (regAddr k g.off) = rfGet d.regs (regAddr k g.off) := amGet_filter (p := fun a => !gone a) (k := regAddr k g.off) d.regs _ (by rw [h]; rfl)
  exact congrArg (fun w : Word => bits w.toNat g.hi g.lo) hget

/-! The soft reset (R521). -/

/-- R521: the registers of a flue die that its soft reset clears. -/
def softGone (f : Nat) : Nat → Bool :=
  ofDie (8 + f) fun off => let b := off / 2 ^ 20; b = 0x30 || b = 0x70 || b = 0x34 || parkReg off

theorem flueSoftReset_eq (f : Nat) : d.flueSoftReset f =
    (fromN (4 * f) 4).foldl (fun d n => d.wr (linkDie n) (R.LNK_FL_STATE_PHASE (linkOn n)) 0) ((d.flueClear f).dropRegs (softGone f)) := rfl

theorem flueSoftReset_fn (f j : Nat) : (d.flueSoftReset f).fn j = (d.clearFns f).fn j := by
  rw [flueSoftReset_eq]
  refine (foldl_keeps (fun e : Dev => e.fn j) (fun e n => fn_congr (wr_fns ..) j) _ _).trans ?_
  rw [fn_congr (dropRegs_fns ..), flueClear_fn]

theorem flueSoftReset_pwr (f : Nat) : (d.flueSoftReset f).pwr =
    { d.pwr with ownReset := d.pwr.ownReset.set f true, twinStop := d.pwr.twinStop.set f false } := by
  rw [flueSoftReset_eq]
  refine (foldl_keeps Dev.pwr (fun e n => wr_pwr ..) _ _).trans ?_
  rw [dropRegs_pwr, flueClear_pwr]

/-- R258, R521: CHS_PARK_T stays. -/
theorem rd_flueSoftReset_parkT (f : Nat) : (d.flueSoftReset f).rd (8 + f) R.CHS_PARK_T = d.rd (8 + f) R.CHS_PARK_T := by
  have hkept : softGone f (regAddr (8 + f) R.CHS_PARK_T.off) = false := by
    have hmod : regAddr (8 + f) R.CHS_PARK_T.off % 2 ^ 28 = R.CHS_PARK_T.off := by
      unfold regAddr
      dsimp only
      omega
    unfold softGone ofDie
    rw [hmod]
    simp [parkReg]
  rw [flueSoftReset_eq]
  refine (foldl_keeps (fun e : Dev => e.rd (8 + f) R.CHS_PARK_T) (fun e n => ?_) _ _).trans ?_
  · have hn : linkOn n < 4 := Nat.mod_lt n (by decide)
    exact rd_wr_off e _ ⟨by decide, by dsimp only; omega, by dsimp only; omega⟩
  · rw [rd_dropRegs _ hkept, rd_congr (flueClear_regs ..)]

/-- R521: the code runs the soft reset once no waveform runs. -/
theorem pwrFlueResetWrite_resets {f : Nat} {s : State} (hf : f ≤ 1) (hrefuse : s.dev.pwr.refuse.getD f false = false)
    (hidle : s.dev.countCells f (·.wave.isSome) = 0) : exec (.pwrFlueResetWrite f 0x52535420) s = .next (s.withDev (s.dev.flueSoftReset f)) := by
  rw [exec_pwrFlueResetWrite, execPwrFlueResetWrite, event_next, if_neg (by omega), Dev.flueResetWrite, if_pos ⟨by decide, by rw [hrefuse]; decide⟩,
    Dev.flueResetAsk, if_pos hidle]

theorem pwrFlueResetWrite_waits {f : Nat} {s : State} (hf : f ≤ 1) (hrefuse : s.dev.pwr.refuse.getD f false = false)
    (hbusy : s.dev.countCells f (·.wave.isSome) ≠ 0) : exec (.pwrFlueResetWrite f 0x52535420) s =
      .next (s.withDev (s.dev.setFilmDie f { s.dev.filmDie f with resetDue := true })) := by
  rw [exec_pwrFlueResetWrite, execPwrFlueResetWrite, event_next, if_neg (by omega), Dev.flueResetWrite, if_pos ⟨by decide, by rw [hrefuse]; decide⟩,
    Dev.flueResetAsk, if_neg hbusy]

theorem pwrFlueResetWrite_other (f : Nat) {v : Nat} (s : State) (hv : v % 2 ^ 32 ≠ 0x52535420) : exec (.pwrFlueResetWrite f v) s = .next s := by
  have hno : s.dev.flueResetWrite f (v % 2 ^ 32) = s.dev := if_neg fun h => hv h.1
  rw [exec_pwrFlueResetWrite, execPwrFlueResetWrite, event_next, hno, ite_self]
  rfl

theorem filmDie_setFilmDie_self {f : Nat} (x : FilmDie) (h : f < d.film.dies.length) : (d.setFilmDie f x).filmDie f = x := getD_set_self x _ h

/-! The reset of the flue dies (R516). -/

theorem twinFail_fns : d.twinFail.fns = d.fns := by rw [twinFail_frame]

theorem pathLost_fns (f : Nat) : (d.pathLost f).fns = d.fns := by
  unfold Dev.pathLost
  dsimp only
  split
  · rw [twinFail_fns, wr_fns, wr_fns]
  · rw [wr_fns, wr_fns]

theorem setRole_pwr (r : Nat) : ∃ l, (d.setRole r).pwr = { d.pwr with twinStop := l } := by
  by_cases hr : d.twinRole = r
  · exact ⟨d.pwr.twinStop, by rw [show d.setRole r = d from if_pos hr]⟩
  · have ht : d.setRole r = _ := if_neg hr
    rw [ht]
    dsimp only
    rw [ashPut_frame, raise_frame]
    exact ⟨_, rfl⟩

theorem pathLost_flueUp (f : Nat) : (d.pathLost f).pwr.flueUp = d.pwr.flueUp := by
  unfold Dev.pathLost
  dsimp only
  split
  · unfold Dev.twinFail
    split
    · obtain ⟨l, hl⟩ := setRole_pwr _ 3
      rw [hl]
      rfl
    · rfl
  · rfl

/-- R516: the marks of a damper half that is gone. -/
def Dev.halfCleared (d : Dev) (f : Nat) : Dev :=
  let mine (o : Option Nat) : Option Nat := match o with
    | some i => if laneHalf i = f then none else some i
    | none => none
  { d with
    dmp := { d.dmp with ret := mine d.dmp.ret, moving := mine d.dmp.moving, ends := d.dmp.ends.set f {} }
    clk := { d.clk with synth := d.clk.synth.set f {}, copy := d.clk.copy.set f 0, dies := amDel d.clk.dies (8 + f) }
    film := { d.film with table := [] }
    pwr := { d.pwr with refuse := d.pwr.refuse.set f false, flueUp := d.pwr.flueUp.set f false, lateHalf := d.pwr.lateHalf.set f true } }

theorem halfCleared_fns (f : Nat) : (d.halfCleared f).fns = d.fns := rfl

theorem halfCleared_flueUp (f : Nat) : (d.halfCleared f).pwr.flueUp = d.pwr.flueUp.set f false := rfl

/-- R516: a lane of a half that is gone. -/
def Dev.laneCleared (d : Dev) (i : Nat) : Dev :=
  ((d.wr 0 (R.DMP_LANE_PHASE i) 0).wr 0 (R.DMP_LANE_ROLE i) 0).wr 0 (R.DMP_LANE_LOCKED i) 0

theorem laneCleared_fns (i : Nat) : (d.laneCleared i).fns = d.fns := by rw [Dev.laneCleared, wr_fns, wr_fns, wr_fns]

theorem laneCleared_pwr (i : Nat) : (d.laneCleared i).pwr = d.pwr := by rw [Dev.laneCleared, wr_pwr, wr_pwr, wr_pwr]

theorem flueReset_eq (f : Nat) (on : Bool) : d.flueReset f on = ((halfLanes f).foldl Dev.laneCleared
    (((d.pathLost f).flueClear f).dropRegs (ofDie (8 + f) fun off => !on && parkReg off))).halfCleared f := by
  generalize hu : ((d.pathLost f).flueClear f).dropRegs (ofDie (8 + f) fun off => !on && parkReg off) = u
  unfold Dev.dropRegs at hu
  unfold Dev.flueReset
  dsimp only at hu ⊢
  rw [hu]
  rfl

theorem flueReset_fn (f : Nat) (on : Bool) (j : Nat) : (d.flueReset f on).fn j = ((d.pathLost f).clearFns f).fn j := by
  rw [flueReset_eq, fn_congr (halfCleared_fns ..), fn_congr (foldl_keeps Dev.fns laneCleared_fns _ _), fn_congr (dropRegs_fns ..), flueClear_fn]

theorem flueReset_flueUp (f : Nat) (on : Bool) : (d.flueReset f on).pwr.flueUp = d.pwr.flueUp.set f false := by
  rw [flueReset_eq, halfCleared_flueUp, foldl_keeps Dev.pwr laneCleared_pwr, dropRegs_pwr, flueClear_pwr]
  exact congrArg (List.set · f false) (pathLost_flueUp d f)

theorem flueReset_segSt_self (f : Nat) (on : Bool) : (d.flueReset f on).segSt f = .off := by
  rw [Dev.segSt, flueReset_fn]
  exact clearFns_off _ (.inl rfl)

theorem flueReset_segSt (f : Nat) (on : Bool) {k : Nat} (h : d.segSt k = .off) : (d.flueReset f on).segSt k = .off := by
  rw [Dev.segSt, flueReset_fn]
  exact clearFns_off _ (.inr (.inr ((congrArg Fn.st (fn_congr (pathLost_fns d f) _)).trans h)))

/-- R516: the flue dies are held in reset. -/
def Dev.flueHold (d : Dev) : Dev := { d with pwr := { d.pwr with flueHeld := true } }

theorem flueHold_pwr : d.flueHold.pwr = { d.pwr with flueHeld := true } := rfl

theorem segSt_flueHold (k : Nat) : d.flueHold.segSt k = d.segSt k := rfl

theorem flueResetAssert_next (on : Bool) (s : State) :
    exec (.flueResetAssert on) s = .next (s.withDev ((s.dev.flueReset 0 on).flueReset 1 on).flueHold) := by
  rw [exec_flueResetAssert, execFlueResetAssert, event_next, List.foldl_cons, List.foldl_cons, List.foldl_nil, Dev.flueHold]

/-- R516: both flue dies reset and held. -/
theorem flueResets_show (on : Bool) (hlen : d.pwr.flueUp.length = 2) :
    ((d.flueReset 0 on).flueReset 1 on).flueHold.pwr.flueHeld = true ∧ ((d.flueReset 0 on).flueReset 1 on).flueHold.segSt 0 = .off ∧
      ((d.flueReset 0 on).flueReset 1 on).flueHold.segSt 1 = .off ∧ ((d.flueReset 0 on).flueReset 1 on).flueHold.pwr.flueUp = [false, false] := by
  obtain ⟨a, b, hab⟩ := List.length_eq_two.1 hlen
  rw [flueHold_pwr, segSt_flueHold, segSt_flueHold]
  refine ⟨rfl, flueReset_segSt _ 1 on (flueReset_segSt_self _ 0 on), flueReset_segSt_self _ 1 on, ?_⟩
  dsimp only
  rw [flueReset_flueUp, flueReset_flueUp, hab]
  rfl

/-! The flue dies leave reset (R523, R327). -/

/-- A damper lane is trained again. -/
def Dev.laneAgain (d : Dev) (f i : Nat) : Dev := (d.wr 0 (R.DMP_LANE_PHASE i) 1).wr (8 + f) (R.DMP_LANE_PHASE i) 1

theorem halfAgain_eq {f : Nat} (h : d.lnk.startup ≠ 0) : d.halfAgain f = (halfLanes f).foldl (fun d i => d.laneAgain f i) d := if_neg h

theorem laneAgain_lnk (f i : Nat) : (d.laneAgain f i).lnk = d.lnk := by rw [Dev.laneAgain, wr_lnk, wr_lnk]

theorem laneAgain_pwr (f i : Nat) : (d.laneAgain f i).pwr = d.pwr := by rw [Dev.laneAgain, wr_pwr, wr_pwr]

theorem lanePhase_laneAgain_self (f : Nat) {i : Nat} (hi : i < 36) : (d.laneAgain f i).rd 0 (R.DMP_LANE_PHASE i) = 1 := by
  rw [Dev.laneAgain, rd_wr_die _ _ ⟨by dsimp only; omega, by dsimp only; omega, by omega⟩, rd_wr_eq _ ⟨by dsimp only; omega, by dsimp only; omega⟩ (by dsimp only; omega)]

theorem lanePhase_laneAgain (f : Nat) {i j : Nat} (hi : i < 36) (hj : j < 36) (h : d.rd 0 (R.DMP_LANE_PHASE i) = 1) :
    (d.laneAgain f j).rd 0 (R.DMP_LANE_PHASE i) = 1 := by
  by_cases he : i = j
  · subst he
    exact lanePhase_laneAgain_self d f hi
  · rw [Dev.laneAgain, rd_wr_die _ _ ⟨by dsimp only; omega, by dsimp only; omega, by omega⟩,
      rd_wr_off _ _ ⟨by dsimp only; omega, by dsimp only; omega, by dsimp only; omega⟩, h]

theorem lanePhase_halfAgain {f i : Nat} (hup : d.lnk.startup ≠ 0) (hi : i < 36) (h : laneHalf i = f ∨ d.rd 0 (R.DMP_LANE_PHASE i) = 1) :
    (d.halfAgain f).rd 0 (R.DMP_LANE_PHASE i) = 1 := by
  have hlanes (j : Nat) (hj : j ∈ halfLanes f) : j < 36 := List.mem_range.1 (List.mem_filter.1 hj).1
  have keep (l : List Nat) (hl : ∀ j ∈ l, j < 36) (e : Dev) (he : e.rd 0 (R.DMP_LANE_PHASE i) = 1) :
      (l.foldl (fun d j => d.laneAgain f j) e).rd 0 (R.DMP_LANE_PHASE i) = 1 :=
    List.foldlRecOn l _ (motive := fun e : Dev => e.rd 0 (R.DMP_LANE_PHASE i) = 1) he fun e he j hj => lanePhase_laneAgain e f hi (hl j hj) he
  rw [halfAgain_eq d hup]
  rcases h with h | h
  · have hm : i ∈ halfLanes f := List.mem_filter.2 ⟨List.mem_range.2 hi, decide_eq_true h⟩
    obtain ⟨l₁, l₂, hl⟩ := List.append_of_mem hm
    rw [hl, List.foldl_append, List.foldl_cons]
    exact keep l₂ (fun j hj => hlanes j (by rw [hl]; simp [hj])) _ (lanePhase_laneAgain_self _ f hi)
  · exact keep _ hlanes d h

theorem halfAgain_lnk {f : Nat} (h : d.lnk.startup ≠ 0) : (d.halfAgain f).lnk = d.lnk := by
  rw [halfAgain_eq d h]
  exact foldl_keeps Dev.lnk (fun e i => laneAgain_lnk e f i) _ d

theorem halfAgain_pwr {f : Nat} (h : d.lnk.startup ≠ 0) : (d.halfAgain f).pwr = d.pwr := by
  rw [halfAgain_eq d h]
  exact foldl_keeps Dev.pwr (fun e i => laneAgain_pwr e f i) _ d

/-- R516: the flue dies out of reset. -/
def Dev.flueReleased (d : Dev) : Dev := { d with pwr := { d.pwr with flueHeld := false, ownReset := [true, true] } }

theorem flueResetRelease_untrained : Occurs .flueResetRelease (fun d => d.pwr.flueHeld = true ∧ d.lnk.startup = 0) Dev.flueReleased :=
  occurs_of_event (exec_flueResetRelease ·) fun d ⟨hheld, hup⟩ => by
    rw [if_neg (not_not.2 hheld)]
    exact if_pos hup

theorem flueResetRelease_trains {s : State} (hheld : s.dev.pwr.flueHeld = true) (hup : s.dev.lnk.startup ≠ 0) :
    exec .flueResetRelease s = .next (s.withDev ((s.dev.flueReleased.halfAgain 0).halfAgain 1)) := by
  rw [exec_flueResetRelease, execFlueResetRelease, event_next, if_neg (not_not.2 hheld)]
  exact congrArg (fun x => Host.Outcome.next (s.withDev x)) (if_neg hup)

theorem laneHalf_cases (i : Nat) : laneHalf i = 0 ∨ laneHalf i = 1 := by
  unfold laneHalf
  split <;> omega

theorem flueReleased_trained {i : Nat} (hi : i < 36) (hup : d.lnk.startup ≠ 0) :
    ((d.flueReleased.halfAgain 0).halfAgain 1).pwr.flueHeld = false ∧ ((d.flueReleased.halfAgain 0).halfAgain 1).rd 0 (R.DMP_LANE_PHASE i) = 1 := by
  have h0 : d.flueReleased.lnk.startup ≠ 0 := hup
  have h1 : (d.flueReleased.halfAgain 0).lnk.startup ≠ 0 := by rwa [halfAgain_lnk _ h0]
  refine ⟨by rw [halfAgain_pwr _ h1, halfAgain_pwr _ h0]; rfl, ?_⟩
  refine lanePhase_halfAgain _ h1 hi ?_
  rcases laneHalf_cases i with h | h
  · exact .inr (lanePhase_halfAgain _ h0 hi (.inl h))
  · exact .inl h

/-! The hearth's reset (R516). -/

/-- R516, R458: what the hearth's reset leaves, before TNK_FLOOR and the damper halves are written. -/
theorem hearthReset_from : ∃ x : Dev,
    d.hearthReset = ((x.wr 0 R.TNK_FLOOR (d.rd 0 R.TNK_FLOOR)).wr 8 (R.DMP_HALF_ON 0) 0).wr 9 (R.DMP_HALF_ON 1) 0 ∧
    x.pwr.hearthHeld = true ∧ x.pwr.ready = false ∧ x.ash.copyA = d.ash.copyA ∧ x.ash.copyB = d.ash.copyB ∧ (x.sess 0).isOpen = false := by
  refine ⟨_, rfl, rfl, rfl, rfl, rfl, ?_⟩
  unfold Dev.sess
  dsimp only
  cases d.anvil.sess with
  | nil => rfl
  | cons x l => rw [List.mapIdx_cons]; rfl

theorem hearthReset_keeps : d.hearthReset.pwr.hearthHeld = true ∧ d.hearthReset.pwr.ready = false ∧ d.hearthReset.ash.copyA = d.ash.copyA ∧
    d.hearthReset.ash.copyB = d.ash.copyB ∧ d.hearthReset.rd 0 R.TNK_FLOOR = d.rd 0 R.TNK_FLOOR ∧ (d.hearthReset.sess 0).isOpen = false := by
  obtain ⟨x, hx, hheld, hready, hA, hB, hsess⟩ := hearthReset_from d
  have hsess' : d.hearthReset.sess 0 = x.sess 0 := by rw [Dev.sess, hx, wr_anvil, wr_anvil, wr_anvil, Dev.sess]
  refine ⟨?_, ?_, ?_, ?_, ?_, by rw [hsess', hsess]⟩
  · rw [hx, wr_pwr, wr_pwr, wr_pwr, hheld]
  · rw [hx, wr_pwr, wr_pwr, wr_pwr, hready]
  · rw [hx, wr_ash, wr_ash, wr_ash, hA]
  · rw [hx, wr_ash, wr_ash, wr_ash, hB]
  · rw [hx, rd_wr_die _ _ (by decide), rd_wr_die _ _ (by decide), rd_wr_eq _ (by decide) (rd_lt d 0 R.TNK_FLOOR)]

theorem resetAssert_next (s : State) : exec .resetAssert s = .next (s.withBoth ({}, s.dev.hearthReset)) := rfl

/-! Start-up (R520, R523). -/

/-- R458: without a valid boot configuration the firmware of the ROM boots. -/
theorem resetRelease_lost : Occurs .resetRelease (fun d => d.pwr.ready = false ∧ d.pwr.done = [] ∧ d.bootCfg = none)
    (fun d => { d with pwr := { d.pwr with hearthHeld := false, resetAt := d.stamp } }.wr 0 R.TNK_BOOTCFG_LOST 1) :=
  occurs_of_event (exec_resetRelease ·) fun d ⟨hready, hdone, hboot⟩ => by
    have hboot' : ({ d with pwr := { d.pwr with hearthHeld := false, resetAt := d.stamp } } : Dev).bootCfg = none := hboot
    have hboot'' : (({ d with pwr := { d.pwr with hearthHeld := false, resetAt := d.stamp } } : Dev).wr 0 R.TNK_BOOTCFG_LOST 1).bootCfg = none := hboot
    rw [if_neg (by simp [hready, hdone])]
    dsimp only at hboot' ⊢
    rw [hboot']
    dsimp only
    unfold Dev.bootPatch
    rw [hboot'']

/-- R56: a stage ticked off. -/
def Dev.stageTicked (d : Dev) (k : Nat) : Dev := { d with pwr := { d.pwr with done := k :: d.pwr.done } }

theorem startupStage_ticks {k : Nat} {s : State} (hk : k = 1 ∨ k = 4) (hready : s.dev.pwr.ready = false) (hheld : s.dev.pwr.hearthHeld = false)
    (hdone : s.dev.pwr.done = []) : exec (.startupStageComplete k [] []) s = .next (s.withDev (s.dev.stageTicked k).stageNow) := by
  have hall : ¬([1, 2, 3, 4, 5] : List Nat).all (k :: s.dev.pwr.done).contains = true := by
    rw [hdone]
    obtain rfl | rfl := hk <;> decide
  rw [exec_startupStageComplete, execStartupStageComplete, eventH_next, if_neg (by simp [hready, hheld, hdone]; omega),
    if_neg (show ¬k = 2 by omega)]
  dsimp only
  rw [if_neg (show ¬k = 3 by omega), if_neg hall]
  rfl

theorem stageNow_stageTicked {k : Nat} (hk : k = 1 ∨ k = 4) (hready : d.pwr.ready = false) (hdone : d.pwr.done = []) :
    (d.stageTicked k).stageNow.pwr.done = [k] ∧ (d.stageTicked k).stageNow.pwr.ready = false ∧ (d.stageTicked k).stageNow.pwr.stage = if k = 1 then 2 else 1 := by
  unfold Dev.stageNow Dev.stageTicked
  dsimp only
  rw [hready, hdone]
  obtain rfl | rfl := hk <;> exact ⟨rfl, rfl, rfl⟩

theorem startupStage_last {s : State} (hready : s.dev.pwr.ready = false) (hheld : s.dev.pwr.hearthHeld = false) (hdone : s.dev.pwr.done = [5, 3, 2, 1]) :
    exec (.startupStageComplete 4 [] []) s = .next (s.withDev ((s.dev.stageTicked 4).nowReady []).stageNow) := by
  have hall : ([1, 2, 3, 4, 5] : List Nat).all (4 :: s.dev.pwr.done).contains = true := by
    rw [hdone]
    decide
  rw [exec_startupStageComplete, execStartupStageComplete, eventH_next, if_neg (by simp [hready, hheld, hdone]), if_neg (show ¬4 = 2 by decide)]
  dsimp only
  rw [if_neg (show ¬4 = 3 by decide), if_pos hall]
  rfl

/-- What READY shows of the power state and the cores. -/
def Dev.readyView (d : Dev) : Bool × Bool := (d.pwr.ready, d.tnk.standbyOk)

theorem readyView_nowReady : (d.nowReady []).readyView = (true, true) := by
  have hset (e : Dev) (he : e.pwr.ready = true) : (e.setTnk fun t => { t with standbyOk := true }).readyView = (true, true) := by
    rw [setTnk_frame, Dev.readyView, he]
  have hregs (e : Dev) : e.regulators [] = e := rfl
  have hboot (e : Dev) (f : BootCfg → BootCfg) : (e.bootSave f).readyView = e.readyView := rfl
  unfold Dev.nowReady
  dsimp only
  rw [hregs]
  split
  · split
    · exact hset _ rfl
    · rw [hboot]
      exact hset _ rfl
  · exact hset _ rfl

theorem stageNow_ready (h : d.readyView = (true, true)) : d.stageNow.pwr.ready = true ∧ d.stageNow.pwr.stage = 0 ∧ d.stageNow.tnk.standbyOk = true := by
  obtain ⟨hready, hok⟩ := Prod.ext_iff.1 h
  exact ⟨hready, if_pos hready, hok⟩

/-! A damper half that comes late (R523). -/

/-- R521, R523: the flue die of a half that has come ON, reset first where it kept its state. -/
def Dev.halfReset (d : Dev) (f : Nat) : Dev := if d.pwr.ownReset.getD f true then d else d.flueSoftReset f

theorem halfReset_pwr (f : Nat) : ∃ a b, (d.halfReset f).pwr = { d.pwr with ownReset := a, twinStop := b } := by
  unfold Dev.halfReset
  split
  · exact ⟨_, _, rfl⟩
  · exact ⟨_, _, flueSoftReset_pwr d f⟩

/-- R523: the flue die is brought in. -/
def Dev.halfIn (d : Dev) (f : Nat) : Dev :=
  { d with pwr := { d.pwr with flueUp := d.pwr.flueUp.set f true, lateHalf := d.pwr.lateHalf.set f false } }

theorem halfIn_pwr (f : Nat) : (d.halfIn f).pwr = { d.pwr with flueUp := d.pwr.flueUp.set f true, lateHalf := d.pwr.lateHalf.set f false } := rfl

theorem pwr_raise (k : Nat) : (d.raise k).pwr = d.pwr := by rw [raise_frame]

/-- R523: its links that are OFF start. -/
def Dev.linkStarts (d : Dev) (n : Nat) : Dev := if d.linkSt n = .off then (d.setFn (FnId.link n) { st := .starting }).beginLink n else d

theorem linkStarts_pwr (n : Nat) : (d.linkStarts n).pwr = d.pwr := by
  unfold Dev.linkStarts
  split
  · rw [beginLink_frame]
    rfl
  · rfl

theorem damperHalfJoin_next {f : Nat} {s : State} (hon : s.dev.hearthOff = false) (hf : f ≤ 1) (hlate : s.dev.pwr.lateHalf.getD f false = true)
    (hhalf : s.dev.rd 0 (R.DMP_HALF_ON f) = 1) (hready : s.dev.pwr.ready = true) : exec (.damperHalfJoin f) s = .next (s.withDev
      (((fromN (4 * f) 4).foldl Dev.linkStarts ((s.dev.halfReset f).halfIn f)).raise (rasterSource f))) := by
  rw [exec_damperHalfJoin, execDamperHalfJoin, hearthEvent_on hon, if_neg (by rw [hlate, hhalf, hready]; simp; omega)]
  rfl

theorem damperHalfJoin_joins {f : Nat} (hf : f ≤ 1) (hlate : d.pwr.lateHalf.length = 2) (hup : d.pwr.flueUp.length = 2) :
    let t := ((fromN (4 * f) 4).foldl Dev.linkStarts ((d.halfReset f).halfIn f)).raise (rasterSource f)
    t.pwr.flueUp.getD f false = true ∧ t.pwr.lateHalf.getD f true = false := by
  intro t
  obtain ⟨a, b, hpwr⟩ := halfReset_pwr d f
  have ht : t.pwr = ((d.halfReset f).halfIn f).pwr := by
    unfold t
    rw [pwr_raise, foldl_keeps Dev.pwr linkStarts_pwr]
  rw [ht, halfIn_pwr, hpwr]
  dsimp only
  exact ⟨getD_set_self _ _ (by omega), getD_set_self _ _ (by omega)⟩

/-! Rail comparators (R514). -/

theorem railComparatorTrip_aon (s : State) : exec (.railComparatorTrip 7 false) s = .next (s.withBoth ({}, s.dev.hearthReset)) := rfl

theorem railComparatorTrip_hob {i : Nat} (high : Bool) {s : State} (hi : i < 4) (hlen : s.dev.fab.cond.length = 4)
    (hcond : s.dev.fab.cond.getD i none = none) : ∃ t : Dev,
    exec (.railComparatorTrip (i + 1) high) s = .next (s.withDev t) ∧ t.fab.cond.getD i none = some Cause.supplyRange ∧ t.fab.failed = s.dev.fab.failed := by
  have hmarked (e : Dev) (he : e.fab = s.dev.fab) : (e.hobCondition i Cause.supplyRange).fab.cond.getD i none = some Cause.supplyRange ∧
      (e.hobCondition i Cause.supplyRange).fab.failed = s.dev.fab.failed := by
    unfold Dev.hobCondition
    rw [he, hcond]
    exact ⟨getD_set_self (l := s.dev.fab.cond) _ _ (by omega), rfl⟩
  rw [exec_railComparatorTrip, execRailComparatorTrip, eventH_next]
  dsimp only
  rw [if_neg (by omega), if_neg (by omega), if_pos (by omega), Nat.add_sub_cancel]
  exact ⟨_, rfl, hmarked _ (wr_fab ..)⟩

end Sys2Proof.Machine
end

section
/-! Twin mode (R527–R529). -/

namespace Sys2Proof.Machine

variable (d : Dev)

/-- What shows of a device's role beside its partner. -/
structure TwinShows (d : Dev) (role heard tracking miss : Nat) : Prop where
  role : d.twinRole = role
  heard : d.rd 0 R.PWR_TWIN_STATE_HEARD = heard
  tracking : d.rd 0 R.PWR_TWIN_STATE_TRACKING = tracking
  miss : d.pwr.twinMiss = miss

variable {d} {r hd tr m : Nat}

theorem TwinShows.now : TwinShows d d.twinRole (d.rd 0 R.PWR_TWIN_STATE_HEARD) (d.rd 0 R.PWR_TWIN_STATE_TRACKING) d.pwr.twinMiss := ⟨rfl, rfl, rfl, rfl⟩

theorem TwinShows.wr (h : TwinShows d r hd tr m) {f : Fld} (v : Nat) (hf : f.off < 2 ^ 28 ∧ f.off ≠ R.PWR_TWIN_STATE_ROLE.off) :
    TwinShows (d.wr 0 f v) r hd tr m := by
  obtain ⟨h1, h2, h3, h4⟩ := h
  have hrd {g : Fld} (hg : g.off = R.PWR_TWIN_STATE_ROLE.off) : (d.wr 0 f v).rd 0 g = d.rd 0 g :=
    rd_wr_off d v ⟨by rw [hg]; decide, hf.1, by rw [hg]; exact Ne.symm hf.2⟩
  exact ⟨(hrd (g := R.PWR_TWIN_STATE_ROLE) rfl).trans h1, (hrd (g := R.PWR_TWIN_STATE_HEARD) rfl).trans h2,
    (hrd (g := R.PWR_TWIN_STATE_TRACKING) rfl).trans h3, h4⟩

theorem TwinShows.bump (h : TwinShows d r hd tr m) {f : Fld} (n : Nat) (hf : f.off < 2 ^ 28 ∧ f.off ≠ R.PWR_TWIN_STATE_ROLE.off) :
    TwinShows (d.bump 0 f n) r hd tr m := h.wr _ hf

theorem TwinShows.wrHeard (h : TwinShows d r hd tr m) {v : Nat} (hv : v < 2) : TwinShows (d.wr 0 R.PWR_TWIN_STATE_HEARD v) r v tr m :=
  ⟨(rd_wr_bits d v (by decide)).trans h.role, rd_wr_eq d (by decide) hv, (rd_wr_bits d v (by decide)).trans h.tracking, h.miss⟩

theorem TwinShows.wrTracking (h : TwinShows d r hd tr m) {v : Nat} (hv : v < 2) : TwinShows (d.wr 0 R.PWR_TWIN_STATE_TRACKING v) r hd v m :=
  ⟨(rd_wr_bits d v (by decide)).trans h.role, (rd_wr_bits d v (by decide)).trans h.heard, rd_wr_eq d (by decide) hv, h.miss⟩

theorem TwinShows.setRole (h : TwinShows d r hd tr m) {n : Nat} (hn : n < 4) : TwinShows (d.setRole n) n hd tr m := by
  by_cases he : d.twinRole = n
  · rw [show d.setRole n = d from if_pos he]
    exact ⟨he, h.heard, h.tracking, h.miss⟩
  · obtain ⟨l, hpwr⟩ := setRole_pwr d n
    have hrd (g : Fld) (hg : g.unreported = true) (hoff : g.off = R.PWR_TWIN_STATE_ROLE.off) :
        (d.setRole n).rd 0 g = (d.wr 0 R.PWR_TWIN_STATE_ROLE n).rd 0 g := by
      have ht : d.setRole n = _ := if_neg he
      rw [ht]
      dsimp only
      refine (rd_ashPut _ hg _ _ _).trans ((rd_raise_unreported _ hg _).trans ?_)
      exact rd_bump_off _ _ ⟨by rw [hoff]; decide, by decide, by rw [hoff]; decide⟩
    refine ⟨(hrd R.PWR_TWIN_STATE_ROLE (by decide) rfl).trans (rd_wr_eq d (by decide) (show n < 2 ^ 2 by omega)),
      (hrd R.PWR_TWIN_STATE_HEARD (by decide) rfl).trans ?_, (hrd R.PWR_TWIN_STATE_TRACKING (by decide) rfl).trans ?_, ?_⟩
    · exact (rd_wr_bits d n (by decide)).trans h.heard
    · exact (rd_wr_bits d n (by decide)).trans h.tracking
    · rw [hpwr]
      exact h.miss

variable (d)

theorem twinHeard_stranger {src : Nat} (role stack frame start : Nat) (sigs : List Nat) (h : src ≠ d.rd 0 R.PWR_TWIN_PARTNER) :
    d.twinHeard src role stack frame start sigs = d := if_pos (.inl h)

/-- R529: a STANDBY device becomes ACTIVE when its partner says that it has FAILED. -/
theorem twinHeard_failed (stack frame start : Nat) (sigs : List Nat) (hrole : d.twinRole = 2) :
    ∃ tr, TwinShows (d.twinHeard (d.rd 0 R.PWR_TWIN_PARTNER) 3 stack frame start sigs) 1 1 tr 0 := by
  generalize ht : d.twinHeard (d.rd 0 R.PWR_TWIN_PARTNER) 3 stack frame start sigs = t
  unfold Dev.twinHeard at ht
  rw [if_neg (by simp)] at ht
  extract_lets diff ok far run was d1 d2 d3 own d4 at ht
  have h1 : TwinShows d1 2 (d.rd 0 R.PWR_TWIN_STATE_HEARD) (d.rd 0 R.PWR_TWIN_STATE_TRACKING) 0 := ⟨hrole, rfl, rfl, rfl⟩
  have h2 : TwinShows d2 2 1 (d.rd 0 R.PWR_TWIN_STATE_TRACKING) 0 := (h1.wrHeard (by decide)).wr _ (by decide)
  have h3 : ∃ tr, TwinShows d3 2 1 tr 0 := by
    unfold d3
    split
    · exact ⟨_, h2.wrTracking (by decide)⟩
    · split
      · exact ⟨_, h2.wrTracking (by decide)⟩
      · exact ⟨_, h2⟩
  obtain ⟨tr, h3⟩ := h3
  have h4 : TwinShows d4 2 1 tr 0 := by
    unfold d4
    split
    · exact h3.bump 1 (by decide)
    · exact h3
  rw [if_pos ⟨rfl, h4.role⟩] at ht
  exact ⟨tr, ht ▸ h4.setRole (by decide)⟩

/-- R528: the eighth heartbeat in step. -/
theorem twinHeard_tracks (stack : Nat) (sigs : List Nat) (hrole : d.twinRole ≠ 0) (hrun : 7 ≤ d.pwr.twinRun) :
    TwinShows (d.twinHeard (d.rd 0 R.PWR_TWIN_PARTNER) 1 stack d.frame (d.ras.startAt % 2 ^ 64) sigs) d.twinRole 1 1 0 := by
  generalize ht : d.twinHeard (d.rd 0 R.PWR_TWIN_PARTNER) 1 stack d.frame (d.ras.startAt % 2 ^ 64) sigs = t
  unfold Dev.twinHeard at ht
  rw [if_neg (by simp)] at ht
  extract_lets diff ok far run was d1 d2 d3 own d4 at ht
  have hdiff : diff = 0 := by
    have hzero : (d.ras.startAt % 2 ^ 64 + 2 ^ 64 - d.ras.startAt % 2 ^ 64) % 2 ^ 64 = 0 := by omega
    unfold diff
    rw [hzero]
    rfl
  have hok : ok = true := by
    unfold ok
    rw [hdiff]
    simp
  have hfar : ¬far = true := by
    unfold far
    rw [hdiff]
    simp
  have hrun8 : run ≥ 8 := by
    unfold run
    rw [if_pos hok]
    omega
  have h1 : TwinShows d1 d.twinRole (d.rd 0 R.PWR_TWIN_STATE_HEARD) (d.rd 0 R.PWR_TWIN_STATE_TRACKING) 0 := ⟨rfl, rfl, rfl, rfl⟩
  have h2 : TwinShows d2 d.twinRole 1 (d.rd 0 R.PWR_TWIN_STATE_TRACKING) 0 := (h1.wrHeard (by decide)).wr _ (by decide)
  have h3 : TwinShows d3 d.twinRole 1 1 0 := by
    unfold d3
    rw [if_neg hfar, if_pos ⟨hrun8, by rw [h2.role]; exact hrole⟩]
    exact h2.wrTracking (by decide)
  have h4 : TwinShows d4 d.twinRole 1 1 0 := by
    unfold d4
    split
    · exact h3.bump 1 (by decide)
    · exact h3
  rw [if_neg (by simp)] at ht
  exact ht ▸ h4

/-! A heartbeat that does not come. -/

/-- R528: a heartbeat missing is counted. -/
def Dev.beatMissed (d : Dev) : Dev :=
  let d := d.bump 0 R.PWR_TWIN_MISSED
  { d with pwr := { d.pwr with twinMiss := d.pwr.twinMiss + 1, twinRun := 0 } }

theorem beatMissed_shows : TwinShows d.beatMissed d.twinRole (d.rd 0 R.PWR_TWIN_STATE_HEARD) (d.rd 0 R.PWR_TWIN_STATE_TRACKING) (d.pwr.twinMiss + 1) := by
  have h := (TwinShows.now (d := d)).bump (f := R.PWR_TWIN_MISSED) 1 (by decide)
  exact ⟨h.role, h.heard, h.tracking, rfl⟩

theorem rd_beatMissed : d.beatMissed.rd 0 R.PWR_TWIN_MISSED = min (d.rd 0 R.PWR_TWIN_MISSED + 1) (2 ^ 32 - 1) := rd_bump_eq d 32 (by decide) 1

/-- R529: the partner is no longer heard. -/
def Dev.partnerLost (d : Dev) : Dev := (d.wr 0 R.PWR_TWIN_STATE_TRACKING 0).wr 0 R.PWR_TWIN_STATE_HEARD 0

theorem twinHeartbeatMissing_next {s : State} (hon : s.dev.hearthOff = false) (hrole : s.dev.twinRole ≠ 0) :
    exec .twinHeartbeatMissing s = .next (s.withDev (
      if s.dev.pwr.twinMiss + 1 < 3 then s.dev.beatMissed
      else if s.dev.beatMissed.partnerLost.twinRole = 2 then s.dev.beatMissed.partnerLost.setRole 1 else s.dev.beatMissed.partnerLost)) := by
  rw [exec_twinHeartbeatMissing, execTwinHeartbeatMissing, hearthEvent_on hon, if_neg fun h => hrole h.1]
  dsimp only
  rw [if_neg hrole]
  rfl

theorem partnerLost_shows : TwinShows d.beatMissed.partnerLost d.twinRole 0 0 (d.pwr.twinMiss + 1) :=
  ((beatMissed_shows d).wrTracking (v := 0) (by decide)).wrHeard (by decide)

theorem rd_partnerLost_missed : d.partnerLost.rd 0 R.PWR_TWIN_MISSED = d.rd 0 R.PWR_TWIN_MISSED :=
  (rd_wr_off _ _ (by decide)).trans (rd_wr_off _ _ (by decide))

theorem twinHeartbeatMissing_standby {s : State} (hon : s.dev.hearthOff = false) (hrole : s.dev.twinRole = 2) (hmiss : 2 ≤ s.dev.pwr.twinMiss) :
    exec .twinHeartbeatMissing s = .next (s.withDev (s.dev.beatMissed.partnerLost.setRole 1)) := by
  rw [twinHeartbeatMissing_next hon (by omega), if_neg (by omega), if_pos ((partnerLost_shows s.dev).role.trans hrole)]

theorem twinHeartbeatMissing_active {s : State} (hon : s.dev.hearthOff = false) (hrole : s.dev.twinRole = 1) : ∃ t : Dev,
    exec .twinHeartbeatMissing s = .next (s.withDev t) ∧ t.twinRole = 1 ∧
      t.rd 0 R.PWR_TWIN_MISSED = min (s.dev.rd 0 R.PWR_TWIN_MISSED + 1) (2 ^ 32 - 1) ∧ t.pwr.twinMiss = s.dev.pwr.twinMiss + 1 := by
  refine ⟨_, twinHeartbeatMissing_next hon (by omega), ?_⟩
  have hmissed := beatMissed_shows s.dev
  have hlost := partnerLost_shows s.dev
  split
  · exact ⟨hmissed.role.trans hrole, rd_beatMissed _, hmissed.miss⟩
  · rw [if_neg (by rw [hlost.role, hrole]; decide)]
    exact ⟨hlost.role.trans hrole, (rd_partnerLost_missed _).trans (rd_beatMissed _), hlost.miss⟩

end Sys2Proof.Machine
end

section
/-! O59. -/

namespace Sys2Proof.Proofs
open Sys2Proof.Machine

/-- Settles O59: each clause from the lemma about the instruction it names. -/
theorem coresUpdatesResetsAndTwins : Obligations.CoresUpdatesResetsAndTwins := by
  unfold Obligations.CoresUpdatesResetsAndTwins
  refine ⟨tinkerSwitch_noStandby, tinkerSwitch_waits, updateStage_active, updateStage_queues, ?staged, ?stageRefused, updateActivate_noStandby,
    updateActivate_notStaged, updateActivate_begins, ?patchReady, ?patchFails, ?swap, ?swapAsked, ?activated, ?updateStatus, ?coreSwitch, ?coreAlone, ?selftest, ?stateTable,
    resetRelease_lost, ?stage, ?lastStage, ?halfJoin, ?aonLow, ?hobRail, ?softWaits, ?softReset, ?softOther, ?hearthReset, ?flueReset, flueResetRelease_untrained,
    ?flueTrained, ?beatFailed, ?beatStranger, ?beatTracks, ?missStandby, ?missActive⟩
  case staged =>
    intro c o s hon hstaging hraw hans hbuf hthere hlen hk hbad
    exact updateStageDone_verified ⟨hon, hstaging, hraw, hans, hbuf, hthere⟩ hlen hk hbad
  case stageRefused =>
    intro c o r s hon hstaging hraw hans hbuf hthere hlen hk hbad
    exact updateStageDone_refused ⟨hon, hstaging, hraw, hans, hbuf, hthere⟩ hlen hk hbad
  case patchReady =>
    intro c s hon hact hphase hok
    exact ⟨_, standbyPatchReady_runs hon hact hphase hok, standbyUnpatched_shows _⟩
  case patchFails =>
    intro c s hon hact hphase
    exact ⟨_, standbyPatchReady_fails hon hact hphase, rfl, rfl⟩
  case swap =>
    intro s hon hok hphase hdue hreq
    have hrun := updateSwap_swaps hon hok (.inl ⟨hphase, hdue⟩)
    rw [hreq] at hrun
    have htnk := swapped_tnk s.dev
    have h3 := swapped_phase s.dev hphase
    exact ⟨_, hrun, congrArg Tnk.active htnk, beginsHeld_false _ h3 (congrArg Tnk.switchReq htnk), h3⟩
  case swapAsked =>
    intro c s hon hok _ hreq
    have hrun := updateSwap_swaps hon hok (.inr (by rw [hreq]; exact List.cons_ne_nil c []))
    rw [hreq] at hrun
    have htnk := swapped_tnk s.dev
    exact ⟨_, hrun, congrArg Tnk.active htnk, congrArg Tnk.switchReq htnk⟩
  case activated =>
    intro c k s hon hact hphase hans hlen
    obtain ⟨hdone, hrest⟩ := Prod.ext_iff.1 (actView_activated s.dev k)
    obtain ⟨hzero, hboot⟩ := Prod.ext_iff.1 hrest
    obtain ⟨b, hb⟩ := bootCfg_bootSave (s.dev.activated k) (f := fun b => { b with slot := k }) (fun _ => rfl) ((congrArg List.length hboot).trans hlen)
    exact ⟨_, _, updateActivateDone_completes hon hact hphase hans, hdone, hzero, hb, rfl⟩
  case updateStatus =>
    intro h p s hm
    exact ⟨_, updateStatus_reports h p s hm trivial, updateReport_length _, updateReport_slot _⟩
  case coreSwitch =>
    intro cause k v s hheld hshut hman hok hlen hsrcs hst hk
    obtain ⟨t, hrun, hactive, hstandby, hfailed, hsrc⟩ := tinkerCoreSwitch_takesOver cause hheld hshut hman hok hsrcs hst hk
    refine ⟨t, hrun, hactive, hstandby, ?_, ?_⟩
    · rw [hfailed, getD_set_self _ _ hlen]
    · rw [hsrc]
      exact ⟨rfl, rfl, rfl⟩
  case coreAlone =>
    intro cause s hheld hshut hman hok
    refine ⟨_, tinkerCoreSwitch_alone cause hheld hshut hman hok, ?_⟩
    rw [setTnk_tnk]
    exact ⟨rfl, rfl⟩
  case selftest =>
    intro s hon hfailed hman
    refine ⟨_, coreSelftestDone_passed hon hfailed hman, ?_⟩
    rw [setTnk_tnk]
    exact ⟨rfl, getD_set_default _ _ _⟩
  case stateTable =>
    intro s hon hok hlen
    obtain ⟨t, hrun, htnk⟩ := stateTableCheck_failed hon hok
    refine ⟨t, hrun, by rw [htnk], ?_⟩
    rw [htnk]
    exact getD_set_self _ _ (by omega)
  case stage =>
    intro k s hk hready hheld hdone
    exact ⟨_, startupStage_ticks hk hready hheld hdone, stageNow_stageTicked _ hk hready hdone⟩
  case lastStage =>
    intro s hready hheld hdone
    exact ⟨_, startupStage_last hready hheld hdone, stageNow_ready _ (readyView_nowReady _)⟩
  case halfJoin =>
    intro f s hon hf hlate hup hwas hhalf hready
    exact ⟨_, damperHalfJoin_next hon hf hwas hhalf hready, damperHalfJoin_joins _ hf hlate hup⟩
  case aonLow =>
    intro s
    obtain ⟨hheld, hready, -⟩ := hearthReset_keeps s.dev
    exact ⟨_, railComparatorTrip_aon s, hheld, hready⟩
  case hobRail =>
    intro i high s hi hlen hcond
    exact railComparatorTrip_hob high hi hlen hcond
  case softWaits =>
    intro f s hf hlen hrefuse hbusy
    exact ⟨_, pwrFlueResetWrite_waits hf hrefuse hbusy, by rw [filmDie_setFilmDie_self _ _ (by omega)], rfl⟩
  case softReset =>
    intro f s hf hrefuse hidle
    refine ⟨_, pwrFlueResetWrite_resets hf hrefuse hidle, ?_, fun n hn => ?_, rd_flueSoftReset_parkT _ f⟩
    · rw [Dev.segSt, flueSoftReset_fn]
      exact clearFns_off _ (.inl rfl)
    · rw [Dev.linkSt, flueSoftReset_fn]
      exact clearFns_off _ (.inr (.inl ⟨n, hn, rfl⟩))
  case softOther =>
    intro f v s hv
    exact pwrFlueResetWrite_other f s hv
  case hearthReset =>
    intro s
    exact ⟨_, resetAssert_next s, hearthReset_keeps _⟩
  case flueReset =>
    intro on s hlen
    exact ⟨_, flueResetAssert_next on s, flueResets_show _ on hlen⟩
  case flueTrained =>
    intro i s hi hheld hup
    exact ⟨_, flueResetRelease_trains hheld hup, flueReleased_trained _ hi hup⟩
  case beatFailed =>
    intro stack frame start sigs s hon hrole
    obtain ⟨tr, h⟩ := twinHeard_failed s.dev stack frame start sigs hrole
    exact ⟨_, by rw [exec_twinHeartbeatRx, execTwinHeartbeatRx, hearthEvent_on hon], h.role, h.heard, h.miss⟩
  case beatStranger =>
    intro src role stack frame start sigs s hon hsrc
    rw [exec_twinHeartbeatRx, execTwinHeartbeatRx, hearthEvent_on hon, twinHeard_stranger _ _ _ _ _ _ hsrc]
    rfl
  case beatTracks =>
    intro stack sigs s hon hrole hrun
    have h := twinHeard_tracks s.dev stack sigs hrole hrun
    exact ⟨_, by rw [exec_twinHeartbeatRx, execTwinHeartbeatRx, hearthEvent_on hon], h.tracking, h.role⟩
  case missStandby =>
    intro s hon hrole hmiss
    have h := (partnerLost_shows s.dev).setRole (n := 1) (by decide)
    exact ⟨_, twinHeartbeatMissing_standby hon hrole hmiss, h.role, h.heard, h.tracking⟩
  case missActive =>
    intro s hon hrole
    exact twinHeartbeatMissing_active hon hrole

end Sys2Proof.Proofs
end
